-- ==== Sys2Proof/Word.lean ====
section
/-! DEFINITION. Word.lean: the words of the machine and the finite map that register files and tables are kept in. -/
namespace Sys2Proof

/-- A byte (R6). -/
abbrev Byte := BitVec 8
/-- A 32-bit register word (R6). -/
abbrev Word := BitVec 32
/-- A 64-bit register or time base (R6, R8). -/
abbrev DWord := BitVec 64

/-- A finite map from numbers to values, as plain data: the first pair with a key gives its value. -/
abbrev SMap (α : Type) := List (Nat × α)

end Sys2Proof
end

