-- ==== Sys2Proof/Syntax.lean ====
section
/-! DEFINITION. Syntax.lean: the commands of the block, one constructor per row of spec/opcode_table.json, with their
operands. The table gives no operands and no bits; the operands are what the rules of each row read from outside
(who writes, which index, a frame's fields, a sampled level, the result of a check made outside the model; assumption 4). -/
namespace Sys2Proof

/-- The six initiators that unlocks and held halves are kept for (R32, R41): the voted Tricycle, the service cores and
the boot supervisor. -/
inductive Initiator where
  | tri | s0 | s1 | s2 | s3 | boot
  deriving DecidableEq, Repr

/-- The number of an initiator, as the bits of REGG_STAT.UNLOCK_HELD count them. -/
def Initiator.idx : Initiator → Nat
  | .tri => 0 | .s0 => 1 | .s1 => 2 | .s2 => 3 | .s3 => 4 | .boot => 5

/-- One of the service cores S0 to S3. -/
def Initiator.isService : Initiator → Bool
  | .s0 | .s1 | .s2 | .s3 => true
  | _ => false

/-- The initiator with number `n`. -/
def Initiator.ofIdx : Nat → Initiator
  | 0 => .tri | 1 => .s0 | 2 => .s1 | 3 => .s2 | 4 => .s3 | _ => .boot

/-- An output stage that keeps itself on only while it is refreshed (R500): a DIO driver or a loop regulator. -/
inductive OutStage where
  | driver (ch : Nat)
  | regulator (loop : Nat)
  deriving DecidableEq, Repr


/-- An access to a Rack bus window (R368): a core's load or store, or a DMA transfer of whole words. -/
inductive RackAcc where
  | load (addr size : Nat)
  | store (addr size data : Nat)
  | dmaRead (addr words : Nat)
  | dmaWrite (addr : Nat) (data : List (BitVec 32))
  deriving DecidableEq, Repr

/-- The status cycle of a request phase (R366): one line low, or none. -/
inductive RackStatus where
  | ack | retry | err | abort
  deriving DecidableEq, Repr

/-- The AMOs. -/
inductive AmoOp where
  | swap | add | xor | and | or | min | max | minu | maxu
  deriving DecidableEq, Repr

/-- An AMO, LR or SC (R30, R381). -/
inductive LockAcc where
  | amo (op : AmoOp) (data : BitVec 64)
  | lr
  | sc (data : BitVec 64)
  deriving DecidableEq, Repr

/-- An access to a CSR (R70): a read alone, or a write of rs1 by CSRRW, CSRRS or CSRRC. -/
inductive CsrAcc where
  | read
  | rw (v : BitVec 64)
  | rs (v : BitVec 64)
  | rc (v : BitVec 64)
  deriving DecidableEq, Repr

/-- A consumer of publications with a refresh timeout of its own (R106), or the local axis of a step and direction entry (R321). -/
inductive Consumer where
  | dio | loop | door | trip | safe
  | axis (entry : Nat)
  deriving DecidableEq, Repr

/-- One binding of a Graft's binding table (R127): identity, type, target (0 input, 1 output), word, mask. -/
structure Bind where
  id : Nat
  typ : Nat
  target : Nat
  word : Nat
  mask : Nat
  deriving DecidableEq, Repr

/-- What hashing and the signature checks give for an image (R432), which the model does not compute: the SHA-384 of the RSA key and of the
SLH-DSA key of its trailer, the first 8 bytes of the SHA-384 of its body, and whether each signature verifies over header and body. -/
structure SigCheck where
  rsaKey : BitVec 384
  slhKey : BitVec 384
  digest : BitVec 64
  rsaOk : Bool
  slhOk : Bool
  deriving DecidableEq, Repr

/-- A slot's images as the boot supervisor reads them (R426, R429, R431, R480): what the checks give for its firmware image and its Orchard
image; the Orchard formats that the firmware runs (R435); and what the sections of the Orchard image hold: register words, memory contents by
address, identity of the door layout, the nodes of each lane in line order (R262), the VLAN IDs (R287), the personality table, and the
RSA and SLH-DSA public keys of the token authorities (R445). -/
structure SlotImage where
  fwSig : SigCheck
  orchSig : SigCheck
  orchMin : Nat
  orchMax : Nat
  words : List (Nat × BitVec 32)
  bytes : List (Nat × List (BitVec 8))
  layoutId : Nat
  hops : List (List Nat)
  vlans : List Nat
  personalities : List (Nat × List (Nat × BitVec 32))
  authorities : List (Nat × Nat)
  deriving DecidableEq, Repr

/-- A gPTP Announce as received (R294, IEEE 802.1AS): domain, the grandmaster's priority vector (priority1, clockQuality, priority2,
identity, steps removed), the second octet of its flags (bit 2 currentUtcOffsetValid, 4 timeTraceable, 5 frequencyTraceable), UTC offset
and time source. -/
structure PtpAnnounce where
  domain : BitVec 8
  prio1 : BitVec 8
  quality : BitVec 32
  prio2 : BitVec 8
  gm : BitVec 64
  steps : BitVec 16
  flags : BitVec 8
  utc : BitVec 16
  source : BitVec 8
  deriving DecidableEq, Repr

/-- What operation 0x03 issues (R447). -/
inductive ProgCmd where
  | start | stop | resume | step
  deriving DecidableEq, Repr

/-- What operation 0x09 asks for (R447). -/
inductive AnnOp where
  | activation | cadence (cid : BitVec 16) | cancel
  deriving DecidableEq, Repr

/-- A Graft image as operation 0x06 carries it (R431, R436): its bytes from the header on, what the checks give for it, and the binding table
that its body holds (R127). -/
structure GraftImage where
  bytes : List Byte
  sig : SigCheck
  bindings : List Bind
  deriving DecidableEq, Repr

/-- What a local tick edge samples from outside (R329, R334, R405, R411, R417, R237): loop readbacks in µA, the HART carriers as a
mask, SUP_IN and HOLD_V in 0.1 V, VGg of the groups in 0.1 V, whether every rail is in its window, 1/32,768 s that the RTC has
counted since it was last brought up to date, the mailbox sessions whose two check units disagree, and the ns of RCO since the edge
before (R414). -/
structure EdgeIn where
  loops : List Nat
  carriers : Nat
  supV : Nat
  holdV : Nat
  groupV : List Nat
  railOk : Bool
  rtc : Nat
  unitBad : List Nat
  rco : Nat
  deriving DecidableEq, Repr
/-- The commands: every row of spec/opcode_table.json. -/
inductive Instr where
  /-- LOCAL_TICK_EDGE (R16). -/
  | localTickEdge (inputs : EdgeIn)
  /-- LANE_TICK_BOUNDARY (R13). -/
  | laneTickBoundary (t : Nat)
  /-- STREAM_AGE_STALE (R266). -/
  | streamAgeStale (m : Nat)
  /-- REGISTER_WRITE (R39). -/
  | registerWrite (t : Nat) (who : Initiator) (addr : BitVec 64) (size : Nat) (data : BitVec 64)
  /-- POP_READ_64 (R32). -/
  | popRead64 (t : Nat) (who : Initiator) (core : Nat) (win : BitVec 64)
  /-- POP_READ_LOW (R32). -/
  | popReadLow (t : Nat) (who : Initiator) (core : Nat) (win : BitVec 64)
  /-- POP_READ_HIGH (R32). -/
  | popReadHigh (t : Nat) (who : Initiator) (core : Nat) (win : BitVec 64)
  /-- POP_READ_32 (R31). -/
  | popRead32 (t : Nat) (who : Initiator) (core : Nat) (win : BitVec 64)
  /-- REGG_UNLOCK (R41). -/
  | reggUnlock (who : Initiator) (key : BitVec 16) (block : BitVec 5)
  /-- UNLOCK_EXPIRY (R41). -/
  | unlockExpiry (who : Initiator)
  /-- REGG_STROBE (R43). -/
  | reggStrobe (who : Initiator) (groups : BitVec 16)
  /-- CFG_PASS_END (R52). -/
  | cfgPassEnd (t : Nat)
  /-- CFG_GRACE_END (R53). -/
  | cfgGraceEnd (t : Nat)
  /-- CYCLE_START_INTERRUPT (R60). -/
  | cycleStartInterrupt (t core : Nat)
  /-- OUTPUT_IMAGE_STORE (R67). -/
  | outputImageStore (t core off size : Nat) (data : BitVec 64)
  /-- TRI_DEVICE_STORE (R73). -/
  | triDeviceStore (t core : Nat) (addr : BitVec 64) (size : Nat) (data : BitVec 64)
  /-- DEVICE_STORE_TIMEOUT (R73). -/
  | deviceStoreTimeout (t : Nat)
  /-- STORE_QUEUE_RESUME (R74). -/
  | storeQueueResume (t core : Nat)
  /-- TCHK_WRITE (R70). -/
  | tchkWrite (t : Nat) (who : Initiator) (core : Nat) (acc : CsrAcc)
  /-- CYC_DONE_WRITE (R100). -/
  | cycDoneWrite (t core : Nat) (value : BitVec 32)
  /-- CORE_FAULT_HALT (R62). -/
  | coreFaultHalt (t core : Nat)
  /-- ECC_CORRECTED (R58). -/
  | eccCorrected
  /-- WINDOW_TIMEOUT (R76). -/
  | windowTimeout (t : Nat)
  /-- VOTER_DECISION (R77). -/
  | voterDecision (t : Nat) (fa fb : BitVec 3)
  /-- VOTER_TEST_DUE (R81). -/
  | voterTestDue (t : Nat) (fa fb : BitVec 3)
  /-- STATE_COPY_COMPLETE (R86). -/
  | stateCopyComplete (t core : Nat) (ok : Bool)
  /-- PUBLICATION_COMPLETE (R101). -/
  | publicationComplete (t : Nat)
  /-- CYCLE_OVERRUN (R103). -/
  | cycleOverrun (t : Nat)
  /-- CYCLE_HANG (R104). -/
  | cycleHang (t : Nat)
  /-- REFRESH_TIMEOUT (R106). -/
  | refreshTimeout (t : Nat) (who : Consumer)
  /-- START (R111). -/
  | start (t : Nat) (who : Initiator)
  /-- STOP (R111). -/
  | stop (t : Nat) (who : Initiator)
  /-- HOLD (R111). -/
  | hold (t : Nat) (who : Initiator)
  /-- RESUME (R111). -/
  | resume (t : Nat) (who : Initiator)
  /-- STEP (R111). -/
  | step (t : Nat) (who : Initiator)
  /-- ARM (R122). -/
  | arm (t : Nat) (who : Initiator) (id : BitVec 64) (bindings : List Bind)
  /-- DISARM (R122). -/
  | disarm (t : Nat) (who : Initiator)
  /-- FORCE_BIND (R116). -/
  | forceBind (t : Nat) (who : Initiator) (entry : BitVec 8) (ctrl : BitVec 32)
  /-- FORCE_RELEASE (R117). -/
  | forceRelease (t : Nat) (who : Initiator) (entry : BitVec 8) (ctrl : BitVec 32)
  /-- FORCE_VALUE_WRITE (R116). -/
  | forceValueWrite (t : Nat) (who : Initiator) (entry : BitVec 8) (value : BitVec 64)
  /-- FEEDBACK_DEADLINE (R135). -/
  | feedbackDeadline (t : Nat) (mismatch : Bool) (dur plan : Nat)
  /-- FEEDBACK_FAULT_TIMEOUT (R136). -/
  | feedbackFaultTimeout (t n : Nat)
  /-- LOCK_TIMEOUT (R139). -/
  | lockTimeout (t n : Nat)
  /-- REOPEN_DWELL_END (R139). -/
  | reopenDwellEnd (t n : Nat)
  /-- ACC_WIN_END (R144). -/
  | accWinEnd (t n : Nat)
  /-- ENVELOPE_UPDATE (R147). -/
  | envelopeUpdate (t n : Nat)
  /-- HOLD_MS_END (R175). -/
  | holdMsEnd (t n : Nat)
  /-- MOVE (R179). -/
  | move (t slot : Nat)
  /-- REPLACE (R179). -/
  | replace (t slot : Nat)
  /-- GSTART (R181). -/
  | gstart (t slot : Nat)
  /-- GSTART_INTERP (R182). -/
  | gstartInterp (t slot : Nat)
  /-- HOME (R183). -/
  | home (t slot : Nat)
  /-- MOTION_STOP (R175). -/
  | motionStop (t slot : Nat)
  /-- TAKE (R179). -/
  | take (t slot : Nat)
  /-- GIVE (R180). -/
  | give (t slot : Nat)
  /-- LIMIT_TRIP (R174). -/
  | limitTrip (t n : Nat)
  /-- HOME_EDGE_QUALIFIED (R184). -/
  | homeEdgeQualified (t n : Nat)
  /-- HOMING_TIMEOUT (R185). -/
  | homingTimeout (t n : Nat)
  /-- TRIP_EVALUATION (R202). -/
  | tripEvaluation (t : Nat) (f0 f1 f2 : BitVec 512) (xfail : Bool)
  /-- TRIP_VOTER_TEST (R204). -/
  | tripVoterTest (t : Nat) (f0 f1 f2 : BitVec 512) (xfail : Bool)
  /-- TRIP_SWAP (R205). -/
  | tripSwap (t : Nat) (who : Initiator) (bank : Bool)
  /-- EVENT_SPOKE (R208). -/
  | eventSpoke (t : Nat)
  /-- SPOKE_RX (R210). -/
  | spokeRx (t lane : Nat) (frame : List Byte) (fcs : Bool)
  /-- SOURCE_LOSS (R211). -/
  | sourceLoss (t src : Nat)
  /-- RESET_RELEASE (R217). -/
  | resetRelease (t fn : Nat)
  /-- RESET_HIGH_TOO_LONG (R217). -/
  | resetHighTooLong (t fn : Nat)
  /-- TRIP_RESTART (R218). -/
  | tripRestart (t : Nat) (who : Initiator) (fn : BitVec 5)
  /-- SAFE_TX_BUILD (R228). -/
  | safeTxBuild (t n : Nat) (unit : Bool)
  /-- SAFE_TELEGRAM_RX (R232). -/
  | safeTelegramRx (t n : Nat) (telegram : List Byte) (unit : Bool)
  /-- SAFE_RX_TIMEOUT (R231). -/
  | safeRxTimeout (t n : Nat)
  /-- SESSION_OPEN (R227). -/
  | sessionOpen (t : Nat) (who : Initiator) (n : BitVec 7)
  /-- SESSION_CLOSE (R227). -/
  | sessionClose (t : Nat) (who : Initiator) (n : BitVec 7)
  /-- CRC_DATA (R240). -/
  | crcData (who : Initiator) (e : BitVec 3) (data : BitVec 32)
  /-- CRC_DATA64 (R240). -/
  | crcData64 (who : Initiator) (e : BitVec 3) (data : BitVec 64)
  /-- JOB (R240). -/
  | job (who : Initiator) (e : BitVec 3)
  /-- CRC_JOB_DONE (R240). -/
  | crcJobDone (e : BitVec 3)
  /-- SAVE (R243). -/
  | save (who : Initiator) (e : BitVec 3) (k : BitVec 7)
  /-- LOAD (R243). -/
  | load (who : Initiator) (e : BitVec 3) (k : BitVec 7)
  /-- CRC_INIT (R239). -/
  | crcInit (who : Initiator) (e : BitVec 3)
  /-- CRC_VAL_WRITE (R239). -/
  | crcValWrite (who : Initiator) (e : BitVec 3) (val : BitVec 64)
  /-- CRC_CFG_WRITE (R244). -/
  | crcCfgWrite (who : Initiator) (e : BitVec 3) (cfg : BitVec 32) (folded : Nat)
  /-- SNOOP_FRAME_END (R241). -/
  | snoopFrameEnd (e : BitVec 3) (key : BitVec 16) (data : List Byte) (addr : BitVec 64) (fcs : Bool)
  /-- FRAME_FORWARD (R246). -/
  | frameForward (t lane : Nat) (fromDn : Bool) (frame : List Byte) (residence : Nat) (fcs : Bool)
  /-- LANE_LINK_UP (R247). -/
  | laneLinkUp (t lane dn : Nat)
  /-- LANE_LINK_DOWN (R270). -/
  | laneLinkDown (t lane dn : Nat)
  /-- PREEMPT_VERIFY_DONE (R247). -/
  | preemptVerifyDone (t lane dn : Nat) (ok : Bool)
  /-- SCHEDULED_FRAME_TX (R248). -/
  | scheduledFrameTx (t lane entry : Nat)
  /-- SYNC_RX (R273). -/
  | syncRx (t lane dn : Nat) (frame : List Byte) (fcs : Bool)
  /-- COLDSTART_RX (R271). -/
  | coldstartRx (t lane dn : Nat) (frame : List Byte) (fcs : Bool)
  /-- PDELAY_REQ (R274). -/
  | pdelayReq (t lane dn : Nat) (frame : List Byte) (fcs : Bool) (turn : Nat)
  /-- PDELAY_RESP (R274). -/
  | pdelayResp (t lane dn t1 t4 : Nat) (frame : List Byte) (fcs : Bool)
  /-- STATUS_RX (R276). -/
  | statusRx (t lane : Nat) (frame : List Byte) (fcs : Bool)
  /-- DATA_RX (R265). -/
  | dataRx (t lane : Nat) (frame : List Byte) (fcs : Bool)
  /-- FEEDBACK_RX (R256). -/
  | feedbackRx (t lane : Nat) (frame : List Byte) (fcs : Bool)
  /-- LISTEN_END (R271). -/
  | listenEnd (t lane : Nat)
  /-- CONTEST_WINDOW_END (R271). -/
  | contestWindowEnd (t lane : Nat)
  /-- SYNC_LOSS (R270). -/
  | syncLoss (t lane : Nat)
  /-- MASTER_SILENT (R272). -/
  | masterSilent (t lane : Nat)
  /-- ANNOUNCE_CADENCE (R278). -/
  | announceCadence (t : Nat) (who : Initiator) (cid : BitVec 16)
  /-- ANNOUNCE_ACTIVATE (R278). -/
  | announceActivate (t : Nat) (who : Initiator) (cid : BitVec 16)
  /-- CANCEL (R278). -/
  | cancel (t : Nat) (who : Initiator)
  /-- MODE_CHANGE_DECISION (R278). -/
  | modeChangeDecision (t : Nat)
  /-- BANK_SWITCH (R278). -/
  | bankSwitch (t : Nat)
  /-- LANE_FREEWHEEL (R282). -/
  | laneFreewheel (t : Nat)
  /-- PTP_SYNC_RX (R283). -/
  | ptpSyncRx (t port : Nat) (domain : BitVec 8) (gm : Nat)
  /-- PTP_ANNOUNCE_RX (R294). -/
  | ptpAnnounceRx (t port : Nat) (ann : PtpAnnounce)
  /-- PTP_RECEIPT_TIMEOUT (R284). -/
  | ptpReceiptTimeout (t port : Nat)
  /-- CONSIST_HOLDOVER_EXPIRY (R284). -/
  | consistHoldoverExpiry (t : Nat)
  /-- ECN_LINK_CHANGE (R285). -/
  | ecnLinkChange (t port speed : Nat) (asCapable : Bool) (role : Nat)
  /-- ECN_FRAME_RX (R286). -/
  | ecnFrameRx (t port : Nat) (frame : List Byte) (fcs : Bool)
  /-- ECN_TAIL_WRITE (R289). -/
  | ecnTailWrite (t : Nat) (who : Initiator) (ring tail : Nat)
  /-- ECN_LAUNCH (R288). -/
  | ecnLaunch (t port q : Nat)
  /-- PD_PUBLISH (R291). -/
  | pdPublish (t n : Nat)
  /-- PD_PULL_REQUEST (R291). -/
  | pdPullRequest (t comId : Nat)
  /-- PD_TELEGRAM_RX (R292). -/
  | pdTelegramRx (t n src msg comId seq etb optrn major : Nat) (fcs : Bool) (dataset : List Byte)
  /-- PD_SUBSCRIBER_TIMEOUT (R292). -/
  | pdSubscriberTimeout (t n : Nat)
  /-- CAPTURE_EDGE (R296). -/
  | captureEdge (t n : Nat)
  /-- MVB_SINK_FRAME (R298). -/
  | mvbSinkFrame (t n : Nat) (data : List Byte) (okA okB : Bool)
  /-- MVB_MASTER_FRAME (R298). -/
  | mvbMasterFrame (t n : Nat)
  /-- MVB_STATUS_REQUEST (R297). -/
  | mvbStatusRequest (t : Nat)
  /-- MVB_SINK_STALE (R298). -/
  | mvbSinkStale (n : Nat)
  /-- MVB_LINE_SWITCH (R297). -/
  | mvbLineSwitch (toB : Bool)
  /-- GW_MAP_SWAP (R307). -/
  | gwMapSwap (t : Nat) (who : Initiator) (bank : Bool)
  /-- MAP_SCAN_DONE (R308). -/
  | mapScanDone (t : Nat)
  /-- GW_ENTRY_STALE (R302). -/
  | gwEntryStale (t e : Nat)
  /-- INPUT_FILTERED_EDGE (R313). -/
  | inputFilteredEdge (t ch : Nat) (level : Bool)
  /-- WETTING_END (R314). -/
  | wettingEnd (t ch : Nat)
  /-- OUTPUT_SHORT (R316). -/
  | outputShort (t ch : Nat)
  /-- GROUP_UV_SET (R317). -/
  | groupUvSet (t g : Nat)
  /-- GROUP_UV_CLEAR (R317). -/
  | groupUvClear (t g : Nat)
  /-- GROUP_OV_SET (R317). -/
  | groupOvSet (t g : Nat)
  /-- GROUP_OV_CLEAR (R317). -/
  | groupOvClear (t g : Nat)
  /-- GROUP_OVC_SET (R317). -/
  | groupOvcSet (t g : Nat)
  /-- GROUP_OVC_END (R317). -/
  | groupOvcEnd (t g : Nat)
  /-- READBACK_MISMATCH (R318). -/
  | readbackMismatch (t ch : Nat) (level : Bool)
  /-- GROUP_SWITCH_TEST (R319). -/
  | groupSwitchTest (t g : Nat) (fell : Bool)
  /-- TRIP_SILENCE (R322). -/
  | tripSilence (t : Nat)
  /-- DRIVER_REFRESH_LOSS (R500). -/
  | driverRefreshLoss (t : Nat) (target : OutStage)
  /-- DARK_TEST_START (R323). -/
  | darkTestStart (t ch : Nat)
  /-- LIGHT_TEST_START (R323). -/
  | lightTestStart (t ch : Nat)
  /-- TEST_PULSE_END (R324). -/
  | testPulseEnd (t ch : Nat) (a b : Bool)
  /-- CHANNEL_FAULT_CLEAR (R325). -/
  | channelFaultClear (t ch : Nat)
  /-- LOOP_FAULT (R330). -/
  | loopFault (t c : Nat)
  /-- LOOP_RETRY (R330). -/
  | loopRetry (t : Nat) (who : Initiator) (mask : BitVec 4)
  /-- LOOP_AUTO_RETRY (R330). -/
  | loopAutoRetry (t c : Nat)
  /-- LOOP_COMPLIANCE (R331). -/
  | loopCompliance (c : Nat) (sat : Bool)
  /-- HART_GO (R335). -/
  | hartGo (t : Nat) (who : Initiator) (c len : Nat)
  /-- HART_FRAME_RX (R335). -/
  | hartFrameRx (t c : Nat) (frame : List (Byte × Bool)) (burst : Bool)
  /-- HART_TIMEOUT (R335). -/
  | hartTimeout (t c : Nat)
  /-- TWIN_LINK_UP (R336). -/
  | twinLinkUp (t : Nat)
  /-- TWIN_LINK_DOWN (R336). -/
  | twinLinkDown (t : Nat)
  /-- HELLO_TX (R337). -/
  | helloTx (t : Nat)
  /-- HELLO (R337). -/
  | hello (t : Nat) (frame : List Byte) (crc : Bool)
  /-- HEARTBEAT (R345). -/
  | heartbeat (t : Nat) (frame : List Byte) (crc : Bool)
  /-- CLAIM_EXPIRY (R340). -/
  | claimExpiry (t : Nat)
  /-- CLAIM_WINDOW_END (R344). -/
  | claimWindowEnd (t : Nat)
  /-- TAKEOVER (R347). -/
  | takeover (t : Nat)
  /-- YIELD (R350). -/
  | yield (t : Nat)
  /-- PANNIER (R354). -/
  | pannier (t : Nat) (frame : List Byte) (crc : Bool)
  /-- IMAGE (R358). -/
  | image (t : Nat) (frame : List Byte) (crc : Bool)
  /-- SWAP (R360). -/
  | swap (t : Nat) (who : Initiator)
  /-- SWAP_UNREADY (R360). -/
  | swapUnready (t : Nat) (who : Initiator)
  /-- SWAP_TIMEOUT (R360). -/
  | swapTimeout (t : Nat)
  /-- RACK_OUTBOUND_ACCESS (R368). -/
  | rackOutboundAccess (t : Nat) (who : Initiator) (acc : RackAcc)
  /-- RACK_STATUS_CYCLE (R366). -/
  | rackStatusCycle (t win : Nat) (status : RackStatus) (reqs : BitVec 8)
  /-- RACK_RETRY_REISSUE (R378). -/
  | rackRetryReissue (t win : Nat)
  /-- RACK_RESPONSE (R367). -/
  | rackResponse (t card pos tag : Nat) (err par : Bool) (beats : List (BitVec 32)) (reqs : BitVec 8)
  /-- RACK_RESPONSE_TIMEOUT (R376). -/
  | rackResponseTimeout (t tag : Nat)
  /-- RACK_INBOUND_REQUEST (R379). -/
  | rackInboundRequest (t pos tag cmd addr be : Nat) (data : List (BitVec 32)) (par : Bool) (reqs : BitVec 8)
  /-- RACK_INBOUND_COMPLETE (R379). -/
  | rackInboundComplete (t pos tag : Nat) (reqs : BitVec 8)
  /-- RACK_LOCKED_SEQUENCE (R381). -/
  | rackLockedSequence (t : Nat) (who : Initiator) (addr size : Nat) (acc : LockAcc)
  /-- RACK_LOCK_TIMEOUT (R382). -/
  | rackLockTimeout (t : Nat)
  /-- PREFETCH_EXPIRY (R383). -/
  | prefetchExpiry (t : Nat)
  /-- BRG_PF_FLUSH (R383). -/
  | brgPfFlush (t : Nat) (who : Initiator) (flush : Bool)
  /-- CLOCK_MONITOR_WINDOW (R389). -/
  | clockMonitorWindow (t : Nat) (ab ar br : Option Int)
  /-- CLOCK_SOURCE_DEAD (R388). -/
  | clockSourceDead (t src : Nat)
  /-- QUALIFY_TIMEOUT (R387). -/
  | qualifyTimeout (t src : Nat)
  /-- DOUBT_TIMEOUT (R390). -/
  | doubtTimeout (t : Nat)
  /-- XOB_PROOF_START (R391). -/
  | xobProofStart (t : Nat)
  /-- CRYSTAL_RESTART (R392). -/
  | crystalRestart (t src : Nat)
  /-- PLL_LOSS_OF_LOCK (R397). -/
  | pllLossOfLock (t : Nat)
  /-- DOMAIN_SWITCH_FORCED (R399). -/
  | domainSwitchForced (t dom : Nat)
  /-- GEAR_CHANGE_DONE (R402). -/
  | gearChangeDone (t : Nat) (svc : Bool)
  /-- GEAR_CHANGE_ABANDON (R402). -/
  | gearChangeAbandon (t : Nat) (svc : Bool)
  /-- HOLDUP_ENTRY (R405). -/
  | holdupEntry (t sup : Nat)
  /-- HOLDUP_EXIT (R405). -/
  | holdupExit (t sup : Nat)
  /-- STAGE1_ENTRY (R407). -/
  | stage1Entry (t sup : Nat)
  /-- STAGE2_ENTRY (R407). -/
  | stage2Entry (t sup : Nat)
  /-- STAGE3_ENTRY (R407). -/
  | stage3Entry (t hold : Nat)
  /-- STAGE4_ENTRY (R408). -/
  | stage4Entry (t hold : Nat)
  /-- STAGE_LEAVE (R407). -/
  | stageLeave (t sup hold : Nat)
  /-- FLUSH_DEADLINE (R469). -/
  | flushDeadline (t : Nat)
  /-- DORMANT_EXIT (R408). -/
  | dormantExit
  /-- RAIL_FAULT (R411). -/
  | railFault (t : Nat)
  /-- POWER_ON_RESET (R410). -/
  | powerOnReset
  /-- BROWN_OUT_RESET (R410). -/
  | brownOutReset
  /-- EXT_RESET (R484). -/
  | extReset (t : Nat)
  /-- WATCHDOG_EXPIRY (R414). -/
  | watchdogExpiry (t rco : Nat)
  /-- SYS (R410). -/
  | sys (t : Nat) (who : Initiator)
  /-- CORE (R412). -/
  | core (t : Nat) (who : Initiator) (target : Nat)
  /-- DOMAIN (R412). -/
  | domain (t : Nat) (who : Initiator) (target : Nat)
  /-- RESET_SEQUENCE (R413). -/
  | resetSequence (ok : BitVec 3) (rco : Nat)
  /-- WDG_KICK (R414). -/
  | wdgKick (t rco : Nat) (who : Initiator) (key : BitVec 16)
  /-- WDG_CFG_WRITE (R414). -/
  | wdgCfgWrite (t : Nat) (who : Initiator) (tmo win : BitVec 8)
  /-- TAMPER_OPENING (R418). -/
  | tamperOpening (ticks : Nat)
  /-- BOOT_CHAIN (R426). -/
  | bootChain (t : Nat) (fw0 fw1 : SigCheck) (imgA imgB : SlotImage) (sup : Nat) (r0 r1 r2 : BitVec 4)
  /-- SLOT_ID_RETRY (R481). -/
  | slotIdRetry (t : Nat) (r0 r1 r2 : BitVec 4)
  /-- START_SCAN_DONE (R464). -/
  | startScanDone (t : Nat)
  /-- LAMP_TEST_END (R475). -/
  | lampTestEnd (t : Nat)
  /-- LOCKOUT_EDGE_RELEASE (R423). -/
  | lockoutEdgeRelease (t : Nat)
  /-- ENVELOPE_SAVE_DUE (R430). -/
  | envelopeSaveDue (t : Nat)
  /-- CONSIST_ACTIVATION (R437). -/
  | consistActivation (t : Nat)
  /-- DEFER_TIMEOUT (R440). -/
  | deferTimeout (t : Nat)
  /-- VITAL (R442). -/
  | vital (t : Nat) (who : Initiator)
  /-- SERVICE (R442). -/
  | service (t : Nat) (who : Initiator)
  /-- CONFIRM_WINDOW_END (R443). -/
  | confirmWindowEnd (t : Nat)
  /-- INFO (R444). -/
  | info (t : Nat)
  /-- CHALLENGE (R444). -/
  | challenge (t : Nat)
  /-- LOGIN (R446). -/
  | login (t : Nat) (tok : List Byte) (len rsaBy slhBy : Nat) (addr : BitVec 32) (port : BitVec 16)
  /-- DOWNLOAD (R444). -/
  | download (t : Nat) (addr : BitVec 32) (port : BitVec 16) (offset : BitVec 32) (data : List Byte)
  /-- READ (R466). -/
  | read (t : Nat) (part : BitVec 8) (first : BitVec 32) (count : BitVec 8)
  /-- LOGOUT (R446). -/
  | logout (t : Nat) (addr : BitVec 32) (port : BitVec 16)
  /-- SESSION_EXPIRY (R446). -/
  | sessionExpiry (t : Nat)
  /-- ENTER_SERVICE (R421). -/
  | enterService (t : Nat)
  /-- LEAVE_SERVICE (R421). -/
  | leaveService (t : Nat)
  /-- PROGRAM_STATE_OPERATION (R447). -/
  | programStateOperation (t : Nat) (cmd : ProgCmd)
  /-- HOLD_OPERATION (R447). -/
  | holdOperation (t : Nat)
  /-- FORCE_OPERATION (R447). -/
  | forceOperation (t : Nat) (bind : Bool) (entry : BitVec 8) (ctrl : BitVec 32) (ident mask value : BitVec 64)
  /-- GRAFT (R436). -/
  | graft (t : Nat) (img : GraftImage) (base : BitVec 32)
  /-- STAGE (R447). -/
  | stage (t : Nat) (fw orch : Nat) (fwSig orchSig : SigCheck)
  /-- ACTIVATE (R437). -/
  | activate (t : Nat) (consist : Option (BitVec 64))
  /-- ANNOUNCE (R447). -/
  | announce (t : Nat) (op : AnnOp) (target : BitVec 32)
  /-- ROLE_SWAP (R447). -/
  | roleSwap (t : Nat) (unready : Bool)
  /-- LOCKOUT_RESET (R423). -/
  | lockoutReset (t : Nat)
  /-- TRIP_RESTART_OPERATION (R447). -/
  | tripRestartOperation (t : Nat) (fn : BitVec 5)
  /-- CLEAR_OPERATION (R467). -/
  | clearOperation (t : Nat) (part : BitVec 8)
  /-- SAVE_ENVELOPES (R430). -/
  | saveEnvelopes (t : Nat)
  /-- REVOKE (R433). -/
  | revoke (t : Nat) (img : List Byte) (sig : SigCheck) (rsaMask slhMask : BitVec 4)
  /-- SET_RTC (R447). -/
  | setRtc (t : Nat) (rtc : BitVec 64) (nextService : Bool)
  /-- UPD_REQ_WRITE (R448). -/
  | updReqWrite (t : Nat) (who : Initiator) (addr src : BitVec 32) (port : BitVec 16)
  /-- RECORD_WRITTEN (R453). -/
  | recordWritten (cut : Option Nat)
  /-- PROGRAM_RECORD (R457). -/
  | programRecord (t : Nat) (who : Initiator) (typ : BitVec 4) (code : BitVec 8)
  /-- SOFTWARE_RECORD (R458). -/
  | softwareRecord (t : Nat) (who : Initiator) (addr : BitVec 32)
  /-- SNAPSHOT_TRIGGER (R459). -/
  | snapshotTrigger (t : Nat) (who : Initiator) (trg : BitVec 5)
  /-- SNAPSHOT_CAPTURE_DONE (R461). -/
  | snapshotCaptureDone (t first span : Nat)
  /-- SLOT_READ (R465). -/
  | slotRead (t : Nat) (who : Initiator) (part : BitVec 3) (slot : BitVec 21)
  /-- CLEAR (R467). -/
  | clear (t : Nat) (who : Initiator) (part : BitVec 2)
  /-- CLEAR_DONE (R467). -/
  | clearDone (t : Nat)
  /-- TABLE_WINDOW_WRITE (R205). -/
  | tableWindowWrite (t : Nat) (who : Initiator) (addr : BitVec 64) (size : Nat) (data : BitVec 64)
  /-- BACKUP_DOMAIN_LOSS (R416). -/
  | backupDomainLoss
  /-- TAMPER_LOOP_CLOSED (R418). -/
  | tamperLoopClosed
  /-- RETIRED_TAG_RELEASE (R376). -/
  | retiredTagRelease (t tag : Nat)
  /-- PANNIER_SENT (R353). -/
  | pannierSent (t : Nat)
  /-- TRACE_PACKET_SENT (R498). -/
  | tracePacketSent
  /-- MAC_ENTRY_AGEING (R286). -/
  | macEntryAgeing (t mac : Nat)
  deriving DecidableEq, Repr

end Sys2Proof
end

