-- ==== Sys2Proof/Decode.lean ====
section
/-! DEFINITION. Decode.lean: the command a word spells by the bits of spec/opcode_table.json. Every row of the table has an
empty list of fields: no row gives bits, so no word spells a command. -/
namespace Sys2Proof

/-- The command that the low `nbits` bits of `w` spell: none, since no row of the table gives a bit. -/
def decodeTableWord (_nbits _w : Nat) : Option Instr := none

end Sys2Proof
end

