-- ==== Sys2Proof/Machine/Store.lean ====
section
/-! DEFINITION. Machine/Store.lean: finite maps, byte memories in canonical form, bit fields and byte order (R6),
which every later file reads and writes state through. -/
namespace Sys2Proof.Machine

/-- The value of key `k`, if the map has one. -/
def SMap.find {α : Type} : SMap α → Nat → Option α
  | [], _ => none
  | (k', v) :: t, k => if k = k' then some v else SMap.find t k

/-- The map with `k` given the value `v`. -/
def SMap.set {α : Type} : SMap α → Nat → α → SMap α
  | [], k, v => [(k, v)]
  | (k', v') :: t, k, v =>
    if k = k' then (k, v) :: t
    else if k < k' then (k, v) :: (k', v') :: t
    else (k', v') :: SMap.set t k v

/-- The map without key `k`. -/
def SMap.erase {α : Type} (m : SMap α) (k : Nat) : SMap α := m.filter (fun p => p.1 ≠ k)

/-- The value of key `k`, or `d` where the map has none. -/
def SMap.getD {α : Type} (m : SMap α) (k : Nat) (d : α) : α := (SMap.find m k).getD d

/-! Byte memories: a list of (address, byte) pairs, addresses strictly rising, no byte 0 listed; an unlisted
address reads as 0 (R415: every memory is zeroed before software runs; assumption 2). -/

/-- The byte at address `a`. -/
def Mem.read : List Host.Cell → Nat → Byte
  | [], _ => 0
  | (a', b) :: t, a => if a = a' then b else Mem.read t a

/-- The list with the pair `(a, b)` in its place. -/
def Mem.insert : List Host.Cell → Nat → Byte → List Host.Cell
  | [], a, b => [(a, b)]
  | (a', b') :: t, a, b =>
    if a = a' then (a, b) :: t
    else if a < a' then (a, b) :: (a', b') :: t
    else (a', b') :: Mem.insert t a b

/-- The memory with byte `b` at address `a`, in canonical form again. -/
def Mem.write (m : List Host.Cell) (a : Nat) (b : Byte) : List Host.Cell :=
  if b = 0 then m.filter (fun c => c.1 ≠ a) else Mem.insert m a b

/-- Addresses strictly rising from above `lo`, no byte 0 listed. -/
def Mem.sortedFrom : Option Nat → List Host.Cell → Bool
  | _, [] => true
  | lo, (a, b) :: t => (match lo with | none => true | some l => l < a) && b != 0 && Mem.sortedFrom (some a) t

/-- The canonical form of a byte memory. -/
def Mem.wf (m : List Host.Cell) : Bool := Mem.sortedFrom none m

/-- `n` bytes from address `a` on. -/
def Mem.readBytes (m : List Host.Cell) (a n : Nat) : List Byte := (List.range n).map (fun i => Mem.read m (a + i))

/-- The memory with the bytes `bs` stored from address `a` on. -/
def Mem.writeBytes : List Host.Cell → Nat → List Byte → List Host.Cell
  | m, _, [] => m
  | m, a, b :: t => Mem.writeBytes (Mem.write m a b) (a + 1) t

/-- The memory with every byte from `a` to `a + n - 1` zero. -/
def Mem.zero (m : List Host.Cell) (a n : Nat) : List Host.Cell := m.filter (fun c => c.1 < a || a + n ≤ c.1)

/-- The listed bytes from `a` to `a + n - 1`, moved so that `a` becomes `dst`. -/
def Mem.slice (m : List Host.Cell) (a n dst : Nat) : List Host.Cell :=
  (m.filter (fun c => a ≤ c.1 && c.1 < a + n)).map (fun c => (c.1 - a + dst, c.2))

/-- The memory with the `n` bytes at `src` (of memory `from_`) copied to `dst`. -/
def Mem.copyFrom (from_ m : List Host.Cell) (src dst n : Nat) : List Host.Cell :=
  m.filter (fun c => c.1 < dst) ++ Mem.slice from_ src n dst ++ m.filter (fun c => dst + n ≤ c.1)

/-- The memory with `n` bytes copied from `src` to `dst`. -/
def Mem.copy (m : List Host.Cell) (src dst n : Nat) : List Host.Cell := Mem.copyFrom m m src dst n

/-! Byte order (R6). -/

/-- The number of a little-endian byte list. -/
def leNat : List Byte → Nat
  | [] => 0
  | b :: t => b.toNat + 256 * leNat t

/-- The `n` low bytes of `v`, least significant first. -/
def leBytes : Nat → Nat → List Byte
  | 0, _ => []
  | n + 1, v => BitVec.ofNat 8 v :: leBytes n (v / 256)

/-- The number of a big-endian byte list (frames, R6). -/
def beNat (bs : List Byte) : Nat := leNat bs.reverse

/-- The `n` low bytes of `v`, most significant first. -/
def beBytes (n v : Nat) : List Byte := (leBytes n v).reverse

/-- Little-endian number of `n` bytes at `a`. -/
def Mem.readLE (m : List Host.Cell) (a n : Nat) : Nat := leNat (Mem.readBytes m a n)

/-- The memory with the `n` low bytes of `v` stored at `a`, little-endian. -/
def Mem.writeLE (m : List Host.Cell) (a n v : Nat) : List Host.Cell := Mem.writeBytes m a (leBytes n v)

/-! Bit fields and two's complement. -/

/-- Bits `lo` to `lo + w - 1` of `v`. -/
def bitsOf (v lo w : Nat) : Nat := v / 2 ^ lo % 2 ^ w

/-- Bit `i` of `v`. -/
def bitOf (v i : Nat) : Bool := v.testBit i

/-- `old` with bits `lo` to `lo + w - 1` replaced by the low `w` bits of `v`. -/
def putBits (old lo w v : Nat) : Nat :=
  old / 2 ^ (lo + w) * 2 ^ (lo + w) + (v % 2 ^ w) * 2 ^ lo + old % 2 ^ lo

/-- `v` with bit `i` set to `b`. -/
def setBit (v i : Nat) (b : Bool) : Nat := putBits v i 1 b.toNat

/-- The low `w` bits of `v` read as two's complement. -/
def toSigned (w v : Nat) : Int := if v % 2 ^ w < 2 ^ (w - 1) then (v % 2 ^ w : Nat) else ((v % 2 ^ w : Nat) : Int) - (2 ^ w : Nat)

/-- The `w`-bit two's complement word of `i`. -/
def ofSigned (w : Nat) (i : Int) : Nat := (i % ((2 ^ w : Nat) : Int)).toNat

/-- Signed difference of two `w`-bit counts (R452, R210): positive where `a` is later than `b`. -/
def serialDiff (w a b : Nat) : Int := toSigned w (a % 2 ^ w + 2 ^ w - b % 2 ^ w)

/-- `v` brought into `lo` to `hi`. -/
def clampNat (lo hi v : Nat) : Nat := if v < lo then lo else if hi < v then hi else v

/-- `v` brought into `lo` to `hi`. -/
def clampInt (lo hi v : Int) : Int := if v < lo then lo else if hi < v then hi else v

/-- A setting of which 0 acts as 1. -/
def atLeast1 (v : Nat) : Nat := if v = 0 then 1 else v

end Sys2Proof.Machine
end

