-- ==== Sys2Proof/Machine/Crc.lean ====
section
/-! DEFINITION. Machine/Crc.lean: the check codes of the module, bit by bit (R51, R69, R224, R239). -/
namespace Sys2Proof.Machine

/-- `n` steps of a reflected (least significant bit first) CRC register with reflected polynomial `poly`. -/
def crcStepR (poly : Nat) : Nat → Nat → Nat
  | 0, c => c
  | n + 1, c => crcStepR poly n (if c % 2 = 1 then (c / 2) ^^^ poly else c / 2)

/-- A reflected CRC register after the bytes `bs`. -/
def crcBytesR (poly c : Nat) (bs : List Byte) : Nat := bs.foldl (fun c b => crcStepR poly 8 (c ^^^ b.toNat)) c

/-- `n` steps of a `w`-bit CRC register fed most significant bit first, with polynomial `poly`. -/
def crcStepM (w poly : Nat) : Nat → Nat → Nat
  | 0, c => c
  | n + 1, c => crcStepM w poly n (if c.testBit (w - 1) then (2 * c % 2 ^ w) ^^^ poly else 2 * c)

/-- A `w`-bit most-significant-bit-first CRC register after the bytes `bs`. -/
def crcBytesM (w poly c : Nat) (bs : List Byte) : Nat :=
  bs.foldl (fun c b => crcStepM w poly 8 (c ^^^ (b.toNat * 2 ^ (w - 8)))) c

/-- CRC-32C with the parameters of R51: polynomial 0x1EDC_6F41, reflected in and out, initial value and final XOR all ones. -/
def crc32c (bs : List Byte) : Nat := (crcBytesR 0x82F63B78 0xFFFFFFFF bs) ^^^ 0xFFFFFFFF

/-- The safety check value of R224: polynomial 0x741B_8CD7, not reflected, initial value and final XOR all ones. -/
def crc32s (bs : List Byte) : Nat := (crcBytesM 32 0x741B8CD7 0xFFFFFFFF bs) ^^^ 0xFFFFFFFF

/-- The frame check sequence of IEEE 802.3, as it follows a frame's bytes on the wire (R246, R249; assumption 12). -/
def ethFcs (bs : List Byte) : List Byte := leBytes 4 ((crcBytesR 0xEDB88320 0xFFFFFFFF bs) ^^^ 0xFFFFFFFF)

end Sys2Proof.Machine
end

