-- ==== Sys2Proof/Config.lean ====
section
/-! DEFINITION. Config.lean: the values the spec leaves open, as constants without a body. -/
namespace Sys2Proof

/-- The 16-byte nonce of the `n`-th CHALLENGE, "fresh" under R444: the spec gives no number (assumption 5). -/
opaque Config.nonce : Nat → BitVec 128

/-- The byte of a request block, of its 64, into which the boot supervisor writes the result (R448 gives no place). -/
opaque Config.resultByte : Nat

/-- The bytes that a running memory job has folded when a plain register write changes CFG (R244 gives no progress of a job). -/
opaque Config.jobFolded : Nat → Nat

end Sys2Proof
end

