-- ==== Sys2Proof/Machine/Regs.lean ====
section
/-! DEFINITION. Machine/Regs.lean: the named register fields of every MMIO block, one abbreviation per field
(address of the word, lowest bit, width), in the spec's own names, from the field tables of spec/02 to spec/18 (R6, R24). -/
namespace Sys2Proof.Machine

/-- A register field: the byte address of its word, its lowest bit and its width in bits (R6).
A field wider than 32 bits lies across its word and the next one. -/
structure Fld where
  addr : Nat
  lo : Nat
  width : Nat
  deriving DecidableEq, Repr

namespace Reg


/-! ### spec/02_registers.md -/

abbrev REGG_UNLOCK.KEY : Fld := ⟨0x20030000, 0, 16⟩
abbrev REGG_UNLOCK.BLOCK : Fld := ⟨0x20030000, 16, 5⟩
abbrev REGG_STROBE.GROUPS : Fld := ⟨0x20030004, 0, 16⟩
abbrev REGG_STAT.UNLOCK_HELD : Fld := ⟨0x20030008, 0, 6⟩
abbrev REGG_STAT.STROBE_PEND : Fld := ⟨0x20030008, 6, 1⟩
abbrev REGG_STAT.CFG_WAIT : Fld := ⟨0x20030008, 7, 1⟩
abbrev REGG_STAT.CFG_MISMATCH : Fld := ⟨0x20030008, 8, 1⟩
abbrev REGG_STROBE_PEND.GROUPS : Fld := ⟨0x2003000C, 0, 16⟩
abbrev REGG_CFG_CTRL.EN : Fld := ⟨0x20030010, 0, 1⟩
abbrev REGG_CFG_CTRL.ACTION : Fld := ⟨0x20030010, 1, 2⟩
abbrev REGG_CFG_CTRL.GRACE : Fld := ⟨0x20030010, 8, 8⟩
abbrev REGG_CFG_REF.REF : Fld := ⟨0x20030014, 0, 32⟩
abbrev REGG_CFG_CALC.CALC : Fld := ⟨0x20030018, 0, 32⟩
abbrev REGG_DENY_CNT : Fld := ⟨0x20030020, 0, 32⟩
abbrev REGG_EXPIRE_CNT : Fld := ⟨0x20030024, 0, 32⟩
abbrev REGG_STRB_CNT : Fld := ⟨0x20030028, 0, 32⟩
abbrev REGG_CFG_PASS_CNT : Fld := ⟨0x2003002C, 0, 32⟩
abbrev REGG_CFG_MIS_CNT : Fld := ⟨0x20030030, 0, 32⟩
abbrev REGG_ROWR_CNT : Fld := ⟨0x20030034, 0, 32⟩
abbrev REGG_GRP_MAP.GRP0 (n : Nat) : Fld := ⟨0x20030040 + 4 * n, 0, 4⟩
abbrev REGG_GRP_MAP.GRP1 (n : Nat) : Fld := ⟨0x20030040 + 4 * n, 4, 4⟩
abbrev REGG_GRP_MAP.GRP2 (n : Nat) : Fld := ⟨0x20030040 + 4 * n, 8, 4⟩
abbrev REGG_GRP_MAP.GRP3 (n : Nat) : Fld := ⟨0x20030040 + 4 * n, 12, 4⟩
abbrev REGG_GRP_MAP.GRP4 (n : Nat) : Fld := ⟨0x20030040 + 4 * n, 16, 4⟩
abbrev REGG_GRP_MAP.GRP5 (n : Nat) : Fld := ⟨0x20030040 + 4 * n, 20, 4⟩
abbrev REGG_GRP_MAP.GRP6 (n : Nat) : Fld := ⟨0x20030040 + 4 * n, 24, 4⟩
abbrev REGG_GRP_MAP.GRP7 (n : Nat) : Fld := ⟨0x20030040 + 4 * n, 28, 4⟩

/-! ### spec/03_tricycle.md -/

abbrev TRI_CTRL.RETIRE_LIMIT : Fld := ⟨0x20040000, 0, 4⟩
abbrev TRI_CTRL.RETIRE_SPAN : Fld := ⟨0x20040000, 8, 8⟩
abbrev TRI_TSET.SKEW0 : Fld := ⟨0x20040004, 0, 8⟩
abbrev TRI_TSET.SKEW1 : Fld := ⟨0x20040004, 8, 8⟩
abbrev TRI_TSET.SKEW2 : Fld := ⟨0x20040004, 16, 8⟩
abbrev TRI_TSET.WIN_TMO : Fld := ⟨0x20040004, 24, 8⟩
abbrev TRI_COPY.DRAM_MIB : Fld := ⟨0x20040008, 0, 5⟩
abbrev TRI_STAT.PART : Fld := ⟨0x20040010, 0, 3⟩
abbrev TRI_STAT.EXCL : Fld := ⟨0x20040010, 3, 3⟩
abbrev TRI_STAT.RETIRED : Fld := ⟨0x20040010, 6, 3⟩
abbrev TRI_STAT.COPY_BUSY : Fld := ⟨0x20040010, 9, 1⟩
abbrev TRI_STAT.COPY_READY : Fld := ⟨0x20040010, 10, 1⟩
abbrev TRI_STAT.COPY_SRC : Fld := ⟨0x20040010, 11, 2⟩
abbrev TRI_STAT.SELECT : Fld := ⟨0x20040010, 13, 2⟩
abbrev TRI_STAT.VTEST_PEND : Fld := ⟨0x20040010, 15, 1⟩
abbrev TRI_STAT.GRAFT_HELD : Fld := ⟨0x20040010, 16, 1⟩
abbrev TRI_LAST.OUTCOME : Fld := ⟨0x20040014, 0, 2⟩
abbrev TRI_LAST.MINOR : Fld := ⟨0x20040014, 2, 2⟩
abbrev TRI_LAST.MISSING : Fld := ⟨0x20040014, 4, 3⟩
abbrev TRI_LAST.INVALID : Fld := ⟨0x20040014, 7, 3⟩
abbrev TRI_LAST.TESTED : Fld := ⟨0x20040014, 10, 1⟩
abbrev TRI_CAUSE.CAUSE0 : Fld := ⟨0x20040018, 0, 4⟩
abbrev TRI_CAUSE.CAUSE1 : Fld := ⟨0x20040018, 4, 4⟩
abbrev TRI_CAUSE.CAUSE2 : Fld := ⟨0x20040018, 8, 4⟩
abbrev TRI_CAUSE.LOCK : Fld := ⟨0x20040018, 12, 4⟩
abbrev TRI_SIG.SIG (n : Nat) : Fld := ⟨0x20040020 + 8 * n, 0, 64⟩
abbrev TRI_TSET_C.COPY (n : Nat) : Fld := ⟨0x20040040 + 4 * n, 0, 32⟩
abbrev TRI_START.DELAY (n : Nat) : Fld := ⟨0x20040050 + 4 * n, 0, 14⟩
abbrev TRI_WIN_CNT : Fld := ⟨0x20040080, 0, 32⟩
abbrev TRI_EXCL_CNT : Fld := ⟨0x20040084, 0, 32⟩
abbrev TRI_COPY_CNT : Fld := ⟨0x20040088, 0, 32⟩
abbrev TRI_REJOIN_CNT : Fld := ⟨0x2004008C, 0, 32⟩
abbrev TRI_VTEST_CNT : Fld := ⟨0x20040090, 0, 32⟩
abbrev TRI_VTEST_SKIP_CNT : Fld := ⟨0x20040094, 0, 32⟩
abbrev TRI_DSTORE_CNT : Fld := ⟨0x20040098, 0, 32⟩
abbrev TRI_DFAIL_CNT : Fld := ⟨0x2004009C, 0, 32⟩
abbrev TRI_ECC_CNT : Fld := ⟨0x200400A0, 0, 32⟩
abbrev TRI_SELF_SCR.SCR : Fld := ⟨0x20040100, 0, 32⟩

/-! ### spec/04_cycle_engine.md -/

abbrev CYC_CFG.DEADLINE : Fld := ⟨0x20050000, 0, 13⟩
abbrev CYC_CFG.HANG : Fld := ⟨0x20050000, 16, 13⟩
abbrev CYC_CFG.AUTORUN : Fld := ⟨0x20050000, 29, 1⟩
abbrev CYC_PERIOD.MINLEN : Fld := ⟨0x20050004, 0, 13⟩
abbrev CYC_IMG.IN_LEN : Fld := ⟨0x20050008, 0, 16⟩
abbrev CYC_IMG.OUT_LEN : Fld := ⟨0x20050008, 16, 16⟩
abbrev CYC_STILL.KIND : Fld := ⟨0x2005000C, 0, 2⟩
abbrev CYC_STILL.INDEX : Fld := ⟨0x2005000C, 2, 9⟩
abbrev CYC_STILL.POL : Fld := ⟨0x2005000C, 11, 1⟩
abbrev CYC_CMD.CMD : Fld := ⟨0x20050010, 0, 4⟩
abbrev CYC_STAT.PSTATE : Fld := ⟨0x20050014, 0, 2⟩
abbrev CYC_STAT.BUSY : Fld := ⟨0x20050014, 2, 1⟩
abbrev CYC_STAT.KIND : Fld := ⟨0x20050014, 3, 1⟩
abbrev CYC_STAT.OVERRUN : Fld := ⟨0x20050014, 4, 1⟩
abbrev CYC_STAT.ARMED : Fld := ⟨0x20050014, 5, 1⟩
abbrev CYC_STAT.FORCED : Fld := ⟨0x20050014, 6, 1⟩
abbrev CYC_STAT.STILL : Fld := ⟨0x20050014, 7, 1⟩
abbrev CYC_STAT.HOLD_PEND : Fld := ⟨0x20050014, 8, 1⟩
abbrev CYC_STAT.STEP_PEND : Fld := ⟨0x20050014, 9, 1⟩
abbrev CYC_STAT.IN_BANK : Fld := ⟨0x20050014, 10, 1⟩
abbrev CYC_STAT.KICK : Fld := ⟨0x20050014, 11, 1⟩
abbrev CYC_DONE.VALUE : Fld := ⟨0x20050018, 0, 32⟩
abbrev CYC_PUB.BANK : Fld := ⟨0x2005001C, 0, 1⟩
abbrev CYC_PUB.CYCLE_LO : Fld := ⟨0x2005001C, 16, 16⟩
abbrev CYC_GRAFT_BASE.VALUE : Fld := ⟨0x20050020, 0, 32⟩
abbrev CYC_GRAFT_LEN.VALUE : Fld := ⟨0x20050024, 0, 32⟩
abbrev CYC_GRAFT_STAT.VERDICT : Fld := ⟨0x20050028, 0, 2⟩
abbrev CYC_PROG_ID.ID : Fld := ⟨0x20050030, 0, 64⟩
abbrev CYC_GRAFT_BASE_ID.ID : Fld := ⟨0x20050038, 0, 64⟩
abbrev CYC_LAST.LEN : Fld := ⟨0x20050040, 0, 13⟩
abbrev CYC_CYCLE_CNT : Fld := ⟨0x20050080, 0, 32⟩
abbrev CYC_OVR_CNT : Fld := ⟨0x20050084, 0, 32⟩
abbrev CYC_PUB_CNT : Fld := ⟨0x20050088, 0, 32⟩
abbrev CYC_CMD_REJ_CNT : Fld := ⟨0x2005008C, 0, 32⟩
abbrev CYC_GRAFT_CNT : Fld := ⟨0x20050090, 0, 32⟩
abbrev CYC_GRAFT_REJ_CNT : Fld := ⟨0x20050094, 0, 32⟩
abbrev CYC_FORCE_DROP_CNT : Fld := ⟨0x20050098, 0, 32⟩
abbrev CYC_HOLD_ABORT_CNT : Fld := ⟨0x2005009C, 0, 32⟩
abbrev CYC_FORCE.VALID (n : Nat) : Fld := ⟨0x20051000 + 64 * n, 0, 1⟩
abbrev CYC_FORCE.TARGET (n : Nat) : Fld := ⟨0x20051000 + 64 * n, 1, 1⟩
abbrev CYC_FORCE.WORD (n : Nat) : Fld := ⟨0x20051000 + 64 * n, 2, 12⟩
abbrev CYC_FORCE.MODE (n : Nat) : Fld := ⟨0x20051000 + 64 * n, 14, 2⟩
abbrev CYC_FORCE.TYPE (n : Nat) : Fld := ⟨0x20051000 + 64 * n, 16, 16⟩
abbrev CYC_FORCE.ID (n : Nat) : Fld := ⟨0x20051008 + 64 * n, 0, 64⟩
abbrev CYC_FORCE.MASK (n : Nat) : Fld := ⟨0x20051010 + 64 * n, 0, 64⟩
abbrev CYC_FORCE.VALUE (n : Nat) : Fld := ⟨0x20051018 + 64 * n, 0, 64⟩
abbrev CYC_FORCE.RAW (n : Nat) : Fld := ⟨0x20051020 + 64 * n, 0, 64⟩

/-! ### spec/05_door_supervision.md -/

abbrev DOOR_CTRL.LEARN_EN : Fld := ⟨0x200C0000, 0, 1⟩
abbrev DOOR_CFG.NAXES : Fld := ⟨0x200C0004, 0, 7⟩
abbrev DOOR_CFG.STAT_OFF : Fld := ⟨0x200C0004, 16, 16⟩
abbrev DOOR_IMG.CMD_OFF : Fld := ⟨0x200C0008, 0, 16⟩
abbrev DOOR_IMG.REL_OFF : Fld := ⟨0x200C0008, 16, 16⟩
abbrev DOOR_GATE.GATE_IDX : Fld := ⟨0x200C000C, 0, 9⟩
abbrev DOOR_GATE.APPLY : Fld := ⟨0x200C000C, 16, 16⟩
abbrev DOOR_REL.REL : Fld := ⟨0x200C0010, 0, 16⟩
abbrev DOOR_ILK.ILK : Fld := ⟨0x200C0014, 0, 16⟩
abbrev DOOR_STAT.SHED_HELD : Fld := ⟨0x200C0018, 0, 1⟩
abbrev DOOR_STAT.KICK : Fld := ⟨0x200C0018, 1, 1⟩
abbrev DOOR_STAT.LEARN_BUSY : Fld := ⟨0x200C0018, 2, 1⟩
abbrev DOOR_STAT.NMOVING : Fld := ⟨0x200C0018, 4, 7⟩
abbrev DOOR_STAT.NFAULT : Fld := ⟨0x200C0018, 11, 7⟩
abbrev DOOR_PASS.DUR : Fld := ⟨0x200C001C, 0, 16⟩
abbrev DOOR_PASS_CNT : Fld := ⟨0x200C0080, 0, 32⟩
abbrev DOOR_OBST_CNT : Fld := ⟨0x200C0084, 0, 32⟩
abbrev DOOR_REC_CNT : Fld := ⟨0x200C0088, 0, 32⟩
abbrev DOOR_LEARN_CNT : Fld := ⟨0x200C008C, 0, 32⟩
abbrev DOOR_LREF_CNT : Fld := ⟨0x200C0090, 0, 32⟩
abbrev DOOR_FAULT_CNT : Fld := ⟨0x200C0094, 0, 32⟩
abbrev DOOR_STALE_CNT : Fld := ⟨0x200C0098, 0, 32⟩
abbrev DOOR_LRETRY_CNT : Fld := ⟨0x200C009C, 0, 32⟩
abbrev AX_CFG.KIND (n : Nat) : Fld := ⟨0x200C1000 + 64 * n, 0, 2⟩
abbrev AX_CFG.DOOR (n : Nat) : Fld := ⟨0x200C1000 + 64 * n, 2, 7⟩
abbrev AX_CFG.RGRP (n : Nat) : Fld := ⟨0x200C1000 + 64 * n, 9, 4⟩
abbrev AX_CFG.IGRP (n : Nat) : Fld := ⟨0x200C1000 + 64 * n, 13, 4⟩
abbrev AX_CFG.NODE (n : Nat) : Fld := ⟨0x200C1000 + 64 * n, 17, 8⟩
abbrev AX_CFG.CH (n : Nat) : Fld := ⟨0x200C1000 + 64 * n, 25, 3⟩
abbrev AX_CFG.SE_OPEN (n : Nat) : Fld := ⟨0x200C1000 + 64 * n, 28, 1⟩
abbrev AX_CFG.SEQ (n : Nat) : Fld := ⟨0x200C1000 + 64 * n, 29, 1⟩
abbrev AX_P_OPEN.POS (n : Nat) : Fld := ⟨0x200C1004 + 64 * n, 0, 32⟩
abbrev AX_P_CLOSED.POS (n : Nat) : Fld := ⟨0x200C1008 + 64 * n, 0, 32⟩
abbrev AX_P_LOCK.POS (n : Nat) : Fld := ⟨0x200C100C + 64 * n, 0, 32⟩
abbrev AX_WIN.CLOSED_WIN (n : Nat) : Fld := ⟨0x200C1010 + 64 * n, 0, 16⟩
abbrev AX_WIN.LOCK_WIN (n : Nat) : Fld := ⟨0x200C1010 + 64 * n, 16, 16⟩
abbrev AX_ZONE.FZ_LEN (n : Nat) : Fld := ⟨0x200C1014 + 64 * n, 0, 16⟩
abbrev AX_ZONE.REOPEN_W (n : Nat) : Fld := ⟨0x200C1014 + 64 * n, 16, 16⟩
abbrev AX_FTH.F_TH (n : Nat) : Fld := ⟨0x200C1018 + 64 * n, 0, 16⟩
abbrev AX_FTH.F_TH_FZ (n : Nat) : Fld := ⟨0x200C1018 + 64 * n, 16, 16⟩
abbrev AX_FMAX.F_MAX (n : Nat) : Fld := ⟨0x200C101C + 64 * n, 0, 16⟩
abbrev AX_FMAX.KF (n : Nat) : Fld := ⟨0x200C101C + 64 * n, 16, 16⟩
abbrev AX_DET.FE_TH (n : Nat) : Fld := ⟨0x200C1020 + 64 * n, 0, 16⟩
abbrev AX_DET.FE_N (n : Nat) : Fld := ⟨0x200C1020 + 64 * n, 16, 4⟩
abbrev AX_DET.F_N (n : Nat) : Fld := ⟨0x200C1020 + 64 * n, 20, 4⟩
abbrev AX_DET.SE_QUAL (n : Nat) : Fld := ⟨0x200C1020 + 64 * n, 24, 4⟩
abbrev AX_DET.LOCK_Q (n : Nat) : Fld := ⟨0x200C1020 + 64 * n, 28, 4⟩
abbrev AX_TIME.LOCK_TMO (n : Nat) : Fld := ⟨0x200C1024 + 64 * n, 0, 16⟩
abbrev AX_TIME.REOPEN_DWELL (n : Nat) : Fld := ⟨0x200C1024 + 64 * n, 16, 16⟩
abbrev AX_RETRY.RETRY_MAX (n : Nat) : Fld := ⟨0x200C1028 + 64 * n, 0, 4⟩
abbrev AX_RETRY.LOCK_RETRY_MAX (n : Nat) : Fld := ⟨0x200C1028 + 64 * n, 4, 4⟩
abbrev AX_RETRY.LEARN_DEV (n : Nat) : Fld := ⟨0x200C1028 + 64 * n, 8, 16⟩
abbrev AX_EBND.E_MIN (n : Nat) : Fld := ⟨0x200C102C + 64 * n, 0, 16⟩
abbrev AX_EBND.E_MAX (n : Nat) : Fld := ⟨0x200C102C + 64 * n, 16, 16⟩
abbrev AX_FB.FB_AGE_MAX (n : Nat) : Fld := ⟨0x200C1030 + 64 * n, 0, 8⟩
abbrev AX_FB.FB_FAULT (n : Nat) : Fld := ⟨0x200C1030 + 64 * n, 8, 8⟩
abbrev AX_FB.ACC_WIN (n : Nat) : Fld := ⟨0x200C1030 + 64 * n, 16, 16⟩
abbrev DOOR_AS.STATE (n : Nat) : Fld := ⟨0x200C3000 + 16 * n, 0, 4⟩
abbrev DOOR_AS.CAUSE (n : Nat) : Fld := ⟨0x200C3000 + 16 * n, 4, 4⟩
abbrev DOOR_AS.RETRY (n : Nat) : Fld := ⟨0x200C3000 + 16 * n, 8, 4⟩
abbrev DOOR_AS.LRETRY (n : Nat) : Fld := ⟨0x200C3000 + 16 * n, 12, 4⟩
abbrev DOOR_AS.STALE (n : Nat) : Fld := ⟨0x200C3000 + 16 * n, 16, 1⟩
abbrev DOOR_AS.HELD (n : Nat) : Fld := ⟨0x200C3000 + 16 * n, 17, 1⟩
abbrev DOOR_AS.NOEDGE (n : Nat) : Fld := ⟨0x200C3000 + 16 * n, 18, 1⟩
abbrev DOOR_AS.REOPEN (n : Nat) : Fld := ⟨0x200C3000 + 16 * n, 19, 1⟩
abbrev DOOR_AS.CONTACT (n : Nat) : Fld := ⟨0x200C3000 + 16 * n, 20, 1⟩
abbrev DOOR_AS.POS (n : Nat) : Fld := ⟨0x200C3004 + 16 * n, 0, 32⟩
abbrev DOOR_AS.F (n : Nat) : Fld := ⟨0x200C3008 + 16 * n, 0, 16⟩
abbrev DOOR_AS.EXCESS (n : Nat) : Fld := ⟨0x200C3008 + 16 * n, 16, 16⟩
abbrev DOOR_AS.SW (n : Nat) : Fld := ⟨0x200C300C + 16 * n, 0, 8⟩
abbrev DOOR_LIFE_CYC_CNT (n : Nat) : Fld := ⟨0x200C4000 + 32 * n, 0, 32⟩
abbrev DOOR_LIFE_OBST_CNT (n : Nat) : Fld := ⟨0x200C4004 + 32 * n, 0, 32⟩
abbrev DOOR_LIFE_RETRY_CNT (n : Nat) : Fld := ⟨0x200C4008 + 32 * n, 0, 32⟩
abbrev DOOR_LIFE_LFLT_CNT (n : Nat) : Fld := ⟨0x200C400C + 32 * n, 0, 32⟩
abbrev DOOR_LIFE_EGR_CNT (n : Nat) : Fld := ⟨0x200C4010 + 32 * n, 0, 32⟩
abbrev DOOR_LIFE_ISO_CNT (n : Nat) : Fld := ⟨0x200C4014 + 32 * n, 0, 32⟩
abbrev DOOR_LIFE_LRN_CNT (n : Nat) : Fld := ⟨0x200C4018 + 32 * n, 0, 32⟩
abbrev DOOR_LIFE_TRV_CNT (n : Nat) : Fld := ⟨0x200C401C + 32 * n, 0, 32⟩

/-! ### spec/06_door_motion.md -/

abbrev MOT_CTRL.CMD_TMO : Fld := ⟨0x200D0000, 0, 8⟩
abbrev MOT_CTRL.AUTOHOME : Fld := ⟨0x200D0000, 8, 1⟩
abbrev MOT_CFG.CMD_OFF : Fld := ⟨0x200D0004, 0, 16⟩
abbrev MOT_CFG.ST_OFF : Fld := ⟨0x200D0004, 16, 16⟩
abbrev MOT_STAT.KICK : Fld := ⟨0x200D0008, 0, 1⟩
abbrev MOT_STAT.SENDING : Fld := ⟨0x200D0008, 1, 1⟩
abbrev MOT_STAT.NMOVING : Fld := ⟨0x200D0008, 2, 7⟩
abbrev MOT_STAT.NDIRECT : Fld := ⟨0x200D0008, 9, 7⟩
abbrev MOT_STAT.NHOMING : Fld := ⟨0x200D0008, 16, 7⟩
abbrev MOT_GWAIT.GROUPS : Fld := ⟨0x200D000C, 0, 16⟩
abbrev MOT_PLAN.DUR : Fld := ⟨0x200D0010, 0, 16⟩
abbrev MOT_MOVE_CNT : Fld := ⟨0x200D0080, 0, 32⟩
abbrev MOT_REV_CNT : Fld := ⟨0x200D0084, 0, 32⟩
abbrev MOT_QFULL_CNT : Fld := ⟨0x200D0088, 0, 32⟩
abbrev MOT_CLAMP_CNT : Fld := ⟨0x200D008C, 0, 32⟩
abbrev MOT_LIMIT_CNT : Fld := ⟨0x200D0090, 0, 32⟩
abbrev MOT_HOME_CNT : Fld := ⟨0x200D0094, 0, 32⟩
abbrev MOT_HFAIL_CNT : Fld := ⟨0x200D0098, 0, 32⟩
abbrev MOT_CHAT_CNT : Fld := ⟨0x200D009C, 0, 32⟩
abbrev MOT_CMD_REJ_CNT : Fld := ⟨0x200D00A0, 0, 32⟩
abbrev MOT_KICK_CNT : Fld := ⟨0x200D00A4, 0, 32⟩
abbrev MOT_SET.VMAX (n : Nat) : Fld := ⟨0x200D0400 + 16 * n, 0, 32⟩
abbrev MOT_SET.JMAX (n : Nat) : Fld := ⟨0x200D0408 + 16 * n, 0, 32⟩
abbrev MOT_SET.AMAX (n : Nat) : Fld := ⟨0x200D0404 + 16 * n, 0, 16⟩
abbrev MOT_SET.DMAX (n : Nat) : Fld := ⟨0x200D0404 + 16 * n, 16, 16⟩
abbrev MOT_SET.ILIM (n : Nat) : Fld := ⟨0x200D040C + 16 * n, 0, 16⟩
abbrev MOT_SET.ILIM_HOLD (n : Nat) : Fld := ⟨0x200D040C + 16 * n, 16, 16⟩
abbrev MOT_AX_SETS.OPEN (n : Nat) : Fld := ⟨0x200D1000 + 32 * n, 0, 4⟩
abbrev MOT_AX_SETS.CLOSE (n : Nat) : Fld := ⟨0x200D1000 + 32 * n, 4, 4⟩
abbrev MOT_AX_SETS.FINAL (n : Nat) : Fld := ⟨0x200D1000 + 32 * n, 8, 4⟩
abbrev MOT_AX_SETS.LOCK (n : Nat) : Fld := ⟨0x200D1000 + 32 * n, 12, 4⟩
abbrev MOT_AX_SETS.OBST (n : Nat) : Fld := ⟨0x200D1000 + 32 * n, 16, 4⟩
abbrev MOT_AX_SETS.STOP (n : Nat) : Fld := ⟨0x200D1000 + 32 * n, 20, 4⟩
abbrev MOT_AX_SETS.HOME (n : Nat) : Fld := ⟨0x200D1000 + 32 * n, 24, 4⟩
abbrev MOT_AX_SETS.CREEP (n : Nat) : Fld := ⟨0x200D1000 + 32 * n, 28, 4⟩
abbrev MOT_AX.SOFT_MIN (n : Nat) : Fld := ⟨0x200D1004 + 32 * n, 0, 32⟩
abbrev MOT_AX.SOFT_MAX (n : Nat) : Fld := ⟨0x200D1008 + 32 * n, 0, 32⟩
abbrev MOT_AX.HOME_POS (n : Nat) : Fld := ⟨0x200D1014 + 32 * n, 0, 32⟩
abbrev MOT_AX.HOME_TRAVEL (n : Nat) : Fld := ⟨0x200D1018 + 32 * n, 0, 32⟩
abbrev MOT_AX_STILL.MODE (n : Nat) : Fld := ⟨0x200D100C + 32 * n, 1, 10⟩
abbrev MOT_AX_STILL.HOLD_MS (n : Nat) : Fld := ⟨0x200D100C + 32 * n, 16, 8⟩
abbrev MOT_AX_STILL.MGRP (n : Nat) : Fld := ⟨0x200D100C + 32 * n, 24, 4⟩
abbrev MOT_AX_HOME.MODE (n : Nat) : Fld := ⟨0x200D1010 + 32 * n, 0, 2⟩
abbrev MOT_AX_HOME.DIR (n : Nat) : Fld := ⟨0x200D1010 + 32 * n, 2, 1⟩
abbrev MOT_AX_HOME.AUTO (n : Nat) : Fld := ⟨0x200D1010 + 32 * n, 3, 1⟩
abbrev MOT_AX_HOME.HDEB (n : Nat) : Fld := ⟨0x200D1010 + 32 * n, 4, 8⟩
abbrev MOT_AX_HOME.BACKOFF (n : Nat) : Fld := ⟨0x200D1010 + 32 * n, 12, 20⟩
abbrev MOT_AX.HOME_TMO (n : Nat) : Fld := ⟨0x200D101C + 32 * n, 0, 16⟩
abbrev MOT_AS.MSTATE (n : Nat) : Fld := ⟨0x200D2000 + 32 * n, 0, 3⟩
abbrev MOT_AS.HOMED (n : Nat) : Fld := ⟨0x200D2000 + 32 * n, 3, 1⟩
abbrev MOT_AS.REASON (n : Nat) : Fld := ⟨0x200D2000 + 32 * n, 4, 4⟩
abbrev MOT_AS.QDEPTH (n : Nat) : Fld := ⟨0x200D2000 + 32 * n, 8, 4⟩
abbrev MOT_AS.HPHASE (n : Nat) : Fld := ⟨0x200D2000 + 32 * n, 12, 3⟩
abbrev MOT_AS.HFAIL (n : Nat) : Fld := ⟨0x200D2000 + 32 * n, 15, 3⟩
abbrev MOT_AS.DIRECT (n : Nat) : Fld := ⟨0x200D2000 + 32 * n, 18, 1⟩
abbrev MOT_AS.LIMIT (n : Nat) : Fld := ⟨0x200D2000 + 32 * n, 19, 1⟩
abbrev MOT_AS.CHAT_HOME (n : Nat) : Fld := ⟨0x200D2000 + 32 * n, 20, 1⟩
abbrev MOT_AS.CHAT_LIMIT (n : Nat) : Fld := ⟨0x200D2000 + 32 * n, 21, 1⟩
abbrev MOT_AS.CLAMPED (n : Nat) : Fld := ⟨0x200D2000 + 32 * n, 22, 1⟩
abbrev MOT_AS.SLOWED (n : Nat) : Fld := ⟨0x200D2000 + 32 * n, 23, 1⟩
abbrev MOT_AS.ARRIVED (n : Nat) : Fld := ⟨0x200D2000 + 32 * n, 24, 1⟩
abbrev MOT_AS.OFFSET (n : Nat) : Fld := ⟨0x200D2004 + 32 * n, 0, 32⟩
abbrev MOT_AS.SETPOS (n : Nat) : Fld := ⟨0x200D2008 + 32 * n, 0, 32⟩
abbrev MOT_AS.SETVEL (n : Nat) : Fld := ⟨0x200D200C + 32 * n, 0, 32⟩
abbrev MOT_AS.OVERSHOOT (n : Nat) : Fld := ⟨0x200D2010 + 32 * n, 0, 32⟩
abbrev MOT_AS.HCAP (n : Nat) : Fld := ⟨0x200D2014 + 32 * n, 0, 32⟩
abbrev MOT_PULSE.AXIS (n : Nat) : Fld := ⟨0x200D3000 + 16 * n, 0, 7⟩
abbrev MOT_PULSE.EN (n : Nat) : Fld := ⟨0x200D3000 + 16 * n, 7, 1⟩
abbrev MOT_PULSE.STEP_CH (n : Nat) : Fld := ⟨0x200D3000 + 16 * n, 8, 6⟩
abbrev MOT_PULSE.DIR_CH (n : Nat) : Fld := ⟨0x200D3000 + 16 * n, 14, 6⟩
abbrev MOT_PULSE.ENA_CH (n : Nat) : Fld := ⟨0x200D3000 + 16 * n, 20, 6⟩
abbrev MOT_PULSE.ENA_EN (n : Nat) : Fld := ⟨0x200D3000 + 16 * n, 26, 1⟩
abbrev MOT_PULSE.DIR_POL (n : Nat) : Fld := ⟨0x200D3000 + 16 * n, 27, 1⟩
abbrev MOT_PULSE.STEP_NM (n : Nat) : Fld := ⟨0x200D3004 + 16 * n, 0, 32⟩
abbrev MOT_PULSE_IN0.CLOSED (n : Nat) : Fld := ⟨0x200D3008 + 16 * n, 0, 7⟩
abbrev MOT_PULSE_IN1.EDGE (n : Nat) : Fld := ⟨0x200D300C + 16 * n, 0, 7⟩
abbrev MOT_PULSE_IN0.LOCKED (n : Nat) : Fld := ⟨0x200D3008 + 16 * n, 7, 7⟩
abbrev MOT_PULSE_IN1.EGRESS (n : Nat) : Fld := ⟨0x200D300C + 16 * n, 7, 7⟩
abbrev MOT_PULSE_IN0.HOME (n : Nat) : Fld := ⟨0x200D3008 + 16 * n, 14, 7⟩
abbrev MOT_PULSE_IN1.ISOL (n : Nat) : Fld := ⟨0x200D300C + 16 * n, 14, 7⟩
abbrev MOT_PULSE_IN0.LIMIT (n : Nat) : Fld := ⟨0x200D3008 + 16 * n, 21, 7⟩

/-! ### spec/07_fast_trip.md -/

abbrev TRIP_CTRL.PRG_TMO : Fld := ⟨0x200B0000, 0, 8⟩
abbrev TRIP_CFG.PRG_OFF : Fld := ⟨0x200B0004, 0, 16⟩
abbrev TRIP_CFG.IMG_OFF : Fld := ⟨0x200B0004, 16, 16⟩
abbrev TRIP_SELF.SRC : Fld := ⟨0x200B0008, 0, 5⟩
abbrev TRIP_SELF.EN : Fld := ⟨0x200B0008, 5, 1⟩
abbrev TRIP_STAT.EVAL : Fld := ⟨0x200B000C, 0, 3⟩
abbrev TRIP_STAT.BANK : Fld := ⟨0x200B000C, 3, 1⟩
abbrev TRIP_STAT.SWAP_PEND : Fld := ⟨0x200B000C, 4, 1⟩
abbrev TRIP_STAT.VTEST_PEND : Fld := ⟨0x200B000C, 5, 1⟩
abbrev TRIP_STAT.PRG_KICK : Fld := ⟨0x200B000C, 6, 1⟩
abbrev TRIP_STAT.LOCK : Fld := ⟨0x200B000C, 7, 1⟩
abbrev TRIP_SWAP.BANK : Fld := ⟨0x200B0010, 0, 1⟩
abbrev TRIP_LATE.NS : Fld := ⟨0x200B0014, 0, 32⟩
abbrev TRIP_RESTART.FN : Fld := ⟨0x200B0018, 0, 5⟩
abbrev TRIP_EDIS_CNT : Fld := ⟨0x200B0080, 0, 32⟩
abbrev TRIP_VTEST_CNT : Fld := ⟨0x200B0084, 0, 32⟩
abbrev TRIP_SPK_TX_CNT : Fld := ⟨0x200B0088, 0, 32⟩
abbrev TRIP_SPK_RX_CNT : Fld := ⟨0x200B008C, 0, 32⟩
abbrev TRIP_DUP_CNT : Fld := ⟨0x200B0090, 0, 32⟩
abbrev TRIP_REJ_CNT : Fld := ⟨0x200B0094, 0, 32⟩
abbrev TRIP_LOSS_CNT : Fld := ⟨0x200B0098, 0, 32⟩
abbrev TRIP_LATE_CNT : Fld := ⟨0x200B009C, 0, 32⟩
abbrev TRIP_TOKW_CNT : Fld := ⟨0x200B00A0, 0, 32⟩
abbrev TRIP_PRG_TMO_CNT : Fld := ⟨0x200B00A4, 0, 32⟩
abbrev TRIP_LATCH_CNT : Fld := ⟨0x200B00A8, 0, 32⟩
abbrev TRIP_RESTART_CNT : Fld := ⟨0x200B00AC, 0, 32⟩
abbrev TRIP_RST_REJ_CNT : Fld := ⟨0x200B00B0, 0, 32⟩
abbrev TRIP_TWR_CNT : Fld := ⟨0x200B00B4, 0, 32⟩
abbrev TRIP_SRC.NODE (n : Nat) : Fld := ⟨0x200B0800 + 16 * n, 0, 8⟩
abbrev TRIP_SRC.EN (n : Nat) : Fld := ⟨0x200B0800 + 16 * n, 8, 1⟩
abbrev TRIP_SRC.PAIR (n : Nat) : Fld := ⟨0x200B0800 + 16 * n, 9, 1⟩
abbrev TRIP_SRC.EXPECT (n : Nat) : Fld := ⟨0x200B0800 + 16 * n, 10, 5⟩
abbrev TRIP_SRC.AGE_MAX (n : Nat) : Fld := ⟨0x200B0800 + 16 * n, 16, 16⟩
abbrev TRIP_SRC_STAT.BITS (n : Nat) : Fld := ⟨0x200B0804 + 16 * n, 0, 16⟩
abbrev TRIP_SRC_STAT.LIVE (n : Nat) : Fld := ⟨0x200B0804 + 16 * n, 16, 1⟩
abbrev TRIP_SRC_STAT.FORCED (n : Nat) : Fld := ⟨0x200B0804 + 16 * n, 17, 1⟩
abbrev TRIP_SRC_STAT.LANE (n : Nat) : Fld := ⟨0x200B0804 + 16 * n, 18, 1⟩
abbrev TRIP_SRC.SEQ (n : Nat) : Fld := ⟨0x200B0808 + 16 * n, 0, 32⟩
abbrev TRIP_SRC.MAXLAT (n : Nat) : Fld := ⟨0x200B080C + 16 * n, 0, 32⟩
abbrev TRIP_SPKMAP.INDEX (n : Nat) : Fld := ⟨0x200B0C00 + 4 * n, 0, 10⟩
abbrev TRIP_SPKMAP.OUT (n : Nat) : Fld := ⟨0x200B0C00 + 4 * n, 10, 1⟩
abbrev TRIP_SPKMAP.EN (n : Nat) : Fld := ⟨0x200B0C00 + 4 * n, 11, 1⟩
abbrev TRIP_DOUT.OUT (n : Nat) : Fld := ⟨0x200B0D00 + 4 * n, 0, 9⟩
abbrev TRIP_DOUT.EN (n : Nat) : Fld := ⟨0x200B0D00 + 4 * n, 9, 1⟩
abbrev TRIP_FN.POLICY (n : Nat) : Fld := ⟨0x200B1000 + 16 * n, 0, 1⟩
abbrev TRIP_FN.START_OPEN (n : Nat) : Fld := ⟨0x200B1000 + 16 * n, 1, 1⟩
abbrev TRIP_FN.CATS (n : Nat) : Fld := ⟨0x200B1000 + 16 * n, 2, 4⟩
abbrev TRIP_FN.RST_LIT (n : Nat) : Fld := ⟨0x200B1000 + 16 * n, 16, 10⟩
abbrev TRIP_FN.RST_EN (n : Nat) : Fld := ⟨0x200B1000 + 16 * n, 26, 1⟩
abbrev TRIP_FN_SRC.MASK (n : Nat) : Fld := ⟨0x200B1004 + 16 * n, 0, 32⟩
abbrev TRIP_FN_STAT.LATCHED (n : Nat) : Fld := ⟨0x200B1008 + 16 * n, 0, 1⟩
abbrev TRIP_FN_STAT.CAUSE (n : Nat) : Fld := ⟨0x200B1008 + 16 * n, 1, 3⟩
abbrev TRIP_FN_STAT.PRESENT (n : Nat) : Fld := ⟨0x200B1008 + 16 * n, 4, 1⟩
abbrev TRIP_FN_STAT.RPHASE (n : Nat) : Fld := ⟨0x200B1008 + 16 * n, 5, 2⟩

/-! ### spec/08_safe_telegrams.md -/

abbrev SAFE_CTRL.TX_TMO : Fld := ⟨0x20090000, 0, 8⟩
abbrev SAFE_UID.UID : Fld := ⟨0x20090004, 0, 24⟩
abbrev SAFE_PUID.UID : Fld := ⟨0x20090008, 0, 24⟩
abbrev SAFE_CFG.MBOX_BASE : Fld := ⟨0x2009000C, 16, 16⟩
abbrev SAFE_STAT.NRUN : Fld := ⟨0x20090010, 0, 8⟩
abbrev SAFE_STAT.NLOST : Fld := ⟨0x20090010, 8, 8⟩
abbrev SAFE_STAT.UNIT : Fld := ⟨0x20090010, 16, 1⟩
abbrev SAFE_OPEN.OPEN (n : Nat) : Fld := ⟨0x20090020 + 4 * n, 0, 32⟩
abbrev SAFE_TX_CNT : Fld := ⟨0x20090080, 0, 32⟩
abbrev SAFE_SKIP_CNT : Fld := ⟨0x20090084, 0, 32⟩
abbrev SAFE_RX_CNT : Fld := ⟨0x20090088, 0, 32⟩
abbrev SAFE_FMT_CNT : Fld := ⟨0x2009008C, 0, 32⟩
abbrev SAFE_CHK_CNT : Fld := ⟨0x20090090, 0, 32⟩
abbrev SAFE_TEST_CNT : Fld := ⟨0x20090094, 0, 32⟩
abbrev SAFE_AGE_CNT : Fld := ⟨0x20090098, 0, 32⟩
abbrev SAFE_DUP_CNT : Fld := ⟨0x2009009C, 0, 32⟩
abbrev SAFE_SEQ_CNT : Fld := ⟨0x200900A0, 0, 32⟩
abbrev SAFE_GAP_CNT : Fld := ⟨0x200900A4, 0, 32⟩
abbrev SAFE_LOSS_CNT : Fld := ⟨0x200900A8, 0, 32⟩
abbrev SAFE_RESYNC_CNT : Fld := ⟨0x200900AC, 0, 32⟩
abbrev SAFE_UNIT_CNT : Fld := ⟨0x200900B0, 0, 32⟩
abbrev SAFE_S.EN (n : Nat) : Fld := ⟨0x20091000 + 32 * n, 0, 1⟩
abbrev SAFE_S.DIR (n : Nat) : Fld := ⟨0x20091000 + 32 * n, 1, 1⟩
abbrev SAFE_S.TRANS (n : Nat) : Fld := ⟨0x20091000 + 32 * n, 2, 2⟩
abbrev SAFE_S.PAIR (n : Nat) : Fld := ⟨0x20091000 + 32 * n, 4, 1⟩
abbrev SAFE_S.TBASE (n : Nat) : Fld := ⟨0x20091000 + 32 * n, 5, 1⟩
abbrev SAFE_S.ACCEPT_TEST (n : Nat) : Fld := ⟨0x20091000 + 32 * n, 6, 1⟩
abbrev SAFE_S.AUTO (n : Nat) : Fld := ⟨0x20091000 + 32 * n, 7, 1⟩
abbrev SAFE_S.TIDX (n : Nat) : Fld := ⟨0x20091000 + 32 * n, 8, 9⟩
abbrev SAFE_S.SESSION (n : Nat) : Fld := ⟨0x20091004 + 32 * n, 0, 16⟩
abbrev SAFE_S.PEER_UID (n : Nat) : Fld := ⟨0x20091008 + 32 * n, 0, 24⟩
abbrev SAFE_S.LEN (n : Nat) : Fld := ⟨0x2009100C + 32 * n, 0, 9⟩
abbrev SAFE_S.IMG_OFF (n : Nat) : Fld := ⟨0x2009100C + 32 * n, 16, 16⟩
abbrev SAFE_S.AGE_MAX (n : Nat) : Fld := ⟨0x20091010 + 32 * n, 0, 16⟩
abbrev SAFE_S.FUT (n : Nat) : Fld := ⟨0x20091010 + 32 * n, 16, 8⟩
abbrev SAFE_S.TMO (n : Nat) : Fld := ⟨0x20091014 + 32 * n, 0, 12⟩
abbrev SAFE_T.STATE (n : Nat) : Fld := ⟨0x20092000 + 16 * n, 0, 2⟩
abbrev SAFE_T.SILENT (n : Nat) : Fld := ⟨0x20092000 + 16 * n, 2, 1⟩
abbrev SAFE_T.FLAGS (n : Nat) : Fld := ⟨0x20092000 + 16 * n, 3, 16⟩
abbrev SAFE_T.SEQ (n : Nat) : Fld := ⟨0x20092004 + 16 * n, 0, 32⟩
abbrev SAFE_T.LASTAGE (n : Nat) : Fld := ⟨0x20092008 + 16 * n, 0, 16⟩
abbrev SAFE_T.MAXAGE (n : Nat) : Fld := ⟨0x20092008 + 16 * n, 16, 16⟩
abbrev SAFE_T.SEQ2 (n : Nat) : Fld := ⟨0x2009200C + 16 * n, 0, 32⟩
abbrev CRC_CFG.POLY (n : Nat) : Fld := ⟨0x200A0000 + 64 * n, 0, 2⟩
abbrev CRC_CFG.MODE (n : Nat) : Fld := ⟨0x200A0000 + 64 * n, 2, 2⟩
abbrev CRC_CFG.SRC (n : Nat) : Fld := ⟨0x200A0000 + 64 * n, 4, 4⟩
abbrev CRC_CFG.FOLD_SRC (n : Nat) : Fld := ⟨0x200A0000 + 64 * n, 8, 2⟩
abbrev CRC_CFG.FILTER (n : Nat) : Fld := ⟨0x200A0000 + 64 * n, 16, 16⟩
abbrev CRC.FOLD (n : Nat) : Fld := ⟨0x200A0004 + 64 * n, 0, 32⟩
abbrev CRC.LEN (n : Nat) : Fld := ⟨0x200A0020 + 64 * n, 0, 32⟩
abbrev CRC.VAL (n : Nat) : Fld := ⟨0x200A0008 + 64 * n, 0, 64⟩
abbrev CRC.RES (n : Nat) : Fld := ⟨0x200A0010 + 64 * n, 0, 64⟩
abbrev CRC.ADDR (n : Nat) : Fld := ⟨0x200A0018 + 64 * n, 0, 64⟩
abbrev CRC.FIFO (n : Nat) : Fld := ⟨0x200A0038 + 64 * n, 0, 64⟩
abbrev CRC_OP.OP (n : Nat) : Fld := ⟨0x200A0024 + 64 * n, 0, 2⟩
abbrev CRC_OP.CTX (n : Nat) : Fld := ⟨0x200A0024 + 64 * n, 2, 7⟩
abbrev CRC_DATA.DATA (n : Nat) : Fld := ⟨0x200A0028 + 64 * n, 0, 32⟩
abbrev CRC_DATA64.DATA (n : Nat) : Fld := ⟨0x200A0030 + 64 * n, 0, 64⟩
abbrev CRC_STAT.BUSY (n : Nat) : Fld := ⟨0x200A002C + 64 * n, 0, 1⟩
abbrev CRC_STAT.OPEN (n : Nat) : Fld := ⟨0x200A002C + 64 * n, 1, 1⟩
abbrev CRC_STAT.LEVEL (n : Nat) : Fld := ⟨0x200A002C + 64 * n, 2, 5⟩
abbrev CRC_STAT.HEAD_FCS (n : Nat) : Fld := ⟨0x200A002C + 64 * n, 7, 1⟩
abbrev CRC_DONE_CNT (n : Nat) : Fld := ⟨0x200A0200 + 16 * n, 0, 32⟩
abbrev CRC_FRM_CNT (n : Nat) : Fld := ⟨0x200A0204 + 16 * n, 0, 32⟩
abbrev CRC_OVF_CNT (n : Nat) : Fld := ⟨0x200A0208 + 16 * n, 0, 32⟩
abbrev CRC_REJ_CNT (n : Nat) : Fld := ⟨0x200A020C + 16 * n, 0, 32⟩

/-! ### spec/09_tt_lanes.md -/

abbrev LANE_CTRL.EN_A : Fld := ⟨0x20060000, 0, 1⟩
abbrev LANE_CTRL.EN_B : Fld := ⟨0x20060000, 1, 1⟩
abbrev LANE_CFG.NODE : Fld := ⟨0x20060004, 0, 8⟩
abbrev LANE_CFG.COORD : Fld := ⟨0x20060004, 8, 8⟩
abbrev LANE_CFG.ETYPE : Fld := ⟨0x20060004, 16, 16⟩
abbrev LANE_KEY.KEY : Fld := ⟨0x20060008, 0, 32⟩
abbrev LANE_DOOR.FB_DL : Fld := ⟨0x2006000C, 0, 13⟩
abbrev LANE_VER.OWN_MIN : Fld := ⟨0x20060010, 0, 4⟩
abbrev LANE_VER.OWN_MAX : Fld := ⟨0x20060010, 4, 4⟩
abbrev LANE_VER.NEG_A : Fld := ⟨0x20060010, 8, 4⟩
abbrev LANE_VER.NEG_B : Fld := ⟨0x20060010, 12, 4⟩
abbrev LANE_VER.MISMATCH_A : Fld := ⟨0x20060010, 16, 1⟩
abbrev LANE_VER.MISMATCH_B : Fld := ⟨0x20060010, 17, 1⟩
abbrev LANE_STAT.STATE (n : Nat) : Fld := ⟨0x20060014 + 4 * n, 0, 3⟩
abbrev LANE_STAT.MASTER (n : Nat) : Fld := ⟨0x20060014 + 4 * n, 3, 1⟩
abbrev LANE_STAT.LINK_UP (n : Nat) : Fld := ⟨0x20060014 + 4 * n, 4, 1⟩
abbrev LANE_STAT.LINK_DN (n : Nat) : Fld := ⟨0x20060014 + 4 * n, 5, 1⟩
abbrev LANE_STAT.PREEMPT (n : Nat) : Fld := ⟨0x20060014 + 4 * n, 6, 1⟩
abbrev LANE_STAT.FREEWHEEL (n : Nat) : Fld := ⟨0x20060014 + 4 * n, 7, 1⟩
abbrev LANE_STAT.MASTER_ID (n : Nat) : Fld := ⟨0x20060014 + 4 * n, 8, 8⟩
abbrev LANE_STAT.FAULT (n : Nat) : Fld := ⟨0x20060014 + 4 * n, 16, 3⟩
abbrev LANE_STAT.BANK (n : Nat) : Fld := ⟨0x20060014 + 4 * n, 19, 1⟩
abbrev LANE_CID.CID_A : Fld := ⟨0x2006001C, 0, 16⟩
abbrev LANE_CID.CID_B : Fld := ⟨0x2006001C, 16, 16⟩
abbrev LANE_PDLY.UP (n : Nat) : Fld := ⟨0x20060020 + 4 * n, 0, 16⟩
abbrev LANE_PDLY.DN (n : Nat) : Fld := ⟨0x20060020 + 4 * n, 16, 16⟩
abbrev LANE_MODE.PHASE : Fld := ⟨0x20060028, 0, 3⟩
abbrev LANE_MODE.ACT : Fld := ⟨0x20060028, 3, 1⟩
abbrev LANE_MODE.REFUSED : Fld := ⟨0x20060028, 4, 1⟩
abbrev LANE_MODE.CID : Fld := ⟨0x20060028, 16, 16⟩
abbrev LANE_MODE_M.M : Fld := ⟨0x2006002C, 0, 32⟩
abbrev LANE_MODE_TGT.TGT : Fld := ⟨0x20060034, 0, 32⟩
abbrev LANE_MODE_CMD.CID : Fld := ⟨0x20060030, 0, 16⟩
abbrev LANE_MODE_CMD.OP : Fld := ⟨0x20060030, 16, 2⟩
abbrev LANE_OFS.OFS : Fld := ⟨0x20060038, 0, 16⟩
abbrev LANE_MAC.MAC : Fld := ⟨0x20060040, 0, 48⟩
abbrev LANE_SLIP_CNT : Fld := ⟨0x2006007C, 0, 32⟩
abbrev LANE_RX_CNT (n : Nat) : Fld := ⟨0x20060080 + 64 * n, 0, 32⟩
abbrev LANE_TX_CNT (n : Nat) : Fld := ⟨0x20060084 + 64 * n, 0, 32⟩
abbrev LANE_FCS_CNT (n : Nat) : Fld := ⟨0x20060088 + 64 * n, 0, 32⟩
abbrev LANE_FMT_CNT (n : Nat) : Fld := ⟨0x2006008C + 64 * n, 0, 32⟩
abbrev LANE_CID_CNT (n : Nat) : Fld := ⟨0x20060090 + 64 * n, 0, 32⟩
abbrev LANE_SLOT_CNT (n : Nat) : Fld := ⟨0x20060094 + 64 * n, 0, 32⟩
abbrev LANE_LATE_CNT (n : Nat) : Fld := ⟨0x20060098 + 64 * n, 0, 32⟩
abbrev LANE_TXWAIT_CNT (n : Nat) : Fld := ⟨0x2006009C + 64 * n, 0, 32⟩
abbrev LANE_PREEMPT_CNT (n : Nat) : Fld := ⟨0x200600A0 + 64 * n, 0, 32⟩
abbrev LANE_XOVF_CNT (n : Nat) : Fld := ⟨0x200600A4 + 64 * n, 0, 32⟩
abbrev LANE_MASTER_CNT (n : Nat) : Fld := ⟨0x200600A8 + 64 * n, 0, 32⟩
abbrev LANE_REJOIN_CNT (n : Nat) : Fld := ⟨0x200600AC + 64 * n, 0, 32⟩
abbrev LANE_FAULT_CNT (n : Nat) : Fld := ⟨0x200600B0 + 64 * n, 0, 32⟩
abbrev LANE_STR.AGE (n : Nat) : Fld := ⟨0x20061000 + 4 * n, 0, 8⟩
abbrev LANE_STR.STALE (n : Nat) : Fld := ⟨0x20061000 + 4 * n, 8, 1⟩
abbrev LANE_STR.LANE (n : Nat) : Fld := ⟨0x20061000 + 4 * n, 9, 1⟩
abbrev LANE_STR.FLAG_STALE (n : Nat) : Fld := ⟨0x20061000 + 4 * n, 10, 1⟩
abbrev LANE_STR.FORCED (n : Nat) : Fld := ⟨0x20061000 + 4 * n, 11, 1⟩
abbrev LANE_NODE.PRESENT (n : Nat) : Fld := ⟨0x20062000 + 4 * n, 0, 1⟩
abbrev LANE_NODE.STATE (n : Nat) : Fld := ⟨0x20062000 + 4 * n, 1, 3⟩
abbrev LANE_NODE.ANN (n : Nat) : Fld := ⟨0x20062000 + 4 * n, 4, 2⟩
abbrev LANE_NODE.VER (n : Nat) : Fld := ⟨0x20062000 + 4 * n, 8, 8⟩
abbrev LANE_NODE.RESTART (n : Nat) : Fld := ⟨0x20062000 + 4 * n, 16, 16⟩

/-! ### spec/10_ecn_time_gateway.md -/

abbrev ECN_CTRL.P1_EN : Fld := ⟨0x20070000, 0, 1⟩
abbrev ECN_CTRL.P2_EN : Fld := ⟨0x20070000, 1, 1⟩
abbrev ECN_CTRL.BRIDGE : Fld := ⟨0x20070000, 2, 1⟩
abbrev ECN_CTRL.PD_EN : Fld := ⟨0x20070000, 3, 1⟩
abbrev ECN_CFG.PVID : Fld := ⟨0x20070004, 0, 12⟩
abbrev ECN_CFG.ING_FILT : Fld := ⟨0x20070004, 12, 1⟩
abbrev ECN_IP.VALUE : Fld := ⟨0x20070008, 0, 32⟩
abbrev ECN_ETB_TOPO.VALUE : Fld := ⟨0x2007000C, 0, 32⟩
abbrev ECN_OPTRN_TOPO.VALUE : Fld := ⟨0x20070010, 0, 32⟩
abbrev ECN_STAT.LINK (n : Nat) : Fld := ⟨0x20070014 + 4 * n, 0, 1⟩
abbrev ECN_STAT.SPEED (n : Nat) : Fld := ⟨0x20070014 + 4 * n, 1, 2⟩
abbrev ECN_STAT.AS_CAPABLE (n : Nat) : Fld := ⟨0x20070014 + 4 * n, 3, 1⟩
abbrev ECN_STAT.PTP_ROLE (n : Nat) : Fld := ⟨0x20070014 + 4 * n, 4, 2⟩
abbrev ECN_RING.BASE (n : Nat) : Fld := ⟨0x20070100 + 16 * n, 0, 32⟩
abbrev ECN_RING.SIZE (n : Nat) : Fld := ⟨0x20070104 + 16 * n, 0, 12⟩
abbrev ECN_RING.HEAD (n : Nat) : Fld := ⟨0x20070108 + 16 * n, 0, 12⟩
abbrev ECN_RING.TAIL (n : Nat) : Fld := ⟨0x2007010C + 16 * n, 0, 12⟩
abbrev ECN_QCFG.TBASE (n : Nat) : Fld := ⟨0x20070200 + 4 * n, 0, 1⟩
abbrev ECN_QCFG.LATE (n : Nat) : Fld := ⟨0x20070200 + 4 * n, 1, 1⟩
abbrev ECN_QCFG.TOL (n : Nat) : Fld := ⟨0x20070200 + 4 * n, 16, 16⟩
abbrev ECN_PDST.STATE (n : Nat) : Fld := ⟨0x20075000 + 4 * n, 0, 2⟩
abbrev ECN_PDST.SEQ (n : Nat) : Fld := ⟨0x20075000 + 4 * n, 16, 16⟩
abbrev TIME_CTRL.STEP_NS : Fld := ⟨0x20080000, 0, 16⟩
abbrev TIME_CTRL.SLEW_PPM : Fld := ⟨0x20080000, 16, 16⟩
abbrev TIME_PTP.DOMAIN : Fld := ⟨0x20080004, 0, 8⟩
abbrev TIME_PTP.PRIO1 : Fld := ⟨0x20080004, 8, 8⟩
abbrev TIME_PTP.PRIO2 : Fld := ⟨0x20080004, 16, 8⟩
abbrev TIME_PTP.GM_CAP : Fld := ⟨0x20080004, 24, 1⟩
abbrev TIME_PTP.EXT : Fld := ⟨0x20080004, 25, 1⟩
abbrev TIME_PTP.LOG_SYNC : Fld := ⟨0x20080004, 26, 4⟩
abbrev TIME_HOLD_MAX.TICKS : Fld := ⟨0x20080008, 0, 32⟩
abbrev TIME_LOCAL.NS : Fld := ⟨0x20080010, 0, 64⟩
abbrev TIME_LANE.NS : Fld := ⟨0x20080018, 0, 64⟩
abbrev TIME_CONSIST.NS : Fld := ⟨0x20080020, 0, 64⟩
abbrev TIME_STAT.LANE_SYNC : Fld := ⟨0x20080028, 0, 1⟩
abbrev TIME_STAT.LANE_FW : Fld := ⟨0x20080028, 1, 1⟩
abbrev TIME_STAT.CONS_SYNC : Fld := ⟨0x20080028, 2, 1⟩
abbrev TIME_STAT.CONS_FW : Fld := ⟨0x20080028, 3, 1⟩
abbrev TIME_STAT.GM_SELF : Fld := ⟨0x20080028, 4, 1⟩
abbrev TIME_STAT.LANE_SRC : Fld := ⟨0x20080028, 5, 1⟩
abbrev TIME_LANE_HOLD.HOLD : Fld := ⟨0x2008002C, 0, 32⟩
abbrev TIME_CONS_HOLD.HOLD : Fld := ⟨0x20080030, 0, 32⟩
abbrev TIME_LANE_RATE.RATE : Fld := ⟨0x20080034, 0, 32⟩
abbrev TIME_CONS_RATE.RATE : Fld := ⟨0x20080038, 0, 32⟩
abbrev TIME_CONS_OFS.OFS : Fld := ⟨0x2008003C, 0, 32⟩
abbrev TIME_UTC_OFS.UTC : Fld := ⟨0x20080048, 0, 16⟩
abbrev TIME_UTC_OFS.VALID : Fld := ⟨0x20080048, 16, 1⟩
abbrev TIME_GM_ID.ID : Fld := ⟨0x20080040, 0, 64⟩
abbrev TIME_CAP_CFG.KIND (n : Nat) : Fld := ⟨0x20080100 + 4 * n, 0, 3⟩
abbrev TIME_CAP_CFG.INDEX (n : Nat) : Fld := ⟨0x20080100 + 4 * n, 3, 9⟩
abbrev TIME_CAP_CFG.EDGE (n : Nat) : Fld := ⟨0x20080100 + 4 * n, 12, 2⟩
abbrev TIME_CAP_CFG.TBASE (n : Nat) : Fld := ⟨0x20080100 + 4 * n, 14, 2⟩
abbrev TIME_CAP_STAT.LEVEL (n : Nat) : Fld := ⟨0x20080180 + 4 * n, 0, 4⟩
abbrev TIME_CAP_FIFO.STAMP (n : Nat) : Fld := ⟨0x20080200 + 8 * n, 0, 64⟩
abbrev GW_CFG.STAT_EN : Fld := ⟨0x20110000, 0, 1⟩
abbrev GW_CFG.STAT_OFF : Fld := ⟨0x20110000, 16, 16⟩
abbrev GW_MAP_STAT.ACTIVE : Fld := ⟨0x20110004, 0, 1⟩
abbrev GW_MAP_STAT.SWAP_PEND : Fld := ⟨0x20110004, 1, 1⟩
abbrev GW_MAP_SWAP.BANK : Fld := ⟨0x20110008, 0, 1⟩
abbrev GW_STAT.NSTALE : Fld := ⟨0x2011000C, 0, 14⟩
abbrev GW_STAT.ERR : Fld := ⟨0x2011000C, 14, 1⟩
abbrev GW_STAT.ERR_IDX : Fld := ⟨0x2011000C, 16, 14⟩
abbrev GW_MVB_CFG.DEVADDR : Fld := ⟨0x20110400, 0, 12⟩
abbrev GW_MVB_CFG.EN : Fld := ⟨0x20110400, 12, 1⟩
abbrev GW_MVB_STAT.LINE_A_OK : Fld := ⟨0x20110404, 0, 1⟩
abbrev GW_MVB_STAT.LINE_B_OK : Fld := ⟨0x20110404, 1, 1⟩
abbrev GW_MVB_STAT.TRUSTED : Fld := ⟨0x20110404, 2, 1⟩
abbrev GW_MVB_STAT.RUN : Fld := ⟨0x20110404, 3, 1⟩
abbrev GW_MVB_STAT.DSW : Fld := ⟨0x20110404, 16, 16⟩
abbrev GW_MVBP.ADDR (n : Nat) : Fld := ⟨0x20111000 + 8 * n, 0, 12⟩
abbrev GW_MVBP.FCODE (n : Nat) : Fld := ⟨0x20111000 + 8 * n, 12, 3⟩
abbrev GW_MVBP.DIR (n : Nat) : Fld := ⟨0x20111000 + 8 * n, 15, 1⟩
abbrev GW_MVBP.EN (n : Nat) : Fld := ⟨0x20111000 + 8 * n, 16, 1⟩
abbrev GW_MVBP.PAIR (n : Nat) : Fld := ⟨0x20111000 + 8 * n, 17, 1⟩
abbrev GW_MVBP.FRESH (n : Nat) : Fld := ⟨0x20111004 + 8 * n, 0, 16⟩
abbrev GW_MVBS.FRESHNESS (n : Nat) : Fld := ⟨0x20111800 + 4 * n, 0, 16⟩
abbrev GW_MVBS.STALE (n : Nat) : Fld := ⟨0x20111800 + 4 * n, 16, 1⟩

/-! ### spec/11_field_io.md -/

abbrev DIO_CTRL.SIL_TMO : Fld := ⟨0x200E0000, 0, 8⟩
abbrev DIO_CFG.OUT_OFF : Fld := ⟨0x200E0004, 0, 16⟩
abbrev DIO_CFG.IN_OFF : Fld := ⟨0x200E0004, 16, 16⟩
abbrev DIO_STAT.KICK_PRG : Fld := ⟨0x200E0008, 0, 1⟩
abbrev DIO_STAT.KICK_TRIP : Fld := ⟨0x200E0008, 1, 1⟩
abbrev DIO_STAT.KICK_ALL : Fld := ⟨0x200E0008, 2, 1⟩
abbrev DIO_STAT.NFAULT : Fld := ⟨0x200E0008, 3, 7⟩
abbrev DIO.STATE : Fld := ⟨0x200E0010, 0, 64⟩
abbrev DIO.DEM : Fld := ⟨0x200E0018, 0, 64⟩
abbrev DIO.FAULT : Fld := ⟨0x200E0020, 0, 64⟩
abbrev DIO_GRP.UN (n : Nat) : Fld := ⟨0x200E0040 + 4 * n, 0, 3⟩
abbrev DIO_GRP.CUT (n : Nat) : Fld := ⟨0x200E0040 + 4 * n, 3, 1⟩
abbrev DIO_GSTAT.UV (n : Nat) : Fld := ⟨0x200E0060 + 4 * n, 0, 1⟩
abbrev DIO_GSTAT.OV (n : Nat) : Fld := ⟨0x200E0060 + 4 * n, 1, 1⟩
abbrev DIO_GSTAT.OVC (n : Nat) : Fld := ⟨0x200E0060 + 4 * n, 2, 1⟩
abbrev DIO_GSTAT.CUT (n : Nat) : Fld := ⟨0x200E0060 + 4 * n, 3, 1⟩
abbrev DIO_GSTAT.GSW (n : Nat) : Fld := ⟨0x200E0060 + 4 * n, 4, 1⟩
abbrev DIO_GSTAT.VG (n : Nat) : Fld := ⟨0x200E0060 + 4 * n, 16, 16⟩
abbrev DIO_CH_CFG.PERS (n : Nat) : Fld := ⟨0x200E1000 + 16 * n, 0, 2⟩
abbrev DIO_CH_CFG.KICK (n : Nat) : Fld := ⟨0x200E1000 + 16 * n, 2, 1⟩
abbrev DIO_CH_CFG.THR (n : Nat) : Fld := ⟨0x200E1000 + 16 * n, 3, 1⟩
abbrev DIO_CH_CFG.WET (n : Nat) : Fld := ⟨0x200E1000 + 16 * n, 4, 1⟩
abbrev DIO_CH_CFG.FU (n : Nat) : Fld := ⟨0x200E1000 + 16 * n, 5, 1⟩
abbrev DIO_CH_CFG.FILT (n : Nat) : Fld := ⟨0x200E1000 + 16 * n, 6, 8⟩
abbrev DIO_CH_CFG.TEST_EN (n : Nat) : Fld := ⟨0x200E1000 + 16 * n, 14, 1⟩
abbrev DIO_CH_CFG.DARK_W (n : Nat) : Fld := ⟨0x200E1000 + 16 * n, 15, 8⟩
abbrev DIO_CH_CFG.LIGHT_W (n : Nat) : Fld := ⟨0x200E1000 + 16 * n, 23, 8⟩
abbrev DIO_CH_TEST.DARK_PER (n : Nat) : Fld := ⟨0x200E1004 + 16 * n, 0, 12⟩
abbrev DIO_CH_TEST.LIGHT_PER (n : Nat) : Fld := ⟨0x200E1004 + 16 * n, 12, 12⟩
abbrev DIO_CH_STAT.CAUSE (n : Nat) : Fld := ⟨0x200E1008 + 16 * n, 0, 3⟩
abbrev DIO_CH_STAT.FAULTED (n : Nat) : Fld := ⟨0x200E1008 + 16 * n, 3, 1⟩
abbrev DIO_CH_STAT.TESTING (n : Nat) : Fld := ⟨0x200E1008 + 16 * n, 4, 1⟩
abbrev DIO_CH_STAT.KICK (n : Nat) : Fld := ⟨0x200E1008 + 16 * n, 5, 1⟩
abbrev DIO_CH_STAT.PIN (n : Nat) : Fld := ⟨0x200E1008 + 16 * n, 6, 1⟩
abbrev DIO_CH_STAT.WETTING (n : Nat) : Fld := ⟨0x200E1008 + 16 * n, 7, 1⟩
abbrev DIO_CH_STAT.TRIP (n : Nat) : Fld := ⟨0x200E1008 + 16 * n, 8, 1⟩
abbrev DIO_CH_CFG2.RB_SETTLE (n : Nat) : Fld := ⟨0x200E100C + 16 * n, 0, 8⟩
abbrev LOOP_CTRL.REF_TMO : Fld := ⟨0x200F0000, 0, 8⟩
abbrev LOOP_CFG.OUT_OFF : Fld := ⟨0x200F0004, 0, 16⟩
abbrev LOOP_CFG.IN_OFF : Fld := ⟨0x200F0004, 16, 16⟩
abbrev LOOP_RETRY.CH : Fld := ⟨0x200F0008, 0, 4⟩
abbrev LOOP_CH_CFG.MODE (n : Nat) : Fld := ⟨0x200F0100 + 32 * n, 0, 2⟩
abbrev LOOP_CH_CFG.HSEC (n : Nat) : Fld := ⟨0x200F0100 + 32 * n, 2, 1⟩
abbrev LOOP_CH_CFG.AUTO_RETRY (n : Nat) : Fld := ⟨0x200F0100 + 32 * n, 8, 8⟩
abbrev LOOP_CH_CFG.FAULT_I (n : Nat) : Fld := ⟨0x200F0100 + 32 * n, 16, 16⟩
abbrev LOOP_CH_LIM.KICK_I (n : Nat) : Fld := ⟨0x200F0104 + 32 * n, 0, 16⟩
abbrev LOOP_CH_LIM.TOL (n : Nat) : Fld := ⟨0x200F0104 + 32 * n, 16, 16⟩
abbrev LOOP_CH_FT.FT (n : Nat) : Fld := ⟨0x200F0108 + 32 * n, 0, 16⟩
abbrev LOOP_CH_FT.HPRE (n : Nat) : Fld := ⟨0x200F0108 + 32 * n, 16, 8⟩
abbrev LOOP_CH_FT.MD_I (n : Nat) : Fld := ⟨0x200F0108 + 32 * n, 24, 8⟩
abbrev LOOP_CH_STAT.COMPLIANCE (n : Nat) : Fld := ⟨0x200F010C + 32 * n, 0, 1⟩
abbrev LOOP_CH_STAT.FAULT (n : Nat) : Fld := ⟨0x200F010C + 32 * n, 1, 1⟩
abbrev LOOP_CH_STAT.OPEN (n : Nat) : Fld := ⟨0x200F010C + 32 * n, 2, 1⟩
abbrev LOOP_CH_STAT.KICK (n : Nat) : Fld := ⟨0x200F010C + 32 * n, 3, 1⟩
abbrev LOOP_CH_STAT.HELD (n : Nat) : Fld := ⟨0x200F010C + 32 * n, 4, 1⟩
abbrev LOOP_CH_STAT.HART_BUSY (n : Nat) : Fld := ⟨0x200F010C + 32 * n, 5, 1⟩
abbrev LOOP_CH_STAT.CD (n : Nat) : Fld := ⟨0x200F010C + 32 * n, 6, 1⟩
abbrev LOOP_CH_STAT.STOPPED (n : Nat) : Fld := ⟨0x200F010C + 32 * n, 7, 1⟩
abbrev LOOP_CH_STAT.HRX_LEVEL (n : Nat) : Fld := ⟨0x200F010C + 32 * n, 8, 10⟩
abbrev LOOP_CH_VAL.DRIVE (n : Nat) : Fld := ⟨0x200F0110 + 32 * n, 0, 16⟩
abbrev LOOP_CH_VAL.READ (n : Nat) : Fld := ⟨0x200F0110 + 32 * n, 16, 16⟩
abbrev LOOP_CH_HGO.LEN (n : Nat) : Fld := ⟨0x200F0114 + 32 * n, 0, 9⟩
abbrev LOOP_CH_HGO.GO (n : Nat) : Fld := ⟨0x200F0114 + 32 * n, 9, 1⟩
abbrev LOOP_CH_HRX.BYTE (n : Nat) : Fld := ⟨0x200F0118 + 32 * n, 0, 8⟩
abbrev LOOP_CH_HRX.FIRST (n : Nat) : Fld := ⟨0x200F0118 + 32 * n, 8, 1⟩
abbrev LOOP_CH_HRX.LAST (n : Nat) : Fld := ⟨0x200F0118 + 32 * n, 9, 1⟩
abbrev LOOP_CH_HRX.ERR (n : Nat) : Fld := ⟨0x200F0118 + 32 * n, 10, 1⟩
abbrev LOOP_CH_HRX.BURST (n : Nat) : Fld := ⟨0x200F0118 + 32 * n, 11, 1⟩

/-! ### spec/12_twin_pair.md -/

abbrev TWIN_CTRL.TAKE_UNREADY : Fld := ⟨0x20120000, 0, 1⟩
abbrev TWIN_CTRL.PAN_AGE : Fld := ⟨0x20120000, 8, 8⟩
abbrev TWIN_CFG.EN : Fld := ⟨0x20120004, 0, 1⟩
abbrev TWIN_CFG.IMG_OFF : Fld := ⟨0x20120004, 16, 16⟩
abbrev TWIN_PAN.OFF : Fld := ⟨0x20120008, 0, 16⟩
abbrev TWIN_PAN.LEN : Fld := ⟨0x20120008, 16, 16⟩
abbrev TWIN_CMD.OP : Fld := ⟨0x2012000C, 0, 2⟩
abbrev TWIN_STAT.ROLE : Fld := ⟨0x20120010, 0, 2⟩
abbrev TWIN_STAT.LINK : Fld := ⟨0x20120010, 2, 1⟩
abbrev TWIN_STAT.PAIRED : Fld := ⟨0x20120010, 3, 1⟩
abbrev TWIN_STAT.PMODE : Fld := ⟨0x20120010, 4, 3⟩
abbrev TWIN_STAT.SYNC : Fld := ⟨0x20120010, 7, 2⟩
abbrev TWIN_STAT.READY : Fld := ⟨0x20120010, 9, 1⟩
abbrev TWIN_STAT.PAN_MATCH : Fld := ⟨0x20120010, 10, 1⟩
abbrev TWIN_STAT.ALONE : Fld := ⟨0x20120010, 11, 1⟩
abbrev TWIN_STAT.FAULT : Fld := ⟨0x20120010, 12, 2⟩
abbrev TWIN_STAT.YIELD : Fld := ⟨0x20120010, 14, 1⟩
abbrev TWIN_STAT.MISMATCH : Fld := ⟨0x20120010, 15, 1⟩
abbrev TWIN_CLAIM.CLAIM : Fld := ⟨0x20120014, 0, 32⟩
abbrev TWIN_HIGH.CLAIM : Fld := ⟨0x20120018, 0, 32⟩
abbrev TWIN_PCLAIM.CLAIM : Fld := ⟨0x2012001C, 0, 32⟩
abbrev TWIN_EPOCH.EPOCH : Fld := ⟨0x20120020, 0, 12⟩
abbrev TWIN_VER.LINK_MIN : Fld := ⟨0x20120024, 0, 4⟩
abbrev TWIN_VER.LINK_MAX : Fld := ⟨0x20120024, 4, 4⟩
abbrev TWIN_VER.LINK_NEG : Fld := ⟨0x20120024, 8, 4⟩
abbrev TWIN_VER.PAN_MIN : Fld := ⟨0x20120024, 12, 4⟩
abbrev TWIN_VER.PAN_MAX : Fld := ⟨0x20120024, 16, 4⟩
abbrev TWIN_VER.PAN_NEG : Fld := ⟨0x20120024, 20, 4⟩
abbrev TWIN_VER.ORCH_PEER : Fld := ⟨0x20120024, 24, 4⟩
abbrev TWIN_VER.ORCH_NEG : Fld := ⟨0x20120024, 28, 4⟩
abbrev TWIN_SERIAL.SERIAL : Fld := ⟨0x20120028, 0, 64⟩
abbrev TWIN_PANP.RX_SEQ : Fld := ⟨0x20120030, 0, 32⟩
abbrev TWIN_PANP.RX_BUF : Fld := ⟨0x20120034, 0, 1⟩
abbrev TWIN_PANP.RX_LEN : Fld := ⟨0x20120038, 0, 32⟩
abbrev TWIN_PANP.TX_SEQ : Fld := ⟨0x2012003C, 0, 32⟩
abbrev TWIN_PANP.APPLIED : Fld := ⟨0x20120040, 0, 32⟩

/-! ### spec/13_rack_bus_bridge.md -/

abbrev BRG_CTRL.EN : Fld := ⟨0x20100000, 0, 1⟩
abbrev BRG_CTRL.RETRY_MAX : Fld := ⟨0x20100000, 1, 7⟩
abbrev BRG_CTRL.PF_AGE : Fld := ⟨0x20100000, 8, 8⟩
abbrev BRG_CTRL.RSP_TMO : Fld := ⟨0x20100000, 16, 16⟩
abbrev BRG_STAT.RESET : Fld := ⟨0x20100004, 0, 1⟩
abbrev BRG_STAT.LOCKED : Fld := ⟨0x20100004, 1, 1⟩
abbrev BRG_STAT.OTAGS : Fld := ⟨0x20100004, 2, 8⟩
abbrev BRG_STAT.IOPEN : Fld := ⟨0x20100004, 10, 5⟩
abbrev BRG_STAT.PWLOG_LEVEL : Fld := ⟨0x20100004, 15, 5⟩
abbrev BRG_STAT.PWBUF : Fld := ⟨0x20100004, 20, 5⟩
abbrev BRG_PF_FLUSH.FLUSH : Fld := ⟨0x20100008, 0, 1⟩
abbrev BRG_PWLOG.ADDR : Fld := ⟨0x20100010, 0, 32⟩
abbrev BRG_PWLOG.WIN : Fld := ⟨0x20100014, 0, 4⟩
abbrev BRG_PWLOG.CAUSE : Fld := ⟨0x20100014, 4, 3⟩
abbrev BRG_OW.LBASE (n : Nat) : Fld := ⟨0x20100100 + 16 * n, 0, 32⟩
abbrev BRG_OW.EN (n : Nat) : Fld := ⟨0x20100104 + 16 * n, 0, 1⟩
abbrev BRG_OW.BIG (n : Nat) : Fld := ⟨0x20100104 + 16 * n, 1, 1⟩
abbrev BRG_OW.PREFETCH (n : Nat) : Fld := ⟨0x20100104 + 16 * n, 2, 1⟩
abbrev BRG_OW.POSTED (n : Nat) : Fld := ⟨0x20100104 + 16 * n, 3, 1⟩
abbrev BRG_OW.SIZE (n : Nat) : Fld := ⟨0x20100104 + 16 * n, 4, 5⟩
abbrev BRG_OW.RBASE (n : Nat) : Fld := ⟨0x20100108 + 16 * n, 0, 32⟩
abbrev BRG_IW.RBASE (n : Nat) : Fld := ⟨0x20100200 + 16 * n, 0, 32⟩
abbrev BRG_IW.EN (n : Nat) : Fld := ⟨0x20100204 + 16 * n, 0, 1⟩
abbrev BRG_IW.WR_EN (n : Nat) : Fld := ⟨0x20100204 + 16 * n, 1, 1⟩
abbrev BRG_IW.SIZE (n : Nat) : Fld := ⟨0x20100204 + 16 * n, 4, 5⟩
abbrev BRG_IW.LBASE (n : Nat) : Fld := ⟨0x20100208 + 16 * n, 0, 32⟩

/-! ### spec/14_clocks_power_reset.md -/

abbrev SYS_STAT.MODE : Fld := ⟨0x20000000, 0, 3⟩
abbrev SYS_STAT.LREASON : Fld := ⟨0x20000000, 4, 4⟩
abbrev SYS_STAT.FORCED : Fld := ⟨0x20000000, 8, 1⟩
abbrev SYS_RSTCAUSE.KIND : Fld := ⟨0x20000004, 0, 4⟩
abbrev SYS_RSTCAUSE.SUB : Fld := ⟨0x20000004, 4, 4⟩
abbrev SYS_RST.KIND : Fld := ⟨0x20000008, 0, 2⟩
abbrev SYS_RST.TARGET : Fld := ⟨0x20000008, 2, 3⟩
abbrev SYS_WDG_CFG.TMO : Fld := ⟨0x20000010, 0, 8⟩
abbrev SYS_WDG_CFG.WIN : Fld := ⟨0x20000010, 8, 8⟩
abbrev SYS_WDG_KICK.KEY : Fld := ⟨0x20000014, 0, 16⟩
abbrev SYS_WDG_STAT.CFG_OPEN : Fld := ⟨0x20000018, 0, 1⟩
abbrev SYS_WDG_STAT.REMAIN : Fld := ⟨0x20000018, 1, 8⟩
abbrev SYS_RTC.RTC : Fld := ⟨0x20000020, 0, 64⟩
abbrev SYS_LOSS.LOSS : Fld := ⟨0x20000028, 0, 64⟩
abbrev SYS_TAMPER_TIME.TIME : Fld := ⟨0x20000038, 0, 64⟩
abbrev SYS_TAMPER.OPEN : Fld := ⟨0x20000030, 0, 1⟩
abbrev SYS_BKUP.DATA (n : Nat) : Fld := ⟨0x20000040 + 4 * n, 0, 32⟩
abbrev CLK_CFG.FULL : Fld := ⟨0x20010000, 0, 1⟩
abbrev CLK_CFG.PROOF_H : Fld := ⟨0x20010000, 8, 8⟩
abbrev CLK_TGEAR.GEAR : Fld := ⟨0x20010004, 0, 2⟩
abbrev CLK_SGEAR.GEAR : Fld := ⟨0x20010008, 0, 2⟩
abbrev CLK_STAT.REF : Fld := ⟨0x2001000C, 0, 2⟩
abbrev CLK_STAT.BYPASS : Fld := ⟨0x2001000C, 2, 1⟩
abbrev CLK_STAT.PLL_LOCK : Fld := ⟨0x2001000C, 3, 1⟩
abbrev CLK_STAT.OK : Fld := ⟨0x2001000C, 4, 3⟩
abbrev CLK_STAT.FAIL : Fld := ⟨0x2001000C, 7, 3⟩
abbrev CLK_STAT.PROOF : Fld := ⟨0x2001000C, 10, 1⟩
abbrev CLK_STAT.DOUBT : Fld := ⟨0x2001000C, 11, 1⟩
abbrev CLK_STAT.SUPXO : Fld := ⟨0x2001000C, 12, 1⟩
abbrev CLK_STAT.UNCLEAN : Fld := ⟨0x2001000C, 13, 7⟩
abbrev CLK_GEAR_STAT.T_ACT : Fld := ⟨0x20010010, 0, 2⟩
abbrev CLK_GEAR_STAT.S_ACT : Fld := ⟨0x20010010, 2, 2⟩
abbrev CLK_GEAR_STAT.T_CAP : Fld := ⟨0x20010010, 4, 2⟩
abbrev CLK_GEAR_STAT.S_CAP : Fld := ⟨0x20010010, 6, 2⟩
abbrev CLK_GEAR_STAT.T_BUSY : Fld := ⟨0x20010010, 8, 1⟩
abbrev CLK_GEAR_STAT.S_BUSY : Fld := ⟨0x20010010, 9, 1⟩
abbrev CLK_MON_AB.DEV : Fld := ⟨0x20010014, 0, 16⟩
abbrev CLK_MON_AR.DEV : Fld := ⟨0x20010018, 0, 16⟩
abbrev CLK_MON_BR.DEV : Fld := ⟨0x2001001C, 0, 16⟩
abbrev PWR_CFG.UN : Fld := ⟨0x20020000, 0, 3⟩
abbrev PWR_CFG.TH1 : Fld := ⟨0x20020000, 8, 8⟩
abbrev PWR_CFG.TH2 : Fld := ⟨0x20020000, 16, 8⟩
abbrev PWR_STAT.STAGE : Fld := ⟨0x20020004, 0, 3⟩
abbrev PWR_STAT.HOLDUP : Fld := ⟨0x20020004, 3, 1⟩
abbrev PWR_STAT.RAIL_OK : Fld := ⟨0x20020004, 4, 1⟩
abbrev PWR_STAT.SUP_V : Fld := ⟨0x20020004, 16, 16⟩
abbrev PWR_HOLD.HOLD_V : Fld := ⟨0x20020008, 0, 16⟩

/-! ### spec/15_modes_boot_update.md -/

abbrev UPD_CFG.CONF_WIN : Fld := ⟨0x20140000, 0, 12⟩
abbrev UPD_CFG.TRIES : Fld := ⟨0x20140000, 12, 3⟩
abbrev UPD_CFG.REQ : Fld := ⟨0x20140000, 16, 2⟩
abbrev UPD_CFG2.CLEAN_CYC : Fld := ⟨0x20140004, 0, 20⟩
abbrev UPD_CFG2.ENV_SAVE : Fld := ⟨0x20140004, 20, 8⟩
abbrev UPD_CFG2.DEFER_S : Fld := ⟨0x20140004, 28, 4⟩
abbrev UPD_LOCKRST.CH : Fld := ⟨0x20140008, 0, 6⟩
abbrev UPD_LOCKRST.CH_EN : Fld := ⟨0x20140008, 6, 1⟩
abbrev UPD_LOCKRST.EDGE : Fld := ⟨0x20140008, 16, 16⟩
abbrev UPD_STAT.RUN_SLOT : Fld := ⟨0x2014000C, 0, 1⟩
abbrev UPD_STAT.TRIAL : Fld := ⟨0x2014000C, 1, 1⟩
abbrev UPD_STAT.CONF : Fld := ⟨0x2014000C, 2, 2⟩
abbrev UPD_STAT.ACT : Fld := ⟨0x2014000C, 4, 2⟩
abbrev UPD_STAT.DEFER : Fld := ⟨0x2014000C, 6, 1⟩
abbrev UPD_STAT.SESSION : Fld := ⟨0x2014000C, 7, 1⟩
abbrev UPD_STAT.ROLES : Fld := ⟨0x2014000C, 8, 5⟩
abbrev UPD_STAT.REQ_BUSY : Fld := ⟨0x2014000C, 13, 1⟩
abbrev UPD_STAT.NEXT_SERVICE : Fld := ⟨0x2014000C, 14, 1⟩
abbrev UPD_STAT.REQ_RES : Fld := ⟨0x2014000C, 16, 8⟩
abbrev UPD_STAT.REFUSE : Fld := ⟨0x2014000C, 24, 4⟩
abbrev UPD_SLOT.STATE (n : Nat) : Fld := ⟨0x20140010 + 4 * n, 0, 3⟩
abbrev UPD_SLOT.TRIES (n : Nat) : Fld := ⟨0x20140010 + 4 * n, 3, 3⟩
abbrev UPD_SLOT.SVN (n : Nat) : Fld := ⟨0x20140010 + 4 * n, 6, 6⟩
abbrev UPD_CONF_LEFT.LEFT : Fld := ⟨0x20140018, 0, 12⟩
abbrev UPD_CLEAN.CLEAN : Fld := ⟨0x2014001C, 0, 20⟩
abbrev UPD_BOOTMS.MS : Fld := ⟨0x20140048, 0, 16⟩
abbrev UPD_CONFIRM.VITAL : Fld := ⟨0x20140020, 0, 1⟩
abbrev UPD_CONFIRM.SERVICE : Fld := ⟨0x20140020, 1, 1⟩
abbrev UPD_REQ.ADDR : Fld := ⟨0x20140024, 0, 32⟩
abbrev UPD_VER.ORCH_MIN : Fld := ⟨0x20140028, 0, 4⟩
abbrev UPD_VER.ORCH_MAX : Fld := ⟨0x20140028, 4, 4⟩
abbrev UPD_VER.ORCH_RUN : Fld := ⟨0x20140028, 8, 4⟩
abbrev UPD_OTP.RSA_PROG : Fld := ⟨0x2014002C, 0, 4⟩
abbrev UPD_OTP.RSA_REV : Fld := ⟨0x2014002C, 4, 4⟩
abbrev UPD_OTP.SLH_PROG : Fld := ⟨0x2014002C, 8, 4⟩
abbrev UPD_OTP.SLH_REV : Fld := ⟨0x2014002C, 12, 4⟩
abbrev UPD_OTP.SVN : Fld := ⟨0x2014002C, 16, 6⟩
abbrev UPD_RUN_ID.ID : Fld := ⟨0x20140030, 0, 64⟩
abbrev UPD_ACT_ID.ID : Fld := ⟨0x20140038, 0, 64⟩
abbrev UPD_ACT_AT.AT : Fld := ⟨0x20140040, 0, 64⟩

/-! ### spec/16_event_recorder.md -/

abbrev REC_CTRL.SNAP_EN : Fld := ⟨0x20130000, 0, 1⟩
abbrev REC_STAT.READY : Fld := ⟨0x20130004, 0, 1⟩
abbrev REC_STAT.CLEARING : Fld := ⟨0x20130004, 1, 1⟩
abbrev REC_STAT.CPART : Fld := ⟨0x20130004, 2, 2⟩
abbrev REC_STAT.CAPTURE : Fld := ⟨0x20130004, 4, 1⟩
abbrev REC_STAT.QLEVEL : Fld := ⟨0x20130004, 5, 8⟩
abbrev REC_STAT.FLUSH : Fld := ⟨0x20130004, 13, 1⟩
abbrev REC_NEXT_SEQ.SEQ : Fld := ⟨0x20130008, 0, 32⟩
abbrev REC_PART.OLDEST (n : Nat) : Fld := ⟨0x20130010 + 16 * n, 0, 21⟩
abbrev REC_PART.NEXT (n : Nat) : Fld := ⟨0x20130014 + 16 * n, 0, 21⟩
abbrev REC_PART.COUNT (n : Nat) : Fld := ⟨0x20130018 + 16 * n, 0, 21⟩
abbrev REC_PART.CAP (n : Nat) : Fld := ⟨0x2013001C + 16 * n, 0, 21⟩
abbrev REC_RD_CMD.PART : Fld := ⟨0x20130100, 0, 3⟩
abbrev REC_RD_CMD.SLOT : Fld := ⟨0x20130100, 3, 21⟩
abbrev REC_RD_BUF.DATA (n : Nat) : Fld := ⟨0x20130140 + 4 * n, 0, 32⟩
abbrev REC_SUBMIT.ADDR : Fld := ⟨0x20130180, 0, 32⟩
abbrev REC_PRG_GO.TYPE : Fld := ⟨0x20130184, 0, 4⟩
abbrev REC_PRG_GO.CODE : Fld := ⟨0x20130184, 8, 8⟩
abbrev REC_SNAP.TRG : Fld := ⟨0x20130188, 0, 5⟩
abbrev REC_CLEAR.PART : Fld := ⟨0x2013018C, 0, 2⟩
abbrev REC_CLEAR_TOK.TOKEN_ID : Fld := ⟨0x20130190, 0, 64⟩
abbrev REC_PRG_D.DATA (n : Nat) : Fld := ⟨0x201301A0 + 4 * n, 0, 32⟩
abbrev REC_TRG.EN (n : Nat) : Fld := ⟨0x20131000 + 8 * n, 0, 1⟩
abbrev REC_TRG.KIND (n : Nat) : Fld := ⟨0x20131000 + 8 * n, 1, 2⟩
abbrev REC_TRG.FALL (n : Nat) : Fld := ⟨0x20131000 + 8 * n, 3, 1⟩
abbrev REC_TRG.INDEX (n : Nat) : Fld := ⟨0x20131000 + 8 * n, 4, 9⟩
abbrev REC_TRG.CODE (n : Nat) : Fld := ⟨0x20131000 + 8 * n, 13, 8⟩
abbrev REC_TRG.ANYCODE (n : Nat) : Fld := ⟨0x20131000 + 8 * n, 21, 1⟩
abbrev REC_TRG.BASE (n : Nat) : Fld := ⟨0x20131004 + 8 * n, 0, 11⟩
abbrev REC_TRG.COUNT (n : Nat) : Fld := ⟨0x20131004 + 8 * n, 11, 7⟩
abbrev REC_TRG.HOLDOFF (n : Nat) : Fld := ⟨0x20131004 + 8 * n, 18, 14⟩
abbrev REC_LIST.ADDR (n : Nat) : Fld := ⟨0x20132000 + 4 * n, 2, 30⟩

/-! ### spec/18_observation.md -/

abbrev OBS_TRC_CTRL.EN : Fld := ⟨0x20150000, 0, 1⟩
abbrev OBS_TRC_CTRL.SRC : Fld := ⟨0x20150000, 1, 6⟩
abbrev OBS_TRC_CTRL.HARTS : Fld := ⟨0x20150000, 7, 4⟩
abbrev OBS_TRC_STAT.RUN : Fld := ⟨0x20150004, 0, 1⟩
abbrev OBS_TRC_STAT.SHED : Fld := ⟨0x20150004, 1, 1⟩
abbrev OBS_TRC_STAT.LEVEL : Fld := ⟨0x20150004, 2, 12⟩
abbrev OBS_HIST_CFG.BIN0 : Fld := ⟨0x20150008, 0, 16⟩
abbrev OBS_HIST_CFG.BIN2 : Fld := ⟨0x20150008, 16, 16⟩
abbrev OBS_EXEC_MAX.NS : Fld := ⟨0x2015000C, 0, 32⟩
abbrev OBS_TRC_PKT_CNT : Fld := ⟨0x20150080, 0, 32⟩
abbrev OBS_TRC_DROP_CNT : Fld := ⟨0x20150084, 0, 32⟩
abbrev OBS_HIST_GEN_CNT : Fld := ⟨0x20150088, 0, 32⟩
abbrev OBS_H0_CNT (n : Nat) : Fld := ⟨0x20151000 + 4 * n, 0, 32⟩
abbrev OBS_H1_CNT (n : Nat) : Fld := ⟨0x20151100 + 4 * n, 0, 32⟩
abbrev OBS_H2_CNT (n : Nat) : Fld := ⟨0x20151200 + 4 * n, 0, 32⟩

/-! ### spec/10_ecn_time_gateway.md -/

abbrev ECN_P1_RX_CNT : Fld := ⟨0x20070080, 0, 32⟩
abbrev ECN_P1_TX_CNT : Fld := ⟨0x20070084, 0, 32⟩
abbrev ECN_P1_FCS_CNT : Fld := ⟨0x20070088, 0, 32⟩
abbrev ECN_P2_RX_CNT : Fld := ⟨0x2007008C, 0, 32⟩
abbrev ECN_P2_TX_CNT : Fld := ⟨0x20070090, 0, 32⟩
abbrev ECN_P2_FCS_CNT : Fld := ⟨0x20070094, 0, 32⟩
abbrev ECN_DROP_CNT : Fld := ⟨0x20070098, 0, 32⟩
abbrev ECN_LATE_CNT : Fld := ⟨0x2007009C, 0, 32⟩
abbrev ECN_PD_RX_CNT : Fld := ⟨0x200700A0, 0, 32⟩
abbrev ECN_PD_TX_CNT : Fld := ⟨0x200700A4, 0, 32⟩
abbrev ECN_PD_TMO_CNT : Fld := ⟨0x200700A8, 0, 32⟩
abbrev ECN_PD_REJ_CNT : Fld := ⟨0x200700AC, 0, 32⟩
abbrev ECN_PD_SKIP_CNT : Fld := ⟨0x200700B0, 0, 32⟩
abbrev TIME_LANE_FW_CNT : Fld := ⟨0x20080080, 0, 32⟩
abbrev TIME_CONS_FW_CNT : Fld := ⟨0x20080084, 0, 32⟩
abbrev TIME_CONS_STEP_CNT : Fld := ⟨0x20080088, 0, 32⟩
abbrev TIME_GM_CHG_CNT : Fld := ⟨0x2008008C, 0, 32⟩
abbrev TIME_CAP_OVF_CNT : Fld := ⟨0x20080090, 0, 32⟩
abbrev GW_SWAP_CNT : Fld := ⟨0x20110080, 0, 32⟩
abbrev GW_MAP_ERR_CNT : Fld := ⟨0x20110084, 0, 32⟩
abbrev GW_STALE_CNT : Fld := ⟨0x20110088, 0, 32⟩
abbrev GW_SAT_CNT : Fld := ⟨0x2011008C, 0, 32⟩
abbrev GW_MVB_RX_CNT : Fld := ⟨0x20110480, 0, 32⟩
abbrev GW_MVB_TX_CNT : Fld := ⟨0x20110484, 0, 32⟩
abbrev GW_MVB_ERRA_CNT : Fld := ⟨0x20110488, 0, 32⟩
abbrev GW_MVB_ERRB_CNT : Fld := ⟨0x2011048C, 0, 32⟩
abbrev GW_MVB_SWITCH_CNT : Fld := ⟨0x20110490, 0, 32⟩
abbrev GW_MVB_FRESH_CNT : Fld := ⟨0x20110494, 0, 32⟩

/-! ### spec/11_field_io.md -/

abbrev DIO_SIL_CNT : Fld := ⟨0x200E0080, 0, 32⟩
abbrev DIO_WET_SKIP_CNT : Fld := ⟨0x200E0084, 0, 32⟩
abbrev DIO_SHORT_CNT : Fld := ⟨0x200E0088, 0, 32⟩
abbrev DIO_FAULT_CNT : Fld := ⟨0x200E008C, 0, 32⟩
abbrev DIO_GRP_FLT_CNT : Fld := ⟨0x200E0090, 0, 32⟩
abbrev DIO_CH_EDGE_CNT (n : Nat) : Fld := ⟨0x200E2000 + 16 * n, 0, 32⟩
abbrev DIO_CH_PASS_CNT (n : Nat) : Fld := ⟨0x200E2004 + 16 * n, 0, 32⟩
abbrev DIO_CH_FAIL_CNT (n : Nat) : Fld := ⟨0x200E2008 + 16 * n, 0, 32⟩
abbrev DIO_CH_SKIP_CNT (n : Nat) : Fld := ⟨0x200E200C + 16 * n, 0, 32⟩
abbrev LOOP_FAULT_CNT : Fld := ⟨0x200F0080, 0, 32⟩
abbrev LOOP_COMPL_CNT : Fld := ⟨0x200F0084, 0, 32⟩
abbrev LOOP_HTX_CNT : Fld := ⟨0x200F0088, 0, 32⟩
abbrev LOOP_HERR_CNT : Fld := ⟨0x200F008C, 0, 32⟩
abbrev LOOP_HTMO_CNT : Fld := ⟨0x200F0090, 0, 32⟩
abbrev LOOP_HREJ_CNT : Fld := ⟨0x200F0094, 0, 32⟩

/-! ### spec/12_twin_pair.md -/

abbrev TWIN_HB_MISS_CNT : Fld := ⟨0x20120080, 0, 32⟩
abbrev TWIN_LINK_CNT : Fld := ⟨0x20120084, 0, 32⟩
abbrev TWIN_TAKE_CNT : Fld := ⟨0x20120088, 0, 32⟩
abbrev TWIN_DEMOTE_CNT : Fld := ⟨0x2012008C, 0, 32⟩
abbrev TWIN_CLAIM_REJ_CNT : Fld := ⟨0x20120090, 0, 32⟩
abbrev TWIN_PAN_TX_CNT : Fld := ⟨0x20120094, 0, 32⟩
abbrev TWIN_PAN_SKIP_CNT : Fld := ⟨0x20120098, 0, 32⟩
abbrev TWIN_PAN_RX_CNT : Fld := ⟨0x2012009C, 0, 32⟩
abbrev TWIN_PAN_ERR_CNT : Fld := ⟨0x201200A0, 0, 32⟩
abbrev TWIN_PAN_MIS_CNT : Fld := ⟨0x201200A4, 0, 32⟩
abbrev TWIN_APPLY_CNT : Fld := ⟨0x201200A8, 0, 32⟩
abbrev TWIN_DEFER_CNT : Fld := ⟨0x201200AC, 0, 32⟩
abbrev TWIN_RESYNC_CNT : Fld := ⟨0x201200B0, 0, 32⟩
abbrev TWIN_CMD_REJ_CNT : Fld := ⟨0x201200B4, 0, 32⟩

/-! ### spec/13_rack_bus_bridge.md -/

abbrev BRG_OUT_CNT : Fld := ⟨0x20100080, 0, 32⟩
abbrev BRG_IN_CNT : Fld := ⟨0x20100084, 0, 32⟩
abbrev BRG_RETRY_CNT : Fld := ⟨0x20100088, 0, 32⟩
abbrev BRG_IRETRY_CNT : Fld := ⟨0x2010008C, 0, 32⟩
abbrev BRG_ERR_CNT : Fld := ⟨0x20100090, 0, 32⟩
abbrev BRG_PWERR_CNT : Fld := ⟨0x20100094, 0, 32⟩
abbrev BRG_PWLOG_OVF_CNT : Fld := ⟨0x20100098, 0, 32⟩
abbrev BRG_TMO_CNT : Fld := ⟨0x2010009C, 0, 32⟩
abbrev BRG_LATE_CNT : Fld := ⟨0x201000A0, 0, 32⟩
abbrev BRG_LOCK_CNT : Fld := ⟨0x201000A4, 0, 32⟩
abbrev BRG_LOCK_TMO_CNT : Fld := ⟨0x201000A8, 0, 32⟩
abbrev BRG_DISCARD_CNT : Fld := ⟨0x201000AC, 0, 32⟩
abbrev BRG_NOWIN_CNT : Fld := ⟨0x201000B0, 0, 32⟩
abbrev BRG_PAR_CNT : Fld := ⟨0x201000B4, 0, 32⟩

/-! ### spec/14_clocks_power_reset.md -/

abbrev SYS_TAMPER_CNT : Fld := ⟨0x20000080, 0, 32⟩
abbrev SYS_WDG_REJ_CNT : Fld := ⟨0x20000084, 0, 32⟩
abbrev SYS_RST_REJ_CNT : Fld := ⟨0x20000088, 0, 32⟩
abbrev SYS_DOMRST_CNT : Fld := ⟨0x2000008C, 0, 32⟩
abbrev CLK_UNCLEAN_CNT : Fld := ⟨0x20010080, 0, 32⟩
abbrev CLK_REFSW_CNT : Fld := ⟨0x20010084, 0, 32⟩
abbrev CLK_PROOF_CNT : Fld := ⟨0x20010088, 0, 32⟩
abbrev CLK_SRCFAIL_CNT : Fld := ⟨0x2001008C, 0, 32⟩
abbrev CLK_GEAR_CNT : Fld := ⟨0x20010090, 0, 32⟩
abbrev CLK_GEARFAIL_CNT : Fld := ⟨0x20010094, 0, 32⟩
abbrev PWR_ST1_CNT : Fld := ⟨0x20020080, 0, 32⟩
abbrev PWR_ST2_CNT : Fld := ⟨0x20020084, 0, 32⟩
abbrev PWR_ST3_CNT : Fld := ⟨0x20020088, 0, 32⟩
abbrev PWR_INTR_CNT : Fld := ⟨0x20020090, 0, 32⟩
abbrev PWR_ST4_CNT : Fld := ⟨0x2002008C, 0, 32⟩
abbrev PWR_RAIL_CNT : Fld := ⟨0x20020094, 0, 32⟩

/-! ### spec/15_modes_boot_update.md -/

abbrev UPD_BOOT_CNT : Fld := ⟨0x20140080, 0, 32⟩
abbrev UPD_FALLBACK_CNT : Fld := ⟨0x20140084, 0, 32⟩
abbrev UPD_CONFIRM_CNT : Fld := ⟨0x20140088, 0, 32⟩
abbrev UPD_CONF_REJ_CNT : Fld := ⟨0x2014008C, 0, 32⟩
abbrev UPD_REFUSE_CNT : Fld := ⟨0x20140090, 0, 32⟩
abbrev UPD_TOKEN_CNT : Fld := ⟨0x20140094, 0, 32⟩
abbrev UPD_TOKEN_REJ_CNT : Fld := ⟨0x20140098, 0, 32⟩
abbrev UPD_CMD_CNT : Fld := ⟨0x2014009C, 0, 32⟩
abbrev UPD_CMD_REJ_CNT : Fld := ⟨0x201400A0, 0, 32⟩
abbrev UPD_ENVSAVE_CNT : Fld := ⟨0x201400A4, 0, 32⟩
abbrev UPD_ACT_CANCEL_CNT : Fld := ⟨0x201400A8, 0, 32⟩

/-! ### spec/16_event_recorder.md -/

abbrev REC_WR_CNT : Fld := ⟨0x20130080, 0, 32⟩
abbrev REC_DROP_CNT : Fld := ⟨0x20130084, 0, 32⟩
abbrev REC_OVW_CNT : Fld := ⟨0x20130088, 0, 32⟩
abbrev REC_SUB_DONE_CNT : Fld := ⟨0x2013008C, 0, 32⟩
abbrev REC_REJ_CNT : Fld := ⟨0x20130090, 0, 32⟩
abbrev REC_RD_CNT : Fld := ⟨0x20130094, 0, 32⟩
abbrev REC_SNAP_CNT : Fld := ⟨0x20130098, 0, 32⟩
abbrev REC_SNAP_SKIP_CNT : Fld := ⟨0x2013009C, 0, 32⟩
abbrev REC_DISC_CNT : Fld := ⟨0x201300A0, 0, 32⟩
abbrev REC_CLEAR_CNT : Fld := ⟨0x201300A4, 0, 32⟩
abbrev REC_LIFE_ERR_CNT : Fld := ⟨0x201300A8, 0, 32⟩
abbrev REC_FLUSHLOST_CNT : Fld := ⟨0x201300AC, 0, 32⟩

/-! ### spec/10_ecn_time_gateway.md -/

abbrev ECN_PD.EN (n : Nat) : Fld := ⟨0x20071000 + 32 * n, 0, 1⟩
abbrev ECN_PD.DIR (n : Nat) : Fld := ⟨0x20071000 + 32 * n, 1, 1⟩
abbrev ECN_PD.PULL (n : Nat) : Fld := ⟨0x20071000 + 32 * n, 2, 1⟩
abbrev ECN_PD.PCP (n : Nat) : Fld := ⟨0x20071000 + 32 * n, 3, 3⟩
abbrev ECN_PD.PUB_SYNC (n : Nat) : Fld := ⟨0x20071000 + 32 * n, 6, 1⟩
abbrev ECN_PD.TBASE (n : Nat) : Fld := ⟨0x20071000 + 32 * n, 7, 1⟩
abbrev ECN_PD.PAIR (n : Nat) : Fld := ⟨0x20071000 + 32 * n, 8, 1⟩
abbrev ECN_PD.LEN (n : Nat) : Fld := ⟨0x20071000 + 32 * n, 16, 11⟩
abbrev ECN_PD.COMID (n : Nat) : Fld := ⟨0x20071004 + 32 * n, 0, 32⟩
abbrev ECN_PD.DEST_IP (n : Nat) : Fld := ⟨0x20071008 + 32 * n, 0, 32⟩
abbrev ECN_PD.SRC_IP (n : Nat) : Fld := ⟨0x2007100C + 32 * n, 0, 32⟩
abbrev ECN_PD.CYCLE (n : Nat) : Fld := ⟨0x20071010 + 32 * n, 0, 24⟩
abbrev ECN_PD.VID (n : Nat) : Fld := ⟨0x20071014 + 32 * n, 0, 12⟩
abbrev ECN_PD.LAUNCH_OFS (n : Nat) : Fld := ⟨0x20071014 + 32 * n, 16, 16⟩
abbrev ECN_PD.DMAC_HI (n : Nat) : Fld := ⟨0x20071018 + 32 * n, 0, 32⟩
abbrev ECN_PD.DMAC_LO (n : Nat) : Fld := ⟨0x2007101C + 32 * n, 0, 16⟩

/-! ### spec/11_field_io.md -/

abbrev LOOP_HTX0.WORD (n : Nat) : Fld := ⟨0x200F1000 + 4 * n, 0, 32⟩
abbrev LOOP_HTX1.WORD (n : Nat) : Fld := ⟨0x200F1200 + 4 * n, 0, 32⟩
abbrev LOOP_HTX2.WORD (n : Nat) : Fld := ⟨0x200F1400 + 4 * n, 0, 32⟩
abbrev LOOP_HTX3.WORD (n : Nat) : Fld := ⟨0x200F1600 + 4 * n, 0, 32⟩

end Reg
end Sys2Proof.Machine
end

