-- ==== Sys2Proof/Machine/RegTable.lean ====
section
/-! DEFINITION. Machine/RegTable.lean: what the field tables of spec/02 to spec/18 say of every register: where it lies,
its access class (R39), whether the boot supervisor loads it (R39, R51), and each field's reset value and survival class
(R9, R46, R415). One row per register or register array, block by block (R24). -/
namespace Sys2Proof.Machine

/-- The access classes of spec/00_scope.md, "Registers in brief". -/
inductive Acc where
  | rw | rwi | rwg | ro | wo
  deriving DecidableEq, Repr

/-- The survival classes of R9. -/
inductive Keeps where
  | k0 | k1 | k2 | k3 | k4
  deriving DecidableEq, Repr

/-- One field of a register: lowest bit, width, reset value, survival class, and whether the table names it
(an unnamed row is reserved, R49). -/
structure FldRow where
  lo : Nat
  width : Nat
  reset : Nat
  keeps : Keeps
  named : Bool
  deriving DecidableEq, Repr

/-- One register, or `count` like registers `stride` bytes apart, of `words` 32-bit words each. -/
structure RegRow where
  addr : Nat
  count : Nat
  stride : Nat
  words : Nat
  acc : Acc
  loaded : Bool
  flds : List FldRow
  deriving DecidableEq, Repr

/-- Registers of the SYS block (part 1). -/
def sysRows0 : List RegRow := [
  ⟨0x20000000, 1, 4, 1, .ro, false, [⟨0, 3, 0, .k1, true⟩, ⟨3, 1, 0, .k1, false⟩, ⟨4, 4, 0, .k1, true⟩, ⟨8, 1, 0, .k1, true⟩, ⟨9, 23, 0, .k1, false⟩]⟩,
  ⟨0x20000004, 1, 4, 1, .ro, false, [⟨0, 4, 1, .k3, true⟩, ⟨4, 4, 0, .k3, true⟩, ⟨8, 24, 0, .k3, false⟩]⟩,
  ⟨0x20000008, 1, 4, 1, .wo, false, [⟨0, 2, 0, .k0, true⟩, ⟨2, 3, 0, .k0, true⟩, ⟨5, 27, 0, .k0, false⟩]⟩,
  ⟨0x20000010, 1, 4, 1, .rwi, false, [⟨0, 8, 255, .k1, true⟩, ⟨8, 8, 0, .k1, true⟩, ⟨16, 16, 0, .k1, false⟩]⟩,
  ⟨0x20000014, 1, 4, 1, .wo, false, [⟨0, 16, 0, .k0, true⟩, ⟨16, 16, 0, .k0, false⟩]⟩,
  ⟨0x20000018, 1, 4, 1, .ro, false, [⟨0, 1, 1, .k1, true⟩, ⟨1, 8, 255, .k1, true⟩, ⟨9, 23, 0, .k1, false⟩]⟩,
  ⟨0x20000020, 1, 8, 2, .rwi, false, [⟨0, 64, 0, .k3, true⟩]⟩,
  ⟨0x20000028, 1, 8, 2, .ro, false, [⟨0, 64, 0, .k3, true⟩]⟩,
  ⟨0x20000030, 1, 4, 1, .ro, false, [⟨0, 1, 0, .k3, true⟩, ⟨1, 31, 0, .k3, false⟩]⟩,
  ⟨0x20000038, 1, 8, 2, .ro, false, [⟨0, 64, 0, .k3, true⟩]⟩,
  ⟨0x20000040, 16, 4, 1, .rwi, false, [⟨0, 32, 0, .k3, true⟩]⟩,
  ⟨0x20000080, 1, 4, 1, .ro, false, [⟨0, 32, 0, .k3, true⟩]⟩,
  ⟨0x20000084, 1, 4, 1, .ro, false, [⟨0, 32, 0, .k2, true⟩]⟩,
  ⟨0x20000088, 1, 4, 1, .ro, false, [⟨0, 32, 0, .k2, true⟩]⟩,
  ⟨0x2000008C, 1, 4, 1, .ro, false, [⟨0, 32, 0, .k2, true⟩]⟩]

/-- Registers of the CLK block (part 1). -/
def clkRows0 : List RegRow := [
  ⟨0x20010000, 1, 4, 1, .ro, true, [⟨0, 1, 0, .k1, true⟩, ⟨1, 7, 0, .k1, false⟩, ⟨8, 8, 24, .k1, true⟩, ⟨16, 16, 0, .k1, false⟩]⟩,
  ⟨0x20010004, 1, 4, 1, .rwg, false, [⟨0, 2, 2, .k1, true⟩, ⟨2, 30, 0, .k1, false⟩]⟩,
  ⟨0x20010008, 1, 4, 1, .rwg, false, [⟨0, 2, 2, .k1, true⟩, ⟨2, 30, 0, .k1, false⟩]⟩,
  ⟨0x2001000C, 1, 4, 1, .ro, false, [⟨0, 2, 2, .k1, true⟩, ⟨2, 1, 1, .k1, true⟩, ⟨3, 1, 0, .k1, true⟩, ⟨4, 3, 0, .k1, true⟩, ⟨7, 3, 0, .k1, true⟩, ⟨10, 1, 0, .k1, true⟩, ⟨11, 1, 0, .k1, true⟩, ⟨12, 1, 0, .k1, true⟩, ⟨13, 7, 0, .k1, true⟩, ⟨20, 12, 0, .k1, false⟩]⟩,
  ⟨0x20010010, 1, 4, 1, .ro, false, [⟨0, 2, 2, .k1, true⟩, ⟨2, 2, 2, .k1, true⟩, ⟨4, 2, 2, .k0, true⟩, ⟨6, 2, 2, .k0, true⟩, ⟨8, 1, 0, .k0, true⟩, ⟨9, 1, 0, .k0, true⟩, ⟨10, 22, 0, .k0, false⟩]⟩,
  ⟨0x20010014, 1, 4, 1, .ro, false, [⟨0, 16, 0, .k0, true⟩, ⟨16, 16, 0, .k0, false⟩]⟩,
  ⟨0x20010018, 1, 4, 1, .ro, false, [⟨0, 16, 0, .k0, true⟩, ⟨16, 16, 0, .k0, false⟩]⟩,
  ⟨0x2001001C, 1, 4, 1, .ro, false, [⟨0, 16, 0, .k0, true⟩, ⟨16, 16, 0, .k0, false⟩]⟩,
  ⟨0x20010080, 1, 4, 1, .ro, false, [⟨0, 32, 0, .k2, true⟩]⟩,
  ⟨0x20010084, 1, 4, 1, .ro, false, [⟨0, 32, 0, .k2, true⟩]⟩,
  ⟨0x20010088, 1, 4, 1, .ro, false, [⟨0, 32, 0, .k2, true⟩]⟩,
  ⟨0x2001008C, 1, 4, 1, .ro, false, [⟨0, 32, 0, .k2, true⟩]⟩,
  ⟨0x20010090, 1, 4, 1, .ro, false, [⟨0, 32, 0, .k2, true⟩]⟩,
  ⟨0x20010094, 1, 4, 1, .ro, false, [⟨0, 32, 0, .k2, true⟩]⟩]

/-- Registers of the PWR block (part 1). -/
def pwrRows0 : List RegRow := [
  ⟨0x20020000, 1, 4, 1, .ro, true, [⟨0, 3, 1, .k1, true⟩, ⟨3, 5, 0, .k1, false⟩, ⟨8, 8, 65, .k1, true⟩, ⟨16, 8, 60, .k1, true⟩, ⟨24, 8, 0, .k1, false⟩]⟩,
  ⟨0x20020004, 1, 4, 1, .ro, false, [⟨0, 3, 0, .k0, true⟩, ⟨3, 1, 0, .k0, true⟩, ⟨4, 1, 1, .k0, true⟩, ⟨5, 11, 0, .k0, false⟩, ⟨16, 16, 0, .k0, true⟩]⟩,
  ⟨0x20020008, 1, 4, 1, .ro, false, [⟨0, 16, 0, .k0, true⟩, ⟨16, 16, 0, .k0, false⟩]⟩,
  ⟨0x20020080, 1, 4, 1, .ro, false, [⟨0, 32, 0, .k2, true⟩]⟩,
  ⟨0x20020084, 1, 4, 1, .ro, false, [⟨0, 32, 0, .k2, true⟩]⟩,
  ⟨0x20020088, 1, 4, 1, .ro, false, [⟨0, 32, 0, .k2, true⟩]⟩,
  ⟨0x2002008C, 1, 4, 1, .ro, false, [⟨0, 32, 0, .k3, true⟩]⟩,
  ⟨0x20020090, 1, 4, 1, .ro, false, [⟨0, 32, 0, .k2, true⟩]⟩,
  ⟨0x20020094, 1, 4, 1, .ro, false, [⟨0, 32, 0, .k3, true⟩]⟩]

/-- Registers of the REGG block (part 1). -/
def reggRows0 : List RegRow := [
  ⟨0x20030000, 1, 4, 1, .wo, false, [⟨0, 16, 0, .k0, true⟩, ⟨16, 5, 0, .k0, true⟩, ⟨21, 11, 0, .k0, false⟩]⟩,
  ⟨0x20030004, 1, 4, 1, .wo, false, [⟨0, 16, 0, .k0, true⟩, ⟨16, 16, 0, .k0, false⟩]⟩,
  ⟨0x20030008, 1, 4, 1, .ro, false, [⟨0, 6, 0, .k0, true⟩, ⟨6, 1, 0, .k0, true⟩, ⟨7, 1, 0, .k0, true⟩, ⟨8, 1, 0, .k1, true⟩, ⟨9, 23, 0, .k0, false⟩]⟩,
  ⟨0x2003000C, 1, 4, 1, .ro, false, [⟨0, 16, 0, .k0, true⟩, ⟨16, 16, 0, .k0, false⟩]⟩,
  ⟨0x20030010, 1, 4, 1, .ro, true, [⟨0, 1, 0, .k1, true⟩, ⟨1, 2, 2, .k1, true⟩, ⟨3, 5, 0, .k1, false⟩, ⟨8, 8, 64, .k1, true⟩, ⟨16, 16, 0, .k1, false⟩]⟩,
  ⟨0x20030014, 1, 4, 1, .rwg, false, [⟨0, 32, 0, .k1, true⟩]⟩,
  ⟨0x20030018, 1, 4, 1, .ro, false, [⟨0, 32, 0, .k0, true⟩]⟩,
  ⟨0x20030020, 1, 4, 1, .ro, false, [⟨0, 32, 0, .k2, true⟩]⟩,
  ⟨0x20030024, 1, 4, 1, .ro, false, [⟨0, 32, 0, .k2, true⟩]⟩,
  ⟨0x20030028, 1, 4, 1, .ro, false, [⟨0, 32, 0, .k2, true⟩]⟩,
  ⟨0x2003002C, 1, 4, 1, .ro, false, [⟨0, 32, 0, .k2, true⟩]⟩,
  ⟨0x20030030, 1, 4, 1, .ro, false, [⟨0, 32, 0, .k2, true⟩]⟩,
  ⟨0x20030034, 1, 4, 1, .ro, false, [⟨0, 32, 0, .k2, true⟩]⟩,
  ⟨0x20030040, 3, 4, 1, .ro, true, [⟨0, 4, 0, .k1, true⟩, ⟨4, 4, 0, .k1, true⟩, ⟨8, 4, 0, .k1, true⟩, ⟨12, 4, 0, .k1, true⟩, ⟨16, 4, 0, .k1, true⟩, ⟨20, 4, 0, .k1, true⟩, ⟨24, 4, 0, .k1, true⟩, ⟨28, 4, 0, .k1, true⟩]⟩]

/-- Registers of the TRI block (part 1). -/
def triRows0 : List RegRow := [
  ⟨0x20040000, 1, 4, 1, .rwg, false, [⟨0, 4, 3, .k1, true⟩, ⟨4, 4, 0, .k1, false⟩, ⟨8, 8, 60, .k1, true⟩, ⟨16, 16, 0, .k1, false⟩]⟩,
  ⟨0x20040004, 1, 4, 1, .rwg, false, [⟨0, 8, 0, .k1, true⟩, ⟨8, 8, 10, .k1, true⟩, ⟨16, 8, 20, .k1, true⟩, ⟨24, 8, 5, .k1, true⟩]⟩,
  ⟨0x20040008, 1, 4, 1, .rwg, false, [⟨0, 5, 16, .k1, true⟩, ⟨5, 27, 0, .k1, false⟩]⟩,
  ⟨0x20040010, 1, 4, 1, .ro, false, [⟨0, 3, 0, .k1, true⟩, ⟨3, 3, 0, .k1, true⟩, ⟨6, 3, 0, .k1, true⟩, ⟨9, 1, 0, .k1, true⟩, ⟨10, 1, 0, .k1, true⟩, ⟨11, 2, 0, .k1, true⟩, ⟨13, 2, 0, .k1, true⟩, ⟨15, 1, 0, .k1, true⟩, ⟨16, 1, 0, .k1, true⟩, ⟨17, 15, 0, .k1, false⟩]⟩,
  ⟨0x20040014, 1, 4, 1, .ro, false, [⟨0, 2, 0, .k0, true⟩, ⟨2, 2, 0, .k0, true⟩, ⟨4, 3, 0, .k0, true⟩, ⟨7, 3, 0, .k0, true⟩, ⟨10, 1, 0, .k0, true⟩, ⟨11, 21, 0, .k0, false⟩]⟩,
  ⟨0x20040018, 1, 4, 1, .ro, false, [⟨0, 4, 0, .k2, true⟩, ⟨4, 4, 0, .k2, true⟩, ⟨8, 4, 0, .k2, true⟩, ⟨12, 4, 0, .k2, true⟩, ⟨16, 16, 0, .k2, false⟩]⟩,
  ⟨0x20040020, 3, 8, 2, .ro, false, [⟨0, 64, 0, .k0, true⟩]⟩,
  ⟨0x20040040, 3, 4, 1, .ro, false, [⟨0, 32, 85199360, .k1, true⟩]⟩,
  ⟨0x20040050, 3, 4, 1, .ro, false, [⟨0, 14, 0, .k0, true⟩, ⟨14, 18, 0, .k0, false⟩]⟩,
  ⟨0x20040080, 1, 4, 1, .ro, false, [⟨0, 32, 0, .k2, true⟩]⟩,
  ⟨0x20040084, 1, 4, 1, .ro, false, [⟨0, 32, 0, .k2, true⟩]⟩,
  ⟨0x20040088, 1, 4, 1, .ro, false, [⟨0, 32, 0, .k2, true⟩]⟩,
  ⟨0x2004008C, 1, 4, 1, .ro, false, [⟨0, 32, 0, .k2, true⟩]⟩,
  ⟨0x20040090, 1, 4, 1, .ro, false, [⟨0, 32, 0, .k2, true⟩]⟩,
  ⟨0x20040094, 1, 4, 1, .ro, false, [⟨0, 32, 0, .k2, true⟩]⟩,
  ⟨0x20040098, 1, 4, 1, .ro, false, [⟨0, 32, 0, .k2, true⟩]⟩,
  ⟨0x2004009C, 1, 4, 1, .ro, false, [⟨0, 32, 0, .k2, true⟩]⟩,
  ⟨0x200400A0, 1, 4, 1, .ro, false, [⟨0, 32, 0, .k2, true⟩]⟩,
  ⟨0x20040100, 1, 4, 1, .rwi, false, [⟨0, 32, 0, .k0, true⟩]⟩]

/-- Registers of the CYC block (part 1). -/
def cycRows0 : List RegRow := [
  ⟨0x20050000, 1, 4, 1, .rwg, false, [⟨0, 13, 2, .k1, true⟩, ⟨13, 3, 0, .k1, false⟩, ⟨16, 13, 64, .k1, true⟩, ⟨29, 1, 0, .k1, true⟩, ⟨30, 2, 0, .k1, false⟩]⟩,
  ⟨0x20050004, 1, 4, 1, .rwg, false, [⟨0, 13, 1, .k1, true⟩, ⟨13, 19, 0, .k1, false⟩]⟩,
  ⟨0x20050008, 1, 4, 1, .ro, true, [⟨0, 16, 64, .k1, true⟩, ⟨16, 16, 0, .k1, true⟩]⟩,
  ⟨0x2005000C, 1, 4, 1, .ro, true, [⟨0, 2, 0, .k1, true⟩, ⟨2, 9, 0, .k1, true⟩, ⟨11, 1, 0, .k1, true⟩, ⟨12, 20, 0, .k1, false⟩]⟩,
  ⟨0x20050010, 1, 4, 1, .wo, false, [⟨0, 4, 0, .k0, true⟩, ⟨4, 28, 0, .k0, false⟩]⟩,
  ⟨0x20050014, 1, 4, 1, .ro, false, [⟨0, 2, 0, .k1, true⟩, ⟨2, 1, 0, .k1, true⟩, ⟨3, 1, 0, .k1, true⟩, ⟨4, 1, 0, .k1, true⟩, ⟨5, 1, 0, .k1, true⟩, ⟨6, 1, 0, .k1, true⟩, ⟨7, 1, 0, .k0, true⟩, ⟨8, 1, 0, .k1, true⟩, ⟨9, 1, 0, .k1, true⟩, ⟨10, 1, 0, .k1, true⟩, ⟨11, 1, 1, .k1, true⟩, ⟨12, 20, 0, .k1, false⟩]⟩,
  ⟨0x20050018, 1, 4, 1, .rwi, false, [⟨0, 32, 0, .k0, true⟩]⟩,
  ⟨0x2005001C, 1, 4, 1, .ro, false, [⟨0, 1, 0, .k1, true⟩, ⟨1, 15, 0, .k1, false⟩, ⟨16, 16, 0, .k1, true⟩]⟩,
  ⟨0x20050020, 1, 4, 1, .rwi, false, [⟨0, 32, 0, .k1, true⟩]⟩,
  ⟨0x20050024, 1, 4, 1, .rwi, false, [⟨0, 32, 0, .k1, true⟩]⟩,
  ⟨0x20050028, 1, 4, 1, .ro, false, [⟨0, 2, 0, .k1, true⟩, ⟨2, 30, 0, .k1, false⟩]⟩,
  ⟨0x20050030, 1, 8, 2, .ro, true, [⟨0, 64, 0, .k1, true⟩]⟩,
  ⟨0x20050038, 1, 8, 2, .rwi, false, [⟨0, 64, 0, .k1, true⟩]⟩,
  ⟨0x20050040, 1, 4, 1, .ro, false, [⟨0, 13, 0, .k0, true⟩, ⟨13, 19, 0, .k0, false⟩]⟩,
  ⟨0x20050080, 1, 4, 1, .ro, false, [⟨0, 32, 0, .k2, true⟩]⟩,
  ⟨0x20050084, 1, 4, 1, .ro, false, [⟨0, 32, 0, .k2, true⟩]⟩,
  ⟨0x20050088, 1, 4, 1, .ro, false, [⟨0, 32, 0, .k2, true⟩]⟩,
  ⟨0x2005008C, 1, 4, 1, .ro, false, [⟨0, 32, 0, .k2, true⟩]⟩,
  ⟨0x20050090, 1, 4, 1, .ro, false, [⟨0, 32, 0, .k2, true⟩]⟩,
  ⟨0x20050094, 1, 4, 1, .ro, false, [⟨0, 32, 0, .k2, true⟩]⟩]

/-- Registers of the CYC block (part 2). -/
def cycRows1 : List RegRow := [
  ⟨0x20050098, 1, 4, 1, .ro, false, [⟨0, 32, 0, .k2, true⟩]⟩,
  ⟨0x2005009C, 1, 4, 1, .ro, false, [⟨0, 32, 0, .k2, true⟩]⟩,
  ⟨0x20051000, 256, 64, 1, .rwi, false, [⟨0, 1, 0, .k1, true⟩, ⟨1, 1, 0, .k1, true⟩, ⟨2, 12, 0, .k1, true⟩, ⟨14, 2, 0, .k1, true⟩, ⟨16, 16, 0, .k1, true⟩]⟩,
  ⟨0x20051008, 256, 64, 2, .rwi, false, [⟨0, 64, 0, .k1, true⟩]⟩,
  ⟨0x20051010, 256, 64, 2, .rwi, false, [⟨0, 64, 0, .k1, true⟩]⟩,
  ⟨0x20051018, 256, 64, 2, .rwi, false, [⟨0, 64, 0, .k1, true⟩]⟩,
  ⟨0x20051020, 256, 64, 2, .ro, false, [⟨0, 64, 0, .k1, true⟩]⟩]

/-- Registers of the LANE block (part 1). -/
def laneRows0 : List RegRow := [
  ⟨0x20060000, 1, 4, 1, .rwg, false, [⟨0, 1, 1, .k1, true⟩, ⟨1, 1, 1, .k1, true⟩, ⟨2, 30, 0, .k1, false⟩]⟩,
  ⟨0x20060004, 1, 4, 1, .ro, true, [⟨0, 8, 0, .k1, true⟩, ⟨8, 8, 0, .k1, true⟩, ⟨16, 16, 34997, .k1, true⟩]⟩,
  ⟨0x20060008, 1, 4, 1, .ro, true, [⟨0, 32, 0, .k1, true⟩]⟩,
  ⟨0x2006000C, 1, 4, 1, .ro, true, [⟨0, 13, 2000, .k1, true⟩, ⟨13, 19, 0, .k1, false⟩]⟩,
  ⟨0x20060010, 1, 4, 1, .ro, false, [⟨0, 4, 1, .k1, true⟩, ⟨4, 4, 1, .k1, true⟩, ⟨8, 4, 0, .k0, true⟩, ⟨12, 4, 0, .k0, true⟩, ⟨16, 1, 0, .k0, true⟩, ⟨17, 1, 0, .k0, true⟩, ⟨18, 14, 0, .k0, false⟩]⟩,
  ⟨0x20060014, 2, 4, 1, .ro, false, [⟨0, 3, 0, .k0, true⟩, ⟨3, 1, 0, .k0, true⟩, ⟨4, 1, 0, .k0, true⟩, ⟨5, 1, 0, .k0, true⟩, ⟨6, 1, 0, .k0, true⟩, ⟨7, 1, 0, .k0, true⟩, ⟨8, 8, 0, .k0, true⟩, ⟨16, 3, 0, .k0, true⟩, ⟨19, 1, 0, .k0, true⟩, ⟨20, 12, 0, .k0, false⟩]⟩,
  ⟨0x2006001C, 1, 4, 1, .ro, false, [⟨0, 16, 0, .k0, true⟩, ⟨16, 16, 0, .k0, true⟩]⟩,
  ⟨0x20060020, 2, 4, 1, .ro, false, [⟨0, 16, 1200, .k0, true⟩, ⟨16, 16, 1200, .k0, true⟩]⟩,
  ⟨0x20060028, 1, 4, 1, .ro, false, [⟨0, 3, 0, .k0, true⟩, ⟨3, 1, 0, .k0, true⟩, ⟨4, 1, 0, .k0, true⟩, ⟨5, 11, 0, .k0, false⟩, ⟨16, 16, 0, .k0, true⟩]⟩,
  ⟨0x2006002C, 1, 4, 1, .ro, false, [⟨0, 32, 0, .k0, true⟩]⟩,
  ⟨0x20060030, 1, 4, 1, .wo, false, [⟨0, 16, 0, .k0, true⟩, ⟨16, 2, 0, .k0, true⟩, ⟨18, 14, 0, .k0, false⟩]⟩,
  ⟨0x20060034, 1, 4, 1, .rwi, false, [⟨0, 32, 0, .k0, true⟩]⟩,
  ⟨0x20060038, 1, 4, 1, .ro, false, [⟨0, 16, 0, .k0, true⟩, ⟨16, 16, 0, .k0, false⟩]⟩,
  ⟨0x20060040, 1, 8, 2, .ro, false, [⟨0, 48, 0, .k4, true⟩, ⟨48, 16, 0, .k4, false⟩]⟩,
  ⟨0x2006007C, 1, 4, 1, .ro, false, [⟨0, 32, 0, .k2, true⟩]⟩,
  ⟨0x20060080, 2, 64, 1, .ro, false, [⟨0, 32, 0, .k2, true⟩]⟩,
  ⟨0x20060084, 2, 64, 1, .ro, false, [⟨0, 32, 0, .k2, true⟩]⟩,
  ⟨0x20060088, 2, 64, 1, .ro, false, [⟨0, 32, 0, .k2, true⟩]⟩,
  ⟨0x2006008C, 2, 64, 1, .ro, false, [⟨0, 32, 0, .k2, true⟩]⟩,
  ⟨0x20060090, 2, 64, 1, .ro, false, [⟨0, 32, 0, .k2, true⟩]⟩]

/-- Registers of the LANE block (part 2). -/
def laneRows1 : List RegRow := [
  ⟨0x20060094, 2, 64, 1, .ro, false, [⟨0, 32, 0, .k2, true⟩]⟩,
  ⟨0x20060098, 2, 64, 1, .ro, false, [⟨0, 32, 0, .k2, true⟩]⟩,
  ⟨0x2006009C, 2, 64, 1, .ro, false, [⟨0, 32, 0, .k2, true⟩]⟩,
  ⟨0x200600A0, 2, 64, 1, .ro, false, [⟨0, 32, 0, .k2, true⟩]⟩,
  ⟨0x200600A4, 2, 64, 1, .ro, false, [⟨0, 32, 0, .k2, true⟩]⟩,
  ⟨0x200600A8, 2, 64, 1, .ro, false, [⟨0, 32, 0, .k2, true⟩]⟩,
  ⟨0x200600AC, 2, 64, 1, .ro, false, [⟨0, 32, 0, .k2, true⟩]⟩,
  ⟨0x200600B0, 2, 64, 1, .ro, false, [⟨0, 32, 0, .k2, true⟩]⟩,
  ⟨0x20061000, 512, 4, 1, .ro, false, [⟨0, 8, 255, .k0, true⟩, ⟨8, 1, 1, .k0, true⟩, ⟨9, 1, 0, .k0, true⟩, ⟨10, 1, 0, .k0, true⟩, ⟨11, 1, 0, .k0, true⟩, ⟨12, 20, 0, .k0, false⟩]⟩,
  ⟨0x20062000, 512, 4, 1, .ro, false, [⟨0, 1, 0, .k0, true⟩, ⟨1, 3, 0, .k0, true⟩, ⟨4, 2, 0, .k0, true⟩, ⟨6, 2, 0, .k0, false⟩, ⟨8, 8, 0, .k0, true⟩, ⟨16, 16, 0, .k0, true⟩]⟩]

/-- Registers of the ECN block (part 1). -/
def ecnRows0 : List RegRow := [
  ⟨0x20070000, 1, 4, 1, .rwg, false, [⟨0, 1, 1, .k1, true⟩, ⟨1, 1, 1, .k1, true⟩, ⟨2, 1, 1, .k1, true⟩, ⟨3, 1, 1, .k1, true⟩, ⟨4, 28, 0, .k1, false⟩]⟩,
  ⟨0x20070004, 1, 4, 1, .ro, true, [⟨0, 12, 1, .k1, true⟩, ⟨12, 1, 0, .k1, true⟩, ⟨13, 19, 0, .k1, false⟩]⟩,
  ⟨0x20070008, 1, 4, 1, .rwi, false, [⟨0, 32, 0, .k1, true⟩]⟩,
  ⟨0x2007000C, 1, 4, 1, .rwi, false, [⟨0, 32, 0, .k1, true⟩]⟩,
  ⟨0x20070010, 1, 4, 1, .rwi, false, [⟨0, 32, 0, .k1, true⟩]⟩,
  ⟨0x20070014, 2, 4, 1, .ro, false, [⟨0, 1, 0, .k0, true⟩, ⟨1, 2, 0, .k0, true⟩, ⟨3, 1, 0, .k0, true⟩, ⟨4, 2, 0, .k0, true⟩, ⟨6, 26, 0, .k0, false⟩]⟩,
  ⟨0x20070080, 1, 4, 1, .ro, false, [⟨0, 32, 0, .k2, true⟩]⟩,
  ⟨0x20070084, 1, 4, 1, .ro, false, [⟨0, 32, 0, .k2, true⟩]⟩,
  ⟨0x20070088, 1, 4, 1, .ro, false, [⟨0, 32, 0, .k2, true⟩]⟩,
  ⟨0x2007008C, 1, 4, 1, .ro, false, [⟨0, 32, 0, .k2, true⟩]⟩,
  ⟨0x20070090, 1, 4, 1, .ro, false, [⟨0, 32, 0, .k2, true⟩]⟩,
  ⟨0x20070094, 1, 4, 1, .ro, false, [⟨0, 32, 0, .k2, true⟩]⟩,
  ⟨0x20070098, 1, 4, 1, .ro, false, [⟨0, 32, 0, .k2, true⟩]⟩,
  ⟨0x2007009C, 1, 4, 1, .ro, false, [⟨0, 32, 0, .k2, true⟩]⟩,
  ⟨0x200700A0, 1, 4, 1, .ro, false, [⟨0, 32, 0, .k2, true⟩]⟩,
  ⟨0x200700A4, 1, 4, 1, .ro, false, [⟨0, 32, 0, .k2, true⟩]⟩,
  ⟨0x200700A8, 1, 4, 1, .ro, false, [⟨0, 32, 0, .k2, true⟩]⟩,
  ⟨0x200700AC, 1, 4, 1, .ro, false, [⟨0, 32, 0, .k2, true⟩]⟩,
  ⟨0x200700B0, 1, 4, 1, .ro, false, [⟨0, 32, 0, .k2, true⟩]⟩,
  ⟨0x20070100, 9, 16, 1, .rwi, false, [⟨0, 32, 0, .k0, true⟩]⟩]

/-- Registers of the ECN block (part 2). -/
def ecnRows1 : List RegRow := [
  ⟨0x20070104, 9, 16, 1, .rwi, false, [⟨0, 12, 0, .k0, true⟩]⟩,
  ⟨0x20070108, 9, 16, 1, .ro, false, [⟨0, 12, 0, .k0, true⟩]⟩,
  ⟨0x2007010C, 9, 16, 1, .rwi, false, [⟨0, 12, 0, .k0, true⟩]⟩,
  ⟨0x20070200, 8, 4, 1, .rwg, false, [⟨0, 1, 0, .k1, true⟩, ⟨1, 1, 0, .k1, true⟩, ⟨2, 14, 0, .k1, false⟩, ⟨16, 16, 0, .k1, true⟩]⟩,
  ⟨0x20071000, 512, 32, 1, .ro, true, [⟨0, 1, 0, .k1, true⟩, ⟨1, 1, 0, .k1, true⟩, ⟨2, 1, 0, .k1, true⟩, ⟨3, 3, 0, .k1, true⟩, ⟨6, 1, 0, .k1, true⟩, ⟨7, 1, 0, .k1, true⟩, ⟨8, 1, 0, .k1, true⟩, ⟨16, 11, 0, .k1, true⟩]⟩,
  ⟨0x20071004, 512, 32, 1, .ro, true, [⟨0, 32, 0, .k1, true⟩]⟩,
  ⟨0x20071008, 512, 32, 1, .ro, true, [⟨0, 32, 0, .k1, true⟩]⟩,
  ⟨0x2007100C, 512, 32, 1, .ro, true, [⟨0, 32, 0, .k1, true⟩]⟩,
  ⟨0x20071010, 512, 32, 1, .ro, true, [⟨0, 24, 0, .k1, true⟩]⟩,
  ⟨0x20071014, 512, 32, 1, .ro, true, [⟨0, 12, 0, .k1, true⟩, ⟨16, 16, 0, .k1, true⟩]⟩,
  ⟨0x20071018, 512, 32, 1, .rwi, false, [⟨0, 32, 0, .k1, true⟩]⟩,
  ⟨0x2007101C, 512, 32, 1, .rwi, false, [⟨0, 16, 0, .k1, true⟩]⟩,
  ⟨0x20075000, 512, 4, 1, .ro, false, [⟨0, 2, 0, .k0, true⟩, ⟨2, 14, 0, .k0, false⟩, ⟨16, 16, 0, .k0, true⟩]⟩]

/-- Registers of the TIME block (part 1). -/
def timeRows0 : List RegRow := [
  ⟨0x20080000, 1, 4, 1, .rwg, false, [⟨0, 16, 1000, .k1, true⟩, ⟨16, 16, 200, .k1, true⟩]⟩,
  ⟨0x20080004, 1, 4, 1, .ro, true, [⟨0, 8, 0, .k1, true⟩, ⟨8, 8, 248, .k1, true⟩, ⟨16, 8, 248, .k1, true⟩, ⟨24, 1, 0, .k1, true⟩, ⟨25, 1, 0, .k1, true⟩, ⟨26, 4, 13, .k1, true⟩, ⟨30, 2, 0, .k1, false⟩]⟩,
  ⟨0x20080008, 1, 4, 1, .ro, true, [⟨0, 32, 160000, .k1, true⟩]⟩,
  ⟨0x20080010, 1, 8, 2, .ro, false, [⟨0, 64, 0, .k1, true⟩]⟩,
  ⟨0x20080018, 1, 8, 2, .ro, false, [⟨0, 64, 0, .k1, true⟩]⟩,
  ⟨0x20080020, 1, 8, 2, .ro, false, [⟨0, 64, 0, .k1, true⟩]⟩,
  ⟨0x20080028, 1, 4, 1, .ro, false, [⟨0, 1, 0, .k0, true⟩, ⟨1, 1, 0, .k0, true⟩, ⟨2, 1, 0, .k0, true⟩, ⟨3, 1, 0, .k0, true⟩, ⟨4, 1, 0, .k0, true⟩, ⟨5, 1, 0, .k0, true⟩, ⟨6, 26, 0, .k0, false⟩]⟩,
  ⟨0x2008002C, 1, 4, 1, .ro, false, [⟨0, 32, 0, .k0, true⟩]⟩,
  ⟨0x20080030, 1, 4, 1, .ro, false, [⟨0, 32, 0, .k0, true⟩]⟩,
  ⟨0x20080034, 1, 4, 1, .ro, false, [⟨0, 32, 0, .k0, true⟩]⟩,
  ⟨0x20080038, 1, 4, 1, .ro, false, [⟨0, 32, 0, .k0, true⟩]⟩,
  ⟨0x2008003C, 1, 4, 1, .ro, false, [⟨0, 32, 0, .k0, true⟩]⟩,
  ⟨0x20080040, 1, 8, 2, .ro, false, [⟨0, 64, 0, .k0, true⟩]⟩,
  ⟨0x20080048, 1, 4, 1, .ro, false, [⟨0, 16, 0, .k0, true⟩, ⟨16, 1, 0, .k0, true⟩]⟩,
  ⟨0x20080080, 1, 4, 1, .ro, false, [⟨0, 32, 0, .k2, true⟩]⟩,
  ⟨0x20080084, 1, 4, 1, .ro, false, [⟨0, 32, 0, .k2, true⟩]⟩,
  ⟨0x20080088, 1, 4, 1, .ro, false, [⟨0, 32, 0, .k2, true⟩]⟩,
  ⟨0x2008008C, 1, 4, 1, .ro, false, [⟨0, 32, 0, .k2, true⟩]⟩,
  ⟨0x20080090, 1, 4, 1, .ro, false, [⟨0, 32, 0, .k2, true⟩]⟩,
  ⟨0x20080100, 16, 4, 1, .rwi, false, [⟨0, 3, 0, .k0, true⟩, ⟨3, 9, 0, .k0, true⟩, ⟨12, 2, 0, .k0, true⟩, ⟨14, 2, 0, .k0, true⟩, ⟨16, 16, 0, .k0, false⟩]⟩]

/-- Registers of the TIME block (part 2). -/
def timeRows1 : List RegRow := [
  ⟨0x20080180, 16, 4, 1, .ro, false, [⟨0, 4, 0, .k0, true⟩]⟩,
  ⟨0x20080200, 16, 8, 2, .ro, false, [⟨0, 64, 0, .k0, true⟩]⟩]

/-- Registers of the SAFE block (part 1). -/
def safeRows0 : List RegRow := [
  ⟨0x20090000, 1, 4, 1, .rwg, false, [⟨0, 8, 4, .k1, true⟩, ⟨8, 24, 0, .k1, false⟩]⟩,
  ⟨0x20090004, 1, 4, 1, .ro, true, [⟨0, 24, 0, .k1, true⟩, ⟨24, 8, 0, .k1, false⟩]⟩,
  ⟨0x20090008, 1, 4, 1, .ro, true, [⟨0, 24, 0, .k1, true⟩, ⟨24, 8, 0, .k1, false⟩]⟩,
  ⟨0x2009000C, 1, 4, 1, .ro, true, [⟨0, 16, 0, .k1, false⟩, ⟨16, 16, 4098, .k1, true⟩]⟩,
  ⟨0x20090010, 1, 4, 1, .ro, false, [⟨0, 8, 0, .k0, true⟩, ⟨8, 8, 0, .k0, true⟩, ⟨16, 1, 0, .k1, true⟩, ⟨17, 15, 0, .k0, false⟩]⟩,
  ⟨0x20090020, 4, 4, 1, .rwi, false, [⟨0, 32, 0, .k1, true⟩]⟩,
  ⟨0x20090080, 1, 4, 1, .ro, false, [⟨0, 32, 0, .k2, true⟩]⟩,
  ⟨0x20090084, 1, 4, 1, .ro, false, [⟨0, 32, 0, .k2, true⟩]⟩,
  ⟨0x20090088, 1, 4, 1, .ro, false, [⟨0, 32, 0, .k2, true⟩]⟩,
  ⟨0x2009008C, 1, 4, 1, .ro, false, [⟨0, 32, 0, .k2, true⟩]⟩,
  ⟨0x20090090, 1, 4, 1, .ro, false, [⟨0, 32, 0, .k2, true⟩]⟩,
  ⟨0x20090094, 1, 4, 1, .ro, false, [⟨0, 32, 0, .k2, true⟩]⟩,
  ⟨0x20090098, 1, 4, 1, .ro, false, [⟨0, 32, 0, .k2, true⟩]⟩,
  ⟨0x2009009C, 1, 4, 1, .ro, false, [⟨0, 32, 0, .k2, true⟩]⟩,
  ⟨0x200900A0, 1, 4, 1, .ro, false, [⟨0, 32, 0, .k2, true⟩]⟩,
  ⟨0x200900A4, 1, 4, 1, .ro, false, [⟨0, 32, 0, .k2, true⟩]⟩,
  ⟨0x200900A8, 1, 4, 1, .ro, false, [⟨0, 32, 0, .k2, true⟩]⟩,
  ⟨0x200900AC, 1, 4, 1, .ro, false, [⟨0, 32, 0, .k2, true⟩]⟩,
  ⟨0x200900B0, 1, 4, 1, .ro, false, [⟨0, 32, 0, .k2, true⟩]⟩,
  ⟨0x20091000, 128, 32, 1, .ro, true, [⟨0, 1, 0, .k1, true⟩, ⟨1, 1, 0, .k1, true⟩, ⟨2, 2, 0, .k1, true⟩, ⟨4, 1, 0, .k1, true⟩, ⟨5, 1, 0, .k1, true⟩, ⟨6, 1, 0, .k1, true⟩, ⟨7, 1, 0, .k1, true⟩, ⟨8, 9, 0, .k1, true⟩, ⟨17, 15, 0, .k1, false⟩]⟩]

/-- Registers of the SAFE block (part 2). -/
def safeRows1 : List RegRow := [
  ⟨0x20091004, 128, 32, 1, .ro, true, [⟨0, 16, 0, .k1, true⟩]⟩,
  ⟨0x20091008, 128, 32, 1, .ro, true, [⟨0, 24, 0, .k1, true⟩]⟩,
  ⟨0x2009100C, 128, 32, 1, .ro, true, [⟨0, 9, 0, .k1, true⟩, ⟨16, 16, 0, .k1, true⟩]⟩,
  ⟨0x20091010, 128, 32, 1, .ro, true, [⟨0, 16, 100, .k1, true⟩, ⟨16, 8, 5, .k1, true⟩]⟩,
  ⟨0x20091014, 128, 32, 1, .ro, true, [⟨0, 12, 8, .k1, true⟩]⟩,
  ⟨0x20092000, 128, 16, 1, .ro, false, [⟨0, 2, 0, .k0, true⟩, ⟨2, 1, 0, .k0, true⟩, ⟨3, 16, 0, .k0, true⟩, ⟨19, 13, 0, .k0, false⟩]⟩,
  ⟨0x20092004, 128, 16, 1, .ro, false, [⟨0, 32, 0, .k1, true⟩]⟩,
  ⟨0x20092008, 128, 16, 1, .ro, false, [⟨0, 16, 0, .k0, true⟩, ⟨16, 16, 0, .k1, true⟩]⟩,
  ⟨0x2009200C, 128, 16, 1, .ro, false, [⟨0, 32, 0, .k0, true⟩]⟩]

/-- Registers of the CRC block (part 1). -/
def crcRows0 : List RegRow := [
  ⟨0x200A0000, 8, 64, 1, .rwi, false, [⟨0, 2, 0, .k0, true⟩, ⟨2, 2, 0, .k0, true⟩, ⟨4, 4, 0, .k0, true⟩, ⟨8, 2, 0, .k0, true⟩, ⟨10, 6, 0, .k0, false⟩, ⟨16, 16, 65535, .k0, true⟩]⟩,
  ⟨0x200A0004, 8, 64, 1, .rwi, false, [⟨0, 32, 0, .k0, true⟩]⟩,
  ⟨0x200A0008, 8, 64, 2, .rwi, false, [⟨0, 64, 0, .k0, true⟩]⟩,
  ⟨0x200A0010, 8, 64, 2, .ro, false, [⟨0, 64, 0, .k0, true⟩]⟩,
  ⟨0x200A0018, 8, 64, 2, .rwi, false, [⟨0, 64, 0, .k0, true⟩]⟩,
  ⟨0x200A0020, 8, 64, 1, .rwi, false, [⟨0, 32, 0, .k0, true⟩]⟩,
  ⟨0x200A0024, 8, 64, 1, .wo, false, [⟨0, 2, 0, .k0, true⟩, ⟨2, 7, 0, .k0, true⟩, ⟨9, 23, 0, .k0, false⟩]⟩,
  ⟨0x200A0028, 8, 64, 1, .wo, false, [⟨0, 32, 0, .k0, true⟩]⟩,
  ⟨0x200A002C, 8, 64, 1, .ro, false, [⟨0, 1, 0, .k0, true⟩, ⟨1, 1, 0, .k0, true⟩, ⟨2, 5, 0, .k0, true⟩, ⟨7, 1, 0, .k0, true⟩, ⟨8, 24, 0, .k0, false⟩]⟩,
  ⟨0x200A0030, 8, 64, 2, .wo, false, [⟨0, 64, 0, .k0, true⟩]⟩,
  ⟨0x200A0038, 8, 64, 2, .ro, false, [⟨0, 64, 0, .k0, true⟩]⟩,
  ⟨0x200A0200, 8, 16, 1, .ro, false, [⟨0, 32, 0, .k2, true⟩]⟩,
  ⟨0x200A0204, 8, 16, 1, .ro, false, [⟨0, 32, 0, .k2, true⟩]⟩,
  ⟨0x200A0208, 8, 16, 1, .ro, false, [⟨0, 32, 0, .k2, true⟩]⟩,
  ⟨0x200A020C, 8, 16, 1, .ro, false, [⟨0, 32, 0, .k2, true⟩]⟩]

/-- Registers of the TRIP block (part 1). -/
def tripRows0 : List RegRow := [
  ⟨0x200B0000, 1, 4, 1, .rwg, false, [⟨0, 8, 4, .k1, true⟩, ⟨8, 24, 0, .k1, false⟩]⟩,
  ⟨0x200B0004, 1, 4, 1, .ro, true, [⟨0, 16, 0, .k1, true⟩, ⟨16, 16, 0, .k1, true⟩]⟩,
  ⟨0x200B0008, 1, 4, 1, .ro, true, [⟨0, 5, 0, .k1, true⟩, ⟨5, 1, 0, .k1, true⟩, ⟨6, 26, 0, .k1, false⟩]⟩,
  ⟨0x200B000C, 1, 4, 1, .ro, false, [⟨0, 3, 7, .k1, true⟩, ⟨3, 1, 0, .k1, true⟩, ⟨4, 1, 0, .k0, true⟩, ⟨5, 1, 0, .k1, true⟩, ⟨6, 1, 1, .k0, true⟩, ⟨7, 1, 0, .k0, true⟩, ⟨8, 24, 0, .k1, false⟩]⟩,
  ⟨0x200B0010, 1, 4, 1, .wo, false, [⟨0, 1, 0, .k0, true⟩, ⟨1, 31, 0, .k0, false⟩]⟩,
  ⟨0x200B0014, 1, 4, 1, .rwg, false, [⟨0, 32, 70000, .k1, true⟩]⟩,
  ⟨0x200B0018, 1, 4, 1, .wo, false, [⟨0, 5, 0, .k0, true⟩, ⟨5, 27, 0, .k0, false⟩]⟩,
  ⟨0x200B0080, 1, 4, 1, .ro, false, [⟨0, 32, 0, .k2, true⟩]⟩,
  ⟨0x200B0084, 1, 4, 1, .ro, false, [⟨0, 32, 0, .k2, true⟩]⟩,
  ⟨0x200B0088, 1, 4, 1, .ro, false, [⟨0, 32, 0, .k2, true⟩]⟩,
  ⟨0x200B008C, 1, 4, 1, .ro, false, [⟨0, 32, 0, .k2, true⟩]⟩,
  ⟨0x200B0090, 1, 4, 1, .ro, false, [⟨0, 32, 0, .k2, true⟩]⟩,
  ⟨0x200B0094, 1, 4, 1, .ro, false, [⟨0, 32, 0, .k2, true⟩]⟩,
  ⟨0x200B0098, 1, 4, 1, .ro, false, [⟨0, 32, 0, .k2, true⟩]⟩,
  ⟨0x200B009C, 1, 4, 1, .ro, false, [⟨0, 32, 0, .k2, true⟩]⟩,
  ⟨0x200B00A0, 1, 4, 1, .ro, false, [⟨0, 32, 0, .k2, true⟩]⟩,
  ⟨0x200B00A4, 1, 4, 1, .ro, false, [⟨0, 32, 0, .k2, true⟩]⟩,
  ⟨0x200B00A8, 1, 4, 1, .ro, false, [⟨0, 32, 0, .k2, true⟩]⟩,
  ⟨0x200B00AC, 1, 4, 1, .ro, false, [⟨0, 32, 0, .k2, true⟩]⟩,
  ⟨0x200B00B0, 1, 4, 1, .ro, false, [⟨0, 32, 0, .k2, true⟩]⟩]

/-- Registers of the TRIP block (part 2). -/
def tripRows1 : List RegRow := [
  ⟨0x200B00B4, 1, 4, 1, .ro, false, [⟨0, 32, 0, .k2, true⟩]⟩,
  ⟨0x200B0800, 32, 16, 1, .ro, true, [⟨0, 8, 0, .k1, true⟩, ⟨8, 1, 0, .k1, true⟩, ⟨9, 1, 0, .k1, true⟩, ⟨10, 5, 4, .k1, true⟩, ⟨15, 1, 0, .k1, false⟩, ⟨16, 16, 500, .k1, true⟩]⟩,
  ⟨0x200B0804, 32, 16, 1, .ro, false, [⟨0, 16, 0, .k0, true⟩, ⟨16, 1, 0, .k0, true⟩, ⟨17, 1, 0, .k0, true⟩, ⟨18, 1, 0, .k0, true⟩, ⟨19, 13, 0, .k0, false⟩]⟩,
  ⟨0x200B0808, 32, 16, 1, .ro, false, [⟨0, 32, 0, .k0, true⟩]⟩,
  ⟨0x200B080C, 32, 16, 1, .ro, false, [⟨0, 32, 0, .k1, true⟩]⟩,
  ⟨0x200B0C00, 16, 4, 1, .ro, true, [⟨0, 10, 0, .k1, true⟩, ⟨10, 1, 0, .k1, true⟩, ⟨11, 1, 0, .k1, true⟩, ⟨12, 20, 0, .k1, false⟩]⟩,
  ⟨0x200B0D00, 64, 4, 1, .ro, true, [⟨0, 9, 0, .k1, true⟩, ⟨9, 1, 0, .k1, true⟩, ⟨10, 22, 0, .k1, false⟩]⟩,
  ⟨0x200B1000, 32, 16, 1, .ro, true, [⟨0, 1, 0, .k1, true⟩, ⟨1, 1, 0, .k1, true⟩, ⟨2, 4, 0, .k1, true⟩, ⟨6, 10, 0, .k1, false⟩, ⟨16, 10, 0, .k1, true⟩, ⟨26, 1, 0, .k1, true⟩, ⟨27, 5, 0, .k1, false⟩]⟩,
  ⟨0x200B1004, 32, 16, 1, .ro, true, [⟨0, 32, 0, .k1, true⟩]⟩,
  ⟨0x200B1008, 32, 16, 1, .ro, false, [⟨0, 1, 1, .k1, true⟩, ⟨1, 3, 1, .k1, true⟩, ⟨4, 1, 0, .k0, true⟩, ⟨5, 2, 0, .k0, true⟩, ⟨7, 25, 0, .k1, false⟩]⟩]

/-- Registers of the DOOR block (part 1). -/
def doorRows0 : List RegRow := [
  ⟨0x200C0000, 1, 4, 1, .rwg, false, [⟨0, 1, 1, .k1, true⟩, ⟨1, 31, 0, .k1, false⟩]⟩,
  ⟨0x200C0004, 1, 4, 1, .ro, true, [⟨0, 7, 0, .k1, true⟩, ⟨7, 9, 0, .k1, false⟩, ⟨16, 16, 0, .k1, true⟩]⟩,
  ⟨0x200C0008, 1, 4, 1, .ro, true, [⟨0, 16, 0, .k1, true⟩, ⟨16, 16, 0, .k1, true⟩]⟩,
  ⟨0x200C000C, 1, 4, 1, .ro, true, [⟨0, 9, 0, .k1, true⟩, ⟨9, 7, 0, .k1, false⟩, ⟨16, 16, 0, .k1, true⟩]⟩,
  ⟨0x200C0010, 1, 4, 1, .ro, false, [⟨0, 16, 0, .k0, true⟩, ⟨16, 16, 0, .k0, false⟩]⟩,
  ⟨0x200C0014, 1, 4, 1, .ro, false, [⟨0, 16, 0, .k0, true⟩, ⟨16, 16, 0, .k0, false⟩]⟩,
  ⟨0x200C0018, 1, 4, 1, .ro, false, [⟨0, 1, 0, .k0, true⟩, ⟨1, 1, 1, .k0, true⟩, ⟨2, 1, 0, .k0, true⟩, ⟨3, 1, 0, .k0, false⟩, ⟨4, 7, 0, .k0, true⟩, ⟨11, 7, 0, .k0, true⟩, ⟨18, 14, 0, .k0, false⟩]⟩,
  ⟨0x200C001C, 1, 4, 1, .ro, false, [⟨0, 16, 0, .k0, true⟩, ⟨16, 16, 0, .k0, false⟩]⟩,
  ⟨0x200C0080, 1, 4, 1, .ro, false, [⟨0, 32, 0, .k2, true⟩]⟩,
  ⟨0x200C0084, 1, 4, 1, .ro, false, [⟨0, 32, 0, .k2, true⟩]⟩,
  ⟨0x200C0088, 1, 4, 1, .ro, false, [⟨0, 32, 0, .k2, true⟩]⟩,
  ⟨0x200C008C, 1, 4, 1, .ro, false, [⟨0, 32, 0, .k2, true⟩]⟩,
  ⟨0x200C0090, 1, 4, 1, .ro, false, [⟨0, 32, 0, .k2, true⟩]⟩,
  ⟨0x200C0094, 1, 4, 1, .ro, false, [⟨0, 32, 0, .k2, true⟩]⟩,
  ⟨0x200C0098, 1, 4, 1, .ro, false, [⟨0, 32, 0, .k2, true⟩]⟩,
  ⟨0x200C009C, 1, 4, 1, .ro, false, [⟨0, 32, 0, .k2, true⟩]⟩,
  ⟨0x200C1000, 96, 64, 1, .ro, true, [⟨0, 2, 0, .k1, true⟩, ⟨2, 7, 0, .k1, true⟩, ⟨9, 4, 0, .k1, true⟩, ⟨13, 4, 0, .k1, true⟩, ⟨17, 8, 0, .k1, true⟩, ⟨25, 3, 0, .k1, true⟩, ⟨28, 1, 0, .k1, true⟩, ⟨29, 1, 0, .k1, true⟩, ⟨30, 2, 0, .k1, false⟩]⟩,
  ⟨0x200C1004, 96, 64, 1, .ro, true, [⟨0, 32, 0, .k1, true⟩]⟩,
  ⟨0x200C1008, 96, 64, 1, .ro, true, [⟨0, 32, 0, .k1, true⟩]⟩,
  ⟨0x200C100C, 96, 64, 1, .ro, true, [⟨0, 32, 0, .k1, true⟩]⟩]

/-- Registers of the DOOR block (part 2). -/
def doorRows1 : List RegRow := [
  ⟨0x200C1010, 96, 64, 1, .ro, true, [⟨0, 16, 2000, .k1, true⟩, ⟨16, 16, 1000, .k1, true⟩]⟩,
  ⟨0x200C1014, 96, 64, 1, .ro, true, [⟨0, 16, 300, .k1, true⟩, ⟨16, 16, 2000, .k1, true⟩]⟩,
  ⟨0x200C1018, 96, 64, 1, .ro, true, [⟨0, 16, 500, .k1, true⟩, ⟨16, 16, 500, .k1, true⟩]⟩,
  ⟨0x200C101C, 96, 64, 1, .ro, true, [⟨0, 16, 1500, .k1, true⟩, ⟨16, 16, 0, .k1, true⟩]⟩,
  ⟨0x200C1020, 96, 64, 1, .ro, true, [⟨0, 16, 20000, .k1, true⟩, ⟨16, 4, 3, .k1, true⟩, ⟨20, 4, 3, .k1, true⟩, ⟨24, 4, 0, .k1, true⟩, ⟨28, 4, 4, .k1, true⟩]⟩,
  ⟨0x200C1024, 96, 64, 1, .ro, true, [⟨0, 16, 1000, .k1, true⟩, ⟨16, 16, 500, .k1, true⟩]⟩,
  ⟨0x200C1028, 96, 64, 1, .ro, true, [⟨0, 4, 2, .k1, true⟩, ⟨4, 4, 1, .k1, true⟩, ⟨8, 16, 300, .k1, true⟩, ⟨24, 8, 0, .k1, false⟩]⟩,
  ⟨0x200C102C, 96, 64, 1, .ro, true, [⟨0, 16, 0, .k1, true⟩, ⟨16, 16, 1000, .k1, true⟩]⟩,
  ⟨0x200C1030, 96, 64, 1, .ro, true, [⟨0, 8, 2, .k1, true⟩, ⟨8, 8, 16, .k1, true⟩, ⟨16, 16, 300, .k1, true⟩]⟩,
  ⟨0x200C3000, 96, 16, 1, .ro, false, [⟨0, 4, 0, .k1, true⟩, ⟨4, 4, 0, .k1, true⟩, ⟨8, 4, 0, .k1, true⟩, ⟨12, 4, 0, .k1, true⟩, ⟨16, 1, 0, .k1, true⟩, ⟨17, 1, 0, .k1, true⟩, ⟨18, 1, 0, .k1, true⟩, ⟨19, 1, 0, .k1, true⟩, ⟨20, 1, 0, .k1, true⟩, ⟨21, 11, 0, .k1, false⟩]⟩,
  ⟨0x200C3004, 96, 16, 1, .ro, false, [⟨0, 32, 0, .k0, true⟩]⟩,
  ⟨0x200C3008, 96, 16, 1, .ro, false, [⟨0, 16, 0, .k0, true⟩, ⟨16, 16, 0, .k0, true⟩]⟩,
  ⟨0x200C300C, 96, 16, 1, .ro, false, [⟨0, 8, 0, .k0, true⟩, ⟨8, 24, 0, .k0, false⟩]⟩,
  ⟨0x200C4000, 96, 32, 1, .ro, false, [⟨0, 32, 0, .k4, true⟩]⟩,
  ⟨0x200C4004, 96, 32, 1, .ro, false, [⟨0, 32, 0, .k4, true⟩]⟩,
  ⟨0x200C4008, 96, 32, 1, .ro, false, [⟨0, 32, 0, .k4, true⟩]⟩,
  ⟨0x200C400C, 96, 32, 1, .ro, false, [⟨0, 32, 0, .k4, true⟩]⟩,
  ⟨0x200C4010, 96, 32, 1, .ro, false, [⟨0, 32, 0, .k4, true⟩]⟩,
  ⟨0x200C4014, 96, 32, 1, .ro, false, [⟨0, 32, 0, .k4, true⟩]⟩,
  ⟨0x200C4018, 96, 32, 1, .ro, false, [⟨0, 32, 0, .k4, true⟩]⟩]

/-- Registers of the DOOR block (part 3). -/
def doorRows2 : List RegRow := [
  ⟨0x200C401C, 96, 32, 1, .ro, false, [⟨0, 32, 0, .k4, true⟩]⟩]

/-- Registers of the MOT block (part 1). -/
def motRows0 : List RegRow := [
  ⟨0x200D0000, 1, 4, 1, .rwg, false, [⟨0, 8, 4, .k1, true⟩, ⟨8, 1, 0, .k1, true⟩, ⟨9, 23, 0, .k1, false⟩]⟩,
  ⟨0x200D0004, 1, 4, 1, .ro, true, [⟨0, 16, 0, .k1, true⟩, ⟨16, 16, 0, .k1, true⟩]⟩,
  ⟨0x200D0008, 1, 4, 1, .ro, false, [⟨0, 1, 1, .k0, true⟩, ⟨1, 1, 0, .k0, true⟩, ⟨2, 7, 0, .k0, true⟩, ⟨9, 7, 0, .k0, true⟩, ⟨16, 7, 0, .k0, true⟩, ⟨23, 9, 0, .k0, false⟩]⟩,
  ⟨0x200D000C, 1, 4, 1, .ro, false, [⟨0, 16, 0, .k0, true⟩, ⟨16, 16, 0, .k0, false⟩]⟩,
  ⟨0x200D0010, 1, 4, 1, .ro, false, [⟨0, 16, 0, .k0, true⟩, ⟨16, 16, 0, .k0, false⟩]⟩,
  ⟨0x200D0080, 1, 4, 1, .ro, false, [⟨0, 32, 0, .k2, true⟩]⟩,
  ⟨0x200D0084, 1, 4, 1, .ro, false, [⟨0, 32, 0, .k2, true⟩]⟩,
  ⟨0x200D0088, 1, 4, 1, .ro, false, [⟨0, 32, 0, .k2, true⟩]⟩,
  ⟨0x200D008C, 1, 4, 1, .ro, false, [⟨0, 32, 0, .k2, true⟩]⟩,
  ⟨0x200D0090, 1, 4, 1, .ro, false, [⟨0, 32, 0, .k2, true⟩]⟩,
  ⟨0x200D0094, 1, 4, 1, .ro, false, [⟨0, 32, 0, .k2, true⟩]⟩,
  ⟨0x200D0098, 1, 4, 1, .ro, false, [⟨0, 32, 0, .k2, true⟩]⟩,
  ⟨0x200D009C, 1, 4, 1, .ro, false, [⟨0, 32, 0, .k2, true⟩]⟩,
  ⟨0x200D00A0, 1, 4, 1, .ro, false, [⟨0, 32, 0, .k2, true⟩]⟩,
  ⟨0x200D00A4, 1, 4, 1, .ro, false, [⟨0, 32, 0, .k2, true⟩]⟩,
  ⟨0x200D0400, 16, 16, 1, .ro, true, [⟨0, 32, 100000, .k1, true⟩]⟩,
  ⟨0x200D0404, 16, 16, 1, .ro, true, [⟨0, 16, 1000, .k1, true⟩, ⟨16, 16, 1000, .k1, true⟩]⟩,
  ⟨0x200D0408, 16, 16, 1, .ro, true, [⟨0, 32, 10000, .k1, true⟩]⟩,
  ⟨0x200D040C, 16, 16, 1, .ro, true, [⟨0, 16, 2000, .k1, true⟩, ⟨16, 16, 500, .k1, true⟩]⟩,
  ⟨0x200D1000, 96, 32, 1, .ro, true, [⟨0, 4, 0, .k1, true⟩, ⟨4, 4, 0, .k1, true⟩, ⟨8, 4, 0, .k1, true⟩, ⟨12, 4, 0, .k1, true⟩, ⟨16, 4, 0, .k1, true⟩, ⟨20, 4, 0, .k1, true⟩, ⟨24, 4, 0, .k1, true⟩, ⟨28, 4, 0, .k1, true⟩]⟩]

/-- Registers of the MOT block (part 2). -/
def motRows1 : List RegRow := [
  ⟨0x200D1004, 96, 32, 1, .ro, true, [⟨0, 32, 2147483648, .k1, true⟩]⟩,
  ⟨0x200D1008, 96, 32, 1, .ro, true, [⟨0, 32, 2147483647, .k1, true⟩]⟩,
  ⟨0x200D100C, 96, 32, 1, .ro, true, [⟨0, 1, 0, .k1, false⟩, ⟨1, 10, 1011, .k1, true⟩, ⟨11, 5, 0, .k1, false⟩, ⟨16, 8, 50, .k1, true⟩, ⟨24, 4, 0, .k1, true⟩, ⟨28, 4, 0, .k1, false⟩]⟩,
  ⟨0x200D1010, 96, 32, 1, .ro, true, [⟨0, 2, 0, .k1, true⟩, ⟨2, 1, 0, .k1, true⟩, ⟨3, 1, 0, .k1, true⟩, ⟨4, 8, 20, .k1, true⟩, ⟨12, 20, 10000, .k1, true⟩]⟩,
  ⟨0x200D1014, 96, 32, 1, .ro, true, [⟨0, 32, 0, .k1, true⟩]⟩,
  ⟨0x200D1018, 96, 32, 1, .ro, true, [⟨0, 32, 100000, .k1, true⟩]⟩,
  ⟨0x200D101C, 96, 32, 1, .ro, true, [⟨0, 16, 0, .k1, true⟩, ⟨16, 16, 0, .k1, false⟩]⟩,
  ⟨0x200D2000, 96, 32, 1, .ro, false, [⟨0, 3, 0, .k1, true⟩, ⟨3, 1, 0, .k2, true⟩, ⟨4, 4, 0, .k1, true⟩, ⟨8, 4, 0, .k1, true⟩, ⟨12, 3, 0, .k1, true⟩, ⟨15, 3, 0, .k1, true⟩, ⟨18, 1, 0, .k1, true⟩, ⟨19, 1, 0, .k1, true⟩, ⟨20, 1, 0, .k1, true⟩, ⟨21, 1, 0, .k1, true⟩, ⟨22, 1, 0, .k1, true⟩, ⟨23, 1, 0, .k1, true⟩, ⟨24, 1, 0, .k0, true⟩, ⟨25, 7, 0, .k1, false⟩]⟩,
  ⟨0x200D2004, 96, 32, 1, .ro, false, [⟨0, 32, 0, .k2, true⟩]⟩,
  ⟨0x200D2008, 96, 32, 1, .ro, false, [⟨0, 32, 0, .k0, true⟩]⟩,
  ⟨0x200D200C, 96, 32, 1, .ro, false, [⟨0, 32, 0, .k0, true⟩]⟩,
  ⟨0x200D2010, 96, 32, 1, .ro, false, [⟨0, 32, 0, .k1, true⟩]⟩,
  ⟨0x200D2014, 96, 32, 1, .ro, false, [⟨0, 32, 0, .k1, true⟩]⟩,
  ⟨0x200D3000, 8, 16, 1, .ro, true, [⟨0, 7, 0, .k1, true⟩, ⟨7, 1, 0, .k1, true⟩, ⟨8, 6, 0, .k1, true⟩, ⟨14, 6, 0, .k1, true⟩, ⟨20, 6, 0, .k1, true⟩, ⟨26, 1, 0, .k1, true⟩, ⟨27, 1, 0, .k1, true⟩, ⟨28, 4, 0, .k1, false⟩]⟩,
  ⟨0x200D3004, 8, 16, 1, .ro, true, [⟨0, 32, 1000, .k1, true⟩]⟩,
  ⟨0x200D3008, 8, 16, 1, .ro, true, [⟨0, 7, 0, .k1, true⟩, ⟨7, 7, 0, .k1, true⟩, ⟨14, 7, 0, .k1, true⟩, ⟨21, 7, 0, .k1, true⟩, ⟨28, 4, 0, .k1, false⟩]⟩,
  ⟨0x200D300C, 8, 16, 1, .ro, true, [⟨0, 7, 0, .k1, true⟩, ⟨7, 7, 0, .k1, true⟩, ⟨14, 7, 0, .k1, true⟩, ⟨21, 7, 0, .k1, false⟩, ⟨28, 4, 0, .k1, false⟩]⟩]

/-- Registers of the DIO block (part 1). -/
def dioRows0 : List RegRow := [
  ⟨0x200E0000, 1, 4, 1, .rwg, false, [⟨0, 8, 4, .k1, true⟩, ⟨8, 24, 0, .k1, false⟩]⟩,
  ⟨0x200E0004, 1, 4, 1, .ro, true, [⟨0, 16, 0, .k1, true⟩, ⟨16, 16, 0, .k1, true⟩]⟩,
  ⟨0x200E0008, 1, 4, 1, .ro, false, [⟨0, 1, 1, .k0, true⟩, ⟨1, 1, 0, .k0, true⟩, ⟨2, 1, 1, .k0, true⟩, ⟨3, 7, 0, .k0, true⟩, ⟨10, 22, 0, .k0, false⟩]⟩,
  ⟨0x200E0010, 1, 8, 2, .ro, false, [⟨0, 64, 0, .k0, true⟩]⟩,
  ⟨0x200E0018, 1, 8, 2, .ro, false, [⟨0, 64, 0, .k0, true⟩]⟩,
  ⟨0x200E0020, 1, 8, 2, .ro, false, [⟨0, 64, 0, .k0, true⟩]⟩,
  ⟨0x200E0040, 8, 4, 1, .ro, true, [⟨0, 3, 0, .k1, true⟩, ⟨3, 1, 0, .k1, true⟩, ⟨4, 28, 0, .k1, false⟩]⟩,
  ⟨0x200E0060, 8, 4, 1, .ro, false, [⟨0, 1, 0, .k0, true⟩, ⟨1, 1, 0, .k0, true⟩, ⟨2, 1, 0, .k0, true⟩, ⟨3, 1, 0, .k1, true⟩, ⟨4, 1, 0, .k1, true⟩, ⟨5, 11, 0, .k0, false⟩, ⟨16, 16, 0, .k0, true⟩]⟩,
  ⟨0x200E0080, 1, 4, 1, .ro, false, [⟨0, 32, 0, .k2, true⟩]⟩,
  ⟨0x200E0084, 1, 4, 1, .ro, false, [⟨0, 32, 0, .k2, true⟩]⟩,
  ⟨0x200E0088, 1, 4, 1, .ro, false, [⟨0, 32, 0, .k2, true⟩]⟩,
  ⟨0x200E008C, 1, 4, 1, .ro, false, [⟨0, 32, 0, .k2, true⟩]⟩,
  ⟨0x200E0090, 1, 4, 1, .ro, false, [⟨0, 32, 0, .k2, true⟩]⟩,
  ⟨0x200E1000, 64, 16, 1, .ro, true, [⟨0, 2, 0, .k1, true⟩, ⟨2, 1, 0, .k1, true⟩, ⟨3, 1, 0, .k1, true⟩, ⟨4, 1, 0, .k1, true⟩, ⟨5, 1, 0, .k1, true⟩, ⟨6, 8, 0, .k1, true⟩, ⟨14, 1, 0, .k1, true⟩, ⟨15, 8, 250, .k1, true⟩, ⟨23, 8, 80, .k1, true⟩, ⟨31, 1, 0, .k1, false⟩]⟩,
  ⟨0x200E1004, 64, 16, 1, .rwg, false, [⟨0, 12, 100, .k1, true⟩, ⟨12, 12, 100, .k1, true⟩, ⟨24, 8, 0, .k1, false⟩]⟩,
  ⟨0x200E1008, 64, 16, 1, .ro, false, [⟨0, 3, 0, .k0, true⟩, ⟨3, 1, 0, .k0, true⟩, ⟨4, 1, 0, .k0, true⟩, ⟨5, 1, 0, .k0, true⟩, ⟨6, 1, 0, .k0, true⟩, ⟨7, 1, 0, .k0, true⟩, ⟨8, 1, 0, .k1, true⟩, ⟨9, 23, 0, .k0, false⟩]⟩,
  ⟨0x200E100C, 64, 16, 1, .ro, true, [⟨0, 8, 5, .k1, true⟩, ⟨8, 24, 0, .k1, false⟩]⟩,
  ⟨0x200E2000, 64, 16, 1, .ro, false, [⟨0, 32, 0, .k2, true⟩]⟩,
  ⟨0x200E2004, 64, 16, 1, .ro, false, [⟨0, 32, 0, .k2, true⟩]⟩,
  ⟨0x200E2008, 64, 16, 1, .ro, false, [⟨0, 32, 0, .k2, true⟩]⟩]

/-- Registers of the DIO block (part 2). -/
def dioRows1 : List RegRow := [
  ⟨0x200E200C, 64, 16, 1, .ro, false, [⟨0, 32, 0, .k2, true⟩]⟩]

/-- Registers of the LOOP block (part 1). -/
def loopRows0 : List RegRow := [
  ⟨0x200F0000, 1, 4, 1, .rwg, false, [⟨0, 8, 4, .k1, true⟩, ⟨8, 24, 0, .k1, false⟩]⟩,
  ⟨0x200F0004, 1, 4, 1, .ro, true, [⟨0, 16, 0, .k1, true⟩, ⟨16, 16, 0, .k1, true⟩]⟩,
  ⟨0x200F0008, 1, 4, 1, .wo, false, [⟨0, 4, 0, .k0, true⟩, ⟨4, 28, 0, .k0, false⟩]⟩,
  ⟨0x200F0080, 1, 4, 1, .ro, false, [⟨0, 32, 0, .k2, true⟩]⟩,
  ⟨0x200F0084, 1, 4, 1, .ro, false, [⟨0, 32, 0, .k2, true⟩]⟩,
  ⟨0x200F0088, 1, 4, 1, .ro, false, [⟨0, 32, 0, .k2, true⟩]⟩,
  ⟨0x200F008C, 1, 4, 1, .ro, false, [⟨0, 32, 0, .k2, true⟩]⟩,
  ⟨0x200F0090, 1, 4, 1, .ro, false, [⟨0, 32, 0, .k2, true⟩]⟩,
  ⟨0x200F0094, 1, 4, 1, .ro, false, [⟨0, 32, 0, .k2, true⟩]⟩,
  ⟨0x200F0100, 4, 32, 1, .ro, true, [⟨0, 2, 0, .k1, true⟩, ⟨2, 1, 0, .k1, true⟩, ⟨3, 5, 0, .k1, false⟩, ⟨8, 8, 0, .k1, true⟩, ⟨16, 16, 3600, .k1, true⟩]⟩,
  ⟨0x200F0104, 4, 32, 1, .ro, true, [⟨0, 16, 3600, .k1, true⟩, ⟨16, 16, 200, .k1, true⟩]⟩,
  ⟨0x200F0108, 4, 32, 1, .ro, true, [⟨0, 16, 100, .k1, true⟩, ⟨16, 8, 5, .k1, true⟩, ⟨24, 8, 0, .k1, true⟩]⟩,
  ⟨0x200F010C, 4, 32, 1, .ro, false, [⟨0, 1, 0, .k0, true⟩, ⟨1, 1, 0, .k0, true⟩, ⟨2, 1, 0, .k0, true⟩, ⟨3, 1, 0, .k0, true⟩, ⟨4, 1, 0, .k0, true⟩, ⟨5, 1, 0, .k0, true⟩, ⟨6, 1, 0, .k0, true⟩, ⟨7, 1, 0, .k0, true⟩, ⟨8, 10, 0, .k0, true⟩, ⟨18, 14, 0, .k0, false⟩]⟩,
  ⟨0x200F0110, 4, 32, 1, .ro, false, [⟨0, 16, 0, .k0, true⟩, ⟨16, 16, 0, .k0, true⟩]⟩,
  ⟨0x200F0114, 4, 32, 1, .wo, false, [⟨0, 9, 0, .k0, true⟩, ⟨9, 1, 0, .k0, true⟩, ⟨10, 22, 0, .k0, false⟩]⟩,
  ⟨0x200F0118, 4, 32, 1, .ro, false, [⟨0, 8, 0, .k0, true⟩, ⟨8, 1, 0, .k0, true⟩, ⟨9, 1, 0, .k0, true⟩, ⟨10, 1, 0, .k0, true⟩, ⟨11, 1, 0, .k0, true⟩, ⟨12, 20, 0, .k0, false⟩]⟩,
  ⟨0x200F1000, 72, 4, 1, .rwi, false, [⟨0, 32, 0, .k0, true⟩]⟩,
  ⟨0x200F1200, 72, 4, 1, .rwi, false, [⟨0, 32, 0, .k0, true⟩]⟩,
  ⟨0x200F1400, 72, 4, 1, .rwi, false, [⟨0, 32, 0, .k0, true⟩]⟩,
  ⟨0x200F1600, 72, 4, 1, .rwi, false, [⟨0, 32, 0, .k0, true⟩]⟩]

/-- Registers of the BRG block (part 1). -/
def brgRows0 : List RegRow := [
  ⟨0x20100000, 1, 4, 1, .rwg, false, [⟨0, 1, 0, .k1, true⟩, ⟨1, 7, 64, .k1, true⟩, ⟨8, 8, 10, .k1, true⟩, ⟨16, 16, 100, .k1, true⟩]⟩,
  ⟨0x20100004, 1, 4, 1, .ro, false, [⟨0, 1, 1, .k0, true⟩, ⟨1, 1, 0, .k0, true⟩, ⟨2, 8, 0, .k0, true⟩, ⟨10, 5, 0, .k0, true⟩, ⟨15, 5, 0, .k0, true⟩, ⟨20, 5, 0, .k0, true⟩, ⟨25, 7, 0, .k0, false⟩]⟩,
  ⟨0x20100008, 1, 4, 1, .wo, false, [⟨0, 1, 0, .k0, true⟩, ⟨1, 31, 0, .k0, false⟩]⟩,
  ⟨0x20100010, 1, 8, 2, .ro, false, [⟨0, 32, 0, .k0, true⟩, ⟨32, 4, 0, .k0, true⟩, ⟨36, 3, 0, .k0, true⟩, ⟨39, 25, 0, .k0, false⟩]⟩,
  ⟨0x20100080, 1, 4, 1, .ro, false, [⟨0, 32, 0, .k2, true⟩]⟩,
  ⟨0x20100084, 1, 4, 1, .ro, false, [⟨0, 32, 0, .k2, true⟩]⟩,
  ⟨0x20100088, 1, 4, 1, .ro, false, [⟨0, 32, 0, .k2, true⟩]⟩,
  ⟨0x2010008C, 1, 4, 1, .ro, false, [⟨0, 32, 0, .k2, true⟩]⟩,
  ⟨0x20100090, 1, 4, 1, .ro, false, [⟨0, 32, 0, .k2, true⟩]⟩,
  ⟨0x20100094, 1, 4, 1, .ro, false, [⟨0, 32, 0, .k2, true⟩]⟩,
  ⟨0x20100098, 1, 4, 1, .ro, false, [⟨0, 32, 0, .k2, true⟩]⟩,
  ⟨0x2010009C, 1, 4, 1, .ro, false, [⟨0, 32, 0, .k2, true⟩]⟩,
  ⟨0x201000A0, 1, 4, 1, .ro, false, [⟨0, 32, 0, .k2, true⟩]⟩,
  ⟨0x201000A4, 1, 4, 1, .ro, false, [⟨0, 32, 0, .k2, true⟩]⟩,
  ⟨0x201000A8, 1, 4, 1, .ro, false, [⟨0, 32, 0, .k2, true⟩]⟩,
  ⟨0x201000AC, 1, 4, 1, .ro, false, [⟨0, 32, 0, .k2, true⟩]⟩,
  ⟨0x201000B0, 1, 4, 1, .ro, false, [⟨0, 32, 0, .k2, true⟩]⟩,
  ⟨0x201000B4, 1, 4, 1, .ro, false, [⟨0, 32, 0, .k2, true⟩]⟩,
  ⟨0x20100100, 16, 16, 1, .rwg, false, [⟨0, 32, 0, .k1, true⟩]⟩,
  ⟨0x20100104, 16, 16, 1, .rwg, false, [⟨0, 1, 0, .k1, true⟩, ⟨1, 1, 0, .k1, true⟩, ⟨2, 1, 0, .k1, true⟩, ⟨3, 1, 0, .k1, true⟩, ⟨4, 5, 16, .k1, true⟩, ⟨9, 23, 0, .k1, false⟩]⟩]

/-- Registers of the BRG block (part 2). -/
def brgRows1 : List RegRow := [
  ⟨0x20100108, 16, 16, 1, .rwg, false, [⟨0, 32, 0, .k1, true⟩]⟩,
  ⟨0x20100200, 8, 16, 1, .rwg, false, [⟨0, 32, 0, .k1, true⟩]⟩,
  ⟨0x20100204, 8, 16, 1, .rwg, false, [⟨0, 1, 0, .k1, true⟩, ⟨1, 1, 0, .k1, true⟩, ⟨2, 2, 0, .k1, false⟩, ⟨4, 5, 12, .k1, true⟩, ⟨9, 23, 0, .k1, false⟩]⟩,
  ⟨0x20100208, 8, 16, 1, .rwg, false, [⟨0, 32, 0, .k1, true⟩]⟩]

/-- Registers of the GW block (part 1). -/
def gwRows0 : List RegRow := [
  ⟨0x20110000, 1, 4, 1, .ro, true, [⟨0, 1, 0, .k1, true⟩, ⟨1, 15, 0, .k1, false⟩, ⟨16, 16, 0, .k1, true⟩]⟩,
  ⟨0x20110004, 1, 4, 1, .ro, false, [⟨0, 1, 0, .k1, true⟩, ⟨1, 1, 0, .k0, true⟩, ⟨2, 30, 0, .k0, false⟩]⟩,
  ⟨0x20110008, 1, 4, 1, .wo, false, [⟨0, 1, 0, .k0, true⟩, ⟨1, 31, 0, .k0, false⟩]⟩,
  ⟨0x2011000C, 1, 4, 1, .ro, false, [⟨0, 14, 0, .k0, true⟩, ⟨14, 1, 0, .k0, true⟩, ⟨15, 1, 0, .k0, false⟩, ⟨16, 14, 0, .k0, true⟩, ⟨30, 2, 0, .k0, false⟩]⟩,
  ⟨0x20110080, 1, 4, 1, .ro, false, [⟨0, 32, 0, .k2, true⟩]⟩,
  ⟨0x20110084, 1, 4, 1, .ro, false, [⟨0, 32, 0, .k2, true⟩]⟩,
  ⟨0x20110088, 1, 4, 1, .ro, false, [⟨0, 32, 0, .k2, true⟩]⟩,
  ⟨0x2011008C, 1, 4, 1, .ro, false, [⟨0, 32, 0, .k2, true⟩]⟩,
  ⟨0x20110400, 1, 4, 1, .ro, true, [⟨0, 12, 0, .k1, true⟩, ⟨12, 1, 0, .k1, true⟩, ⟨13, 19, 0, .k1, false⟩]⟩,
  ⟨0x20110404, 1, 4, 1, .ro, false, [⟨0, 1, 0, .k0, true⟩, ⟨1, 1, 0, .k0, true⟩, ⟨2, 1, 0, .k0, true⟩, ⟨3, 1, 0, .k0, true⟩, ⟨4, 12, 0, .k0, false⟩, ⟨16, 16, 0, .k0, true⟩]⟩,
  ⟨0x20110480, 1, 4, 1, .ro, false, [⟨0, 32, 0, .k2, true⟩]⟩,
  ⟨0x20110484, 1, 4, 1, .ro, false, [⟨0, 32, 0, .k2, true⟩]⟩,
  ⟨0x20110488, 1, 4, 1, .ro, false, [⟨0, 32, 0, .k2, true⟩]⟩,
  ⟨0x2011048C, 1, 4, 1, .ro, false, [⟨0, 32, 0, .k2, true⟩]⟩,
  ⟨0x20110490, 1, 4, 1, .ro, false, [⟨0, 32, 0, .k2, true⟩]⟩,
  ⟨0x20110494, 1, 4, 1, .ro, false, [⟨0, 32, 0, .k2, true⟩]⟩,
  ⟨0x20111000, 256, 8, 1, .ro, true, [⟨0, 12, 0, .k1, true⟩, ⟨12, 3, 0, .k1, true⟩, ⟨15, 1, 0, .k1, true⟩, ⟨16, 1, 0, .k1, true⟩, ⟨17, 1, 0, .k1, true⟩, ⟨18, 14, 0, .k1, false⟩]⟩,
  ⟨0x20111004, 256, 8, 1, .ro, true, [⟨0, 16, 100, .k1, true⟩, ⟨16, 16, 0, .k1, false⟩]⟩,
  ⟨0x20111800, 256, 4, 1, .ro, false, [⟨0, 16, 65535, .k0, true⟩, ⟨16, 1, 1, .k0, true⟩, ⟨17, 15, 0, .k0, false⟩]⟩]

/-- Registers of the TWIN block (part 1). -/
def twinRows0 : List RegRow := [
  ⟨0x20120000, 1, 4, 1, .rwg, false, [⟨0, 1, 1, .k1, true⟩, ⟨1, 7, 0, .k1, false⟩, ⟨8, 8, 16, .k1, true⟩, ⟨16, 16, 0, .k1, false⟩]⟩,
  ⟨0x20120004, 1, 4, 1, .ro, true, [⟨0, 1, 0, .k1, true⟩, ⟨1, 15, 0, .k1, false⟩, ⟨16, 16, 0, .k1, true⟩]⟩,
  ⟨0x20120008, 1, 4, 1, .ro, true, [⟨0, 16, 0, .k1, true⟩, ⟨16, 16, 0, .k1, true⟩]⟩,
  ⟨0x2012000C, 1, 4, 1, .wo, false, [⟨0, 2, 0, .k0, true⟩, ⟨2, 30, 0, .k0, false⟩]⟩,
  ⟨0x20120010, 1, 4, 1, .ro, false, [⟨0, 2, 0, .k0, true⟩, ⟨2, 1, 0, .k0, true⟩, ⟨3, 1, 0, .k0, true⟩, ⟨4, 3, 0, .k0, true⟩, ⟨7, 2, 0, .k0, true⟩, ⟨9, 1, 0, .k0, true⟩, ⟨10, 1, 0, .k0, true⟩, ⟨11, 1, 0, .k0, true⟩, ⟨12, 2, 0, .k0, true⟩, ⟨14, 1, 0, .k0, true⟩, ⟨15, 1, 0, .k0, true⟩, ⟨16, 16, 0, .k0, false⟩]⟩,
  ⟨0x20120014, 1, 4, 1, .ro, false, [⟨0, 32, 0, .k0, true⟩]⟩,
  ⟨0x20120018, 1, 4, 1, .ro, false, [⟨0, 32, 0, .k0, true⟩]⟩,
  ⟨0x2012001C, 1, 4, 1, .ro, false, [⟨0, 32, 0, .k0, true⟩]⟩,
  ⟨0x20120020, 1, 4, 1, .ro, false, [⟨0, 12, 0, .k3, true⟩, ⟨12, 20, 0, .k3, false⟩]⟩,
  ⟨0x20120024, 1, 4, 1, .ro, false, [⟨0, 4, 1, .k1, true⟩, ⟨4, 4, 1, .k1, true⟩, ⟨8, 4, 0, .k0, true⟩, ⟨12, 4, 1, .k1, true⟩, ⟨16, 4, 1, .k1, true⟩, ⟨20, 4, 0, .k0, true⟩, ⟨24, 4, 0, .k0, true⟩, ⟨28, 4, 0, .k0, true⟩]⟩,
  ⟨0x20120028, 1, 8, 2, .ro, false, [⟨0, 64, 0, .k4, true⟩]⟩,
  ⟨0x20120030, 1, 4, 1, .ro, false, [⟨0, 32, 0, .k0, true⟩]⟩,
  ⟨0x20120034, 1, 4, 1, .ro, false, [⟨0, 1, 0, .k0, true⟩]⟩,
  ⟨0x20120038, 1, 4, 1, .ro, false, [⟨0, 32, 0, .k0, true⟩]⟩,
  ⟨0x2012003C, 1, 4, 1, .ro, false, [⟨0, 32, 0, .k0, true⟩]⟩,
  ⟨0x20120040, 1, 4, 1, .ro, false, [⟨0, 32, 0, .k0, true⟩]⟩,
  ⟨0x20120080, 1, 4, 1, .ro, false, [⟨0, 32, 0, .k2, true⟩]⟩,
  ⟨0x20120084, 1, 4, 1, .ro, false, [⟨0, 32, 0, .k2, true⟩]⟩,
  ⟨0x20120088, 1, 4, 1, .ro, false, [⟨0, 32, 0, .k2, true⟩]⟩,
  ⟨0x2012008C, 1, 4, 1, .ro, false, [⟨0, 32, 0, .k2, true⟩]⟩]

/-- Registers of the TWIN block (part 2). -/
def twinRows1 : List RegRow := [
  ⟨0x20120090, 1, 4, 1, .ro, false, [⟨0, 32, 0, .k2, true⟩]⟩,
  ⟨0x20120094, 1, 4, 1, .ro, false, [⟨0, 32, 0, .k2, true⟩]⟩,
  ⟨0x20120098, 1, 4, 1, .ro, false, [⟨0, 32, 0, .k2, true⟩]⟩,
  ⟨0x2012009C, 1, 4, 1, .ro, false, [⟨0, 32, 0, .k2, true⟩]⟩,
  ⟨0x201200A0, 1, 4, 1, .ro, false, [⟨0, 32, 0, .k2, true⟩]⟩,
  ⟨0x201200A4, 1, 4, 1, .ro, false, [⟨0, 32, 0, .k2, true⟩]⟩,
  ⟨0x201200A8, 1, 4, 1, .ro, false, [⟨0, 32, 0, .k2, true⟩]⟩,
  ⟨0x201200AC, 1, 4, 1, .ro, false, [⟨0, 32, 0, .k2, true⟩]⟩,
  ⟨0x201200B0, 1, 4, 1, .ro, false, [⟨0, 32, 0, .k2, true⟩]⟩,
  ⟨0x201200B4, 1, 4, 1, .ro, false, [⟨0, 32, 0, .k2, true⟩]⟩]

/-- Registers of the REC block (part 1). -/
def recRows0 : List RegRow := [
  ⟨0x20130000, 1, 4, 1, .rwg, false, [⟨0, 1, 1, .k1, true⟩, ⟨1, 31, 0, .k1, false⟩]⟩,
  ⟨0x20130004, 1, 4, 1, .ro, false, [⟨0, 1, 0, .k0, true⟩, ⟨1, 1, 0, .k0, true⟩, ⟨2, 2, 0, .k0, true⟩, ⟨4, 1, 0, .k0, true⟩, ⟨5, 8, 0, .k0, true⟩, ⟨13, 1, 0, .k0, true⟩, ⟨14, 18, 0, .k0, false⟩]⟩,
  ⟨0x20130008, 1, 4, 1, .ro, false, [⟨0, 32, 0, .k0, true⟩]⟩,
  ⟨0x20130010, 4, 16, 1, .ro, false, [⟨0, 21, 0, .k0, true⟩]⟩,
  ⟨0x20130014, 4, 16, 1, .ro, false, [⟨0, 21, 0, .k0, true⟩]⟩,
  ⟨0x20130018, 4, 16, 1, .ro, false, [⟨0, 21, 0, .k0, true⟩]⟩,
  ⟨0x2013001C, 1, 4, 1, .ro, false, [⟨0, 21, 131072, .k4, true⟩]⟩,
  ⟨0x2013002C, 1, 4, 1, .ro, false, [⟨0, 21, 1572864, .k4, true⟩]⟩,
  ⟨0x2013003C, 1, 4, 1, .ro, false, [⟨0, 21, 262144, .k4, true⟩]⟩,
  ⟨0x2013004C, 1, 4, 1, .ro, false, [⟨0, 21, 114688, .k4, true⟩]⟩,
  ⟨0x20130080, 1, 4, 1, .ro, false, [⟨0, 32, 0, .k2, true⟩]⟩,
  ⟨0x20130084, 1, 4, 1, .ro, false, [⟨0, 32, 0, .k2, true⟩]⟩,
  ⟨0x20130088, 1, 4, 1, .ro, false, [⟨0, 32, 0, .k2, true⟩]⟩,
  ⟨0x2013008C, 1, 4, 1, .ro, false, [⟨0, 32, 0, .k2, true⟩]⟩,
  ⟨0x20130090, 1, 4, 1, .ro, false, [⟨0, 32, 0, .k2, true⟩]⟩,
  ⟨0x20130094, 1, 4, 1, .ro, false, [⟨0, 32, 0, .k2, true⟩]⟩,
  ⟨0x20130098, 1, 4, 1, .ro, false, [⟨0, 32, 0, .k2, true⟩]⟩,
  ⟨0x2013009C, 1, 4, 1, .ro, false, [⟨0, 32, 0, .k2, true⟩]⟩,
  ⟨0x201300A0, 1, 4, 1, .ro, false, [⟨0, 32, 0, .k2, true⟩]⟩,
  ⟨0x201300A4, 1, 4, 1, .ro, false, [⟨0, 32, 0, .k2, true⟩]⟩]

/-- Registers of the REC block (part 2). -/
def recRows1 : List RegRow := [
  ⟨0x201300A8, 1, 4, 1, .ro, false, [⟨0, 32, 0, .k2, true⟩]⟩,
  ⟨0x201300AC, 1, 4, 1, .ro, false, [⟨0, 32, 0, .k3, true⟩]⟩,
  ⟨0x20130100, 1, 4, 1, .wo, false, [⟨0, 3, 0, .k0, true⟩, ⟨3, 21, 0, .k0, true⟩, ⟨24, 8, 0, .k0, false⟩]⟩,
  ⟨0x20130140, 16, 4, 1, .ro, false, [⟨0, 32, 0, .k0, true⟩]⟩,
  ⟨0x20130180, 1, 4, 1, .wo, false, [⟨0, 32, 0, .k0, true⟩]⟩,
  ⟨0x20130184, 1, 4, 1, .wo, false, [⟨0, 4, 0, .k0, true⟩, ⟨4, 4, 0, .k0, false⟩, ⟨8, 8, 0, .k0, true⟩, ⟨16, 16, 0, .k0, false⟩]⟩,
  ⟨0x20130188, 1, 4, 1, .wo, false, [⟨0, 5, 0, .k0, true⟩]⟩,
  ⟨0x2013018C, 1, 4, 1, .wo, false, [⟨0, 2, 0, .k0, true⟩]⟩,
  ⟨0x20130190, 1, 8, 2, .rwi, false, [⟨0, 64, 0, .k0, true⟩]⟩,
  ⟨0x201301A0, 8, 4, 1, .rwi, false, [⟨0, 32, 0, .k0, true⟩]⟩,
  ⟨0x20131000, 32, 8, 1, .ro, true, [⟨0, 1, 0, .k1, true⟩, ⟨1, 2, 0, .k1, true⟩, ⟨3, 1, 0, .k1, true⟩, ⟨4, 9, 0, .k1, true⟩, ⟨13, 8, 0, .k1, true⟩, ⟨21, 1, 0, .k1, true⟩, ⟨22, 10, 0, .k1, false⟩]⟩,
  ⟨0x20131004, 32, 8, 1, .ro, true, [⟨0, 11, 0, .k1, true⟩, ⟨11, 7, 0, .k1, true⟩, ⟨18, 14, 100, .k1, true⟩]⟩,
  ⟨0x20132000, 2048, 4, 1, .ro, true, [⟨0, 2, 0, .k1, false⟩, ⟨2, 30, 0, .k1, true⟩]⟩]

/-- Registers of the UPD block (part 1). -/
def updRows0 : List RegRow := [
  ⟨0x20140000, 1, 4, 1, .ro, true, [⟨0, 12, 600, .k1, true⟩, ⟨12, 3, 2, .k1, true⟩, ⟨15, 1, 0, .k1, false⟩, ⟨16, 2, 3, .k1, true⟩, ⟨18, 14, 0, .k1, false⟩]⟩,
  ⟨0x20140004, 1, 4, 1, .ro, true, [⟨0, 20, 8000, .k1, true⟩, ⟨20, 8, 6, .k1, true⟩, ⟨28, 4, 9, .k1, true⟩]⟩,
  ⟨0x20140008, 1, 4, 1, .ro, true, [⟨0, 6, 0, .k1, true⟩, ⟨6, 1, 0, .k1, true⟩, ⟨7, 9, 0, .k1, false⟩, ⟨16, 16, 0, .k1, true⟩]⟩,
  ⟨0x2014000C, 1, 4, 1, .ro, false, [⟨0, 1, 0, .k1, true⟩, ⟨1, 1, 0, .k1, true⟩, ⟨2, 2, 0, .k1, true⟩, ⟨4, 2, 0, .k0, true⟩, ⟨6, 1, 0, .k0, true⟩, ⟨7, 1, 0, .k0, true⟩, ⟨8, 5, 0, .k0, true⟩, ⟨13, 1, 0, .k0, true⟩, ⟨14, 1, 0, .k3, true⟩, ⟨15, 1, 0, .k0, false⟩, ⟨16, 8, 0, .k0, true⟩, ⟨24, 4, 0, .k1, true⟩, ⟨28, 4, 0, .k0, false⟩]⟩,
  ⟨0x20140010, 2, 4, 1, .ro, false, [⟨0, 3, 0, .k4, true⟩, ⟨3, 3, 0, .k4, true⟩, ⟨6, 6, 0, .k4, true⟩, ⟨12, 20, 0, .k4, false⟩]⟩,
  ⟨0x20140018, 1, 4, 1, .ro, false, [⟨0, 12, 0, .k0, true⟩]⟩,
  ⟨0x2014001C, 1, 4, 1, .ro, false, [⟨0, 20, 0, .k0, true⟩]⟩,
  ⟨0x20140020, 1, 4, 1, .wo, false, [⟨0, 1, 0, .k0, true⟩, ⟨1, 1, 0, .k0, true⟩, ⟨2, 30, 0, .k0, false⟩]⟩,
  ⟨0x20140024, 1, 4, 1, .wo, false, [⟨0, 32, 0, .k0, true⟩]⟩,
  ⟨0x20140028, 1, 4, 1, .ro, false, [⟨0, 4, 1, .k1, true⟩, ⟨4, 4, 1, .k1, true⟩, ⟨8, 4, 0, .k1, true⟩, ⟨12, 20, 0, .k1, false⟩]⟩,
  ⟨0x2014002C, 1, 4, 1, .ro, false, [⟨0, 4, 0, .k4, true⟩, ⟨4, 4, 0, .k4, true⟩, ⟨8, 4, 0, .k4, true⟩, ⟨12, 4, 0, .k4, true⟩, ⟨16, 6, 0, .k4, true⟩, ⟨22, 10, 0, .k4, false⟩]⟩,
  ⟨0x20140030, 1, 8, 2, .ro, false, [⟨0, 64, 0, .k1, true⟩]⟩,
  ⟨0x20140038, 1, 8, 2, .ro, false, [⟨0, 64, 0, .k0, true⟩]⟩,
  ⟨0x20140040, 1, 8, 2, .ro, false, [⟨0, 64, 0, .k0, true⟩]⟩,
  ⟨0x20140048, 1, 4, 1, .ro, false, [⟨0, 16, 0, .k1, true⟩]⟩,
  ⟨0x20140080, 1, 4, 1, .ro, false, [⟨0, 32, 0, .k3, true⟩]⟩,
  ⟨0x20140084, 1, 4, 1, .ro, false, [⟨0, 32, 0, .k3, true⟩]⟩,
  ⟨0x20140088, 1, 4, 1, .ro, false, [⟨0, 32, 0, .k2, true⟩]⟩,
  ⟨0x2014008C, 1, 4, 1, .ro, false, [⟨0, 32, 0, .k2, true⟩]⟩,
  ⟨0x20140090, 1, 4, 1, .ro, false, [⟨0, 32, 0, .k2, true⟩]⟩]

/-- Registers of the UPD block (part 2). -/
def updRows1 : List RegRow := [
  ⟨0x20140094, 1, 4, 1, .ro, false, [⟨0, 32, 0, .k2, true⟩]⟩,
  ⟨0x20140098, 1, 4, 1, .ro, false, [⟨0, 32, 0, .k2, true⟩]⟩,
  ⟨0x2014009C, 1, 4, 1, .ro, false, [⟨0, 32, 0, .k2, true⟩]⟩,
  ⟨0x201400A0, 1, 4, 1, .ro, false, [⟨0, 32, 0, .k2, true⟩]⟩,
  ⟨0x201400A4, 1, 4, 1, .ro, false, [⟨0, 32, 0, .k2, true⟩]⟩,
  ⟨0x201400A8, 1, 4, 1, .ro, false, [⟨0, 32, 0, .k2, true⟩]⟩]

/-- Registers of the OBS block (part 1). -/
def obsRows0 : List RegRow := [
  ⟨0x20150000, 1, 4, 1, .rw, false, [⟨0, 1, 0, .k1, true⟩, ⟨1, 6, 63, .k1, true⟩, ⟨7, 4, 15, .k1, true⟩, ⟨11, 21, 0, .k1, false⟩]⟩,
  ⟨0x20150004, 1, 4, 1, .ro, false, [⟨0, 1, 0, .k0, true⟩, ⟨1, 1, 0, .k0, true⟩, ⟨2, 12, 0, .k0, true⟩, ⟨14, 18, 0, .k0, false⟩]⟩,
  ⟨0x20150008, 1, 4, 1, .rw, false, [⟨0, 16, 4, .k1, true⟩, ⟨16, 16, 10, .k1, true⟩]⟩,
  ⟨0x2015000C, 1, 4, 1, .ro, false, [⟨0, 32, 0, .k2, true⟩]⟩,
  ⟨0x20150080, 1, 4, 1, .ro, false, [⟨0, 32, 0, .k2, true⟩]⟩,
  ⟨0x20150084, 1, 4, 1, .ro, false, [⟨0, 32, 0, .k2, true⟩]⟩,
  ⟨0x20150088, 1, 4, 1, .ro, false, [⟨0, 32, 0, .k2, true⟩]⟩,
  ⟨0x20151000, 64, 4, 1, .ro, false, [⟨0, 32, 0, .k2, true⟩]⟩,
  ⟨0x20151100, 64, 4, 1, .ro, false, [⟨0, 32, 0, .k2, true⟩]⟩,
  ⟨0x20151200, 64, 4, 1, .ro, false, [⟨0, 32, 0, .k2, true⟩]⟩]

/-- The registers of the MMIO block with offset `b` (R24), in no particular order. -/
def blockRows (b : Nat) : List RegRow :=
  match b with
  | 0 => sysRows0
  | 1 => clkRows0
  | 2 => pwrRows0
  | 3 => reggRows0
  | 4 => triRows0
  | 5 => cycRows0 ++ cycRows1
  | 6 => laneRows0 ++ laneRows1
  | 7 => ecnRows0 ++ ecnRows1
  | 8 => timeRows0 ++ timeRows1
  | 9 => safeRows0 ++ safeRows1
  | 10 => crcRows0
  | 11 => tripRows0 ++ tripRows1
  | 12 => doorRows0 ++ doorRows1 ++ doorRows2
  | 13 => motRows0 ++ motRows1
  | 14 => dioRows0 ++ dioRows1
  | 15 => loopRows0
  | 16 => brgRows0 ++ brgRows1
  | 17 => gwRows0
  | 18 => twinRows0 ++ twinRows1
  | 19 => recRows0 ++ recRows1
  | 20 => updRows0 ++ updRows1
  | 21 => obsRows0
  | _ => []

end Sys2Proof.Machine
end

