-- ==== Sys2Proof/Machine/State.lean ====
section
/-! DEFINITION. Machine/State.lean: everything the spec gives the block, as plain data, and the state after reset.
Software-visible registers have one home, `regs` (applied values) and `pend` (pending values, R39), as words by address;
memories are one byte map by address; what no register shows stands in one structure per block. -/
namespace Sys2Proof.Machine


/-- Why a command stops the model. -/
inductive Fault where
  /-- Raised by register writes: a reserved bit written with a value other than the one read from it (R49, R57: the
  module's behaviour is undefined). Safe: the run stops where the spec says nothing. -/
  | reservedBitWrite
  /-- Raised by table window writes: a signal-map entry of the active bank written (R57). Safe. -/
  | activeMapBankWrite
  /-- Raised by table window writes: a cadence bank written while in use (R57). Safe. -/
  | cadenceBankInUse
  /-- Raised by scheduled sending: a cadence entry that violates the express reserve is in use (R21, R57). Safe. -/
  | expressReserve
  /-- Raised by bridge accesses: outbound or inbound windows overlap where the access falls (R57). Safe. -/
  | overlappingWindows
  /-- Raised by writes of the boot supervisor: the partition of a Tricycle core written while that core runs (R57). Safe. -/
  | runningCoreMemory
  deriving DecidableEq, Repr

/-- Why a command has no meaning here. -/
inductive Refusal where
  /-- Raised by an arm of `exec` whose command has no meaning yet. Safe. -/
  | notModelled (mnemonic : String)
  deriving DecidableEq, Repr

/-- A held unlock (R41): the block it names and the local tick edges since it was written. -/
structure Unlock where
  block : Nat
  edges : Nat
  deriving DecidableEq, Repr

/-- Register guard state that no register shows (R41, R53). -/
structure Regg where
  /-- held unlocks, by initiator number -/
  unlocks : SMap Unlock
  /-- local tick edges since the edge that opened the grace period -/
  graceEdges : Nat
  /-- 1 from a CORE or DOMAIN reset until the edge that opens its grace period -/
  waitEdge : Bool
  deriving DecidableEq, Repr

/-- The access fault last raised in an initiator's core (R23, R36): the address, and whether it was a store. -/
structure Trap where
  store : Bool
  addr : Nat
  deriving DecidableEq, Repr

/-- A record waiting for the recorder (R454): its partition, its 56 bytes before CRC and MARK (SEQ filled in when it is
written), and for a door record its axis and the lifetime counters to write with it (R462). -/
structure QRec where
  part : Nat
  body : List Byte
  door : Option (Nat × List Nat)
  deriving DecidableEq, Repr

/-- A running clear (R467): partition, token, and the 32 DATA bytes of its CODE 1 record once that record has its MARK. -/
structure ClearRun where
  part : Nat
  token : Nat
  begun : Option (List Byte)
  deriving DecidableEq, Repr

/-- A snapshot capture waiting or running (R459, R461): trigger, LANE and CONSIST at the trigger, trigger kind, and the
word at 0x28 of the head record. -/
structure Capture where
  trig : Nat
  lane : Nat
  consist : Nat
  kind : Nat
  source : Nat
  deriving DecidableEq, Repr

/-- Recorder state that no register shows. -/
structure Rec where
  /-- records waiting, oldest first, at most 128 (R454) -/
  queue : List QRec
  /-- the CLEAR LOG's own counter: SEQ of its next record (R452) -/
  clearSeq : Nat
  clear : Option ClearRun
  /-- captures waiting, and the one running -/
  waiting : List Capture
  running : Option Capture
  /-- local ticks since each trigger's previous capture, where it has one (R459) -/
  since : SMap Nat
  /-- the SEQ kept for the head record of the snapshot whose data records are being written (R461) -/
  headSeq : Option Nat
  deriving DecidableEq, Repr

/-- Observation unit state that no register shows (R496 to R499). -/
structure Obs where
  /-- packets in the buffer, oldest first -/
  buf : List (List Byte)
  pseq : Nat
  /-- packets dropped since the previous LOSS packet -/
  lost : Nat
  /-- local ticks since the last publication, where there was one (H1) -/
  pubTicks : Option Nat
  /-- lane counters at the start of the present macrocycle, by 4 × lane + kind (LANE packets) -/
  laneBase : SMap Nat
  deriving DecidableEq, Repr


/-- The states of a Tricycle core (R83). -/
inductive CoreSt where
  | held | run | excluded | copy | ready | retired
  deriving DecidableEq, Repr

/-- A signature delivered for a window (R62, R76): `none` is an invalid one; `last` marks the window CYC_DONE closed;
LOCAL ns of the delivery. -/
structure Win where
  sig : Option DWord
  last : Bool
  at_ : Nat
  deriving DecidableEq, Repr

/-- An unresolved DEVICE store (R73): store `k` of window `win`, with address, size and data, and LOCAL ns of its issue. -/
structure DStore where
  win : Nat
  k : Nat
  addr : Nat
  size : Nat
  data : Nat
  at_ : Nat
  deriving DecidableEq, Repr

/-- One Tricycle core (R58 to R83). -/
structure TriCore where
  st : CoreSt
  /-- halted under R62 or R72, its exclusion still to come -/
  halted : Bool
  /-- a window is open: the core has entered its cycle-start interrupt (R71) -/
  started : Bool
  /-- CYC_DONE has been written since the cycle start (R72) -/
  done : Bool
  /-- the next window counts as delivered and invalid (R72) -/
  badNext : Bool
  /-- the signature of the open window (R69) -/
  sig : DWord
  /-- the number of the open window in its cycle, and the DEVICE stores issued in it -/
  win : Nat
  nDev : Nat
  /-- delivered windows waiting for a decision, oldest first (R71) -/
  closed : List Win
  /-- a closing write that waits because 8 windows wait (R71): whether it is CYC_DONE, and the value -/
  closeStall : Option (Bool × Nat)
  /-- unresolved DEVICE stores, oldest first (R74) -/
  queue : List DStore
  /-- a DEVICE store that waits because 16 entries are held (R74): address, size, data -/
  storeStall : Option (Nat × Nat × Nat)
  /-- a DEVICE read that waits for the unresolved stores (R74): address, size -/
  readStall : Option (Nat × Nat)
  /-- ns from the cycle-start edge to the core's last entry into its interrupt (R65) -/
  entry : Nat
  /-- LOCAL ns of the exclusions still within the span (R83) -/
  exclusions : List Nat
  /-- the core's own instances of CYC_DONE and TRI_SELF_SCR (R75) -/
  doneVal : Word
  scratch : Word
  deriving DecidableEq, Repr

/-- A core before its release. -/
def TriCore.init : TriCore :=
  ⟨.held, false, false, false, false, 0, 0, 0, [], none, [], none, none, 0, [], 0, 0⟩

/-- Voter and copy engine state that no register shows. -/
structure Tri where
  cores : SMap TriCore
  /-- windows of the present cycle decided so far -/
  decided : Nat
  /-- WIN_TMO has passed since the first delivery of the next window (R76) -/
  due : Bool
  /-- DEVICE stores of the present cycle already resolved, as (window, k) (R73) -/
  resolved : List (Nat × Nat)
  /-- the signatures of the most recent window decided in agreement, by core (R81); empty: none since the release -/
  agreed : SMap DWord
  /-- local ticks since the last voter test or the release (R81) -/
  testTicks : Nat
  /-- a core rejoined while the Graft was held (R88) -/
  rejoined : Bool
  deriving DecidableEq, Repr


/-- A finished image: its core, its output bank and its cycle number (R78, R101). -/
structure ImageSrc where
  core : Nat
  bank : Nat
  cycle : Nat
  deriving DecidableEq, Repr

/-- Cycle engine state that no register shows. -/
structure Cyc where
  /-- local ticks since the previous cycle start, where there was one (R99) -/
  since : Option Nat
  /-- a start commanded by START, RESUME, STEP or AUTORUN waits for an edge without a cycle in progress (R99, R111) -/
  startReq : Bool
  /-- the running cycle's image is to be discarded (R105) -/
  discard : Bool
  /-- a finished image waiting for its edge -/
  finished : Option ImageSrc
  /-- a publication in progress: its source (R101) -/
  publishing : Option ImageSrc
  /-- the source of the last publication (R110) -/
  last : Option ImageSrc
  /-- the active publication buffer (R101) -/
  active : Nat
  first : Bool
  prevOvr : Bool
  grafted : Bool
  graftGen : Nat
  /-- program identity and binding table of the armed Graft (R124, R127) -/
  graftId : Nat
  bindings : List Bind
  /-- CYC_CMD codes that take effect at the next edge, in order (R111) -/
  cmds : List Nat
  /-- standstill was false at an edge of the STEP cycle (R112) -/
  moved : Bool
  /-- local tick edges since the last refresh, by consumer: 0 DIO, 1 LOOP, 2 door commands, 3 trip terms, 4 safe telegrams (R106) -/
  refresh : SMap Nat
  deriving DecidableEq, Repr

/-- A profile state (R165, R169): position, velocity and acceleration, exactly, as the integers 6·10²⁷ × µm,
2·10¹⁸ × µm/s and 10⁹ × µm/s², so that segments of whole ns keep them exact. -/
structure PV where
  p : Int
  v : Int
  a : Int
  deriving DecidableEq, Repr

/-- One segment: constant jerk in µm/s³ for a number of ns. -/
structure Seg where
  jerk : Int
  dur : Nat
  deriving DecidableEq, Repr

/-- One leg of the planned path: a stop phase, or a move to a target in µm; its set; the state it ends in; for the stop phase of R170
the latest target, in µm; whether the soft limits lowered the move's peak (R172). -/
structure Leg where
  segs : List Seg
  stop : Bool
  set : Nat
  fin : PV
  latest : Option Int
  slow : Bool
  deriving DecidableEq, Repr

/-- A queue entry (R166). -/
structure Move where
  target : Int
  set : Nat
  group : Bool
  deriving DecidableEq, Repr

/-- A switch under debounce (R184): its qualified state, the candidate's samples after the first, and the raw position
captured at the first. -/
structure Deb where
  on : Bool
  cand : Option (Nat × Int)
  deriving DecidableEq, Repr

/-- One motion axis beyond its registers. -/
structure MAxis where
  /-- profile at the next lane tick boundary -/
  st : PV
  legs : List Leg
  /-- the set that governs the present segment, or governed the last one (R160) -/
  set : Nat
  /-- the queue, present move first (R166) -/
  queue : List Move
  /-- enable and standstill mode of the setpoint: 0 FREE, 1 SHORT (R175) -/
  enable : Bool
  short : Bool
  /-- an item of R176 has acted on the axis in this pass -/
  acted : Bool
  /-- lane ticks of the COMPLETE hold -/
  hold : Nat
  /-- direct control is given up at rest (R180) -/
  giveUp : Bool
  /-- direction of the motion at the limit trip (R174) -/
  limDir : Int
  home : Deb
  limit : Deb
  /-- qualified edges within the present move (R185, R186) -/
  homeEdges : Nat
  limitEdges : Nat
  /-- homing (R185): direction of the present search, raw position at its start, limit trips, lane ticks, target of the
  back-off. The direction is 0 where no homing has run, and once one has succeeded -/
  hdir : Int
  hstart : Int
  trips : Nat
  hticks : Nat
  htarget : Option Int
  /-- members that move as one interpolation share a number over 0 (R182) -/
  interp : Nat
  /-- the last two fresh raw positions in µm, latest first, each with the number of the lane tick it was sampled in (R192) -/
  samples : List (Int × Int)
  /-- step count of a local axis once every pulse of `rises` has risen; rise times in ns of LOCAL and directions of its recent and
  scheduled pulses, oldest first; the step count at the latest raw edge of its home switch (R189, R190) -/
  steps : Int
  rises : List (Nat × Int)
  hcount : Int
  /-- the setpoint position the following error is taken against, in µm -/
  setPos : Int
  deriving DecidableEq, Repr

/-- An axis at reset. -/
def MAxis.init : MAxis :=
  ⟨⟨0, 0, 0⟩, [], 0, [], false, false, false, 0, false, 0, ⟨false, none⟩, ⟨false, none⟩, 0, 0, 0, 0, 0, 0, none, 0, [], 0, [], 0, 0⟩

/-- Held feedback of an axis (R136, R256): raw position, current in mA, switches, capture, its sequence, AGE. -/
structure Fb where
  pos : Int
  cur : Nat
  sw : Nat
  cap : Int
  /-- HSEQ of the record -/
  hseq : Nat
  age : Nat
  deriving DecidableEq, Repr

/-- An open door cycle (R156): times in ns of LOCAL, durations in lane ticks. -/
structure Cycle where
  lane : Nat
  consist : Nat
  start : Nat
  opening : Nat
  opened : Bool
  open_ : Nat
  closing : Nat
  closingOn : Bool
  locking : Nat
  iPeak : Nat
  fPeak : Nat
  devMax : Int
  flags : Nat
  detections : Nat
  detector : Nat
  obstPos : Int
  closedAt : Option Nat
  lockDt : Option Nat
  retries : Nat
  lockEdges : Nat
  deriving DecidableEq, Repr

/-- A stroke that may be learned (R147): direction and largest force by bin. -/
structure Stroke where
  dir : Nat
  samples : SMap Nat
  deriving DecidableEq, Repr

/-- One axis of the door supervisor beyond its registers. -/
structure DAxis where
  /-- fresh feedback has come since the axis was last homed (R183) -/
  seen : Bool
  staleTicks : Nat
  se : Nat
  fCnt : Nat
  feCnt : Nat
  lockCnt : Nat
  plaus2 : Nat
  plaus4 : Nat
  plaus5 : Nat
  egrOff : Nat
  /-- the locked switch has been off since the axis last left LOCKED (R141) -/
  lockedOff : Bool
  noedge : Bool
  /-- the lock stroke has been started since CLOSED -/
  stroking : Bool
  lockTicks : Nat
  /-- the present target, µm -/
  target : Int
  /-- lane ticks of a reopen dwell or obstacle hold in progress, and whether it has ended -/
  dwell : Option Nat
  dwelt : Bool
  /-- the stroke towards the target was stopped, or could not start, under Kickstand or shedding, and starts again (R134, R154) -/
  resume : Bool
  /-- lane ticks since the start that R144 names, while the window runs -/
  acc : Option Nat
  cycle : Option Cycle
  stroke : Option Stroke
  /-- an accepted stroke waiting for its boundary -/
  learn : Option Stroke
  /-- what the open cycle adds to the lifetime counters: OBST, RETRY, LFLT, EGR, ISO, LRN, and travel in µm -/
  life : List Nat
  travel : Nat
  prevSw : Nat
  deriving DecidableEq, Repr

/-- An axis at reset. -/
def DAxis.init : DAxis :=
  ⟨false, 0, 0, 0, 0, 0, 0, 0, 0, 0, false, false, false, 0, 0, none, false, false, none, none, none, none, [0, 0, 0, 0, 0, 0], 0, 0⟩

/-- Door supervisor and motion generator state that no register shows. -/
structure Door where
  fb : SMap Fb
  /-- NSTAT of the last FEEDBACK frame of each node (R256) -/
  nstat : SMap Nat
  ax : SMap DAxis
  mot : SMap MAxis
  /-- command bytes and release word of the latest publication, and rising edges not yet evaluated (R133) -/
  cmd : List Byte
  rel : Nat
  edges : List Byte
  /-- the 256 bytes of motion command slots of the latest publication (R178) -/
  slots : List Byte
  slotSeq : SMap Nat
  slotRes : SMap Nat
  /-- commands at Kickstand (R134, R177) -/
  kick : Bool
  /-- a state image waiting for the next pass: 96 STAT words, then LATCHED and CAUSE of 32 functions (R358) -/
  image : Option (List Nat)
  /-- the LANE lead was synchronised at the last pass (R193) -/
  hadLane : Bool
  /-- the pass of this lane tick has run, so slots may be taken -/
  passed : Bool
  /-- passes run since reset: the lane ticks that feedback is timed in (R192) -/
  ticks : Nat
  /-- no pass has run since the latest publication, whose slots the next one takes (R178) -/
  slotsNew : Bool
  deriving DecidableEq, Repr

/-- One spoke source (R210, R211): `have` and `claim` of the last accepted spoke, and lane ticks since the last spoke
accepted or sent. -/
structure Src where
  have_ : Bool
  claim : Nat
  ticks : Nat
  deriving DecidableEq, Repr

/-- Reset input of a function (R217): ticks of the present phase, ticks of the low phase before it, its level at the last
edge, and a release waiting to be judged (the high phase's ticks). -/
structure FnReset where
  level : Bool
  ticks : Nat
  lowTicks : Nat
  release : Option Nat
  deriving DecidableEq, Repr

/-- Trip fabric state that no register shows. -/
structure Trip where
  /-- voted outputs after R201, T0 in bit 0 -/
  outs : BitVec 512
  /-- literals at the last capture -/
  lits : BitVec 1024
  /-- PRG0 to PRG127 (R207) -/
  prg : BitVec 128
  /-- evaluators in minority in the previous evaluation (R203); with two participants, 1 for a disagreement -/
  prevMinor : Nat
  srcs : SMap Src
  fns : SMap FnReset
  /-- local ticks since the last voter test (R204) -/
  testTicks : Nat
  /-- the bank a TRIP_SWAP write asked for (R205) -/
  swapTo : Nat
  /-- own spokes: tokens, next sequence number, bits last sent, a change waiting, a periodic spoke waiting, sending (R208, R209) -/
  tokens : Nat
  seq : Nat
  sentBits : Nat
  waitEvt : Bool
  waitPer : Bool
  sending : Bool
  deriving DecidableEq, Repr

/-- One safe session beyond its registers (R228, R231, R234): local ticks since the last acceptance, the payload delivered,
FIRST on its next telegram (TX), ticks counted towards TMO (RX). -/
structure Sess where
  ticks : Nat
  payload : List Byte
  first : Bool
  count : Nat
  /-- the telegram built for the coming send instant (R228) -/
  tele : Option (List Byte)
  deriving DecidableEq, Repr

/-- A session that has never accepted or sent. -/
def Sess.init : Sess := ⟨0xFFFF, [], true, 0, none⟩

/-- One check engine beyond its registers (R239 to R244): FIFO entries with their FCS marks, oldest first. -/
structure CrcEng where
  fifo : List (Nat × Bool)
  /-- a running memory job: address and length (R240) -/
  job : Option (Nat × Nat)
  /-- the fold value of SNOOP_CONT has entered (R242) -/
  cont : Bool
  /-- the data of an open SNOOP_FRAME frame that the module itself is sending (R241) -/
  frame : Option (List Byte)
  deriving DecidableEq, Repr

/-- An engine at reset. -/
def CrcEng.init : CrcEng := ⟨[], none, false, none⟩

/-- A stored context of the check engines (R243): CFG, FOLD, VAL. -/
structure CrcCtx where
  cfg : Nat
  fold : Nat
  val : Nat
  deriving DecidableEq, Repr

/-- Safe telegram engine and check engines beyond their registers. -/
structure Safe where
  sess : SMap Sess
  /-- local ticks since the last unit disagreement, where there was one (R237) -/
  unitTicks : Option Nat
  eng : SMap CrcEng
  ctx : SMap CrcCtx
  deriving DecidableEq, Repr

/-- One lane beyond its registers (R247, R265 to R280). -/
structure LaneSt where
  /-- linked ports whose verification has ended, and those where it failed: bit 0 UP, bit 1 DN -/
  verified : Nat
  failed : Nat
  /-- local ticks in LISTEN; ticks left of the wait of R271, once the listen has ended -/
  listen : Nat
  wait : Option Nat
  /-- lowest sender of a COLDSTART heard while listening -/
  cold : Option Nat
  /-- lane tick boundaries that have come in the present contest (R271) -/
  contest : Nat
  /-- last SYNC or COLDSTART taken in INTEGRATE: sender, LANE value, LOCAL ns -/
  cand : Option (Nat × Int × Nat)
  /-- lane ticks without a valid SYNC, and whether one was taken in the present tick -/
  noSync : Nat
  gotSync : Bool
  /-- a SYNC has been taken since SYNCED; the first macrocycle boundary after it has passed, so that it sends -/
  synced : Bool
  sends : Bool
  /-- own STATUS sent since SYNCED (R272) -/
  statusSent : Bool
  /-- this master stops sending SYNC from the next tick (R272) -/
  yielding : Bool
  /-- SYNC frames with another CID in succession (R280) -/
  otherCid : Nat
  /-- silent until the SYNC of tick 0 of M (R279) -/
  uncertain : Bool
  /-- nodes whose STATUS came in the present macrocycle, with whether each acknowledged, refused or neither; those of the last one -/
  seen : SMap Nat
  heard : SMap Nat
  /-- entries sent in the present lane tick (R248) -/
  sent : List Nat
  deriving DecidableEq, Repr

/-- A lane at reset. -/
def LaneSt.init : LaneSt := ⟨0, 0, 0, none, none, 0, none, 0, false, false, false, false, false, 0, false, [], [], []⟩

/-- A received stream (R266): its held value and the MAX_AGE of its entry. -/
structure Stream where
  data : List Byte
  maxAge : Nat
  deriving DecidableEq, Repr

/-- A mode change in the coordinator's and the answering node's hands (R278, R279). -/
structure ModeChange where
  /-- this module announces: OP 1 or 2, later 3 or 4 as decided; 0 none -/
  op : Nat
  cid : Nat
  m : Nat
  actId : Nat
  /-- own answer: 0 none, 1 ACK cadence, 2 ACK activation, 3 REFUSE; announcement answered -/
  answer : Nat
  annCid : Nat
  annM : Nat
  annAct : Nat
  committed : Bool
  aborted : Bool
  deriving DecidableEq, Repr

/-- A frame at the egress of a lane port (R246 to R248): LOCAL of its first bit and of its end, whether it is express and the
module's own, and its bytes with their FCS. -/
structure OutFrame where
  start : Nat
  stop : Nat
  express : Bool
  own : Bool
  bytes : List Byte
  deriving DecidableEq, Repr

/-- Lane controller state that no register shows. -/
structure Lanes where
  lane : SMap LaneSt
  /-- frames waiting, on the wire or just gone at each port, by 2 × lane + port, in order of their start -/
  ports : SMap (List OutFrame)
  /-- the nodes of each lane in the order of the line, as the Orchard image records them (R262) -/
  hops : List (List Nat)
  streams : SMap Stream
  /-- lane ticks whose copy has been taken: streams by number, the feedback of node n at 512 + n (R265) -/
  taken : SMap (List Nat)
  /-- link delays measured, latest first, by 2 × lane + port -/
  pdelay : SMap (List Nat)
  mode : ModeChange
  /-- RESTART of each node's last FEEDBACK or STATUS, by node ID -/
  restart : SMap Nat
  /-- lane tick number; LOCAL ns of the last boundary -/
  tick : Nat
  boundary : Nat
  /-- local tick edges since the last lead point (R15); LOCAL ns of the last publication edge, and the one before it -/
  edges : Nat
  pubAt : Nat
  /-- the publication edges that a telegram may still send for, the latest first, as LOCAL ns (R291) -/
  pubs : List Nat
  /-- publication buffer carried in this lane tick; the number of the latest publication and of the one carried; its AGE count and the AGE it is sent with (R108) -/
  buf : Nat
  /-- the image carried in this lane tick, where a publication has overwritten its buffer since (R15) -/
  kept : Option (List Byte)
  pub : Nat
  carried : Nat
  age : Nat
  sentAge : Nat
  deriving DecidableEq, Repr

/-- Time bases beyond their registers (R281 to R284): LOCAL at the latest edge; LANE and CONSIST as a value at a LOCAL time,
from which they run at their rate; whether they were ever synchronised; rate measurements. -/
structure Time where
  edge : Nat
  laneRef : Nat
  laneVal : Int
  laneEver : Bool
  consRef : Nat
  consVal : Int
  consEver : Bool
  /-- CONSIST was set from the RTC as grandmaster (R295) -/
  consSet : Bool
  /-- last SYNC: LOCAL and LANE; up to 8 measured rates in ppb, latest first -/
  sync : Option (Nat × Int)
  rates : List Int
  /-- last gPTP Sync: LOCAL and grandmaster time -/
  ptp : Option (Nat × Int)
  /-- offset still to be slewed, ns -/
  slew : Int
  /-- the last Announce of each ECN port (R294), and the number of the next gPTP message sent -/
  anns : SMap PtpAnnounce
  ptpSeq : Nat
  caps : SMap (List Nat)
  /-- LOCAL ns of the latest edge of each capture source (R296): of DIO channel n under n, of trip output j under 64 + j, of a spoke of
  source i under 1024 + i, of a SYNC on lane l under 2048 + l -/
  events : SMap Nat
  deriving DecidableEq, Repr

/-- A frame in an egress queue of the ECN switch (R288): bytes, launch time in its queue's base, the ring descriptor it came from,
whether it is a process-data telegram (R293) and carries the FORCED flag (R120), and its base's time when it reached the head. -/
structure EFrame where
  bytes : List Byte
  launch : Option Nat
  desc : Option Nat
  pd : Bool
  forced : Bool
  atHead : Option Nat
  deriving DecidableEq, Repr

/-- A process-data telegram beyond its registers (R291, R292): held dataset, local ticks since the last acceptance or send,
whether it was ever accepted, last sequenceCounter sent, last one accepted by source, the send instant that comes next: its number
from 0 on, or 1 plus LOCAL of the last publication edge used. -/
structure Pd where
  data : List Byte
  ticks : Nat
  ever : Bool
  seq : Nat
  last : SMap Nat
  next : Nat
  deriving DecidableEq, Repr

/-- A telegram at reset. -/
def Pd.init : Pd := ⟨[], 0, false, 0, [], 0⟩

/-- Consist Ethernet state that no register shows. -/
structure Ecn where
  pd : SMap Pd
  /-- egress queues by 8 × port + queue -/
  queues : SMap (List EFrame)
  /-- learned MAC addresses: port and LOCAL ns of the last frame -/
  macs : SMap (Nat × Nat)
  /-- the VLAN IDs of the VLAN table (R287) -/
  vlans : List Nat
  /-- LOCAL ns until which each port has a frame in transmission (R288) -/
  busy : SMap Nat
  /-- next descriptor that each transmit ring gives the engine (R289) -/
  taken : SMap Nat
  /-- whether the last frame of each port carried the FORCED flag (R120) -/
  forced : SMap Bool
  /-- descriptors of each transmit ring that are completed and that HEAD has not passed (R289) -/
  done : SMap (List Nat)
  deriving DecidableEq, Repr

/-- One MVB port (R298): held value or source buffer, LOCAL ns of the last valid frame, where there was one, and whether a source
buffer carries the FORCED flag (R120). -/
structure Mvb where
  data : List Byte
  since : Option Nat
  forced : Bool
  deriving DecidableEq, Repr

/-- Signal gateway state that no register shows. -/
structure Gw where
  mvb : SMap Mvb
  /-- entries that are STALE, rising -/
  stale : List Nat
  swapTo : Nat
  /-- a scan of the active bank is under way (R308) -/
  scan : Bool
  /-- whether the last slave frame sent carried the FORCED flag (R120) -/
  sentForced : Bool
  deriving DecidableEq, Repr

/-- One DIO channel beyond its registers (R313 to R325). -/
structure Chan where
  /-- demand after Kickstand, before the test arbiter (R219, R320) -/
  demand : Bool
  /-- driver state -/
  drv : Bool
  /-- 0 no test, 1 dark, 2 light (R323) -/
  test : Nat
  /-- local ticks since the last completed dark and light test -/
  sinceDark : Nat
  sinceLight : Nat
  /-- local ticks since the demand was last ON, where it was ON since reset (R219) -/
  sinceOn : Option Nat
  /-- ticks for which the clearing condition of a fault has held, and whether a light test passed after 16 (R325) -/
  clearTicks : Nat
  lightPassed : Bool
  /-- LOCAL ns of the driver's last change (R318), and of the start of the running test pulse (R323) -/
  drvAt : Nat
  testAt : Nat
  /-- LOCAL ns at which the running wetting pulse began, and at which the last one ended (R314) -/
  wetFrom : Option Nat
  wetEnd : Option Nat
  /-- the driver's own refresh has stopped (R500) -/
  dead : Bool
  deriving DecidableEq, Repr

/-- A channel at reset. -/
def Chan.init : Chan := ⟨false, false, 0, 0, 0, none, 0, false, 0, 0, none, none, false⟩

/-- Field I/O state that no register shows. -/
structure Dio where
  chans : SMap Chan
  /-- groups whose switch test passed since the reset (R319), one bit each -/
  tested : Nat
  /-- local ticks since OVC was set, by group (R317) -/
  ovc : SMap Nat
  /-- the demand word of the latest publication, output forces merged (R320) -/
  pubWord : Nat
  /-- step and direction levels demanded by the motion generator, by channel (R188) -/
  pulse : Nat
  /-- local ticks since the last refresh of the local axis that drives a channel, by channel (R321) -/
  pulseAge : SMap Nat
  /-- pulse channels at Kickstand, one bit each -/
  pulseKick : Nat
  /-- an evaluation arrived since the previous local edge; edges without one (R322) -/
  evalSeen : Bool
  silent : Nat
  /-- edges for which each group's supply has stood below 0.6 Un, above 0.65 Un and above 1.45 Un (R317) -/
  volts : SMap (Nat × Nat × Nat)
  deriving DecidableEq, Repr

/-- One entry of a HART receive FIFO (R335): byte, FIRST, LAST, ERR, BURST as LOOP_HRXc lays them out. -/
abbrev HartByte := Nat

/-- One current loop beyond its registers (R328 to R335). -/
structure Loop where
  /-- the current commanded by the latest publication, µA -/
  cmd : Nat
  /-- LOCAL ns of the last change of the driven current (R330) -/
  changed : Nat
  /-- LOCAL ns from which readback has been out of tolerance without a break -/
  overSince : Option Nat
  /-- LOCAL ns of the fault, for AUTO_RETRY -/
  faultAt : Nat
  /-- the current that stage 2 holds (R332) -/
  held : Option Nat
  /-- HART receive FIFO, oldest first -/
  fifo : List HartByte
  /-- the regulator's own refresh has stopped (R500) -/
  dead : Bool
  /-- LOCAL ns from which the HART master may send, and at which the request in progress has been sent (R334, R335) -/
  turnAt : Nat
  sentAt : Nat
  deriving DecidableEq, Repr

/-- A loop at reset. -/
def Loop.init : Loop := ⟨0, 0, none, 0, none, [], false, 0, 0⟩

/-- A HEARTBEAT payload (R345). -/
structure Hb where
  claim : Nat
  serial : Nat
  mode : Nat
  flags : Nat
  epoch : Nat
  grade : Nat
  sync : Nat
  cycle : Nat
  pseq : Nat
  puid : Nat
  deriving DecidableEq, Repr

/-- A HELLO payload (R336): version bytes as the frame lays them out. -/
structure Hello where
  link : Nat
  pan : Nat
  orch : Nat
  serial : Nat
  puid : Nat
  deriving DecidableEq, Repr

/-- Fragments of a PANNIER or IMAGE under assembly (R336, R354): sequence, total length, bytes that arrived in order, and for
an IMAGE the bytes themselves. -/
structure FragRx where
  seq : Nat
  total : Nat
  next : Nat
  got : List Byte
  lost : Bool
  deriving DecidableEq, Repr

/-- Twin pair state that no register shows. -/
structure Twin where
  /-- the partner's latest valid heartbeat, and whether one arrived since the previous local tick edge -/
  hb : Option Hb
  hbSince : Bool
  /-- successive edges without a heartbeat; lane ticks without a frame carrying the partner's claim -/
  hbMiss : Nat
  laneMiss : Nat
  /-- R340: boundaries without a frame of H's sender, and whether one came since the last -/
  quiet : Nat
  heard : Bool
  hello : Option Hello
  /-- local ticks since the last HELLO sent -/
  helloTicks : Nat
  /-- local ticks since leaving BOOT towards STANDBY, until the claim window of R344 has ended; then none -/
  window : Option Nat
  /-- start-up decisions of R344 go on -/
  deciding : Bool
  seenClaim : Bool
  epochSeen : Nat
  /-- local ticks without a lane in SYNCED (R350) -/
  noLane : Nat
  /-- local ticks since an accepted swap command (R360) -/
  swap : Option Nat
  /-- at the latest edge, the conditions of a takeover (R346) and of YIELD (R350) held -/
  takeDue : Bool
  yieldDue : Bool
  /-- the single application after a takeover is due at the next finish (R355) -/
  takeApply : Bool
  /-- TAKEN is shown until the next latch (R347) -/
  taken : Bool
  /-- normal cycles since the last application (R356, R358) -/
  sinceApply : Nat
  /-- a Pannier newer than the last one applied has been accepted (R355) -/
  panNew : Bool
  /-- LAYOUT_ID of the module's own RETAIN-SYNC layout (R353) -/
  layoutId : Nat
  /-- PSEQ of the Pannier already counted as refused (R355) -/
  refused : Option Nat
  /-- PSEQ of the last build (R353); the Pannier in transmission and the one waiting -/
  built : Nat
  sending : Option Nat
  waiting : Option Nat
  pan : Option FragRx
  img : Option FragRx
  /-- the partner has been sent the state image since it became PAIRED (R358) -/
  imgSent : Bool
  /-- the twin area as last written (R356) -/
  area : List Byte
  deriving DecidableEq, Repr

/-- An outbound Rack bus request (R374 to R378): the initiator that waits for it, window, local and rack address, kind (0 read,
1 non-posted write, 2 posted write), beats, access size in bytes, data words as the initiator holds them, tag, phase (0 waits
for its status, 1 waits for its re-issue, 2 open), held back by a crossing, retries, LOCAL ns of its status cycle; filling a
prefetch buffer; part of a locked sequence; of a DMA transfer; under which byte order; taken by the posted buffer (R375); its window's
buffers have been discarded since it was issued (R383); the positions whose requests it has turned away (R380). -/
structure RackReq where
  who : Option Initiator
  win : Nat
  laddr : Nat
  raddr : Nat
  kind : Nat
  beats : Nat
  size : Nat
  data : List Nat
  tag : Option Nat
  phase : Nat
  held : Bool
  retries : Nat
  at_ : Nat
  fill : Bool
  lock : Bool
  dma : Bool
  big : Bool
  taken : Bool
  stale : Bool
  refused : List Nat
  deriving DecidableEq, Repr

/-- A prefetch buffer (R383): window, local address of its block, 16 words, LOCAL ns of its fill, bytes delivered as a mask, byte order. -/
structure PfBuf where
  win : Nat
  block : Nat
  data : List Nat
  at_ : Nat
  given : Nat
  big : Bool
  deriving DecidableEq, Repr

/-- A locked sequence (R381): its hart, word address, AMO where it is one, LOCAL ns of the read's address cycle, from which on
RB_LOCK_N is low, and the word read once it has arrived. -/
structure RackLock where
  who : Initiator
  addr : Nat
  amo : Option (AmoOp × BitVec 64)
  at_ : Option Nat
  got : Option Nat
  deriving DecidableEq, Repr

/-- An accepted inbound request (R379): its window, master's position, tag, command, rack address as a local one, byte lanes, data
(of a performed read the words read), and whether it has been performed, its response phase still to come. -/
structure RackIn where
  win : Nat
  pos : Nat
  tag : Nat
  cmd : Nat
  addr : Nat
  be : Nat
  data : List Nat
  ready : Bool
  deriving DecidableEq, Repr

/-- What an initiator's latest access to a rack window gave. -/
inductive RackRes where
  | value (v : Nat)
  | done
  | fault
  | scOk
  | scFail
  deriving DecidableEq, Repr

/-- Rack bus bridge state that no register shows. -/
structure Brg where
  reqs : List RackReq
  /-- retired tags, with LOCAL ns of their timeout (R376) -/
  retired : SMap Nat
  /-- entries of the posted-write error log, oldest first (R377) -/
  log : List Nat
  /-- prefetch buffers, least recently used first -/
  pf : List PfBuf
  lock : Option RackLock
  inb : List RackIn
  /-- the positions whose requests were retried by a crossing, until they have been granted (R380) -/
  crossed : List Nat
  res : SMap RackRes
  /-- results of AMOs whose write is under way, by initiator -/
  amoOld : SMap Nat
  dmaFailed : Bool
  /-- the last status cycle this module answered -/
  status : RackStatus
  /-- the position granted last, from which the arbiter counts on, and RB_GNT_N: the position granted in the latest grant cycle (R365) -/
  last : Nat
  gnt : Option Nat
  deriving DecidableEq, Repr

/-- A pair of clock sources under comparison (R387, R388): whether it agrees, windows within and outside the limit in succession. -/
structure ClkPair where
  agree : Bool
  good : Nat
  bad : Nat
  deriving DecidableEq, Repr

/-- A pair that has not been compared. -/
def ClkPair.init : ClkPair := ⟨true, 0, 0⟩

/-- Clock generator state that no register shows. -/
structure Clk where
  /-- sources that run: bit 0 XO-A, 1 XO-B, 2 RCO -/
  run : Nat
  /-- pairs: 0 XO-A/XO-B, 1 XO-A/RCO, 2 XO-B/RCO -/
  pairs : SMap ClkPair
  /-- LOCAL ns of the last XO-B proof start (R391), of each source's last start or failure, and of the present doubt (R390) -/
  proofAt : Option Nat
  restartAt : SMap Nat
  doubtAt : Nat
  /-- LOCAL modulo 40 ns in bypass (R397) -/
  phase : Nat
  /-- gear of a change under way, and LOCAL ns of its start, by cluster: 0 Tricycle, 1 service -/
  gearTo : SMap Nat
  gearAt : SMap Nat
  /-- target of a change that was abandoned, until another gear is wanted or asked for, by cluster (R402) -/
  gearOff : SMap Nat
  deriving DecidableEq, Repr

/-- Supply, watchdog and reset state that no register shows. -/
structure Pwr where
  /-- stage 4 has begun and the flush goes on, since LOCAL ns; the module is DORMANT -/
  flush : Bool
  flushAt : Nat
  dormant : Bool
  /-- a reset of SYS strength or stronger waits for its sequence (R413) -/
  inReset : Bool
  /-- first half of a watchdog refresh written; the watchdog's clock, in ns of RCO since the reset, at the last refresh and at the latest
  local tick edge (R414) -/
  wdgHalf : Bool
  wdgAt : Nat
  rcoEdge : Nat
  deriving DecidableEq, Repr

/-- One slot of the slot table (R425): state, trial boots used, IMG_ID of its firmware and of its Orchard image, SVN. -/
structure SlotRec where
  state : Nat
  tries : Nat
  fwId : Nat
  orchId : Nat
  svn : Nat
  deriving DecidableEq, Repr

/-- One copy of the slot table (R425): generation, preferred slot, slots A and B, CRC-32C. -/
structure SlotTable where
  gen : Nat
  preferred : Nat
  a : SlotRec
  b : SlotRec
  crc : Nat
  deriving DecidableEq, Repr

/-- One envelope copy in eMMC (R430): generation, CRC of the axis table, the listed bytes of envelope memory, CRC-64. -/
structure EnvCopy where
  gen : Nat
  axisCrc : Nat
  cells : List Host.Cell
  crc : Nat
  deriving DecidableEq, Repr

/-- Non-volatile contents (R424, R425, R430). -/
structure Nv where
  table0 : SlotTable
  table1 : SlotTable
  env0 : Option EnvCopy
  env1 : Option EnvCopy
  /-- bytes of the staging area (R424, R444) -/
  staging : List Host.Cell
  /-- the images' bytes (R424): firmware and Orchard image of slot A at 0 and 1, of slot B at 2 and 3, copies 0 and 1 of the boot supervisor
  firmware at 4 and 5 -/
  images : SMap (List Byte)
  /-- the key hashes in OTP, by slot (R424, R432) -/
  rsaHash : List (BitVec 384)
  slhHash : List (BitVec 384)
  /-- SYS_TAMPER_CNT as last reported in the recorder (R418) -/
  tamperSeen : Nat
  /-- the backup domain has lost its contents since the last start (R416) -/
  bkupLost : Bool
  deriving DecidableEq, Repr

/-- An empty slot. -/
def SlotRec.empty : SlotRec := ⟨0, 0, 0, 0, 0⟩

/-- An open service session (R446): times in ns of LOCAL and TAI seconds. -/
structure Session where
  roles : Nat
  notAfter : Nat
  token : Nat
  addr : Nat
  port : Nat
  last : Nat
  deriving DecidableEq, Repr

/-- Boot supervisor state that no register shows. -/
structure Boot where
  /-- the boot chain has stopped for good (R421, R426) -/
  stopped : Bool
  /-- a LOCKOUT cause kept until the exit from BOOT: reason and sub-cause (R421) -/
  kept : Option (Nat × Nat)
  /-- a SYS reset of its own waits for this many records (R449): sub-cause, records -/
  resetWait : Option (Nat × Nat)
  /-- LOCAL ns of the exit from BOOT, and of the start of a deferral (R440, R441) -/
  exitAt : Nat
  deferAt : Nat
  /-- an activation waits for the demotion of a swap (R440) -/
  deferSwap : Bool
  session : Option Session
  /-- the latest CHALLENGE's nonce and its LOCAL ns, until it is used (R446) -/
  nonce : Option (BitVec 128 × Nat)
  /-- the request while REQ_BUSY: its block's address and the 64 bytes copied from it (R448) -/
  req : Option (Nat × List Byte)
  /-- the last reply of the service protocol: ComID and content, value by value (R444, R466) -/
  reply : Option (Nat × List Nat)
  /-- the release input of R423 -/
  release : FnReset
  /-- LOCAL ns of the last envelope save check, and DOOR_LEARN_CNT at the last save (R430) -/
  saveAt : Nat
  savedLearn : Nat
  /-- no supervisor firmware verified (R426) -/
  noFw : Bool
  /-- LOCAL ns of the start of a lamp test that goes on (R475) -/
  lamp : Option Nat
  /-- BOOT is held without a slot entry: the code last read, and LOCAL ns of the reading (R481) -/
  noSlot : Option (Nat × Nat)
  /-- the personality table of the loaded image: slot codes, each with the words it loads (R480) -/
  personalities : List (Nat × List (Nat × BitVec 32))
  /-- records of the change of mode to BOOT, handed over after the BOOT record (R121, R421, R455) -/
  resetRecs : List QRec
  /-- the reply to a GRAFT operation waits for VERDICT (R436) -/
  graftWait : Bool
  /-- the public keys of the token authorities, RSA and SLH-DSA, by authority (R445) -/
  authorities : List (Nat × Nat)
  deriving DecidableEq, Repr

/-- The whole state of the module. -/
structure State where
  /-- The commands waiting, first in, first out. -/
  pending : List Instr
  /-- Applied register words by address; an address not listed holds its reset value. -/
  regs : SMap Word
  /-- Pending words of buffered registers by address (R39); an address not listed has no pending value of its own. -/
  pend : SMap Word
  /-- Every memory byte by address, in canonical form; an address not listed reads as 0 (R415). -/
  mem : List Host.Cell
  /-- ns of LOCAL since the latest local tick edge, as the last timed command gave it (R496). -/
  ofs : Nat
  /-- The model's own counter of free values drawn; no field of the spec. -/
  freeN : Nat
  /-- The access fault last raised in each initiator's core, by initiator number (R36). -/
  traps : SMap Trap
  /-- Held high halves of the 64-bit pop windows (R32), by block offset × 8 + initiator number. -/
  held : SMap Nat
  /-- What the latest load returned, by initiator number (R31, R32). -/
  popped : SMap Nat
  /-- The CSR of the illegal-instruction exception last raised in each initiator's core (R70). -/
  csrTraps : SMap Nat
  /-- Reservations of LR in MEMORY (R30), by initiator number: start of the 64-byte set and the bytes it held. -/
  resv : SMap (Nat × List Byte)
  /-- Register guard. -/
  regg : Regg
  /-- Event recorder. -/
  recd : Rec
  /-- Observation unit. -/
  obs : Obs
  /-- The Tricycle. -/
  tri : Tri
  /-- The cycle engine. -/
  cyc : Cyc
  /-- Door supervisor and motion generator. -/
  door : Door
  /-- The trip fabric. -/
  trip : Trip
  /-- Safe telegrams and check engines. -/
  safe : Safe
  /-- The lane controller. -/
  lanes : Lanes
  /-- The time bases. -/
  time : Time
  /-- The last frame each transmitter started: 2 twin link, 3 and 4 ECN P1 and P2 with the FCS, 5 MVB, 6 Rack bus, 7 to 10 HART on LP0 to LP3. -/
  wire : SMap (List Byte)
  /-- Consist Ethernet. -/
  ecn : Ecn
  /-- Signal gateway and MVB. -/
  gw : Gw
  /-- Field inputs and outputs. -/
  dio : Dio
  /-- The four current loops, by number. -/
  loops : SMap Loop
  /-- The loops are at Kickstand until the next publication (R106, R332). -/
  loopPrg : Bool
  /-- Twin pair redundancy. -/
  twin : Twin
  /-- Rack bus bridge. -/
  brg : Brg
  /-- Clock generator. -/
  clk : Clk
  /-- Supply, watchdog and resets. -/
  pwr : Pwr
  /-- Non-volatile images and tables. -/
  nv : Nv
  /-- Boot supervisor. -/
  boot : Boot
  deriving DecidableEq, Repr

/-- The module right after a power-on reset with nothing done yet: every register at the value its field table
gives (an address not listed reads as that value), every memory zero (R415), no command waiting. -/
def State.reset : State :=
  { pending := []
    regs := []
    pend := []
    mem := []
    ofs := 0
    freeN := 0
    traps := []
    held := []
    popped := []
    csrTraps := []
    resv := []
    regg := ⟨[], 0, false⟩
    recd := ⟨[], 1, none, [], none, [], none⟩
    obs := ⟨[], 0, 0, none, []⟩
    tri := ⟨[], 0, false, [], [], 0, false⟩
    cyc := ⟨none, false, false, none, none, none, 0, true, false, false, 0, 0, [], [], false, []⟩
    door := ⟨[], [], [], [], [], 0, [], [], [], [], true, none, false, false, 0, false⟩
    trip := ⟨0, 0, 0, 0, [], [], 0, 0, 2, 0, 0, false, false, false⟩
    safe := ⟨[], none, [], []⟩
    lanes := ⟨[], [], [], [], [], [], ⟨0, 0, 0, 0, 0, 0, 0, 0, false, false⟩, [], 0, 0, 0, 0, [], 0, none, 0, 0, 0, 0⟩
    time := ⟨0, 0, 0, false, 0, 0, false, false, none, [], none, 0, [], 0, [], []⟩
    wire := []
    ecn := ⟨[], [], [], [], [], [], [], []⟩
    gw := ⟨[], [], 0, false, false⟩
    dio := ⟨[], 0, [], 0, 0, [], 0, false, 0, []⟩
    loops := []
    loopPrg := true
    twin := ⟨none, false, 0, 0, 0, false, none, 0, none, false, false, 0, 0, none, false, false, false, false, 0, false, 0, none, 0, none, none, none, none, false, []⟩
    brg := ⟨[], [], [], [], none, [], [], [], [], false, .ack, 0, none⟩
    clk := ⟨7, [], none, [], 0, 0, [], [], []⟩
    pwr := ⟨false, 0, false, true, false, 0, 0⟩
    nv := ⟨⟨0, 0, SlotRec.empty, SlotRec.empty, 0⟩, ⟨0, 0, SlotRec.empty, SlotRec.empty, 0⟩, none, none, [], [], [], [], 0, false⟩
    boot := ⟨false, none, none, 0, 0, false, none, none, none, none, ⟨false, 0, 0, none⟩, 0, 0, false, none, none, [], [], false, []⟩ }

end Sys2Proof.Machine
end

