-- ==== Sys2Proof/Machine/Ops.lean ====
section
/-! DEFINITION. Machine/Ops.lean: the named operations on registers and memory that every meaning goes through. -/
namespace Sys2Proof.Machine

/-- What a meaning answers. -/
abbrev Result := Host.Outcome State Fault Refusal

/-! ### Register descriptions -/

/-- Whether `a` is the address of a word of this register row. -/
def RegRow.holds (r : RegRow) (a : Nat) : Bool :=
  r.addr ≤ a && a < r.addr + r.count * r.stride && (a - r.addr) % r.stride < 4 * r.words

/-- The number of the word at `a` within its register: 0, or 1 for the high half of a 64-bit register (R28). -/
def RegRow.half (r : RegRow) (a : Nat) : Nat := (a - r.addr) % r.stride / 4

/-- The block offset of an MMIO address (R24). -/
def blockOf (a : Nat) : Nat := (a - 0x20000000) / 0x10000

/-- The register row that describes the word at `a`. -/
def findRow (a : Nat) : Option RegRow :=
  if a < 0x20000000 then none else (blockRows (blockOf a)).find? (fun r => r.holds a)

/-- The bits of a field that lie in half `h` of its register, as a mask of that word. -/
def FldRow.wordMask (f : FldRow) (h : Nat) : Nat := (2 ^ f.width - 1) * 2 ^ f.lo / 2 ^ (32 * h) % 2 ^ 32

/-- A field's reset value in its place in half `h` of its register. -/
def FldRow.wordReset (f : FldRow) (h : Nat) : Nat := f.reset * 2 ^ f.lo / 2 ^ (32 * h) % 2 ^ 32

/-- The Reset column value of the whole word at `a`; 0 where no register lies. -/
def resetWord (a : Nat) : Word :=
  match findRow a with
  | none => 0
  | some r => BitVec.ofNat 32 (r.flds.foldl (fun v f => v ||| f.wordReset (r.half a)) 0)

/-- The read-only registers of configuration whose Meaning column and caption state no loading from the Orchard image, though
other text lets the boot supervisor set them: PWR_CFG, TIME_PTP, TIME_HOLD_MAX, GW_CFG, GW_MVB_CFG, GW_MVBPn, TWIN_PAN, REC_TRG,
REC_LIST, UPD_CFG, UPD_CFG2, UPD_LOCKRST, DIO_CHn CFG2, and LOOP_CHc LIM and FT. -/
def unstated (a : Nat) : Bool :=
  [0x20020000, 0x20080004, 0x20080008, 0x20110000, 0x20110400, 0x20111000, 0x20111004, 0x20120008, 0x20131000, 0x20131004, 0x20132000,
    0x20140000, 0x20140004, 0x20140008, 0x200E100C, 0x200F0104, 0x200F0108].any (fun b => b == a)

/-- Whether the register's Meaning column or its caption states that the boot supervisor loads it (R39, R51). -/
def RegRow.stated (r : RegRow) : Bool := r.loaded && !unstated r.addr

/-- The word that the register at `a` holds after `v` is put into it: the fields of REGG_GRP_MAP2 beyond block 0x15 stay 0 (R44). -/
def takenWord (a : Nat) (v : Word) : Word := if a == 0x20030048 then v &&& 0x00FFFFFF else v

/-- The bits of the word at `a` that the field table names; the others are reserved (R49). -/
def namedMask (a : Nat) : Nat :=
  match findRow a with
  | none => 0
  | some r => r.flds.foldl (fun v f => if f.named then v ||| f.wordMask (r.half a) else v) 0

/-! ### Applied and pending values -/

/-- The applied word at `a`, which the block acts on (R39). -/
def State.word (s : State) (a : Nat) : Word := (SMap.find s.regs a).getD (resetWord a)

/-- The state with the applied word at `a` set. -/
def State.setWord (s : State) (a : Nat) (v : Word) : State := { s with regs := SMap.set s.regs a v }

/-- The word a read of the register at `a` returns: the pending value where one is held (R39). -/
def State.pendWord (s : State) (a : Nat) : Word := (SMap.find s.pend a).getD (s.word a)

/-- The state with a pending value at `a` (R39, R40). -/
def State.setPend (s : State) (a : Nat) (v : Word) : State := { s with pend := SMap.set s.pend a v }

/-- The applied value of a field. -/
def State.get (s : State) (f : Fld) : Nat :=
  if f.lo + f.width ≤ 32 then bitsOf (s.word f.addr).toNat f.lo f.width
  else bitsOf ((s.word f.addr).toNat + (s.word (f.addr + 4)).toNat * 2 ^ 32) f.lo f.width

/-- The register words with a field's value set in the one or two words that hold it. -/
def State.putWords (s : State) (f : Fld) (v : Nat) : SMap Word :=
  if f.lo + f.width ≤ 32 then SMap.set s.regs f.addr (BitVec.ofNat 32 (putBits (s.word f.addr).toNat f.lo f.width v))
  else
    let d := putBits ((s.word f.addr).toNat + (s.word (f.addr + 4)).toNat * 2 ^ 32) f.lo f.width v
    SMap.set (SMap.set s.regs f.addr (BitVec.ofNat 32 d)) (f.addr + 4) (BitVec.ofNat 32 (d / 2 ^ 32))

/-- The state with a field's applied value set. -/
def State.put (s : State) (f : Fld) (v : Nat) : State := { s with regs := s.putWords f v }

/-- The state with a field set, unchanged where it already has the value. -/
def State.putIf (s : State) (f : Fld) (v : Nat) : State :=
  { s with regs := if s.get f = v % 2 ^ f.width then s.regs else s.putWords f v }

/-- A one-bit field as a truth value. -/
def State.flag (s : State) (f : Fld) : Bool := s.get f != 0

/-- The state with a one-bit field set. -/
def State.putFlag (s : State) (f : Fld) (b : Bool) : State := s.put f b.toNat

/-- A counter advanced by `n`, wrapping at 32 bits (R48). -/
def State.add (s : State) (f : Fld) (n : Nat) : State := s.put f (s.get f + n)

/-- A counter advanced by one (R48). -/
def State.inc (s : State) (f : Fld) : State := s.add f 1

/-- A field advanced by `n`, staying at its largest value. -/
def State.addSat (s : State) (f : Fld) (n : Nat) : State := s.put f (min (s.get f + n) (2 ^ f.width - 1))

/-- A field read as two's complement. -/
def State.getS (s : State) (f : Fld) : Int := toSigned f.width (s.get f)

/-- A field set to a two's complement value. -/
def State.putS (s : State) (f : Fld) (v : Int) : State := s.put f (ofSigned f.width v)

/-- Bit `i` of a field. -/
def State.bit (s : State) (f : Fld) (i : Nat) : Bool := bitOf (s.get f) i

/-- The state with bit `i` of a field set. -/
def State.putBit (s : State) (f : Fld) (i : Nat) (b : Bool) : State := s.put f (setBit (s.get f) i b)

/-- Whether the register at `a` is buffered (RW or RWG, R39). -/
def buffered (a : Nat) : Bool :=
  match findRow a with
  | some r => r.acc == .rw || r.acc == .rwg
  | none => false

/-- Value that at least two of three hold; the first where all differ. -/
def majority (a b c : Nat) : Nat := if a = b || a = c then a else if b = c then b else a

/-- Field of `w` bits at bit `lo` of the applied timing set (R63): what at least two copies hold. -/
def State.tsetBits (s : State) (lo w : Nat) : Nat :=
  let f := fun n => bitsOf (s.get (Reg.TRI_TSET_C.COPY n)) lo w
  majority (f 0) (f 1) (f 2)

/-- The applied timing set, field by field (R63). -/
def State.tsetWord (s : State) : Nat :=
  s.tsetBits 0 8 + s.tsetBits 8 8 * 2 ^ 8 + s.tsetBits 16 8 * 2 ^ 16 + s.tsetBits 24 8 * 2 ^ 24

/-! ### What the read of a safe session's word shows (R106, R229, R339) -/

/-- Whether the module is a claiming module (R339). -/
def State.claiming (s : State) : Bool :=
  s.get Reg.TWIN_CLAIM.CLAIM != 0 && (s.get Reg.SYS_STAT.MODE == 3 || s.get Reg.SYS_STAT.MODE == 1)

/-- Edges since the last refresh of consumer `k`. -/
def State.refreshAge (s : State) (k : Nat) : Nat := SMap.getD s.cyc.refresh k 0

/-- Whether session `n` is a TX session. -/
def State.isTx (s : State) (n : Nat) : Bool := s.flag (Reg.SAFE_S.DIR n)

/-- Whether a session's time base has ever been synchronised (R229). -/
def State.safeEver (s : State) (n : Nat) : Bool := if s.flag (Reg.SAFE_S.TBASE n) then s.time.consEver else s.time.laneEver

/-- Whether TX session `n` passes its send instants over (R229). -/
def State.safeSilent (s : State) (n : Nat) : Bool :=
  atLeast1 (s.get Reg.SAFE_CTRL.TX_TMO) ≤ s.refreshAge 4 || s.flag Reg.CYC_STAT.KICK
    || (s.flag (Reg.SAFE_S.PAIR n) && !s.claiming) || !s.safeEver n

/-- The state word of safe session `n` as a read shows it: SILENT is 1 while R229 holds for an open TX session. -/
def State.silentWord (s : State) (n : Nat) (w : Word) : Word :=
  BitVec.ofNat 32 (setBit w.toNat 2 (s.isTx n && s.get (Reg.SAFE_T.STATE n) == 2 && s.safeSilent n))

/-- What a 32-bit read of an MMIO word returns (R39, R63): the pending value of a buffered register, the applied value at its
_ACT alias, 0 from a write-only register, else the word itself, SAFE_Tn with the SILENT of the moment (R229). A reserved bit, which may read as any value (R49), reads as the
value kept for it in the word: that of the Reset column until written (assumption 145). -/
def State.readReg (s : State) (a : Nat) : Word :=
  if a == Reg.TRI_TSET.SKEW0.addr + 0x8000 then BitVec.ofNat 32 s.tsetWord
  else if 0x8000 ≤ a % 0x10000 && buffered (a - 0x8000) then s.word (a - 0x8000)
  else if 0x20092000 ≤ a && a < 0x20092800 && a % 16 == 0 then s.silentWord ((a - 0x20092000) / 16) (s.word a)
  else
    match findRow a with
    | none => 0
    | some r => if r.acc == .wo then 0 else if buffered a then s.pendWord a else s.word a

/-! ### Memory -/

/-- The byte at physical address `a`. -/
def State.byte (s : State) (a : Nat) : Byte := Mem.read s.mem a

/-- `n` bytes from `a`. -/
def State.bytes (s : State) (a n : Nat) : List Byte := Mem.readBytes s.mem a n

/-- The little-endian number of `n` bytes at `a` (R6). -/
def State.load (s : State) (a n : Nat) : Nat := Mem.readLE s.mem a n

/-- The state with the bytes `bs` stored at `a`. -/
def State.storeBytes (s : State) (a : Nat) (bs : List Byte) : State := { s with mem := Mem.writeBytes s.mem a bs }

/-- The state with the `n` low bytes of `v` stored at `a`, little-endian (R6). -/
def State.store (s : State) (a n v : Nat) : State := s.storeBytes a (leBytes n v)

/-- The state with `n` bytes copied from `src` to `dst`. -/
def State.copy (s : State) (src dst n : Nat) : State := { s with mem := Mem.copy s.mem src dst n }

/-- The state with `n` bytes at `a` zeroed. -/
def State.zero (s : State) (a n : Nat) : State := { s with mem := Mem.zero s.mem a n }

/-- Start of shared SRAM (R23). -/
def sramBase : Nat := 0x10000000
/-- Start of the TCM of core `c`: the spec gives a TCM only its private alias (R25), so the model keys the three
outside the physical map (assumption 6). -/
def tcmBase (c : Nat) : Nat := 0x200000000 + c * 0x80000
/-- Start of the DRAM partition of core `c` (R23). -/
def partBase (c : Nat) : Nat := 0x100000000 + c * 0x20000000
/-- Start of the recorder's MRAM, which no initiator addresses (R450); the model keys it outside the physical map (assumption 6). -/
def mramBase : Nat := 0x300000000

/-! ### Resets of registers (R9, R46, R415) -/

/-- The reset kinds of spec/00_scope.md, and DORMANT entry, as R9 lists them. -/
inductive ResetKind where
  | por | bor | ext | wdg | sys | core | domain | dormant
  deriving DecidableEq, Repr

/-- Whether a field of class `k` survives a reset of this kind (R9). -/
def Keeps.survives : Keeps → ResetKind → Bool
  | .k0, _ => false
  | .k1, r => r == .domain || r == .core
  | .k2, r => r == .domain || r == .core || r == .sys || r == .wdg
  | .k3, r => r != .por
  | .k4, _ => true

/-- The bits of the word at `a` that a reset of kind `k` keeps. -/
def keptMask (k : ResetKind) (a : Nat) : Nat :=
  match findRow a with
  | none => 0
  | some r => r.flds.foldl (fun v f => if f.keeps.survives k then v ||| f.wordMask (r.half a) else v) 0

/-- A word after a reset of kind `k`: kept bits stay, the others take their Reset column value. -/
def afterReset (k : ResetKind) (a : Nat) (v : Word) : Word :=
  let m := BitVec.ofNat 32 (keptMask k a)
  (v &&& m) ||| (resetWord a &&& ~~~m)

/-- The register words of a map after a reset of kind `k` of the blocks that `inReach` selects. -/
def resetWords (k : ResetKind) (inReach : Nat → Bool) (m : SMap Word) : SMap Word :=
  m.map (fun p => if inReach p.1 then (p.1, afterReset k p.1 p.2) else p)

/-- The pending words that a reset of kind `k` leaves: of a word it keeps nothing of, the pending value is discarded (R46). -/
def keptPend (k : ResetKind) (inReach : Nat → Bool) (m : SMap Word) : SMap Word :=
  m.filter (fun p => !(inReach p.1 && keptMask k p.1 == 0))

/-- Applied and pending registers after a reset of kind `k` (R39, R46): fields the reset keeps hold both values, the
others have both at the Reset column value. -/
def State.resetRegs (s : State) (k : ResetKind) (inReach : Nat → Bool) : State :=
  { s with regs := resetWords k inReach s.regs, pend := resetWords k inReach (keptPend k inReach s.pend) }

/-! ### Ticks -/

/-- One tick in ns (R8). -/
def tickNs : Nat := 62500

/-- Lane ticks in a macrocycle (R8). -/
def macroTicks : Nat := 64

/-- Ticks in `ms` milliseconds (R8). -/
def msTicks (ms : Nat) : Nat := 16 * ms

/-- A time base that stood at `val` at LOCAL `ref` and runs `ppb` parts in 10⁹ faster than LOCAL, at LOCAL `now` (R281). -/
def runBase (ref : Nat) (val ppb : Int) (now : Nat) : Int :=
  val + ((now : Int) - ref) + ((now : Int) - ref) * ppb / 1000000000

/-- LOCAL now: its value at the latest edge plus the time since (R496). -/
def State.localNow (s : State) : Nat := s.time.edge + s.ofs

/-- LANE when LOCAL is `now`; 0 until it is first synchronised (R14). -/
def State.laneAt (s : State) (now : Nat) : Nat :=
  if s.time.laneEver then (runBase s.time.laneRef s.time.laneVal (s.getS Reg.TIME_LANE_RATE.RATE) now).toNat else 0

/-- LANE now. -/
def State.laneNow (s : State) : Nat := s.laneAt s.localNow

/-- What the servo has slewed of `slew` ns after `dt` ns at `ppm` (R283). -/
def slewed (slew : Int) (dt ppm : Nat) : Int :=
  let most := dt * ppm / 1000000
  if 0 ≤ slew then min slew most else -(min (-slew) (most : Int))

/-- CONSIST now; 0 until it is first set. -/
def State.consNow (s : State) : Nat :=
  if s.time.consEver || s.time.consSet then
    (runBase s.time.consRef s.time.consVal (s.getS Reg.TIME_CONS_RATE.RATE) s.localNow
      + slewed s.time.slew (s.localNow - s.time.consRef) (atLeast1 (s.get Reg.TIME_CTRL.SLEW_PPM))).toNat
  else 0

/-- CONSIST as a record carries it: TIME_CONSIST, 0 where no Sync was ever accepted (R156, R283, R451). -/
def State.consRec (s : State) : Nat := if s.time.consEver then s.get Reg.TIME_CONSIST.NS else 0

/-- LOCAL as it stands at `now`: in steps of 4 ns, in bypass of 40 ns from the loss of lock on (R396, R397). -/
def State.localStep (s : State) (now : Nat) : Nat :=
  if s.flag Reg.CLK_STAT.BYPASS then now - (now + 40 - s.clk.phase % 40) % 40 else now / 4 * 4

/-- The time base registers follow the present moment: LOCAL in its steps, LANE and CONSIST at 1 ns (R281). -/
def State.showTime (s : State) : State :=
  ((s.put Reg.TIME_LOCAL.NS (s.localStep s.localNow)).put Reg.TIME_LANE.NS s.laneNow).put Reg.TIME_CONSIST.NS s.consNow

/-- The event of capture source `k` (see `Time.events`) happens now (R296). -/
def State.stampEvent (s : State) (k : Nat) : State := { s with time := { s.time with events := SMap.set s.time.events k s.localNow } }

/-! ### The supply and the service cluster (R407, R444, R446) -/

/-- Un in 0.1 V by PWR_CFG.UN. -/
def unOf : Nat → Nat
  | 2 => 480
  | 3 => 720
  | 4 => 960
  | 5 => 1100
  | _ => 240

/-- The service cluster runs: not in BOOT, DORMANT or a reset, and not from shedding stage 2 on (R407, R413, R444). -/
def State.serviceUp (s : State) : Bool :=
  s.get Reg.SYS_STAT.MODE != 0 && !s.pwr.inReset && !s.pwr.dormant && s.get Reg.PWR_STAT.STAGE < 2

/-- Whether an initiator runs: a service core only while the service cluster does (R407, R413). -/
def State.acts (s : State) (who : Initiator) : Bool := !who.isService || s.serviceUp

/-- The reply to a request of ComID `com` (R444). -/
def State.svcReply (s : State) (com : Nat) (vals : List Nat) : State := { s with boot := { s.boot with reply := some (com + 100, vals) } }

/-- The session ends (R446). -/
def State.endSession (s : State) : State :=
  (({ s with boot := { s.boot with session := none } }).putIf Reg.UPD_STAT.SESSION 0).putIf Reg.UPD_STAT.ROLES 0

/-- The reply to a GRAFT operation, once its ARM is refused or VERDICT has left PENDING (R436): the result and VERDICT. -/
def State.graftReply (s : State) (res : Nat) : State :=
  if s.boot.graftWait then
    ({ s with boot := { s.boot with graftWait := false } }).svcReply 12483 [res, s.get Reg.CYC_GRAFT_STAT.VERDICT]
  else s

end Sys2Proof.Machine
end

