-- ==== Sys2Proof/Machine/Trace.lean ====
section
/-! DEFINITION. Machine/Trace.lean: the observation unit's trace packets and histograms (spec/18_observation.md). -/
namespace Sys2Proof.Machine
open Reg

/-- Bytes in the trace buffer (R498). -/
def traceLevel (ps : List (List Byte)) : Nat := ps.foldl (fun n p => n + p.length) 0

/-- The trace packet of R496: START, TYPE, LEN, PSEQ, OFS, payload, CRC-32C over bytes 1 to 5 + LEN. -/
def tracePacket (typ pseq ofs : Nat) (payload : List Byte) : List Byte :=
  let b := leBytes 1 typ ++ leBytes 1 payload.length ++ leBytes 1 pseq ++ leBytes 2 (ofs / 4) ++ payload
  (0xA5 : Byte) :: (b ++ leBytes 4 (crc32c b))

/-- Puts one packet into the buffer as it stands, PSEQ advanced (R496). -/
def State.pushPacket (s : State) (typ : Nat) (payload : List Byte) : State :=
  let p := tracePacket typ s.obs.pseq s.ofs payload
  let s := { s with obs := { s.obs with buf := s.obs.buf ++ [p], pseq := (s.obs.pseq + 1) % 256 } }
  s.put OBS_TRC_STAT.LEVEL (traceLevel s.obs.buf)

/-- One packet of a source that is on (R496, R498): a packet that finds no room is dropped and counted, a FLOW packet also
above half the buffer; a LOSS packet, whose 14 bytes stay reserved while packets are missing, goes ahead of the next one that fits. -/
def State.queuePacket (s : State) (typ : Nat) (payload : List Byte) : State :=
  let level := traceLevel s.obs.buf
  let lossLen := if s.obs.lost = 0 then 0 else 14
  if 4096 < level + lossLen + payload.length + 10 || (typ == 5 && 2048 < level) then
    ({ s with obs := { s.obs with pseq := (s.obs.pseq + 1) % 256, lost := s.obs.lost + 1 } }).inc OBS_TRC_DROP_CNT
  else
    let s := if s.obs.lost = 0 then s
      else
        let t := s.pushPacket 7 (leBytes 4 s.obs.lost)
        { t with obs := { t.obs with lost := 0 } }
    s.pushPacket typ payload

/-- The bit of OBS_TRC_CTRL.SRC that enables a packet type; LOSS has none (OBS register table). -/
def traceSrcBit : Nat → Nat
  | 1 => 5
  | t => t - 2

/-- An event reported on the trace port, where the port runs and its source is enabled (R495, R496). -/
def State.trace (s : State) (typ : Nat) (payload : List Byte) : State :=
  if s.flag OBS_TRC_STAT.RUN && s.bit OBS_TRC_CTRL.SRC (traceSrcBit typ) then s.queuePacket typ payload else s

/-- The CYCLE packet: cycle number, kind, event (0 start, 1 finish, 2 overrun, 3 published). -/
def State.traceCycle (s : State) (cycle kind event : Nat) : State :=
  s.trace 2 (leBytes 4 cycle ++ leBytes 1 kind ++ leBytes 1 event ++ leBytes 2 0)

/-- The port goes off and its buffer is discarded (R495). -/
def State.traceOff (s : State) : State :=
  ({ s with obs := { s.obs with buf := [] } }).putFlag OBS_TRC_STAT.RUN false |>.put OBS_TRC_STAT.LEVEL 0

/-- One event in bin `k` of a histogram whose bins `bins` names; bin 63 takes every value beyond its lower edge (R499). -/
def State.hist (s : State) (bins : Nat → Fld) (k : Nat) : State := s.inc (bins (min k 63))

/-- TRACE_PACKET_SENT (R498): the oldest packet leaves, its space is free again, OBS_TRC_PKT_CNT advances. With the port
off or the buffer empty nothing is sent. -/
def execTracePacketSent (s : State) : Result :=
  match s.obs.buf with
  | [] => .next s
  | _ :: t =>
    if s.flag OBS_TRC_STAT.RUN then
      let s := { s with obs := { s.obs with buf := t } }
      .next ((s.put OBS_TRC_STAT.LEVEL (traceLevel t)).inc OBS_TRC_PKT_CNT)
    else .next s

end Sys2Proof.Machine
end

