-- ==== Sys2Proof/Machine/Records.lean ====
section
/-! DEFINITION. Machine/Records.lean: records handed to the event recorder and the snapshot triggers they fire
(R451, R454 to R456, R459). -/
namespace Sys2Proof.Machine
open Reg

/-- The partition a record type goes to (R455); 5 for a type that goes nowhere. -/
def typePartition (t : Nat) : Nat :=
  if (0x01 ≤ t && t ≤ 0x1F) || (0x40 ≤ t && t ≤ 0x5F) then 0
  else if t = 0x20 then 1
  else if t = 0x30 || t = 0x31 then 2
  else if t = 0x70 then 3
  else 5

/-- FLAGS of a record (R451): STANDBY, FORCED, LANE not synchronised, CONSIST not synchronised; FLUSH is set by the write (R469). -/
def State.recFlags (s : State) : Nat :=
  (s.get SYS_STAT.MODE == 2).toNat + 2 * (s.flag CYC_STAT.FORCED).toNat
    + 8 * (!s.flag TIME_STAT.LANE_SYNC).toNat + 16 * (!s.flag TIME_STAT.CONS_SYNC).toNat

/-- Exactly `n` bytes: `bs` cut, or filled with zeros. -/
def padTo (n : Nat) (bs : List Byte) : List Byte := (bs ++ List.replicate n 0).take n

/-- The record frame of R451 up to DATA, SEQ still zero. -/
def State.recFrame (s : State) (typ code : Nat) (data : List Byte) : List Byte :=
  leBytes 4 0 ++ leBytes 1 typ ++ leBytes 1 0x40 ++ leBytes 1 code ++ leBytes 1 s.recFlags
    ++ leBytes 8 (s.get TIME_LANE.NS) ++ leBytes 8 s.consRec ++ padTo 32 data

/-- The SEQ the next record handed over will get: NEXT_SEQ plus the records waiting that have none yet (R452, R454, R461). -/
def State.seqAhead (s : State) : Nat :=
  (s.get REC_NEXT_SEQ.SEQ + (s.recd.queue.filter (fun (r : QRec) => r.part != 3)).length - s.recd.headSeq.isSome.toNat) % 2 ^ 32

/-- Starts the first waiting capture where none runs, lowest trigger first (R459). -/
def State.startCapture (s : State) : State :=
  match s.recd.running, s.recd.waiting with
  | none, c :: t =>
    ({ s with recd := { s.recd with running := some c, waiting := t, since := SMap.set s.recd.since c.trig 0 } }).putFlag REC_STAT.CAPTURE true
  | _, _ => s

/-- The waiting captures with one more, kept in trigger order (R459). -/
def insertCapture (c : Capture) : List Capture → List Capture
  | [] => [c]
  | d :: t => if c.trig < d.trig then c :: d :: t else d :: insertCapture c t

/-- Trigger `k` fires (R459): skipped and counted while snapshots are off, within HOLDOFF of its previous capture, while it
already waits, or in stage 4; otherwise its capture waits its turn. -/
def State.fireTrigger (s : State) (k kind source : Nat) : State :=
  let early := match SMap.find s.recd.since k with
    | some t => t < msTicks (s.get (REC_TRG.HOLDOFF k))
    | none => false
  if !s.flag REC_CTRL.SNAP_EN || early || s.recd.waiting.any (fun c => c.trig == k) || s.get PWR_STAT.STAGE == 4 then
    s.inc REC_SNAP_SKIP_CNT
  else
    let c : Capture := ⟨k, s.get TIME_LANE.NS, s.consRec, kind, source⟩
    ({ s with recd := { s.recd with waiting := insertCapture c s.recd.waiting } }).startCapture

/-- Whether trigger `k` is a used entry of kind `kind` (REC_TRGk). -/
def State.trigUsed (s : State) (k kind : Nat) : Bool :=
  s.flag (REC_TRG.EN k) && s.get (REC_TRG.KIND k) == kind && s.get (REC_TRG.COUNT k) != 0

/-- Every trigger that names this record's TYPE and CODE fires (R459). -/
def State.recordTriggers (s : State) (typ code seq : Nat) : State :=
  (List.range 32).foldl (fun s k =>
    if s.trigUsed k 0 && s.get (REC_TRG.INDEX k) % 256 == typ
        && (s.flag (REC_TRG.ANYCODE k) || s.get (REC_TRG.CODE k) == code)
    then s.fireTrigger k 0 seq else s) s

/-- The SEQ that a record of type `typ` handed over now will get (R452, R461): a snapshot's head record takes one ahead of its data
records. -/
def State.seqOf (s : State) (typ : Nat) : Nat :=
  let data := (s.recd.queue.reverse.takeWhile (fun (r : QRec) => (r.body.drop 4).headD 0 == 0x31)).length
  (if typ == 0x31 then s.seqAhead + 1 else if typ == 0x30 then s.seqAhead + 2 ^ 32 - data else s.seqAhead) % 2 ^ 32

/-- A record enters the queue, or is dropped and counted when 128 wait (R454); the hand-over fires its triggers (R459)
and is reported on the trace port (R496). -/
def State.handOver (s : State) (q : QRec) : State :=
  let typ := ((q.body.drop 4).headD 0).toNat
  let seq := s.seqOf typ
  let code := ((q.body.drop 6).headD 0).toNat
  let s :=
    if 128 ≤ s.recd.queue.length then s.inc REC_DROP_CNT
    else ({ s with recd := { s.recd with queue := s.recd.queue ++ [q] } }).put REC_STAT.QLEVEL (s.recd.queue.length + 1)
  let s := s.trace 6 (leBytes 4 seq ++ leBytes 1 typ ++ leBytes 1 q.part ++ leBytes 2 0)
  s.recordTriggers typ code seq

/-- A record of R455 with its frame, handed over (R454, R456). -/
def State.record (s : State) (typ code : Nat) (data : List Byte) : State :=
  s.handOver ⟨typePartition typ, s.recFrame typ code data, none⟩

/-- The MODE record (R455): written on every mode change. -/
def State.recordMode (s : State) (old : Nat) : State :=
  s.record 0x02 (s.get SYS_STAT.MODE)
    (leBytes 1 old ++ leBytes 1 (s.get SYS_STAT.LREASON)
      ++ leBytes 1 (if s.get SYS_STAT.LREASON == 1 then s.get TRI_CAUSE.LOCK else 0) ++ leBytes 1 0
      ++ leBytes 4 (s.get TWIN_CLAIM.CLAIM))

/-- The GRAFT, FORCE, CONFIG, CLOCK, CYCLE and CHANNEL records of R455, by their DATA. -/
def State.recordCycle (s : State) (code cycle : Nat) : State :=
  s.record 0x0B code (leBytes 4 cycle ++ leBytes 2 (s.get CYC_LAST.LEN))

/-- The CLOCK record (R455): 1 source failure, 2 DOUBT, 3 UNCLEAN, with CLK_STAT. -/
def State.recordClock (s : State) (code : Nat) : State :=
  s.record 0x0F code (leBytes 4 (s.word CLK_STAT.REF.addr).toNat)

/-- The CHANNEL record (R455): 1 DIO, 2 loop; channel, cause code, VG or readback. -/
def State.recordChannel (s : State) (code ch cause val : Nat) : State :=
  s.record 0x0A code (leBytes 1 ch ++ leBytes 1 cause ++ leBytes 2 0 ++ leBytes 4 val)

/-- The TRIP record (R455): 1 latch, 2 restart, 3 reopening; function, CAUSE, POLICY, TOKEN_ID or 0. -/
def State.recordTrip (s : State) (code fn cause token : Nat) : State :=
  s.record 0x09 code (leBytes 1 fn ++ leBytes 1 cause ++ leBytes 1 (s.get (TRIP_FN.POLICY fn)) ++ leBytes 1 0 ++ leBytes 8 token)

/-- The TWIN record (R455): 1 takeover, 2 demotion, 3 YIELD; new own claim, partner claim, TWIN_APPLIED. -/
def State.recordTwin (s : State) (code : Nat) : State :=
  s.record 0x08 code (leBytes 4 (s.get TWIN_CLAIM.CLAIM) ++ leBytes 4 (s.get TWIN_PCLAIM.CLAIM) ++ leBytes 4 (s.get TWIN_PANP.APPLIED))

/-- The FORCE record (R455): 1 bind, 2 release, 3 drop; entry, TARGET, MODE, variable ID, TOKEN_ID. -/
def State.recordForce (s : State) (code n token : Nat) : State :=
  s.record 0x0D code (leBytes 1 n ++ leBytes 1 (s.get (CYC_FORCE.TARGET n)) ++ leBytes 1 (s.get (CYC_FORCE.MODE n)) ++ leBytes 1 0
    ++ leBytes 8 (s.get (CYC_FORCE.ID n)) ++ leBytes 8 token)

/-- The IMAGE record (R455): 1 refusal, 2 fallback, 3 confirmation, 4 cancelled activation, 5 staging; slot, refusal code, IMG_ID. -/
def State.recordImage (s : State) (code slot refusal imgId : Nat) : State :=
  s.record 0x13 code (leBytes 1 slot ++ leBytes 1 refusal ++ leBytes 6 0 ++ leBytes 8 imgId)

/-- The record the recorder writes next: the queue's head; in stage 4 JURIDICAL records, then DOOR records (R469). -/
def State.nextQueued (s : State) : Option Nat :=
  if s.pwr.flush then
    match s.recd.queue.findIdx? (fun (r : QRec) => r.part == 0) with
    | some k => some k
    | none => s.recd.queue.findIdx? (fun (r : QRec) => r.part == 1)
  else if s.recd.queue.isEmpty then none else some 0

end Sys2Proof.Machine
end

