-- ==== Sys2Proof/Machine/Image.lean ====
section
/-! DEFINITION. Machine/Image.lean: the Tricycle cores' states, the image banks and the forces that act on them
(R62, R67 to R69, R83, R90 to R98, R115 to R121). -/
namespace Sys2Proof.Machine
open Reg

/-! ### Core states (R83) -/

/-- Core `n`. -/
def State.core (s : State) (n : Nat) : TriCore := SMap.getD s.tri.cores n TriCore.init

/-- The number of three bits that `p` holds of. -/
def bits3 (p : Nat → Bool) : Nat := (p 0).toNat + 2 * (p 1).toNat + 4 * (p 2).toNat

/-- TRI_STAT follows the core states (R83). -/
def State.showCores (s : State) : State :=
  let st := fun n => (s.core n).st
  let s := s.put TRI_STAT.PART (bits3 (fun n => st n == .run))
  let s := s.put TRI_STAT.EXCL (bits3 (fun n => st n == .excluded || st n == .copy || st n == .ready))
  let s := s.put TRI_STAT.RETIRED (bits3 (fun n => st n == .retired))
  let s := s.putFlag TRI_STAT.COPY_BUSY (st 0 == .copy || st 1 == .copy || st 2 == .copy)
  s.putFlag TRI_STAT.COPY_READY (st 0 == .ready || st 1 == .ready || st 2 == .ready)

/-- The state with core `n` replaced, TRI_STAT following. -/
def State.setCore (s : State) (n : Nat) (c : TriCore) : State :=
  ({ s with tri := { s.tri with cores := SMap.set s.tri.cores n c } }).showCores

/-- Whether core `n` participates: it is in RUN (TRI_STAT.PART). -/
def State.part (s : State) (n : Nat) : Bool := (s.core n).st == .run

/-- The participating cores, lowest first. -/
def State.parts (s : State) : List Nat := [0, 1, 2].filter s.part

/-- Whether any core is EXCLUDED, COPY or READY. -/
def State.anyOut (s : State) : Bool := s.get TRI_STAT.EXCL != 0

/-- What every CORE and DOMAIN reset brings: CFG_WAIT until the edge that opens its grace period (R53), and the end of the service session
(R446; assumption 172). -/
def State.graceByReset (s : State) : State :=
  (({ s with regg := { s.regg with waitEdge := true, graceEdges := 0 } }).putFlag REGG_STAT.CFG_WAIT true).endSession

/-! ### Faults and folds of a core (R62, R67 to R69, R72) -/

/-- Whether core `n` executes: in RUN, not halted, not stalled (R71, R74). -/
def State.executes (s : State) (n : Nat) : Bool :=
  let c := s.core n
  n < 3 && c.st == .run && !c.halted && c.closeStall.isNone && c.storeStall.isNone && c.readStall.isNone

/-- A fold item (R68): most significant byte first. -/
def foldItem (typ size addr data : Nat) : List Byte := beBytes 1 typ ++ beBytes 1 size ++ beBytes 2 0 ++ beBytes 4 addr ++ beBytes 8 data

/-- The signature after one item (R69). -/
def foldSig (sig : DWord) (item : List Byte) : DWord := BitVec.ofNat 64 (crcBytesM 64 0x42F0E1EBA9EA3693 sig.toNat item)

/-- The state with the window of core `n` folded with one item. -/
def State.fold (s : State) (n typ size addr data : Nat) : State :=
  let c := s.core n
  s.setCore n { c with sig := foldSig c.sig (foldItem typ size addr data) }

/-- A fold event after CYC_DONE (R72): the core is halted, and its next window counts as delivered and invalid: the first one of the
cycle that has begun since, or of the next cycle. -/
def State.lateFold (s : State) (n : Nat) : State :=
  let c := { s.core n with halted := true, queue := [], storeStall := none, readStall := none, closeStall := none }
  if s.flag CYC_STAT.BUSY && !c.started then s.setCore n { c with closed := c.closed ++ [⟨none, false, s.localNow⟩] }
  else s.setCore n { c with badNext := true }

/-- A fault of core `n` (R62): halted, its unresolved stores discarded (R74), its open window delivered as invalid; without one, its
next window is (assumption 68). -/
def State.coreFault (s : State) (n : Nat) : State :=
  let c := s.core n
  if c.st != .run || c.halted then s
  else if c.started && !c.done then
    s.setCore n { c with halted := true, queue := [], storeStall := none, readStall := none, closeStall := none, closed := c.closed ++ [⟨none, false, s.localNow⟩] }
  else s.lateFold n

/-- An access fault as the initiator's core records it (R36): the access is not performed. -/
def State.noteTrap (s : State) (who : Initiator) (store : Bool) (addr : Nat) : State :=
  { s with traps := SMap.set s.traps who.idx ⟨store, addr⟩ }

/-- An access fault of Tricycle core `n` alone (R36, R62). -/
def State.coreTrap (s : State) (n : Nat) (store : Bool) (addr : Nat) : State := (s.noteTrap .tri store addr).coreFault n

/-- An access fault (R36). One of the voted Tricycle, whose cores all make the access, halts each of them (R62). -/
def State.trap (s : State) (who : Initiator) (store : Bool) (addr : Nat) : State :=
  if who == .tri then s.parts.foldl State.coreFault (s.noteTrap who store addr) else s.noteTrap who store addr

/-- Exclusion of core `n` with a cause (R79, R83): halted and held in CORE reset, its unresolved stores discarded; RETIRED
when the exclusions within the span reach the limit. A CORE reset opens a grace period (R53, R410), and an exclusion sets the
clean cycles of a trial back (R441). -/
def State.exclude (s : State) (n cause : Nat) : State :=
  let c := s.core n
  let now := s.localNow
  let span := atLeast1 (s.get TRI_CTRL.RETIRE_SPAN) * 60 * 1000000000
  let recent := now :: c.exclusions.filter (fun t => now < t + span)
  let retired := atLeast1 (s.get TRI_CTRL.RETIRE_LIMIT) ≤ recent.length
  let s := s.setCore n { TriCore.init with st := (if retired then .retired else .excluded), exclusions := recent }
  let s := match n with
    | 0 => s.put TRI_CAUSE.CAUSE0 cause
    | 1 => s.put TRI_CAUSE.CAUSE1 cause
    | _ => s.put TRI_CAUSE.CAUSE2 cause
  let s := ((s.inc TRI_EXCL_CNT).inc SYS_DOMRST_CNT).put UPD_CLEAN.CLEAN 0
  s.graceByReset

/-! ### Image banks (R90, R91, R94) -/

/-- Input bank `b` of core `n` (R90). -/
def inBank (n b : Nat) : Nat := tcmBase n + 0x60000 + b * 0x8000
/-- Output bank `b` of core `n` (R90). -/
def outBank (n b : Nat) : Nat := tcmBase n + 0x70000 + b * 0x8000
/-- A store of core `n` to its output image region at `off` (R67, R68, R91): folded and performed while its window is open. -/
def State.imageStore (s : State) (n off size v : Nat) : State :=
  if (s.core n).done then s.lateFold n
  else if !(s.core n).started then s
  else (s.fold n 1 size off v).store (outBank n 0 + off) size v

/-- Published output image bank `b` in shared SRAM (R94). -/
def pubCopy (b : Nat) : Nat := sramBase + b * 0x8000
/-- Input image mirror bank `b` in shared SRAM (R94). -/
def inMirror (b : Nat) : Nat := sramBase + 0x10000 + b * 0x8000
/-- Publication buffer `b` (R101), which no initiator reaches; the model keys it outside the physical map (assumption 6). -/
def pubBuf (b : Nat) : Nat := 0x210000000 + b * 0x8000

/-- The live input bank: that of the next cycle (R95). -/
def State.liveBank (s : State) : Nat := (s.get CYC_CYCLE_CNT + 1) % 2

/-- The cores whose live bank the engine keeps: every core that is not RETIRED (R95). -/
def State.liveCores (s : State) : List Nat := [0, 1, 2].filter (fun n => (s.core n).st != .retired)

/-- Bytes stored at offset `off` of the live input bank of every core that is not RETIRED (R95). -/
def State.liveStore (s : State) (off : Nat) (bs : List Byte) : State :=
  s.liveCores.foldl (fun s n => s.storeBytes (inBank n s.liveBank + off) bs) s

/-- The 8-byte word `w` of the live input bank. -/
def State.liveWord (s : State) (w : Nat) : Nat := s.load (inBank (s.liveCores.headD 0) s.liveBank + 8 * w) 8

/-! ### Forces (R115 to R121) -/

/-- The bound entries of a target, lowest number first. -/
def State.bound (s : State) (target : Nat) : List Nat :=
  if s.flag CYC_STAT.FORCED then
    (List.range 256).filter (fun n => s.flag (CYC_FORCE.VALID n) && s.get (CYC_FORCE.TARGET n) == target)
  else []

/-- `v` with the bits under `mask` taken from `w`. -/
def underMask (v mask w : Nat) : Nat := (v &&& (mask ^^^ (2 ^ 64 - 1))) ||| (w &&& mask)

/-- Word `w` as it would stand without input forces: every bound entry's bits as its RAW holds them (R117). -/
def State.unforced (s : State) (w v : Nat) : Nat :=
  ((s.bound 0).filter (fun n => s.get (CYC_FORCE.WORD n) == w)).foldl
    (fun v n => underMask v (s.get (CYC_FORCE.MASK n)) (s.get (CYC_FORCE.RAW n))) v

/-- Word `w` with the forces of a target laid over it, the higher-numbered entry last (R118, R119). -/
def State.forced (s : State) (target w v : Nat) : Nat :=
  ((s.bound target).filter (fun n => s.get (CYC_FORCE.WORD n) == w)).foldl
    (fun v n => underMask v (s.get (CYC_FORCE.MASK n)) (s.get (CYC_FORCE.VALUE n))) v

/-- An arriving 8-byte word under input forces (R117): RAW takes the arriving bits, the live banks the forced word. -/
def State.arriveWord (s : State) (w v : Nat) : State :=
  let s := ((s.bound 0).filter (fun n => s.get (CYC_FORCE.WORD n) == w)).foldl
    (fun s n => s.put (CYC_FORCE.RAW n) (v &&& s.get (CYC_FORCE.MASK n))) s
  s.liveStore (8 * w) (leBytes 8 (s.forced 0 w v))

/-- One unit written into all live banks (R95); bits under an input force go to RAW instead (R117). -/
def State.liveWrite (s : State) (off : Nat) (bs : List Byte) : State :=
  if (s.bound 0).isEmpty then s.liveStore off bs
  else
    let w0 := off / 8
    let nw := (off + bs.length + 7) / 8 - w0
    (List.range nw).foldl (fun s i =>
      let w := w0 + i
      let old := leBytes 8 (s.unforced w (s.liveWord w))
      let new := (List.range 8).map (fun j =>
        let a := 8 * w + j
        if off ≤ a && a < off + bs.length then bs.getD (a - off) 0 else old.getD j 0)
      s.arriveWord w (leNat new)) s

/-- CYC_STAT.FORCED and SYS_STAT.FORCED follow the bound entries (R120). -/
def State.showForced (s : State) : State :=
  let b := (List.range 256).any (fun n => s.flag (CYC_FORCE.VALID n))
  (s.putFlag CYC_STAT.FORCED b).putFlag SYS_STAT.FORCED b

/-- Binding of entry `n` as its words stand (R116, R117): an input force saves the present bits and forces every live bank. -/
def State.bindForce (s : State) (n : Nat) : State :=
  let w := s.get (CYC_FORCE.WORD n)
  if s.get (CYC_FORCE.TARGET n) == 0 then
    let raw := s.unforced w (s.liveWord w)
    let s := s.put (CYC_FORCE.RAW n) (raw &&& s.get (CYC_FORCE.MASK n))
    let s := (s.putFlag (CYC_FORCE.VALID n) true).showForced
    s.liveStore (8 * w) (leBytes 8 (s.forced 0 w raw))
  else ((s.put (CYC_FORCE.RAW n) 0).putFlag (CYC_FORCE.VALID n) true).showForced

/-- Release of entry `n` (R117, R119): RAW comes back under MASK for the bits no other bound entry covers. -/
def State.releaseForce (s : State) (n : Nat) : State :=
  let w := s.get (CYC_FORCE.WORD n)
  if s.get (CYC_FORCE.TARGET n) == 0 then
    let raw := s.unforced w (s.liveWord w)
    let s := (s.putFlag (CYC_FORCE.VALID n) false).showForced
    s.liveStore (8 * w) (leBytes 8 (s.forced 0 w raw))
  else (s.putFlag (CYC_FORCE.VALID n) false).showForced

/-- A drop (R121): release, count, record. -/
def State.dropForce (s : State) (n token : Nat) : State := ((s.releaseForce n).inc CYC_FORCE_DROP_CNT).recordForce 3 n token

/-- Every entry bound in a mode other than the present one is dropped (R121): entry MODE 1 is SERVICE, 2 is ACTIVE. -/
def State.dropForces (s : State) : State :=
  if s.flag CYC_STAT.FORCED then
    (List.range 256).foldl (fun s n =>
      let here := (s.get (CYC_FORCE.MODE n) == 1 && s.get SYS_STAT.MODE == 1)
        || (s.get (CYC_FORCE.MODE n) == 2 && s.get SYS_STAT.MODE == 3)
      if s.flag (CYC_FORCE.VALID n) && !here then s.dropForce n 0 else s) s
  else s

end Sys2Proof.Machine
end

