-- ==== Sys2Proof/Machine/TripOps.lean ====
section
/-! DEFINITION. Machine/TripOps.lean: function latches of the trip fabric (R215, R216) and what the rest of the module
reads of a trip output. -/
namespace Sys2Proof.Machine
open Reg

/-- Address of the attribute word of trip output `j` in bank `b` (R205). -/
def tripAttrAddr (b j : Nat) : Nat := 0x21280000 + b * 0x1000 + 4 * j

/-- The attribute word of trip output `j` in the active bank (R201, R205). -/
def State.tripAttr (s : State) (j : Nat) : Nat := s.load (tripAttrAddr (s.get TRIP_STAT.BANK) j) 4

/-- The function that trip output `j` is bound to (R201). -/
def State.tripFn (s : State) (j : Nat) : Option Nat :=
  let a := s.tripAttr j
  if bitOf a 6 then some (bitsOf a 1 5) else none

/-- The voted trip output `j` (R202). -/
def State.tripOut (s : State) (j : Nat) : Bool := s.trip.outs.getLsbD j

/-- Whether DIO channel `n` is driven by an output that function `fn` binds (R215). -/
def State.fnDrives (s : State) (fn n : Nat) : Bool := s.flag (TRIP_DOUT.EN n) && s.tripFn (s.get (TRIP_DOUT.OUT n)) == some fn

/-- Whether source `i` is the module's own entry, without PAIR (R211): sending or not (assumption 157). -/
def State.ownAlone (s : State) (i : Nat) : Bool := s.get TRIP_SELF.SRC == i && s.flag (TRIP_SRC.EN i) && !s.flag (TRIP_SRC.PAIR i)

/-- Whether source `i` is lost (R211): its LIVE bit is 0, which it never is of an own source without PAIR. -/
def State.srcLost (s : State) (i : Nat) : Bool := !s.flag (TRIP_SRC_STAT.LIVE i) && !s.ownAlone i

/-- Whether a cause of R215 is present for function `n`; EVAL and START are never present, a category outside CATS does not count. -/
def State.causePresent (s : State) (n : Nat) : Bool :=
  let cats := s.get (TRIP_FN.CATS n)
  let mask := s.get (TRIP_FN_SRC.MASK n)
  s.get SYS_STAT.MODE == 4
  || (bitOf cats 0 && (List.range 32).any (fun i => bitOf mask i && s.srcLost i))
  || (bitOf cats 1 && (List.range 64).any (fun c => s.flag (DIO_CH_STAT.FAULTED c) && s.fnDrives n c))
  || (bitOf cats 2 && s.flag TRIP_STAT.PRG_KICK)

/-- TRIP_FNn STAT.PRESENT follows the causes (R215). -/
def State.showPresent (s : State) : State :=
  (List.range 32).foldl (fun s n => s.putIf (TRIP_FN_STAT.PRESENT n) (s.causePresent n).toNat) s

/-- The trip area of the input image (R206): T0 to T511, LIVE, the latched functions, zeros. -/
def State.tripArea (s : State) : State :=
  let mask := fun p => (List.range 32).foldl (fun v n => if p n then v + 2 ^ n else v) 0
  s.liveWrite (s.get TRIP_CFG.IMG_OFF)
    (leBytes 64 s.trip.outs.toNat ++ leBytes 4 (mask (fun i => !s.srcLost i))
      ++ leBytes 4 (mask (fun n => s.flag (TRIP_FN_STAT.LATCHED n))) ++ leBytes 8 0)

/-- Function `n` latches with a cause, or, latched already, takes the latest cause (R216). -/
def State.fnLatch (s : State) (n cause : Nat) : State :=
  if s.flag (TRIP_FN_STAT.LATCHED n) then s.put (TRIP_FN_STAT.CAUSE n) cause
  else
    let s := (s.putFlag (TRIP_FN_STAT.LATCHED n) true).put (TRIP_FN_STAT.CAUSE n) cause
    (s.inc TRIP_LATCH_CNT).recordTrip 1 n cause 0

/-- A fault of category bit `cat` (0 SPOKE_LOSS, 1 OUT, 2 PRG, 3 EVAL) latches every function that `hit` selects and whose
CATS hold it (R215). The latch cause is the category's number plus 2. -/
def State.faultFns (s : State) (cat : Nat) (hit : Nat → Bool) : State :=
  ((List.range 32).foldl (fun s n => if bitOf (s.get (TRIP_FN.CATS n)) cat && hit n then s.fnLatch n (cat + 2) else s) s).showPresent.tripArea

/-- Entry into LOCKOUT latches every function with cause MODE (R216). -/
def State.latchAll (s : State) : State := ((List.range 32).foldl (fun s n => s.fnLatch n 6) s).showPresent.tripArea

/-- Function `n` opens (R216, R358): record code 2 a restart, which counts, 3 a reopening; `token` is the identity of the
restart's token, 0 where there is none. The record keeps the cause that ends. -/
def State.fnOpen (s : State) (n code token : Nat) : State :=
  let cause := s.get (TRIP_FN_STAT.CAUSE n)
  let s := (s.putFlag (TRIP_FN_STAT.LATCHED n) false).put (TRIP_FN_STAT.CAUSE n) 0
  let s := if code = 2 then s.inc TRIP_RESTART_CNT else s
  (s.recordTrip code n cause token).tripArea

/-- Source `i` is lost (R211): its bits and LIVE go to 0, the loss counts, and functions with SPOKE_LOSS latch. -/
def State.loseSource (s : State) (i : Nat) : State :=
  let s := ((s.putFlag (TRIP_SRC_STAT.LIVE i) false).put (TRIP_SRC_STAT.BITS i) 0).inc TRIP_LOSS_CNT
  s.faultFns 0 (fun n => bitOf (s.get (TRIP_FN_SRC.MASK n)) i)

/-- LANE is no longer synchronised: every source is lost but an own one without PAIR, and the module sends no spokes (R208, R211;
assumption 158). -/
def State.loseSources (s : State) : State :=
  let s := { s with trip := { s.trip with sending := false } }
  ((List.range 32).filter (fun i => !s.srcLost i && !s.ownAlone i)).foldl State.loseSource s

/-- The sources, functions and trip area as the exit from BOOT finds them: the LIVE bit of an own source without PAIR (R206, R211, R215). -/
def State.tripStart (s : State) : State :=
  let n := s.get TRIP_SELF.SRC
  ((if s.ownAlone n then s.putFlag (TRIP_SRC_STAT.LIVE n) true else s).showPresent).tripArea

/-- Program terms go to 0 (R207): PRG_KICK, its entry counted and latching PRG functions. -/
def State.prgKick (s : State) : State :=
  let s := { s with trip := { s.trip with prg := 0 } }
  if s.flag TRIP_STAT.PRG_KICK then s
  else ((s.putFlag TRIP_STAT.PRG_KICK true).inc TRIP_PRG_TMO_CNT).faultFns 2 (fun _ => true)

end Sys2Proof.Machine
end

