-- ==== Sys2Proof/Machine/Dio.lean ====
section
/-! DEFINITION. Machine/Dio.lean: field inputs, outputs, test pulses and channel faults (R309 to R327, R500). -/
namespace Sys2Proof.Machine
open Reg

/-- Channel `n` beyond its registers. -/
def State.chan (s : State) (n : Nat) : Chan := SMap.getD s.dio.chans n Chan.init

/-- The state with channel `n` replaced. -/
def State.setChan (s : State) (n : Nat) (c : Chan) : State :=
  { s with dio := { s.dio with chans := SMap.set s.dio.chans n c } }

/-- Whether group `g` is used: UN 1 to 5 (R309). -/
def State.grpUsed (s : State) (g : Nat) : Bool := 1 ≤ s.get (DIO_GRP.UN g) && s.get (DIO_GRP.UN g) ≤ 5

/-- Personality of channel `n`: 0 INPUT, 1 OUTPUT, 2 PULSE; 3 acts as INPUT, and so does an unused group's channel (R309, R310). -/
def State.pers (s : State) (n : Nat) : Nat :=
  if s.grpUsed (n / 8) then s.get (DIO_CH_CFG.PERS n) % 3 else 0

/-- Whether channel `n` is driven by a trip output (R206). -/
def State.tripBound (s : State) (n : Nat) : Bool := s.flag (TRIP_DOUT.EN n)

/-- Whether channel `n` is a program-driven output (R320). -/
def State.prgDriven (s : State) (n : Nat) : Bool := s.pers n == 1 && !s.tripBound n

/-- The step count of an axis at time `now` (R189). -/
def MAxis.stepsAt (m : MAxis) (now : Nat) : Int := m.steps - ((m.rises.filter (fun (r : Nat × Int) => now < r.1)).map Prod.snd).foldl (· + ·) 0

/-- Whether a step pulse of 20 µs is high on channel `n` (R189). -/
def State.stepHigh (s : State) (n : Nat) : Bool :=
  (List.range 8).any (fun k => s.flag (MOT_PULSE.EN k) && s.get (MOT_PULSE.STEP_CH k) == n
    && (SMap.getD s.door.mot (s.get (MOT_PULSE.AXIS k)) MAxis.init).rises.any (fun r => r.1 ≤ s.localNow && s.localNow < r.1 + 20000))

/-- The demand of channel `n` from its source (R189, R320). -/
def State.sourceDemand (s : State) (n : Nat) : Bool :=
  if s.tripBound n then s.tripOut (s.get (TRIP_DOUT.OUT n))
  else if s.pers n == 2 then bitOf s.dio.pulse n || s.stepHigh n
  else bitOf s.dio.pubWord n

/-- Whether a trigger for all channels holds (R321): neither ACTIVE nor SERVICE, a mismatch with ACTION SAFE, stage 4. -/
def State.kickEvery (s : State) : Bool :=
  !(s.get SYS_STAT.MODE == 3 || s.get SYS_STAT.MODE == 1)
  || (s.flag REGG_STAT.CFG_MISMATCH && s.get REGG_CFG_CTRL.ACTION == 1)
  || s.get PWR_STAT.STAGE == 4

/-- Whether a Kickstand trigger of R321 holds for channel `n`. -/
def State.chanKick (s : State) (n : Nat) : Bool :=
  s.pers n != 0 &&
  (s.flag DIO_STAT.KICK_ALL || (s.tripBound n && s.flag DIO_STAT.KICK_TRIP)
    || (s.pers n == 2 && bitOf s.dio.pulseKick n) || (s.prgDriven n && s.flag DIO_STAT.KICK_PRG))

/-- The demand after Kickstand (R320, R321). -/
def State.chanDemand (s : State) (n : Nat) : Bool :=
  if s.pers n == 0 then false
  else if s.chanKick n then s.prgDriven n && s.flag (DIO_CH_CFG.KICK n)
  else s.sourceDemand n

/-- Whether a group condition holds every OUTPUT channel of group `g` off (R317, R319). -/
def State.grpHeld (s : State) (g : Nat) : Bool :=
  s.flag (DIO_GSTAT.UV g) || s.flag (DIO_GSTAT.OV g) || s.flag (DIO_GSTAT.OVC g)
    || s.flag (DIO_GSTAT.CUT g) || s.flag (DIO_GSTAT.GSW g)

/-- The driver of channel `n` (R219, R320, R325): a light test drives even a faulted channel; a fault, a group condition,
an untested group switch (R319), the driver's own silence (R500) or shedding stage 4, whatever KICK says (R408), holds it off. -/
def State.driveOf (s : State) (n : Nat) (c : Chan) : Bool :=
  !c.dead && s.get PWR_STAT.STAGE != 4 && (s.pers n == 2 || (s.pers n == 1 && bitOf s.dio.tested (n / 8) && !s.grpHeld (n / 8)))
    && (c.test == 2 || (c.test == 0 && c.demand && !s.flag (DIO_CH_STAT.FAULTED n)))

/-- The DIO area of the input image as it stands (R327). -/
def State.dioArea (s : State) : List Byte :=
  leBytes 8 (s.get DIO.STATE) ++ leBytes 8 (s.get DIO.FAULT)
    ++ (List.range 8).map (fun g => BitVec.ofNat 8 (s.get (DIO_GSTAT.UV g) + 2 * s.get (DIO_GSTAT.OV g)
        + 4 * s.get (DIO_GSTAT.OVC g) + 8 * s.get (DIO_GSTAT.CUT g) + 16 * s.get (DIO_GSTAT.GSW g)))

/-- The DIO area written as one unit (R95, R327). -/
def State.dioImage (s : State) : State := s.liveWrite (s.get DIO_CFG.IN_OFF) s.dioArea

/-- The state of channel `n` shown: DIO_STATE and STAT.PIN (R327). -/
def State.setPin (s : State) (n : Nat) (b : Bool) : State :=
  (s.putIf DIO.STATE (setBit (s.get DIO.STATE) n b)).putIf (DIO_CH_STAT.PIN n) b.toNat

/-- Whether the readback of channel `n` follows its driver: not while STUCK_ON, STUCK_OFF or TEST stands (assumption 7). -/
def State.pinFollows (s : State) (n : Nat) : Bool :=
  !(s.flag (DIO_CH_STAT.FAULTED n) && 2 ≤ s.get (DIO_CH_STAT.CAUSE n) && s.get (DIO_CH_STAT.CAUSE n) ≤ 4)

/-- Whether something other than the demand holds the driver of channel `n` off while a test runs (R220, R316, R317, R320). -/
def State.testCut (s : State) (n : Nat) : Bool :=
  let c := s.chan n
  c.dead || s.get PWR_STAT.STAGE == 4 || s.grpHeld (n / 8) || (c.test == 1 && s.flag (DIO_CH_STAT.FAULTED n))

/-- Channel `n` brought up to date: demand, arbiter (a change of demand and any other OFF discard a running test, R219, R324), driver,
readback, STAT; a demand ON breaks the clearing condition of STUCK_OFF and TEST (R325). -/
def State.chanUpdate (s : State) (n : Nat) : State :=
  let c := s.chan n
  let d := s.chanDemand n
  let discard := c.test != 0 && (d != c.demand || s.testCut n)
  let s := if discard then s.inc (DIO_CH_SKIP_CNT n) else s
  let breaks := d && s.flag (DIO_CH_STAT.FAULTED n) && (s.get (DIO_CH_STAT.CAUSE n) == 3 || s.get (DIO_CH_STAT.CAUSE n) == 4)
  let c1 : Chan := { c with
    demand := d, test := if discard then 0 else c.test, sinceOn := if d then some 0 else c.sinceOn
    clearTicks := if breaks then 0 else c.clearTicks, lightPassed := c.lightPassed && !breaks }
  let drv := s.driveOf n c1
  let c2 : Chan := { c1 with drv := drv, drvAt := if drv == c.drv then c.drvAt else s.localNow }
  let s := if c2 = c then s else s.setChan n c2
  let s := if c2.drv != c.drv && s.pinFollows n then s.setPin n c2.drv else s
  let dem := if c2.test == 1 then false else c2.test == 2 || d
  let s := s.putIf DIO.DEM (setBit (s.get DIO.DEM) n dem)
  let s := s.putIf (DIO_CH_STAT.TESTING n) (c2.test != 0).toNat
  let s := s.putIf (DIO_CH_STAT.KICK n) (s.chanKick n).toNat
  s.putIf (DIO_CH_STAT.TRIP n) (s.tripBound n).toNat

/-- Channels brought up to date; a change of the image area is written (R320, R327). -/
def State.chansUpdate (s : State) (l : List Nat) : State :=
  let s' := l.foldl State.chanUpdate s
  if s'.dioArea = s.dioArea then s' else s'.dioImage

/-- All outputs brought up to date after a change of demand, mode, Kickstand, fault or group condition (R320, R327). -/
def State.dioRefresh (s : State) : State := (s.putIf DIO_STAT.KICK_ALL s.kickEvery.toNat).chansUpdate (List.range 64)

/-- The STEP channels of the local axes (R188). -/
def State.stepChans (s : State) : List Nat :=
  ((List.range 8).filter (fun k => s.flag (MOT_PULSE.EN k) && s.pers (s.get (MOT_PULSE.STEP_CH k)) == 2)).map (fun k => s.get (MOT_PULSE.STEP_CH k))

/-- The time bases at `t` ns after the latest local tick edge (R281). From a reset until its sequence has ended LOCAL holds 0 (R396). -/
def State.timeAt (s : State) (t : Nat) : State := ({ s with ofs := if s.pwr.inReset then 0 else t }).showTime

/-- The state at `t` ns after the latest local tick edge: the time bases, and the STEP channels, which follow their pulses (R189, R320). -/
def State.at_ (s : State) (t : Nat) : State :=
  let s := s.timeAt t
  if s.stepChans.isEmpty then s else s.chansUpdate s.stepChans

/-! ### Channel faults (R316 to R319, R325) -/

/-- Channel `n` enters a fault (R325), which discards a running test (R324): a channel already faulted takes no further cause, but a current
limit in its light test switches the driver off (R316). Causes SHORT to TEST are OUT faults of the functions that drive the channel (R215). -/
def State.chanFault (s : State) (n cause : Nat) : State :=
  let s := if (s.chan n).test != 0 && (cause == 1 || !s.flag (DIO_CH_STAT.FAULTED n)) then
      (s.setChan n { s.chan n with test := 0 }).inc (DIO_CH_SKIP_CNT n)
    else s
  if s.flag (DIO_CH_STAT.FAULTED n) then s
  else
    let s := (s.put (DIO_CH_STAT.CAUSE n) cause).putFlag (DIO_CH_STAT.FAULTED n) true
    let s := (s.putBit DIO.FAULT n true).inc DIO_FAULT_CNT
    let s := s.put DIO_STAT.NFAULT (s.get DIO_STAT.NFAULT + 1)
    let s := if cause == 1 then s.inc DIO_SHORT_CNT else s
    let s := s.setChan n { s.chan n with clearTicks := 0, lightPassed := false }
    let s := s.recordChannel 1 n cause (s.get (DIO_GSTAT.VG (n / 8)))
    if cause ≤ 4 then s.faultFns 1 (fun f => s.fnDrives f n) else s.showPresent

/-- Every OUTPUT channel of group `g` but `skip` faults with `cause` (R317, R319). -/
def State.grpFault (s : State) (g cause : Nat) (skip : Nat) : State :=
  (List.range 8).foldl (fun s i => if s.pers (8 * g + i) == 1 && 8 * g + i != skip then s.chanFault (8 * g + i) cause else s) s

/-- The fault of channel `n` ends (R325). -/
def State.chanHeal (s : State) (n : Nat) : State :=
  let s := (s.put (DIO_CH_STAT.CAUSE n) 0).putFlag (DIO_CH_STAT.FAULTED n) false
  let s := (s.putBit DIO.FAULT n false).put DIO_STAT.NFAULT (s.get DIO_STAT.NFAULT - 1)
  (s.setChan n { s.chan n with clearTicks := 0, lightPassed := false }).showPresent

/-- STUCK_ON or STUCK_OFF of channel `n` (R318); a new STUCK_ON with DIO_GRPg.CUT opens the group
switch (R319). -/
def State.stuck (s : State) (n : Nat) (on : Bool) : State :=
  let new := !s.flag (DIO_CH_STAT.FAULTED n)
  let s := s.chanFault n (if on then 2 else 3)
  if new && on && s.flag (DIO_GRP.CUT (n / 8)) then (s.putFlag (DIO_GSTAT.CUT (n / 8)) true).grpFault (n / 8) 5 n else s

/-- The clearing condition of the present fault of channel `n` as it stands now (R325). -/
def State.clearNow (s : State) (n : Nat) : Bool :=
  let g := n / 8
  let off := !s.bit DIO.STATE n
  match s.get (DIO_CH_STAT.CAUSE n) with
  | 1 => !(s.chan n).demand
  | 2 => off
  | 3 | 4 => off && !(s.chan n).demand
  | 5 => !(s.flag (DIO_GSTAT.UV g) || s.flag (DIO_GSTAT.OV g) || s.flag (DIO_GSTAT.GSW g) || s.flag (DIO_GSTAT.CUT g))
  | 6 => !s.flag (DIO_GSTAT.OVC g)
  | _ => false

/-- Whether the clearing column of R325 is met for channel `n`. -/
def State.clearMet (s : State) (n : Nat) : Bool :=
  let c := s.chan n
  match s.get (DIO_CH_STAT.CAUSE n) with
  | 1 => 1 ≤ c.clearTicks
  | 2 | 3 | 4 => 16 ≤ c.clearTicks && (c.lightPassed || !s.flag (DIO_CH_CFG.TEST_EN n))
  | _ => s.clearNow n

/-- Whether RB_SETTLE × 10 µs have passed since the last change of channel `n`'s driver, so that its readback is judged (R318, R325). -/
def State.settled (s : State) (n : Nat) : Bool :=
  (s.chan n).drvAt + 10000 * atLeast1 (s.get (DIO_CH_CFG2.RB_SETTLE n)) ≤ s.localNow

/-- Whether the clearing condition of the present fault of channel `n` is broken now (R325): readback in a test pulse and its settle time
is not judged, the demand always is. -/
def State.clearBroken (s : State) (n : Nat) : Bool :=
  let k := s.get (DIO_CH_STAT.CAUSE n)
  if 2 ≤ k && k ≤ 4 then
    (s.bit DIO.STATE n && (s.chan n).test == 0 && s.settled n) || (k != 2 && (s.chan n).demand)
  else !s.clearNow n

/-- A break in the clearing condition starts its 16 ticks again (R325). -/
def State.breakClear (s : State) (n : Nat) : State :=
  if s.flag (DIO_CH_STAT.FAULTED n) && s.get (DIO_CH_STAT.CAUSE n) != 1 && s.clearBroken n then
    s.setChan n { s.chan n with clearTicks := 0, lightPassed := false }
  else s

/-- One local tick edge of channel `n`'s counters (R219, R323, R325); SHORT needs the demand OFF at one edge. -/
def State.chanTick (s : State) (n : Nat) : State :=
  let c := s.chan n
  let held := s.flag (DIO_CH_STAT.FAULTED n) && !s.clearBroken n
  let keep := held || (s.get (DIO_CH_STAT.CAUSE n) == 1 && s.flag (DIO_CH_STAT.FAULTED n) && 1 ≤ c.clearTicks)
  let c' : Chan :=
    { c with
      sinceDark := c.sinceDark + 1
      sinceLight := c.sinceLight + 1
      sinceOn := if c.demand then some 0 else c.sinceOn.map (· + 1)
      clearTicks := if held then c.clearTicks + 1 else if keep then c.clearTicks else 0
      lightPassed := keep && c.lightPassed }
  s.setChan n c'

/-- Un of group `g` in 0.1 V (R309). -/
def State.grpUn (s : State) (g : Nat) : Nat :=
  match s.get (DIO_GRP.UN g) with
  | 1 => 240
  | 2 => 480
  | 3 => 720
  | 4 => 960
  | _ => 1100

/-- The edges for which group `g`'s supply has stood below 0.6 Un, above 0.65 Un and above 1.45 Un (R317). -/
def State.voltsOf (s : State) (g : Nat) : Nat × Nat × Nat := SMap.getD s.dio.volts g (0, 0, 0)

/-- The supply monitor of group `g` at a local tick edge (R317). -/
def State.voltTick (s : State) (g : Nat) : State :=
  let v := s.get (DIO_GSTAT.VG g)
  let un := s.grpUn g
  let o := s.voltsOf g
  let run := fun (b : Bool) (k : Nat) => if b then min 200 (k + 1) else 0
  { s with dio := { s.dio with
    volts := SMap.set s.dio.volts g (run (10 * v < 6 * un) o.1, run (65 * un < 100 * v) o.2.1, run (145 * un < 100 * v) o.2.2) } }

/-- The DIO work of a local tick edge: counters of the channels in use, OVC time, trip silence (R317, R322), pulse
refreshes (R321). -/
def State.dioTick (s : State) : State :=
  let s := (List.range 64).foldl (fun s n => if s.grpUsed (n / 8) then s.chanTick n else s) s
  let s := (List.range 8).foldl (fun s g => if s.grpUsed g then s.voltTick g else s) s
  let silent := if s.dio.evalSeen then 0 else s.dio.silent + 1
  let kickTrip := s.flag DIO_STAT.KICK_TRIP && !s.dio.evalSeen
  let s := { s with dio := { s.dio with
    ovc := s.dio.ovc.map (fun (p : Nat × Nat) => (p.1, p.2 + 1))
    silent := silent
    evalSeen := false
    pulseAge := s.dio.pulseAge.map (fun (p : Nat × Nat) => (p.1, p.2 + 1)) } }
  if kickTrip == s.flag DIO_STAT.KICK_TRIP then s else (s.putFlag DIO_STAT.KICK_TRIP kickTrip).dioRefresh

/-! ### Commands -/

/-- Filter time of channel `n` in ns (R313). -/
def State.filterNs (s : State) (n : Nat) : Nat := s.get (DIO_CH_CFG.FILT n) * (if s.flag (DIO_CH_CFG.FU n) then 100000 else 1000)

/-- Whether a change of INPUT channel `n` may pass its filter now (R313): the raw state has changed and stood for FILT since the last change
that passed; a qualified change takes two samples of 0.5 µs. -/
def State.filterMay (s : State) (n : Nat) : Bool :=
  match SMap.find s.time.events n with
  | some e => e + max 1000 (s.filterNs n) ≤ s.localNow
  | none => true

/-- The home captures of local axes whose home switch is channel `n` (R190): the step count when its raw edge came, which the filter has
passed now. -/
def State.homeCapture (s : State) (n : Nat) : State :=
  (List.range 8).foldl (fun s k =>
    if s.flag (MOT_PULSE.EN k) && s.get (MOT_PULSE_IN0.HOME k) == 64 + n then
      let m := SMap.getD s.door.mot (s.get (MOT_PULSE.AXIS k)) MAxis.init
      { s with door := { s.door with
        mot := SMap.set s.door.mot (s.get (MOT_PULSE.AXIS k)) { m with hcount := m.stepsAt (s.localNow - s.filterNs n) } } }
    else s) s

/-- INPUT_FILTERED_EDGE (R313, R314): the filtered state of an INPUT channel changes, counts, and wets the contact where a
pulse may start; for an OUTPUT or PULSE channel, the readback comparator changes (R318, assumption 7). -/
def execInputFilteredEdge (t ch : Nat) (level : Bool) (s : State) : Result :=
  let s := s.at_ t
  if !s.grpUsed (ch / 8) || s.bit DIO.STATE ch == level || 64 ≤ ch || (s.pers ch == 0 && !s.filterMay ch) then .next s
  else
    let s := s.setPin ch level
    let s :=
      if s.pers ch == 0 then
        let s := ((s.stampEvent ch).inc (DIO_CH_EDGE_CNT ch)).homeCapture ch
        if !s.flag (DIO_CH_CFG.WET ch) || s.flag (DIO_CH_STAT.WETTING ch) then s
        else
          let wetting := ((List.range 8).filter (fun i => s.flag (DIO_CH_STAT.WETTING (8 * (ch / 8) + i)))).length
          let tooSoon := match (s.chan ch).wetEnd with
            | some e => s.localNow < e + 18000000
            | none => false
          if tooSoon || 4 ≤ wetting then s.inc DIO_WET_SKIP_CNT
          else (s.putFlag (DIO_CH_STAT.WETTING ch) true).setChan ch { s.chan ch with wetFrom := some s.localNow }
      else s.breakClear ch
    .next s.dioImage

/-- Whether the wetting pulse of channel `ch` has lasted 2.0 ms, less the tolerance of 0.1 ms (R314). -/
def State.wetDone (s : State) (ch : Nat) : Bool :=
  match (s.chan ch).wetFrom with
  | some b => b + 1900000 ≤ s.localNow
  | none => true

/-- WETTING_END (R314). -/
def execWettingEnd (t ch : Nat) (s : State) : Result :=
  let s := s.at_ t
  if s.flag (DIO_CH_STAT.WETTING ch) && s.wetDone ch then
    .next ((s.putFlag (DIO_CH_STAT.WETTING ch) false).setChan ch { s.chan ch with wetFrom := none, wetEnd := some s.localNow })
  else .next s

/-- OUTPUT_SHORT (R316): 50 µs in current limit with the driver on. -/
def execOutputShort (t ch : Nat) (s : State) : Result :=
  let s := s.at_ t
  if s.pers ch == 1 && (s.chan ch).drv then .next ((s.chanFault ch 1).dioRefresh.dioImage) else .next s

/-- Entry of group `g` into UV or OV (R317). -/
def State.grpEnter (s : State) (g : Nat) (f : Fld) (cause : Nat) : State :=
  if !s.grpUsed g || s.flag f then s
  else (((s.putFlag f true).inc DIO_GRP_FLT_CNT).grpFault g cause 64).dioRefresh.dioImage

/-- End of a group condition (R317). -/
def State.grpLeave (s : State) (f : Fld) : State := if s.flag f then ((s.putFlag f false).dioRefresh).dioImage else s

/-- GROUP_UV_SET (R317): VGg below 0.6 Un for 1 ms. -/
def execGroupUvSet (t g : Nat) (s : State) : Result :=
  let s := s.at_ t
  .next (if 16 ≤ (s.voltsOf g).1 then s.grpEnter g (DIO_GSTAT.UV g) 5 else s)
/-- GROUP_UV_CLEAR (R317): VGg above 0.65 Un for 10 ms. -/
def execGroupUvClear (t g : Nat) (s : State) : Result :=
  let s := s.at_ t
  .next (if 160 ≤ (s.voltsOf g).2.1 then s.grpLeave (DIO_GSTAT.UV g) else s)
/-- GROUP_OV_SET (R317): VGg above 1.45 Un for 1 ms. -/
def execGroupOvSet (t g : Nat) (s : State) : Result :=
  let s := s.at_ t
  .next (if 16 ≤ (s.voltsOf g).2.2 then s.grpEnter g (DIO_GSTAT.OV g) 5 else s)
/-- GROUP_OV_CLEAR (R317): VGg below 1.4 Un. -/
def execGroupOvClear (t g : Nat) (s : State) : Result :=
  let s := s.at_ t
  .next (if 10 * s.get (DIO_GSTAT.VG g) < 14 * s.grpUn g then s.grpLeave (DIO_GSTAT.OV g) else s)

/-- GROUP_OVC_SET (R317): every output of the group off, OVC for 1,600 ticks. -/
def execGroupOvcSet (t g : Nat) (s : State) : Result :=
  let s := (s.at_ t).grpEnter g (DIO_GSTAT.OVC g) 6
  .next (if s.flag (DIO_GSTAT.OVC g) && (SMap.find s.dio.ovc g).isNone then
    { s with dio := { s.dio with ovc := SMap.set s.dio.ovc g 0 } } else s)

/-- GROUP_OVC_END (R317): 100 ms after it was set. -/
def execGroupOvcEnd (t g : Nat) (s : State) : Result :=
  let s := s.at_ t
  if 1600 ≤ SMap.getD s.dio.ovc g 0 && s.flag (DIO_GSTAT.OVC g) then
    .next (({ s with dio := { s.dio with ovc := SMap.erase s.dio.ovc g } }).grpLeave (DIO_GSTAT.OVC g))
  else .next s

/-- READBACK_MISMATCH (R318): two successive samples read `level`, against the driver, RB_SETTLE × 10 µs after its last change. No comparison during a test pulse;
PULSE channels are never compared (R326). -/
def execReadbackMismatch (t ch : Nat) (level : Bool) (s : State) : Result :=
  let s := s.at_ t
  let c := s.chan ch
  if s.pers ch != 1 || c.test != 0 || c.drv == level || !s.settled ch then .next s
  else .next (((s.setPin ch level).stuck ch level).dioRefresh.dioImage)

/-- GROUP_SWITCH_TEST (R319): `fell` says whether the sense behind the opened switch fell below 0.3 Un within 1 ms. -/
def execGroupSwitchTest (t g : Nat) (fell : Bool) (s : State) : Result :=
  let s := s.at_ t
  if !s.grpUsed g || bitOf s.dio.tested g || s.flag (DIO_GSTAT.GSW g) then .next s
  else if fell then .next (({ s with dio := { s.dio with tested := setBit s.dio.tested g true } }).dioRefresh)
  else .next (((s.putFlag (DIO_GSTAT.GSW g) true).grpFault g 5 64).dioRefresh.dioImage)

/-- TRIP_SILENCE (R322): SIL_TMO local edges without an evaluation, every trip-bound channel at Kickstand. -/
def execTripSilence (t : Nat) (s : State) : Result :=
  let s := s.at_ t
  if s.flag DIO_STAT.KICK_TRIP || s.dio.silent < atLeast1 (s.get DIO_CTRL.SIL_TMO) then .next s
  else .next (((s.putFlag DIO_STAT.KICK_TRIP true).inc DIO_SIL_CNT).dioRefresh)

/-- Whether a test runs in group `g` (R323). -/
def State.grpTesting (s : State) (g : Nat) : Bool := (List.range 8).any (fun i => (s.chan (8 * g + i)).test != 0)

/-- DARK_TEST_START (R323): due DARK_PER × 10 ms after the last completed dark test, with the driver on and no other test
of the group running. -/
def execDarkTestStart (t ch : Nat) (s : State) : Result :=
  let s := s.at_ t
  let c := s.chan ch
  let per := s.get (DIO_CH_TEST.DARK_PER ch)
  if s.pers ch == 1 && s.flag (DIO_CH_CFG.TEST_EN ch) && c.drv && per != 0 && msTicks (10 * per) ≤ c.sinceDark
      && !s.grpTesting (ch / 8)
  then .next ((s.setChan ch { c with test := 1, testAt := s.localNow }).dioRefresh)
  else .next s

/-- LIGHT_TEST_START (R323, R219): due LIGHT_PER × 10 ms after the last completed light test, with the driver off, no
demand ON in the last 16 ticks, no group condition holding the outputs off. Faulted channels are tested too (R325). -/
def execLightTestStart (t ch : Nat) (s : State) : Result :=
  let s := s.at_ t
  let c := s.chan ch
  let per := s.get (DIO_CH_TEST.LIGHT_PER ch)
  let quiet := match c.sinceOn with
    | some k => 16 ≤ k
    | none => true
  if s.pers ch == 1 && s.flag (DIO_CH_CFG.TEST_EN ch) && !c.drv && !c.demand && quiet && per != 0
      && msTicks (10 * per) ≤ c.sinceLight && !s.grpTesting (ch / 8) && !s.grpHeld (ch / 8) && bitOf s.dio.tested (ch / 8)
  then .next ((s.setChan ch { c with test := 2, testAt := s.localNow }).dioRefresh)
  else .next s

/-- Width in ns of the test pulse that channel `n` runs (R323). -/
def State.testWidth (s : State) (n : Nat) : Nat :=
  1000 * if (s.chan n).test == 1 then clampNat 10 250 (s.get (DIO_CH_CFG.DARK_W n)) else clampNat 10 80 (s.get (DIO_CH_CFG.LIGHT_W n))

/-- TEST_PULSE_END (R323, R324): the pulse has had its width and is judged from the last two readback samples `a` and `b`. -/
def execTestPulseEnd (t ch : Nat) (a b : Bool) (s : State) : Result :=
  let s := s.at_ t
  let c := s.chan ch
  if c.test == 0 || s.localNow < c.testAt + s.testWidth ch then .next s
  else
    let dark := c.test == 1
    let pass := if dark then !a && !b else a && b
    let c' : Chan :=
      { c with
        test := 0
        sinceDark := if dark then 0 else c.sinceDark
        sinceLight := if dark then c.sinceLight else 0
        lightPassed := c.lightPassed || (!dark && pass && 16 ≤ c.clearTicks) }
    let s := s.setChan ch c'
    let s := if pass then s.inc (DIO_CH_PASS_CNT ch) else (s.inc (DIO_CH_FAIL_CNT ch)).chanFault ch 4
    .next s.dioRefresh.dioImage

/-- CHANNEL_FAULT_CLEAR (R325): the clearing condition is met and the channel follows its demand again; a condition that
still holds faults it again at once, with its own cause. -/
def execChannelFaultClear (t ch : Nat) (s : State) : Result :=
  let s := s.at_ t
  if !s.flag (DIO_CH_STAT.FAULTED ch) || !s.clearMet ch then .next s
  else
    let g := ch / 8
    let s := s.chanHeal ch
    let s :=
      if s.pers ch != 1 then s
      else if s.flag (DIO_GSTAT.OVC g) then s.chanFault ch 6
      else if s.grpHeld g then s.chanFault ch 5
      else if s.bit DIO.STATE ch && !(s.chan ch).drv && s.settled ch then s.stuck ch true
      else s
    .next s.dioRefresh.dioImage

end Sys2Proof.Machine
end

