-- ==== Sys2Proof/Machine/RegGuard.lean ====
section
/-! DEFINITION. Machine/RegGuard.lean: write rights, access faults, unlocks and strobe requests (R35, R36, R41 to R45). -/
namespace Sys2Proof.Machine
open Reg

/-- The vital-only blocks TRI, CYC, SAFE, TRIP, DOOR, MOT and DIO, by offset (R24, R35). -/
def vitalBlock (b : Nat) : Bool := b == 4 || b == 5 || b == 9 || b == 0xB || b == 0xC || b == 0xD || b == 0xE

/-- Whether an initiator may write a block (R35). -/
def mayWrite (who : Initiator) (b : Nat) : Bool := !(who.isService && vitalBlock b)

/-- Whether the initiator holds an unlock for the block that has not expired (R41). -/
def State.unlocked (s : State) (who : Initiator) (b : Nat) : Bool :=
  match SMap.find s.regg.unlocks who.idx with
  | some u => u.block == b && u.edges < 2
  | none => false

/-- The initiator's unlock goes, and REGG_STAT.UNLOCK_HELD shows it. -/
def State.dropUnlock (s : State) (who : Initiator) : State :=
  ({ s with regg := { s.regg with unlocks := SMap.erase s.regg.unlocks who.idx } }).putBit REGG_STAT.UNLOCK_HELD who.idx false

/-- The initiator's next write to the block uses its unlock up (R41). -/
def State.consume (s : State) (who : Initiator) (b : Nat) : State := if s.unlocked who b then s.dropUnlock who else s

/-- A write to `addr` meets the guard (R35, R36, R41, R42): the state, and whether the write is performed. `right` is the
register's own right where a rule narrows it. A write without the right traps and touches no unlock; a guarded write
without an unlock is denied. -/
def State.gate (s : State) (who : Initiator) (addr : Nat) (guarded right : Bool) : State × Bool :=
  let b := blockOf addr
  if !s.acts who then (s, false)
  else if !mayWrite who b || !right then (s.trap who true addr, false)
  else if guarded && !s.unlocked who b then (s.inc REGG_DENY_CNT, false)
  else (s.consume who b, true)

/-- REGG_UNLOCK (R41, R42). -/
def execReggUnlock (who : Initiator) (key : BitVec 16) (block : BitVec 5) (s : State) : Result :=
  if !s.acts who then .next s
  else if key ≠ 0x4B1D then .next ((s.dropUnlock who).inc REGG_DENY_CNT)
  else if 0x15 < block.toNat || !mayWrite who block.toNat then .next (s.inc REGG_DENY_CNT)
  else
    let s := { s with regg := { s.regg with unlocks := SMap.set s.regg.unlocks who.idx ⟨block.toNat, 0⟩ } }
    .next (s.putBit REGG_STAT.UNLOCK_HELD who.idx true)

/-- UNLOCK_EXPIRY (R41): an unlock that no write has used by the second edge after it was written. -/
def execUnlockExpiry (who : Initiator) (s : State) : Result :=
  match SMap.find s.regg.unlocks who.idx with
  | some u => if 2 ≤ u.edges then .next ((s.dropUnlock who).inc REGG_EXPIRE_CNT) else .next s
  | none => .next s

/-- The strobe group of block `b` (R44). -/
def State.groupOf (s : State) (b : Nat) : Nat :=
  bitsOf (s.word (REGG_GRP_MAP.GRP0 (b / 8)).addr).toNat (4 * (b % 8)) 4

/-- Whether group `g` contains a vital-only block (R45). -/
def State.vitalGroup (s : State) (g : Nat) : Bool := (List.range 22).any (fun b => vitalBlock b && s.groupOf b == g)

/-- REGG_STROBE (R43, R45): a service core's bits for groups with a vital-only block are dropped, each counted; the rest
wait for the next edge, joined with earlier masks. -/
def execReggStrobe (who : Initiator) (groups : BitVec 16) (s : State) : Result :=
  if !s.acts who then .next s
  else
    let s := s.consume who 3
    let denied := (List.range 16).filter (fun g => groups.getLsbD g && who.isService && s.vitalGroup g)
    let kept := denied.foldl (fun v g => setBit v g false) groups.toNat
    let pend := s.get REGG_STROBE_PEND.GROUPS ||| kept
    let s := (s.add REGG_DENY_CNT denied.length).put REGG_STROBE_PEND.GROUPS pend
    .next (s.putFlag REGG_STAT.STROBE_PEND (pend != 0))

end Sys2Proof.Machine
end

