-- ==== Sys2Proof/Machine/CrcEngines.lean ====
section
/-! DEFINITION. Machine/CrcEngines.lean: the check engines: direct writes, memory jobs, snooping, contexts and result FIFOs
(R239 to R244). -/
namespace Sys2Proof.Machine
open Reg

/-- The polynomials of R239. -/
inductive Poly where
  | crc32c | koopman | ecma
  deriving DecidableEq, Repr

/-- The polynomial a POLY value selects; 0b11 acts as 0b00. -/
def Poly.of : Nat → Poly
  | 1 => .koopman
  | 2 => .ecma
  | _ => .crc32c

/-- The initial value. -/
def Poly.initial : Poly → Nat
  | .ecma => 0
  | _ => 0xFFFFFFFF

/-- The running register after `bs`; CRC-32C holds it in reflected form. -/
def Poly.fold : Poly → Nat → List Byte → Nat
  | .crc32c, v, bs => crcBytesR 0x82F63B78 v bs
  | .koopman, v, bs => crcBytesM 32 0x741B8CD7 v bs
  | .ecma, v, bs => crcBytesM 64 0x42F0E1EBA9EA3693 v bs

/-- VAL with the final XOR applied. -/
def Poly.final : Poly → Nat → Nat
  | .ecma, v => v
  | _, v => v ^^^ 0xFFFFFFFF

/-- VAL as a polynomial holds it: the 32-bit ones leave bits 63 to 32 at zero. -/
def Poly.trim : Poly → Nat → Nat
  | .ecma, v => v % 2 ^ 64
  | _, v => v % 2 ^ 32

/-- The four bytes of a fold value in the polynomial's byte order (R242). -/
def Poly.order : Poly → Nat → List Byte
  | .crc32c, v => leBytes 4 v
  | _, v => beBytes 4 v

/-- Engine `e` beyond its registers. -/
def State.eng (s : State) (e : Nat) : CrcEng := SMap.getD s.safe.eng e CrcEng.init

/-- The state with engine `e` replaced; STAT.LEVEL, HEAD_FCS, BUSY and OPEN follow. -/
def State.setEng (s : State) (e : Nat) (x : CrcEng) : State :=
  let s := { s with safe := { s.safe with eng := SMap.set s.safe.eng e x } }
  let s := (s.put (CRC_STAT.LEVEL e) x.fifo.length).putFlag (CRC_STAT.HEAD_FCS e) ((x.fifo.head?.map (·.2)).getD false)
  (s.putFlag (CRC_STAT.BUSY e) x.job.isSome).putFlag (CRC_STAT.OPEN e) x.frame.isSome

/-- The polynomial of engine `e`. -/
def State.polyOf (s : State) (e : Nat) : Poly := Poly.of (s.get (CRC_CFG.POLY e))

/-- VAL of engine `e` set, RES following (R239). -/
def State.setVal (s : State) (e v : Nat) : State :=
  let v := (s.polyOf e).trim v
  (s.put (CRC.VAL e) v).put (CRC.RES e) ((s.polyOf e).final v)

/-- Bytes folded into VAL. -/
def State.foldVal (s : State) (e : Nat) (bs : List Byte) : State := s.setVal e ((s.polyOf e).fold (s.get (CRC.VAL e)) bs)

/-- Whether an operation that needs an idle engine is refused (R239, R240, R243). -/
def State.crcBusy (s : State) (e : Nat) : Bool := s.flag (CRC_STAT.BUSY e) || s.flag (CRC_STAT.OPEN e)

/-- The bytes of the fold value that enters before the data (R242): `addr` is the data's address where the source has one. -/
def State.foldBytes (s : State) (e : Nat) (addr : Option Nat) : List Byte :=
  match s.get (CRC_CFG.FOLD_SRC e) with
  | 0 => []
  | 1 => (s.polyOf e).order (s.get (CRC.FOLD e))
  | 2 => (s.polyOf e).order ((addr.getD (s.get (CRC.FOLD e))) % 2 ^ 32)
  | _ => (s.polyOf e).order (s.get (CRC_FRM_CNT e))

/-- A write by `who` into engine `e` (R35: every initiator). -/
def State.crcGate (s : State) (who : Initiator) (e : Nat) (f : State → State) : State :=
  match s.gate who (CRC_CFG.POLY e).addr false true with
  | (s, false) => s
  | (s, true) => f s

/-- A direct write (R240): folded in FEED mode; refused while BUSY. -/
def State.crcFeed (s : State) (e : Nat) (bs : List Byte) : State :=
  if s.flag (CRC_STAT.BUSY e) then s.inc (CRC_REJ_CNT e)
  else if s.get (CRC_CFG.MODE e) == 1 then s.foldVal e bs else s

/-- VAL written (R239). -/
def State.crcSetVal (s : State) (e v : Nat) : State :=
  if s.flag (CRC_STAT.BUSY e) then s.inc (CRC_REJ_CNT e) else s.setVal e v

/-- OP = 0b00 (R239). -/
def State.crcInit (s : State) (e : Nat) : State := s.crcSetVal e (s.polyOf e).initial

/-- OP = JOB (R240, R242). -/
def State.crcJob (s : State) (e : Nat) : State :=
  if s.flag (CRC_STAT.BUSY e) then s.inc (CRC_REJ_CNT e)
  else if s.get (CRC_CFG.MODE e) != 1 then s
  else
    let a := s.get (CRC.ADDR e)
    let s := s.foldVal e (s.foldBytes e (some a))
    s.setEng e { s.eng e with job := some (a, s.get (CRC.LEN e)) }

/-- OP = SAVE (R243). -/
def State.crcSave (s : State) (e k : Nat) : State :=
  if s.crcBusy e then s.inc (CRC_REJ_CNT e)
  else
    let c : CrcCtx := ⟨(s.word (CRC_CFG.POLY e).addr).toNat, s.get (CRC.FOLD e), s.get (CRC.VAL e)⟩
    { s with safe := { s.safe with ctx := SMap.set s.safe.ctx k c } }

/-- OP = LOAD (R243): a context that no SAVE has written holds zero. -/
def State.crcLoad (s : State) (e k : Nat) : State :=
  if s.crcBusy e then s.inc (CRC_REJ_CNT e)
  else
    let c := SMap.getD s.safe.ctx k ⟨0, 0, 0⟩
    let s := (s.setWord (CRC_CFG.POLY e).addr (BitVec.ofNat 32 c.cfg)).put (CRC.FOLD e) c.fold
    (s.setVal e c.val).setEng e { s.eng e with cont := true }

/-- CFG written (R244): a running job or an open frame ends at once, after `folded` bytes of the job have entered; a write of the value
it has counts as a change (assumption 169). -/
def State.crcConfig (s : State) (e cfg folded : Nat) : State :=
  let s := match (s.eng e).job with
    | some (a, len) => (s.foldVal e (s.bytes a (min folded len))).setEng e { s.eng e with job := none }
    | none => s
  let s := s.setWord (CRC_CFG.POLY e).addr (BitVec.ofNat 32 cfg)
  (s.setVal e (s.get (CRC.VAL e))).setEng e { s.eng e with cont := false, frame := none }

/-- A result enters the FIFO of engine `e` (R241, R244): with its FCS mark, in bit 63 as well for the 32-bit polynomials. -/
def State.crcPush (s : State) (e res : Nat) (mark : Bool) : State :=
  let x := s.eng e
  if 16 ≤ x.fifo.length then s.inc (CRC_OVF_CNT e)
  else
    let res := if mark && s.polyOf e != .ecma then res + 2 ^ 63 else res
    s.setEng e { x with fifo := x.fifo ++ [(res, mark)] }

/-- Whether the stream that engine `e` selects is wanted under FILTER (R241); `key` is the frame's stream ID, EtherType, window
or channel. -/
def State.snoops (s : State) (e key : Nat) : Bool :=
  let f := s.get (CRC_CFG.FILTER e)
  match s.get (CRC_CFG.SRC e) with
  | 0 | 1 | 2 | 3 | 9 | 10 => f == 0xFFFF || f == key
  | 4 | 5 | 6 | 7 => f == 0 || f == key
  | 8 => true
  | 11 => f == key
  | _ => false

/-- CRC_DATA (R240). -/
def execCrcData (who : Initiator) (e : BitVec 3) (data : BitVec 32) (s : State) : Result :=
  .next (s.crcGate who e.toNat (fun s => s.crcFeed e.toNat (leBytes 4 data.toNat)))

/-- CRC_DATA64 (R240). -/
def execCrcData64 (who : Initiator) (e : BitVec 3) (data : BitVec 64) (s : State) : Result :=
  .next (s.crcGate who e.toNat (fun s => s.crcFeed e.toNat (leBytes 8 data.toNat)))

/-- JOB (R240). -/
def execJob (who : Initiator) (e : BitVec 3) (s : State) : Result := .next (s.crcGate who e.toNat (fun s => s.crcJob e.toNat))

/-- CRC_JOB_DONE (R240): the job of engine `e` has folded its bytes. -/
def execCrcJobDone (e : BitVec 3) (s : State) : Result :=
  match (s.eng e.toNat).job with
  | some (a, len) =>
    let s := s.foldVal e.toNat (s.bytes a len)
    .next ((s.setEng e.toNat { s.eng e.toNat with job := none }).inc (CRC_DONE_CNT e.toNat))
  | none => .next s

/-- SAVE (R243). -/
def execSave (who : Initiator) (e : BitVec 3) (k : BitVec 7) (s : State) : Result :=
  .next (s.crcGate who e.toNat (fun s => s.crcSave e.toNat k.toNat))

/-- LOAD (R243). -/
def execLoad (who : Initiator) (e : BitVec 3) (k : BitVec 7) (s : State) : Result :=
  .next (s.crcGate who e.toNat (fun s => s.crcLoad e.toNat k.toNat))

/-- CRC_INIT (R239). -/
def execCrcInit (who : Initiator) (e : BitVec 3) (s : State) : Result :=
  .next (s.crcGate who e.toNat (fun s => s.crcInit e.toNat))

/-- CRC_VAL_WRITE (R239). -/
def execCrcValWrite (who : Initiator) (e : BitVec 3) (val : BitVec 64) (s : State) : Result :=
  .next (s.crcGate who e.toNat (fun s => s.crcSetVal e.toNat val.toNat))

/-- CRC_CFG_WRITE (R244): bits 15 to 10 are reserved and read 0. -/
def execCrcCfgWrite (who : Initiator) (e : BitVec 3) (cfg : BitVec 32) (folded : Nat) (s : State) : Result :=
  if s.acts who && bitsOf cfg.toNat 10 6 != 0 then .fault .reservedBitWrite
  else .next (s.crcGate who e.toNat (fun s =>
    let rej := s.crcBusy e.toNat
    let s := s.crcConfig e.toNat cfg.toNat folded
    if rej then s.inc (CRC_REJ_CNT e.toNat) else s))

/-! ### Snooped frames (R241, R242) -/

/-- The open frame of engine `e` ends: its data enter, and RES is pushed. -/
def State.crcFrameEnd (s : State) (e : Nat) (mark : Bool) : State :=
  match (s.eng e).frame with
  | none => s
  | some data =>
    let s := (s.foldVal e data).setEng e { s.eng e with frame := none }
    (s.crcPush e (s.get (CRC.RES e)) mark).inc (CRC_FRM_CNT e)

/-- A frame of the stream that engine `e` selects begins: SNOOP_FRAME opens it, after ending one still open; SNOOP_CONT folds it. -/
def State.crcFrame (s : State) (e : Nat) (data : List Byte) (addr : Option Nat) : State :=
  match s.get (CRC_CFG.MODE e) with
  | 2 =>
    let head := if (s.eng e).cont then [] else s.foldBytes e addr
    (s.foldVal e (head ++ data)).setEng e { s.eng e with cont := true }
  | 3 =>
    let s := s.crcFrameEnd e false
    let s := (s.setVal e (s.polyOf e).initial).foldVal e (s.foldBytes e addr)
    s.setEng e { s.eng e with frame := some data }
  | _ => s

/-- A frame of the module's own stream `src` begins: every engine that selects it sees a copy (R241). -/
def State.streamFrame (s : State) (src key : Nat) (data : List Byte) (addr : Option Nat) : State :=
  (List.range 8).foldl (fun s e => if s.get (CRC_CFG.SRC e) == src && s.snoops e key then s.crcFrame e data addr else s) s

/-- Whether `src` is a stream of the module's own: lane and ECN transmission, publications, outbound transactions. -/
def ownStream (src : Nat) : Bool := src == 1 || src == 3 || src == 5 || src == 7 || src == 8 || src == 9

/-- SNOOP_FRAME_END (R241, R242, R244): a frame of the stream that engine `e` selects has ended. Of the module's own streams it is the
frame it has begun; of the others `key` names it, `data` are its bytes, `addr` its address on the rack bus or at the DMA's source,
`fcs` an FCS error (assumption 87). -/
def execSnoopFrameEnd (e : BitVec 3) (key : BitVec 16) (data : List Byte) (addr : BitVec 64) (fcs : Bool) (s : State) : Result :=
  let n := e.toNat
  let src := s.get (CRC_CFG.SRC n)
  if !s.snoops n key.toNat then .next s
  else if ownStream src then .next (s.crcFrameEnd n false)
  else .next ((s.crcFrame n data (if 10 ≤ src then some addr.toNat else none)).crcFrameEnd n (fcs && src < 8))

end Sys2Proof.Machine
end

