-- ==== Sys2Proof/Machine/Ports.lean ====
section
/-! DEFINITION. Machine/Ports.lean: the transmitters, and the two egress classes of a lane port (R246 to R249). -/
namespace Sys2Proof.Machine
open Reg

/-- Puts a transmitter's frame onto the wire: the last frame it started (assumption 12). -/
def State.send (s : State) (port : Nat) (frame : List Byte) : State := { s with wire := SMap.set s.wire port frame }

/-! ### Egress of a lane port (R247, R248) -/

/-- `n` bytes of a frame from offset `o`. -/
def frameBytes (f : List Byte) (o n : Nat) : List Byte := (List.range n).map (fun i => f.getD (o + i) 0)

/-- A big-endian field of a frame (R6, R249). -/
def fieldBE (f : List Byte) (o n : Nat) : Nat := beNat (frameBytes f o n)

/-- The check value of a spoke (R252): over LANE_KEY and frame bytes 14 to 55. -/
def State.spokeCv (s : State) (f : List Byte) : Nat := crc32s (beBytes 4 (s.get LANE_KEY.KEY) ++ frameBytes f 14 42)

/-- LANE at LOCAL `at_` as the module's own frames carry it: LOCAL before the first synchronisation, while LANE reads 0 (R14, R271;
assumption 160). -/
def State.laneSentAt (s : State) (at_ : Nat) : Nat := if s.time.laneEver then s.laneAt at_ else at_

/-- A frame of the module's own whose first bit is on the wire at LOCAL `at_` (R252, R273): ORIGIN of a SYNC or COLDSTART frame, STAMP of a
spoke with its check value. -/
def State.stamped (s : State) (at_ : Nat) (f : List Byte) : List Byte :=
  match fieldBE f 14 1 % 16 with
  | 0 | 6 => f.take 30 ++ beBytes 8 (s.laneSentAt at_) ++ f.drop 38
  | 5 =>
    let f := f.take 36 ++ beBytes 4 (s.laneSentAt at_) ++ f.drop 40
    f.take 56 ++ beBytes 4 (s.spokeCv f) ++ f.drop 60
  | _ => f

/-- A frame at an egress as it will leave: one of the module's own that has not begun carries the time of its first bit. -/
def State.restamp (s : State) (f : OutFrame) : OutFrame :=
  if f.own && s.localNow ≤ f.start then
    let b := s.stamped f.start (f.bytes.take (f.bytes.length - 4))
    { f with bytes := b ++ ethFcs b }
  else f

/-- Frames of port `k` (2 × lane + 1 for DN), in order of their start. -/
def State.port (s : State) (k : Nat) : List OutFrame := SMap.getD s.lanes.ports k []

/-- The bytes that port `k` has on the wire, or had last. -/
def State.portFrame (s : State) (k : Nat) : Option (List Byte) :=
  ((s.port k).filter (fun f => f.start ≤ s.localNow)).getLast?.map (·.bytes)

/-- The frames of port `k` from now on; of those that have ended only the last is kept. Own frames that have not begun carry the time at
which they will. -/
def State.setPort (s : State) (k : Nat) (q : List OutFrame) : State :=
  let gone := (q.filter (fun f => f.stop ≤ s.localNow)).getLast?.toList
  { s with lanes := { s.lanes with ports := SMap.set s.lanes.ports k (gone ++ (q.filter (fun f => s.localNow < f.stop)).map s.restamp) } }

/-- Wire time in ns of a frame of `n` bytes with its FCS, with preamble and gap (R262). -/
def wireNs (n : Nat) : Nat := 8 * max 84 (n + 20)

/-- Frames moved back so that each starts at the end of the one before it, the first not before `a`. -/
def relay : Nat → List OutFrame → List OutFrame
  | _, [] => []
  | a, f :: l =>
    let b := max a f.start
    { f with start := b, stop := b + (f.stop - f.start) } :: relay (b + (f.stop - f.start)) l

/-- The queue with `f` at its place at LOCAL `now`; what has not begun and does not start before it waits for it. -/
def place (now : Nat) (q : List OutFrame) (f : OutFrame) : List OutFrame :=
  let ahead := fun (g : OutFrame) => decide (g.start ≤ now || g.start < f.start)
  let before := q.filter ahead
  before ++ f :: relay ((before.map (·.stop)).foldl max f.stop) (q.filter (fun g => !ahead g))

/-- The end of the frames that follow one another from `a` on. -/
def chainEnd (q : List OutFrame) (a : Nat) : Nat := q.foldl (fun a f => if f.start ≤ a && a < f.stop then f.stop else a) a

/-- Whether an express egress is full (R247): 64 spokes wait. -/
def State.expressFull (s : State) (l dn : Nat) : Bool :=
  decide (64 ≤ ((s.port (2 * l + dn)).filter (fun f => f.express && s.localNow < f.start)).length)

/-- When a spoke would start at an express egress (R247). -/
def State.expressStart (s : State) (l dn : Nat) : Nat :=
  let q := s.port (2 * l + dn)
  let cur := q.find? (fun f => !f.express && f.start ≤ s.localNow && s.localNow < f.stop)
  let from_ := match cur with
    | some f => if bitOf (SMap.getD s.lanes.lane l LaneSt.init).verified dn then s.localNow else f.stop
    | none => s.localNow
  chainEnd (q.filter (·.express)) from_

/-- A spoke comes to an express egress (R247): the 65th to wait is dropped. A frame on the wire is interrupted where the port has
verified, and goes on after it; else the spoke waits for its end. -/
def State.expressOut (s : State) (l dn : Nat) (own : Bool) (bytes : List Byte) : State :=
  let k := 2 * l + dn
  let now := s.localNow
  let q := s.port k
  if s.expressFull l dn then s.inc (LANE_XOVF_CNT l)
  else
    let cur := q.find? (fun f => !f.express && f.start ≤ now && now < f.stop)
    let pre := bitOf (SMap.getD s.lanes.lane l LaneSt.init).verified dn
    let a := s.expressStart l dn
    let dur := wireNs bytes.length
    let q := if pre then q.map (fun f => if cur == some f then { f with stop := f.stop + dur } else f) else q
    let s := if pre && cur.isSome && a == now then s.inc (LANE_PREEMPT_CNT l) else s
    s.setPort k (place now q ⟨a, a + dur, true, own, bytes⟩)

/-- Whether a frame of the module's own that is to start at `at_` waits at a port: the port forwards one then (R248). -/
def State.ownWaits (s : State) (l dn at_ : Nat) : Bool :=
  (s.port (2 * l + dn)).any (fun f => !f.own && f.start ≤ at_ && at_ < f.stop)

/-- A frame of the module's own comes to a preemptable egress, to start at LOCAL `at_` (R248). -/
def State.ownOut (s : State) (l dn at_ : Nat) (bytes : List Byte) : State :=
  let k := 2 * l + dn
  let a := chainEnd (s.port k) at_
  s.setPort k (place s.localNow (s.port k) ⟨a, a + wireNs bytes.length, false, true, bytes⟩)

/-- When a forwarded frame would start at a port, and whether the port has no room for it (R248): it buffers one of 1,518 bytes behind its
own frames; another one is lost (assumption 161). -/
def State.forwardStart (s : State) (l dn : Nat) : Nat := chainEnd (s.port (2 * l + dn)) s.localNow
def State.forwardFull (s : State) (l dn n : Nat) : Bool :=
  let now := s.localNow
  now < s.forwardStart l dn && ((s.port (2 * l + dn)).any (fun f => !f.own && !f.express && now < f.start) || 1518 < n)

/-- A forwarded frame comes to a preemptable egress (R248). -/
def State.forwardOut (s : State) (l dn : Nat) (bytes : List Byte) : State :=
  let k := 2 * l + dn
  let a := s.forwardStart l dn
  if s.forwardFull l dn bytes.length then s
  else s.setPort k (place s.localNow (s.port k) ⟨a, a + wireNs bytes.length, false, false, bytes⟩)

/-- Whether port `dn` of lane `l` has its link. -/
def State.portUp (s : State) (l dn : Nat) : Bool := s.flag (if dn = 0 then LANE_STAT.LINK_UP l else LANE_STAT.LINK_DN l)

/-- The linked ports of lane `l`. -/
def State.portsUp (s : State) (l : Nat) : List Nat := [0, 1].filter (s.portUp l)

/-- A frame of the module's own leaves on port `dn` of lane `l` at LOCAL `at_`, with its FCS (R249); `stream` is its stream ID. -/
def State.laneOutOn (s : State) (l dn at_ stream : Nat) (frame : List Byte) : State :=
  (s.ownOut l dn at_ (frame ++ ethFcs frame)).streamFrame (2 * l + 1) stream frame none

/-- A frame of the module's own leaves on every linked port of lane `l` now, with its FCS (R249). An engine on the lane's transmit stream
sees it once, as the first of these ports sends it (R241; assumption 180). -/
def State.laneOut (s : State) (l stream : Nat) (frame : List Byte) : State :=
  let bytes := frame ++ ethFcs frame
  let start := chainEnd (s.port (2 * l + (s.portsUp l).headD 0)) s.localNow
  ((s.portsUp l).foldl (fun s dn => s.ownOut l dn s.localNow bytes) s).streamFrame (2 * l + 1) stream (s.stamped start frame) none

/-- A spoke of the module's own leaves on every linked port of lane `l` (R208, R247), and an engine sees it once, as the first port that has
room for it sends it. -/
def State.spokeOut (s : State) (l : Nat) (frame : List Byte) : State :=
  let bytes := frame ++ ethFcs frame
  let s' := (s.portsUp l).foldl (fun s dn => s.expressOut l dn true bytes) s
  match (s.portsUp l).find? (fun dn => !s.expressFull l dn) with
  | some dn => s'.streamFrame (2 * l + 1) 0xFFFF (s.stamped (s.expressStart l dn) frame) none
  | none => s'

end Sys2Proof.Machine
end

