-- ==== Sys2Proof/Machine/LoopOps.lean ====
section
/-! DEFINITION. Machine/LoopOps.lean: the current loops and their HART masters (R328 to R335), and the loss of a driver's or
regulator's refresh (R500). -/
namespace Sys2Proof.Machine
open Reg

/-- Loop `c` beyond its registers. -/
def State.loop (s : State) (c : Nat) : Loop := SMap.getD s.loops c Loop.init

/-- The state with loop `c` replaced. -/
def State.setLoop (s : State) (c : Nat) (l : Loop) : State := { s with loops := SMap.set s.loops c l }

/-- Mode of loop `c`: 0 OFF, 1 SOURCE, 2 SINK, 3 PARKED (R328). -/
def State.loopMode (s : State) (c : Nat) : Nat := s.get (LOOP_CH_CFG.MODE c)

/-- Whether a Kickstand trigger of R332 holds for the loops. -/
def State.loopKick (s : State) : Bool := s.loopPrg || s.kickEvery

/-- The current loop `c` drives (R328 to R333): a fault before Kickstand, Kickstand before a held current. -/
def State.loopDrive (s : State) (c : Nat) : Nat :=
  let l := s.loop c
  if l.dead || s.get PWR_STAT.STAGE == 4 then 0
  else match s.loopMode c with
    | 0 => 0
    | 3 => 4000
    | _ => min 24000
        (if s.flag (LOOP_CH_STAT.FAULT c) then s.get (LOOP_CH_CFG.FAULT_I c)
         else if s.loopKick then s.get (LOOP_CH_LIM.KICK_I c)
         else l.held.getD l.cmd)

/-- Loop `c` brought up to date; a change of the driven current starts the 2 ms of R330 again. -/
def State.loopUpdate (s : State) (c : Nat) : State :=
  let drive := s.loopDrive c
  let s := s.putIf (LOOP_CH_STAT.KICK c) (s.loopKick && (s.loopMode c == 1 || s.loopMode c == 2)).toNat
  if drive = s.get (LOOP_CH_VAL.DRIVE c) then s
  else (s.put (LOOP_CH_VAL.DRIVE c) drive).setLoop c { s.loop c with changed := s.localNow, overSince := none }

/-- All loops brought up to date. -/
def State.loopRefresh (s : State) : State := (List.range 4).foldl State.loopUpdate s

/-- The loop input area (R329). -/
def State.loopImage (s : State) : State :=
  s.liveWrite (s.get LOOP_CFG.IN_OFF)
    ((List.range 4).flatMap (fun c => leBytes 2 (s.get (LOOP_CH_VAL.READ c)))
      ++ (List.range 4).flatMap (fun c => leBytes 1 (s.word (LOOP_CH_STAT.FAULT c).addr).toNat) ++ leBytes 4 0)

/-- Every output of the module brought up to date: DIO channels and loops. -/
def State.outputsRefresh (s : State) : State := s.dioRefresh.loopRefresh

/-- The published values reach the loops (R329); a held loop keeps its current (R332). -/
def State.loopTake (s : State) (img : Nat → Byte) : State :=
  let off := s.get LOOP_CFG.OUT_OFF
  ((List.range 4).foldl (fun s c =>
    s.setLoop c { s.loop c with cmd := min 24000 (leNat [img (off + 2 * c), img (off + 2 * c + 1)]) }) s).loopRefresh

/-- The reference that readback is compared with (R330, R333). -/
def State.loopWanted (s : State) (c : Nat) : Nat :=
  if s.loopMode c == 3 then 4000 + 500 * s.get (LOOP_CH_FT.MD_I c)
  else if s.flag (LOOP_CH_STAT.FAULT c) then min 24000 (s.get (LOOP_CH_CFG.FAULT_I c))
  else s.get (LOOP_CH_VAL.DRIVE c)

/-- Whether readback `r` of loop `c` is out of tolerance (R330). -/
def State.loopOff (s : State) (c r : Nat) : Bool :=
  let w := s.loopWanted c
  s.get (LOOP_CH_LIM.TOL c) < (if w ≤ r then r - w else w - r)

/-- Loop `c` at a local tick edge with readback `r` (R329, R330): sampled, compared from 2 ms after the last change. -/
def State.loopEdge (s : State) (c r : Nat) : State :=
  let s := s.put (LOOP_CH_VAL.READ c) r
  let l := s.loop c
  if s.loopMode c == 0 then s
  else if s.flag (LOOP_CH_STAT.FAULT c) then s.putIf (LOOP_CH_STAT.OPEN c) (s.loopMode c == 3 || s.loopOff c r).toNat
  else if l.changed + 2000000 ≤ s.localNow && s.loopOff c r then
    if l.overSince.isNone then s.setLoop c { l with overSince := some s.localNow } else s
  else if l.overSince.isSome then s.setLoop c { l with overSince := none } else s

/-- The loops at a local tick edge, readbacks LP0 first. -/
def State.loopTick (s : State) (reads : List Nat) : State :=
  ((List.range 4).foldl (fun s c => s.loopEdge c (reads.getD c 0)) s).loopImage

/-- The fault of loop `c` ends: it drives its command again and comparison restarts 2 ms later (R330). -/
def State.loopHeal (s : State) (c : Nat) : State :=
  if s.flag (LOOP_CH_STAT.FAULT c) then
    let s := (s.putFlag (LOOP_CH_STAT.FAULT c) false).putFlag (LOOP_CH_STAT.OPEN c) false
    (s.setLoop c { s.loop c with changed := s.localNow, overSince := none }).loopUpdate c
  else s

/-- LOOP_FAULT (R330, R333): out of tolerance for FT ms; a PARKED loop keeps its output. -/
def execLoopFault (t c : Nat) (s : State) : Result :=
  let s := s.at_ t
  match (s.loop c).overSince with
  | some since =>
    if since + 1000000 * atLeast1 (s.get (LOOP_CH_FT.FT c)) ≤ s.localNow && !s.flag (LOOP_CH_STAT.FAULT c) then
      let s := (s.putFlag (LOOP_CH_STAT.FAULT c) true).inc LOOP_FAULT_CNT
      let s := s.setLoop c { s.loop c with overSince := none, faultAt := s.localNow }
      let s := s.putIf (LOOP_CH_STAT.OPEN c) (s.loopMode c == 3 || s.loopOff c (s.get (LOOP_CH_VAL.READ c))).toNat
      .next ((s.loopUpdate c).recordChannel 2 c 0 (s.get (LOOP_CH_VAL.READ c)))
    else .next s
  | none => .next s

/-- LOOP_RETRY (R330): each bit of the write ends a loop's fault. -/
def execLoopRetry (t : Nat) (who : Initiator) (mask : BitVec 4) (s : State) : Result :=
  match (s.at_ t).gate who LOOP_RETRY.CH.addr false true with
  | (s, true) => .next ((List.range 4).foldl (fun s c => if mask.getLsbD c then s.loopHeal c else s) s)
  | (s, false) => .next s

/-- LOOP_AUTO_RETRY (R330): AUTO_RETRY seconds after the fault, unless 0. -/
def execLoopAutoRetry (t c : Nat) (s : State) : Result :=
  let s := s.at_ t
  let secs := s.get (LOOP_CH_CFG.AUTO_RETRY c)
  if secs != 0 && s.flag (LOOP_CH_STAT.FAULT c) && (s.loop c).faultAt + secs * 1000000000 ≤ s.localNow then .next (s.loopHeal c)
  else .next s

/-- LOOP_COMPLIANCE (R331): the regulator saturates or leaves saturation. -/
def execLoopCompliance (c : Nat) (sat : Bool) (s : State) : Result :=
  if s.flag (LOOP_CH_STAT.COMPLIANCE c) == sat then .next s
  else
    let s := s.putFlag (LOOP_CH_STAT.COMPLIANCE c) sat
    .next (if sat then s.inc LOOP_COMPL_CNT else s)

/-- Whether HART runs on channel `c` (R334): PARKED, in SERVICE, STANDBY or ACTIVE, below stage 2. -/
def State.hartOn (s : State) (c : Nat) : Bool :=
  let m := s.get SYS_STAT.MODE
  s.loopMode c == 3 && 1 ≤ m && m ≤ 3 && !s.flag (LOOP_CH_STAT.STOPPED c)

/-- Byte `k` of channel `c`'s transmit buffer (LOOP_HTXc). -/
def State.hartTxByte (s : State) (c k : Nat) : Byte := BitVec.ofNat 8 (bitsOf (s.word (0x200F1000 + 0x200 * c + 4 * (k / 4))).toNat (8 * (k % 4)) 8)

/-- A request as it leaves the channel (R334, R335): preamble, the frame of `len` bytes, check byte. -/
def State.hartRequest (s : State) (c len : Nat) : List Byte :=
  let frame := (List.range len).map (s.hartTxByte c)
  List.replicate (clampNat 5 20 (s.get (LOOP_CH_FT.HPRE c))) 0xFF ++ frame ++ [frame.foldl (· ^^^ ·) 0]

/-- LOCAL ns that `n` characters of 11 bits take at 1,200 bit/s (R334). -/
def hartNs (n : Nat) : Nat := n * 55000000 / 6

/-- The master timers of HART 7 in characters (R334; assumption 170): RT1 of a primary and a secondary master, RT2, STO. -/
def hartRt1 (secondary : Bool) : Nat := if secondary then 41 else 33
def hartRt2 : Nat := 8
def hartSto : Nat := 28

/-- HART_GO (R335): a GO write with LEN. The request goes out at the channel's master turn, State.wire holding it from the GO on
(assumption 170). While busy, or where HART does not run (assumption 8), the GO is refused and counted. -/
def execHartGo (t : Nat) (who : Initiator) (c len : Nat) (s : State) : Result :=
  match (s.at_ t).gate who (LOOP_CH_HGO.GO c).addr false true with
  | (s, true) =>
    if s.flag (LOOP_CH_STAT.HART_BUSY c) || !s.hartOn c || len = 0 || 288 < len then .next (s.inc LOOP_HREJ_CNT)
    else
      let request := s.hartRequest c len
      let s := s.setLoop c { s.loop c with sentAt := max s.localNow (s.loop c).turnAt + hartNs request.length }
      .next (((s.putFlag (LOOP_CH_STAT.HART_BUSY c) true).inc LOOP_HTX_CNT).send (7 + c) request)
  | (s, false) => .next s

/-- One received byte into a receive FIFO of 512 entries, dropped and counted where it is full (R335). -/
def State.hartPush (s : State) (c : Nat) (e : HartByte) : State :=
  let l := s.loop c
  if 512 ≤ l.fifo.length then s.inc LOOP_HERR_CNT
  else (s.setLoop c { l with fifo := l.fifo ++ [e] }).put (LOOP_CH_STAT.HRX_LEVEL c) (l.fifo.length + 1)

/-- Whether the check byte at the end of a received frame is wrong: it is the exclusive OR of the bytes before it (R334). -/
def hartBad (frame : List (Byte × Bool)) : Bool := frame.foldl (fun v p => v ^^^ p.1) 0 != 0

/-- The entries of a frame: each byte with its parity error, the check byte error, FIRST, LAST and BURST (LOOP_HRXc). -/
def hartEntries (frame : List (Byte × Bool)) (burst : Bool) : List HartByte :=
  frame.zipIdx.map (fun p =>
    p.1.1.toNat + 256 * (p.2 == 0).toNat + 512 * (p.2 + 1 == frame.length).toNat
      + 1024 * (p.1.2 || (hartBad frame && p.2 + 1 == frame.length)).toNat + 2048 * burst.toNat)

/-- HART_FRAME_RX (R334, R335): a reply to the request sent, or a burst frame, from the delimiter to the check byte; a reply ends HART_BUSY,
and the channel's next turn comes after RT2; errors count once a frame. -/
def execHartFrameRx (t c : Nat) (frame : List (Byte × Bool)) (burst : Bool) (s : State) : Result :=
  let s := s.at_ t
  let reply := s.flag (LOOP_CH_STAT.HART_BUSY c) && decide ((s.loop c).sentAt ≤ s.localNow)
  if !s.hartOn c || !(burst || reply) then .next s
  else
    let s := if hartBad frame || frame.any (fun p => p.2) then s.inc LOOP_HERR_CNT else s
    let s := (hartEntries frame burst).foldl (fun s e => s.hartPush c e) s
    .next (if burst then s
      else (s.setLoop c { s.loop c with turnAt := s.localNow + hartNs hartRt2 }).putFlag (LOOP_CH_STAT.HART_BUSY c) false)

/-- HART_TIMEOUT (R335): no reply within STO of the request; the channel's next turn comes after RT1 (R334). -/
def execHartTimeout (t c : Nat) (s : State) : Result :=
  let s := s.at_ t
  if s.flag (LOOP_CH_STAT.HART_BUSY c) && decide ((s.loop c).sentAt + hartNs hartSto ≤ s.localNow) then
    let s := s.setLoop c { s.loop c with turnAt := s.localNow + hartNs (hartRt1 (s.flag (LOOP_CH_CFG.HSEC c))) }
    .next ((s.putFlag (LOOP_CH_STAT.HART_BUSY c) false).inc LOOP_HTMO_CNT)
  else .next s

/-- DRIVER_REFRESH_LOSS (R500): a driver switches itself off, a regulator drives no current, until the next SYS or stronger
reset (assumption 9). -/
def execDriverRefreshLoss (t : Nat) (target : OutStage) (s : State) : Result :=
  let s := s.at_ t
  match target with
  | .driver ch => .next ((s.setChan ch { s.chan ch with dead := true }).dioRefresh)
  | .regulator c => .next ((s.setLoop c { s.loop c with dead := true }).loopUpdate c)

end Sys2Proof.Machine
end

