-- ==== Sys2Proof/Machine/ResetOps.lean ====
section
/-! DEFINITION. Machine/ResetOps.lean: what a reset of SYS strength or stronger, or DORMANT entry, does to the whole state
(R9, R410, R413, R415), and the resets that the boot supervisor performs of its own accord (R449). -/
namespace Sys2Proof.Machine
open Reg

/-- Length of the crash area at the start of the service DRAM (R415). -/
def crashLen : Nat := 0x100000

/-- The bytes that stay: recorder MRAM always, the crash area at SYS and WDG resets (R415). -/
def keptCell (k : ResetKind) (c : Host.Cell) : Bool :=
  mramBase ≤ c.1 || ((k == .sys || k == .wdg) && 0x80000000 ≤ c.1 && c.1 < 0x80000000 + crashLen)

/-- The module after a reset of kind `k` (R9, R46, R415): kept register fields, kept bytes, non-volatile contents; everything
else at reset. -/
def State.cleared (s : State) (k : ResetKind) : State :=
  let r := s.resetRegs k (fun _ => true)
  { State.reset with
    pending := s.pending
    regs := r.regs
    pend := r.pend
    mem := s.mem.filter (keptCell k)
    freeN := s.freeN
    nv := if k == .por then { s.nv with tamperSeen := 0, bkupLost := false } else s.nv }

/-- The module at the instant of a reset out of mode `old`: forces bound in it are dropped (R121), the MODE record is made where the mode
changes (R421, R455), and every open rack bus transaction ends with an error (R371, R376, R377). The records stand alone in the queue. -/
def State.lastActs (s : State) (old : Nat) : State :=
  let s := ({ s with recd := { s.recd with queue := [] } }).putFlag OBS_TRC_STAT.RUN false
  let s := (((s.put SYS_STAT.MODE 0).put SYS_STAT.LREASON 0).put TWIN_CLAIM.CLAIM 0).dropForces
  let posted := s.brg.reqs.countP (fun r => r.kind == 2)
  let s := (s.add BRG_ERR_CNT (s.brg.reqs.length - posted)).add BRG_PWERR_CNT posted
  let s := s.add BRG_PWLOG_OVF_CNT (s.brg.log.length + posted - 16)
  if old == 0 then s else s.recordMode old

/-- A start of the supply (R410): what ends the state of R426 in which no supervisor firmware verifies. -/
def powerCycle (k : ResetKind) (sub : Nat) : Bool := k == .por || (k == .bor && sub != 3)

/-- A reset of SYS strength or stronger (R410, R413): the module waits for its sequence in BOOT. Records of the change of mode wait for
the exit from BOOT. A stopped boot chain for want of firmware stays so but for a power cycle (R426). HOLD, or a waiting HOLD, ends
uncounted (assumption 177). -/
def State.hardReset (s : State) (k : ResetKind) (kind sub : Nat) : State :=
  let old := s.get SYS_STAT.MODE
  let d := s.lastActs old
  let stop := s.boot.noFw && !powerCycle k sub
  let s' := ((d.cleared k).put SYS_RSTCAUSE.KIND kind).put SYS_RSTCAUSE.SUB sub
  { s' with boot := { s'.boot with
    resetRecs := (if old == 0 then s.boot.resetRecs else []) ++ d.recd.queue, noFw := stop, stopped := stop } }

/-- A SYS reset with its sub-cause (R410). -/
def State.sysReset (s : State) (sub : Nat) : State := s.hardReset .sys 5 sub

/-- A SYS reset of the boot supervisor's own (R449): it waits until the recorder has written every record queued up to now, and
for a start-up scan to end. -/
def State.ownReset (s : State) (sub : Nat) : State :=
  if s.boot.resetWait.isSome then s
  else if s.recd.queue.isEmpty && s.flag REC_STAT.READY then s.sysReset sub
  else { s with boot := { s.boot with resetWait := some (sub, s.recd.queue.length) } }

/-- A waiting reset of the boot supervisor's own takes place once the records it waits for are written (R449). -/
def State.waitingReset (s : State) : State :=
  match s.boot.resetWait with
  | some (sub, 0) => if s.flag REC_STAT.READY then s.sysReset sub else s
  | _ => s

end Sys2Proof.Machine
end

