-- ==== Sys2Proof/Machine/SafeOps.lean ====
section
/-! DEFINITION. Machine/SafeOps.lean: opening, closing and delivery of safe sessions (R225 to R227, R231, R234). -/
namespace Sys2Proof.Machine
open Reg

/-- Session `n` beyond its registers. -/
def State.sess (s : State) (n : Nat) : Sess := SMap.getD s.safe.sess n Sess.init

/-- The state with session `n` replaced. -/
def State.setSess (s : State) (n : Nat) (x : Sess) : State := { s with safe := { s.safe with sess := SMap.set s.safe.sess n x } }

/-- Whether session `n` is open (SAFE_OPENm). -/
def State.sessOpen (s : State) (n : Nat) : Bool := s.bit (SAFE_OPEN.OPEN (n / 32)) (n % 32)

/-- The module's own ID in session `n` (R226). -/
def State.ownUid (s : State) (n : Nat) : Nat := if s.flag (SAFE_S.PAIR n) then s.get SAFE_PUID.UID else s.get SAFE_UID.UID

/-- Whether a unique ID is valid (R225). -/
def uidValid (u : Nat) : Bool := u != 0 && u != 0xFFFFFF

/-- SAFE_STAT.NRUN and NLOST count the RX sessions. -/
def State.safeCount (s : State) : State :=
  let cnt := fun st => ((List.range 128).filter (fun n => !s.isTx n && s.get (SAFE_T.STATE n) == st)).length
  (s.putIf SAFE_STAT.NRUN (cnt 2)).putIf SAFE_STAT.NLOST (cnt 3)

/-- The header of RX session `n`'s delivery (R234). -/
def State.safeHeader (s : State) (n : Nat) : List Byte :=
  leBytes 1 (s.get (SAFE_T.STATE n)) ++ leBytes 1 (s.get (SAFE_T.FLAGS n))
    ++ leBytes 2 (s.sess n).ticks ++ leBytes 4 (s.get (SAFE_T.SEQ n))

/-- The delivery of RX session `n` as one unit (R95, R234): the payload is zero in every state but RUN. -/
def State.safeDeliver (s : State) (n : Nat) : State :=
  let payload := if s.get (SAFE_T.STATE n) == 2 then (s.sess n).payload else []
  s.liveWrite (s.get (SAFE_S.IMG_OFF n)) (s.safeHeader n ++ padTo (s.get (SAFE_S.LEN n)) payload)

/-- Opens session `n` (R225, R227, R231); an open one, an unused entry or an invalid ID changes nothing. -/
def State.openSess (s : State) (n : Nat) : State :=
  if s.sessOpen n || !s.flag (SAFE_S.EN n) || !uidValid (s.ownUid n) || !uidValid (s.get (SAFE_S.PEER_UID n)) then s
  else
    let s := s.putBit (SAFE_OPEN.OPEN (n / 32)) (n % 32) true
    if s.isTx n then (s.put (SAFE_T.STATE n) 2).setSess n { s.sess n with first := true }
    else ((s.put (SAFE_T.STATE n) 1).setSess n { s.sess n with payload := [], count := 0 }).safeDeliver n

/-- Closes session `n` (R227, R231). -/
def State.closeSess (s : State) (n : Nat) : State :=
  if !s.sessOpen n then s
  else
    let s := (s.putBit (SAFE_OPEN.OPEN (n / 32)) (n % 32) false).put (SAFE_T.STATE n) 0
    if s.isTx n then s.setSess n { s.sess n with tele := none } else (s.setSess n { s.sess n with payload := [] }).safeDeliver n

/-- Every session closes (R227: entry into LOCKOUT or BOOT). -/
def State.closeAll (s : State) : State := ((List.range 128).foldl State.closeSess s).safeCount

end Sys2Proof.Machine
end

