-- ==== Sys2Proof/Machine/Modes.lean ====
section
/-! DEFINITION. Machine/Modes.lean: Kickstand of the program's consumers (R105, R106, R110), mode changes (R421), LOCKOUT
(R422), and the slot table that a trial's revert writes (R425, R443). -/
namespace Sys2Proof.Machine
open Reg

/-! ### Kickstand of the consumers -/

/-- Door commands at Kickstand (R134, R177). -/
def State.doorKick (s : State) : State :=
  if s.door.kick then s
  else
    let s := { s with door := { s.door with kick := true } }
    ((s.putFlag DOOR_STAT.KICK true).putFlag MOT_STAT.KICK true).inc MOT_KICK_CNT

/-- Every consumer takes its Kickstand pattern (R105, R110). -/
def State.kickPrograms (s : State) : State :=
  let s := s.putFlag DIO_STAT.KICK_PRG true
  (({ s with loopPrg := true }).doorKick.prgKick).outputsRefresh

/-- The program state becomes STOP (R110, R111): STEP and HOLD requests go with it, and the consumers take Kickstand. -/
def State.programStop (s : State) : State :=
  let s := { s with cyc := { s.cyc with startReq := false, moved := false } }
  ((((s.put CYC_STAT.PSTATE 0).putFlag CYC_STAT.HOLD_PEND false).putFlag CYC_STAT.STEP_PEND false).putFlag CYC_STAT.KICK true).kickPrograms

/-! ### Slot table (R425) -/

/-- A slot's bytes in a copy of the table (assumption 194). -/
def SlotRec.bytes (r : SlotRec) : List Byte := leBytes 1 r.state ++ leBytes 1 r.tries ++ leBytes 8 r.fwId ++ leBytes 8 r.orchId ++ leBytes 1 r.svn

/-- The CRC-32C of a copy of the table (R425). -/
def SlotTable.crcOf (t : SlotTable) : Nat := crc32c (leBytes 4 t.gen ++ leBytes 1 t.preferred ++ t.a.bytes ++ t.b.bytes)

/-- Whether a copy's CRC is valid. -/
def SlotTable.valid (t : SlotTable) : Bool := t.crc == t.crcOf

/-- Whether copy 1 is in force: valid, and copy 0 is not, or of a lower generation (R425). -/
def State.secondTable (s : State) : Bool := s.nv.table1.valid && (!s.nv.table0.valid || s.nv.table0.gen < s.nv.table1.gen)

/-- The slot table in force: the copy whose CRC is valid and whose generation is higher; with none valid no slot holds an image. -/
def State.table (s : State) : SlotTable :=
  if s.secondTable then s.nv.table1
  else if s.nv.table0.valid then s.nv.table0
  else ⟨0, 0, SlotRec.empty, SlotRec.empty, 0⟩

/-- Slot `n` (0 A, 1 B) of a table. -/
def SlotTable.slot (t : SlotTable) (n : Nat) : SlotRec := if n = 0 then t.a else t.b

/-- A table with slot `n` replaced. -/
def SlotTable.setSlot (t : SlotTable) (n : Nat) (r : SlotRec) : SlotTable := if n = 0 then { t with a := r } else { t with b := r }

/-- UPD_SLOT_A and UPD_SLOT_B follow the table in force. -/
def State.showSlots (s : State) : State :=
  [0, 1].foldl (fun s n =>
    let r := s.table.slot n
    ((s.put (UPD_SLOT.STATE n) r.state).put (UPD_SLOT.TRIES n) r.tries).put (UPD_SLOT.SVN n) r.svn) s

/-- The table written over the older copy with its generation raised by one (R425). -/
def State.writeTable (s : State) (t : SlotTable) : State :=
  let t := { t with gen := (s.table.gen + 1) % 2 ^ 32 }
  let t := { t with crc := t.crcOf }
  let nv := if s.secondTable then { s.nv with table0 := t } else { s.nv with table1 := t }
  ({ s with nv := nv }).showSlots

/-- Slot `n` takes a state, and the table is written. -/
def State.slotState (s : State) (n st : Nat) : State :=
  s.writeTable (s.table.setSlot n { s.table.slot n with state := st })

/-- The running slot. -/
def State.runSlot (s : State) : Nat := s.get UPD_STAT.RUN_SLOT

/-- A slot's trial has failed (R428, R443): BAD, counted, recorded. -/
def State.fallback (s : State) (n : Nat) : State :=
  ((s.slotState n 4).inc UPD_FALLBACK_CNT).recordImage 2 n 0 (s.table.slot n).orchId

/-- A trial is reverted (R443), once. -/
def State.revertTrial (s : State) : State :=
  if (s.table.slot s.runSlot).state == 2 then (s.fallback s.runSlot).ownReset 2 else s

/-- The standstill input as it stands (R113): a DIO input channel or a trip output, by CYC_STILL. -/
def State.still (s : State) : Bool :=
  let i := s.get CYC_STILL.INDEX
  match s.get CYC_STILL.KIND with
  | 1 => s.bit DIO.STATE i != s.flag CYC_STILL.POL
  | 2 => s.tripOut i != s.flag CYC_STILL.POL
  | _ => false

/-- The slot that is not running. -/
def State.otherSlot (s : State) : Nat := 1 - s.runSlot

/-- A pending activation is cancelled (R437, R440). -/
def State.cancelActivation (s : State) : State :=
  let id := s.get UPD_ACT_ID.ID
  let s := { s with boot := { s.boot with deferSwap := false } }
  let s := ((s.putFlag UPD_STAT.DEFER false).put UPD_STAT.ACT 0).inc UPD_ACT_CANCEL_CNT
  s.recordImage 4 s.otherSlot 0 id

/-- Activation of the staged slot (R437): at standstill it becomes TRIAL with no tries used, and a SYS reset follows; otherwise
the activation is cancelled. -/
def State.activate (s : State) : State :=
  if s.still then
    let n := s.otherSlot
    let s := s.writeTable (s.table.setSlot n { s.table.slot n with state := 2, tries := 0 })
    s.ownReset 2
  else s.cancelActivation

/-- An activation's instant (R440): a claiming module with a twin partner defers, any other activates. -/
def State.activateAt (s : State) (claiming : Bool) : State :=
  if claiming && s.flag TWIN_CFG.EN then
    ({ s with boot := { s.boot with deferAt := s.localNow } }).putFlag UPD_STAT.DEFER true
  else s.activate

/-! ### Modes (R339, R421) -/

/-- TWIN_STAT.ROLE: 1 claiming, 2 STANDBY, 0 none. -/
def State.showRole (s : State) : State :=
  s.put TWIN_STAT.ROLE (if s.claiming then 1 else if s.get SYS_STAT.MODE == 2 then 2 else 0)

/-- The image of the running cycle, or a finished one not yet published, is discarded (R105). -/
def State.discardImage (s : State) : State :=
  { s with cyc := { s.cyc with discard := s.flag CYC_STAT.BUSY, finished := none } }

/-- At every edge in STOP the consumers are told to take Kickstand (R110); those that have it keep it. -/
def State.stopEdge (s : State) : State :=
  if s.get CYC_STAT.PSTATE == 0 && !(s.flag DIO_STAT.KICK_PRG && s.loopPrg && s.door.kick && s.flag TRIP_STAT.PRG_KICK) then s.kickPrograms else s

/-- HOLD when the module leaves SERVICE (R111): HOLD ends in STOP, and the image of a STEP under way is discarded as STOP discards one
(assumption 153); a waiting HOLD is refused. -/
def State.leaveHold (s : State) : State :=
  if s.get CYC_STAT.PSTATE == 2 then s.discardImage.programStop.inc CYC_HOLD_ABORT_CNT
  else if s.flag CYC_STAT.HOLD_PEND then (s.putFlag CYC_STAT.HOLD_PEND false).inc CYC_CMD_REJ_CNT
  else s

/-- Whether entry `k` of the step and direction table acts: enabled, with every named channel of the PULSE personality (R188). -/
def State.pulseOk (s : State) (k : Nat) : Bool :=
  s.flag (MOT_PULSE.EN k) && s.pers (s.get (MOT_PULSE.STEP_CH k)) == 2 && s.pers (s.get (MOT_PULSE.DIR_CH k)) == 2
    && (!s.flag (MOT_PULSE.ENA_EN k) || s.pers (s.get (MOT_PULSE.ENA_CH k)) == 2)

/-- The entry of the step and direction table that makes axis `n` local, lowest first (R188). -/
def State.pulseOf (s : State) (n : Nat) : Option Nat :=
  (List.range 8).find? (fun k => s.get (MOT_PULSE.AXIS k) == n && s.pulseOk k)

/-- A local axis loses HOMED outside ACTIVE and SERVICE (R191). -/
def State.localUnhome (s : State) : State :=
  if s.get SYS_STAT.MODE == 3 || s.get SYS_STAT.MODE == 1 then s
  else (List.range 96).foldl (fun s n =>
    if (s.pulseOf n).isSome && s.flag (MOT_AS.HOMED n) then s.putFlag (MOT_AS.HOMED n) false else s) s

/-- Two claims come from one sender when epoch and serial fields are equal (R340). -/
def sameSender (a b : Nat) : Bool := (a ^^^ b) &&& 0xFFF0FFFF == 0

/-- A claim from its fields (R339). -/
def claimOf (epoch grade serialLow : Nat) : Nat := epoch % 4096 * 2 ^ 20 + grade % 16 * 65536 + serialLow % 65536

/-- Entry into STANDBY while the partner claims (R358). -/
def State.standbyEntry (s : State) : State :=
  let h := s.get TWIN_HIGH.CLAIM
  let other := h != 0 && !sameSender h (claimOf (s.get TWIN_EPOCH.EPOCH) 0 (s.get TWIN_SERIAL.SERIAL))
  if s.get SYS_STAT.MODE == 2 && (s.get TWIN_PCLAIM.CLAIM != 0 || other) then
    let s := { s with twin := { s.twin with img := none, panNew := false, refused := none } }
    ((s.put TWIN_STAT.SYNC 0).putFlag TWIN_STAT.READY false).put TWIN_PANP.APPLIED 0
  else s

/-- A change of mode other than into LOCKOUT (R421): the MODE record, forces of the old mode dropped (R121), HOLD's end (R111),
ROLE, and the outputs under R321. -/
def State.enterMode (s : State) (m : Nat) : State :=
  let old := s.get SYS_STAT.MODE
  let s := (s.put SYS_STAT.MODE m).showRole
  let s := if old == 1 && m != 1 then s.leaveHold else s
  let s := s.dropForces
  let s := (s.localUnhome.standbyEntry).recordMode old
  s.outputsRefresh.showPresent

/-- A running cycle is abandoned (R105): nothing of it is published. -/
def State.abandonCycle (s : State) : State :=
  let s := { s with cyc := { s.cyc with startReq := false, discard := false, finished := none, publishing := none } }
  (s.putFlag CYC_STAT.BUSY false).putFlag CYC_STAT.OVERRUN false

/-- Every Tricycle core that is not RETIRED is HELD (R83, R422). -/
def State.holdCores (s : State) : State :=
  [0, 1, 2].foldl (fun s n =>
    let c := s.core n
    if c.st == .retired then s else s.setCore n { TriCore.init with exclusions := c.exclusions }) s

/-- LOCKOUT is entered with a reason and a sub-cause (R422). Out of SERVICE it ends HOLD as any exit from SERVICE does (R111; assumption
154). Codes that wait for the next edge stay, and are refused there. -/
def State.lockout (s : State) (reason sub : Nat) : State :=
  let old := s.get SYS_STAT.MODE
  let trial := s.flag UPD_STAT.TRIAL
  let s := if old == 1 then s.leaveHold else s
  let s := (s.put SYS_STAT.MODE 4).put SYS_STAT.LREASON reason
  let s := if reason == 1 then s.put TRI_CAUSE.LOCK sub else s
  let s := s.abandonCycle.holdCores
  let s := (s.put TWIN_CLAIM.CLAIM 0).showRole
  let s := s.dropForces.localUnhome.programStop
  let s := (s.recordMode old).latchAll.closeAll
  if trial then s.revertTrial else s

/-- The records of the exit from BOOT, with its duration: BOOT, then those of the change of mode to BOOT, and TAMPER where openings are new
(R418, R426, R455). -/
def State.bootRecords (s : State) : State :=
  let s := s.put UPD_BOOTMS.MS (min 65535 (s.localNow / 1000000))
  let s := s.record 0x01 (s.get SYS_RSTCAUSE.KIND)
    (leBytes 1 (s.get SYS_RSTCAUSE.SUB) ++ leBytes 1 s.runSlot ++ leBytes 1 (s.get UPD_STAT.TRIAL) ++ leBytes 1 0
      ++ leBytes 8 (s.get UPD_RUN_ID.ID) ++ leBytes 8 (s.get SYS_LOSS.LOSS) ++ leBytes 8 (s.get SYS_RTC.RTC) ++ leBytes 4 (s.get UPD_BOOTMS.MS))
  let s := s.boot.resetRecs.foldl State.handOver { s with boot := { s.boot with resetRecs := [] } }
  if s.get SYS_TAMPER_CNT == s.nv.tamperSeen then s
  else
    let s := s.record 0x05 0 (leBytes 8 (s.get SYS_TAMPER_TIME.TIME) ++ leBytes 4 (s.get SYS_TAMPER_CNT))
    { s with nv := { s.nv with tamperSeen := s.get SYS_TAMPER_CNT } }

/-- A LOCKOUT cause (R421, R422). A further cause changes nothing; in BOOT a cause other than CLOCK or IMAGE is kept until the exit
from BOOT, the first one staying, and CLOCK and IMAGE stop the boot chain, with the records of the exit from BOOT. -/
def State.enterLockout (s : State) (reason sub : Nat) : State :=
  let old := s.get SYS_STAT.MODE
  if old == 4 then s
  else if old == 0 && reason != 7 && reason != 8 then
    if s.boot.kept.isSome then s else { s with boot := { s.boot with kept := some (reason, sub) } }
  else if old == 0 then ({ s with boot := { s.boot with stopped := true } }).bootRecords.lockout reason sub
  else s.lockout reason sub

end Sys2Proof.Machine
end

