-- ==== Sys2Proof/Machine/Images.lean ====
section
/-! DEFINITION. Machine/Images.lean: the layout of images and what makes one valid (R431, R432). -/
namespace Sys2Proof.Machine
open Reg

/-- An image as its bytes at an offset, so many of them. -/
abbrev ImageBytes := Nat → Nat → List Byte

/-- An image given as a list of bytes; past its end it reads 0. -/
def listImage (bs : List Byte) : ImageBytes := fun o k => (bs.drop o).take k

/-- The number of `k` bytes at offset `o` of an image, little-endian (R431). -/
def imgNum (m : ImageBytes) (o k : Nat) : Nat := leNat (m o k)

/-- Fields of an image's header (R431). -/
def imgFmt (m : ImageBytes) : Nat := imgNum m 5 1
def imgBodyLen (m : ImageBytes) : Nat := imgNum m 0x0C 4
def imgId (m : ImageBytes) : Nat := imgNum m 0x10 8
def imgProgId (m : ImageBytes) : Nat := imgNum m 0x18 8
def imgBaseId (m : ImageBytes) : Nat := imgNum m 0x20 8
def imgSvn (m : ImageBytes) : Nat := imgNum m 0x28 4
def imgRaise (m : ImageBytes) : Bool := bitOf (imgNum m 6 2) 0

/-- Length of an image: header, body, trailer (R431). -/
def imgLen (m : ImageBytes) : Nat := 256 + imgBodyLen m + 17044

/-- The body of an image. -/
def imgBody (m : ImageBytes) : List Byte := m 256 (imgBodyLen m)

/-- Whether a header is laid out as R431 says for an image of kind `kind`: its constants, its fields within their ranges, zeros where there is no
field and where the kind gives PROG_ID and BASE_ID none. -/
def headOk (m : ImageBytes) (kind : Nat) : Bool :=
  imgNum m 0 4 == 0xEA483001 && imgNum m 4 1 == kind && imgNum m 6 2 ≤ 1 && imgNum m 8 4 == 256
    && (kind == 3 || kind == 4 || (imgProgId m == 0 && imgBaseId m == 0))
    && imgSvn m ≤ 63 && imgNum m 0x2C 1 < 4 && imgNum m 0x2D 1 < 4 && imgNum m 0x2E 2 == 0 && imgNum m 0x34 12 == 0

/-- Whether every section lies in the body and its CRC matches (R431, R432). -/
def sectionsOk (m : ImageBytes) : Bool :=
  let n := imgNum m 0x30 4
  1 ≤ n && n ≤ 12 && (List.range n).all (fun k =>
    let o := imgNum m (0x44 + 16 * k) 4
    let l := imgNum m (0x48 + 16 * k) 4
    o + l ≤ imgBodyLen m && crc32c (m (256 + o) l) == imgNum m (0x4C + 16 * k) 4)

/-- Whether the OTP takes the trailer's keys (R432): the slots that the header names are programmed and not revoked, and hold the hashes. -/
def State.keysOk (s : State) (rsa slh : Nat) (sig : SigCheck) : Bool :=
  s.bit UPD_OTP.RSA_PROG rsa && !s.bit UPD_OTP.RSA_REV rsa && s.bit UPD_OTP.SLH_PROG slh && !s.bit UPD_OTP.SLH_REV slh
    && s.nv.rsaHash.getD rsa 0 == sig.rsaKey && s.nv.slhHash.getD slh 0 == sig.slhKey

/-- Whether an image of kind `kind` is valid (R431, R432): header, keys, both signatures, sections, IMG_ID, SVN. -/
def State.imageValid (s : State) (m : ImageBytes) (kind : Nat) (sig : SigCheck) : Bool :=
  headOk m kind && s.keysOk (imgNum m 0x2C 1) (imgNum m 0x2D 1) sig && sig.rsaOk && sig.slhOk && sectionsOk m
    && imgId m == sig.digest.toNat && s.get UPD_OTP.SVN ≤ imgSvn m

/-- The firmware image of slot `n`, and its Orchard image, as eMMC holds them (R424). -/
def State.slotFw (s : State) (n : Nat) : ImageBytes := listImage (SMap.getD s.nv.images (2 * n) [])
def State.slotOrch (s : State) (n : Nat) : ImageBytes := listImage (SMap.getD s.nv.images (2 * n + 1) [])

/-- Copy `n` of the supervisor firmware, as the QSPI NOR holds it (R424). -/
def State.supFirmware (s : State) (n : Nat) : ImageBytes := listImage (SMap.getD s.nv.images (4 + n) [])

/-- The SVN that slot `n` raises the counter to (R434): that of its images that carry RAISE_SVN. -/
def State.raiseOf (s : State) (n : Nat) : Nat :=
  [s.slotFw n, s.slotOrch n].foldl (fun v m => if imgRaise m then max v (imgSvn m) else v) 0

end Sys2Proof.Machine
end

