-- ==== Sys2Proof/Machine/TwinOps.lean ====
section
/-! DEFINITION. Machine/TwinOps.lean: claims, the highest claim seen, health grade, demotion (R339 to R343). -/
namespace Sys2Proof.Machine
open Reg

/-- Low 16 bits of the serial number. -/
def State.serialLow (s : State) : Nat := s.get TWIN_SERIAL.SERIAL % 65536

/-- The health grade (R339). -/
def State.grade (s : State) : Nat :=
  (if s.get TRI_STAT.PART == 7 then 8 else 0)
    + (if s.get TRIP_STAT.EVAL == 7 then 4 else 0)
    + (if [0, 1].all (fun l => s.get (LANE_STAT.STATE l) == 4 && s.flag (LANE_STAT.PREEMPT l)) then 2 else 0)
    + (if (List.range 8).all (fun g => !s.grpUsed g || !s.grpHeld g) then 1 else 0)

/-- The claim the module puts into its frames: 0 unless it is a claiming module (R339). -/
def State.ownClaim (s : State) : Nat := if s.claiming then s.get TWIN_CLAIM.CLAIM else 0

/-- obey() of R340 for a frame with claim `c`: H follows, and whether the frame is obeyed; a refused one is counted. A frame
with claim 0 neither commands nor refreshes H. -/
def State.obey (s : State) (c : Nat) : State × Bool :=
  if c = 0 then (s, false)
  else
    let h := s.get TWIN_HIGH.CLAIM
    if h = 0 || h < c || sameSender c h then
      let s := (s.put TWIN_HIGH.CLAIM c)
      ({ s with twin := { s.twin with quiet := 0, heard := true } }, true)
    else (s.inc TWIN_CLAIM_REJ_CNT, false)

/-- The module stops claiming and enters STANDBY (R342, R393). -/
def State.demote (s : State) : State :=
  let s := { s with twin := { s.twin with swap := none, yieldDue := false, takeDue := false } }
  let s := ((s.put TWIN_CLAIM.CLAIM 0).putFlag TWIN_STAT.YIELD false).inc TWIN_DEMOTE_CNT
  (s.enterMode 2).recordTwin 2

/-- Whether claim `c` comes from another sender than this module with its epoch (R340, R342): a partner with the same low serial
part is another sender as soon as its epoch differs. -/
def State.foreign (s : State) (c : Nat) : Bool :=
  c != 0 && !sameSender c (claimOf (s.get TWIN_EPOCH.EPOCH) 0 s.serialLow)

/-- A claim of another sender has been seen, in a lane frame or a heartbeat (R344): a claiming module with a lower claim is demoted
(R342). -/
def State.seeClaim (s : State) (c : Nat) : State :=
  if !s.foreign c then s
  else
    let s := { s with twin := { s.twin with seenClaim := true } }
    if s.claiming && s.get TWIN_CLAIM.CLAIM < c then s.demote else s

/-- The epoch after `e`: 0xFFF wraps to 0x001 (R343). -/
def nextEpoch (e : Nat) : Nat := if e % 4096 = 0xFFF then 1 else e % 4096 + 1

/-- The module's own claim `c` counts as seen (R340): H takes it by the rule of obey(), so that a wrapped, lower one waits until the
old claim has expired (R343). -/
def State.ownSeen (s : State) (c : Nat) : State :=
  let h := s.get TWIN_HIGH.CLAIM
  if h = 0 || h < c || sameSender c h then { s with twin := { s.twin with heard := true, quiet := 0 } }.putIf TWIN_HIGH.CLAIM c else s

/-- The module starts to claim (R343): the epoch is raised, stored, and the claim formed. The spoke source starts sending
with a full bucket (R208). -/
def State.raiseClaim (s : State) : State :=
  let seen := max (s.get TWIN_EPOCH.EPOCH) (max s.twin.epochSeen (match s.twin.hb with | some h => h.epoch | none => 0))
  let e := nextEpoch seen
  let c := claimOf e s.grade s.serialLow
  let s := ((s.put TWIN_EPOCH.EPOCH e).put TWIN_CLAIM.CLAIM c).ownSeen c
  { s with twin := { s.twin with deciding := false, window := none }, trip := { s.trip with tokens := 2, waitEvt := true } }

/-- A lane frame from a claiming sender other than this module: it counts as heard from the partner (R346), and its epoch counts
(R343). -/
def State.laneClaim (s : State) (c : Nat) : State :=
  let partner := match s.twin.hb with
    | some h => c % 65536 == h.serial % 65536
    | none => true
  let s := if s.foreign c && partner then { s with twin := { s.twin with laneMiss := 0 } } else s
  let s := if c != 0 then { s with twin := { s.twin with epochSeen := max s.twin.epochSeen (c / 2 ^ 20) } } else s
  s.seeClaim c

/-- Conditions of a role swap (R360); `unready` is OP SWAP_UNREADY. -/
def State.swapOk (s : State) (unready : Bool) : Bool :=
  let ready := match s.twin.hb with
    | some h => bitOf h.flags 2
    | none => false
  s.get SYS_STAT.MODE == 3 && s.flag TWIN_STAT.PAIRED && s.get TWIN_STAT.PMODE == 2 && s.still && (unready || ready)

/-- A swap command (R360): accepted, it sets YIELD; refused, it is counted. -/
def State.swapTry (s : State) (unready : Bool) : State :=
  if s.swapOk unready then
    (({ s with twin := { s.twin with swap := some 0 } }).putFlag TWIN_STAT.YIELD true).recordTwin 3
  else s.inc TWIN_CMD_REJ_CNT

/-- A deferring module acts on its partner's OWN field (R439, R440). -/
def State.partnerOwn (s : State) (own : Nat) : State :=
  if !s.flag UPD_STAT.DEFER || s.boot.deferSwap || !bitOf own 1 then s
  else if own / 256 != s.get UPD_ACT_ID.ID % 2 ^ 24 then s.cancelActivation
  else if s.flag TWIN_STAT.PAIRED && s.still then
    if s.swapOk true then { (s.swapTry true) with boot := { s.boot with deferSwap := true } }
    else (s.swapTry true).cancelActivation
  else s

end Sys2Proof.Machine
end

