-- ==== Sys2Proof/Machine/GwOps.lean ====
section
/-! DEFINITION. Machine/GwOps.lean: the signal map: entries, fields, conversion, staleness, assembly (R299 to R308). -/
namespace Sys2Proof.Machine
open Reg

/-! ### Entries (R299) -/

/-- One destination of an entry. -/
structure GwDest where
  kind : Nat
  big : Bool
  idx : Nat
  off : Nat
  deriving DecidableEq, Repr

/-- A signal map entry (R299). -/
structure GwEntry where
  kind : Nat
  big : Bool
  typ : Nat
  idx : Nat
  width : Nat
  scale : Bool
  fbm : Nat
  shift : Nat
  off : Nat
  maxAge : Nat
  d0 : GwDest
  d1 : GwDest
  mul : Int
  add : Int
  fallback : Nat
  deriving DecidableEq, Repr

/-- Address of entry `e` of bank `b` (R299). -/
def gwAddr (b e : Nat) : Nat := 0x21000000 + b * 0x60000 + 32 * e

/-- A destination from its two words. -/
def gwDest (w o : Nat) : GwDest := ⟨bitsOf w 0 3, !bitOf w 3, bitsOf w 7 9, bitsOf o 0 18⟩

/-- Entry `e` of bank `b`. -/
def State.gwEntry (s : State) (b e : Nat) : GwEntry :=
  let w := fun i => s.load (gwAddr b e + 4 * i) 4
  { kind := bitsOf (w 0) 0 3, big := !bitOf (w 0) 3, typ := bitsOf (w 0) 4 2, idx := bitsOf (w 0) 7 9
    width := bitsOf (w 0) 16 6 + 1, scale := bitOf (w 0) 22, fbm := bitsOf (w 0) 23 2, shift := bitsOf (w 0) 25 5
    off := bitsOf (w 1) 0 18, maxAge := bitsOf (w 1) 18 8
    d0 := gwDest (w 2) (w 3), d1 := gwDest (w 4) (w 5)
    mul := toSigned 16 (bitsOf (w 6) 0 16), add := toSigned 16 (bitsOf (w 6) 16 16), fallback := w 7 }

/-- The indices of entries of bank `b` that hold any byte other than 0, rising. -/
def State.gwListed (s : State) (b : Nat) : List Nat :=
  ((s.mem.filter (fun c => gwAddr b 0 ≤ c.1 && c.1 < gwAddr b 12288)).map (fun c => (c.1 - gwAddr b 0) / 32)).eraseDups

/-! ### Lengths, sources and what the scan refuses (R226, R308) -/

/-- Bytes of an MVB port by its F-code (R297). -/
def State.mvbLen (s : State) (n : Nat) : Nat := if 4 < s.get (GW_MVBP.FCODE n) then 0 else 2 * 2 ^ s.get (GW_MVBP.FCODE n)

/-- Whether MVB port slot `n` is used. -/
def State.mvbUsed (s : State) (n : Nat) : Bool := s.flag (GW_MVBP.EN n) && s.get (GW_MVBP.FCODE n) ≤ 4

/-- Address of cadence entry `e` of lane `l` in bank `b` (R258). -/
def cadAddr (b l e : Nat) : Nat := 0x21100000 + b * 0x40000 + l * 0x20000 + 16 * e

/-- Word `i` of a cadence entry. -/
def State.cadWord (s : State) (b l e i : Nat) : Nat := s.load (cadAddr b l e + 4 * i) 4

/-- The cadence entries of lane `l` in bank `b` that hold any byte other than 0. -/
def State.cadListed (s : State) (b l : Nat) : List Nat :=
  ((s.mem.filter (fun c => cadAddr b l 0 ≤ c.1 && c.1 < cadAddr b l 4096)).map (fun c => (c.1 - cadAddr b l 0) / 16)).eraseDups

/-- The first DATA entry of a stream in the active banks, as (bank, lane, entry) (R258). -/
def State.streamEntry (s : State) (m : Nat) : Option (Nat × Nat × Nat) :=
  ([0, 1].flatMap (fun l => ((s.cadListed (s.get (LANE_STAT.BANK l)) l).map (fun e => (s.get (LANE_STAT.BANK l), l, e))))).find?
    (fun (x : Nat × Nat × Nat) =>
      bitsOf (s.cadWord x.1 x.2.1 x.2.2 0) 28 3 == 2 && bitsOf (s.cadWord x.1 x.2.1 x.2.2 1) 16 16 == m)

/-- Payload bytes of stream `m`: LEN of its entry; 0 where no entry carries it. -/
def State.streamLen (s : State) (m : Nat) : Nat :=
  match s.streamEntry m with
  | some (b, l, e) => bitsOf (s.cadWord b l e 1) 0 11
  | none => 0

/-- Payload bytes of a kind's index: 1 stream, 2 telegram, 3 port, 4 image of `img` bytes. -/
def State.gwLen (s : State) (kind idx img : Nat) : Nat :=
  match kind with
  | 1 => s.streamLen idx
  | 2 => s.get (ECN_PD.LEN idx)
  | 3 => s.mvbLen idx
  | _ => img

/-- Whether an index lies in its kind's range (R299). -/
def gwIdxOk (kind idx : Nat) : Bool := if kind = 3 then idx < 256 else if kind = 4 then idx == 0 else idx < 512

/-- Whether a transport carries a safe session (R226): lane streams are kind 0 of SAFE_S, telegrams 1, ports 2. -/
def State.safeBound (s : State) (kind idx : Nat) : Bool :=
  1 ≤ kind && kind ≤ 3 && (List.range 128).any (fun n =>
    s.flag (SAFE_S.EN n) && s.get (SAFE_S.TRANS n) + 1 == kind && s.get (SAFE_S.TIDX n) == idx)

/-- Whether a destination holds the field (R308). -/
def State.gwDestOk (s : State) (d : GwDest) (width : Nat) : Bool :=
  d.kind == 0 || 4 < d.kind
    || (gwIdxOk d.kind d.idx && d.off + width ≤ 8 * s.gwLen d.kind d.idx (s.get CYC_IMG.IN_LEN) && !s.safeBound d.kind d.idx)

/-- Whether an entry is used: source kind 1 to 4. -/
def GwEntry.used (e : GwEntry) : Bool := 1 ≤ e.kind && e.kind ≤ 4

/-- Whether a used entry passes the scan of R308. -/
def State.gwOk (s : State) (e : GwEntry) : Bool :=
  gwIdxOk e.kind e.idx && e.off + e.width ≤ 8 * s.gwLen e.kind e.idx (s.get CYC_IMG.OUT_LEN) && !s.safeBound e.kind e.idx
    && s.gwDestOk e.d0 e.width && s.gwDestOk e.d1 e.width

/-- The entries of the active bank that take part: used, and good under R308. -/
def State.gwEntries (s : State) : List (Nat × GwEntry) :=
  let b := s.get GW_MAP_STAT.ACTIVE
  ((s.gwListed b).map (fun e => (e, s.gwEntry b e))).filter (fun (p : Nat × GwEntry) => p.2.used && s.gwOk p.2)

/-! ### Fields (R300) -/

/-- get_field() of R300. -/
def getField (buf : List Byte) (off width : Nat) (big : Bool) : Nat :=
  let first := off / 8
  let n := (off + width - 1) / 8 - first + 1
  let bs := (List.range n).map (fun i => buf.getD (first + i) 0)
  let x := if big then beNat bs else leNat bs
  let sh := if big then 8 * n - off % 8 - width else off % 8
  x / 2 ^ sh % 2 ^ width

/-- A field placed where get_field() would read it; the other bits stay (R300). -/
def putField (buf : List Byte) (off width : Nat) (big : Bool) (v : Nat) : List Byte :=
  let first := off / 8
  let n := (off + width - 1) / 8 - first + 1
  let bs := (List.range n).map (fun i => buf.getD (first + i) 0)
  let sh := if big then 8 * n - off % 8 - width else off % 8
  let x := putBits (if big then beNat bs else leNat bs) sh width v
  let new := if big then beBytes n x else leBytes n x
  buf.zipIdx.map (fun (p : Byte × Nat) => if first ≤ p.2 && p.2 < first + n then new.getD (p.2 - first) p.1 else p.1)

/-- TYPE after R301: a float of a width other than its own acts as unsigned. -/
def GwEntry.actType (e : GwEntry) : Nat :=
  if (e.typ = 2 && e.width ≠ 32) || (e.typ = 3 && e.width ≠ 64) then 0 else e.typ

/-- A converted value, and whether it saturated (R301). -/
def GwEntry.convert (e : GwEntry) (x : Nat) : Nat × Bool :=
  if e.actType ≤ 1 && e.scale then
    let v : Int := if e.actType = 1 then toSigned e.width x else x
    let y := v * e.mul / 2 ^ e.shift + e.add
    let lo : Int := if e.actType = 1 then -(2 ^ (e.width - 1) : Nat) else 0
    let hi : Int := if e.actType = 1 then (2 ^ (e.width - 1) : Nat) - 1 else (2 ^ e.width : Nat) - 1
    let z := clampInt lo hi y
    (ofSigned e.width z, z != y)
  else (x, false)

/-- The fallback value of FBM = VALUE (R301): unscaled, the low WIDTH bits. -/
def GwEntry.fallbackBits (e : GwEntry) : Nat :=
  let v : Int := if e.actType = 1 then toSigned 32 e.fallback else e.fallback
  ofSigned e.width v

/-! ### Sources (R302, R303) -/

/-- The image that the gateway reads: the buffer that this lane tick carries for a lane stream (R15), the active
publication buffer otherwise (R109). -/
def State.gwImage (s : State) (lane : Bool) : List Byte :=
  match lane, s.lanes.kept with
  | true, some image => image
  | _, _ => s.bytes (pubBuf (if lane then s.lanes.buf else s.cyc.active)) (s.get CYC_IMG.OUT_LEN)

/-- A telegram beyond its registers. -/
def State.pdOf (s : State) (n : Nat) : Pd := SMap.getD s.ecn.pd n Pd.init

/-- The state with telegram `n` replaced. -/
def State.setPd (s : State) (n : Nat) (x : Pd) : State := { s with ecn := { s.ecn with pd := SMap.set s.ecn.pd n x } }

/-- MVB port slot `n` beyond its registers. -/
def State.mvbOf (s : State) (n : Nat) : Mvb := SMap.getD s.gw.mvb n ⟨[], none, false⟩

/-- The state with port slot `n` replaced. -/
def State.setMvb (s : State) (n : Nat) (x : Mvb) : State := { s with gw := { s.gw with mvb := SMap.set s.gw.mvb n x } }

/-- The payload an entry reads from; `lane` where a lane stream is being assembled. -/
def State.gwSource (s : State) (e : GwEntry) (lane : Bool) : List Byte :=
  match e.kind with
  | 1 => match SMap.find s.lanes.streams e.idx with
    | some x => x.data
    | none => []
  | 2 => (s.pdOf e.idx).data
  | 3 => (s.mvbOf e.idx).data
  | _ => s.gwImage lane

/-- Age of an entry's source in ticks (R302). -/
def State.gwAge (s : State) (e : GwEntry) : Nat :=
  match e.kind with
  | 1 => s.get (LANE_STR.AGE e.idx)
  | 2 => (s.pdOf e.idx).ticks
  | 3 => match (s.mvbOf e.idx).since with
    | some a => s.time.edge / tickNs - a / tickNs
    | none => 0xFFFF
  | _ => s.lanes.sentAge

/-- Whether a source has delivered at all (R302). -/
def State.gwEver (s : State) (e : GwEntry) : Bool :=
  match e.kind with
  | 1 => (SMap.find s.lanes.streams e.idx).isSome
  | 2 => (s.pdOf e.idx).ever
  | 3 => (s.mvbOf e.idx).since.isSome
  | _ => s.cyc.last.isSome

/-- Whether sink port `n` had gone without a valid frame for more than FRESH ms at the latest local tick edge (R298). -/
def State.mvbOld (s : State) (n : Nat) : Bool :=
  match (s.mvbOf n).since with
  | some a => a + 1000000 * atLeast1 (s.get (GW_MVBP.FRESH n)) < s.time.edge
  | none => true

/-- Own staleness of an entry's source (R302), as its age stands even where the mark of the source follows. -/
def State.gwOwnStale (s : State) (e : GwEntry) : Bool :=
  match e.kind with
  | 1 => s.flag (LANE_STR.STALE e.idx) || s.flag (LANE_STR.FLAG_STALE e.idx)
    || (match SMap.find s.lanes.streams e.idx with
        | some x => x.maxAge < s.get (LANE_STR.AGE e.idx)
        | none => true)
  | 2 => s.get (ECN_PDST.STATE e.idx) == 3 || s.get (ECN_PD.CYCLE e.idx) ≤ (s.pdOf e.idx).ticks
  | 3 => s.flag (GW_MVBS.STALE e.idx) || s.mvbOld e.idx
  | _ => s.flag CYC_STAT.KICK

/-- Whether an entry is STALE as its source stands (R302). -/
def State.gwStaleNow (s : State) (e : GwEntry) : Bool :=
  !s.gwEver e || s.gwOwnStale e || (e.maxAge != 0 && e.maxAge < s.gwAge e)

/-- The value an entry gives its destinations, and whether it saturated (R301, R302). -/
def State.gwValue (s : State) (e : GwEntry) (lane : Bool) : Nat × Bool :=
  let live := if s.gwEver e then e.convert (getField (s.gwSource e lane) e.off e.width e.big) else (0, false)
  if s.gwStaleNow e then
    match e.fbm with
    | 0 => live
    | 1 => (e.fallbackBits, false)
    | _ => (0, false)
  else live

/-! ### Assembly (R303 to R306) -/

/-- The destinations of an entry that name a payload. -/
def GwEntry.into (e : GwEntry) (kind idx : Nat) : List GwDest := [e.d0, e.d1].filter (fun d => d.kind == kind && d.idx == idx)

/-- An outgoing payload of `len` bytes, and the state with its saturations counted: the higher-numbered entry's value applies,
unwritten bits are 0 (R303, R304). -/
def State.gwAssemble (s : State) (kind idx len : Nat) (lane : Bool) : List Byte × State :=
  s.gwEntries.foldl (fun (acc : List Byte × State) (p : Nat × GwEntry) =>
    (p.2.into kind idx).foldl (fun acc d =>
      let (v, sat) := s.gwValue p.2 lane
      (putField acc.1 d.off p.2.width d.big v, if sat then acc.2.inc GW_SAT_CNT else acc.2)) acc)
    (List.replicate len 0, s)

/-- The entries that write a payload. -/
def State.gwWriters (s : State) (kind idx : Nat) : List GwEntry :=
  (s.gwEntries.map Prod.snd).filter (fun e => !(e.into kind idx).isEmpty)

/-- A field of an entry written into the input image as a unit (R303), and whether it saturated. -/
def State.gwField (s : State) (e : GwEntry) (d : GwDest) : State × Bool :=
    let (v, sat) := s.gwValue e false
    let first := d.off / 8
    let n := (d.off + e.width - 1) / 8 - first + 1
    let w0 := first / 8
    let w1 := (first + n - 1) / 8
    let old := (List.range (w1 - w0 + 1)).flatMap (fun i => leBytes 8 (s.unforced (w0 + i) (s.liveWord (w0 + i))))
    let new := putField old (d.off - 64 * w0) e.width d.big v
    (s.liveWrite first ((new.drop (first - 8 * w0)).take n), sat)

/-- Whether two image fields share a bit. -/
def overlaps (a wa b wb : Nat) : Bool := a < b + wb && b < a + wa

/-- Entry `n` written into the input image for each of its image destinations (R303); where a higher-numbered entry has bits of what is
written its field is written again over it, rising, so that its value applies (R304). -/
def State.gwToImage (s : State) (n : Nat) (e : GwEntry) : State :=
  let first := (e.into 4 0).foldl (fun (acc : State × List (Nat × Nat)) d =>
    let (s, sat) := acc.1.gwField e d
    (if sat then s.inc GW_SAT_CNT else s, (d.off, e.width) :: acc.2)) (s, [])
  ((s.gwEntries.filter (fun (p : Nat × GwEntry) => n < p.1)).foldl (fun acc (p : Nat × GwEntry) =>
    (p.2.into 4 0).foldl (fun (acc : State × List (Nat × Nat)) x =>
      if acc.2.any (fun w => overlaps x.off p.2.width w.1 w.2) then ((acc.1.gwField p.2 x).1, (x.off, p.2.width) :: acc.2) else acc) acc)
    first).1

/-- Every entry that reads a source writes its image destinations after an arrival (R303). -/
def State.gwArrived (s : State) (kind idx : Nat) : State :=
  s.gwEntries.foldl (fun s (p : Nat × GwEntry) => if p.2.kind == kind && p.2.idx == idx then s.gwToImage p.1 p.2 else s) s

/-- An entry's STALE mark follows its source; an entry into STALE counts (R302); a change is written to the image. -/
def State.gwMark (s : State) (n : Nat) (e : GwEntry) : State :=
  let now := s.gwStaleNow e
  let was := s.gw.stale.contains n
  if now == was then s
  else
    let l := if now then n :: s.gw.stale else s.gw.stale.filter (· ≠ n)
    let s := ({ s with gw := { s.gw with stale := l } }).put GW_STAT.NSTALE l.length
    let s := if now then s.inc GW_STALE_CNT else s
    s.gwToImage n e

/-- The gateway's work at a local tick edge (R303, R306): STALE marks, those of entries no longer in the bank withdrawn, and
the STALE bit area. -/
def State.gwTick (s : State) : State :=
  let es := s.gwEntries
  let keep := s.gw.stale.filter (fun n => es.any (fun (p : Nat × GwEntry) => p.1 == n))
  let s := if keep.length = s.gw.stale.length then s
    else ({ s with gw := { s.gw with stale := keep } }).put GW_STAT.NSTALE keep.length
  let s := es.foldl (fun s (p : Nat × GwEntry) => s.gwMark p.1 p.2) s
  if s.flag GW_CFG.STAT_EN then
    let bits := s.gw.stale.foldl (fun v n => setBit v n true) 0
    s.liveWrite (s.get GW_CFG.STAT_OFF) (leBytes 1536 bits)
  else s

end Sys2Proof.Machine
end

