-- ==== Sys2Proof/Machine/LaneOps.lean ====
section
/-! DEFINITION. Machine/LaneOps.lean: lane states, LANE time, frame headers and what a lane frame does to every receiver
(R245 to R280, R282). -/
namespace Sys2Proof.Machine
open Reg

/-- Lane `l` (0 A, 1 B) beyond its registers. -/
def State.ln (s : State) (l : Nat) : LaneSt := SMap.getD s.lanes.lane l LaneSt.init

/-- The state with lane `l` replaced. -/
def State.setLn (s : State) (l : Nat) (x : LaneSt) : State := { s with lanes := { s.lanes with lane := SMap.set s.lanes.lane l x } }

/-- State code of lane `l` (R270): 0 OFF, 1 LISTEN, 2 CONTEND, 3 INTEGRATE, 4 SYNCED, 5 FAULT. -/
def State.laneState (s : State) (l : Nat) : Nat := s.get (LANE_STAT.STATE l)

/-- Whether lane `l` is SYNCED, which includes FREEWHEEL (R270). -/
def State.laneSynced (s : State) (l : Nat) : Bool := s.laneState l == 4

/-- Own node ID. -/
def State.node (s : State) : Nat := s.get LANE_CFG.NODE

/-- Active CID of lane `l`. -/
def State.laneCid (s : State) (l : Nat) : Nat := if l = 0 then s.get LANE_CID.CID_A else s.get LANE_CID.CID_B

/-- The state with the active CID of lane `l` set. -/
def State.putCid (s : State) (l v : Nat) : State := if l = 0 then s.put LANE_CID.CID_A v else s.put LANE_CID.CID_B v

/-- Header word 0 of the table of lane `l` in bank `b` (R258): CID and PAIR_NODE. -/
def State.cadHeader (s : State) (b l : Nat) : Nat := s.load (cadAddr b l 0 + 0x10000) 4

/-- CID of a bank (R258). -/
def State.bankCid (s : State) (b : Nat) : Nat := bitsOf (s.cadHeader b 0) 0 16

/-- The bank that holds a CID, the one in use by lane `l` first. -/
def State.bankOf (s : State) (l cid : Nat) : Option Nat :=
  let b := s.get (LANE_STAT.BANK l)
  if s.bankCid b == cid then some b else if s.bankCid (1 - b) == cid then some (1 - b) else none

/-- The pair's lower node ID P on lane `l` (R260); 0: no pair. -/
def State.pairNode (s : State) (l : Nat) : Nat := bitsOf (s.cadHeader (s.get (LANE_STAT.BANK l)) l) 16 8

/-- Whether `n` is one of the twin modules P and P + 1 (R260). -/
def State.isPair (s : State) (l n : Nat) : Bool := s.pairNode l != 0 && (n == s.pairNode l || n == s.pairNode l + 1)

/-- LINK bit of a port: UP is 0, DN is 1. -/
def linkFld (l dn : Nat) : Fld := if dn = 0 then LANE_STAT.LINK_UP l else LANE_STAT.LINK_DN l

/-- Linked ports of lane `l`: bit 0 UP, bit 1 DN. -/
def State.linked (s : State) (l : Nat) : Nat := s.get (LANE_STAT.LINK_UP l) + 2 * s.get (LANE_STAT.LINK_DN l)

/-- Whether some linked port of lane `l` has failed its verification (R247). -/
def State.linkFailed (s : State) (l : Nat) : Bool := (s.ln l).failed &&& s.linked l != 0

/-- LANE_x_STAT.PREEMPT: verification has succeeded on every linked port (R247). -/
def State.showPreempt (s : State) (l : Nat) : State :=
  s.putFlag (LANE_STAT.PREEMPT l)
    (s.linked l != 0 && ((s.ln l).verified &&& s.linked l == s.linked l) && !s.linkFailed l)

/-! ### LANE time (R273, R282, R284) -/

/-- LANE_SRC shows the lane that LANE follows (R282): the one that is SYNCED; of two, that of the lower master, lane A where both follow one
(assumption 159). -/
def State.showLaneSrc (s : State) : State :=
  match s.laneSynced 0, s.laneSynced 1 with
  | true, true => s.putIf TIME_STAT.LANE_SRC (decide (s.get (LANE_STAT.MASTER_ID 1) < s.get (LANE_STAT.MASTER_ID 0))).toNat
  | true, false => s.putIf TIME_STAT.LANE_SRC 0
  | false, true => s.putIf TIME_STAT.LANE_SRC 1
  | false, false => s

/-- TIME_STAT.LANE_SYNC follows the lanes (R282); an unsynchronised LANE is not in FREEWHEEL, and no source is live on it (R211). -/
def State.showLaneSync (s : State) : State :=
  if s.laneSynced 0 || s.laneSynced 1 then (s.putIf TIME_STAT.LANE_SYNC 1).showLaneSrc
  else (((if s.flag TIME_STAT.LANE_SYNC then s.loseSources else s).putIf TIME_STAT.LANE_SYNC 0).putIf TIME_STAT.LANE_FW 0).putIf TIME_LANE_HOLD.HOLD 0

/-- LANE leaves FREEWHEEL (R284). -/
def State.laneFwEnd (s : State) : State :=
  let s := [0, 1].foldl (fun s l => s.putIf (LANE_STAT.FREEWHEEL l) 0) s
  (s.putIf TIME_STAT.LANE_FW 0).putIf TIME_LANE_HOLD.HOLD 0

/-- Rate in ppb between two readings of a master's time against LOCAL. -/
def measuredRate (l0 : Nat) (v0 : Int) (l1 : Nat) (v1 : Int) : Int :=
  let dl : Int := (l1 : Int) - l0
  if dl = 0 then 0 else (v1 - v0 - dl) * 1000000000 / dl

/-- Average of measured rates. -/
def meanRate (rs : List Int) : Int := if rs.isEmpty then 0 else (rs.foldl (· + ·) 0) / (rs.length : Int)

/-- LANE set to `v` now (R273), with its rate correction from the last 8 measurements (R282); `fresh` starts the measurements anew. -/
def State.setLane (s : State) (v : Int) (fresh : Bool) : State :=
  let now := s.localNow
  let rates := match s.time.sync, fresh with
    | some (l0, v0), false => (measuredRate l0 v0 now v :: s.time.rates).take 8
    | _, _ => []
  let s := s.putS TIME_LANE_RATE.RATE (meanRate rates)
  ({ s with time := { s.time with laneRef := now, laneVal := v, laneEver := true, sync := some (now, v), rates := rates } }).showTime

/-! ### Lane states (R270) -/

/-- Lane `l` moves to a state, with everything of the old one forgotten but its ports' verification. -/
def State.laneGoto (s : State) (l st : Nat) : State :=
  let x := s.ln l
  let s := s.setLn l { LaneSt.init with verified := x.verified, failed := x.failed, seen := x.seen, heard := x.heard }
  let s := (s.put (LANE_STAT.STATE l) st).put (LANE_STAT.FAULT l) 0
  let s := (s.putFlag (LANE_STAT.MASTER l) false).putFlag (LANE_STAT.FREEWHEEL l) false
  let s := if st == 4 then s else s.put (LANE_STAT.MASTER_ID l) 0
  let s := s.put (if l = 0 then LANE_VER.MISMATCH_A else LANE_VER.MISMATCH_B) 0
  s.showLaneSync

/-- Lane `l` enters FAULT with a cause (R269, R270, R277): 1 DUPID, 2 CADENCE, 3 VERSION, 4 PREEMPT. -/
def State.laneFault (s : State) (l cause : Nat) : State :=
  let s := ((s.laneGoto l 5).put (LANE_STAT.FAULT l) cause).inc (LANE_FAULT_CNT l)
  if cause == 3 then s.put (if l = 0 then LANE_VER.MISMATCH_A else LANE_VER.MISMATCH_B) 1 else s

/-- Whether lane `l` may be out of OFF (R270): enabled, a link up, the clock on a crystal; and the module has a node ID (assumption 13). -/
def State.laneWanted (s : State) (l : Nat) : Bool :=
  s.flag (if l = 0 then LANE_CTRL.EN_A else LANE_CTRL.EN_B) && s.linked l != 0 && s.get CLK_STAT.REF != 2
    && !s.flag CLK_STAT.BYPASS && 1 ≤ s.node && s.node ≤ 253

/-- Lane `l` leaves OFF or enters it as its conditions stand (R247, R270). -/
def State.laneCheck (s : State) (l : Nat) : State :=
  if s.laneState l == 0 then
    if s.laneWanted l then (if s.linkFailed l then s.laneFault l 4 else s.laneGoto l 1) else s
  else if s.laneWanted l then s else s.laneGoto l 0

/-- Both lanes checked. -/
def State.lanesCheck (s : State) : State := (s.laneCheck 0).laneCheck 1

/-- A second sender's claim to mastership: this lane's master is now `id` (LANE_x_MASTER_CNT counts the changes seen). -/
def State.newMaster (s : State) (l id : Nat) : State :=
  if s.get (LANE_STAT.MASTER_ID l) == id then s
  else (((s.put (LANE_STAT.MASTER_ID l) id).putFlag (LANE_STAT.MASTER l) (id == s.node)).inc (LANE_MASTER_CNT l)).showLaneSrc

/-- Lane `l` leaves SYNCED to integrate again (R270, R275, R280). -/
def State.laneRejoin (s : State) (l : Nat) : State := (s.laneGoto l 3).inc (LANE_REJOIN_CNT l)

/-! ### Frames (R249 to R251) -/

/-- The lane header of a frame, from frame bytes 14 to 29 (R249). -/
structure LHdr where
  ver : Nat
  kind : Nat
  cid : Nat
  macro_ : Nat
  slot : Nat
  sender : Nat
  claim : Nat
  flags : Nat
  age : Nat
  deriving DecidableEq, Repr

/-- The header of a frame. -/
def laneHdr (f : List Byte) : LHdr :=
  let b := fun o n => fieldBE f o n
  ⟨b 14 1 / 16, b 14 1 % 16, b 15 2, b 17 4, b 21 2, b 23 1, b 24 4, b 28 1, b 29 1⟩

/-- The least payload of each kind but DATA (R249, R250). -/
def kindPayload (f : List Byte) (kind : Nat) : Nat :=
  match kind with
  | 2 | 3 => 4 + 16 * fieldBE f 30 1
  | 4 => 32
  | 1 => 0
  | _ => 30

/-- What R250 does to a received frame: a frame with an FCS error, or one that fails the format, is dropped and counted. A DATA frame has
a length only where it names an entry of the cadence in use. -/
def State.laneFormat (s : State) (l : Nat) (f : List Byte) (fcs : Bool) : State × Bool :=
  let h := laneHdr f
  let entry := h.cid == s.laneCid l && h.slot < 4096
  let len := if h.kind = 1 then (if entry then bitsOf (s.cadWord (s.get (LANE_STAT.BANK l)) l h.slot 1) 0 11 else 0) else kindPayload f h.kind
  if !fcs then (s.inc (LANE_FCS_CNT l), false)
  else if fieldBE f 12 2 != s.get LANE_CFG.ETYPE || h.ver < s.get LANE_VER.OWN_MIN || s.get LANE_VER.OWN_MAX < h.ver
      || 8 < h.kind || f.length < 30 + len then (s.inc (LANE_FMT_CNT l), false)
  else (s, true)

/-- Whether the lane takes scheduled, SYNC, COLDSTART and PDELAY frames (R270): not in OFF or FAULT. -/
def State.laneTakes (s : State) (l : Nat) : Bool := s.laneState l != 0 && s.laneState l != 5

/-- A frame with this node's own ID in SENDER, other than PAIR frames, is a duplicate (R269). -/
def State.isDup (s : State) (l : Nat) (h : LHdr) : Bool :=
  let sender := bitsOf (s.cadWord (s.get (LANE_STAT.BANK l)) l h.slot 0) 19 8
  h.sender == s.node && !(h.slot < 4096 && sender == 0xFE)

/-- FLAGS of this module's frames (R251): FORCED, STALE, TEST, SPARE. -/
def State.laneFlags (s : State) (stale spare : Bool) : Nat :=
  s.get CYC_STAT.FORCED + 2 * stale.toNat + 4 * (s.get SYS_STAT.MODE == 1).toNat + 8 * spare.toNat

/-- LANE now, as the module's own frames carry it. -/
def State.laneSent (s : State) : Nat := s.laneSentAt s.localNow

/-- Macrocycle number now (R249). -/
def State.macro_ (s : State) : Nat := s.laneSent / 4000000 % 2 ^ 32

/-- A lane frame of this module up to its FCS (R249): at most 1,484 bytes of payload. -/
def State.laneFrame (s : State) (l : Nat) (linkLocal : Bool) (kind slot age : Nat) (stale spare : Bool) (payload : List Byte) : List Byte :=
  let body := (if linkLocal then beBytes 6 0x03EE0B000001 else beBytes 6 0x03EE0A000001) ++ beBytes 6 (s.get LANE_MAC.MAC)
    ++ beBytes 2 (s.get LANE_CFG.ETYPE) ++ beBytes 1 (s.get LANE_VER.OWN_MAX * 16 + kind) ++ beBytes 2 (s.bankCid (s.get (LANE_STAT.BANK l)))
    ++ beBytes 4 s.macro_ ++ beBytes 2 slot ++ beBytes 1 s.node ++ beBytes 4 s.ownClaim
    ++ beBytes 1 (s.laneFlags stale spare) ++ beBytes 1 age ++ payload.take 1484
  body ++ List.replicate (60 - body.length) 0

/-- Payload of a SYNC or COLDSTART frame (R273). -/
def syncPayload (origin : Nat) : List Byte := beBytes 8 origin ++ List.replicate 22 0

/-- LANE at the arrival of a SYNC or COLDSTART frame: ORIGIN + CORR + the port's link delay (R273). -/
def State.syncValue (s : State) (l dn : Nat) (f : List Byte) : Int :=
  (fieldBE f 30 8 : Int) + toSigned 64 (fieldBE f 38 8) / 65536
    + (if dn = 0 then s.get (LANE_PDLY.UP l) else s.get (LANE_PDLY.DN l) : Nat)

/-- Distance of two times. -/
def gap (a b : Int) : Nat := (a - b).natAbs

/-! ### Integration and following (R270, R272, R273, R275, R279, R280, R282) -/

/-- A SYNC or COLDSTART frame in INTEGRATE: two successive ones of a sender that agree within 1 µs join the lane. -/
def State.integrate (s : State) (l : Nat) (h : LHdr) (v : Int) : State :=
  let x := s.ln l
  let now := s.localNow
  let joined := match x.cand with
    | some (from_, v0, l0) => from_ == h.sender && gap (v - v0) ((now : Int) - l0) ≤ 1000
    | none => false
  if !joined then s.setLn l { x with cand := some (h.sender, v, now) }
  else
    match s.bankOf l h.cid with
    | none => s.laneFault l 2
    | some b =>
      let first := !(s.laneSynced 0 || s.laneSynced 1)
      let s := (s.laneGoto l 4).putFlag (LANE_STAT.BANK l) (b == 1)
      let s := (s.putCid l h.cid).newMaster l h.sender
      let s := s.put (if l = 0 then LANE_VER.NEG_A else LANE_VER.NEG_B) h.ver
      let s := (s.setLn l { s.ln l with gotSync := true, synced := h.kind == 0 }).stampEvent (2048 + l)
      if first then s.laneFwEnd.setLane v true else s.laneFwEnd

/-- Whether lane `l` is the one that LANE follows for this SYNC (R282). -/
def State.leads (s : State) (l : Nat) : Bool :=
  let o := 1 - l
  if !s.laneSynced o then true
  else if s.get (LANE_STAT.MASTER_ID l) == s.get (LANE_STAT.MASTER_ID o) then !(s.ln o).gotSync
  else s.get (LANE_STAT.MASTER_ID l) < s.get (LANE_STAT.MASTER_ID o)

/-- A SYNC of the present master taken in SYNCED (R272, R279, R280, R282). An uncertain node waits for that of tick 0 of M. -/
def State.followSync (s : State) (l : Nat) (h : LHdr) (v : Int) : State :=
  let x := s.ln l
  let uncertainHere := x.uncertain && s.lanes.mode.annM == h.macro_ && h.slot == 0
  let other := if h.cid == s.laneCid l then 0 else x.otherCid + 1
  if uncertainHere && (s.bankOf l h.cid).isNone then s.laneFault l 2
  else if !x.uncertain && 2 ≤ other then s.laneRejoin l
  else
    let s := if uncertainHere then
        match s.bankOf l h.cid with
        | some b => (s.put (LANE_STAT.BANK l) b).putCid l h.cid
        | none => s
      else s
    let lead := s.leads l
    let s := (s.setLn l { x with gotSync := true, noSync := 0, synced := true, otherCid := if x.uncertain then 0 else other, uncertain := x.uncertain && !uncertainHere }).laneFwEnd.stampEvent (2048 + l)
    if lead then s.setLane v false else s

/-- A SYNC in SYNCED (R272, R275): a lower sender becomes master, at once where its time lies within 1 µs, otherwise the node
leaves and integrates; a higher one only once the present master is silent. -/
def State.takeSync (s : State) (l : Nat) (h : LHdr) (v : Int) : State :=
  let m := s.get (LANE_STAT.MASTER_ID l)
  if h.sender == m then s.followSync l h v
  else if h.sender < m then
    if gap v s.laneNow ≤ 1000 then
      let own := s.flag (LANE_STAT.MASTER l)
      let s := s.newMaster l h.sender
      let s := if own then (s.putFlag (LANE_STAT.MASTER l) true).setLn l { s.ln l with yielding := true } else s
      s.followSync l h v
    else
      let s := s.laneRejoin l
      s.integrate l h v
  else if 2 ≤ (s.ln l).noSync && !s.flag (LANE_STAT.MASTER l) then (s.newMaster l h.sender).followSync l h v
  else s

/-! ### Ages (R265, R266) -/

/-- The lane tick of a frame's entry and of the frame (R265): the entry's TICK in the frame's macrocycle. -/
def entryTick (h : LHdr) (entry : Nat) : Nat := h.macro_ * 64 + bitsOf entry 0 6

/-- Whether a frame's SENDER matches its entry's (R259, R260). -/
def State.senderOk (s : State) (l entrySender sender : Nat) : Bool :=
  if entrySender == 0xFE then s.isPair l sender
  else if entrySender == 0xFF then sender == s.get (LANE_STAT.MASTER_ID l)
  else entrySender == sender

/-- Whether the copy of key `k` for lane tick `at_` has been taken already (R265). -/
def State.copyTaken (s : State) (k at_ : Nat) : Bool := (SMap.getD s.lanes.taken k []).contains at_

/-- The copy of key `k` for lane tick `at_` is taken; ticks a macrocycle old are forgotten, as no frame of theirs is taken. -/
def State.takeCopy (s : State) (k at_ : Nat) : State :=
  { s with lanes := { s.lanes with
    taken := SMap.set s.lanes.taken k (at_ :: (SMap.getD s.lanes.taken k []).filter (fun b => at_ < b + 128 && b != at_)) } }

/-- R265 for a DATA or FEEDBACK frame of an entry kind: the state, and the frame's age in lane ticks where it is taken. The
entry's tick must not lie ahead of the present tick, nor a macrocycle or more behind it (assumption 14) (assumption 191). -/
def State.admitFrame (s : State) (l : Nat) (h : LHdr) (kind : Nat) : State × Option Nat :=
  let w0 := s.cadWord (s.get (LANE_STAT.BANK l)) l h.slot 0
  let at_ := entryTick h w0
  let now := s.lanes.tick % (2 ^ 32 * 64)
  if h.cid != s.laneCid l then (s.inc (LANE_CID_CNT l), none)
  else if 4096 ≤ h.slot || bitsOf w0 28 3 != kind || !s.senderOk l (bitsOf w0 19 8) h.sender || now < at_ || at_ + 64 ≤ now then
    (s.inc (LANE_SLOT_CNT l), none)
  else (s, some (now - at_))

/-- Axes of node `n`: those whose table entry names it (R254, R256). -/
def State.nodeAxes (s : State) (n : Nat) : List Nat := (List.range 96).filter (fun a => s.get (AX_CFG.NODE a) == n && s.get (AX_CFG.KIND a) != 0 && (s.pulseOf a).isNone)

/-- RESTART of a node: a change is a node restart, which clears HOMED of its axes (R187, R257). -/
def State.nodeRestart (s : State) (n restart : Nat) : State :=
  let changed := match SMap.find s.lanes.restart n with
    | some r => r != restart
    | none => false
  let s := { s with lanes := { s.lanes with restart := SMap.set s.lanes.restart n restart } }
  if changed then (s.nodeAxes n).foldl (fun s a => s.putIf (MOT_AS.HOMED a) 0) s else s

end Sys2Proof.Machine
end

