-- ==== Sys2Proof/Machine/Lanes.lean ====
section
/-! DEFINITION. Machine/Lanes.lean: links, cold start, SYNC, link delays, STATUS, DATA and FEEDBACK reception, loss of SYNC, the
coordinator's announcements (R245 to R280). -/
namespace Sys2Proof.Machine
open Reg

/-! ### Links and forwarding (R246, R247, R270) -/

/-- What every lane frame tells of claims (R339, R340, R346). -/
def State.heed (s : State) (claim : Nat) : State := (s.obey claim).1.laneClaim claim

/-- The claim of a SETPOINT frame, which the module takes as it passes (R340; assumption 181). -/
def State.heedFrame (s : State) (l : Nat) (f : List Byte) (fcs : Bool) : State :=
  if s.laneTakes l && (s.laneFormat l f fcs).2 && (laneHdr f).sender != s.node then s.heed (laneHdr f).claim else s

/-- The stream ID of a frame (R241, R258): that of its DATA entry. -/
def State.frameStream (s : State) (l : Nat) (h : LHdr) : Nat :=
  if h.kind == 1 && h.cid == s.laneCid l && h.slot < 4096 then bitsOf (s.cadWord (s.get (LANE_STAT.BANK l)) l h.slot 1) 16 16 else 0xFFFF

/-- FRAME_FORWARD (R246, R247, R273): the frame leaves by the other port of the lane while both links are up. A SYNC or
COLDSTART frame has the residence time and the upstream link delay added to CORR. The FCS is computed anew; a frame with an FCS
error is ended with an invalid one. -/
def execFrameForward (t lane : Nat) (fromDn : Bool) (frame : List Byte) (residence : Nat) (fcs : Bool) (s : State) : Result :=
  let s := s.at_ t
  let k := (laneHdr frame).kind
  let s := if k == 2 then s.heedFrame lane frame fcs else s
  if s.linked lane != 3 || frameBytes frame 0 3 != [0x03, 0xEE, 0x0A] then .next s
  else
    let delay := if fromDn then s.get (LANE_PDLY.DN lane) else s.get (LANE_PDLY.UP lane)
    let out := if k == 0 || k == 6 then
        frame.take 38 ++ beBytes 8 (fieldBE frame 38 8 + residence + delay * 65536) ++ frame.drop 46
      else frame
    let bytes := out ++ (if fcs then ethFcs out else (ethFcs out).map (~~~ ·))
    let dn := if fromDn then 0 else 1
    let lost := if k == 5 then s.expressFull lane dn else s.forwardFull lane dn bytes.length
    let s := if k == 5 then s.expressOut lane dn false bytes else s.forwardOut lane dn bytes
    .next (if lost then s else s.streamFrame (2 * lane + 1) (s.frameStream lane (laneHdr frame)) out none)

/-- LANE_LINK_UP (R247): the port starts its verification anew. -/
def execLaneLinkUp (t lane dn : Nat) (s : State) : Result :=
  let s := s.at_ t
  let x := s.ln lane
  let s := s.setLn lane { x with verified := setBit x.verified dn false, failed := setBit x.failed dn false }
  .next (((s.put (linkFld lane dn) 1).showPreempt lane).laneCheck lane)

/-- LANE_LINK_DOWN (R270): with both links down the lane goes to OFF. -/
def execLaneLinkDown (t lane dn : Nat) (s : State) : Result :=
  let s := s.at_ t
  let x := s.ln lane
  let s := s.setLn lane { x with verified := setBit x.verified dn false, failed := setBit x.failed dn false }
  let s := s.setPort (2 * lane + dn) []
  .next (((s.put (linkFld lane dn) 0).showPreempt lane).laneCheck lane)

/-- PREEMPT_VERIFY_DONE (R247): a failure puts the lane in FAULT with cause PREEMPT unless it is OFF; once every linked port has
verified, that fault ends. -/
def execPreemptVerifyDone (t lane dn : Nat) (ok : Bool) (s : State) : Result :=
  let s := s.at_ t
  if s.get (linkFld lane dn) == 0 then .next s
  else
    let x := s.ln lane
    let s := (s.setLn lane { x with verified := setBit x.verified dn ok, failed := setBit x.failed dn (!ok) }).showPreempt lane
    .next (if !ok then (if s.laneState lane == 0 || (s.laneState lane == 5 && s.get (LANE_STAT.FAULT lane) == 4) then s else s.laneFault lane 4)
      else if s.laneState lane == 5 && s.get (LANE_STAT.FAULT lane) == 4 && s.flag (LANE_STAT.PREEMPT lane) then s.laneGoto lane 1
      else s)

/-! ### Cold start and SYNC (R270 to R273) -/

/-- SYNC_RX (R269, R270, R273, R282): `dn` is the port it arrived at. -/
def execSyncRx (t lane dn : Nat) (frame : List Byte) (fcs : Bool) (s : State) : Result :=
  let s := s.at_ t
  let h := laneHdr frame
  if !s.laneTakes lane then .next s
  else match s.laneFormat lane frame fcs with
    | (s, false) => .next s
    | (s, true) =>
      if h.kind != 0 then .next s
      else if s.isDup lane h then .next (s.laneFault lane 1)
      else
        let s := s.heed h.claim
        let v := s.syncValue lane dn frame
        .next (match s.laneState lane with
          | 1 | 2 => (s.laneGoto lane 3).integrate lane h v
          | 3 => s.integrate lane h v
          | 4 => s.takeSync lane h v
          | _ => s)

/-- COLDSTART_RX (R270, R271): from a lower ID it makes a listening or contending node integrate; from a higher one it ends the
listen, and the node starts at the next tick. -/
def execColdstartRx (t lane dn : Nat) (frame : List Byte) (fcs : Bool) (s : State) : Result :=
  let s := s.at_ t
  let h := laneHdr frame
  if !s.laneTakes lane then .next s
  else match s.laneFormat lane frame fcs with
    | (s, false) => .next s
    | (s, true) =>
      if h.kind != 6 then .next s
      else if s.isDup lane h then .next (s.laneFault lane 1)
      else
        let s := s.heed h.claim
        let v := s.syncValue lane dn frame
        .next (match s.laneState lane with
          | 1 | 2 =>
            if h.sender < s.node then (s.laneGoto lane 3).integrate lane h v
            else if s.laneState lane == 1 && (s.ln lane).cold.isNone then
              s.setLn lane { s.ln lane with cold := some h.sender, wait := some 1 }
            else s
          | 3 => s.integrate lane h v
          | _ => s)

/-- LISTEN_END (R271): after 128 silent ticks the node waits its ID in ticks. -/
def execListenEnd (t lane : Nat) (s : State) : Result :=
  let s := s.at_ t
  let x := s.ln lane
  if s.laneState lane == 1 && 128 ≤ x.listen && x.wait.isNone then .next (s.setLn lane { x with wait := some s.node })
  else .next s

/-- The node becomes lane time master (R271, R272). -/
def State.becomeMaster (s : State) (l : Nat) : State :=
  let s := ((s.put (LANE_STAT.MASTER_ID l) s.node).putFlag (LANE_STAT.MASTER l) true).inc (LANE_MASTER_CNT l)
  (s.setLn l { s.ln l with noSync := 0, gotSync := true, yielding := false }).showLaneSrc

/-- CONTEST_WINDOW_END (R271): 3 ticks with no lower ID heard; LANE takes LOCAL where no other lane gives it. -/
def execContestWindowEnd (t lane : Nat) (s : State) : Result :=
  let s := s.at_ t
  if s.laneState lane == 2 && 4 ≤ (s.ln lane).contest then
    let first := !(s.laneSynced 0 || s.laneSynced 1)
    let s := s.laneGoto lane 4
    let s := s.putCid lane (s.bankCid (s.get (LANE_STAT.BANK lane)))
    let s := (s.becomeMaster lane).put (if lane = 0 then LANE_VER.NEG_A else LANE_VER.NEG_B) (s.get LANE_VER.OWN_MAX)
    let s := s.setLn lane { s.ln lane with synced := true }
    .next (if first then s.setLane s.localNow true else s)
  else .next s

/-- SYNC_LOSS (R270): 64 lane ticks without a valid SYNC. -/
def execSyncLoss (t lane : Nat) (s : State) : Result :=
  let s := s.at_ t
  if s.laneSynced lane && !s.flag (LANE_STAT.MASTER lane) && 64 ≤ (s.ln lane).noSync then
    .next ((s.laneGoto lane 1).inc (LANE_REJOIN_CNT lane))
  else .next s

/-- Nodes whose STATUS came in the last macrocycle on lane `l`. -/
def State.present (s : State) (l : Nat) : List Nat := (List.range 254).filter (fun n => s.flag (LANE_NODE.PRESENT (256 * l + n)))

/-- MASTER_SILENT (R272): after 2 lane ticks without SYNC, the lowest ID left takes over; this node does so where it is it. -/
def execMasterSilent (t lane : Nat) (s : State) : Result :=
  let s := s.at_ t
  let m := s.get (LANE_STAT.MASTER_ID lane)
  if s.laneSynced lane && !s.flag (LANE_STAT.MASTER lane) && 2 ≤ (s.ln lane).noSync
      && (s.present lane).all (fun n => n == m || s.node ≤ n) then .next (s.becomeMaster lane)
  else .next s

/-- LANE_FREEWHEEL (R282, R284): a boundary passed at which no SYNCED lane had taken its expected SYNC. -/
def execLaneFreewheel (t : Nat) (s : State) : Result :=
  let s := s.at_ t
  let quiet := [0, 1].all (fun l => !s.laneSynced l || (!s.flag (LANE_STAT.MASTER l) && 1 ≤ (s.ln l).noSync))
  if s.flag TIME_STAT.LANE_SYNC && quiet && !s.flag TIME_STAT.LANE_FW then
    let s := ((s.putFlag TIME_STAT.LANE_FW true).inc TIME_LANE_FW_CNT).put TIME_LANE_HOLD.HOLD 0
    .next ([0, 1].foldl (fun s l => if s.laneSynced l then s.putFlag (LANE_STAT.FREEWHEEL l) true else s) s)
  else .next s

/-! ### Link delay (R274) -/

/-- PDELAY_REQ (R269, R274): answered at once on port `dn`, where it came in; `turn` is the turnaround in 2⁻¹⁶ ns. -/
def execPdelayReq (t lane dn : Nat) (frame : List Byte) (fcs : Bool) (turn : Nat) (s : State) : Result :=
  let s := s.at_ t
  if !s.laneTakes lane then .next s
  else match s.laneFormat lane frame fcs with
    | (s, true) =>
      if (laneHdr frame).kind != 7 then .next s
      else if s.isDup lane (laneHdr frame) then .next (s.laneFault lane 1)
      else
        let s := s.heed (laneHdr frame).claim
        .next (s.laneOutOn lane dn s.localNow 0xFFFF (s.laneFrame lane true 8 0xFFFF 0 false false (beBytes 8 turn ++ List.replicate 22 0)))
    | (s, false) => .next s

/-- PDELAY_RESP (R269, R274): the link delay from own LOCAL `t1` and `t4` and the turnaround, averaged over 8. -/
def execPdelayResp (t lane dn t1 t4 : Nat) (frame : List Byte) (fcs : Bool) (s : State) : Result :=
  let s := s.at_ t
  if !s.laneTakes lane then .next s
  else match s.laneFormat lane frame fcs with
    | (s, true) =>
      if (laneHdr frame).kind != 8 then .next s
      else if s.isDup lane (laneHdr frame) then .next (s.laneFault lane 1)
      else
        let s := s.heed (laneHdr frame).claim
        let d := (((t4 : Int) - t1) - (fieldBE frame 30 8 / 65536 : Nat)) / 2
        let k := 2 * lane + dn
        let ds := (d.toNat :: SMap.getD s.lanes.pdelay k []).take 8
        let s := { s with lanes := { s.lanes with pdelay := SMap.set s.lanes.pdelay k ds } }
        .next (s.put (if dn = 0 then LANE_PDLY.UP lane else LANE_PDLY.DN lane) (min 0xFFFF (ds.foldl (· + ·) 0 / ds.length)))
    | (s, false) => .next s

/-! ### STATUS and mode changes (R276 to R278, R438 to R440) -/

/-- Whether node `n`, whose frame carries claim `c`, is the coordinator (R278). -/
def State.isCoord (s : State) (l n c : Nat) : Bool :=
  let k := s.get LANE_CFG.COORD
  k != 0 && (if k == 0xFE then s.isPair l n && c != 0 else n == k)

/-- Whether this module is the coordinator (R278): the ACTIVE module of the pair, where that is PAIR. -/
def State.amCoord (s : State) : Bool :=
  let k := s.get LANE_CFG.COORD
  k != 0 && (if k == 0xFE then s.claiming && s.get SYS_STAT.MODE == 3 else s.node == k)

/-- Whether this module holds a STAGED slot with Orchard IMG_ID `actId` (R438). -/
def State.holdsImage (s : State) (actId : Nat) : Bool :=
  let r := s.table.slot s.otherSlot
  r.state == 1 && r.orchId == actId

/-- This module's answer to an announcement (R278, R438): 1 ACK of a cadence it holds, 2 ACK of an activation, 3 REFUSE. -/
def State.answerTo (s : State) (op cid actId : Nat) : Nat :=
  if op == 1 then (if s.bankCid (1 - s.get (LANE_STAT.BANK 0)) == cid || s.bankCid (s.get (LANE_STAT.BANK 0)) == cid then 1 else 3)
  else if s.holdsImage actId && !s.still then 3 else 2

/-- An announcement is taken: the answer that the module's STATUS carries from now on (R278). -/
def State.takeAnnounce (s : State) (op cid m actId : Nat) : State :=
  let md := s.lanes.mode
  if md.annM == m && md.annCid == cid && md.answer != 0 then s
  else
    let md := { md with answer := s.answerTo op cid actId, annCid := cid, annM := m, annAct := if op == 2 then actId else 0
                        committed := false, aborted := false }
    let s := { s with lanes := { s.lanes with mode := md } }
    let s := ((s.put LANE_MODE.PHASE 1).putFlag LANE_MODE.ACT (op == 2)).put LANE_MODE.CID cid
    let s := s.put LANE_MODE_M.M m
    if op == 2 && md.answer == 2 && s.holdsImage actId then ((s.put UPD_STAT.ACT 1).put UPD_ACT_ID.ID actId).put UPD_ACT_AT.AT m else s

/-- The mode change is over. -/
def State.endMode (s : State) : State :=
  let s := { s with lanes := { s.lanes with mode := ⟨0, 0, 0, 0, 0, 0, 0, 0, false, false⟩ } }
  (((s.putIf LANE_MODE.PHASE 0).putIf LANE_MODE.ACT 0).putIf LANE_MODE.CID 0).putIf LANE_MODE_M.M 0

/-- A LANE activation that is not to take place is pending no longer (R278: a node that received ABORT does nothing). -/
def State.endLaneAct (s : State) : State := if s.get UPD_STAT.ACT == 1 && !s.flag UPD_STAT.DEFER then s.put UPD_STAT.ACT 0 else s

/-- The coordinator's decision is taken (R278). -/
def State.takeDecision (s : State) (op m : Nat) : State :=
  let md := s.lanes.mode
  if md.annM != m || md.answer == 0 then s
  else if op == 3 then ({ s with lanes := { s.lanes with mode := { md with committed := true } } }).put LANE_MODE.PHASE 2
  else (({ s with lanes := { s.lanes with mode := { md with aborted := true } } }).put LANE_MODE.PHASE 3).endLaneAct

/-- The version negotiated on lane `l` (R277): the highest that every node present supports; 0 where they share none. -/
def State.negotiate (s : State) (l : Nat) : State :=
  let ver := fun n => s.get (LANE_NODE.VER (256 * l + n))
  let hi := (s.present l).foldl (fun v n => min v (ver n / 16)) (s.get LANE_VER.OWN_MAX)
  let lo := (s.present l).foldl (fun v n => max v (ver n % 16)) (s.get LANE_VER.OWN_MIN)
  s.put (if l = 0 then LANE_VER.NEG_A else LANE_VER.NEG_B) (if lo ≤ hi then hi else 0)

/-- STATUS_RX (R269, R276 to R278, R440): node table, versions, answers, the coordinator's operation, the partner's OWN. -/
def execStatusRx (t lane : Nat) (frame : List Byte) (fcs : Bool) (s : State) : Result :=
  let s := s.at_ t
  let h := laneHdr frame
  if !s.laneTakes lane then .next s
  else match s.laneFormat lane frame fcs with
    | (s, false) => .next s
    | (s, true) =>
      if h.kind != 4 then .next s
      else if s.isDup lane h then .next (s.laneFault lane 1)
      else if h.cid != s.laneCid lane && s.laneSynced lane then .next (s.inc (LANE_CID_CNT lane))
      else
        let b := fun o n => fieldBE frame (30 + o) n
        let k := 256 * lane + h.sender
        let s := s.heed h.claim
        let s := ((s.put (LANE_NODE.STATE k) (b 1 1)).put (LANE_NODE.VER k) (b 0 1)).put (LANE_NODE.RESTART k) (b 2 2)
        let ann := b 10 1
        let mine := (s.lanes.mode.op == 1 || s.lanes.mode.op == 2) && b 6 4 == s.lanes.mode.m && b 4 2 == s.lanes.mode.cid
        let acked := mine && ann == s.lanes.mode.op
        let refused := mine && ann == 3
        let s := s.put (LANE_NODE.ANN k) (if ann == 3 then 3 else if ann == 0 then 0 else 1)
        let x := s.ln lane
        let s := s.setLn lane { x with seen := SMap.set x.seen h.sender (if acked then 1 else if refused then 3 else 0) }
        let s := s.nodeRestart h.sender (b 2 2)
        let s := if s.present lane == [] then s else s.negotiate lane
        if h.sender == s.get (LANE_STAT.MASTER_ID lane)
            && (s.get LANE_VER.OWN_MAX < b 0 1 % 16 || b 0 1 / 16 < s.get LANE_VER.OWN_MIN) then .next (s.laneFault lane 3)
        else
          let op := b 16 1
          let s := if s.isCoord lane h.sender h.claim then
              (if op == 1 || op == 2 then s.takeAnnounce op (b 18 2) (b 20 4) (b 24 8)
               else if op == 3 || op == 4 then s.takeDecision op (b 20 4) else s)
            else s
          .next (if s.isPair lane h.sender && h.sender != s.node then s.partnerOwn (b 12 4) else s)

/-! ### DATA and FEEDBACK (R256, R265, R266) -/

/-- DATA_RX (R265, R266): the stream's held value, its AGE, and the gateway's image destinations. -/
def execDataRx (t lane : Nat) (frame : List Byte) (fcs : Bool) (s : State) : Result :=
  let s := s.at_ t
  let h := laneHdr frame
  if !s.laneTakes lane then .next s
  else match s.laneFormat lane frame fcs with
    | (s, false) => .next s
    | (s, true) =>
      if h.kind != 1 then .next s
      else if s.isDup lane h then .next (s.laneFault lane 1)
      else match s.admitFrame lane h 2 with
        | (s, none) => .next s
        | (s, some behind) =>
          let bank := s.get (LANE_STAT.BANK lane)
          let w1 := s.cadWord bank lane h.slot 1
          let m := bitsOf w1 16 16 % 512
          let at_ := entryTick h (s.cadWord bank lane h.slot 0)
          if bitOf (s.cadWord bank lane h.slot 0) 31 && s.copyTaken m at_ then .next (s.laneClaim h.claim)
          else
            let s := (s.inc (LANE_RX_CNT lane)).takeCopy m at_
            let s := if 0 < behind then s.inc (LANE_LATE_CNT lane) else s
            let s := s.heed h.claim
            let maxAge := bitsOf (s.cadWord bank lane h.slot 2) 0 8
            let age := min 255 (h.age + behind)
            let x : Stream := ⟨frameBytes frame 30 (bitsOf w1 0 11), maxAge⟩
            let s := { s with lanes := { s.lanes with streams := SMap.set s.lanes.streams m x } }
            let s := ((s.put (LANE_STR.AGE m) age).putFlag (LANE_STR.STALE m) (maxAge < age)).put (LANE_STR.LANE m) lane
            let s := (s.putFlag (LANE_STR.FLAG_STALE m) (bitOf h.flags 1)).putFlag (LANE_STR.FORCED m) (bitOf h.flags 0)
            .next (s.gwArrived 1 m)

/-- One record of a FEEDBACK frame held for its axis (R256): nothing is held of a channel that no axis of the node uses. -/
def State.holdFeedback (s : State) (node age : Nat) (r : List Byte) : State :=
  match (s.nodeAxes node).find? (fun a => s.get (AX_CFG.CH a) == fieldBE r 0 1 % 8) with
  | none => s
  | some a =>
    let fb : Fb := ⟨toSigned 32 (fieldBE r 4 4), fieldBE r 2 2, fieldBE r 1 1, toSigned 32 (fieldBE r 8 4), fieldBE r 12 1, age⟩
    { s with door := { s.door with fb := SMap.set s.door.fb a fb } }

/-- FEEDBACK_RX (R256, R265, R266): late where it comes after its tick or after the feedback deadline in it. -/
def execFeedbackRx (t lane : Nat) (frame : List Byte) (fcs : Bool) (s : State) : Result :=
  let s := s.at_ t
  let h := laneHdr frame
  if !s.laneTakes lane then .next s
  else match s.laneFormat lane frame fcs with
    | (s, false) => .next s
    | (s, true) =>
      if h.kind != 3 then .next s
      else if s.isDup lane h then .next (s.laneFault lane 1)
      else match s.admitFrame lane h 4 with
        | (s, none) => .next s
        | (s, some behind) =>
          let bank := s.get (LANE_STAT.BANK lane)
          let w0 := s.cadWord bank lane h.slot 0
          let at_ := entryTick h w0
          if bitOf w0 31 && s.copyTaken (512 + h.sender) at_ then .next (s.laneClaim h.claim)
          else
            let s := (s.inc (LANE_RX_CNT lane)).takeCopy (512 + h.sender) at_
            let late := 0 < behind || s.lanes.boundary + 8 * s.get LANE_DOOR.FB_DL < s.localNow
            let s := if late then s.inc (LANE_LATE_CNT lane) else s
            let s := s.nodeRestart h.sender (fieldBE frame 32 2)
            let s := { s with door := { s.door with nstat := SMap.set s.door.nstat h.sender (fieldBE frame 31 1 % 4) } }
            let age := min 255 (h.age + behind)
            .next ((List.range (min 8 (fieldBE frame 30 1))).foldl (fun s k =>
              s.holdFeedback h.sender age (frameBytes frame (34 + 16 * k) 16)) s)

/-- STREAM_AGE_STALE (R266). -/
def execStreamAgeStale (m : Nat) (s : State) : Result :=
  match SMap.find s.lanes.streams m with
  | some x => if m < 512 && x.maxAge < s.get (LANE_STR.AGE m) then .next (s.putFlag (LANE_STR.STALE m) true) else .next s
  | none => .next s

/-! ### The coordinator's commands (R278) -/

/-- An announcement through LANE_MODE_CMD (R278): refused unless this module is coordinator and TGT lies at least 8 macrocycles
ahead; a cadence must be that of a bank some lane does not use (R280: the two may have settled on different banks). -/
def State.announce (s : State) (op cid actId : Nat) : State :=
  let m := s.get LANE_MODE_TGT.TGT
  let ahead := serialDiff 32 m s.macro_
  if !s.amCoord || ahead < 8 || (op == 1 && [0, 1].all (fun l => s.bankCid (1 - s.get (LANE_STAT.BANK l)) != cid)) then s
  else
    let s := { s with lanes := { s.lanes with mode := { s.lanes.mode with op := op, cid := cid, m := m, actId := actId } } }
    (s.putFlag LANE_MODE.REFUSED false).takeAnnounce op cid m actId

/-- ANNOUNCE_CADENCE (R278): boot supervisor only, guarded. -/
def execAnnounceCadence (t : Nat) (who : Initiator) (cid : BitVec 16) (s : State) : Result :=
  match (s.at_ t).gate who LANE_MODE_CMD.CID.addr true (who == .boot) with
  | (s, true) => .next (s.announce 1 cid.toNat 0)
  | (s, false) => .next s

/-- ANNOUNCE_ACTIVATE (R278, R437): ACT_ID is the Orchard IMG_ID of the staged slot. -/
def execAnnounceActivate (t : Nat) (who : Initiator) (cid : BitVec 16) (s : State) : Result :=
  match (s.at_ t).gate who LANE_MODE_CMD.CID.addr true (who == .boot) with
  | (s, true) => .next (s.announce 2 cid.toNat (s.table.slot s.otherSlot).orchId)
  | (s, false) => .next s

/-- CANCEL (R278): before macrocycle M − 3, the announcement is aborted. -/
def State.cancelAnnounce (s : State) : State :=
  let md := s.lanes.mode
  if s.amCoord && (md.op == 1 || md.op == 2) && 3 < serialDiff 32 md.m s.macro_ then
    let s := s.takeDecision 4 md.m
    { s with lanes := { s.lanes with mode := { s.lanes.mode with op := 4 } } }
  else s

/-- CANCEL: boot supervisor only, guarded. -/
def execCancel (t : Nat) (who : Initiator) (s : State) : Result :=
  match (s.at_ t).gate who LANE_MODE_CMD.CID.addr true (who == .boot) with
  | (s, true) => .next s.cancelAnnounce
  | (s, false) => .next s

/-- MODE_CHANGE_DECISION (R278): for macrocycle M − 2 the coordinator counts the nodes whose STATUS it received in M − 3. -/
def execModeChangeDecision (t : Nat) (s : State) : Result :=
  let s := s.at_ t
  let md := s.lanes.mode
  if !s.amCoord || !(md.op == 1 || md.op == 2) || serialDiff 32 md.m s.macro_ != 2 then .next s
  else
    let answers := (s.ln 0).heard ++ (s.ln 1).heard
    let commit := md.answer != 3 && answers.all (fun (p : Nat × Nat) => p.2 == 1
      || answers.any (fun (q : Nat × Nat) => q.1 == p.1 && q.2 == 1))
    let s := if md.answer == 3 || answers.any (fun (p : Nat × Nat) => p.2 == 3) then s.putFlag LANE_MODE.REFUSED true else s
    let s := s.takeDecision (if commit then 3 else 4) md.m
    .next { s with lanes := { s.lanes with mode := { s.lanes.mode with op := if commit then 3 else 4 } } }

end Sys2Proof.Machine
end

