-- ==== Sys2Proof/Machine/DoorRec.lean ====
section
/-! DEFINITION. Machine/DoorRec.lean: axes beyond their registers, door cycle records and lifetime counters (R155 to R157). -/
namespace Sys2Proof.Machine
open Reg

/-- Axis `n` of the door supervisor beyond its registers. -/
def State.dax (s : State) (n : Nat) : DAxis := SMap.getD s.door.ax n DAxis.init

/-- The state with axis `n` of the supervisor replaced. -/
def State.setDax (s : State) (n : Nat) (x : DAxis) : State := { s with door := { s.door with ax := SMap.set s.door.ax n x } }

/-- Axis `n` of the motion generator beyond its registers. -/
def State.mx (s : State) (n : Nat) : MAxis := SMap.getD s.door.mot n MAxis.init

/-- The state with axis `n` of the generator replaced. -/
def State.setMx (s : State) (n : Nat) (x : MAxis) : State := { s with door := { s.door with mot := SMap.set s.door.mot n x } }

/-- A cycle opens where none is open (R156): its largest excess starts with this pass's. -/
def State.openCycle (s : State) (n : Nat) : State :=
  let d := s.dax n
  match d.cycle with
  | some _ => s
  | none =>
    let c : Cycle :=
      ⟨s.get TIME_LANE.NS, s.consRec, s.localNow, 0, false, 0, 0, false, 0, 0, 0, s.getS (DOOR_AS.EXCESS n), 0, 0, 0, 0, none, none, 0, 0⟩
    (s.setDax n { d with cycle := some c }).putIf (DOOR_AS.NOEDGE n) 0

/-- The number of lane ticks as whole ms, saturating (R156). -/
def ticksMs (t : Nat) : Nat := min (t / 16) 0xFFFF

/-- The eight lifetime counters of axis `n`, in register order (R157). -/
def lifeFlds (n : Nat) : List Fld :=
  [DOOR_LIFE_CYC_CNT n, DOOR_LIFE_OBST_CNT n, DOOR_LIFE_RETRY_CNT n, DOOR_LIFE_LFLT_CNT n, DOOR_LIFE_EGR_CNT n,
    DOOR_LIFE_ISO_CNT n, DOOR_LIFE_LRN_CNT n, DOOR_LIFE_TRV_CNT n]

/-- The 56 bytes of a door cycle record before CRC and MARK, SEQ still zero (R156). -/
def State.doorRecord (s : State) (n end_ : Nat) (c : Cycle) : List Byte :=
  let cap := fun v => min v 0xFFFF
  leBytes 4 0 ++ leBytes 1 0x20 ++ leBytes 1 0x40 ++ leBytes 1 n ++ leBytes 1 end_ ++ leBytes 4 (s.get (DOOR_LIFE_CYC_CNT n))
    ++ leBytes 8 c.lane ++ leBytes 8 c.consist ++ leBytes 4 (min ((s.localNow - c.start) / 1000) 0xFFFFFFFF)
    ++ leBytes 2 (ticksMs c.opening) ++ leBytes 2 (ticksMs c.open_) ++ leBytes 2 (ticksMs c.closing) ++ leBytes 2 (ticksMs c.locking)
    ++ leBytes 2 (cap c.iPeak) ++ leBytes 2 (cap c.fPeak) ++ leBytes 2 (ofSigned 16 (clampInt (-32768) 32767 c.devMax))
    ++ leBytes 1 (c.flags + 4 * (s.get SYS_STAT.MODE == 2).toNat + 8 * s.get CYC_STAT.FORCED)
    ++ leBytes 1 (min c.detections 15 + 16 * c.detector) ++ leBytes 4 (ofSigned 32 c.obstPos)
    ++ leBytes 2 (match c.lockDt with | some d => min d 0xFFFF | none => 0xFFFF)
    ++ leBytes 1 (min c.retries 255) ++ leBytes 1 (min c.lockEdges 255)

/-- The open cycle of axis `n` ends with code `end_` (R155, R156): lifetime counters, then the record. -/
def State.endCycle (s : State) (n end_ : Nat) : State :=
  let d := s.dax n
  match d.cycle with
  | none => s
  | some c =>
    let adds := 1 :: (d.life ++ [d.travel / 1000000])
    let s := ((lifeFlds n).zip adds).foldl (fun s (p : Fld × Nat) => if p.2 = 0 then s else s.add p.1 p.2) s
    let s := s.setDax n { d with cycle := none, stroke := none, life := [0, 0, 0, 0, 0, 0], travel := d.travel % 1000000 }
    (s.handOver ⟨1, s.doorRecord n end_ c, some (n, (lifeFlds n).map s.get)⟩).inc DOOR_REC_CNT

/-- Entry to stage 4 ends every open cycle with END = 0x10 SHED (R155). -/
def State.shedCycles (s : State) : State := (List.range 96).foldl (fun s n => s.endCycle n 0x10) s

end Sys2Proof.Machine
end

