-- ==== Sys2Proof/Machine/Planner.lean ====
section
/-! DEFINITION. Machine/Planner.lean: jerk-limited profiles (R165 to R172), in exact integers with segments of whole ns
(assumption 11). -/
namespace Sys2Proof.Machine

/-- Limits of a motion set in µm and s (R163). -/
structure Lim where
  vmax : Nat
  amax : Nat
  dmax : Nat
  jmax : Nat
  deriving DecidableEq, Repr

/-- Scale of positions, velocities and accelerations in a profile state. -/
def pScale : Int := 6000000000000000000000000000
def vScale : Int := 2000000000000000000
def aScale : Int := 1000000000

/-- `x / y` rounded to the nearest integer, halves away from zero (R160). -/
def roundDiv (x y : Int) : Int := if 0 ≤ x then (2 * x + y) / (2 * y) else -((-2 * x + y) / (2 * y))

/-- Position in whole µm (R160). -/
def PV.um (s : PV) : Int := roundDiv s.p pScale

/-- Velocity in whole µm/s (R160). -/
def PV.ums (s : PV) : Int := roundDiv s.v vScale

/-- At rest at a position in µm. -/
def PV.rest (um : Int) : PV := ⟨um * pScale, 0, 0⟩

/-- The mirror image, for motion towards lower positions. -/
def PV.flip (s : PV) : PV := ⟨-s.p, -s.v, -s.a⟩

/-- The state `t` ns into a segment of jerk `j` that starts at `s`. -/
def PV.run (s : PV) (j : Int) (t : Nat) : PV :=
  ⟨s.p + 3 * s.v * t + 3 * s.a * t * t + j * t * t * t, s.v + 2 * s.a * t + j * t * t, s.a + j * t⟩

/-- The state at the end of a list of segments. -/
def PV.runs (s : PV) (l : List Seg) : PV := l.foldl (fun s g => s.run g.jerk g.dur) s

/-- Integer square root by bisection on `fuel` bits. -/
def isqrtBits : Nat → Nat → Nat → Nat
  | 0, _, r => r
  | k + 1, n, r => let r' := r + 2 ^ k; isqrtBits k n (if r' * r' ≤ n then r' else r)

/-- Integer square root of a number below 2^200. -/
def isqrt (n : Nat) : Nat := isqrtBits 100 n 0

/-- The velocity of `s` once its acceleration has come to 0 at jerk `j`. -/
def levelV (s : PV) (j : Int) : Int := s.v + s.a * s.a.natAbs / j

/-- Jerk-limited change of velocity from `s` to velocity `v'` at acceleration 0, acceleration at most `acc` µm/s²; an acceleration above
that comes down to it at the same jerk first (R169). What whole ns of full jerk leave of the acceleration goes in one ns of less jerk. -/
def velSegs (s : PV) (v' : Int) (acc jmax : Nat) : List Seg :=
  let j : Int := jmax
  let d : Int := if v' < levelV s j then -1 else 1
  let as_ := d * s.a
  let dv := d * (v' - s.v)
  let peak : Int := isqrt ((j * dv + as_ * as_) / 2).toNat
  let cap : Int := acc * aScale
  let top := if peak ≤ cap then peak else cap
  let held := if peak ≤ cap then 0 else if as_ ≤ top then (dv - (2 * top * top - as_ * as_) / j) / (2 * top) else (dv - as_ * as_ / j) / (2 * top)
  let first : Seg := if as_ ≤ top then ⟨d * j, ((top - as_) / j).toNat⟩ else ⟨-d * j, ((as_ - top) / j).toNat⟩
  let a := d * (s.run first.jerk first.dur).a
  [first, ⟨0, held.toNat⟩, ⟨-d * j, (a.tdiv j).toNat⟩, ⟨-d * a.tmod j, (a.tmod j != 0 : Bool).toNat⟩]

/-- Distance (scaled) of a velocity change between two velocities at acceleration 0. -/
def velDist (v v' : Int) (acc jmax : Nat) : Int := (PV.runs ⟨0, v, 0⟩ (velSegs ⟨0, v, 0⟩ v' acc jmax)).p

/-- A jerk-limited stop from `s` (R170). -/
def stopSegs (s : PV) (l : Lim) : List Seg := velSegs s 0 l.dmax l.jmax

/-- Where a stop from `s` ends (scaled). -/
def stopPoint (s : PV) (l : Lim) : Int := (s.runs (stopSegs s l)).p

/-- The greatest `k` of at most `bits` bits, with all its lesser values, that `ok` accepts, found bit by bit. -/
def greatest (ok : Nat → Bool) : Nat → Nat → Nat
  | 0, r => r
  | k + 1, r => greatest ok k (if ok (r + 2 ^ k) then r + 2 ^ k else r)

/-- A velocity in nm/s as a scaled velocity. -/
def nmV (k : Nat) : Int := (k : Int) * (vScale / 1000)

/-- The segments of a move in positive direction with peak `k` nm/s and end velocity `vEnd`; the cruise fills the rest. -/
def moveSegs (s : PV) (target vEnd : Int) (l : Lim) (k : Nat) : List Seg :=
  let vp := nmV k
  let up := velSegs s vp (if s.v ≤ vp then l.amax else l.dmax) l.jmax
  let m := s.runs up
  let down := velSegs ⟨0, m.v, 0⟩ vEnd l.dmax l.jmax
  let rest := target - (m.p + (PV.runs ⟨0, m.v, 0⟩ down).p)
  up ++ [⟨0, if m.v ≤ 0 || rest ≤ 0 then 0 else (rest / (3 * m.v)).toNat⟩] ++ down

/-- Whether segments from `s` reach no further than `target`. -/
def fits (s : PV) (target : Int) (segs : List Seg) : Bool := (s.runs segs).p ≤ target

/-- A deceleration that is first eased for `t` ns at full jerk, and then ends at velocity `vEnd`. -/
def easeSegs (s : PV) (vEnd : Int) (l : Lim) (t : Nat) : List Seg := ⟨(l.jmax : Int), t⟩ :: velSegs (s.run l.jmax t) vEnd l.dmax l.jmax

/-- The move of least time in positive direction whose peak is at most `cap` nm/s (R165): the highest peak that fits. Where a deceleration
from `s` leaves no room to come to acceleration 0, it is eased for as long as fits. -/
def planPeak (s : PV) (target vEnd : Int) (l : Lim) (cap : Nat) : List Seg :=
  let at_ := fun k => moveSegs s target vEnd l k
  let floor := max (levelV s l.jmax) vEnd
  let segs := at_ (greatest (fun k => k ≤ cap && (nmV k ≤ floor || fits s target (at_ k))) 31 0)
  if fits s target segs then segs
  else if s.a < 0 && fits s target (easeSegs s vEnd l 0) then
    easeSegs s vEnd l (greatest (fun t => (t : Int) * l.jmax ≤ -s.a && fits s target (easeSegs s vEnd l t)) 47 0)
  else at_ (greatest (fun k => k ≤ cap && fits s target (at_ k)) 31 0)

/-- Points along segments at which the soft-limit check looks: 8 in each segment. -/
def samples (s : PV) : List Seg → List PV
  | [] => [s]
  | g :: t => (List.range 8).map (fun i => s.run g.jerk (g.dur * i / 8)) ++ samples (s.run g.jerk g.dur) t

/-- Whether a stop with the OBST limits from every checked point of a move in positive direction ends at or before `hi` (R172). -/
def softOk (s : PV) (segs : List Seg) (ob : Lim) (hi : Option Int) : Bool :=
  match hi with
  | none => true
  | some h => (samples s segs).all (fun x => x.v ≤ 0 || stopPoint x ob ≤ h)

/-- A move in positive direction: its segments, and whether the soft limit lowered its peak (R165, R172): to the highest one from every
point of which a stop ends inside the limit, but not below the move's own end velocity, which `endSpeed` has lowered as far. -/
def planUp (s : PV) (target vEnd : Int) (l ob : Lim) (hi : Option Int) : List Seg × Bool :=
  let segs := planPeak s target vEnd l (1000 * l.vmax)
  if softOk s segs ob hi then (segs, false)
  else
    let ok := fun k => let x := moveSegs s target vEnd l k; fits s target x && softOk s x ob hi
    (planPeak s target vEnd l (greatest (fun k => k ≤ 1000 * l.vmax && (nmV k ≤ vEnd || ok k)) 31 0), true)

/-- Segments with jerks turned round. -/
def flipSegs (l : List Seg) : List Seg := l.map (fun g => ⟨-g.jerk, g.dur⟩)

/-- Soft limits of an axis, scaled: none while it is not homed (R173). -/
abbrev Soft := Option (Int × Int)

/-- A move from `s` to `target` (scaled) with exit speed `vEnd` in its direction (R165, R172). -/
def planMove (s : PV) (target vEnd : Int) (l ob : Lim) (soft : Soft) : List Seg × Bool :=
  if s.p ≤ target then planUp s target vEnd l ob (soft.map Prod.snd)
  else
    let (segs, slow) := planUp s.flip (-target) vEnd l ob (soft.map (fun x => -x.1))
    (flipSegs segs, slow)

/-- Direction of a distance. -/
def sgn (x : Int) : Int := if 0 < x then 1 else if x < 0 then -1 else 0

/-- Exit speed of a move of length `len` (scaled) to the move after it (R167), and the highest entry speed from which the
queue from this move on can be completed. -/
def jointSpeeds (limOf : Nat → Lim) : Int → List Move → List (Int × Int)
  | _, [] => []
  | from_, m :: rest =>
    let l := limOf m.set
    let tgt := m.target * pScale
    let len := (tgt - from_).natAbs
    let tail := jointSpeeds limOf tgt rest
    let exit := match rest, tail with
      | n :: _, (_, entry) :: _ =>
        if n.group || sgn (tgt - from_) != sgn (n.target * pScale - tgt) then 0
        else min (min (l.vmax * vScale) ((limOf n.set).vmax * vScale)) entry
      | _, _ => 0
    let k := greatest (fun k => k ≤ 1000 * l.vmax && (nmV k ≤ exit || velDist (nmV k) exit l.dmax l.jmax ≤ len)) 31 0
    (exit, nmV k) :: tail

/-- The velocity of a move in positive direction at its end, where `exit` is the highest that the queue behind it allows (R167, R172): one
that the move reaches from its own start, and from which a stop with the OBST limits ends inside the soft limit. -/
def endSpeed (s : PV) (target exit : Int) (l ob : Lim) (hi : Option Int) : Int :=
  nmV (greatest (fun k => k ≤ 1000 * l.vmax && nmV k ≤ exit
    && fits s target (velSegs s (nmV k) (if s.v ≤ nmV k then l.amax else l.dmax) l.jmax)
    && hi.all (fun h => stopPoint ⟨target, nmV k, 0⟩ ob ≤ h)) 31 0)

/-- The legs of a queue from state `s` (R167): each blended joint at acceleration 0. A GROUP entry after the first ends the
path: it waits for its GSTART (R181). -/
def planQueue (limOf : Nat → Lim) (ob : Lim) (soft : Soft) : PV → List Move → List (Int × Int) → Bool → List Leg
  | _, [], _, _ => []
  | _, _ :: _, [], _ => []
  | s, m :: rest, (exit, _) :: tail, head =>
    if m.group && !head then []
    else
      let l := limOf m.set
      let tgt := m.target * pScale
      let vEnd :=
        if s.p ≤ tgt then endSpeed s tgt exit l ob (soft.map Prod.snd)
        else endSpeed s.flip (-tgt) exit l ob (soft.map (fun x => -x.1))
      let (segs, slow) := planMove s tgt vEnd l ob soft
      let fin : PV := ⟨tgt, sgn (tgt - s.p) * vEnd, 0⟩
      ⟨segs, false, m.set, fin, none, slow⟩ :: planQueue limOf ob soft fin rest tail false

/-- Whether a target lies behind the stop point of `s` in its direction of travel, so that a stop comes first (R170). -/
def needsStop (s : PV) (target : Int) (l : Lim) : Bool :=
  if s.v = 0 && s.a = 0 then false
  else
    let stop := stopPoint s l
    if 0 < s.v || (s.v = 0 && 0 < s.a) then target < stop else stop < target

/-- A stop leg from `s`; `latest` is the target that a move from rest follows to (R170). -/
def stopLeg (s : PV) (l : Lim) (set : Nat) (latest : Option Int) : Leg :=
  let segs := stopSegs s l
  ⟨segs, true, set, PV.rest (roundDiv (s.runs segs).p pScale), latest, false⟩

/-- The path advanced by `t` ns (R169): a leg that ends at rest ends at this boundary, on its target exactly (R162). The
legs that ended are counted. -/
def runLegs : Nat → PV → List Leg → Nat → PV × List Leg × Nat
  | 0, s, legs, _ => (s, legs, 0)
  | _ + 1, s, [], _ => (s, [], 0)
  | fuel + 1, s, g :: rest, t =>
    match g.segs with
    | [] =>
      if g.fin.v = 0 then (g.fin, rest, 1)
      else
        let (s', legs, n) := runLegs fuel g.fin rest t
        (s', legs, n + 1)
    | x :: xs =>
      if t < x.dur then (s.run x.jerk t, { g with segs := ⟨x.jerk, x.dur - t⟩ :: xs } :: rest, 0)
      else runLegs fuel (s.run x.jerk x.dur) ({ g with segs := xs } :: rest) (t - x.dur)

end Sys2Proof.Machine
end

