-- ==== Sys2Proof/Machine/MotOps.lean ====
section
/-! DEFINITION. Machine/MotOps.lean: motion of one axis: limits, starts, stops, the profile's advance, local axes
(R159 to R177, R188 to R192). -/
namespace Sys2Proof.Machine
open Reg

/-! ### Settings of an axis -/

/-- The limits that set `k` gives axis `n`: 0 acts as 1, and a local axis caps VMAX (R163, R189). -/
def State.limOf (s : State) (n k : Nat) : Lim :=
  let v := atLeast1 (s.get (MOT_SET.VMAX k))
  ⟨match s.pulseOf n with | some e => min v (25 * atLeast1 (s.get (MOT_PULSE.STEP_NM e))) | none => v,
    1000 * atLeast1 (s.get (MOT_SET.AMAX k)), 1000 * atLeast1 (s.get (MOT_SET.DMAX k)), 1000 * atLeast1 (s.get (MOT_SET.JMAX k))⟩

/-- Whether the cap of R189 lowers VMAX of set `k` on axis `n`. -/
def State.capActs (s : State) (n k : Nat) : Bool := (s.limOf n k).vmax < atLeast1 (s.get (MOT_SET.VMAX k))

/-- The limits of the stopping-distance check of R172. -/
def State.obLim (s : State) (n : Nat) : Lim := s.limOf n (s.get (MOT_AX_SETS.OBST n))

/-- Soft limits, scaled; none while the axis is not homed (R172, R173). -/
def State.soft (s : State) (n : Nat) : Soft :=
  if s.flag (MOT_AS.HOMED n) then some (s.getS (MOT_AX.SOFT_MIN n) * pScale, s.getS (MOT_AX.SOFT_MAX n) * pScale) else none

/-- Whether axis `n` of the table is used (R129). -/
def State.axUsed (s : State) (n : Nat) : Bool := s.get (AX_CFG.KIND n) != 0

/-- The used axes. -/
def State.axes (s : State) : List Nat := (List.range 96).filter s.axUsed

/-- Whether the profile is in motion. -/
def PV.moving (x : PV) : Bool := x.v != 0 || x.a != 0

/-- Standstill mode of stop reason `r`: true SHORT, false FREE (R175). -/
def State.stillMode (s : State) (n r : Nat) : Bool := bitOf (s.get (MOT_AX_STILL.MODE n)) (r - 1)

/-- Whether axis `n` homes (R185). -/
def State.homing (s : State) (n : Nat) : Bool := 1 ≤ s.get (MOT_AS.HPHASE n) && s.get (MOT_AS.HPHASE n) ≤ 4

/-- QDEPTH follows the queue. -/
def State.showQueue (s : State) (n : Nat) : State := s.putIf (MOT_AS.QDEPTH n) (s.mx n).queue.length

/-! ### Stops (R174, R175) -/

/-- The axis goes to the standstill mode of its stop reason. -/
def State.standstill (s : State) (n r : Nat) : State :=
  let m := s.mx n
  (((s.setMx n { m with
    st := PV.rest m.st.um, legs := [], queue := [], enable := false, short := s.stillMode n r, hold := 0, interp := 0 }).put
      (MOT_AS.MSTATE n) 4).put (MOT_AS.REASON n) r).showQueue n

/-- The set that a stop of reason `r` uses; none where enable is 0 in the same lane tick (R175). -/
def State.stopSet (s : State) (n r : Nat) : Option Nat :=
  match r with
  | 2 | 3 | 4 | 5 => none
  | 8 => some (s.get (MOT_AX_SETS.OBST n))
  | 10 => some (s.mx n).set
  | _ => some (s.get (MOT_AX_SETS.STOP n))

/-- The set of a stop from `x` that is to use set `k`: the OBST set where a stop with `k` would leave the soft limits (R172). -/
def State.stopWith (s : State) (n : Nat) (x : PV) (k : Nat) : Nat :=
  match s.soft n with
  | some (lo, hi) => let p := stopPoint x (s.limOf n k); if p < lo || hi < p then s.get (MOT_AX_SETS.OBST n) else k
  | none => k

/-- The stop leg of axis `n` from `x` with set `k`, kept inside the soft limits (R172). -/
def State.stopFrom (s : State) (n : Nat) (x : PV) (k : Nat) (latest : Option Int) : Leg :=
  let k := s.stopWith n x k
  stopLeg x (s.limOf n k) k latest

/-- A stop of axis `n` for reason `r`, on this axis alone (R175). A homing that runs ends with it (assumption 56). -/
def State.stopOne (s : State) (n r : Nat) : State :=
  let s := if s.homing n then s.put (MOT_AS.HPHASE n) 0 else s
  let m := s.mx n
  match s.stopSet n r with
  | none => s.standstill n r
  | some k =>
    if m.st.moving then
      let g := s.stopFrom n m.st k none
      ((((s.setMx n { m with legs := [g], queue := [], set := g.set, hold := 0, interp := 0 }).put
        (MOT_AS.MSTATE n) 3).put (MOT_AS.REASON n) r).showQueue n)
    else s.standstill n r

/-- The axes that move in one interpolation with axis `n` (R182). -/
def State.members (s : State) (n : Nat) : List Nat :=
  let g := (s.mx n).interp
  if g = 0 then [n] else n :: s.axes.filter (fun i => i != n && (s.mx i).interp == g)

/-- A stop of axis `n` for reason `r`: every member of its interpolation stops with it (R182). -/
def State.stopAxis (s : State) (n r : Nat) : State := (s.members n).foldl (fun s i => s.stopOne i r) s

/-- Marks that an item of R176 has acted on the axis in this pass. -/
def State.acted (s : State) (n : Nat) : State := s.setMx n { s.mx n with acted := true }

/-! ### Starts (R165 to R174) -/

/-- A target brought inside the soft limits (R172), and whether it was outside. -/
def State.clampTarget (s : State) (n : Nat) (um : Int) : Int × Bool :=
  if s.flag (MOT_AS.HOMED n) then
    let v := clampInt (s.getS (MOT_AX.SOFT_MIN n)) (s.getS (MOT_AX.SOFT_MAX n)) um
    (v, v != um)
  else (um, false)

/-- A move with its target clamped, counted and shown (R172). -/
def State.clampMove (s : State) (n : Nat) (m : Move) : State × Move :=
  let (v, c) := s.clampTarget n m.target
  let s := s.putIf (MOT_AS.CLAMPED n) c.toNat
  (if c then s.inc MOT_CLAMP_CNT else s, { m with target := v })

/-- Several moves clamped in order. -/
def State.clampMoves (s : State) (n : Nat) : List Move → State × List Move
  | [] => (s, [])
  | m :: t =>
    let (s, m) := s.clampMove n m
    let (s, t) := s.clampMoves n t
    (s, m :: t)

/-- Whether LIMIT refuses a move from `from_` (scaled) to `um`: its first motion points as the motion at the trip did (R174). -/
def State.limitRefuses (s : State) (n : Nat) (from_ um : Int) : Bool :=
  s.flag (MOT_AS.LIMIT n) && sgn ((s.clampTarget n um).1 * pScale - from_) == (s.mx n).limDir

/-- Where a move appended to the queue of axis `n` starts, scaled: at the target before it. -/
def State.queueEnd (s : State) (n : Nat) : Int :=
  match (s.mx n).queue.getLast? with
  | some m => m.target * pScale
  | none => (s.mx n).st.p

/-- The path of a queue from state `x` (R167, R170), and whether it starts with a stop phase: with set `stop`, where the first target needs
one or `force` asks for one. -/
def State.path (s : State) (n : Nat) (x : PV) (queue : List Move) (stop : Nat) (force : Bool) : List Leg × Bool :=
  match queue with
  | [] => ([], false)
  | m :: _ =>
    let lim := s.limOf n
    let halt := x.moving && (force || needsStop x (m.target * pScale) (lim stop))
    let leg := s.stopFrom n x stop (some m.target)
    let from_ := if halt then leg.fin else x
    let legs := planQueue lim (s.obLim n) (s.soft n) from_ queue (jointSpeeds lim from_.p queue) true
    (if halt then leg :: legs else legs, halt)

/-- SLOWED of the present move, or of the move that follows the present stop (R172, R189). -/
def State.showSlowed (s : State) (n : Nat) : State :=
  match (s.mx n).legs.find? (fun (g : Leg) => !g.stop) with
  | some g => s.putIf (MOT_AS.SLOWED n) (g.slow || s.capActs n g.set).toNat
  | none => s

/-- A move of the axis starts: counted, its switch edges counted anew (R168, R186); a door cycle opens with it where none is open, whatever
raises the move (R156). -/
def State.moveStarts (s : State) (n : Nat) : State :=
  let s := (s.setMx n { s.mx n with homeEdges := 0, limitEdges := 0 }).openCycle n
  ((s.inc MOT_MOVE_CNT).putIf (MOT_AS.CHAT_HOME n) 0).putIf (MOT_AS.CHAT_LIMIT n) 0

/-- The time over which the force detector compares only against F_MAX starts (R144, R171). -/
def State.accWindow (s : State) (n : Nat) : State :=
  if s.get (AX_FB.ACC_WIN n) = 0 then s else s.setDax n { s.dax n with acc := some 0 }

/-- The queue of axis `n` planned from its present state (R167, R169 to R171). -/
def State.planAxis (s : State) (n : Nat) (queue : List Move) (stop : Nat) (force : Bool) : State :=
  let m := s.mx n
  let (legs, rev) := s.path n m.st queue stop force
  let k := match legs with | g :: _ => g.set | [] => m.set
  let s := s.setMx n { m with legs := legs, queue := queue, set := k, enable := true, hold := 0, interp := 0 }
  let s := (s.showSlowed n).put (MOT_AS.MSTATE n) (if s.homing n then 5 else 1)
  (if rev then (s.inc MOT_REV_CNT).accWindow n else s.moveStarts n).showQueue n

/-- Moves that replace the whole queue (R166), refused where LIMIT does (R174). -/
def State.startMoves (s : State) (n : Nat) (moves : List Move) (stop : Nat) (force : Bool) : State :=
  let (s, moves) := s.clampMoves n moves
  match moves with
  | [] => s
  | m :: _ => if s.limitRefuses n (s.mx n).st.p m.target then s else s.planAxis n moves stop force

/-! ### Strokes of the supervisor (R166) -/

/-- The closing direction of axis `n`. -/
def State.closeDir (s : State) (n : Nat) : Int := sgn (s.getS (AX_P_CLOSED.POS n) - s.getS (AX_P_OPEN.POS n))

/-- The final zone in µm. -/
def State.fzLen (s : State) (n : Nat) : Int := 100 * s.get (AX_ZONE.FZ_LEN n)

/-- The moves to P_CLOSED from the profile's position (R166). -/
def State.closeMoves (s : State) (n : Nat) : List Move :=
  let c := s.closeDir n
  let closed := s.getS (AX_P_CLOSED.POS n)
  if s.get (AX_CFG.KIND n) != 1 && s.fzLen n == 0 then [⟨closed, s.get (MOT_AX_SETS.CLOSE n), false⟩]
  else if s.fzLen n < c * (closed - (s.mx n).st.um) then
    [⟨closed - c * s.fzLen n, s.get (MOT_AX_SETS.CLOSE n), false⟩, ⟨closed, s.get (MOT_AX_SETS.FINAL n), false⟩]
  else [⟨closed, s.get (MOT_AX_SETS.FINAL n), false⟩]

/-- A supervisor's stroke: 0 to `um` with the OPEN set, 1 to P_CLOSED, 2 to P_LOCK. -/
def State.strokeMoves (s : State) (n kind : Nat) (um : Int) : List Move :=
  match kind with
  | 0 => [⟨um, s.get (MOT_AX_SETS.OPEN n), false⟩]
  | 1 => s.closeMoves n
  | _ => [⟨s.getS (AX_P_LOCK.POS n), s.get (MOT_AX_SETS.LOCK n), false⟩]

/-! ### The profile's advance (R162, R168, R170, R175) -/

/-- How far the stop point lay beyond the latest target, for the last stop phase of R170 among ended legs. -/
def overshootOf : List Leg → Option Int
  | g :: t =>
    match overshootOf t with
    | some o => some o
    | none => g.latest.map (fun (um : Int) => ((roundDiv g.fin.p pScale - um).natAbs : Int))
  | [] => none

/-- A move ended at its target (R175): the enabled hold, or the mode at once. -/
def State.completeMove (s : State) (n : Nat) : State :=
  let s := s.put (MOT_AS.REASON n) 1
  let ticks := 160 * s.get (MOT_AX_STILL.HOLD_MS n)
  if ticks = 0 then s.standstill n 1
  else (s.setMx n { s.mx n with hold := ticks, enable := true, interp := 0 }).put (MOT_AS.MSTATE n) 2

/-- What follows a path that has ended (R175, R181, R182): the mode of the stop, the hold of the last move, the wait for a GSTART, or the
moves behind an interpolated one. -/
def State.pathEnd (s : State) (n : Nat) : State :=
  if s.get (MOT_AS.MSTATE n) == 3 then s.standstill n (s.get (MOT_AS.REASON n))
  else if s.homing n then s
  else match (s.mx n).queue with
    | [] => s.completeMove n
    | m :: t =>
      if m.group then (s.setMx n { s.mx n with interp := 0 }).put (MOT_AS.MSTATE n) 6
      else s.planAxis n (m :: t) m.set false

/-- One lane tick of the profile of axis `n`; a move that ends at rest has arrived (R162). -/
def State.runAxis (s : State) (n : Nat) : State :=
  let m := s.mx n
  if m.legs.isEmpty then
    if 0 < m.hold then s.setMx n { m with hold := m.hold - 1 } else s
  else
    let (st, legs, k) := runLegs 120 m.st m.legs 62500
    let ended := m.legs.take k
    let begun := (((m.legs.drop 1).take k).filter (fun (g : Leg) => !g.stop)).length
    let queue := m.queue.drop (ended.filter (fun (g : Leg) => !g.stop)).length
    let set := match legs, ended.getLast? with
      | g :: _, _ => g.set
      | [], some g => g.set
      | [], none => m.set
    let s := s.setMx n { m with st := st, legs := legs, queue := queue, set := set }
    let s := (List.range begun).foldl (fun s _ => s.moveStarts n) s
    let s := match overshootOf ended with
      | some o => s.putS (MOT_AS.OVERSHOOT n) o
      | none => s
    let arrived := match ended.getLast? with
      | some g => !g.stop && g.fin.v == 0
      | none => false
    let s := (((if arrived then s.put (MOT_AS.ARRIVED n) 1 else s).showQueue n).showSlowed n)
    if legs.isEmpty then s.pathEnd n else s

/-- Whether held feedback of axis `n` is fresh (R136). -/
def State.fresh (s : State) (n : Nat) : Bool :=
  match SMap.find s.door.fb n with
  | some f => f.age ≤ s.get (AX_FB.FB_AGE_MAX n)
  | none => false

/-- A fresh position of axis `n` joins the last two (R192) and the travel of its cycle (R156), once for each lane tick it was sampled in. -/
def State.takeSample (s : State) (n : Nat) : State :=
  match SMap.find s.door.fb n with
  | none => s
  | some f =>
    let m := s.mx n
    let at_ : Int := (s.door.ticks : Int) - f.age
    let newer := match m.samples with
      | (_, k) :: _ => (k < at_ : Bool)
      | [] => true
    if !s.fresh n || !newer then s
    else
      let d := s.dax n
      let s := s.setDax n { d with travel := d.travel + (match m.samples with | (q, _) :: _ => (f.pos - q).natAbs | [] => 0) }
      s.setMx n { m with samples := (f.pos, at_) :: m.samples.take 1 }

/-- Held feedback of axis `n` in vehicle coordinates (R159): none before the first. -/
def State.fbPos (s : State) (n : Nat) : Option Int :=
  (SMap.find s.door.fb n).map (fun (f : Fb) => f.pos + s.getS (MOT_AS.OFFSET n))

/-- The profile stands where the feedback shows the axis while enable is 0 (assumption 48). -/
def State.followFb (s : State) (n : Nat) : State :=
  let m := s.mx n
  match s.fbPos n with
  | some p => if m.enable || !m.legs.isEmpty then s else s.setMx n { m with st := PV.rest p }
  | none => s

/-- Velocity in scaled units that the last two fresh positions give (R192); 0 before there are two. -/
def sampleSpeed : List (Int × Int) → Int
  | (p, i) :: (q, j) :: _ => if j < i then (p - q) * 16000 * vScale / (i - j) else 0
  | _ => 0

/-- R192's state rule: the fed-back position, the velocity of the last two fresh positions, acceleration 0. -/
def State.stateFromFb (s : State) (n : Nat) : State :=
  let m := s.mx n
  match s.fbPos n with
  | some p => s.setMx n { m with st := ⟨p * pScale, sampleSpeed m.samples, 0⟩ }
  | none => s

/-- The path of axis `n` planned anew from its state without a count, with the sets it has (R192, R193): a stop, also the one before a GROUP
head that waits for its GSTART, as a stop. -/
def State.replanQueue (s : State) (n : Nat) : State :=
  let m := s.mx n
  if s.get (MOT_AS.MSTATE n) == 3 || m.queue.head?.any Move.group then
    match m.legs with
    | [] => s
    | g :: _ => s.setMx n { m with legs := [s.stopFrom n m.st m.set g.latest] }
  else if m.queue.isEmpty || s.get (MOT_AS.MSTATE n) == 6 then s
  else
    let stop := match m.legs, m.queue with
      | g :: _, q :: _ => if g.stop then g.set else q.set
      | [], q :: _ => q.set
      | _, [] => m.set
    (s.setMx n { m with legs := (s.path n m.st m.queue stop false).1 }).showSlowed n

/-- A held axis whose profile, taken from its feedback in STANDBY, still moves comes to rest first (R169, R192). -/
def State.restFirst (s : State) (n : Nat) : State :=
  let m := s.mx n
  if m.enable && m.legs.isEmpty && m.st.moving then s.setMx n { m with legs := [s.stopFrom n m.st m.set none] } else s

/-- Whether the profile of axis `n` stands still in this pass: a node axis while LANE is not synchronised gets no setpoints (R193). -/
def State.frozen (s : State) (n : Nat) : Bool := (s.pulseOf n).isNone && !s.flag TIME_STAT.LANE_SYNC && !(s.mx n).legs.isEmpty

/-- The profile of axis `n` in a pass: in STANDBY taken from the feedback first (R192). -/
def State.advanceAxis (s : State) (n : Nat) : State :=
  let s := s.setMx n { s.mx n with setPos := (s.mx n).st.um }
  if s.get SYS_STAT.MODE == 2 then
    let s := (s.stateFromFb n).replanQueue n
    (s.setMx n { s.mx n with setPos := (s.fbPos n).getD (s.mx n).st.um }).runAxis n
  else if s.frozen n then s
  else ((s.followFb n).restFirst n).runAxis n

/-- The position of the profile of axis `n`, scaled: of a homed axis inside the soft limits (R172). -/
def State.setPoint (s : State) (n : Nat) : Int :=
  match s.soft n with
  | some (lo, hi) => clampInt lo hi (s.mx n).st.p
  | none => (s.mx n).st.p

/-- The setpoint of axis `n` in µm and µm/s (R160): of a homed axis inside the soft limits (R172). -/
def State.setpoint (s : State) (n : Nat) : Int × Int :=
  let x := (s.mx n).st
  if !s.flag (MOT_AS.HOMED n) then (x.um, x.ums)
  else
    let p := clampInt (s.getS (MOT_AX.SOFT_MIN n)) (s.getS (MOT_AX.SOFT_MAX n)) x.um
    (p, if p == x.um then x.ums else 0)

/-! ### Local axes (R188 to R191) -/

/-- The input that a 7-bit field names: off where it is not used. -/
def State.pulseIn (s : State) (f : Fld) : Bool :=
  let v := s.get f
  v / 64 == 1 && s.bit DIO.STATE (v % 64)

/-- The switches of local axis entry `e`, as a feedback record's SW. -/
def State.pulseSw (s : State) (e : Nat) : Nat :=
  (s.pulseIn (MOT_PULSE_IN0.CLOSED e)).toNat + 2 * (s.pulseIn (MOT_PULSE_IN0.LOCKED e)).toNat
    + 4 * (s.pulseIn (MOT_PULSE_IN0.HOME e)).toNat + 8 * (s.pulseIn (MOT_PULSE_IN0.LIMIT e)).toNat
    + 16 * (s.pulseIn (MOT_PULSE_IN1.EDGE e)).toNat + 32 * (s.pulseIn (MOT_PULSE_IN1.EGRESS e)).toNat
    + 64 * (s.pulseIn (MOT_PULSE_IN1.ISOL e)).toNat

/-- A step count of entry `e` in µm (R190). -/
def State.stepUm (s : State) (e : Nat) (k : Int) : Int := roundDiv (k * atLeast1 (s.get (MOT_PULSE.STEP_NM e))) 1000

/-- The feedback of a local axis, sampled at the deadline (R190). -/
def State.sampleLocal (s : State) (n : Nat) : State :=
  match s.pulseOf n with
  | none => s
  | some e =>
    { s with door := { s.door with
      fb := SMap.set s.door.fb n ⟨s.stepUm e ((s.mx n).stepsAt s.localNow), 0, s.pulseSw e, s.stepUm e (s.mx n).hcount, 0, 0⟩ } }

/-- A pulse channel's demanded level. -/
def State.pulseLevel (s : State) (ch : Nat) (b : Bool) : State := { s with dio := { s.dio with pulse := setBit s.dio.pulse ch b } }

/-- The channels of pulse entry `e`. -/
def State.pulseChans (s : State) (e : Nat) : List Nat :=
  [s.get (MOT_PULSE.STEP_CH e), s.get (MOT_PULSE.DIR_CH e)] ++ (if s.flag (MOT_PULSE.ENA_EN e) then [s.get (MOT_PULSE.ENA_CH e)] else [])

/-- Pulses from now on that bring the step count to `goal` (R189): those not yet risen are given up, the next ones rise at least 40 µs
apart (25,000 a second) and 20 µs after a change of DIR, four at most until the next pass. -/
def MAxis.follow (m : MAxis) (goal : Int) (now : Nat) (turned : Bool) : MAxis :=
  let past := m.rises.filter (fun (r : Nat × Int) => r.1 ≤ now && now < r.1 + 30000000)
  let here := m.stepsAt now
  let k := min 4 (goal - here).natAbs
  let first := max (if turned then now + 20000 else now) (match past.getLast? with | some r => r.1 + 40000 | none => 0)
  let d := sgn (goal - here)
  { m with steps := here + k * d, rises := past ++ (List.range k).map (fun i => (first + 40000 * i, d)) }

/-- A local axis driven in a pass (R188, R189, R191): pulses up to the profile's position, DIR and enable levels, channels refreshed; a STEP
channel at Kickstand loses HOMED. -/
def State.driveLocal (s : State) (n : Nat) : State :=
  match s.pulseOf n with
  | none => s
  | some e =>
    if !(s.get SYS_STAT.MODE == 3 || s.get SYS_STAT.MODE == 1) then s
    else
      let m := s.mx n
      let (um, ums) := s.setpoint n
      let goal := roundDiv ((s.setPoint n - s.getS (MOT_AS.OFFSET n) * pScale) * 1000) (atLeast1 (s.get (MOT_PULSE.STEP_NM e)) * pScale)
      let here := m.stepsAt s.localNow
      let dir := if goal == here then bitOf s.dio.pulse (s.get (MOT_PULSE.DIR_CH e)) else (here < goal) != s.flag (MOT_PULSE.DIR_POL e)
      let turned := dir != bitOf s.dio.pulse (s.get (MOT_PULSE.DIR_CH e))
      let s1 := ((s.setMx n (m.follow goal s.localNow turned)).putS (MOT_AS.SETPOS n) um).putS (MOT_AS.SETVEL n) ums
      let s1 := s1.pulseLevel (s.get (MOT_PULSE.DIR_CH e)) dir
      let s1 := if s.flag (MOT_PULSE.ENA_EN e) then s1.pulseLevel (s.get (MOT_PULSE.ENA_CH e)) (m.enable || m.short) else s1
      let l := s.pulseChans e
      let s1 := ({ s1 with dio := { s1.dio with
        pulseAge := l.foldl (fun m ch => SMap.set m ch 0) s1.dio.pulseAge
        pulseKick := l.foldl (fun v ch => setBit v ch false) s1.dio.pulseKick } }).chansUpdate l
      if s1.chanKick (s.get (MOT_PULSE.STEP_CH e)) then s1.putIf (MOT_AS.HOMED n) 0 else s1

/-! ### Status (R178, and the MOT block's status area) -/

/-- The motion status area: 96 status words, last SEQ taken and result of every slot. -/
def State.motArea (s : State) : List Byte :=
  (List.range 96).flatMap (fun n => leBytes 4 (s.word (MOT_AS.MSTATE n).addr).toNat)
    ++ (List.range 16).map (fun k => BitVec.ofNat 8 (SMap.getD s.door.slotSeq k 0))
    ++ (List.range 16).map (fun k => BitVec.ofNat 8 (SMap.getD s.door.slotRes k 0))

/-- MOT_STAT, MOT_GWAIT and the status area follow the axes. -/
def State.showMotion (s : State) : State :=
  let l := s.axes
  let cnt (f : Nat → Bool) := (l.filter f).length
  let s := (s.putIf MOT_STAT.NMOVING (cnt (fun n => s.get (MOT_AS.MSTATE n) == 1 || s.get (MOT_AS.MSTATE n) == 3))).putIf MOT_STAT.NDIRECT
    (cnt (fun n => s.flag (MOT_AS.DIRECT n)))
  let s := s.putIf MOT_STAT.NHOMING (cnt s.homing)
  let s := s.putIf MOT_GWAIT.GROUPS ((l.filter (fun n => s.get (MOT_AS.MSTATE n) == 6)).foldl (fun g n => setBit g (s.get (MOT_AX_STILL.MGRP n)) true) 0)
  let s := s.putIf MOT_STAT.SENDING (s.claiming && s.flag TIME_STAT.LANE_SYNC).toNat
  s.liveWrite (s.get MOT_CFG.ST_OFF) s.motArea

end Sys2Proof.Machine
end

