-- ==== Sys2Proof/Machine/Ptp.lean ====
section
/-! DEFINITION. Machine/Ptp.lean: the ECN transmitters, and the gPTP instance: CONSIST, selection of the grandmaster, the messages it
sends (R283, R284, R293 to R295). -/
namespace Sys2Proof.Machine
open Reg

/-! ### Transmission on an ECN port (R285, R288) -/

/-- Counters of port `p` (0 P1, 1 P2). -/
def ecnRx (p : Nat) : Fld := if p = 0 then ECN_P1_RX_CNT else ECN_P2_RX_CNT
def ecnTx (p : Nat) : Fld := if p = 0 then ECN_P1_TX_CNT else ECN_P2_TX_CNT
def ecnFcs (p : Nat) : Fld := if p = 0 then ECN_P1_FCS_CNT else ECN_P2_FCS_CNT

/-- EtherType of a frame, behind a tag where it has one. -/
def etherType (f : List Byte) : Nat :=
  let ty := fun o => beNat ((List.range 2).map (fun i => f.getD (o + i) 0))
  if ty 12 == 0x8100 then ty 16 else ty 12

/-- A frame leaves on port `p`, with its FCS; the port is busy while it lasts, at the link's speed. -/
def State.ecnSend (s : State) (p : Nat) (frame : List Byte) (forced : Bool) : State :=
  let ns := (if s.get (ECN_STAT.SPEED p) == 2 then 8 else 80) * (max 60 frame.length + 24)
  let s := { s with ecn := { s.ecn with
    busy := SMap.set s.ecn.busy p (s.localNow + ns), forced := SMap.set s.ecn.forced p forced } }
  ((s.send (3 + p) (frame ++ ethFcs frame)).inc (ecnTx p)).streamFrame (5 + 2 * p) (etherType frame) frame none

/-! ### CONSIST (R283, R284) -/

/-- CONSIST taken over from the present moment on, with what is left of its slew (R283): a change of rate or limit acts from now. -/
def State.rebaseCons (s : State) : State :=
  if s.time.consEver || s.time.consSet then
    let done := slewed s.time.slew (s.localNow - s.time.consRef) (atLeast1 (s.get TIME_CTRL.SLEW_PPM))
    { s with time := { s.time with consRef := s.localNow, consVal := (s.consNow : Int), slew := s.time.slew - done } }
  else s

/-- CONSIST runs on at its rate with nothing left to slew (R284, R295). -/
def State.freeCons (s : State) : State :=
  let s := s.rebaseCons
  { s with time := { s.time with slew := 0 } }

/-- CONSIST enters FREEWHEEL (R284): it advances at its last rate correction. -/
def State.consFreewheel (s : State) : State :=
  if s.flag TIME_STAT.CONS_SYNC && !s.flag TIME_STAT.CONS_FW then
    ((s.freeCons.putFlag TIME_STAT.CONS_FW true).inc TIME_CONS_FW_CNT).put TIME_CONS_HOLD.HOLD 0
  else s

/-- Whether the rings and the gPTP instance run (R293): below shedding stage 2. -/
def State.ringsOn (s : State) : Bool := s.get PWR_STAT.STAGE < 2

/-- Rate in ppb between two readings of the grandmaster against LOCAL. -/
def ptpRate (l0 : Nat) (v0 : Int) (l1 : Nat) (v1 : Int) : Int :=
  let dl : Int := (l1 : Int) - l0
  if dl = 0 then 0 else (v1 - v0 - dl) * 1000000000 / dl

/-! ### Messages sent (R294, R295; laid out as IEEE 802.1AS has them, assumption 16) -/

/-- clockIdentity of the module: its MAC address as an EUI-64. -/
def State.clockId (s : State) : Nat :=
  let m := s.get LANE_MAC.MAC
  m / 2 ^ 24 * 2 ^ 40 + 0xFFFE * 2 ^ 24 + m % 2 ^ 24

/-- A gPTP message of type `ty` with number `seq` and a body, as a frame of port `p`; `flags` are its two octets of flags. -/
def State.gptpFrame (s : State) (p ty flags seq : Nat) (log : Int) (body : List Byte) : List Byte :=
  beBytes 6 0x0180C200000E ++ beBytes 6 (s.get LANE_MAC.MAC) ++ beBytes 2 0x88F7
    ++ beBytes 1 (0x10 + ty) ++ beBytes 1 0x12 ++ beBytes 2 (34 + body.length) ++ beBytes 1 (s.get TIME_PTP.DOMAIN) ++ beBytes 1 0
    ++ beBytes 2 flags ++ beBytes 12 0 ++ beBytes 8 s.clockId ++ beBytes 2 (p + 1) ++ beBytes 2 (seq % 2 ^ 16)
    ++ beBytes 1 0 ++ beBytes 1 (ofSigned 8 log) ++ body

/-- LOG_SYNC as it acts: −5 to 0 (R294). -/
def State.logSync (s : State) : Int := clampInt (-5) 0 (toSigned 4 (s.get TIME_PTP.LOG_SYNC))

/-- A time as a message carries it: seconds and ns. -/
def ptpStamp (now : Nat) : List Byte := beBytes 6 (now / 1000000000) ++ beBytes 4 (now % 1000000000)

/-- A two-step Sync on port `p`, and its Follow_Up with time `now` (R294). -/
def State.gptpSync (s : State) (p now : Nat) : State :=
  let s := s.ecnSend p (s.gptpFrame p 0 0x0208 s.time.ptpSeq s.logSync (beBytes 10 0)) false
  let tlv := beBytes 2 3 ++ beBytes 2 28 ++ beBytes 6 0x0080C2000001 ++ beBytes 22 0
  s.ecnSend p (s.gptpFrame p 8 0x0008 s.time.ptpSeq s.logSync (ptpStamp now ++ tlv)) false

/-- An Announce of what `a` says on port `p` (R294, R295). -/
def State.gptpAnnounce (s : State) (p : Nat) (a : PtpAnnounce) : State :=
  let path := beBytes 2 8 ++ beBytes 2 8 ++ beBytes 8 s.clockId
  s.ecnSend p (s.gptpFrame p 11 (8 + a.flags.toNat % 64 / 16 * 16 + a.flags.toNat % 8) s.time.ptpSeq 0 (beBytes 10 0 ++ beBytes 2 a.utc.toNat
    ++ beBytes 1 0 ++ beBytes 1 a.prio1.toNat ++ beBytes 4 a.quality.toNat ++ beBytes 1 a.prio2.toNat ++ beBytes 8 a.gm.toNat
    ++ beBytes 2 a.steps.toNat ++ beBytes 1 a.source.toNat ++ path)) false

/-- The Pdelay_Req of port `p` (R294). -/
def State.pdelayReq (s : State) (p : Nat) : State := s.ecnSend p (s.gptpFrame p 2 0x0008 s.time.ptpSeq 0 (beBytes 20 0)) false

/-- The answer to a Pdelay_Req that came in on port `p` (R294): Pdelay_Resp and Pdelay_Resp_Follow_Up with the request's number and port
identity, and the times at which it came and the answer leaves, at once. -/
def State.pdelayAnswer (s : State) (p : Nat) (f : List Byte) : State :=
  let seq := beNat ((f.drop 44).take 2)
  let body := ptpStamp s.localNow ++ (f.drop 34).take 10
  let s := s.ecnSend p (s.gptpFrame p 3 0x0208 seq 0x7F body) false
  s.ecnSend p (s.gptpFrame p 10 0x0008 seq 0x7F body) false

/-- Whether a frame is a Pdelay_Req of the module's domain. -/
def State.isPdelayReq (s : State) (f : List Byte) : Bool :=
  etherType f == 0x88F7 && (f.getD 14 0).toNat % 16 == 2 && (f.getD 18 0).toNat == s.get TIME_PTP.DOMAIN

/-- The number of the next message. -/
def State.ptpNext (s : State) : State := { s with time := { s.time with ptpSeq := (s.time.ptpSeq + 1) % 2 ^ 16 } }

/-- The ports on which this module is master. -/
def State.masterPorts (s : State) : List Nat := [0, 1].filter (fun p => s.flag (ECN_STAT.LINK p) && s.get (ECN_STAT.PTP_ROLE p) == 1)

/-! ### Selection of the grandmaster (R284, R294, R295) -/

/-- An Announce's priority vector as one number, the smaller the better. -/
def annRank (a : PtpAnnounce) : Nat :=
  (((a.prio1.toNat * 2 ^ 32 + a.quality.toNat) * 2 ^ 8 + a.prio2.toNat) * 2 ^ 64 + a.gm.toNat) * 2 ^ 16 + a.steps.toNat

/-- What this module announces of itself: clockClass 248, accuracy unknown (assumption 16); currentUtcOffsetValid, timeTraceable and
frequencyTraceable are false (R295). -/
def State.ownAnnounce (s : State) : PtpAnnounce :=
  ⟨BitVec.ofNat 8 (s.get TIME_PTP.DOMAIN), BitVec.ofNat 8 (s.get TIME_PTP.PRIO1), 0xF8FE436A, BitVec.ofNat 8 (s.get TIME_PTP.PRIO2),
    BitVec.ofNat 64 s.clockId, 0, 0, 0, 0xA0⟩

/-- The best Announce that stands, with its port: under the best master clock algorithm of any port, under external port
configuration (EXT) of the slave port. -/
def State.bestAnnounce (s : State) : Option (Nat × PtpAnnounce) :=
  let l := s.time.anns.filter (fun (p : Nat × PtpAnnounce) => s.flag (ECN_STAT.LINK p.1)
    && (!s.flag TIME_PTP.EXT || s.get (ECN_STAT.PTP_ROLE p.1) == 2))
  l.find? (fun p => l.all (fun q => annRank p.2 < annRank q.2 || (annRank p.2 == annRank q.2 && p.1 ≤ q.1)))

/-- Whether this module is the grandmaster: capable, and better than any other, or under EXT without a slave port. -/
def State.ownBest (s : State) : Bool :=
  s.flag TIME_PTP.GM_CAP &&
    if s.flag TIME_PTP.EXT then [0, 1].all (fun p => s.get (ECN_STAT.PTP_ROLE p) != 2)
    else match s.bestAnnounce with
      | some (_, a) => annRank s.ownAnnounce < annRank a
      | none => true

/-- The role of port `p` under the best master clock algorithm: slave where the best Announce comes in; master where this module
announces itself, or relays between its ports; else passive. -/
def State.roleOf (s : State) (p : Nat) : Nat :=
  if !s.flag (ECN_STAT.LINK p) || !s.flag (ECN_STAT.AS_CAPABLE p) then 0
  else if s.ownBest then 1
  else match s.bestAnnounce with
    | none => 3
    | some (q, a) =>
      if p == q then 2
      else match SMap.find s.time.anns p with
        | some b => if annRank b < annRank a + 1 || !s.flag ECN_CTRL.BRIDGE then 3 else 1
        | none => if s.flag ECN_CTRL.BRIDGE then 1 else 3

/-- The send instants of the publishers of base CONSIST after it has been set to another value (R291): the first that lies ahead. -/
def State.pdRestart (s : State) : State :=
  (List.range 512).foldl (fun s n =>
    let period := s.get (ECN_PD.CYCLE n) * tickNs
    if s.flag (ECN_PD.EN n) && s.flag (ECN_PD.DIR n) && s.get (ECN_PD.TBASE n) == 1 && !s.flag (ECN_PD.PUB_SYNC n) && period != 0 then
      s.setPd n { s.pdOf n with next := (s.consNow - 1000 * s.get (ECN_PD.LAUNCH_OFS n) + period - 1) / period }
    else s) s

/-- The module becomes grandmaster (R295): CONSIST at LOCAL rate; never synchronised, it is set from the RTC to the whole second. -/
def State.beGrandmaster (s : State) : State :=
  let s := s.freeCons.put TIME_CONS_RATE.RATE 0
  if !s.time.consEver && !s.time.consSet then
    ({ s with time := { s.time with
      consRef := s.localNow, consVal := (s.get SYS_RTC.RTC / 32768 * 1000000000 : Nat), consSet := true } }).showTime.pdRestart
  else s

/-- The selection runs: port roles, grandmaster, UTC offset. A change of grandmaster counts and puts CONSIST into FREEWHEEL. -/
def State.selectGm (s : State) : State :=
  let own := s.ownBest
  let gm := if own then s.clockId else match s.bestAnnounce with
    | some (_, a) => a.gm.toNat
    | none => s.get TIME_GM_ID.ID
  let s := match s.bestAnnounce with
    | some (_, a) => (s.put TIME_UTC_OFS.UTC a.utc.toNat).putFlag TIME_UTC_OFS.VALID (a.flags.getLsbD 2 && !own)
    | none => s.putIf TIME_UTC_OFS.VALID 0
  let roles := [0, 1].map (fun p => s.roleOf p)
  let s := if s.flag TIME_PTP.EXT then s
    else (s.putIf (ECN_STAT.PTP_ROLE 0) (roles.getD 0 0)).putIf (ECN_STAT.PTP_ROLE 1) (roles.getD 1 0)
  let s := if s.get TIME_GM_ID.ID == gm then s
    else
      let s := (s.put TIME_GM_ID.ID gm).inc TIME_GM_CHG_CNT
      ({ s with time := { s.time with ptp := none } }).consFreewheel
  let was := s.flag TIME_STAT.GM_SELF
  let s := s.putIf TIME_STAT.GM_SELF own.toNat
  if own && !was then s.beGrandmaster else s

/-- PTP_ANNOUNCE_RX (R284, R294, R295): an Announce of the module's domain comes in on `port`, and the selection runs; while BRIDGE
is 1 the relay passes it on. -/
def execPtpAnnounceRx (t port : Nat) (ann : PtpAnnounce) (s : State) : Result :=
  let s := s.at_ t
  if !s.ringsOn || ann.domain.toNat != s.get TIME_PTP.DOMAIN || 2 ≤ port || !s.flag (ECN_STAT.LINK port)
      || ann.gm.toNat == s.clockId then .next s
  else
    let s := ({ s with time := { s.time with anns := SMap.set s.time.anns port ann } }).selectGm
    .next (if s.flag ECN_CTRL.BRIDGE && s.get (ECN_STAT.PTP_ROLE port) == 2 then
        (s.masterPorts.foldl (fun s p => s.gptpAnnounce p { ann with steps := ann.steps + 1 }) s).ptpNext
      else s)

/-- PTP_SYNC_RX (R283, R284, R294): a Sync of the module's domain on its slave port; `gm` is the grandmaster's time now, with the peer
delay that the instance measures. The servo slews an offset of at most STEP_NS and steps a larger one; the relay passes it on. -/
def execPtpSyncRx (t port : Nat) (domain : BitVec 8) (gm : Nat) (s : State) : Result :=
  let s := s.at_ t
  if !s.ringsOn || domain.toNat != s.get TIME_PTP.DOMAIN || 2 ≤ port || s.get (ECN_STAT.PTP_ROLE port) != 2 || s.flag TIME_STAT.GM_SELF then
    .next s
  else
    let now := s.localNow
    let here : Int := s.consNow
    let ofs := here - gm
    let s := s.putS TIME_CONS_OFS.OFS (clampInt (-2147483648) 2147483647 ofs)
    let rate := match s.time.ptp with
      | some (l0, v0) => ptpRate l0 v0 now gm
      | none => 0
    let step := s.get TIME_CTRL.STEP_NS < ofs.natAbs
    let s := if step then s.inc TIME_CONS_STEP_CNT else s
    let s := s.putS TIME_CONS_RATE.RATE rate
    let s := { s with time := { s.time with
      consRef := now, consVal := if step then (gm : Int) else here, consEver := true
      slew := if step then 0 else -ofs, ptp := some (now, gm) } }
    let s := (s.putIf TIME_STAT.CONS_FW 0).putIf TIME_CONS_HOLD.HOLD 0
    let s := (s.putIf TIME_STAT.CONS_SYNC 1).showTime
    let s := if step then s.pdRestart else s
    .next (if s.flag ECN_CTRL.BRIDGE then (s.masterPorts.foldl (fun s p => s.gptpSync p gm) s).ptpNext else s)

/-- PTP_RECEIPT_TIMEOUT (R284): nothing more is heard of the grandmaster on slave port `port`. -/
def execPtpReceiptTimeout (t port : Nat) (s : State) : Result :=
  let s := s.at_ t
  if s.get (ECN_STAT.PTP_ROLE port) != 2 then .next s
  else .next ({ s with time := { s.time with anns := SMap.erase s.time.anns port } }).consFreewheel.selectGm

/-- The instance at a local tick edge (R294, R295): the selection follows TIME_PTP; a Pdelay_Req leaves each linked port every second; the
grandmaster sends a Sync every 2^LOG_SYNC s and an Announce every second. -/
def State.gptpEdge (s : State) : State :=
  if !s.ringsOn then s
  else
    let s := s.selectGm
    let now := s.time.edge
    let s := if now % 1000000000 == 0 then
        (([0, 1].filter (fun p => s.flag (ECN_STAT.LINK p))).foldl State.pdelayReq s).ptpNext
      else s
    if !s.flag TIME_STAT.GM_SELF then s
    else
    let s := if now % (1000000000 / 2 ^ (-s.logSync).toNat) == 0 then
        (s.masterPorts.foldl (fun s p => s.gptpSync p s.consNow) s).ptpNext
      else s
    if now % 1000000000 == 0 then (s.masterPorts.foldl (fun s p => s.gptpAnnounce p s.ownAnnounce) s).ptpNext else s

end Sys2Proof.Machine
end

