-- ==== Sys2Proof/Machine/Net.lean ====
section
/-! DEFINITION. Machine/Net.lean: CONSIST and captures (R283, R284, R294 to R296), consist Ethernet (R285 to R293), MVB (R297, R298),
the signal map's swap and scan (R302, R307, R308). -/
namespace Sys2Proof.Machine
open Reg

/-! ### CONSIST holdover (R284) -/

/-- CONSIST_HOLDOVER_EXPIRY (R284): the holdover age exceeds TIME_HOLD_MAX. -/
def execConsistHoldoverExpiry (t : Nat) (s : State) : Result :=
  let s := s.at_ t
  if s.flag TIME_STAT.CONS_FW && s.get TIME_HOLD_MAX.TICKS < s.get TIME_CONS_HOLD.HOLD then
    .next (((s.put TIME_STAT.CONS_FW 0).put TIME_STAT.CONS_SYNC 0).put TIME_CONS_HOLD.HOLD 0)
  else .next s

/-! ### Captures (R296) -/

/-- Quality code of a stamp in a base. -/
def State.stampQuality (s : State) (base : Nat) : Nat :=
  match base with
  | 1 => if !s.flag TIME_STAT.LANE_SYNC then 2 else if s.flag TIME_STAT.LANE_FW then 1 else 0
  | 2 => if !s.flag TIME_STAT.CONS_SYNC then 2 else if s.flag TIME_STAT.CONS_FW then 1 else 0
  | _ => 0

/-- What the input pipeline of a DIO channel takes: two samples of 0.5 µs (R313; assumption 164). -/
def pipelineNs : Nat := 750

/-- Whether the event that capture `n` selects stands now, and how many ns ago it happened (R296): an edge of the filtered state of a DIO
input, whose pin edge lies the filter and the pipeline back (R313); a lane tick or macrocycle boundary, a SYNC of a lane; a change of
a trip output; a spoke accepted. -/
def State.captureEvent (s : State) (n : Nat) : Option Nat :=
  let i := s.get (TIME_CAP_CFG.INDEX n)
  let edge := s.get (TIME_CAP_CFG.EDGE n)
  let wants := fun rising => 2 ≤ edge || (edge == 0) == rising
  let here := fun k => SMap.find s.time.events k == some s.localNow
  let boundary := s.lanes.boundary == s.localNow
  match s.get (TIME_CAP_CFG.KIND n) with
  | 1 => if i < 64 && s.pers i == 0 && here i && wants (s.bit DIO.STATE i) then some (s.filterNs i + pipelineNs) else none
  | 2 =>
    let now := match i with
      | 0 => boundary
      | 1 => boundary && s.lanes.tick % macroTicks == 0
      | 2 => here 2048
      | 3 => here 2049
      | _ => false
    if now then some 0 else none
  | 3 => if i < 512 && here (64 + i) && wants (s.tripOut i) then some 0 else none
  | 4 => if i < 32 && here (1024 + i) then some 0 else none
  | _ => none

/-- CAPTURE_EDGE (R296): the event of capture `n`'s source is stamped. -/
def execCaptureEdge (t n : Nat) (s : State) : Result :=
  let s := s.at_ t
  match if n < 16 then s.captureEvent n else none with
  | none => .next s
  | some back =>
    let fifo := SMap.getD s.time.caps n []
    if 8 ≤ fifo.length then .next (s.inc TIME_CAP_OVF_CNT)
    else
      let base := s.get (TIME_CAP_CFG.TBASE n)
      let now := match base with
        | 1 => s.laneNow
        | 2 => s.consNow
        | _ => s.localNow
      let e := s.stampQuality base * 2 ^ 62 + (now - back) / 4 * 4 % 2 ^ 62
      let s := { s with time := { s.time with caps := SMap.set s.time.caps n (fifo ++ [e]) } }
      .next (s.put (TIME_CAP_STAT.LEVEL n) (fifo.length + 1))

/-! ### Ports and the switch (R285 to R289) -/

/-- Whether port `p` may hold its link up (R393, R397): enabled, with the clock on a crystal. -/
def State.ecnMay (s : State) (p : Nat) : Bool :=
  s.flag (if p = 0 then ECN_CTRL.P1_EN else ECN_CTRL.P2_EN) && s.get CLK_STAT.REF != 2 && !s.flag CLK_STAT.BYPASS

/-- Port `p`'s link goes down; the grandmaster's Announce on it is lost (R284). -/
def State.ecnDown (s : State) (p : Nat) : State :=
  let slave := s.get (ECN_STAT.PTP_ROLE p) == 2
  let s := (((s.putIf (ECN_STAT.LINK p) 0).putIf (ECN_STAT.SPEED p) 0).putIf (ECN_STAT.AS_CAPABLE p) 0).putIf (ECN_STAT.PTP_ROLE p) 0
  let s := { s with time := { s.time with anns := SMap.erase s.time.anns p }, ecn := { s.ecn with busy := SMap.erase s.ecn.busy p } }
  if slave then s.consFreewheel.selectGm else s

/-! ### Queues and routes (R286 to R288) -/

/-- A frame's MAC address at offset `o`. -/
def macAt (f : List Byte) (o : Nat) : Nat := beNat ((List.range 6).map (fun i => f.getD (o + i) 0))

/-- Egress queue `q` of port `p`. -/
def State.ecnQueue (s : State) (p q : Nat) : List EFrame := SMap.getD s.ecn.queues (8 * p + q) []

/-- Present time of queue `q`'s base (R288). -/
def State.queueNow (s : State) (q : Nat) : Nat := if s.get (ECN_QCFG.TBASE q) == 1 then s.consNow else s.localNow

/-- The state with an egress queue replaced; a frame that comes to its head keeps the time (R288). -/
def State.setQueue (s : State) (p q : Nat) (l : List EFrame) : State :=
  let l := match l with
    | [] => []
    | f :: rest => { f with atHead := some (f.atHead.getD (s.queueNow q)) } :: rest
  { s with ecn := { s.ecn with queues := SMap.set s.ecn.queues (8 * p + q) l } }

/-- The number of the internal port in the MAC table (R286). -/
def insidePort : Nat := 2

/-- The switch learns that `mac` lies behind `port` (R286): no group address, and 1,024 entries. -/
def State.learn (s : State) (port mac : Nat) : State :=
  if mac / 2 ^ 40 % 2 == 0 && ((SMap.find s.ecn.macs mac).isSome || s.ecn.macs.length < 1024) then
    { s with ecn := { s.ecn with macs := SMap.set s.ecn.macs mac (port, s.localNow) } }
  else s

/-- The ports a frame for MAC `dst` leaves by: the one it was learned on, else every other linked port (R286). -/
def State.ecnRoute (s : State) (dst : Nat) (from_ : Option Nat) : List Nat :=
  let all := [0, 1].filter (fun p => some p != from_ && s.flag (ECN_STAT.LINK p))
  match SMap.find s.ecn.macs dst with
  | some (p, _) => all.filter (· == p)
  | none => all

/-- A frame put into queue `q` of each of the ports (R287). -/
def State.enqueue (s : State) (ports : List Nat) (q : Nat) (f : EFrame) : State :=
  ports.foldl (fun s p => s.setQueue p q (s.ecnQueue p q ++ [f])) s

/-- A frame of the process-data engine enters the switch from inside, into queue `q` of the ports it leaves by (R286, R291). -/
def State.fromInside (s : State) (q : Nat) (f : EFrame) : State :=
  let s := s.learn insidePort (macAt f.bytes 6)
  s.enqueue (s.ecnRoute (macAt f.bytes 0) none) q f

/-- VLAN ID and PCP of a frame: those of its tag, or the port VLAN ID (R287). -/
def State.ecnVlan (s : State) (f : List Byte) : Nat × Nat :=
  if fieldAt f 12 2 == 0x8100 then (fieldAt f 14 2 % 4096, fieldAt f 14 2 / 8192) else (s.get ECN_CFG.PVID, 0)
where
  /-- A big-endian field of a frame. -/
  fieldAt (f : List Byte) (o n : Nat) : Nat := beNat ((List.range n).map (fun i => f.getD (o + i) 0))

/-- A frame of `port` written through the receive ring (R289): into the next descriptor's buffer, with length, DONE, port and
LOCAL stamp; with no descriptor it is dropped. -/
def State.ringReceive (s : State) (port : Nat) (f : List Byte) : State :=
  let size := s.get (ECN_RING.SIZE 8)
  let head := s.get (ECN_RING.HEAD 8)
  if size < 2 then s
  else if head == s.get (ECN_RING.TAIL 8) then s.inc ECN_DROP_CNT
  else
    let d := s.get (ECN_RING.BASE 8) + 16 * head
    let s := s.storeBytes (s.load d 4) f
    let s := ((s.store (d + 4) 2 f.length).store (d + 6) 1 (2 + 8 * port)).store (d + 8) 8 s.localNow
    s.put (ECN_RING.HEAD 8) ((head + 1) % size)

/-! ### The process-data engine's envelope (R290; laid out as IEC 61375-2-3 and the Internet protocols have it, assumption 15) -/

/-- The Internet checksum of some bytes. -/
def inetSum (bs : List Byte) : Nat :=
  let sum := (List.range ((bs.length + 1) / 2)).foldl (fun v i => v + (bs.getD (2 * i) 0).toNat * 256 + (bs.getD (2 * i + 1) 0).toNat) 0
  let once := sum % 65536 + sum / 65536
  65535 - (once % 65536 + once / 65536)

/-- An IPv4 header for `len` bytes of protocol `proto`, with options `opt`. -/
def ipHeader (src dst proto ttl len : Nat) (opt : List Byte) : List Byte :=
  let head := beBytes 1 (0x45 + opt.length / 4) ++ beBytes 1 0 ++ beBytes 2 (20 + opt.length + len) ++ beBytes 4 0x4000 ++ beBytes 1 ttl
    ++ beBytes 1 proto
  let addrs := beBytes 4 src ++ beBytes 4 dst ++ opt
  head ++ beBytes 2 (inetSum (head ++ beBytes 2 0 ++ addrs)) ++ addrs

/-- Whether an IPv4 address is a multicast group. -/
def isGroup (ip : Nat) : Bool := ip / 2 ^ 28 == 0xE

/-- The MAC address of a multicast group. -/
def groupMac (ip : Nat) : Nat := 0x01005E000000 + ip % 2 ^ 23

/-- A frame's bytes padded to 60. -/
def padFrame (f : List Byte) : List Byte := f ++ List.replicate (60 - f.length) 0

/-- The IGMPv2 membership report of a group (R290). -/
def State.igmpReport (s : State) (ip : Nat) : List Byte :=
  let msg := beBytes 2 0x1600
  padFrame (beBytes 6 (groupMac ip) ++ beBytes 6 (s.get LANE_MAC.MAC) ++ beBytes 2 0x0800
    ++ ipHeader (s.get ECN_IP.VALUE) ip 2 1 8 (beBytes 4 0x94040000)
    ++ msg ++ beBytes 2 (inetSum (msg ++ beBytes 2 0 ++ beBytes 4 ip)) ++ beBytes 4 ip)

/-- Groups that the module subscribes (R290). -/
def State.pdGroups (s : State) : List Nat :=
  (((List.range 512).filter (fun n => s.flag (ECN_PD.EN n) && !s.flag (ECN_PD.DIR n) && isGroup (s.get (ECN_PD.DEST_IP n)))).map
    (fun n => s.get (ECN_PD.DEST_IP n))).eraseDups

/-- A report of every group the module subscribes leaves on port `p` (assumption 162). -/
def State.igmpReports (s : State) (p : Nat) : State :=
  if s.flag ECN_CTRL.PD_EN then
    s.pdGroups.foldl (fun s ip => s.enqueue [p] 0 ⟨s.igmpReport ip, none, none, true, false, none⟩) (s.learn insidePort (s.get LANE_MAC.MAC))
  else s

/-- Whether a frame is an IGMP membership query. -/
def igmpQuery (f : List Byte) : Bool :=
  etherType f == 0x0800 && (f.getD 23 0).toNat == 2 && (f.getD (14 + 4 * ((f.getD 14 0).toNat % 16)) 0).toNat == 0x11

/-- ECN_LINK_CHANGE (R285, R294): speed 0 is a link that goes down; 1 100 Mbit/s, 2 1 Gbit/s, with the port's asCapable and, under
external port configuration, its role. The engine reports its groups on a link that comes up (R290). -/
def execEcnLinkChange (t port speed : Nat) (asCapable : Bool) (role : Nat) (s : State) : Result :=
  let s := s.at_ t
  if speed = 0 || 2 < speed || !s.ecnMay port then .next (s.ecnDown port)
  else
    let s := ((s.putFlag (ECN_STAT.LINK port) true).put (ECN_STAT.SPEED port) speed).putFlag (ECN_STAT.AS_CAPABLE port) asCapable
    let s := if s.flag TIME_PTP.EXT then s.put (ECN_STAT.PTP_ROLE port) role else s
    .next ((if s.ringsOn then s.selectGm else s).igmpReports port)

/-- Whether the process-data engine consumes a frame (R289, R290): IPv4, UDP port 17224, while it works. -/
def State.pdConsumes (s : State) (f : List Byte) : Bool :=
  let o := if (beNat ((f.drop 12).take 2)) == 0x8100 then 18 else 14
  s.flag ECN_CTRL.PD_EN && etherType f == 0x0800 && (f.getD (o + 9) 0).toNat == 17
    && beNat ((f.drop (o + 4 * ((f.getD o 0).toNat % 16) + 2)).take 2) == 17224

/-- Whether the switch hands a frame to the internal port (R286): a group address, the module's own where it was learned, or one that the
MAC table does not hold. -/
def State.ecnInside (s : State) (dst : Nat) : Bool :=
  dst / 2 ^ 40 % 2 == 1 || (match SMap.find s.ecn.macs dst with
    | some (p, _) => p == insidePort
    | none => true)

/-- ECN_FRAME_RX (R286, R287, R289, R293, R294): learning, filtering, forwarding between the ports and to the receive ring. gPTP frames go
to the relay: a Pdelay_Req is answered, the others come as the PTP commands. An IGMP query is answered (R290). From shedding stage 2
on nothing passes but process data. -/
def execEcnFrameRx (t port : Nat) (frame : List Byte) (fcs : Bool) (s : State) : Result :=
  let s := s.at_ t
  if !s.flag (ECN_STAT.LINK port) then .next s
  else if !fcs then .next (s.inc (ecnFcs port))
  else
    let s := s.inc (ecnRx port)
    let dst := macAt frame 0
    let (vid, pcp) := s.ecnVlan frame
    if 1518 < frame.length || (s.flag ECN_CFG.ING_FILT && !s.ecn.vlans.contains vid) then .next (s.inc ECN_DROP_CNT)
    else
      let s := s.learn port (macAt frame 6)
      let s := if igmpQuery frame then s.igmpReports port else s
      if !s.ringsOn then .next s
      else if etherType frame == 0x88F7 then .next (if s.isPdelayReq frame then s.pdelayAnswer port frame else s)
      else
        let local_ := 0x0180C2000000 ≤ dst && dst ≤ 0x0180C200000F
        let s := if s.flag ECN_CTRL.BRIDGE && !local_ then
            s.enqueue (s.ecnRoute dst (some port)) pcp ⟨frame, none, none, false, false, none⟩
          else s
        .next (if s.ecnInside dst && !s.pdConsumes frame then s.ringReceive port frame else s)

/-- MAC_ENTRY_AGEING (R286): 300 s without a frame. -/
def execMacEntryAgeing (t mac : Nat) (s : State) : Result :=
  let s := s.at_ t
  match SMap.find s.ecn.macs mac with
  | some (_, at_) =>
    if at_ + 300000000000 ≤ s.localNow then .next { s with ecn := { s.ecn with macs := SMap.erase s.ecn.macs mac } } else .next s
  | none => .next s

/-- HEAD of ring `q`, the completion counter, passes over the descriptors completed from it on, up to TAIL (R289). -/
def State.ringHead (s : State) (q : Nat) : Nat → State
  | 0 => s
  | fuel + 1 =>
    let head := s.get (ECN_RING.HEAD q)
    let done := SMap.getD s.ecn.done q []
    if head == s.get (ECN_RING.TAIL q) || !done.contains head then s
    else
      let s := { s with ecn := { s.ecn with done := SMap.set s.ecn.done q (done.filter (· ≠ head)) } }
      State.ringHead (s.put (ECN_RING.HEAD q) ((head + 1) % atLeast1 (s.get (ECN_RING.SIZE q)))) q fuel

/-- Descriptor `i` of ring `q` is completed. -/
def State.ringPass (s : State) (q i : Nat) : State :=
  State.ringHead { s with ecn := { s.ecn with done := SMap.set s.ecn.done q (i :: (SMap.getD s.ecn.done q []).filter (· ≠ i)) } } q 4096

/-- The engine takes the descriptors from `i` on, up to TAIL, into queue `q` (R288, R289). -/
def State.ringTake (s : State) (q : Nat) : Nat → Nat → State
  | 0, _ => s
  | fuel + 1, i =>
    let size := s.get (ECN_RING.SIZE q)
    if size < 2 || i % size == s.get (ECN_RING.TAIL q) then s
    else
      let i := i % size
      let s := { s with ecn := { s.ecn with taken := SMap.set s.ecn.taken q ((i + 1) % size) } }
      let d := s.get (ECN_RING.BASE q) + 16 * i
      let flags := s.load (d + 6) 1
      let bytes := s.bytes (s.load d 4) (s.load (d + 4) 2)
      let launch := if bitOf flags 0 then some (s.load (d + 8) 8) else none
      let s := s.learn insidePort (macAt bytes 6)
      let s := match s.ecnRoute (macAt bytes 0) none with
        | [] => ((s.store (d + 6) 1 (flags ||| 6)).inc ECN_DROP_CNT).ringPass q i
        | p :: rest => (s.enqueue [p] q ⟨bytes, launch, some i, false, false, none⟩).enqueue rest q ⟨bytes, launch, none, false, false, none⟩
      State.ringTake s q fuel (i + 1)

/-- The engine looks at transmit ring `q` (R289); the rings stop from stage 2 on (R293). -/
def State.ringRun (s : State) (q : Nat) : State :=
  if s.ringsOn then s.ringTake q 4096 (SMap.getD s.ecn.taken q 0) else s

/-- ECN_TAIL_WRITE (R289): ring 0 to 7 transmit, 8 receive. -/
def execEcnTailWrite (t : Nat) (who : Initiator) (ring tail : Nat) (s : State) : Result :=
  match (s.at_ t).gate who (ECN_RING.TAIL ring).addr false true with
  | (s, true) =>
    let s := s.put (ECN_RING.TAIL ring) tail
    .next (if ring < 8 then s.ringRun ring else s)
  | (s, false) => .next s

/-- A descriptor is completed: DONE, or DROPPED with it, the transmit stamp, HEAD (R288, R289). -/
def State.ringDone (s : State) (q : Nat) (desc : Option Nat) (dropped : Bool) : State :=
  match desc with
  | none => s
  | some i =>
    let d := s.get (ECN_RING.BASE q) + 16 * i
    let flags := s.load (d + 6) 1
    ((s.store (d + 6) 1 (flags ||| (if dropped then 6 else 2))).store (d + 8) 8 (s.queueNow q)).ringPass q i

/-- The frames of a queue that may go: from shedding stage 2 on those of the process-data engine alone (R293). -/
def State.goQueue (s : State) (p q : Nat) : List EFrame := if s.ringsOn then s.ecnQueue p q else (s.ecnQueue p q).filter (·.pd)

/-- Whether the frame at the head of a queue may leave now (R288). -/
def State.eligible (s : State) (p q : Nat) : Bool :=
  match s.goQueue p q with
  | [] => false
  | f :: _ => match f.launch with
    | none => true
    | some at_ => at_ ≤ s.queueNow q

/-- ECN_LAUNCH (R288): the frame at the head of queue `q` of a port leaves, unless a frame is in transmission or a higher queue has one
that may; one that reached the head late is dropped or sent as LATE says and counted, as is one whose base is CONSIST while that is
unsynchronised. -/
def execEcnLaunch (t port q : Nat) (s : State) : Result :=
  let s := s.at_ t
  match s.goQueue port q with
  | [] => .next s
  | f :: _ =>
    let rest := (s.ecnQueue port q).erase f
    let unsync := f.launch.isSome && s.get (ECN_QCFG.TBASE q) == 1 && !s.flag TIME_STAT.CONS_SYNC
    let late := match f.launch with
      | some at_ => at_ + 1000 * s.get (ECN_QCFG.TOL q) < f.atHead.getD (s.queueNow q)
      | none => false
    let drop := unsync || (late && !s.flag (ECN_QCFG.LATE q))
    if drop then .next (((s.setQueue port q rest).inc ECN_LATE_CNT).ringDone q f.desc true)
    else if !s.flag (ECN_STAT.LINK port) || s.localNow < SMap.getD s.ecn.busy port 0 || !s.eligible port q
        || (List.range 8).any (fun k => q < k && s.eligible port k) then .next s
    else
      let s := if late then s.inc ECN_LATE_CNT else s
      .next (((s.setQueue port q rest).ecnSend port f.bytes f.forced).ringDone q f.desc false)

/-! ### TRDP process data (R290 to R293) -/

/-- A process-data telegram: the header of IEC 61375-2-3 with its FCS, and the dataset; a Pr asks for the answer to the module's own
address (assumption 15). -/
def State.pdTelegram (s : State) (n seq msg : Nat) (dataset : List Byte) : List Byte :=
  let head := beBytes 4 seq ++ beBytes 2 0x0100 ++ beBytes 2 msg ++ beBytes 4 (s.get (ECN_PD.COMID n)) ++ beBytes 4 (s.get ECN_ETB_TOPO.VALUE)
    ++ beBytes 4 (s.get ECN_OPTRN_TOPO.VALUE) ++ beBytes 4 dataset.length ++ beBytes 8 0 ++ beBytes 4 (if msg == 0x5072 then s.get ECN_IP.VALUE else 0)
  head ++ ethFcs head ++ dataset

/-- A telegram in its envelope: UDP 17224, IPv4, a tag where the entry has a VLAN ID, the MAC address derived for a group. -/
def State.pdFrame (s : State) (n ip seq msg : Nat) (dataset : List Byte) : List Byte :=
  let pdu := s.pdTelegram n seq msg dataset
  let dst := if isGroup ip then groupMac ip else s.get (ECN_PD.DMAC_HI n) * 65536 + s.get (ECN_PD.DMAC_LO n)
  let tag := if s.get (ECN_PD.VID n) == 0 then [] else beBytes 2 0x8100 ++ beBytes 2 (s.get (ECN_PD.PCP n) * 8192 + s.get (ECN_PD.VID n))
  padFrame (beBytes 6 dst ++ beBytes 6 (s.get LANE_MAC.MAC) ++ tag ++ beBytes 2 0x0800
    ++ ipHeader (s.get ECN_IP.VALUE) ip 17 64 (8 + pdu.length) []
    ++ beBytes 2 17224 ++ beBytes 2 17224 ++ beBytes 2 (8 + pdu.length) ++ beBytes 2 0 ++ pdu)

/-- The safe session that a transport carries to its peer, if one does (R226). -/
def State.safeTxOn (s : State) (trans idx : Nat) : Option Nat :=
  (List.range 128).find? (fun n =>
    s.flag (SAFE_S.EN n) && s.flag (SAFE_S.DIR n) && s.get (SAFE_S.TRANS n) == trans && s.get (SAFE_S.TIDX n) == idx)

/-- The telegram that a session has built for the coming send instant, which it takes with it (R228, R229). -/
def State.takeTele (s : State) (n : Nat) : Option (List Byte) × State :=
  let x := SMap.getD s.safe.sess n Sess.init
  (x.tele, { s with safe := { s.safe with sess := SMap.set s.safe.sess n { x with tele := none } } })

/-- The payload of a transport's next send: its session's telegram, nothing where R229 passes the instant over, else the
gateway's assembly (R303). -/
def State.txPayload (s : State) (kind idx len : Nat) : Option (List Byte) × State :=
  match s.safeTxOn (kind - 1) idx with
  | some n => s.takeTele n
  | none =>
    let (bs, s) := s.gwAssemble kind idx len (kind == 1)
    (some bs, s)

/-- Publisher `n` sends (R291): its sequenceCounter rises by one, and the telegram enters its PCP queue with its launch time. -/
def State.pdSend (s : State) (n msg : Nat) (launch : Option Nat) : State :=
  match s.txPayload 2 n (s.get (ECN_PD.LEN n)) with
  | (none, s) => s
  | (some data, s) =>
    let seq := ((s.pdOf n).seq + 1) % 2 ^ 32
    let s := s.setPd n { s.pdOf n with seq := seq }
    let s := ((s.put (ECN_PDST.STATE n) 2).put (ECN_PDST.SEQ n) seq).inc ECN_PD_TX_CNT
    let frame := s.pdFrame n (s.get (ECN_PD.DEST_IP n)) seq msg data
    s.fromInside (s.get (ECN_PD.PCP n)) ⟨frame, launch, none, true, s.flag CYC_STAT.FORCED, none⟩

/-- Whether telegram `n` is a publisher that may send (R291, R293). -/
def State.pdMay (s : State) (n : Nat) : Bool :=
  s.flag ECN_CTRL.PD_EN && s.flag (ECN_PD.EN n) && s.flag (ECN_PD.DIR n) && (!s.flag (ECN_PD.PAIR n) || s.claiming)

/-- Whether publisher `n`'s time base is synchronised (R291). -/
def State.pdSynced (s : State) (n : Nat) : Bool := s.get (ECN_PD.TBASE n) != 1 || s.flag TIME_STAT.CONS_SYNC

/-- The send instant of publisher `n` that is due, as its number (see Pd.next) and launch time in its base (R291): its launch time is at
most 10 µs ahead. -/
def State.pdInstant (s : State) (n : Nat) : Option (Nat × Nat) :=
  let base := if s.get (ECN_PD.TBASE n) == 1 then s.consNow else s.localNow
  let ofs := 1000 * s.get (ECN_PD.LAUNCH_OFS n)
  let ahead := base + 10000
  if s.flag (ECN_PD.PUB_SYNC n) then
    match s.lanes.pubs.find? (fun e => e + ofs ≤ s.localNow + 10000) with
    | some e => if (s.pdOf n).next ≤ e then some (e + 1, base + e + ofs - s.localNow) else none
    | none => none
  else
    let period := s.get (ECN_PD.CYCLE n) * tickNs
    if period == 0 || ahead < ofs then none
    else
      let k := (ahead - ofs) / period
      if (s.pdOf n).next ≤ k then some (k + 1, k * period + ofs) else none

/-- PD_PUBLISH (R291): a send instant of publisher `n`, at a whole multiple of CYCLE ticks of its base or at a publication edge, each
once. A publisher whose base is unsynchronised is skipped. The launch time is handed on in the base of its queue. -/
def execPdPublish (t n : Nat) (s : State) : Result :=
  let s := s.at_ t
  match s.pdInstant n with
  | none => .next s
  | some (next, launch) =>
    if !s.pdMay n then .next s
    else
      let s := s.setPd n { s.pdOf n with next := next }
      if !s.pdSynced n then .next (s.inc ECN_PD_SKIP_CNT)
      else
        let base := if s.get (ECN_PD.TBASE n) == 1 then s.consNow else s.localNow
        .next (s.pdSend n 0x5064 (some (s.queueNow (s.get (ECN_PD.PCP n)) + launch - base)))

/-- PD_PULL_REQUEST (R291): every publisher of the ComID answers with a Pp; one whose base is unsynchronised is skipped. -/
def execPdPullRequest (t comId : Nat) (s : State) : Result :=
  let s := s.at_ t
  .next ((List.range 512).foldl (fun s n =>
    if s.pdMay n && s.get (ECN_PD.COMID n) == comId then (if s.pdSynced n then s.pdSend n 0x5070 none else s.inc ECN_PD_SKIP_CNT) else s) s)

/-- Whether subscribers work in the present mode (R293). -/
def State.pdListens (s : State) : Bool := s.flag ECN_CTRL.PD_EN && 1 ≤ s.get SYS_STAT.MODE && s.get SYS_STAT.MODE ≤ 3

/-- The Pr of a PULL subscriber (R290): at the local tick edges at which half its TMO has passed (assumption 162). -/
def State.pdPull (s : State) (n : Nat) : State :=
  if s.pdListens && s.flag (ECN_PD.EN n) && !s.flag (ECN_PD.DIR n) && s.flag (ECN_PD.PULL n) && (!s.flag (ECN_PD.PAIR n) || s.claiming)
      && s.time.edge / tickNs % atLeast1 (s.get (ECN_PD.CYCLE n) / 2) == 0 then
    let seq := ((s.pdOf n).seq + 1) % 2 ^ 32
    let s := s.setPd n { s.pdOf n with seq := seq }
    let frame := s.pdFrame n (s.get (ECN_PD.SRC_IP n)) seq 0x5072 []
    (s.inc ECN_PD_TX_CNT).fromInside (s.get (ECN_PD.PCP n)) ⟨frame, none, none, true, s.flag CYC_STAT.FORCED, none⟩
  else s

/-- Every PULL subscriber at a local tick edge. -/
def State.pdPulls (s : State) : State := (List.range 512).foldl State.pdPull s

/-- PD_TELEGRAM_RX (R290, R292): entry `n` judges a telegram by its message type (a Pd or a Pp; a Pe is dropped), source, ComID, counters
and header check. -/
def execPdTelegramRx (t n src msg comId seq etb optrn major : Nat) (fcs : Bool) (dataset : List Byte) (s : State) : Result :=
  let s := s.at_ t
  if !s.pdListens || !s.flag (ECN_PD.EN n) || s.flag (ECN_PD.DIR n) then .next s
  else
    let x := s.pdOf n
    let ok := fcs && (msg == 0x5064 || msg == 0x5070) && major == 1 && comId == s.get (ECN_PD.COMID n) && dataset.length == s.get (ECN_PD.LEN n)
      && (s.get (ECN_PD.SRC_IP n) == 0 || s.get (ECN_PD.SRC_IP n) == src)
      && (etb == 0 || etb == s.get ECN_ETB_TOPO.VALUE) && (optrn == 0 || optrn == s.get ECN_OPTRN_TOPO.VALUE)
      && SMap.find x.last src != some seq
    if !ok then .next (s.inc ECN_PD_REJ_CNT)
    else
      let s := s.setPd n { x with data := dataset, ticks := 0, ever := true, last := SMap.set x.last src seq }
      let s := ((s.put (ECN_PDST.STATE n) 2).put (ECN_PDST.SEQ n) seq).inc ECN_PD_RX_CNT
      .next (s.gwArrived 2 n)

/-- PD_SUBSCRIBER_TIMEOUT (R292): TMO local ticks without an acceptance. -/
def execPdSubscriberTimeout (t n : Nat) (s : State) : Result :=
  let s := s.at_ t
  if s.flag (ECN_PD.EN n) && !s.flag (ECN_PD.DIR n) && s.get (ECN_PDST.STATE n) != 3 && s.get (ECN_PD.CYCLE n) ≤ (s.pdOf n).ticks then
    .next ((s.put (ECN_PDST.STATE n) 3).inc ECN_PD_TMO_CNT)
  else .next s

/-! ### MVB (R297, R298) -/

/-- Whether the MVB interface answers (R298): used, and below stage 2. -/
def State.mvbOn (s : State) : Bool := s.flag GW_MVB_CFG.EN && s.get PWR_STAT.STAGE < 2

/-- GW_MVB_STAT.RUN follows. -/
def State.showMvb (s : State) : State := s.putIf GW_MVB_STAT.RUN s.mvbOn.toNat

/-- MVB_SINK_FRAME (R298): a slave frame for sink slot `n`, with what each line received; it is valid where the trusted line's
copy is, with the port's length. -/
def execMvbSinkFrame (t n : Nat) (data : List Byte) (okA okB : Bool) (s : State) : Result :=
  let s := s.at_ t
  if !s.mvbOn then .next s
  else
    let s := if okA then s.putIf GW_MVB_STAT.LINE_A_OK 1 else (s.putIf GW_MVB_STAT.LINE_A_OK 0).inc GW_MVB_ERRA_CNT
    let s := if okB then s.putIf GW_MVB_STAT.LINE_B_OK 1 else (s.putIf GW_MVB_STAT.LINE_B_OK 0).inc GW_MVB_ERRB_CNT
    let valid := (if s.flag GW_MVB_STAT.TRUSTED then okB else okA) && data.length == s.mvbLen n
    if !valid || !s.mvbUsed n || s.flag (GW_MVBP.DIR n) then .next s
    else
      let s := s.setMvb n ⟨data, some s.localNow, false⟩
      let s := ((s.put (GW_MVBS.FRESHNESS n) 0).putFlag (GW_MVBS.STALE n) false).inc GW_MVB_RX_CNT
      .next (s.gwArrived 3 n)

/-- A slave frame goes out, with the FORCED flag of its buffer (R120; assumption 163). -/
def State.mvbSend (s : State) (bs : List Byte) (forced : Bool) : State :=
  ({ s with gw := { s.gw with sentForced := forced } }).send 5 bs

/-- MVB_MASTER_FRAME (R298): a source port answers with its buffer, a PAIR port only from the claiming module. -/
def execMvbMasterFrame (t n : Nat) (s : State) : Result :=
  let s := s.at_ t
  if !s.mvbOn || !s.mvbUsed n || !s.flag (GW_MVBP.DIR n) || (s.flag (GW_MVBP.PAIR n) && !s.claiming) then .next s
  else
    match s.safeTxOn 2 n with
    | some k => match s.takeTele k with
      | (some bs, s) => .next ((s.mvbSend bs (s.flag CYC_STAT.FORCED)).inc GW_MVB_TX_CNT)
      | (none, s) => .next s
    | none => .next ((s.mvbSend (s.mvbOf n).data (s.mvbOf n).forced).inc GW_MVB_TX_CNT)

/-- MVB_STATUS_REQUEST (R297): answered with the device status word. -/
def execMvbStatusRequest (t : Nat) (s : State) : Result :=
  let s := s.at_ t
  if s.mvbOn then .next (s.send 5 (beBytes 2 (s.get GW_MVB_STAT.DSW))) else .next s

/-- MVB_SINK_STALE (R298): freshness beyond FRESH, judged at local tick edges. -/
def execMvbSinkStale (n : Nat) (s : State) : Result :=
  if s.mvbUsed n && !s.flag (GW_MVBP.DIR n) && !s.flag (GW_MVBS.STALE n) && s.mvbOld n then
    .next ((s.putFlag (GW_MVBS.STALE n) true).inc GW_MVB_FRESH_CNT)
  else .next s

/-- MVB_LINE_SWITCH (R297): the interface switches to the other line, which it now trusts. -/
def execMvbLineSwitch (toB : Bool) (s : State) : Result :=
  if !s.mvbOn || s.flag GW_MVB_STAT.TRUSTED == toB then .next s
  else .next ((s.putFlag GW_MVB_STAT.TRUSTED toB).inc GW_MVB_SWITCH_CNT)

/-- The source buffers that the gateway rewrites at a local tick edge, and the freshness it shows (R298). -/
def State.mvbTick (s : State) : State :=
  (List.range 256).foldl (fun s n =>
    if !s.mvbUsed n then s
    else if s.flag (GW_MVBP.DIR n) then
      if (s.safeTxOn 2 n).isSome then s
      else
        let (bs, s) := s.gwAssemble 3 n (s.mvbLen n) false
        s.setMvb n ⟨bs, none, s.flag CYC_STAT.FORCED⟩
    else match (s.mvbOf n).since with
      | some a => s.put (GW_MVBS.FRESHNESS n) (min 0xFFFF ((s.localNow - a) / 1000000))
      | none => s) s

/-! ### Signal map (R302, R307, R308) -/

/-- GW_MAP_SWAP (R307): the last write before an edge stays in force. -/
def execGwMapSwap (t : Nat) (who : Initiator) (bank : Bool) (s : State) : Result :=
  match (s.at_ t).gate who GW_MAP_SWAP.BANK.addr false true with
  | (s, true) => .next (({ s with gw := { s.gw with swapTo := bank.toNat } }).putFlag GW_MAP_STAT.SWAP_PEND true)
  | (s, false) => .next s

/-- The swap at a local tick edge (R307): every entry of the new bank takes the present value of its source at once. -/
def State.gwSwap (s : State) : State :=
  if !s.flag GW_MAP_STAT.SWAP_PEND then s
  else
    let s := s.putFlag GW_MAP_STAT.SWAP_PEND false
    if s.get GW_MAP_STAT.ACTIVE == s.gw.swapTo then s
    else
      let s := (({ s with gw := { s.gw with scan := true } }).put GW_MAP_STAT.ACTIVE s.gw.swapTo).inc GW_SWAP_CNT
      s.gwEntries.foldl (fun s (p : Nat × GwEntry) => s.gwToImage p.1 p.2) s

/-- MAP_SCAN_DONE (R308): the used entries of the new bank that it finds faulty, counted, and the lowest of them. -/
def execMapScanDone (t : Nat) (s : State) : Result :=
  let s := s.at_ t
  if !s.gw.scan then .next s
  else
    let b := s.get GW_MAP_STAT.ACTIVE
    let bad := (s.gwListed b).filter (fun e => (s.gwEntry b e).used && !s.gwOk (s.gwEntry b e))
    let s := { s with gw := { s.gw with scan := false } }
    .next (((s.add GW_MAP_ERR_CNT bad.length).putFlag GW_STAT.ERR (!bad.isEmpty)).put GW_STAT.ERR_IDX (bad.headD 0))

/-- GW_ENTRY_STALE (R302): entry `e` of the active bank follows its source into STALE. -/
def execGwEntryStale (t e : Nat) (s : State) : Result :=
  let s := s.at_ t
  match s.gwEntries.find? (fun (p : Nat × GwEntry) => p.1 == e) with
  | some p => .next (s.gwMark e p.2)
  | none => .next s

end Sys2Proof.Machine
end

