-- ==== Sys2Proof/Machine/LaneTx.lean ====
section
/-! DEFINITION. Machine/LaneTx.lean: the module's own scheduled frames and the switch at M (R248, R251, R254, R259 to R262,
R268, R276, R278, R305, R439). -/
namespace Sys2Proof.Machine
open Reg

/-- The current limit that axis `n`'s setpoint carries (R160): of the governing set while it runs, its hold limit while
enabled at rest, 0 at standstill. -/
def State.setLimit (s : State) (n : Nat) : Nat :=
  let m := s.mx n
  if !m.legs.isEmpty || s.homing n then s.get (MOT_SET.ILIM m.set)
  else if m.enable then s.get (MOT_SET.ILIM_HOLD m.set)
  else 0

/-- The axes of node `d` that get a setpoint (R175, R187): homed, homing, or stopped in a homing that did not succeed. -/
def State.setAxes (s : State) (d : Nat) : List Nat :=
  (s.nodeAxes d).filter (fun n => s.flag (MOT_AS.HOMED n) || s.homing n
    || ((s.mx n).hdir != 0 && (s.get (MOT_AS.MSTATE n) == 3 || s.get (MOT_AS.MSTATE n) == 4)))

/-- The record of axis `n` in a SETPOINT frame (R159, R254). -/
def State.setRecord (s : State) (n : Nat) : List Byte :=
  let m := s.mx n
  beBytes 1 (s.get (AX_CFG.CH n)) ++ beBytes 1 (m.enable.toNat + 2 * (!m.enable && m.short).toNat + 4 * (s.homing n).toNat)
    ++ beBytes 2 (s.setLimit n) ++ beBytes 4 (ofSigned 32 ((s.setpoint n).1 - s.getS (MOT_AS.OFFSET n)))
    ++ beBytes 4 (ofSigned 32 (s.setpoint n).2) ++ beBytes 4 0

/-- The SETPOINT payload for node `d` (R254). -/
def State.setPayload (s : State) (d : Nat) : List Byte :=
  let axes := (s.setAxes d).take 8
  beBytes 4 (axes.length * 2 ^ 24) ++ axes.flatMap s.setRecord

/-- SETPOS and SETVEL show what was sent. -/
def State.showSent (s : State) (d : Nat) : State :=
  ((s.setAxes d).take 8).foldl (fun s n => (s.putS (MOT_AS.SETPOS n) (s.setpoint n).1).putS (MOT_AS.SETVEL n) (s.setpoint n).2) s

/-- OWN of this module's STATUS (R439). -/
def State.own (s : State) : Nat :=
  let st := (s.table.slot s.runSlot).state
  s.get UPD_RUN_ID.ID % 2 ^ 24 * 256 + (st == 2).toNat + 2 * (st == 3).toNat + 4 * s.get UPD_STAT.DEFER

/-- This module's STATUS payload on lane `l` (R276, R439): RESTART is the module's boot count (assumption 62). -/
def State.statusPayload (s : State) (l : Nat) : List Byte :=
  let md := s.lanes.mode
  let op := if s.amCoord then md.op else 0
  beBytes 1 (s.get LANE_VER.OWN_MIN + 16 * s.get LANE_VER.OWN_MAX) ++ beBytes 1 (s.laneState l) ++ beBytes 2 (s.get UPD_BOOT_CNT)
    ++ beBytes 2 (if md.answer = 0 then 0 else md.annCid) ++ beBytes 4 (if md.answer = 0 then 0 else md.annM) ++ beBytes 1 md.answer ++ beBytes 1 0
    ++ beBytes 4 s.own ++ beBytes 1 op ++ beBytes 1 0
    ++ (if op = 0 then beBytes 14 0 else beBytes 2 md.cid ++ beBytes 4 md.m ++ beBytes 8 (if md.actId = 0 then 0 else md.actId))

/-- Whether this module sends in an entry of SENDER `sender` on lane `l` (R259, R260, R268). -/
def State.mySender (s : State) (l sender : Nat) : Bool :=
  if sender == 0xFF then s.flag (LANE_STAT.MASTER l)
  else if sender == 0xFE then s.claiming && s.isPair l s.node
  else sender == s.node

/-- Wire time in ns of the payload of an entry (R262). -/
def entryWire (len : Nat) : Nat := 8 * max 84 (len + 54)

/-- One used cadence entry (R258): number, tick, offset in ns, sender, kind, payload bytes. -/
structure CadEntry where
  num : Nat
  tick : Nat
  ofs : Nat
  sender : Nat
  kind : Nat
  len : Nat
  deriving DecidableEq, Repr

/-- The used entries of a table. -/
def State.cadEntries (s : State) (b l : Nat) : List CadEntry :=
  ((s.cadListed b l).map (fun e =>
    let w := s.cadWord b l e 0
    (⟨e, bitsOf w 0 6, 8 * bitsOf w 6 13, bitsOf w 19 8, bitsOf w 28 3, bitsOf (s.cadWord b l e 1) 0 11⟩ : CadEntry))).filter
    (fun (x : CadEntry) => x.kind != 0)

/-- The place on a line of the node that sends in entries of SENDER `sender`, where `pair` sends for PAIR and `master` is the master. -/
def senderPlace (line : List Nat) (pair master sender : Nat) : Option Nat :=
  line.idxOf? (if sender == 0xFE then pair else if sender == 0xFF then master else sender)

/-- The lane tick in which an entry's frame begins to cross link `i` of a line, between nodes `i` and `i + 1`, in direction `up` (towards
the first node); none where it does not cross it (R262). -/
def crossTick (line : List Nat) (pair master : Nat) (up : Bool) (i : Nat) (x : CadEntry) : Option Nat :=
  match senderPlace line pair master x.sender with
  | none => none
  | some p =>
    if (up && i < p) || (!up && p ≤ i) then
      let hops := if up then p - i - 1 else i - p
      some ((x.tick * tickNs + x.ofs + 1290 * hops) / tickNs % macroTicks)
    else none

/-- Whether the frames whose crossing of some link of a line begins in lane tick `tick` take more than 43.75 µs of a direction (R262). -/
def linkOver (l : List CadEntry) (line : List Nat) (pair master tick : Nat) : Bool :=
  (List.range (line.length - 1)).any (fun i => [true, false].any (fun up =>
    43750 < ((l.filter (fun x => crossTick line pair master up i x == some tick)).map (fun x => entryWire x.len)).foldl (· + ·) 0))

/-- The nodes of lane `l` in the order of the line; where no image has recorded it, this node and its neighbour (assumption 65). -/
def State.line (s : State) (l : Nat) : List Nat :=
  match s.lanes.hops.getD l [] with
  | [] => [s.node, 0]
  | h => h

/-- Whether the active table of lane `l` exceeds the express reserve on some link in a lane tick (R57, R262). -/
def State.overReserve (s : State) (l tick : Nat) : Bool :=
  let p := s.pairNode l
  let pair := if s.isPair l s.node && s.claiming then s.node else if s.isPair l s.node && s.node == p then p + 1 else p
  linkOver (s.cadEntries (s.get (LANE_STAT.BANK l)) l) (s.line l) pair (s.get (LANE_STAT.MASTER_ID l)) tick

/-- A frame of this module goes out on lane `l`: counted, and counted again where it waits for a forwarded frame (R248). -/
def State.laneSend (s : State) (l stream : Nat) (frame : List Byte) : State :=
  let wait := (s.portsUp l).any (fun dn => s.ownWaits l dn s.localNow)
  let s := (s.laneOut l stream frame).inc (LANE_TX_CNT l)
  if wait then s.inc (LANE_TXWAIT_CNT l) else s

/-- The content of this module's frame in entry `e` of lane `l`: frame kind, STALE, AGE and payload; none where it stays
silent (R160, R193, R254, R261, R273, R276, R305). The master's own SYNC ends FREEWHEEL (R284). -/
def State.laneContent (s : State) (l e kind : Nat) : Option (Nat × Bool × Nat × List Byte) × State :=
  let b := s.get (LANE_STAT.BANK l)
  match kind with
  | 1 => (some (0, false, 0, syncPayload s.laneNow), s.laneFwEnd)
  | 2 =>
    let m := bitsOf (s.cadWord b l e 1) 16 16 % 512
    let ws := s.gwWriters 1 m
    let stale := ws.any s.gwStaleNow
    let age := min 255 ((ws.map s.gwAge).foldl max 0)
    match s.txPayload 1 m (bitsOf (s.cadWord b l e 1) 0 11) with
    | (none, s) => (none, s)
    | (some data, s) => (some (1, stale, age, data), s)
  | 3 =>
    let d := bitsOf (s.cadWord b l e 2) 8 8
    if !s.claiming || !s.flag TIME_STAT.LANE_SYNC then (none, s)
    else (some (2, false, 0, s.setPayload d), s.showSent d)
  | 5 => (some (4, false, 0, s.statusPayload l), s.setLn l { s.ln l with statusSent := true })
  | _ => (none, s)

/-- SCHEDULED_FRAME_TX (R248, R259, R268, R270, R272, R279): entry `entry` of lane `lane` has come to its offset in its lane tick, and
is sent once in it. SYNC goes out from the master, the others from the first macrocycle boundary after SYNCED, and none while the node
is uncertain. -/
def execScheduledFrameTx (t lane entry : Nat) (s : State) : Result :=
  let s := s.at_ t
  let w0 := s.cadWord (s.get (LANE_STAT.BANK lane)) lane entry 0
  let kind := bitsOf w0 28 3
  let x := s.ln lane
  let may := s.laneSynced lane && s.linked lane != 0 && bitsOf w0 0 6 == s.lanes.tick % 64 && s.mySender lane (bitsOf w0 19 8)
    && (kind == 1 || (x.sends && !x.uncertain)) && 8 * bitsOf w0 6 13 ≤ s.laneNow % tickNs && !x.sent.contains entry
  if !may then .next s
  else if s.overReserve lane (bitsOf w0 0 6) then .fault .expressReserve
  else match (s.setLn lane { x with sent := entry :: x.sent }).laneContent lane entry kind with
    | (none, s) => .next s
    | (some (k, stale, age, data), s) =>
      .next (s.laneSend lane (bitsOf (s.cadWord (s.get (LANE_STAT.BANK lane)) lane entry 1) 16 16)
        (s.laneFrame lane false k entry age stale (bitOf w0 27) data))

/-- BANK_SWITCH (R278, R437, R438, R440): at tick 0 of M a committed node takes the new bank on both lanes, or activates. -/
def execBankSwitch (t : Nat) (s : State) : Result :=
  let s := s.at_ t
  let md := s.lanes.mode
  if !md.committed || s.macro_ != md.annM || s.lanes.tick % 64 != 0 then .next s
  else if s.flag LANE_MODE.ACT then
    let go := md.answer == 2 && s.holdsImage md.annAct
    let s := s.endMode
    .next (if go then s.activateAt s.claiming else s.endLaneAct)
  else
    let s := [0, 1].foldl (fun (s : State) l =>
      match s.bankOf l md.annCid with
      | some b => (s.put (LANE_STAT.BANK l) b).putCid l md.annCid
      | none => s) s
    .next s.endMode

end Sys2Proof.Machine
end

