-- ==== Sys2Proof/Machine/Accept.lean ====
section
/-! DEFINITION. Machine/Accept.lean: the acceptance checks on a loaded Orchard image (R222, R262, R263, R308, R341, R409, R429). -/
namespace Sys2Proof.Machine
open Reg

/-! ### Cadence tables (R258, R259, R262, R263, R341) -/

/-- The banks and lanes whose tables hold an entry. -/
def State.cadTables (s : State) : List (Nat × Nat) :=
  [(0, 0), (0, 1), (1, 0), (1, 1)].filter (fun (t : Nat × Nat) => !(s.cadListed t.1 t.2).isEmpty)

/-- The nodes that may be master on a line: any, as the lowest in SYNCED is (R272). -/
def masters (l : List CadEntry) (line : List Nat) : List Nat := if l.any (fun x => x.sender == 0xFF) then line else [0]

/-- Check 0x3 on one table (R262): some lane tick, link and direction takes more than 43.75 µs, whichever of the pair claims and
whichever node is master. Spare entries count. -/
def reserveBad (l : List CadEntry) (line : List Nat) (p : Nat) : Bool :=
  [p, p + 1].any (fun pair => (masters l line).any (fun m => (List.range 64).any (fun tick => linkOver l line pair m tick)))

/-- When a FEEDBACK entry has completed its crossings to node `dest`, in ns after its boundary (R18, R263): 1.29 µs for every hop before the
last, 1.2 µs for the last link, and its wire time. -/
def arrivesAt (line : List Nat) (x : CadEntry) (dest : Nat) : Nat :=
  let hops := match line.idxOf? x.sender, line.idxOf? dest with
    | some p, some q => (p - q) + (q - p)
    | _, _ => 0
  x.ofs + (if hops = 0 then 0 else 1290 * (hops - 1) + 1200) + entryWire x.len

/-- Check 0x4 on one table (R259, R263); the modules of the pair consume feedback, or this one where there is no pair. -/
def State.timingBad (s : State) (l : List CadEntry) (line : List Nat) (p : Nat) : Bool :=
  let fb := 8 * s.get LANE_DOOR.FB_DL
  let t0 := fun (x : CadEntry) => x.tick * tickNs + x.ofs
  let laps := fun (x y : CadEntry) => decide ((t0 y + macroTicks * tickNs - t0 x) % (macroTicks * tickNs) < entryWire x.len)
  let users := if p = 0 then [s.node] else [p, p + 1]
  l.any (fun x =>
    (x.kind == 3 && x.ofs < fb + 7500) || (x.kind == 4 && users.any (fun n => fb < arrivesAt line x n))
      || (x.sender == 0xFF && !(x.num < 64 && x.tick == x.num && x.ofs == 0 && x.kind == 1))
      || l.any (fun y => y.num != x.num && y.sender == x.sender && (laps x y || laps y x)))

/-- Check 0x5 on one table (R341): a bank with a twin pair gives PAIR an entry in every tick. -/
def State.pairBad (s : State) (b l : Nat) : Bool :=
  bitsOf (s.cadHeader b l) 16 8 != 0
    && (List.range 64).any (fun t => !(s.cadEntries b l).any (fun (x : CadEntry) => x.tick == t && x.sender == 0xFE))

/-- Whether the headers of the banks name different pairs (R263). -/
def State.pairsDiffer (s : State) : Bool :=
  let p := fun b l => bitsOf (s.cadHeader b l) 16 8
  p 0 1 != p 0 0 || p 1 0 != p 0 0 || p 1 1 != p 0 0

/-- Whether the personality table gives the twin modules other node IDs than P and P + 1 (R263, R480). -/
def State.personalityBad (s : State) : Bool :=
  let p := bitsOf (s.cadHeader 0 0) 16 8
  let nodes := s.boot.personalities.flatMap (fun (x : Nat × List (Nat × BitVec 32)) =>
    (x.2.filter (fun w => w.1 == LANE_CFG.NODE.addr)).map (fun w => bitsOf w.2.toNat LANE_CFG.NODE.lo LANE_CFG.NODE.width))
  p != 0 && !nodes.isEmpty && !(nodes.contains p && nodes.contains (p + 1))

/-! ### Other checks -/

/-- Check 0x6 (R222): a session's LEN fits its transport. -/
def State.safeLenBad (s : State) : Bool :=
  (List.range 128).any (fun n => s.flag (SAFE_S.EN n) &&
    match s.get (SAFE_S.TRANS n) with
    | 0 => s.streamLen (s.get (SAFE_S.TIDX n)) < 20 + s.get (SAFE_S.LEN n)
    | 2 => 12 < s.get (SAFE_S.LEN n)
    | _ => 480 < s.get (SAFE_S.LEN n))

/-- Check 0x7 (R308), on both banks. -/
def State.mapBad (s : State) : Bool :=
  [0, 1].any (fun b => (s.gwListed b).any (fun e => (s.gwEntry b e).used && !s.gwOk (s.gwEntry b e)))

/-- Check 0x8 (R409): the present SUP_IN, in 0.1 V, lies outside 0.70 Un to 1.25 Un. -/
def State.voltageBad (s : State) (sup : Nat) : Bool :=
  let un := unOf (s.get PWR_CFG.UN)
  10 * sup < 7 * un || 5 * un < 4 * sup

/-- Whether `n` bytes at an offset do not lie within an image of `len` bytes or are not aligned. -/
def areaBad (ofs n align len : Nat) : Bool := len < ofs + n || ofs % align != 0

/-- Check 0x9: the areas of CYC, DOOR, MOT, TRIP, DIO, LOOP, GW and TWIN. -/
def State.areasBad (s : State) : Bool :=
  let i := s.get CYC_IMG.IN_LEN
  let o := s.get CYC_IMG.OUT_LEN
  i < 64 || 32768 < i || i % 8 != 0 || 32768 < o || o % 8 != 0
    || areaBad (s.get DOOR_CFG.STAT_OFF) (4 * s.get DOOR_CFG.NAXES) 8 i
    || areaBad (s.get DOOR_IMG.CMD_OFF) 96 8 o || areaBad (s.get DOOR_IMG.REL_OFF) 2 2 o
    || areaBad (s.get MOT_CFG.CMD_OFF) 256 8 o || areaBad (s.get MOT_CFG.ST_OFF) 416 8 i
    || areaBad (s.get TRIP_CFG.PRG_OFF) 16 8 o || areaBad (s.get TRIP_CFG.IMG_OFF) 80 8 i
    || areaBad (s.get DIO_CFG.OUT_OFF) 8 8 o || areaBad (s.get DIO_CFG.IN_OFF) 24 8 i
    || areaBad (s.get LOOP_CFG.OUT_OFF) 8 8 o || areaBad (s.get LOOP_CFG.IN_OFF) 16 8 i
    || (s.flag GW_CFG.STAT_EN && areaBad (s.get GW_CFG.STAT_OFF) 1536 8 i)
    || areaBad (s.get TWIN_CFG.IMG_OFF) 16 8 i

/-- The first refusal code that slot `n`'s images meet once they are loaded, in the order of R426; 0: none. The firmware runs the formats from
`img.orchMin` to `img.orchMax` (R435). -/
def State.acceptCode (s : State) (n : Nat) (img : SlotImage) (sup : Nat) : Nat :=
  let fmt := imgFmt (s.slotOrch n)
  let t := s.cadTables
  let ents := fun (x : Nat × Nat) => s.cadEntries x.1 x.2
  let pair := fun (x : Nat × Nat) => bitsOf (s.cadHeader x.1 x.2) 16 8
  if !s.imageValid (s.slotFw n) 2 img.fwSig || !s.imageValid (s.slotOrch n) 3 img.orchSig then 1
  else if imgBaseId (s.slotOrch n) != imgId (s.slotFw n) then 10
  else if fmt < img.orchMin || img.orchMax < fmt then 2
  else if t.any (fun x => reserveBad (ents x) (s.line x.2) (pair x)) then 3
  else if t.any (fun x => s.timingBad (ents x) (s.line x.2) (pair x)) || s.pairsDiffer || s.personalityBad then 4
  else if [0, 1].any (fun b => [0, 1].any (s.pairBad b)) then 5
  else if s.safeLenBad then 6
  else if s.mapBad then 7
  else if s.voltageBad sup then 8
  else if s.areasBad then 9
  else 0

end Sys2Proof.Machine
end

