-- ==== Sys2Proof/Machine/Access.lean ====
section
/-! DEFINITION. Machine/Access.lean: the physical map, the rights to its MEMORY regions, and loads, stores, AMOs and LR/SC there
(R23, R25, R28, R30, R35, R36, R57, R59). -/
namespace Sys2Proof.Machine

/-! ### The physical map (R23) -/

/-- The regions of the physical map. -/
inductive Region where
  | bootRom | tcmAlias | sram | mmio | table | rack | dram | part (n : Nat) | dramAlias
  deriving DecidableEq, Repr

/-- The region that covers an address; none where no row does, and in the gap above the last MMIO block. -/
def regionOf (a : Nat) : Option Region :=
  if a < 0x10000 then some .bootRom
  else if 0x08000000 ≤ a && a < 0x08080000 then some .tcmAlias
  else if 0x10000000 ≤ a && a < 0x10400000 then some .sram
  else if 0x20000000 ≤ a && a < 0x20160000 then some .mmio
  else if 0x21000000 ≤ a && a < 0x21400000 then some .table
  else if 0x40000000 ≤ a && a < 0x80000000 then some .rack
  else if 0x80000000 ≤ a && a < 0x100000000 then some .dram
  else if 0x100000000 ≤ a && a < 0x160000000 then some (.part ((a - 0x100000000) / 0x20000000))
  else if 0x180000000 ≤ a && a < 0x1A0000000 then some .dramAlias
  else none

/-- The region that covers all of `n` bytes from `a` (R23). -/
def regionAt (a n : Nat) : Option Region := if regionOf a == regionOf (a + (n - 1)) then regionOf a else none

/-- Whether a region is MEMORY (R23). -/
def Region.isMemory : Region → Bool
  | .mmio | .table | .rack => false
  | _ => true

/-- The right of R35 to a MEMORY region; `core` is the accessing Tricycle core. -/
def memRight (who : Initiator) (core : Option Nat) (store : Bool) : Region → Bool
  | .bootRom => !store
  | .tcmAlias | .dramAlias => who == .tri
  | .sram => !store || who != .tri
  | .dram => who != .tri
  | .part n => who == .boot || (who == .tri && core == some n)
  | _ => true

/-- The size of an access that a core makes to MEMORY. -/
def memSize (n : Nat) : Bool := n == 1 || n == 2 || n == 4 || n == 8

/-- Where core `n` finds an address of MEMORY: its own TCM and partition at the private aliases (R25), else the address itself. -/
def coreAddr (n a : Nat) : Nat :=
  match regionOf a with
  | some .tcmAlias => tcmBase n + (a - 0x08000000)
  | some .dramAlias => partBase n + (a - 0x180000000)
  | _ => a

/-- Where the program image names memory that the boot supervisor loads (R59): one image for all three Tricycle cores at the private
aliases; tables, shared SRAM and service DRAM at their own addresses. -/
def imageAddrs (a n : Nat) : List Nat :=
  match regionAt a n with
  | some .tcmAlias | some .dramAlias => [coreAddr 0 a, coreAddr 1 a, coreAddr 2 a]
  | some .sram | some .table | some .dram => [a]
  | _ => []

/-! ### Loads and stores in MEMORY (R28, R30) -/

/-- What a load gave its initiator. -/
def State.gave (s : State) (who : Initiator) (v : Nat) : State := { s with popped := SMap.set s.popped who.idx v }

/-- The byte address of MEMORY that an access at `a` reads: in the first participating core at a private alias. -/
def State.homeAddr (s : State) (a : Nat) : Nat := coreAddr (s.parts.headD 0) a

/-- The start of the reservation set of an address (R30): 64 bytes. -/
def resvSet (a : Nat) : Nat := a / 64 * 64

/-- Another initiator's store ends the reservations whose set it touches. -/
def State.dropResv (s : State) (who : Option Initiator) (a n : Nat) : State :=
  { s with resv := s.resv.filter (fun (p : Nat × (Nat × List Byte)) =>
      some p.1 == who.map Initiator.idx || !(p.2.1 < a + n && a < p.2.1 + 64)) }

/-- A performed store of `n` bytes to MEMORY (R25, R30). -/
def State.memStore (s : State) (who : Initiator) (a n v : Nat) : State := (s.dropResv (some who) a n).store a n v

/-- The value of `n` bytes of MEMORY. -/
def State.memLoad (s : State) (a n : Nat) : Nat := s.load (s.homeAddr a) n

/-- A store of Tricycle core `k` to MEMORY (R35, R36, R62, R67, R91): into its output image region it is folded. -/
def State.coreStore (s : State) (k : Nat) (r : Region) (a n v : Nat) : State :=
  if !memSize n || !memRight .tri (some k) true r then s.coreTrap k true a
  else if r == .tcmAlias && 0x08070000 ≤ a then s.imageStore k (a - 0x08070000) n v
  else s.memStore .tri (coreAddr k a) n v

/-- The Tricycle cores that make an access of the voted Tricycle: those that participate and execute. -/
def State.triCores (s : State) : List Nat := s.parts.filter s.executes

/-- Whether a store to MEMORY is the undefined case of R57: the boot supervisor in the partition of a core that runs. -/
def State.runsOver (s : State) (who : Initiator) : Region → Bool
  | .part n => who == .boot && (s.core n).st == .run
  | _ => false

/-- A store to a MEMORY region (R35, R36, R57); each core of the voted Tricycle makes it in its own memory. -/
def State.storeAt (s : State) (who : Initiator) (r : Region) (a n v : Nat) : Result :=
  if who == .tri then .next (s.triCores.foldl (fun (s : State) k => s.coreStore k r a n v) s)
  else if !memSize n || !memRight who none true r then .next (s.trap who true a)
  else if s.runsOver who r then .fault .runningCoreMemory
  else .next (s.memStore who a n v)

/-! ### AMOs and LR/SC in MEMORY (R30) -/

/-- The word an AMO writes. -/
def amoWord {w : Nat} (op : AmoOp) (old new : BitVec w) : BitVec w :=
  match op with
  | .swap => new
  | .add => old + new
  | .xor => old ^^^ new
  | .and => old &&& new
  | .or => old ||| new
  | .min => if old.slt new then old else new
  | .max => if old.slt new then new else old
  | .minu => if old.ult new then old else new
  | .maxu => if old.ult new then new else old

/-- The value an AMO of `n` bytes writes over `old`. -/
def amoValue (op : AmoOp) (n old : Nat) (d : BitVec 64) : Nat :=
  if n = 4 then (amoWord op (BitVec.ofNat 32 old) (d.setWidth 32)).toNat else (amoWord op (BitVec.ofNat 64 old) d).toNat

/-- Whether the reservation of an initiator still covers `a` (R30): nobody else has stored to its set, and its bytes stand. -/
def State.reserved (s : State) (who : Initiator) (a : Nat) : Bool :=
  match SMap.find s.resv who.idx with
  | some p => p.1 == resvSet a && s.bytes (s.homeAddr p.1) 64 == p.2
  | none => false

/-- What an initiator's latest AMO, LR, SC or access to a rack window gave. -/
def State.accDone (s : State) (who : Initiator) (r : RackRes) : State := { s with brg := { s.brg with res := SMap.set s.brg.res who.idx r } }

/-- A reservation set is registered (R30). -/
def State.reserve (s : State) (who : Initiator) (a : Nat) : State :=
  { s with resv := SMap.set s.resv who.idx (resvSet a, s.bytes (s.homeAddr (resvSet a)) 64) }

/-- An AMO, LR or SC that the initiator has the right to make: `put` performs its store of a value that the old one gives. -/
def State.lockPerform (s : State) (who : Initiator) (a n : Nat) (acc : LockAcc) (put : (Nat → Nat) → State → State) : State :=
  match acc with
  | .lr => (s.reserve who a).accDone who (.value (s.memLoad a n))
  | .amo op d => (put (fun old => amoValue op n old d) s).accDone who (.value (s.memLoad a n))
  | .sc d =>
    let t := { s with resv := SMap.erase s.resv who.idx }
    if s.reserved who a then (put (fun _ => d.toNat % 2 ^ (8 * n)) t).accDone who .scOk else t.accDone who .scFail

/-- An AMO, LR or SC of `n` bytes in a MEMORY region (R28, R30, R35, R36). Of the voted Tricycle each core makes it in its own memory, and
a core without the right faults (R62). -/
def State.lockAt (s : State) (who : Initiator) (r : Region) (a n : Nat) (acc : LockAcc) : Result :=
  let store := acc != .lr
  if !(n == 4 || n == 8) || a % n != 0 then .next ((s.trap who store a).accDone who .fault)
  else if who == .tri then
    let ok := s.triCores.filter (fun k => memRight .tri (some k) store r)
    let s := (s.triCores.filter (fun k => !ok.contains k)).foldl (fun (s : State) k => s.coreTrap k store a) s
    if ok.isEmpty then .next (s.accDone who .fault)
    else .next (s.lockPerform who a n acc (fun f s => ok.foldl (fun (s : State) k => s.coreStore k r a n (f (s.load (coreAddr k a) n))) s))
  else if !memRight who none store r then .next ((s.trap who store a).accDone who .fault)
  else if store && s.runsOver who r then .fault .runningCoreMemory
  else .next (s.lockPerform who a n acc (fun f s => s.memStore who a n (f (s.memLoad a n))))

end Sys2Proof.Machine
end

