-- ==== Sys2Proof/Machine/Pannier.lean ====
section
/-! DEFINITION. Machine/Pannier.lean: twin-link frames of this module, the Pannier's build and application, the twin area and
READY (R336, R345, R352 to R358). -/
namespace Sys2Proof.Machine
open Reg

/-- A twin-link frame: TYPE, protocol version, payload length, payload, and the CRC-32C over all of them, whose bytes stand most
significant first as the header's do (R336; assumption 171). -/
def State.twinFrame (s : State) (typ : Nat) (payload : List Byte) : List Byte :=
  let neg := s.get TWIN_VER.LINK_NEG
  let f := beBytes 1 typ ++ beBytes 1 (if neg = 0 then s.get TWIN_VER.LINK_MAX else neg) ++ beBytes 2 payload.length ++ payload
  f ++ beBytes 4 (crc32c f)

/-- A frame sent on the twin link while it is up (R336). -/
def State.twinSend (s : State) (typ : Nat) (payload : List Byte) : State :=
  if s.flag TWIN_STAT.LINK then s.send 2 (s.twinFrame typ payload) else s

/-- HELLO (R336, R337): versions, serial number, pair unique ID. -/
def State.helloSend (s : State) : State :=
  let two := fun lo hi => beBytes 1 (lo + 16 * hi)
  let s := s.twinSend 1 (two (s.get TWIN_VER.LINK_MIN) (s.get TWIN_VER.LINK_MAX) ++ two (s.get TWIN_VER.PAN_MIN) (s.get TWIN_VER.PAN_MAX)
    ++ two (s.get UPD_VER.ORCH_MIN) (s.get UPD_VER.ORCH_MAX) ++ beBytes 1 0 ++ beBytes 8 (s.get TWIN_SERIAL.SERIAL)
    ++ beBytes 1 0 ++ beBytes 3 (s.get SAFE_PUID.UID))
  { s with twin := { s.twin with helloTicks := 0 } }

/-- HEARTBEAT payload (R345). -/
def State.heartbeat (s : State) : List Byte :=
  let flags := (s.get SYS_STAT.MODE == 4).toNat + 2 * s.get TWIN_STAT.YIELD + 4 * s.get TWIN_STAT.READY + 8 * s.still.toNat
    + 16 * s.get TIME_STAT.LANE_SYNC
  beBytes 4 s.ownClaim ++ beBytes 8 (s.get TWIN_SERIAL.SERIAL) ++ beBytes 1 (s.get SYS_STAT.MODE) ++ beBytes 1 flags
    ++ beBytes 2 (s.get TWIN_EPOCH.EPOCH) ++ beBytes 1 s.grade ++ beBytes 1 (s.get TWIN_STAT.SYNC) ++ beBytes 2 0
    ++ beBytes 4 (s.get CYC_CYCLE_CNT) ++ beBytes 4 (if s.claiming then s.get TWIN_PANP.TX_SEQ else s.get TWIN_PANP.APPLIED)
    ++ beBytes 4 (s.get SAFE_PUID.UID)

/-- READY (R358). -/
def State.showReady (s : State) : State :=
  s.putIf TWIN_STAT.READY (s.get TWIN_STAT.SYNC == 2 && s.flag TWIN_STAT.PAN_MATCH
    && s.twin.sinceApply ≤ atLeast1 (s.get TWIN_CTRL.PAN_AGE)).toNat

/-- The twin area of the input image (R356). -/
def State.twinArea (s : State) : List Byte :=
  let bits := s.get TWIN_STAT.PAIRED + 2 * s.get TWIN_STAT.READY + 4 * s.get TWIN_STAT.PAN_MATCH + 8 * s.get TWIN_STAT.ALONE
    + 16 * (s.get TWIN_STAT.PMODE == 4).toNat + 32 * s.twin.taken.toNat
  leBytes 1 (s.get TWIN_STAT.ROLE) ++ leBytes 1 bits ++ leBytes 2 s.twin.sinceApply ++ leBytes 4 s.ownClaim
    ++ leBytes 4 (s.get TWIN_PCLAIM.CLAIM) ++ leBytes 4 (s.get TWIN_PANP.APPLIED)

/-- The twin area written at an edge at which it changes (R356). -/
def State.twinAreaTick (s : State) : State :=
  let a := s.twinArea
  if a == s.twin.area then s
  else ({ s with twin := { s.twin with area := a } }).liveWrite (s.get TWIN_CFG.IMG_OFF) a

/-- Transmit buffer of the Pannier (R352). -/
def panTxBase : Nat := 0x10040000

/-- Receive buffer `b` of the Pannier (R354). -/
def panRxBase (b : Nat) : Nat := 0x10050000 + b * 0x10000

/-- PLEN in bytes (TWIN_PAN). -/
def State.panLen (s : State) : Nat := 8 * min (s.get TWIN_PAN.LEN) 7679

/-- Start of the Pannier region in core `n`'s TCM (R352). -/
def State.panRegion (s : State) (n : Nat) : Nat := tcmBase n + 8 * s.get TWIN_PAN.OFF

/-- CRC-64/ECMA-182 (R69). -/
def crc64 (bs : List Byte) : Nat := crcBytesM 64 0x42F0E1EBA9EA3693 0 bs

/-- Axis `n` is driven by a node, not by a step and direction output of the module (R188). -/
def State.nodeAxis (s : State) (n : Nat) : Bool := (s.pulseOf n).isNone

/-- The PAIR TX safe sessions, and the PAIR publishers. -/
def State.pairTx (s : State) (n : Nat) : Bool := s.flag (SAFE_S.EN n) && s.isTx n && s.flag (SAFE_S.PAIR n)
def State.pairPd (s : State) (n : Nat) : Bool := s.flag (ECN_PD.EN n) && s.flag (ECN_PD.DIR n) && s.flag (ECN_PD.PAIR n)

/-- Header and system section of the Pannier (R353). -/
def State.panHeader (s : State) (seq : Nat) : List (Nat × List Byte) :=
  let homed := (List.range 96).foldl (fun v n => if s.nodeAxis n && s.flag (MOT_AS.HOMED n) then v + 2 ^ n else v) 0
  [(0x00, leBytes 4 seq), (0x04, leBytes 1 (s.get TWIN_VER.PAN_NEG)), (0x08, leBytes 8 s.twin.layoutId),
    (0x10, leBytes 8 (s.get CYC_PROG_ID.ID)), (0x18, leBytes 4 s.cyc.graftGen), (0x1C, leBytes 4 (s.get CYC_CYCLE_CNT)),
    (0x20, leBytes 4 s.ownClaim), (0x24, leBytes 4 s.panLen), (0x40, leBytes 4 (s.trip.seq + 2 ^ 32 - 1)),
    (0x44, leBytes 12 homed), (0x50, (List.range 96).flatMap (fun n => leBytes 4 (s.get (MOT_AS.OFFSET n)))),
    (0x1D0, (List.range 128).flatMap (fun n => leBytes 4 (if s.pairTx n then s.get (SAFE_T.SEQ n) else 0))),
    (0x3D0, (List.range 512).flatMap (fun n => leBytes 4 (if s.pairPd n then (s.pdOf n).seq else 0)))]

/-- The Pannier with number `q` starts its transmission (R336, R353): its fragments of up to 1,024 bytes go out one after the other. -/
def State.panStart (s : State) (q : Nat) : State :=
  let total := 0x1000 + s.panLen + 8
  let s := { s with twin := { s.twin with sending := some q } }
  (List.range ((total + 1023) / 1024)).foldl (fun s k =>
    s.twinSend 3 (beBytes 4 q ++ beBytes 4 (1024 * k) ++ beBytes 4 total ++ s.bytes (panTxBase + 1024 * k) (min 1024 (total - 1024 * k)))) s

/-- The Pannier built at the finish of a normal cycle from the SELECT core (R352, R353), and queued where the pair is PAIRED. -/
def State.panBuild (s : State) (core : Nat) : State :=
  let q := (s.twin.built + 1) % 2 ^ 32
  let s := { s with twin := { s.twin with built := q } }
  let len := s.panLen
  let s := s.zero panTxBase 0x1000
  let s := (s.panHeader q).foldl (fun s (p : Nat × List Byte) => s.storeBytes (panTxBase + p.1) p.2) s
  let s := s.copy (s.panRegion core) (panTxBase + 0x1000) len
  let s := s.store (panTxBase + 0x1000 + len) 8 (crc64 (s.bytes panTxBase (0x1000 + len)))
  if !s.flag TWIN_STAT.PAIRED || !s.flag TWIN_STAT.LINK then s
  else
    match s.twin.sending, s.twin.waiting with
    | none, _ => s.panStart q
    | some _, none => { s with twin := { s.twin with waiting := some q } }
    | some _, some _ => ({ s with twin := { s.twin with waiting := some q } }).inc TWIN_PAN_SKIP_CNT

/-- Effect of a Pannier's application (R355): the RETAIN-SYNC data into every participating core and a running copy's target,
OFFSET and HOMED of node axes, and the sequence values that a takeover continues (R209, R230): of spokes and of a safe session only until the module sends its
own, whose numbers rise by one; of a publisher never back (assumption 192). -/
def State.panEffect (s : State) (src : Nat) : State :=
  let len := min (s.load (src + 0x24) 4) s.panLen
  let s := [0, 1, 2].foldl (fun s n =>
    if s.part n || (s.core n).st == .copy then s.copy (src + 0x1000) (s.panRegion n) len else s) s
  let s := (List.range 96).foldl (fun s n =>
    if s.nodeAxis n then
      (s.putIf (MOT_AS.OFFSET n) (s.load (src + 0x50 + 4 * n) 4)).putIf (MOT_AS.HOMED n)
        (bitOf (s.load (src + 0x44) 12) n).toNat
    else s) s
  let s := if s.trip.sending then s else { s with trip := { s.trip with seq := (s.load (src + 0x40) 4 + 1) % 2 ^ 32 } }
  let s := (List.range 128).foldl (fun s n => if s.pairTx n && (!s.claiming || (s.sess n).first) then s.putIf (SAFE_T.SEQ n) (s.load (src + 0x1D0 + 4 * n) 4) else s) s
  (List.range 512).foldl (fun s n =>
    let q := s.load (src + 0x3D0 + 4 * n) 4
    let behind := s.claiming && toSigned 32 ((q + 2 ^ 32 - (s.pdOf n).seq) % 2 ^ 32) < 0
    if s.pairPd n && !behind then s.setPd n { s.pdOf n with seq := q } else s) s

/-- Application of the latest accepted Pannier at a normal cycle's finish (R355): refused on another identity, deferred where
less than 8.0 µs remain to the edge. -/
def State.panApply (s : State) : State :=
  let src := panRxBase (s.get TWIN_PANP.RX_BUF)
  let q := s.get TWIN_PANP.RX_SEQ
  if !s.twin.panNew then s
  else if s.load (src + 8) 8 != s.twin.layoutId || s.load (src + 0x10) 8 != s.get CYC_PROG_ID.ID then
    let s := s.putFlag TWIN_STAT.PAN_MATCH false
    if s.twin.refused == some q then s
    else ({ s with twin := { s.twin with refused := some q } }).inc TWIN_PAN_MIS_CNT
  else if 62500 < s.ofs + 8000 then s.inc TWIN_DEFER_CNT
  else
    let s := (s.panEffect src).inc TWIN_APPLY_CNT
    let s := (s.putFlag TWIN_STAT.PAN_MATCH true).put TWIN_PANP.APPLIED q
    let s := if s.get TWIN_STAT.SYNC == 1 then s.put TWIN_STAT.SYNC 2 else s
    { s with twin := { s.twin with panNew := false, refused := none, sinceApply := 0 } }

/-- The twin link's work at the finish of a normal cycle with SELECT core `core` (R352, R355). -/
def State.panFinish (s : State) (core : Nat) : State :=
  let s := { s with twin := { s.twin with sinceApply := min (s.twin.sinceApply + 1) 0xFFFF } }
  let s := if s.get SYS_STAT.MODE == 2 || s.twin.takeApply then s.panApply else s
  let s := { s with twin := { s.twin with takeApply := false } }
  (if s.claiming then s.panBuild core else s).showReady

/-- The state image of R358: STAT words of the axes, then LATCHED (bit 7) and CAUSE of the trip functions. -/
def State.stateImage (s : State) : List Byte :=
  (List.range 96).flatMap (fun n => leBytes 4 (s.word (DOOR_AS.STATE n).addr).toNat)
    ++ (List.range 32).flatMap (fun n => leBytes 1 (s.get (TRIP_FN_STAT.CAUSE n) + 128 * s.get (TRIP_FN_STAT.LATCHED n)))

/-- A claiming module that is PAIRED with a STANDBY sends it the state image once (R358). -/
def State.imageSend (s : State) : State :=
  if s.claiming && s.flag TWIN_STAT.PAIRED && s.get TWIN_STAT.PMODE == 2 && s.twin.hb.isSome && !s.twin.imgSent then
    let img := s.stateImage
    let s := s.twinSend 4 (beBytes 4 s.twin.built ++ beBytes 4 0 ++ beBytes 4 img.length ++ img)
    { s with twin := { s.twin with imgSent := true } }
  else s

/-- The twin link goes down (R336, R354): the loss is counted, PAIRED ends, an unfinished Pannier is discarded. -/
def State.twinDown (s : State) : State :=
  if !s.flag TWIN_STAT.LINK then s
  else
    let s := ((s.putFlag TWIN_STAT.LINK false).putFlag TWIN_STAT.PAIRED false).inc TWIN_LINK_CNT
    let s := if s.twin.pan.any (fun x => !x.lost) then s.inc TWIN_PAN_ERR_CNT else s
    { s with twin := { s.twin with pan := none, img := none, sending := none, waiting := none, hello := none, imgSent := false } }

/-- The module decides on its role at start-up (R344). -/
def State.startDecision (s : State) : State :=
  let paired := s.flag TWIN_STAT.PAIRED && s.flag TWIN_CFG.EN
  if !s.twin.deciding || s.get SYS_STAT.MODE != 2 then s
  else if s.twin.seenClaim then { s with twin := { s.twin with deciding := false } }
  else if !s.flag TIME_STAT.LANE_SYNC then s
  else if !paired then (s.raiseClaim.enterMode 3).putFlag TWIN_STAT.ALONE true
  else
    match s.twin.hb with
    | some h =>
      if h.mode == 2 && h.claim == 0 && h.grade * 65536 + h.serial % 65536 < s.grade * 65536 + s.serialLow then s.raiseClaim.enterMode 3
      else s
    | none => s

/-- Whether R346, R349 let a STANDBY take over at this edge. -/
def State.mayTake (s : State) : Bool :=
  let paired := s.flag TWIN_STAT.PAIRED
  let announced := match s.twin.hb with
    | some h => paired && s.twin.hbSince && (bitOf h.flags 0 || bitOf h.flags 1)
    | none => false
  let silent := (!paired || 3 ≤ s.twin.hbMiss) && 3 ≤ s.twin.laneMiss
  s.get SYS_STAT.MODE == 2 && s.flag TWIN_CFG.EN && s.twin.window.isNone && s.flag TIME_STAT.LANE_SYNC
    && (announced || silent) && (s.flag TWIN_STAT.READY || s.flag TWIN_CTRL.TAKE_UNREADY)

/-- Whether R350 makes a claiming module yield at this edge. -/
def State.mayYield (s : State) : Bool :=
  let fit := match s.twin.hb with
    | some h => s.twin.hbSince && bitOf h.flags 2 && bitOf h.flags 4
    | none => false
  s.claiming && 16 ≤ s.twin.noLane && fit && !s.flag TWIN_STAT.YIELD

end Sys2Proof.Machine
end

