-- ==== Sys2Proof/Machine/Voter.lean ====
section
/-! DEFINITION. Machine/Voter.lean: skew, signatures and windows, the voter and its test, the state copy (R60 to R72, R76 to R89). -/
namespace Sys2Proof.Machine
open Reg

/-! ### The timing set (R63) -/

/-- Field at bit `lo` of the applied timing set (R63). -/
def State.tset (s : State) (lo : Nat) : Nat := s.tsetBits lo 8

/-- The three copies of the timing set take the applied value (R63). -/
def State.loadTset (s : State) : State :=
  let v := (s.word TRI_TSET.SKEW0.addr).toNat
  [0, 1, 2].foldl (fun (s : State) n => s.put (TRI_TSET_C.COPY n) v) s

/-- Applied skew of core `n` in ns. -/
def State.skew (s : State) (n : Nat) : Nat := 100 * min 80 (s.tset (8 * n))

/-- WIN_TMO in ns. -/
def State.winTmo (s : State) : Nat := 10000 * clampNat 1 100 (s.tset 24)

/-- The open window of core `n` is handed to the voter and the next one opens (R70, R71). -/
def State.deliver (s : State) (n : Nat) (last : Bool) : State :=
  let c := s.core n
  let s := s.put (TRI_SIG.SIG n) c.sig.toNat
  s.setCore n { c with closed := c.closed ++ [⟨some c.sig, last, s.localNow⟩], sig := 0, win := c.win + 1, nDev := 0, done := last }

/-- A closing write of core `n` (R70 to R72): folded, then the window closes, or the write waits behind 8 windows. -/
def State.closeWindow (s : State) (n : Nat) (last : Bool) (value : Nat) : State :=
  let c := s.core n
  if !s.executes n then s
  else if c.done then s.lateFold n
  else if !c.started then s
  else
    let s := if last then
        (s.fold n 4 4 CYC_DONE.VALUE.addr value).setCore n { (s.fold n 4 4 CYC_DONE.VALUE.addr value).core n with doneVal := BitVec.ofNat 32 value }
      else s.fold n 3 8 0x8C0 value
    if 8 ≤ c.closed.length then s.setCore n { s.core n with closeStall := some (last, value) } else s.deliver n last

/-- A core whose closing write waited goes on once a window of its own has been decided (R71). -/
def State.unstall (s : State) (n : Nat) : State :=
  let c := s.core n
  match c.closeStall with
  | some (last, _) => if c.closed.length < 8 then (s.setCore n { c with closeStall := none }).deliver n last else s
  | none => s

/-! ### Cycle start (R60, R65, R71) -/

/-- Entry latency of core `n` (R65). -/
def State.latency (s : State) (n : Nat) : Int := ((s.core n).entry : Int) - s.skew n

/-- Whether participant `n` is out of timing among `ps` (R65). -/
def State.lateStart (s : State) (ps : List Nat) (n : Nat) : Bool :=
  ps.all (fun m => m == n || 100 < (s.latency n - s.latency m).natAbs)

/-- The start check of R65, once every participant has entered its interrupt; where one never does, the cycle goes unchecked
(assumption 149). -/
def State.startCheck (s : State) : State :=
  let ps := s.parts
  if !ps.all (fun n => (s.core n).started) then s
  else
    match ps.length, ps.filter (s.lateStart ps) with
    | 3, [n] => s.exclude n 5
    | 3, _ :: _ => s.enterLockout 1 2
    | 2, _ :: _ => s.enterLockout 1 1
    | _, _ => s

/-- OUTPUT_IMAGE_STORE (R67, R68, R91): `off` from the base of the output image region; folded and performed. -/
def execOutputImageStore (t core off size : Nat) (data : BitVec 64) (s : State) : Result :=
  let s := s.at_ t
  if !s.executes core || !(size == 1 || size == 2 || size == 4 || size == 8) || 0x10000 < off + size then .next s
  else .next (s.imageStore core off size (data.toNat % 2 ^ (8 * size)))

/-- TCHK_WRITE (R70, R71): an access to CSR 0x8C0, which reads as 0. A CSR instruction of a Tricycle core that writes it folds rs1, or
0 for CSRRC, and closes the window; any other core has no such CSR. -/
def execTchkWrite (t : Nat) (who : Initiator) (core : Nat) (acc : CsrAcc) (s : State) : Result :=
  let s := s.at_ t
  if !s.acts who then .next s
  else if who != .tri then .next { s with csrTraps := SMap.set s.csrTraps who.idx 0x8C0 }
  else if !s.executes core then .next s
  else
    let s := s.gave .tri 0
    match acc with
    | .read => .next s
    | .rw v | .rs v => .next (s.closeWindow core false v.toNat)
    | .rc _ => .next (s.closeWindow core false 0)

/-- CYC_DONE_WRITE (R72, R75, R100). -/
def execCycDoneWrite (t core : Nat) (value : BitVec 32) (s : State) : Result := .next ((s.at_ t).closeWindow core true value.toNat)

/-- CORE_FAULT_HALT (R62). -/
def execCoreFaultHalt (t core : Nat) (s : State) : Result :=
  let s := s.at_ t
  .next (if core < 3 then s.coreFault core else s)

/-- ECC_CORRECTED (R58). -/
def execEccCorrected (s : State) : Result := .next (s.inc TRI_ECC_CNT)

/-! ### The finish of a cycle (R100, R124, R127, R441) -/

/-- The forces after an accepted Graft (R127): rebound where their identity goes on, else dropped; and how many were dropped. -/
def State.rebind (s : State) : State × Nat :=
  (List.range 256).foldl (fun (acc : State × Nat) n =>
    let (s, k) := acc
    if !s.flag (CYC_FORCE.VALID n) then (s, k)
    else
      match s.cyc.bindings.find? (fun b => b.id == s.get (CYC_FORCE.ID n) && b.typ == s.get (CYC_FORCE.TYPE n)
          && b.target == s.get (CYC_FORCE.TARGET n)) with
      | none => (s.dropForce n 0, k + 1)
      | some b => ((((s.releaseForce n).put (CYC_FORCE.WORD n) b.word).put (CYC_FORCE.MASK n) b.mask).bindForce n, k)) (s, 0)

/-- The GRAFT record (R455): 1 accepted, 2 rejected. -/
def State.recordGraft (s : State) (code old new dropped : Nat) : State :=
  s.record 0x0C code (leBytes 8 old ++ leBytes 8 new ++ leBytes 4 s.cyc.graftGen ++ leBytes 4 dropped)

/-- A Graft's verdict (R124): ACCEPTED 2 or REJECTED 3; a rejected Graft is armed no longer. -/
def State.verdict (s : State) (ok : Bool) : State :=
  if ok then (s.put CYC_GRAFT_STAT.VERDICT 2).graftReply 0
  else
    let s := (((s.put CYC_GRAFT_STAT.VERDICT 3).graftReply 0).inc CYC_GRAFT_REJ_CNT).putFlag CYC_STAT.ARMED false
    s.recordGraft 2 (s.get CYC_PROG_ID.ID) s.cyc.graftId 0

/-- The finish of an accepted Graft (R124). -/
def State.graftDone (s : State) : State :=
  let old := s.get CYC_PROG_ID.ID
  let s := (s.put CYC_PROG_ID.ID s.cyc.graftId).inc CYC_GRAFT_CNT
  let s := { s with cyc := { s.cyc with graftGen := (s.cyc.graftGen + 1) % 2 ^ 32, grafted := true } }
  let r := s.rebind
  (r.1.putFlag CYC_STAT.ARMED false).recordGraft 1 old r.1.cyc.graftId r.2

/-- Execution time of the running cycle in ns, from its start edge. -/
def State.execNs (s : State) : Nat := (s.cyc.since.getD 0) * tickNs + s.ofs

/-- A clean cycle of a trial (R441). -/
def State.clean (s : State) : State :=
  if s.flag UPD_STAT.TRIAL && s.get CYC_STAT.PSTATE == 1 then s.addSat UPD_CLEAN.CLEAN 1 else s

/-- The running cycle is finished with SELECT core `core` (R78, R100, R102, R112, R124). -/
def State.finish (s : State) (core : Nat) : State :=
  let cycle := s.get CYC_CYCLE_CNT
  if s.flag CYC_STAT.KIND then
    let s := s.putFlag CYC_STAT.BUSY false
    let s := if s.get CYC_GRAFT_STAT.VERDICT == 2 && s.flag CYC_STAT.ARMED then s.graftDone else s
    s.traceCycle cycle 1 1
  else
    let late := s.flag CYC_STAT.OVERRUN
    let ns := s.execNs
    let s := ((s.putFlag CYC_STAT.BUSY false).putFlag CYC_STAT.OVERRUN false).putFlag CYC_STAT.STEP_PEND false
    let s := s.put OBS_EXEC_MAX.NS (min (2 ^ 32 - 1) (max ns (s.get OBS_EXEC_MAX.NS)))
    let s := (s.hist OBS_H0_CNT (ns / (1000 * atLeast1 (s.get OBS_HIST_CFG.BIN0)))).traceCycle cycle 0 1
    let s := if late then s else s.clean
    let fin := if s.cyc.discard then none else some ⟨core, cycle % 2, cycle⟩
    ({ s with cyc := { s.cyc with finished := fin, discard := false } }).panFinish core

/-! ### The voter (R76 to R82) -/

/-- Three pairwise bits, of pairs 01, 02, 12. -/
structure Pairs where
  p01 : Bool
  p02 : Bool
  p12 : Bool
  deriving DecidableEq, Repr

/-- The bits with the faults of a mask laid over them. -/
def Pairs.flip (p : Pairs) (m : BitVec 3) : Pairs := ⟨p.p01 != m.getLsbD 0, p.p02 != m.getLsbD 1, p.p12 != m.getLsbD 2⟩

/-- The complement. -/
def Pairs.not (p : Pairs) : Pairs := ⟨!p.p01, !p.p02, !p.p12⟩

/-- The bit of a pair of cores. -/
def Pairs.of (p : Pairs) (a b : Nat) : Bool :=
  match min a b, max a b with
  | 0, 1 => p.p01
  | 0, 2 => p.p02
  | 1, 2 => p.p12
  | _, _ => false

/-- Pairwise equality of three presented signatures; what was not delivered or is invalid matches nothing (R76). -/
def pairsOf (sig : Nat → Option DWord) : Pairs :=
  let eq := fun a b => match sig a, sig b with
    | some x, some y => x == y
    | _, _ => false
  ⟨eq 0 1, eq 0 2, eq 1 2⟩

/-- A decision (R77): agreement, exclusion of a core, two disagree, three-way. -/
inductive Verdict where
  | agree
  | excl (n : Nat)
  | two
  | three
  deriving DecidableEq, Repr

/-- The decision of R77 from the pairwise bits of the participants; bits that name no core in minority leave no two equal (assumption 69). -/
def decideVote (ps : List Nat) (e : Pairs) : Verdict :=
  match ps with
  | [a, b] => if e.of a b then .agree else .two
  | _ =>
    match e.p01, e.p02, e.p12 with
    | true, true, true => .agree
    | true, false, false => .excl 2
    | false, true, false => .excl 1
    | false, false, true => .excl 0
    | _, _, _ => .three

/-- A vote by both comparator instances under fault masks `fa` and `fb` (R80): none after a cross-check failure. -/
def vote (ps : List Nat) (sig : Nat → Option DWord) (fa fb : BitVec 3) : Option Verdict :=
  let e := pairsOf sig
  let a := e.flip fa
  let b := e.not.flip fb
  if a == b.not then some (decideVote ps a) else none

/-- The target of test `t` among cores `ps` (R81). -/
def testTarget (ps : List Nat) (t : Nat) : Nat :=
  ([t % 3, (t + 1) % 3, (t + 2) % 3].find? (fun n => ps.contains n)).getD 0

/-- A voter test on the signatures of the most recent window decided in agreement (R81), of the cores that took part in it and still
participate; with fewer than two of them there is nothing to compare, and the test stays pending (assumption 150). -/
def State.voterTest (s : State) (fa fb : BitVec 3) : State :=
  let ps := s.parts.filter (fun n => (SMap.find s.tri.agreed n).isSome)
  if ps.length < 2 then s.putFlag TRI_STAT.VTEST_PEND true else
  let t := s.get TRI_VTEST_CNT
  let target := testTarget ps t
  let sig := fun n => (SMap.find s.tri.agreed n).map (fun v => if n = target then v ^^^ BitVec.ofNat 64 (2 ^ (t % 64)) else v)
  let sig := fun n => if ps.contains n then sig n else none
  let good := vote ps sig fa fb == some (if ps.length = 3 then .excl target else .two)
  if good then
    let s := (s.inc TRI_VTEST_CNT).putFlag TRI_STAT.VTEST_PEND false
    let s := s.putFlag TRI_LAST.TESTED true
    { s with tri := { s.tri with testTicks := 0 } }
  else s.enterLockout 1 4

/-- Whether the next window is due for its decision (R76). -/
def State.voteDue (s : State) : Bool :=
  let ps := s.parts
  let has := fun n => !(s.core n).closed.isEmpty
  2 ≤ ps.length && ps.any has && (s.tri.due || ps.all has)

/-- The WINDOW packet of a decision (R496). -/
def State.traceWindow (s : State) (sig : Nat → Option DWord) : State :=
  let w := (s.word TRI_LAST.OUTCOME.addr).toNat
  s.trace 3 (leBytes 4 (s.get TRI_WIN_CNT) ++ leBytes 1 (bitsOf w 0 8) ++ leBytes 1 (bitsOf w 8 3) ++ leBytes 1 (s.get TRI_STAT.SELECT)
    ++ leBytes 1 0 ++ [0, 1, 2].flatMap (fun n => leBytes 8 ((sig n).getD 0).toNat))

/-- What a decision that is used leaves in the registers (R77, R80) (assumption 183). -/
def State.showVote (s : State) (v : Verdict) (missing invalid : Nat) (select : Option Nat) : State :=
  let (o, m) := match v with
    | .agree => (0, 0)
    | .excl n => (1, n)
    | .two => (2, 0)
    | .three => (3, 0)
  let s := ((s.inc TRI_WIN_CNT).put TRI_LAST.OUTCOME o).put TRI_LAST.MINOR m
  let s := ((s.put TRI_LAST.MISSING missing).put TRI_LAST.INVALID invalid).putFlag TRI_LAST.TESTED false
  match select with
  | some c => s.put TRI_STAT.SELECT c
  | none => s

/-- The oldest window of every core is decided and gone. -/
def State.dropHeads (s : State) : State :=
  let s := [0, 1, 2].foldl (fun s n => let c := s.core n; if c.closed.isEmpty then s else s.setCore n { c with closed := c.closed.drop 1 }) s
  { s with tri := { s.tri with decided := s.tri.decided + 1, due := false } }

/-- The tests of R81 and R82 after a decision. -/
def State.testAfter (s : State) (agreed : Bool) (fa fb : BitVec 3) : State :=
  let due := s.get TRI_WIN_CNT % 1024 == 0
  if agreed && (due || s.flag TRI_STAT.VTEST_PEND) then s.voterTest fa fb
  else if !agreed && due then (s.inc TRI_VTEST_SKIP_CNT).putFlag TRI_STAT.VTEST_PEND true
  else s

/-- The decision that is due (R76 to R80, R88): `fa` and `fb` are the faults of the two comparator instances' bits, 0 in a sound voter. -/
def State.decide_ (s : State) (fa fb : BitVec 3) : State :=
  let ps := s.parts
  let head := fun n => if ps.contains n then (s.core n).closed.head? else none
  let sig := fun n => (head n).bind (fun (w : Win) => w.sig)
  let hash := s.flag CYC_STAT.KIND && s.tri.decided == 0
  match vote ps sig fa fb with
  | none => s.enterLockout 1 3
  | some v =>
    let missing := bits3 (fun n => ps.contains n && (head n).isNone)
    let invalid := bits3 (fun n => match head n with | some w => w.sig.isNone | none => false)
    let agreeing := match v with
      | .agree => ps
      | .excl n => ps.filter (fun i => i != n)
      | _ => []
    let select := agreeing.head?
    let last := match select with
      | some c => (match head c with | some w => w.last | none => false)
      | none => false
    let s := (s.showVote v missing invalid select).traceWindow sig
    let s := if v == .agree then
        { s with tri := { s.tri with agreed := ps.foldl (fun m n => match sig n with | some x => SMap.set m n x | none => m) [] } }
      else s
    let s := s.dropHeads
    let s := match v with
      | .agree => if hash then s.verdict true else s
      | .excl n =>
        if !hash then s.exclude n (if (head n).isNone then 2 else if (sig n).isNone then 3 else 1)
        else if (head n).isSome && (sig n).isNone then (s.verdict true).exclude n 3
        else (s.verdict false).exclude n 6
      | .two => (if hash then s.verdict false else s).enterLockout 1 1
      | .three => (if hash then s.verdict false else s).enterLockout 1 2
    let s := [0, 1, 2].foldl State.unstall s
    match select with
    | none => s.testAfter false fa fb
    | some c =>
      let s := s.testAfter (v == .agree) fa fb
      if last && s.flag CYC_STAT.BUSY then s.finish c else s

/-- WINDOW_TIMEOUT (R76): WIN_TMO has passed since the first delivery of the next window. Only deliveries of cores that participate now
start it, and a timeout that has passed stands when a core is excluded since (assumption 151). -/
def execWindowTimeout (t : Nat) (s : State) : Result :=
  let s := s.at_ t
  let first := (s.parts.filterMap (fun n => (s.core n).closed.head?)).any (fun (w : Win) => w.at_ + s.winTmo ≤ s.localNow)
  .next (if first then { s with tri := { s.tri with due := true } } else s)

/-- VOTER_TEST_DUE (R81): 16,384 ticks since the last test. -/
def execVoterTestDue (t : Nat) (fa fb : BitVec 3) (s : State) : Result :=
  let s := s.at_ t
  if s.tri.testTicks < 16384 || s.parts.isEmpty then .next s
  else if s.tri.agreed.isEmpty then .next (s.putFlag TRI_STAT.VTEST_PEND true)
  else .next (s.voterTest fa fb)

/-! ### Exclusion, state copy and rejoin (R64, R83, R86, R87) -/

/-- Comparison of the timing set copies at an edge (R64). -/
def State.tsetCheck (s : State) : State :=
  let c := fun n => s.get (TRI_TSET_C.COPY n)
  match s.parts with
  | [a, b] => if c a == c b then s else s.enterLockout 1 5
  | [_, _, _] =>
    match c 0 == c 1, c 0 == c 2, c 1 == c 2 with
    | true, true, _ => s
    | true, false, _ => s.exclude 2 4
    | false, true, _ => s.exclude 1 4
    | false, false, true => s.exclude 0 4
    | false, false, false => s.enterLockout 1 5
  | _ => s

/-- State copies start at an edge for the cores `ns` (R83): from the lower-numbered of two participants. -/
def State.startCopies (s : State) (ns : List Nat) : State :=
  match s.parts with
  | [a, _] => ns.foldl (fun s n =>
      if (s.core n).st == .excluded then (s.setCore n { s.core n with st := .copy }).put TRI_STAT.COPY_SRC a else s) s
  | _ => s

/-- STATE_COPY_COMPLETE (R83, R85, R86): `ok` says that every block read back as written. DRAM_MIB is taken as it stands here
(assumption 152). -/
def execStateCopyComplete (t core : Nat) (ok : Bool) (s : State) : Result :=
  let s := s.at_ t
  if 3 ≤ core || (s.core core).st != .copy then .next s
  else if !ok then .next (s.exclude core 7)
  else
    let src := s.get TRI_STAT.COPY_SRC
    let s := s.copy (tcmBase src) (tcmBase core) 0x80000
    let s := s.copy (partBase src) (partBase core) (min 16 (s.get TRI_COPY.DRAM_MIB) * 0x100000)
    .next ((s.setCore core { s.core core with st := .ready }).inc TRI_COPY_CNT)

/-- The READY cores rejoin at a program cycle start edge (R87). -/
def State.rejoin (s : State) : State :=
  [0, 1, 2].foldl (fun s n =>
    if (s.core n).st == .ready then
      let v := s.tsetWord
      let s := ((s.setCore n { TriCore.init with st := .run, exclusions := (s.core n).exclusions }).put (TRI_TSET_C.COPY n) v).inc TRI_REJOIN_CNT
      { s with tri := { s.tri with rejoined := s.tri.rejoined || s.flag TRI_STAT.GRAFT_HELD } }
    else s) s

/-- Release of the Tricycle by the boot supervisor (R83): HELD cores enter RUN, and the span of R81 counts from here. -/
def State.releaseCores (s : State) : State :=
  let s := [0, 1, 2].foldl (fun s n => if (s.core n).st == .held then s.setCore n { s.core n with st := .run } else s) s
  { s with tri := { s.tri with testTicks := 0, agreed := [] } }

end Sys2Proof.Machine
end

