-- ==== Sys2Proof/Machine/CycleOps.lean ====
section
/-! DEFINITION. Machine/CycleOps.lean: publication, latch, cycle start and program commands at a local tick edge (R91 to R113,
R118, R123). -/
namespace Sys2Proof.Machine
open Reg

/-! ### Publication (R101, R110, R118) -/

/-- The longest LAUNCH_OFS of a telegram (R291). -/
def launchNs : Nat := 65535000

/-- The publication of an image starts at an edge (R101): copied into the idle buffer with the output forces merged, and into
the published bank that BANK does not name; every consumer counts a refresh (R106). -/
def State.publish (s : State) (src : ImageSrc) : State :=
  let idle := 1 - s.cyc.active
  let len := s.get CYC_IMG.OUT_LEN
  let s := if s.lanes.buf == idle && s.lanes.kept.isNone then
      { s with lanes := { s.lanes with kept := some (s.bytes (pubBuf idle) len) } }
    else s
  let s := s.copy (outBank src.core src.bank) (pubBuf idle) len
  let s := ((s.bound 1).map (fun n => s.get (CYC_FORCE.WORD n))).eraseDups.foldl (fun s w =>
    s.store (pubBuf idle + 8 * w) 8 (s.forced 1 w (s.load (pubBuf idle + 8 * w) 8))) s
  let s := s.copy (pubBuf idle) (pubCopy (1 - s.get CYC_PUB.BANK)) len
  let s := { s with cyc := { s.cyc with publishing := some src, finished := none, refresh := [] } }
  let s := { s with lanes := { s.lanes with
    pubAt := s.localNow, pub := (s.lanes.pub + 1) % 2 ^ 32
    pubs := (s.localNow :: s.lanes.pubs).filter (fun e => s.localNow ≤ e + launchNs) } }
  let s := match s.obs.pubTicks with
    | some k => if k = 0 then s else s.hist OBS_H1_CNT (k - 1)
    | none => s
  ({ s with obs := { s.obs with pubTicks := some 0 } }).traceCycle src.cycle 0 3

/-- The publication that an edge starts (R101, R110): of a finished image, or in HOLD again of the last one. -/
def State.publishEdge (s : State) : State :=
  match s.cyc.finished, s.cyc.last with
  | some src, _ => s.publish src
  | none, some src => if s.get CYC_STAT.PSTATE == 2 then s.publish src else s
  | none, none => s

/-- Byte `i` of the active publication buffer. -/
def State.pubByte (s : State) (i : Nat) : Byte := s.byte (pubBuf s.cyc.active + i)

/-- Every consumer takes its values from the active buffer and leaves Kickstand; door commands of the image that ends it act as levels, and
edges are counted from it on (R101, R102, R106, R132, R178, R207, R320, R329). -/
def State.consume_ (s : State) : State :=
  let b := s.pubByte
  let at_ := fun o n => (List.range n).map (fun i => b (o + i))
  let cmd := at_ (s.get DOOR_IMG.CMD_OFF) 96
  let rise := if s.door.kick then [] else cmd.zipIdx.map (fun (p : Byte × Nat) => (p.1 &&& ~~~(s.door.cmd.getD p.2 0)) ||| s.door.edges.getD p.2 0)
  let door := { s.door with
    cmd := cmd, rel := leNat (at_ (s.get DOOR_IMG.REL_OFF) 2), edges := rise, slots := at_ (s.get MOT_CFG.CMD_OFF) 256, slotsNew := true
    kick := false }
  let stopped := s.flag CYC_STAT.KICK
  let prg := if stopped then s.trip.prg else BitVec.ofNat 128 (leNat (at_ (s.get TRIP_CFG.PRG_OFF) 16))
  let s := { s with door := door, trip := { s.trip with prg := prg }, loopPrg := false
                    dio := { s.dio with pubWord := leNat (at_ (s.get DIO_CFG.OUT_OFF) 8) } }
  let s := (s.putIf DOOR_STAT.KICK 0).putIf MOT_STAT.KICK 0
  let s := if stopped then s else if s.flag TRIP_STAT.PRG_KICK then (s.putIf TRIP_STAT.PRG_KICK 0).showPresent else s
  ((s.putIf DIO_STAT.KICK_PRG 0).dioRefresh).loopTake b

/-! ### Latch and cycle start (R91, R92, R96 to R99) -/

/-- TIMEQ of R97. -/
def State.timeq (s : State) : Nat :=
  s.get TIME_STAT.LANE_SYNC + 2 * s.get TIME_STAT.LANE_FW + 4 * s.get TIME_STAT.CONS_SYNC + 8 * s.get TIME_STAT.CONS_FW

/-- The input image header of cycle `c` (R97). -/
def State.header (s : State) (c kind : Nat) (first : Bool) (gapTicks : Nat) : List Byte :=
  leBytes 4 c ++ leBytes 1 kind
    ++ leBytes 1 (s.cyc.prevOvr.toNat + 2 * first.toNat + 4 * (kind == 0 && s.cyc.grafted).toNat + 8 * s.get CYC_STAT.FORCED + 16 * s.still.toNat)
    ++ leBytes 1 (s.get SYS_STAT.MODE) ++ leBytes 1 s.timeq
    ++ leBytes 8 s.localNow ++ leBytes 8 s.laneNow ++ leBytes 8 s.consNow
    ++ leBytes 2 (if first then 0 else gapTicks) ++ leBytes 2 0
    ++ leBytes 4 (if kind = 1 then s.get CYC_GRAFT_LEN.VALUE else 0) ++ leBytes 8 (s.get CYC_PROG_ID.ID)
    ++ leBytes 4 (if kind = 1 then s.get CYC_GRAFT_BASE.VALUE else 0) ++ leBytes 4 s.cyc.graftGen ++ leBytes 8 0

/-- The latch of cycle `c` (R96, R98): header into the frozen bank of every live core, mirror, and the refill of the next bank
(assumption 184). -/
def State.latch (s : State) (c : Nat) (hdr : List Byte) : State :=
  let len := s.get CYC_IMG.IN_LEN
  let b := c % 2
  let s := s.liveCores.foldl (fun s n => s.storeBytes (inBank n b) hdr) s
  let s := s.copy (inBank (s.liveCores.headD 0) b) (inMirror b) len
  s.liveCores.foldl (fun s n => s.copy (inBank n b) (inBank n (1 - b)) len) s

/-- A participant's engine state at a cycle start: its next interrupt opens window 0; an invalid window due counts as delivered (R72). -/
def State.coreCycle (s : State) (n : Nat) : State :=
  let c := s.core n
  if c.st != .run then s
  else s.setCore n { c with started := false, badNext := false, closed := if c.badNext then [⟨none, false, s.localNow⟩] else [] }

/-- A cycle of kind `kind` starts at this edge (R87, R91, R92, R96, R99, R123). -/
def State.startCycle (s : State) (kind : Nat) : State :=
  let s := if kind = 0 then s.rejoin else (s.putFlag TRI_STAT.GRAFT_HELD false)
  let first := kind = 0 && s.cyc.first
  let gapTicks := min 4096 (s.cyc.since.getD 0)
  let c := (s.get CYC_CYCLE_CNT + 1) % 2 ^ 32
  let s := s.latch c (s.header c kind first gapTicks)
  let s := (s.put CYC_CYCLE_CNT c).put CYC_STAT.IN_BANK (c % 2)
  let s := (s.putFlag CYC_STAT.BUSY true).put CYC_STAT.KIND kind
  let s := if s.cyc.since.isSome then s.put CYC_LAST.LEN gapTicks else s
  let cyc := s.cyc
  let s := { s with
    cyc := { cyc with since := some 0, startReq := false, discard := false
                      first := cyc.first && kind != 0, prevOvr := cyc.prevOvr && kind != 0, grafted := cyc.grafted && kind != 0 }
    tri := { s.tri with decided := 0, due := false, resolved := [], rejoined := s.tri.rejoined && kind = 0 } }
  ([0, 1, 2].foldl State.coreCycle s).traceCycle c kind 0

/-- MINLEN in ticks. -/
def State.minLen (s : State) : Nat := clampNat 1 4096 (s.get CYC_PERIOD.MINLEN)

/-- What starts at this edge (R99, R111, R123, R88): a commanded cycle, a Graft cycle, HOLD, or a normal cycle. -/
def State.cycleEdge (s : State) : State :=
  let free := match s.cyc.since with
    | some k => s.minLen ≤ k
    | none => true
  if s.flag CYC_STAT.BUSY then s
  else if s.cyc.startReq then s.startCycle 0
  else if s.get CYC_STAT.PSTATE != 1 || !free then s
  else
    let held := s.anyOut && !(s.flag TRI_STAT.GRAFT_HELD && s.tri.rejoined)
    if s.flag CYC_STAT.ARMED && !held then s.startCycle 1
    else
      let s := if s.flag CYC_STAT.ARMED then s.putFlag TRI_STAT.GRAFT_HELD true else s
      if s.flag CYC_STAT.HOLD_PEND then (s.put CYC_STAT.PSTATE 2).putFlag CYC_STAT.HOLD_PEND false
      else s.startCycle 0

/-! ### Program commands (R105, R110 to R113, R122) -/

/-- A command that is not allowed (R111). -/
def State.refuseCmd (s : State) : State := s.inc CYC_CMD_REJ_CNT

/-- A commanded start (R99, R111): its cycle is the first of its run. -/
def State.askStart (s : State) : State := { s with cyc := { s.cyc with startReq := true, first := true } }

/-- STOP (R105). -/
def State.stopCmd (s : State) : State := s.discardImage.programStop

/-- Whether a program command's row of R111 has its guards met. -/
def State.cmdAllowed (s : State) (code : Nat) : Bool :=
  let mode := s.get SYS_STAT.MODE
  let ps := s.get CYC_STAT.PSTATE
  match code with
  | 1 => ps == 0 && (mode == 1 || mode == 3)
  | 2 => ps == 1
  | 3 => ps == 1 && mode == 1 && s.still && !s.flag CYC_STAT.HOLD_PEND
  | 4 => ps == 2 && s.still
  | _ => code == 5 && ps == 2 && s.still && !s.flag CYC_STAT.STEP_PEND

/-- One CYC_CMD code at the edge where it takes effect (R111, R122). -/
def State.cycCommand (s : State) (code : Nat) : State :=
  match code with
  | 1 => if s.cmdAllowed 1 then ((s.put CYC_STAT.PSTATE 1).putFlag CYC_STAT.KICK false).askStart else s.refuseCmd
  | 2 => if s.cmdAllowed 2 then s.stopCmd else s.refuseCmd
  | 3 => if s.cmdAllowed 3 then s.putFlag CYC_STAT.HOLD_PEND true else s.refuseCmd
  | 4 => if s.cmdAllowed 4 then (s.put CYC_STAT.PSTATE 1).askStart else s.refuseCmd
  | 5 => if s.cmdAllowed 5 then ({ s with cyc := { s.cyc with moved := false } }.putFlag CYC_STAT.STEP_PEND true).askStart else s.refuseCmd
  | 6 =>
    if s.flag CYC_STAT.ARMED || s.get CYC_GRAFT_BASE_ID.ID != s.get CYC_PROG_ID.ID then s.refuseCmd.graftReply 3
    else (s.putFlag CYC_STAT.ARMED true).put CYC_GRAFT_STAT.VERDICT 1
  | 7 =>
    if s.flag CYC_STAT.ARMED && !(s.flag CYC_STAT.BUSY && s.flag CYC_STAT.KIND) then
      let s := { s with tri := { s.tri with rejoined := false } }
      (((s.putFlag CYC_STAT.ARMED false).put CYC_GRAFT_STAT.VERDICT 0).graftReply 0).putFlag TRI_STAT.GRAFT_HELD false
    else s.refuseCmd
  | _ => s.refuseCmd

/-- The commands that waited for this edge, in order (R111). -/
def State.cycCommands (s : State) : State :=
  let l := s.cyc.cmds
  l.foldl State.cycCommand { s with cyc := { s.cyc with cmds := [] } }

/-- Standstill at an edge (R111, R112): where it is false a waiting HOLD is refused and HOLD ends in STOP; where it was false at an edge
of a STEP cycle, HOLD ends at the edge after the one that publishes the STEP image. -/
def State.holdCheck (s : State) : State :=
  if s.get CYC_STAT.PSTATE == 2 then
    if s.flag CYC_STAT.STEP_PEND || s.cyc.finished.isSome then
      if s.still then s else { s with cyc := { s.cyc with moved := true } }
    else if s.still && !s.cyc.moved then s
    else (s.programStop.inc CYC_HOLD_ABORT_CNT).recordCycle 2 (s.get CYC_CYCLE_CNT)
  else if s.flag CYC_STAT.HOLD_PEND && !s.still then (s.putFlag CYC_STAT.HOLD_PEND false).refuseCmd
  else s

/-! ### Forces (R115, R116) -/

/-- Binding of entry `n` (R116): refused in another mode than the present one, or beyond the image; recorded with a token. -/
def State.forceBind (s : State) (n token : Nat) : State × Bool :=
  let mode := s.get SYS_STAT.MODE
  let m := s.get (CYC_FORCE.MODE n)
  let len := if s.get (CYC_FORCE.TARGET n) == 0 then s.get CYC_IMG.IN_LEN else s.get CYC_IMG.OUT_LEN
  if (m == 1 && mode == 1 || m == 2 && mode == 3) && 8 * s.get (CYC_FORCE.WORD n) + 8 ≤ len then
    ((s.bindForce n).recordForce 1 n token, true)
  else (s.refuseCmd, false)

/-- Release of a bound entry (R117), recorded. -/
def State.forceRelease (s : State) (n token : Nat) : State :=
  if s.flag (CYC_FORCE.VALID n) then (s.releaseForce n).recordForce 2 n token else s

/-- TOKEN_ID of the open session; 0 without one. -/
def State.tokenId (s : State) : Nat :=
  match s.boot.session with
  | some x => x.token
  | none => 0

/-- A CTRL write of an unbound entry but for VALID (R116). -/
def State.forceCtrl (s : State) (n ctrl : Nat) : State :=
  ((((s.put (CYC_FORCE.TARGET n) (bitsOf ctrl 1 1)).put (CYC_FORCE.WORD n) (bitsOf ctrl 2 12)).put (CYC_FORCE.MODE n) (bitsOf ctrl 14 2)).put
    (CYC_FORCE.TYPE n) (bitsOf ctrl 16 16))

end Sys2Proof.Machine
end

