-- ==== Sys2Proof/Machine/CfgCheck.lean ====
section
/-! DEFINITION. Machine/CfgCheck.lean: the configuration check (R51 to R55). -/
namespace Sys2Proof.Machine
open Reg

/-- Whether the word at `a` is a configuration word (R51). -/
def cfgWord (a : Nat) : Bool :=
  a != REGG_CFG_REF.REF.addr
    && (match findRow a with
        | some r => r.acc == .rw || r.acc == .rwg || (r.acc == .ro && r.stated)
        | none => false)

/-- The addresses of the configuration words, in the order of R51. -/
def cfgWords : List Nat :=
  (List.range 0x16).flatMap (fun b => ((List.range 0x2000).map (fun i => 0x20000000 + b * 0x10000 + 4 * i)).filter cfgWord)

/-- The CRC-32C of a pass over the applied configuration (R51). -/
def State.cfgCrc (s : State) : Nat := crc32c (cfgWords.flatMap (fun a => leBytes 4 (s.word a).toNat))

/-- A compared pass (R54). -/
def State.compareCfg (s : State) : State :=
  if s.get REGG_CFG_CALC.CALC == s.get REGG_CFG_REF.REF then
    if s.flag REGG_STAT.CFG_MISMATCH then (s.putFlag REGG_STAT.CFG_MISMATCH false).outputsRefresh else s
  else
    let action := s.get REGG_CFG_CTRL.ACTION
    let s := s.inc REGG_CFG_MIS_CNT
    let s := if s.flag REGG_STAT.CFG_MISMATCH then s
      else
        let s := (s.putFlag REGG_STAT.CFG_MISMATCH true).record 0x0E action
          (leBytes 4 (s.get REGG_CFG_CALC.CALC) ++ leBytes 4 (s.get REGG_CFG_REF.REF))
        s.outputsRefresh
    if 2 ≤ action then s.enterLockout 2 0 else s

/-- CFG_PASS_END (R52 to R54): a pass that nothing interrupted. A reset discards the pass under way, and none ends before the edge that
opens its grace period (R53). -/
def execCfgPassEnd (t : Nat) (s : State) : Result :=
  let s := s.at_ t
  if s.pwr.inReset || s.regg.waitEdge then .next s
  else
    let compared := s.flag REGG_CFG_CTRL.EN && !s.flag REGG_STAT.CFG_WAIT
    let s := (s.put REGG_CFG_CALC.CALC s.cfgCrc).inc REGG_CFG_PASS_CNT
    .next (if compared then s.compareCfg else s)

/-- CFG_GRACE_END (R53): GRACE ticks after the edge that opened the grace period. -/
def execCfgGraceEnd (t : Nat) (s : State) : Result :=
  let s := s.at_ t
  .next (if s.flag REGG_STAT.CFG_WAIT && !s.regg.waitEdge && atLeast1 (s.get REGG_CFG_CTRL.GRACE) ≤ s.regg.graceEdges then
      s.putFlag REGG_STAT.CFG_WAIT false
    else s)

/-- A grace period opens at this edge (R53). -/
def State.openGrace (s : State) : State :=
  ({ s with regg := { s.regg with graceEdges := 0, waitEdge := false } }).putFlag REGG_STAT.CFG_WAIT true

end Sys2Proof.Machine
end

