-- ==== Sys2Proof/Machine/Bridge.lean ====
section
/-! DEFINITION. Machine/Bridge.lean: the Rack bus bridge (spec/13_rack_bus_bridge.md). -/
namespace Sys2Proof.Machine
open Reg

/-! ### Status and phases -/

/-- RB_LOCK_N is low (R381): the address cycle of the locked sequence's read has passed, that of its write has not. -/
def Brg.locked (b : Brg) : Bool :=
  match b.lock with
  | some l => l.at_.isSome
  | none => false

/-- Whether an inbound request gets a response: a read or a non-posted write (R366). -/
def RackIn.answers (r : RackIn) : Bool := r.cmd / 4 != 1

/-- The open inbound transactions (R369, R376). -/
def Brg.open_ (b : Brg) : Nat := b.inb.countP RackIn.answers

/-- BRG_STAT follows the bridge. -/
def State.showBrg (s : State) : State :=
  let tags := (s.brg.reqs.filter (fun r => r.tag.isSome)).length + s.brg.retired.length
  ((((s.putIf BRG_STAT.OTAGS tags).putIf BRG_STAT.IOPEN s.brg.open_).putIf BRG_STAT.PWLOG_LEVEL s.brg.log.length).putIf
    BRG_STAT.PWBUF (s.brg.reqs.countP (fun r => r.taken))).putIf BRG_STAT.LOCKED s.brg.locked.toNat

/-- Even parity over a cycle's signals (R364). -/
def rackPar (ad cmd be tag : Nat) : Nat :=
  ((List.range 32).countP (fun i => ad.testBit i) + (List.range 4).countP (fun i => cmd.testBit i)
    + (List.range 4).countP (fun i => be.testBit i) + (List.range 7).countP (fun i => tag.testBit i)) % 2

/-- One cycle of a phase as State.wire holds it: RB_AD, RB_CMD, RB_BE_N, RB_TAG, RB_PAR. -/
def rackCycle (ad cmd be tag : Nat) : List Byte :=
  beBytes 4 ad ++ beBytes 1 cmd ++ beBytes 1 be ++ beBytes 1 tag ++ beBytes 1 (rackPar ad cmd be tag)

/-- The two low bits of RB_CMD for a number of beats (R366). -/
def beatCode (n : Nat) : Nat := if n = 4 then 1 else if n = 8 then 2 else if n = 16 then 3 else 0

/-- Lowest lane of an access of `size` bytes at `addr` under a byte order (R373). -/
def laneLow (big : Bool) (addr size : Nat) : Nat := if big then 4 - addr % 4 - size else addr % 4

/-- RB_BE_N of an access of `size` bytes (R368): low for the lanes it selects. -/
def laneMask (big : Bool) (addr size : Nat) : Nat := 15 - (2 ^ size - 1) * 2 ^ laneLow big addr size

/-- Byte order of a window. -/
def State.owBig (s : State) (w : Nat) : Bool := s.flag (BRG_OW.BIG w)

/-- A request phase on the bus (R366, R368, R373), under the byte order its window had when it was issued (R385). -/
def rackPhase (r : RackReq) : List Byte :=
  let big := r.big
  let tag := r.tag.getD 0
  let cmd := (if r.kind = 0 then 0 else if r.kind = 2 then 4 else 8) + beatCode r.beats
  let be := if r.beats = 1 then laneMask big r.laddr r.size else 0
  let shift := if r.beats = 1 then 8 * laneLow big r.laddr r.size else 0
  rackCycle (r.raddr / 4 * 4) cmd be tag ++ r.data.flatMap (fun v => rackCycle (v * 2 ^ shift) cmd be tag)

/-- The check engines see the data of an outbound transaction that has ended, in address order, with its bus address (R241, R242). -/
def State.rackStream (s : State) (r : RackReq) (vs : List Nat) : State :=
  let n := if r.beats = 1 then r.size else 4
  s.streamFrame 9 r.win (vs.flatMap (fun v => if r.big then beBytes n v else leBytes n v)) (some r.raddr)

/-! ### Arbitration (R365) -/

/-- The request of window `w` that waits for its status cycle or its re-issue (R374): one that has been retried, else the oldest; while
RB_LOCK_N is low that of the locked sequence (R381). -/
def State.owCurrent (s : State) (w : Nat) : Option RackReq :=
  let l := s.brg.reqs.filter (fun r => r.win == w && r.phase != 2 && (!s.brg.locked || r.lock))
  match l.find? (fun r => 0 < r.retries) with
  | some r => some r
  | none => l.head?

/-- Whether request `r` may start its phase: a posted write only once the posted buffer has taken it (R375). -/
def State.mayIssue (s : State) (r : RackReq) : Bool :=
  s.owCurrent r.win == some r && r.phase == 0 && !r.held && (if r.kind = 2 then r.taken else r.tag.isSome)

/-- Whether the module itself asks for the bus: a request that may start its phase, or the response to an inbound one. -/
def State.rackOwn (s : State) : Bool := s.brg.reqs.any s.mayIssue || s.brg.inb.any (fun r => r.ready)

/-- The next position in the round robin of 0, the module, and 1 to 8, after `last`, among those that ask: the module where `own` says
so, position p where bit p - 1 of `reqs`, RB_REQ_N low, does. -/
def nextGrant (last : Nat) (own : Bool) (reqs : BitVec 8) : Option Nat :=
  ((List.range 9).map (fun i => (last + 1 + i) % 9)).find? (fun p => if p = 0 then own else reqs.getLsbD (p - 1))

/-- Position `p` is granted (R365): the round robin counts on from it, RB_GNT_N shows it, and a crossing that waited for this grant is
over (R380). -/
def State.grantTo (s : State) (p : Nat) : State :=
  let left := s.brg.crossed.filter (fun q => q != p)
  { s with brg := { s.brg with
    last := p, gnt := if p = 0 then none else some p, crossed := left
    reqs := if left.isEmpty then s.brg.reqs.map (fun (r : RackReq) => { r with held := false }) else s.brg.reqs } }

/-- A grant cycle (R365): the arbiter grants the next position that asks, or nobody. -/
def State.arbitrate (s : State) (reqs : BitVec 8) : State :=
  match nextGrant s.brg.last s.rackOwn reqs with
  | some p => s.grantTo p
  | none => { s with brg := { s.brg with gnt := none } }

/-- A phase of position `p` starts: granted by the last grant cycle, or since then by one of the cycles of an idle bus (assumption 26). -/
def State.rackTurn (s : State) (p : Nat) : State :=
  let s := if s.brg.gnt == some p then s else s.grantTo p
  { s with brg := { s.brg with gnt := none } }

/-! ### Outbound windows (R372) -/

/-- Size of window `w`. -/
def State.owSize (s : State) (w : Nat) : Nat := 2 ^ clampNat 16 30 (s.get (BRG_OW.SIZE w))

/-- Whether window `w` is enabled and not ignored (R372). -/
def State.owUsed (s : State) (w : Nat) : Bool :=
  let b := s.get (BRG_OW.LBASE w)
  let n := s.owSize w
  s.flag (BRG_OW.EN w) && 0x40000000 ≤ b && b + n ≤ 0x80000000 && b % n == 0

/-- Windows that cover a local address. -/
def State.owHits (s : State) (a : Nat) : List Nat :=
  (List.range 16).filter (fun w => s.owUsed w && s.get (BRG_OW.LBASE w) ≤ a && a < s.get (BRG_OW.LBASE w) + s.owSize w)

/-- The rack address of a local one in window `w`. -/
def State.owRack (s : State) (w a : Nat) : Nat :=
  let n := s.owSize w
  s.get (BRG_OW.RBASE w) / n * n + (a - s.get (BRG_OW.LBASE w))

/-! ### Results and errors (R376, R377) -/

/-- An initiator's access ends. -/
def State.rackDone (s : State) (who : Option Initiator) (r : RackRes) : State :=
  match who with
  | some i => { s with brg := { s.brg with res := SMap.set s.brg.res i.idx r } }
  | none => s

/-- Replaces the first request equal to `r`. -/
def State.rackSet (s : State) (r r' : RackReq) : State :=
  { s with brg := { s.brg with reqs := s.brg.reqs.replace r r' } }

/-- The posted buffer takes the oldest posted write that waits for it, where one of its 16 places is free (R375). -/
def State.takePosted (s : State) : State :=
  match s.brg.reqs.find? (fun r => r.kind == 2 && !r.taken) with
  | some q => if s.brg.reqs.countP (fun r => r.taken) < 16 then (s.rackSet q { q with taken := true }).rackDone q.who .done else s
  | none => s

/-- Removes the first request equal to `r`. Where that makes room in the posted buffer, the next posted write is taken (R375). -/
def State.rackDrop (s : State) (r : RackReq) : State :=
  ({ s with brg := { s.brg with reqs := s.brg.reqs.erase r } }).takePosted

/-- The lock is released (R381, R382). -/
def State.unlock (s : State) : State := { s with brg := { s.brg with lock := none } }

/-- The locked sequence in progress that request `r` is part of. -/
def Brg.lockOf (b : Brg) (r : RackReq) : Option RackLock :=
  match b.lock with
  | some l => if r.lock && r.who == some l.who && r.laddr == l.addr then some l else none
  | none => none

/-- Whether request `r` is part of the locked sequence of an AMO in progress. -/
def Brg.amoOf (b : Brg) (r : RackReq) : Bool :=
  match b.lockOf r with
  | some l => l.amo.isSome
  | none => false

/-- A read or non-posted write ends as a bus error (R376); that of a locked sequence ends it (R382). -/
def State.rackError (s : State) (r : RackReq) : State :=
  let s := (s.rackDrop r).inc BRG_ERR_CNT
  let s := match r.who with
    | some i =>
      let s := (s.trap i (r.kind != 0 || s.brg.amoOf r) r.laddr).rackDone r.who .fault
      if r.lock then { s with brg := { s.brg with amoOld := SMap.erase s.brg.amoOld i.idx } } else s
    | none => s
  let s := if (s.brg.lockOf r).isSome then s.unlock else s
  if r.dma then { s with brg := { s.brg with dmaFailed := true } } else s

/-- A posted write ends in an error (R377): causes 1 ERR, 2 master abort, 3 retries exhausted, 4 reset. -/
def State.postedError (s : State) (r : RackReq) (cause : Nat) : State :=
  let s := (s.rackDrop r).inc BRG_PWERR_CNT
  if 16 ≤ s.brg.log.length then s.inc BRG_PWLOG_OVF_CNT
  else { s with brg := { s.brg with log := s.brg.log ++ [r.laddr + r.win * 2 ^ 32 + cause * 2 ^ 36] } }

/-- A request ends in an error of cause `cause`. -/
def State.rackFail (s : State) (r : RackReq) (cause : Nat) : State := if r.kind == 2 then s.postedError r cause else s.rackError r

/-- RB_RESET_N is low now (R371). -/
def State.rackReset (s : State) : Bool :=
  !s.flag BRG_CTRL.EN || s.pwr.inReset || s.pwr.dormant

/-- BRG_STAT.RESET follows RB_RESET_N; when it falls, every open transaction ends with an error (R371, R376, R377). -/
def State.rackResetCheck (s : State) : State :=
  let low := s.rackReset
  if low == s.flag BRG_STAT.RESET then s
  else
    let s := s.putFlag BRG_STAT.RESET low
    if !low then s
    else
      let s := s.brg.reqs.foldl (fun s r => s.rackFail r 4) s
      ({ s with brg := { s.brg with inb := [], crossed := [], lock := none, amoOld := [], gnt := none } }).showBrg

/-! ### Tags (R369) -/

/-- The lowest free tag. -/
def State.freeTag (s : State) : Option Nat :=
  (List.range 128).find? (fun t => !s.brg.reqs.any (fun r => r.tag == some t) && (SMap.find s.brg.retired t).isNone)

/-- Requests that wait for a tag get one, in their order, as far as tags are free. -/
def State.giveTags (s : State) : State :=
  (s.brg.reqs.foldl (fun s r =>
    if r.kind != 2 && r.tag.isNone then
      match s.freeTag with
      | some t => s.rackSet r { r with tag := some t }
      | none => s
    else s) s).showBrg

/-! ### Prefetch buffers (R383) -/

/-- A buffer is discarded; one with bytes never delivered is counted. -/
def State.pfDrop (s : State) (b : PfBuf) : State :=
  let s := { s with brg := { s.brg with pf := s.brg.pf.erase b } }
  if b.given == 2 ^ 64 - 1 then s else s.inc BRG_DISCARD_CNT

/-- Every buffer that `p` selects is discarded. -/
def State.pfDiscard (s : State) (p : PfBuf → Bool) : State := (s.brg.pf.filter p).foldl State.pfDrop s

/-- The buffers of the windows that `p` selects are discarded; one whose fill is under way is, as soon as the fill has arrived
(assumption 175). -/
def State.pfForget (s : State) (p : Nat → Bool) : State :=
  let s := s.pfDiscard (fun b => p b.win)
  { s with brg := { s.brg with reqs := s.brg.reqs.map (fun (r : RackReq) => if r.fill && p r.win then { r with stale := true } else r) } }

/-- The buffer that holds a local address of a window. -/
def State.pfFind (s : State) (w a : Nat) : Option PfBuf := s.brg.pf.find? (fun b => b.win == w && b.block == a / 64 * 64)

/-- The value of `size` bytes at local address `a`, in a window of byte order `big`, out of a word on RB_AD (R373). -/
def rackValue (big : Bool) (a size ad : Nat) : Nat := bitsOf ad (8 * laneLow big a size) (8 * size)

/-- A read served from a buffer, which becomes the most recently used one. -/
def State.pfServe (s : State) (who : Option Initiator) (b : PfBuf) (a size : Nat) : State :=
  let v := rackValue b.big a size (b.data.getD (a % 64 / 4) 0)
  let b' := { b with given := b.given ||| ((2 ^ size - 1) * 2 ^ (a % 64)) }
  let s := { s with brg := { s.brg with pf := s.brg.pf.erase b ++ [b'] } }
  s.rackDone who (.value v)

/-- A fill arrives: a buffer of the block is replaced, otherwise the least recently used of four. -/
def State.pfFill (s : State) (w block : Nat) (big : Bool) (data : List Nat) : State :=
  let s := match s.pfFind w block with
    | some b => s.pfDrop b
    | none => s
  let s := if 4 ≤ s.brg.pf.length then
      match s.brg.pf with
      | b :: _ => s.pfDrop b
      | [] => s
    else s
  { s with brg := { s.brg with pf := s.brg.pf ++ [⟨w, block, data, s.localNow, 0, big⟩] } }

/-! ### Outbound accesses (R368, R372 to R375) -/

/-- A new request: of an initiator or a DMA transfer, in window `w`, at a local address; its kind, beats, access size and data. -/
def State.newReq (s : State) (who : Option Initiator) (w a kind beats size : Nat) (data : List Nat) : RackReq :=
  ⟨who, w, a, s.owRack w a, kind, beats, size, data, none, 0, false, 0, 0, false, false, who.isNone, s.owBig w, false, false, []⟩

/-- A request joins the queue. A posted write is taken at once while the posted buffer has room (R375). While RB_RESET_N is low it ends
with an error. -/
def State.rackQueue (s : State) (r : RackReq) : State :=
  if s.rackReset then ((if r.kind == 2 then s.rackDone r.who .done else s).rackFail r 4).showBrg
  else ({ s with brg := { s.brg with reqs := s.brg.reqs ++ [{ r with held := !s.brg.crossed.isEmpty }] } }).takePosted.giveTags

/-- A hart's other access to a rack window ends its lock without a write (R382). -/
def State.lockBreak (s : State) (who : Initiator) : State :=
  match s.brg.lock with
  | some l =>
    if l.who == who && l.amo.isNone && !s.brg.reqs.any (fun r => r.lock && r.kind == 1) then s.unlock.putIf BRG_STAT.LOCKED 0 else s
  | none => s

/-- The legal bursts that a DMA transfer of `n` words splits into (R368): address and beats. -/
def bursts : Nat → Nat → Nat → List (Nat × Nat)
  | 0, _, _ => []
  | fuel + 1, a, n =>
    let fits := fun b => b ≤ n && a % 1024 + 4 * b ≤ 1024
    let b := if fits 16 then 16 else if fits 8 then 8 else if fits 4 then 4 else 1
    if n = 0 then [] else (a, b) :: bursts fuel (a + 4 * b) (n - b)

/-- A core's load or store in window `w`. -/
def State.rackCore (s : State) (who : Initiator) (w a size : Nat) (data : Option Nat) : State :=
  let r := s.newReq (some who) w a 0 1 size []
  match data with
  | some v =>
    (s.pfForget (fun x => x == w)).rackQueue (s.newReq (some who) w a (if s.flag (BRG_OW.POSTED w) then 2 else 1) 1 size [v % 2 ^ (8 * size)])
  | none =>
    if s.flag (BRG_OW.PREFETCH w) then
      match s.pfFind w a with
      | some b => s.pfServe (some who) b a size
      | none => s.rackQueue { r with raddr := s.owRack w (a / 64 * 64), beats := 16, fill := true }
    else s.rackQueue r

/-- A DMA transfer, in legal bursts. -/
def State.rackDma (s : State) (w a n : Nat) (data : Option (List Nat)) : State :=
  (bursts n a n).foldl (fun s (p : Nat × Nat) =>
    let words := match data with
      | some l => (l.drop ((p.1 - a) / 4)).take p.2
      | none => []
    let kind := if data.isNone then 0 else if s.flag (BRG_OW.POSTED w) then 2 else 1
    s.rackQueue (s.newReq none w p.1 kind p.2 4 words))
    (if data.isSome then s.pfForget (fun x => x == w) else s)

/-- An access fault at a rack window (R28, R36, R372). -/
def State.rackTrap (s : State) (who : Initiator) (store : Bool) (a : Nat) : State :=
  (s.trap who store a).rackDone (some who) .fault

/-- RACK_OUTBOUND_ACCESS (R35, R368, R372 to R375, R382 to R384). -/
def execRackOutboundAccess (t : Nat) (who : Initiator) (acc : RackAcc) (s : State) : Result :=
  let s := s.at_ t
  match acc with
  | .load a size => core s a size none
  | .store a size v => core s a size (some v)
  | .dmaRead a n => dma s a n none
  | .dmaWrite a d => dma s a d.length (some (d.map BitVec.toNat))
where
  /-- A core's access. -/
  core (s : State) (a size : Nat) (data : Option Nat) : Result :=
    if !s.acts who then .next s
    else if who == .tri then .next (s.rackTrap who data.isSome a)
    else
      let s := s.lockBreak who
      match s.owHits a with
      | [] => .next ((s.rackTrap who data.isSome a).inc BRG_NOWIN_CNT)
      | [w] =>
        if !(size == 1 || size == 2 || size == 4) || a % size != 0 then .next (s.rackTrap who data.isSome a)
        else .next (s.rackCore who w a size data)
      | _ => .fault .overlappingWindows
  /-- A DMA transfer. -/
  dma (s : State) (a n : Nat) (data : Option (List Nat)) : Result :=
    match s.owHits a with
    | [w] =>
      if a % 4 != 0 || s.get (BRG_OW.LBASE w) + s.owSize w < a + 4 * n then
        .next { s with brg := { s.brg with dmaFailed := true } }
      else .next (s.rackDma w a n data)
    | [] => .next ({ s with brg := { s.brg with dmaFailed := true } }.inc BRG_NOWIN_CNT)
    | _ => .fault .overlappingWindows

/-- What a locked sequence's own request phases do (R381, R382): the lock is held from the first address cycle of the read, two cycles
before its status cycle, up to the address cycle of the write. -/
def State.lockPhase (s : State) (r : RackReq) : State :=
  match r.lock, r.kind, s.brg.lock with
  | true, 0, some l => if l.at_.isSome then s else { s with brg := { s.brg with lock := some { l with at_ := some (s.localNow - 40) } } }
  | true, 1, _ => s.unlock
  | _, _, _ => s

/-- The status cycle of request `r` (R366, R376 to R378). -/
def State.rackStatus (s : State) (r : RackReq) : RackStatus → State
  | .ack =>
    let s := s.inc BRG_OUT_CNT
    if r.kind == 2 then ((s.rackDrop r).rackStream r r.data).showBrg else s.rackSet r { r with phase := 2, at_ := s.localNow }
  | .retry =>
    let s := s.inc BRG_RETRY_CNT
    if atLeast1 (s.get BRG_CTRL.RETRY_MAX) ≤ r.retries + 1 then (s.rackFail r 3).giveTags
    else s.rackSet r { r with phase := 1, retries := r.retries + 1, at_ := s.localNow }
  | .err => (s.rackFail r 1).giveTags
  | .abort => (s.rackFail r 2).giveTags

/-- RACK_STATUS_CYCLE (R365, R366, R376 to R378): the request of window `win` that is on the bus ends its phase, and the arbiter grants
among the cards that `reqs` shows and the module. -/
def execRackStatusCycle (t win : Nat) (status : RackStatus) (reqs : BitVec 8) (s : State) : Result :=
  let s := s.at_ t
  match s.owCurrent win with
  | none => .next s
  | some r =>
    if !s.mayIssue r then .next s
    else .next (((((s.rackTurn 0).send 6 (rackPhase r)).lockPhase r).rackStatus r status).showBrg.arbitrate reqs)

/-- RACK_RETRY_REISSUE (R378): from the fourth cycle, of 20 ns each, after the status cycle. -/
def execRackRetryReissue (t win : Nat) (s : State) : Result :=
  let s := s.at_ t
  match s.owCurrent win with
  | some r => if r.phase == 1 && r.at_ + 80 ≤ s.localNow then .next (s.rackSet r { r with phase := 0 }) else .next s
  | none => .next s

/-! ### Locked sequences (R381, R382) -/

/-- The single NON-POSTED WRITE of a locked sequence, at the rack address and in the byte order of its read `r`. -/
def State.lockWrite (s : State) (l : RackLock) (r : RackReq) (v : Nat) : State :=
  s.rackQueue { s.newReq (some l.who) r.win l.addr 1 1 4 [v] with raddr := r.raddr, big := r.big, lock := true }

/-- The write of a locked sequence can start within 2 µs of the read's address cycle (R382). -/
def RackLock.open_ (l : RackLock) (now : Nat) : Bool :=
  match l.at_ with
  | some a => decide (now < a + 2000)
  | none => true

/-- Whether an access is an SC. -/
def isSc : LockAcc → Bool
  | .sc _ => true
  | _ => false

/-- RACK_LOCKED_SEQUENCE (R30, R381, R382): an AMO, an LR or an SC. In a rack window it is the read's address cycle of a locked
sequence, or the SC; in MEMORY it is performed; into an MMIO block or a table window an AMO or LR faults, and an SC, which can hold no
reservation there, fails (assumption 148). -/
def execRackLockedSequence (t : Nat) (who : Initiator) (addr size : Nat) (acc : LockAcc) (s : State) : Result :=
  let s := s.at_ t
  if !s.acts who then .next s
  else match regionAt addr size with
  | none => .next ((if isSc acc then s.lockBreak who else s).rackTrap who (acc != .lr) addr)
  | some .mmio | some .table =>
    match acc with
    | .sc _ => .next ((s.lockBreak who).accDone who .scFail)
    | acc => .next (s.rackTrap who (acc != .lr) addr)
  | some .rack => rack s
  | some r => (if isSc acc then s.lockBreak who else s).lockAt who r addr size acc
where
  /-- The sequence in a rack window (R381, R382). -/
  rack (s : State) : Result :=
   let store := acc != .lr
   if who == .tri then .next (s.rackTrap who store addr)
   else
    match s.owHits addr with
    | [] => .next (((s.lockBreak who).rackTrap who store addr).inc BRG_NOWIN_CNT)
    | [w] =>
     if size ≠ 4 || addr % 4 != 0 then .next ((s.lockBreak who).rackTrap who store addr)
     else
      match acc with
      | .sc d =>
        match s.brg.lock with
        | some l =>
          if l.who == who && l.amo.isNone && l.addr == addr && l.got.isSome && l.open_ s.localNow then
            .next ((s.pfForget (fun x => x == w)).lockWrite l (lockReq s w) (d.toNat % 2 ^ 32)).showBrg
          else .next ((s.lockBreak who).rackDone (some who) .scFail)
        | none => .next (s.rackDone (some who) .scFail)
      | .amo op d => begin_ s w (some (op, d))
      | .lr => begin_ s w none
    | _ => .fault .overlappingWindows
  /-- The single 32-bit read of the word in window `w`. -/
  lockReq (s : State) (w : Nat) : RackReq :=
    { s.newReq (some who) w addr 0 1 4 [] with lock := true }
  /-- The sequence starts and its read is queued; another hart's sequence keeps this one waiting. -/
  begin_ (s : State) (w : Nat) (amo : Option (AmoOp × BitVec 64)) : Result :=
    let s := s.lockBreak who
    if s.brg.lock.isSome then .next s
    else
      let s := { s with brg := { s.brg with lock := some ⟨who, addr, amo, none, none⟩ } }
      .next ((s.inc BRG_LOCK_CNT).rackQueue (lockReq s w)).showBrg

/-- RACK_LOCK_TIMEOUT (R382): the write could not start within 2 µs. RB_LOCK_N is released and a write that waits is not issued. An AMO
faults; an SC that waits, and a later one, fails. -/
def execRackLockTimeout (t : Nat) (s : State) : Result :=
  let s := s.at_ t
  match s.brg.lock with
  | some l =>
    if l.open_ s.localNow then .next s
    else
      let wait := s.brg.reqs.any (fun r => r.lock && r.kind == 1)
      let s := s.unlock.inc BRG_LOCK_TMO_CNT
      let s := { s with brg := { s.brg with
        amoOld := SMap.erase s.brg.amoOld l.who.idx
        reqs := (s.brg.reqs.filter (fun (r : RackReq) => !(r.lock && r.kind == 1))).map
          (fun (r : RackReq) => if r.lock then { r with lock := false, who := if l.amo.isSome then none else r.who } else r) } }
      .next (if l.amo.isSome then s.rackTrap l.who true l.addr
        else if wait then s.rackDone (some l.who) .scFail else s).giveTags
  | none => .next s

/-! ### Responses (R367, R376) -/

/-- An OK response to request `r` with the words `beats`. -/
def State.rackOk (s : State) (r : RackReq) (beats : List Nat) : State :=
  let v := rackValue r.big r.laddr r.size (beats.getD 0 0)
  let s := (s.rackDrop r).rackStream r (if r.kind != 0 then r.data else if r.beats = 1 then [v] else beats)
  if r.kind != 0 then
    if r.lock then
      match r.who with
      | some i =>
        match SMap.find s.brg.amoOld i.idx with
        | some old => ({ s with brg := { s.brg with amoOld := SMap.erase s.brg.amoOld i.idx } }).rackDone r.who (.value old)
        | none => s.rackDone r.who .scOk
      | none => s
    else s.rackDone r.who .done
  else if r.fill then
    let s := s.pfFill r.win (r.laddr / 64 * 64) r.big beats
    match s.pfFind r.win r.laddr with
    | some b =>
      let s := s.pfServe r.who b r.laddr r.size
      if r.stale then s.pfDiscard (fun b => b.win == r.win && b.block == r.laddr / 64 * 64) else s
    | none => s
  else if r.lock then
    match s.brg.lock with
    | some l =>
      match l.amo with
      | some (op, d) =>
        let s := { s with brg := { s.brg with amoOld := SMap.set s.brg.amoOld l.who.idx v } }
        (s.pfForget (fun x => x == r.win)).lockWrite l r (amoValue op 4 v d)
      | none => ({ s with brg := { s.brg with lock := some { l with got := some v } } }).rackDone r.who (.value v)
    | none => s.rackDone r.who (.value v)
  else s.rackDone r.who (.value v)

/-- What a response to tag `tag` does (R367, R369, R376). -/
def State.rackAnswer (s : State) (tag : Nat) (err par : Bool) (beats : List (BitVec 32)) : State :=
  let s := if par then s.inc BRG_PAR_CNT else s
  match s.brg.reqs.find? (fun r => r.phase == 2 && r.tag == some tag) with
  | some r => if err || par then (s.rackError r).giveTags else (s.rackOk r (beats.map BitVec.toNat)).giveTags
  | none => if (SMap.find s.brg.retired tag).isSome then s.inc BRG_LATE_CNT else s

/-- RACK_RESPONSE (R365, R367, R369, R376): a response phase of card `card`: header position and tag, an error response, a parity error,
data beats; in the idle cycle after it the arbiter grants among the cards that `reqs` shows and the module. -/
def execRackResponse (t card pos tag : Nat) (err par : Bool) (beats : List (BitVec 32)) (reqs : BitVec 8) (s : State) : Result :=
  let s := (s.at_ t).rackTurn card
  .next ((if pos = 0 then s.rackAnswer tag err par beats else s).arbitrate reqs)

/-- RACK_RESPONSE_TIMEOUT (R376): RSP_TMO µs after the status cycle. -/
def execRackResponseTimeout (t tag : Nat) (s : State) : Result :=
  let s := s.at_ t
  match s.brg.reqs.find? (fun r => r.phase == 2 && r.tag == some tag) with
  | some r =>
    if s.localNow < r.at_ + atLeast1 (s.get BRG_CTRL.RSP_TMO) * 1000 then .next s
    else
      let s := (s.rackError r).inc BRG_TMO_CNT
      .next ({ s with brg := { s.brg with retired := SMap.set s.brg.retired tag s.localNow } }).giveTags
  | none => .next s

/-- RETIRED_TAG_RELEASE (R376): a further RSP_TMO has passed. -/
def execRetiredTagRelease (t tag : Nat) (s : State) : Result :=
  let s := s.at_ t
  match SMap.find s.brg.retired tag with
  | some at_ =>
    if s.localNow < at_ + atLeast1 (s.get BRG_CTRL.RSP_TMO) * 1000 then .next s
    else .next ({ s with brg := { s.brg with retired := SMap.erase s.brg.retired tag } }).giveTags
  | none => .next s

/-! ### Inbound (R379, R380) -/

/-- Size of inbound window `v`. -/
def State.iwSize (s : State) (v : Nat) : Nat := 2 ^ clampNat 12 30 (s.get (BRG_IW.SIZE v))

/-- Rack base and local base of inbound window `v`, aligned to its size. -/
def State.iwBase (s : State) (v : Nat) : Nat := s.get (BRG_IW.RBASE v) / s.iwSize v * s.iwSize v
def State.iwLocal (s : State) (v : Nat) : Nat := s.get (BRG_IW.LBASE v) / s.iwSize v * s.iwSize v

/-- The inbound windows that cover a rack address. -/
def State.iwHits (s : State) (a : Nat) : List Nat :=
  (List.range 8).filter (fun v => s.flag (BRG_IW.EN v) && s.iwBase v ≤ a && a < s.iwBase v + s.iwSize v)

/-- Whether `n` bytes from `a` lie in shared SRAM or service DRAM (R23). -/
def inboundMem (a n : Nat) : Bool :=
  (0x10000000 ≤ a && a + n ≤ 0x10400000) || (0x80000000 ≤ a && a + n ≤ 0x100000000)

/-- Whether byte enables select contiguous lanes of a naturally aligned 8-, 16- or 32-bit transfer (R368). -/
def lanesOk (be : Nat) : Bool := [0b1110, 0b1101, 0b1011, 0b0111, 0b1100, 0b0011, 0b0000].any (fun b => b == be)

/-- Beats of a command (R366). -/
def cmdBeats (cmd : Nat) : Nat :=
  match cmd % 4 with
  | 0 => 1
  | 1 => 4
  | 2 => 8
  | _ => 16

/-- Whether an inbound request is a legal transfer (R368). -/
def legalIn (cmd addr be : Nat) (data : List Nat) : Bool :=
  let n := cmdBeats cmd
  cmd < 12 && addr % 4 == 0 && (if n = 1 then lanesOk be else be == 0 && addr % 1024 + 4 * n ≤ 1024)
    && (cmd < 4 || data.length == n)

/-- The outbound read or non-posted write that waits for the rack bus, where it has not turned position `pos` away yet (R380). -/
def State.crosser (s : State) (pos : Nat) : Option RackReq :=
  s.brg.reqs.find? (fun r => r.kind != 2 && s.mayIssue r && !r.refused.contains pos)

/-- A crossing of `w` with a request of position `pos` (R380): of the outbound requests only `w` goes on to the bus, until the arbiter
has granted the position once. -/
def State.crossing (s : State) (w : RackReq) (pos : Nat) : State :=
  let hold := fun (r : RackReq) => if r.phase == 2 then r else { r with held := true }
  { s with brg := { s.brg with
    crossed := s.brg.crossed.filter (fun q => q != pos) ++ [pos]
    reqs := (s.brg.reqs.map hold).replace (hold w) { w with refused := w.refused ++ [pos] } } }

/-- The module's answer in the status cycle of an inbound request. -/
def State.answer (s : State) (st : RackStatus) : State := { s with brg := { s.brg with status := st } }

/-- RACK_INBOUND_REQUEST (R365, R366, R368, R369, R379, R380): position `pos` was granted; in the status cycle the arbiter grants among
the cards that `reqs` shows and the module. -/
def execRackInboundRequest (t pos tag cmd addr be : Nat) (data : List (BitVec 32)) (par : Bool) (reqs : BitVec 8) (s : State) : Result :=
  let s := s.at_ t
  if s.rackReset then .next s
  else
    let s := (s.rackTurn pos).arbitrate reqs
    let data := data.map BitVec.toNat
    if par then .next ((s.inc BRG_PAR_CNT).answer .err)
    else if !legalIn cmd addr be data then .next (s.answer .err)
    else
      match s.iwHits addr with
      | [v] =>
        if (4 ≤ cmd && !s.flag (BRG_IW.WR_EN v)) || !inboundMem (s.iwLocal v) (s.iwSize v) then .next (s.answer .err)
        else
          match s.crosser pos with
          | some w => .next (((s.crossing w pos).inc BRG_IRETRY_CNT).answer .retry)
          | none =>
            let r : RackIn := ⟨v, pos, tag, cmd, s.iwLocal v + (addr - s.iwBase v), be, data, false⟩
            if r.answers && 16 ≤ s.brg.open_ then .next ((s.inc BRG_IRETRY_CNT).answer .retry)
            else .next ((({ s with brg := { s.brg with inb := s.brg.inb ++ [r] } }.inc BRG_IN_CNT).answer .ack)).showBrg
      | [] => .next (s.answer .err)
      | _ => .fault .overlappingWindows

/-- The words of an inbound write stored, lane by lane where RB_BE_N selects it. -/
def State.inWrite (s : State) (r : RackIn) : State :=
  (List.range r.data.length).foldl (fun s i =>
    [0, 1, 2, 3].foldl (fun s k =>
      if bitOf r.be k then s else s.store (r.addr + 4 * i + k) 1 (r.data.getD i 0 / 2 ^ (8 * k))) s) (s.dropResv none r.addr (4 * r.data.length))

/-- The bytes that an inbound transfer carries, in address order: of each word those that RB_BE_N selects. -/
def RackIn.bytes (r : RackIn) : List Byte :=
  r.data.flatMap (fun v => (List.range 4).filterMap (fun k => if bitOf r.be k then none else some (BitVec.ofNat 8 (v / 2 ^ (8 * k)))))

/-- An inbound transfer as performed: of a read, the words it read. -/
def State.performed (s : State) (r : RackIn) : RackIn :=
  { r with
    ready := true
    data := if r.cmd < 4 then (List.range (cmdBeats r.cmd)).map (fun i => s.load (r.addr + 4 * i) 4) else r.data }

/-- An inbound transfer is performed, and its window's stream carries it (R241, R379): a posted write is over, of any other the response
is still to come. -/
def State.inPerform (s : State) (r : RackIn) : State :=
  let r' := s.performed r
  let s := if r.cmd < 4 then s else s.inWrite r
  let s := s.streamFrame 9 (16 + r.win) r'.bytes (some (s.iwBase r.win + (r.addr - s.iwLocal r.win)))
  { s with brg := { s.brg with inb := if r.answers then s.brg.inb.replace r r' else s.brg.inb.erase r } }

/-- The response phase of a performed inbound transaction (R367), after which the arbiter grants. -/
def State.inAnswer (s : State) (r : RackIn) (reqs : BitVec 8) : State :=
  let s := { s with brg := { s.brg with inb := s.brg.inb.erase r } }
  let beats := if r.cmd < 4 then r.data.flatMap (fun v => rackCycle v 0 r.be r.tag) else []
  ((s.rackTurn 0).send 6 (rackCycle r.pos 0 15 r.tag ++ beats)).showBrg.arbitrate reqs

/-- RACK_INBOUND_COMPLETE (R365, R367, R379): the transfer is performed, and a read or non-posted write gets its response: at once on an
idle bus, else, where a card holds a grant, with the next such command; until then the module asks for the bus (assumption 176). In the
idle cycle after the response the arbiter grants among the cards that `reqs` shows and the module. -/
def execRackInboundComplete (t pos tag : Nat) (reqs : BitVec 8) (s : State) : Result :=
  let s := s.at_ t
  match s.brg.inb.find? (fun r => r.pos == pos && r.tag == tag) with
  | none => .next s
  | some r =>
    if r.ready then .next (s.inAnswer r reqs)
    else if r.answers && s.brg.gnt.isNone then .next ((s.inPerform r).inAnswer (s.performed r) reqs)
    else .next (s.inPerform r).showBrg

/-! ### Prefetch (R383) -/

/-- PREFETCH_EXPIRY (R383): buffers that have reached PF_AGE. -/
def execPrefetchExpiry (t : Nat) (s : State) : Result :=
  let s := s.at_ t
  .next (s.pfDiscard (fun b => b.at_ + atLeast1 (s.get BRG_CTRL.PF_AGE) * 1000 ≤ s.localNow))

/-- BRG_PF_FLUSH (R383): a write with FLUSH = 1. -/
def execBrgPfFlush (t : Nat) (who : Initiator) (flush : Bool) (s : State) : Result :=
  match (s.at_ t).gate who 0x20100008 false true with
  | (s, false) => .next s
  | (s, true) => .next (if flush then s.pfDiscard (fun _ => true) else s)

end Sys2Proof.Machine
end

