-- ==== Sys2Proof/Machine/Clocks.lean ====
section
/-! DEFINITION. Machine/Clocks.lean: oscillators, root PLL, domain switches and gears (R386 to R403, R413). -/
namespace Sys2Proof.Machine
open Reg

/-! ### Sources and pairs (R386 to R388) -/

/-- Source `i` (0 XO-A, 1 XO-B, 2 RCO) runs. -/
def State.srcRuns (s : State) (i : Nat) : Bool := bitOf s.clk.run i

/-- Source `i` is qualified and not failed (CLK_STAT.OK). -/
def State.srcOk (s : State) (i : Nat) : Bool := s.bit CLK_STAT.OK i

/-- The number of the pair of two sources: 0 XO-A/XO-B, 1 XO-A/RCO, 2 XO-B/RCO. -/
def pairNo (i j : Nat) : Nat := i + j - 1

/-- Pair `k`. -/
def State.clkPair (s : State) (k : Nat) : ClkPair := SMap.getD s.clk.pairs k ClkPair.init

/-- The state with pair `k` replaced. -/
def State.setPair (s : State) (k : Nat) (p : ClkPair) : State := { s with clk := { s.clk with pairs := SMap.set s.clk.pairs k p } }

/-- The two other sources. -/
def others (i : Nat) : List Nat := [0, 1, 2].filter (· ≠ i)

/-- One window of a pair (R387, R388): within the limit or not. -/
def ClkPair.window (p : ClkPair) (within : Bool) : ClkPair :=
  if within then ⟨p.agree || 8 ≤ p.good + 1, min (p.good + 1) 8, 0⟩
  else ⟨p.agree && p.bad + 1 < 2, 0, min (p.bad + 1) 2⟩

/-- Source `i` is started or restarted: it runs unqualified, its pairs anew. -/
def State.srcStart (s : State) (i : Nat) : State :=
  let s := { s with clk := { s.clk with run := setBit s.clk.run i true, restartAt := SMap.set s.clk.restartAt i s.localNow } }
  (others i).foldl (fun s j => s.setPair (pairNo i j) ClkPair.init) (s.putBit CLK_STAT.OK i false)

/-! ### Reference (R393, R394) -/

/-- Every link of the module that a PLL off its crystal does not carry goes down (R393, R397). -/
def State.linksDown (s : State) : State := ((s.lanesCheck.ecnDown 0).ecnDown 1).twinDown

/-- The PLL's reference follows the qualified sources (R389, R392 to R394): XO-A, else XO-B, else RCO. Without a crystal the links
go down and a claiming module of a pair stops claiming; with one again the lanes may leave OFF. -/
def State.newRef (s : State) : State :=
  let r := if s.srcOk 0 then 0 else if s.srcOk 1 then 1 else 2
  if r == s.get CLK_STAT.REF then s
  else
    let s := (s.put CLK_STAT.REF r).inc CLK_REFSW_CNT
    if r == 2 then
      let s := s.linksDown
      if s.claiming && s.flag TWIN_CFG.EN then s.demote else s
    else s.lanesCheck

/-- Source `i` fails (R387 to R390): FAIL, count, record; a failed RCO hands the supervisor and the watchdog to XO-A. -/
def State.srcFail (s : State) (i : Nat) : State :=
  let was := s.srcOk i
  let s := ((s.putBit CLK_STAT.FAIL i true).putBit CLK_STAT.OK i false).inc CLK_SRCFAIL_CNT
  let s := { s with clk := { s.clk with
    run := setBit s.clk.run i false
    restartAt := if was then SMap.set s.clk.restartAt i s.localNow else s.clk.restartAt } }
  let s := if i == 1 then s.putIf CLK_STAT.PROOF 0 else s
  let s := if i == 2 then s.putIf CLK_STAT.SUPXO 1 else s
  let s := if s.flag CLK_STAT.DOUBT && was then s.putFlag CLK_STAT.DOUBT false else s
  (s.recordClock 1).newRef

/-- Source `i` qualifies (R387, R391, R392). -/
def State.srcQualify (s : State) (i : Nat) : State :=
  let s := (s.putBit CLK_STAT.OK i true).putBit CLK_STAT.FAIL i false
  let s := if i == 1 && s.flag CLK_STAT.PROOF then (s.putFlag CLK_STAT.PROOF false).inc CLK_PROOF_CNT else s
  s.newRef

/-! ### Decisions (R387 to R390) -/

/-- The running sources that are not qualified and whose pairs with every qualified one have agreed in 8 successive windows. -/
def State.qualifying (s : State) : List Nat :=
  [0, 1, 2].filter (fun i => s.srcRuns i && !s.srcOk i && (others i).any s.srcOk
    && (others i).all (fun j => !s.srcOk j || (s.clkPair (pairNo i j)).good == 8))

/-- The majority table of R389. -/
def State.majority (s : State) : State :=
  let ab := (s.clkPair 0).agree
  let ar := (s.clkPair 1).agree
  let br := (s.clkPair 2).agree
  if ab then (if ar || br then s else s.srcFail 2)
  else if ar && !br then s.srcFail 1
  else if !ar && br then s.srcFail 0
  else s.enterLockout 7 0

/-- The third source of a doubt between the qualified ones. -/
def State.third (s : State) : Option Nat := [0, 1, 2].find? (fun i => !s.srcOk i)

/-- The third source survives, and the doubt ends. -/
def State.survive (s : State) (x : Nat) : State := (s.putFlag CLK_STAT.DOUBT false).srcQualify x

/-- The outcome of a doubt as it stands (R390). -/
def State.resolveDoubt (s : State) : State :=
  match s.third with
  | none => s
  | some x =>
    match others x with
    | [y, z] =>
      let py := s.clkPair (pairNo x y)
      let pz := s.clkPair (pairNo x z)
      if py.good == 8 && pz.good == 8 then s.enterLockout 7 0
      else if py.good == 8 && 0 < pz.bad then (s.survive x).srcFail z
      else if pz.good == 8 && 0 < py.bad then (s.survive x).srcFail y
      else s
    | _ => s

/-- The decisions at the end of a window. -/
def State.clockDecide (s : State) : State :=
  if s.flag CLK_STAT.DOUBT then s.resolveDoubt
  else
    let s := s.qualifying.foldl State.srcQualify s
    match [0, 1, 2].filter s.srcOk with
    | [_, _, _] => s.majority
    | [y, z] =>
      if (s.clkPair (pairNo y z)).agree then s
      else
        let s := { s with clk := { s.clk with doubtAt := s.localNow } }
        let s := (s.putFlag CLK_STAT.DOUBT true).recordClock 2
        match s.third with
        | some x => if s.srcRuns x then s else s.srcStart x
        | none => s
    | _ => s

/-- CLOCK_MONITOR_WINDOW (R387 to R392): the deviations counted in this window, of the pairs that run. -/
def execClockMonitorWindow (t : Nat) (ab ar br : Option Int) (s : State) : Result :=
  let s := s.at_ t
  .next (pair 2 CLK_MON_BR.DEV 102 br (pair 1 CLK_MON_AR.DEV 102 ar (pair 0 CLK_MON_AB.DEV 4 ab s))).clockDecide
where
  /-- One pair's window. -/
  pair (k : Nat) (f : Fld) (lim : Nat) (d : Option Int) (s : State) : State :=
    match d with
    | none => s
    | some v => (s.putS f v).setPair k ((s.clkPair k).window (v.natAbs ≤ lim))

/-- CLOCK_SOURCE_DEAD (R388): no edge for 64 cycles of the other clock. -/
def execClockSourceDead (t src : Nat) (s : State) : Result :=
  let s := s.at_ t
  if src < 3 && s.srcRuns src then .next (s.srcFail src) else .next s

/-- QUALIFY_TIMEOUT (R387): 16 ms after its start the source is not qualified. -/
def execQualifyTimeout (t src : Nat) (s : State) : Result :=
  let s := s.at_ t
  if src < 3 && s.srcRuns src && !s.srcOk src && SMap.getD s.clk.restartAt src 0 + 16000000 ≤ s.localNow then .next (s.srcFail src)
  else .next s

/-- DOUBT_TIMEOUT (R390). -/
def execDoubtTimeout (t : Nat) (s : State) : Result :=
  let s := s.at_ t
  if s.flag CLK_STAT.DOUBT && s.clk.doubtAt + 16000000 ≤ s.localNow then .next (s.enterLockout 7 0) else .next s

/-- Whether an XO-B proof is due (R391): none has started since the reset, or PROOF_H hours of LOCAL have passed since the last start. -/
def State.proofDue (s : State) : Bool :=
  match s.clk.proofAt with
  | some at_ => at_ + atLeast1 (s.get CLK_CFG.PROOF_H) * 3600000000000 ≤ s.localNow
  | none => true

/-- XOB_PROOF_START (R391): at boot, then every PROOF_H hours of LOCAL, while XO-A is qualified. A doubt that XO-B was part of ends with
its stop. -/
def execXobProofStart (t : Nat) (s : State) : Result :=
  let s := s.at_ t
  if s.srcOk 0 && s.proofDue then
    let doubt := s.flag CLK_STAT.DOUBT && !s.srcOk 1
    let s := { s with clk := { s.clk with proofAt := some s.localNow } }
    .next (((s.srcStart 1).putFlag CLK_STAT.PROOF true).putIf CLK_STAT.DOUBT doubt.toNat)
  else .next s

/-- CRYSTAL_RESTART (R392): every 16,000 ticks from the failure. -/
def execCrystalRestart (t src : Nat) (s : State) : Result :=
  let s := s.at_ t
  if src < 2 && s.bit CLK_STAT.FAIL src && !s.srcRuns src && SMap.getD s.clk.restartAt src 0 + 1000000000 ≤ s.localNow then
    .next (s.srcStart src)
  else .next s

/-! ### PLL and domains (R397 to R399, R413) -/

/-- PLL_LOSS_OF_LOCK (R397). -/
def execPllLossOfLock (t : Nat) (s : State) : Result :=
  let s := s.at_ t
  if !s.flag CLK_STAT.PLL_LOCK then .next s
  else
    let s := (s.putFlag CLK_STAT.BYPASS true).putFlag CLK_STAT.PLL_LOCK false
    let s := { s with clk := { s.clk with phase := s.localNow % 40 } }
    .next (s.linksDown.enterLockout 7 0)

/-- The clock domain of a register or table (R11): 2 fabric, 3 peripheral, 4 network, 5 rack bus, 6 I/O; 7 RCO and the backup domain. -/
def domainOf (a : Nat) : Nat :=
  if 0x21000000 ≤ a then 2
  else
    match blockOf a with
    | 0 | 1 | 2 => 7
    | 6 | 7 | 8 | 0x12 => 4
    | 0x10 => 5
    | 0xE | 0xF => 6
    | 0x11 => if 0x400 ≤ a % 0x8000 then 6 else 3
    | 9 | 0x13 | 0x14 | 0x15 => 3
    | _ => 2

/-- The DEVICE stores and the DEVICE read of Tricycle core `n` that have not ended: whether a store, and the address. -/
def TriCore.devices (c : TriCore) : List (Bool × Nat) :=
  c.queue.map (fun d => (true, d.addr)) ++ (c.storeStall.map (fun d => (true, d.1))).toList ++ (c.readStall.map (fun d => (false, d.1))).toList

/-- Every transaction in flight within domain `d`, or into it, ends with an error (R399): DEVICE accesses of the Tricycle; outbound rack
requests and the locked sequence in the rack bus and fabric domains, those of the service cores also in theirs; inbound ones
(assumption 178). -/
def State.switchErrors (s : State) (d : Nat) : State :=
  let s := [0, 1, 2].foldl (fun (s : State) n =>
    match (s.core n).devices.find? (fun p => d = 0 || domainOf p.2 = d) with
    | some (store, a) => s.coreTrap n store a
    | none => s) s
  let mine := fun (i : Option Initiator) => d = 5 || d = 2 || (d = 1 && i.any Initiator.isService)
  let s := (s.brg.reqs.filter (fun (r : RackReq) => mine r.who)).foldl (fun s r => s.rackFail r 4) s
  { s with brg := { s.brg with
    lock := s.brg.lock.filter (fun l => !mine (some l.who))
    inb := if d = 5 || d = 2 then [] else s.brg.inb } }.showBrg

/-- DOMAIN_SWITCH_FORCED (R399): domain 0 Tricycle, 1 service, 2 fabric, 3 peripheral, 4 network, 5 rack bus, 6 I/O. -/
def execDomainSwitchForced (t dom : Nat) (s : State) : Result :=
  let s := s.at_ t
  if 7 ≤ dom then .next s
  else .next ((((s.putBit CLK_STAT.UNCLEAN dom true).inc CLK_UNCLEAN_CNT).recordClock 3).switchErrors dom)

/-- RESET_SEQUENCE (R386, R387, R393, R396, R413): of the sources, which run from the start of the reset, `ok` are those that qualified,
XO-A in bit 0; the others have failed. The PLL locks, the domains leave bypass and LOCAL starts, `rco` ns of RCO after the reset. -/
def execResetSequence (ok : BitVec 3) (rco : Nat) (s : State) : Result :=
  if !s.pwr.inReset || s.pwr.dormant then .next s
  else
    let s := { s with
      ofs := 0
      pwr := { s.pwr with inReset := false, rcoEdge := rco }
      clk := { s.clk with run := s.clk.run &&& ok.toNat, pairs := [0, 1, 2].map (fun k => (k, ⟨true, 8, 0⟩)) } }
    let s := (s.put CLK_STAT.OK ok.toNat).put CLK_STAT.REF (if ok.getLsbD 0 then 0 else if ok.getLsbD 1 then 1 else 2)
    let s := [0, 1, 2].foldl (fun s i =>
      if ok.getLsbD i then s else ((s.putBit CLK_STAT.FAIL i true).inc CLK_SRCFAIL_CNT).recordClock 1) s
    let s := if ok.getLsbD 2 then s else s.putFlag CLK_STAT.SUPXO true
    .next (((s.putFlag CLK_STAT.BYPASS false).putFlag CLK_STAT.PLL_LOCK true).rackResetCheck)

/-! ### Gears (R400 to R402) -/

/-- Request, effective gear, cap and busy flag of a cluster: Tricycle, or service. -/
def gearReq (svc : Bool) : Fld := if svc then CLK_SGEAR.GEAR else CLK_TGEAR.GEAR
def gearAct (svc : Bool) : Fld := if svc then CLK_GEAR_STAT.S_ACT else CLK_GEAR_STAT.T_ACT
def gearCap (svc : Bool) : Fld := if svc then CLK_GEAR_STAT.S_CAP else CLK_GEAR_STAT.T_CAP
def gearBusy (svc : Bool) : Fld := if svc then CLK_GEAR_STAT.S_BUSY else CLK_GEAR_STAT.T_BUSY

/-- The gear a cluster should have (R400, R401). -/
def State.gearWanted (s : State) (svc : Bool) : Nat :=
  if s.flag CLK_CFG.FULL then min (min (s.get (gearReq svc)) 2) (s.get (gearCap svc)) else 2

/-- A change starts where the wanted gear differs and no change is under way (R402). Downwards the frequency switches at once. After a
change that was abandoned the cluster stays at its gear until another one is wanted, or asked for anew. -/
def State.gearCheck (s : State) (svc : Bool) : State :=
  let w := s.gearWanted svc
  if s.flag (gearBusy svc) then s
  else
    let off := SMap.find s.clk.gearOff svc.toNat
    let s := if off.isSome && off != some w then { s with clk := { s.clk with gearOff := SMap.erase s.clk.gearOff svc.toNat } } else s
    if w == s.get (gearAct svc) || off == some w then s
    else
      let s := ({ s with clk := { s.clk with
        gearTo := SMap.set s.clk.gearTo svc.toNat w
        gearAt := SMap.set s.clk.gearAt svc.toNat s.localNow } }).putFlag (gearBusy svc) true
      s.put (gearAct svc) (min w (s.get (gearAct svc)))

/-- A gear is asked for anew (R402). -/
def State.gearAsked (s : State) (svc : Bool) : State := { s with clk := { s.clk with gearOff := SMap.erase s.clk.gearOff svc.toNat } }

/-- Both clusters checked. -/
def State.gearsCheck (s : State) : State := (s.gearCheck false).gearCheck true

/-- GEAR_CHANGE_DONE (R402). -/
def execGearChangeDone (t : Nat) (svc : Bool) (s : State) : Result :=
  let s := s.at_ t
  if !s.flag (gearBusy svc) then .next s
  else
    let s := s.put (gearAct svc) (SMap.getD s.clk.gearTo svc.toNat 2)
    .next (((s.putFlag (gearBusy svc) false).inc CLK_GEAR_CNT).gearCheck svc)

/-- GEAR_CHANGE_ABANDON (R402): an upward change whose rail has not settled within 50 µs ends at the lower gear; a request that came
meanwhile is acted on. -/
def execGearChangeAbandon (t : Nat) (svc : Bool) (s : State) : Result :=
  let s := s.at_ t
  let aim := SMap.getD s.clk.gearTo svc.toNat 2
  if !s.flag (gearBusy svc) || aim ≤ s.get (gearAct svc) || s.localNow < SMap.getD s.clk.gearAt svc.toNat 0 + 50000 then .next s
  else
    let s := (s.putFlag (gearBusy svc) false).inc CLK_GEARFAIL_CNT
    .next (({ s with clk := { s.clk with gearOff := SMap.set s.clk.gearOff svc.toNat aim } }).gearCheck svc)

end Sys2Proof.Machine
end

