-- ==== Sys2Proof/Machine/Power.lean ====
section
/-! DEFINITION. Machine/Power.lean: supply stages, DORMANT, resets, the watchdog, the tamper loop (R405 to R418). -/
namespace Sys2Proof.Machine
open Reg

/-! ### Shedding (R405, R407, R408) -/

/-- The trace port is off in stage 1 and above, and in BOOT (R495); it restarts at a local tick edge. -/
def State.traceShed (s : State) : State :=
  if 1 ≤ s.get PWR_STAT.STAGE || s.get SYS_STAT.MODE == 0 then (s.traceOff).putIf OBS_TRC_STAT.SHED 1
  else s.putIf OBS_TRC_STAT.SHED 0

/-- Each SOURCE or SINK loop holds its present current (R332), and HART stops (R334). -/
def State.loopsShed (s : State) : State :=
  (List.range 4).foldl (fun s c =>
    let s := if s.loopMode c == 1 || s.loopMode c == 2 then
        (s.setLoop c { s.loop c with held := some (s.get (LOOP_CH_VAL.DRIVE c)) }).putFlag (LOOP_CH_STAT.HELD c) true
      else s
    (s.putFlag (LOOP_CH_STAT.STOPPED c) true).putFlag (LOOP_CH_STAT.HART_BUSY c) false) s

/-- The loops follow the publications again, and HART runs again. -/
def State.loopsBack (s : State) : State :=
  ((List.range 4).foldl (fun s c =>
    ((s.setLoop c { s.loop c with held := none }).putFlag (LOOP_CH_STAT.HELD c) false).putFlag (LOOP_CH_STAT.STOPPED c) false) s).loopRefresh

/-- Entry into stage 4 (R408, R469): outputs at Kickstand, SYS_LOSS, open door cycles ended, captures and clears stopped, the
queue ordered for the flush. -/
def State.stage4 (s : State) : State :=
  let s := (s.outputsRefresh.put SYS_LOSS.LOSS (s.get SYS_RTC.RTC)).shedCycles
  let q := s.recd.queue
  let s := { s with
    recd := { s.recd with
      running := none, waiting := [], clear := none
      queue := q.filter (fun (r : QRec) => r.part == 0) ++ q.filter (fun (r : QRec) => r.part == 1) ++ q.filter (fun (r : QRec) => r.part != 0 && r.part != 1) }
    pwr := { s.pwr with flush := true, flushAt := s.localNow } }
  ((s.putIf REC_STAT.CAPTURE 0).putIf REC_STAT.CLEARING 0).put REC_STAT.FLUSH 1

/-- The actions of entering stage `k`. -/
def State.stageIn (s : State) (k : Nat) : State :=
  let s := s.put PWR_STAT.STAGE k
  match k with
  | 1 => ((s.inc PWR_ST1_CNT).put CLK_GEAR_STAT.S_CAP 0).gearsCheck.traceShed
  | 2 => ((s.inc PWR_ST2_CNT).consFreewheel.showMvb).loopsShed
  | 3 => (((s.inc PWR_ST3_CNT).put DOOR_STAT.SHED_HELD 1).put CLK_GEAR_STAT.T_CAP 1).gearsCheck
  | _ => (s.inc PWR_ST4_CNT).stage4

/-- Stage `k` is entered, with every lower stage not yet present, in ascending order; in a reset too, since the supervisor runs on RCO. -/
def State.enterStage (s : State) (k : Nat) : State :=
  if s.pwr.dormant then s
  else ([1, 2, 3, 4].filter (fun j => s.get PWR_STAT.STAGE < j && j ≤ k)).foldl State.stageIn s

/-- Whether a supply voltage in 0.1 V reaches `c` hundredths of Un (R405, R407). -/
def State.reaches (s : State) (sup c : Nat) : Bool := c * unOf (s.get PWR_CFG.UN) ≤ 100 * sup

/-- TH1 and TH2 as they act, in 0.01 Un. -/
def State.th1 (s : State) : Nat := clampNat 60 70 (s.get PWR_CFG.TH1)
def State.th2 (s : State) : Nat := min (s.get PWR_CFG.TH2) (s.th1 - 3)

/-- HOLDUP_ENTRY (R405, R407): SUP_IN, here in 0.1 V, has read below 0.40 Un or above 1.45 Un on 5 samples. Hold-up is the condition of
stage 2, which is entered at once. -/
def execHoldupEntry (t sup : Nat) (s : State) : Result :=
  let s := s.at_ t
  let outside := !s.reaches sup 40 || 145 * unOf (s.get PWR_CFG.UN) < 100 * sup
  if s.flag PWR_STAT.HOLDUP || s.pwr.dormant || !outside then .next s
  else .next (((s.putFlag PWR_STAT.HOLDUP true).inc PWR_INTR_CNT).enterStage 2)

/-- HOLDUP_EXIT (R405): SUP_IN has read from 0.45 Un to 1.40 Un on 5 samples. -/
def execHoldupExit (t sup : Nat) (s : State) : Result :=
  let s := s.at_ t
  if s.reaches sup 45 && 100 * sup ≤ 140 * unOf (s.get PWR_CFG.UN) then .next (s.putIf PWR_STAT.HOLDUP 0) else .next s

/-- STAGE1_ENTRY (R407): SUP_IN has stood below TH1 for 1 ms. -/
def execStage1Entry (t sup : Nat) (s : State) : Result :=
  let s := s.at_ t
  if s.reaches sup s.th1 then .next s else .next (s.enterStage 1)

/-- STAGE2_ENTRY (R407): SUP_IN has stood below TH2 for 1 ms, or HOLDUP = 1. -/
def execStage2Entry (t sup : Nat) (s : State) : Result :=
  let s := s.at_ t
  if s.reaches sup s.th2 && !s.flag PWR_STAT.HOLDUP then .next s else .next (s.enterStage 2)

/-- STAGE3_ENTRY (R407): HOLDUP = 1 and HOLD_V, in 0.1 V, below 33.0 V. -/
def execStage3Entry (t hold : Nat) (s : State) : Result :=
  let s := s.at_ t
  if s.flag PWR_STAT.HOLDUP && hold < 330 then .next (s.enterStage 3) else .next s

/-- STAGE4_ENTRY (R407, R408): HOLD_V below 24.0 V. -/
def execStage4Entry (t hold : Nat) (s : State) : Result :=
  let s := s.at_ t
  if hold < 240 then .next (s.enterStage 4) else .next s

/-- A service core restarts at its reset vector (R407, R412, R415): what it had outstanding is gone. -/
def State.coreRestart (s : State) (who : Initiator) : State :=
  { s with
    traps := SMap.erase s.traps who.idx, csrTraps := SMap.erase s.csrTraps who.idx, popped := SMap.erase s.popped who.idx
    resv := SMap.erase s.resv who.idx, held := s.held.filter (fun (p : Nat × Nat) => p.1 % 8 != who.idx)
    brg := { s.brg with
      reqs := s.brg.reqs.map (fun (r : RackReq) => if r.who == some who then { r with who := none } else r)
      lock := s.brg.lock.filter (fun l => l.who != who)
      res := SMap.erase s.brg.res who.idx, amoOld := SMap.erase s.brg.amoOld who.idx } }

/-- STAGE_LEAVE (R407): the highest stage is left once SUP_IN, or the store, has come back (`sup`, `hold` in 0.1 V); stages 2 and 3 not
during hold-up, stage 4 never. Below stage 2 the service cluster restarts, and the MVB, the rings, the loops and HART resume. -/
def execStageLeave (t sup hold : Nat) (s : State) : Result :=
  let s := s.at_ t
  match s.get PWR_STAT.STAGE with
  | 1 =>
    if !s.reaches sup (s.th1 + 5) then .next s
    else .next (((s.put PWR_STAT.STAGE 0).put CLK_GEAR_STAT.S_CAP 2).gearsCheck.traceShed)
  | 2 =>
    if s.flag PWR_STAT.HOLDUP || !s.reaches sup (s.th2 + 5) then .next s
    else
      let s := [Initiator.s0, .s1, .s2, .s3].foldl State.coreRestart (s.put PWR_STAT.STAGE 1)
      .next ((List.range 8).foldl State.ringRun s.showBrg.showMvb.loopsBack)
  | 3 =>
    if s.flag PWR_STAT.HOLDUP || hold < 400 then .next s
    else .next ((((s.put PWR_STAT.STAGE 2).put DOOR_STAT.SHED_HELD 0).put CLK_GEAR_STAT.T_CAP 2).gearsCheck)
  | _ => .next s

/-- FLUSH_DEADLINE (R408, R469): 1.0 ms after stage 4 began, or once no JURIDICAL or DOOR record is left to write, the module switches off
and enters DORMANT; records still queued are lost. -/
def execFlushDeadline (t : Nat) (s : State) : Result :=
  let s := s.at_ t
  if !s.pwr.flush || (s.nextQueued.isSome && s.localNow < s.pwr.flushAt + 1000000) then .next s
  else
    let s := (s.add REC_FLUSHLOST_CNT s.recd.queue.length).cleared .dormant
    .next { s with pwr := { s.pwr with dormant := true }, clk := { s.clk with run := 0 } }

/-! ### Resets (R410 to R413) -/

/-- A reset of SYS strength or stronger, unless a stronger one is in progress (R415). -/
def State.resetBy (s : State) (k : ResetKind) (kind sub : Nat) : State :=
  if s.pwr.inReset && !s.pwr.dormant && s.get SYS_RSTCAUSE.KIND < kind then s else s.hardReset k kind sub

/-- A start of the supply (R410, R416): a POR where the backup domain has lost its contents, else a BOR. -/
def State.startReset (s : State) (sub : Nat) : State :=
  if s.nv.bkupLost then s.resetBy .por 1 0 else s.resetBy .bor 2 sub

/-- DORMANT_EXIT (R408, R410). -/
def execDormantExit (s : State) : Result := if s.pwr.dormant then .next (s.startReset 2) else .next s

/-- RAIL_FAULT (R410, R411): counted, then a BOR with sub-cause 3; SYS_LOSS takes the RTC. -/
def execRailFault (t : Nat) (s : State) : Result :=
  let s := s.at_ t
  if s.pwr.dormant then .next s
  else .next (((s.inc PWR_RAIL_CNT).put SYS_LOSS.LOSS (s.get SYS_RTC.RTC)).startReset 3)

/-- POWER_ON_RESET (R9, R410, R415). -/
def execPowerOnReset (s : State) : Result := .next (s.resetBy .por 1 0)

/-- BROWN_OUT_RESET (R9, R410, R415): a supply start. -/
def execBrownOutReset (s : State) : Result := .next (s.startReset 1)

/-- EXT_RESET (R410, R484). -/
def execExtReset (t : Nat) (s : State) : Result :=
  if s.pwr.dormant then .next s else .next ((s.at_ t).resetBy .ext 3 0)

/-- SYS (R410, R449): SYS_RST KIND SYS, after the wait for the records queued. -/
def execSys (t : Nat) (who : Initiator) (s : State) : Result :=
  match (s.at_ t).gate who SYS_RST.KIND.addr true (who == .boot) with
  | (s, false) => .next s
  | (s, true) => .next (s.ownReset 1)

/-- CORE (R53, R410, R412): SYS_RST KIND CORE for S0 to S3; other targets are refused. -/
def execCore (t : Nat) (who : Initiator) (target : Nat) (s : State) : Result :=
  match (s.at_ t).gate who SYS_RST.KIND.addr true (who == .boot) with
  | (s, false) => .next s
  | (s, true) => if 4 ≤ target then .next (s.inc SYS_RST_REJ_CNT) else .next (((s.coreRestart (.ofIdx (target + 1))).showBrg).inc SYS_DOMRST_CNT).graceByReset

/-- Whether the word at `a` lies in domain `d`: 0 network, 1 rack bus, 2 I/O (R11, R50). -/
def inDomain (d a : Nat) : Bool :=
  let b := blockOf a
  0x20000000 ≤ a && a < 0x20160000 &&
    match d with
    | 0 => b == 6 || b == 7 || b == 8 || b == 0x12
    | 1 => b == 0x10
    | _ => b == 0xE || b == 0xF || (b == 0x11 && 0x400 ≤ a % 0x8000)

/-- What a DOMAIN reset does beyond the registers (R412, R415): every transaction into the domain ends, LANE and CONSIST are
lost with the network domain. -/
def State.domainClear (s : State) (d : Nat) : State :=
  let z := State.reset
  match d with
  | 0 =>
    { s with
      lanes := { z.lanes with
        hops := s.lanes.hops, tick := s.lanes.tick, boundary := s.lanes.boundary, edges := s.lanes.edges, pubAt := s.lanes.pubAt, pubs := s.lanes.pubs
        buf := s.lanes.buf, pub := s.lanes.pub, carried := s.lanes.carried, age := s.lanes.age, sentAge := s.lanes.sentAge }
      ecn := { z.ecn with vlans := s.ecn.vlans }
      time := { s.time with sync := none, rates := [], ptp := none, anns := [], slew := 0, caps := [], events := [] }
      twin := { z.twin with epochSeen := s.twin.epochSeen, layoutId := s.twin.layoutId } }
  | 1 =>
    let s := s.brg.reqs.foldl (fun s r => s.rackFail r 4) s
    { s with brg := { z.brg with res := s.brg.res, dmaFailed := s.brg.dmaFailed } }
  | _ =>
    { s with dio := z.dio, loops := [], loopPrg := true, gw := { s.gw with mvb := [] } }

/-- DOMAIN (R9, R53, R410, R412): SYS_RST KIND DOMAIN, in BOOT, SERVICE and LOCKOUT; otherwise refused. -/
def execDomain (t : Nat) (who : Initiator) (target : Nat) (s : State) : Result :=
  match (s.at_ t).gate who SYS_RST.KIND.addr true (who == .boot) with
  | (s, false) => .next s
  | (s, true) =>
    let m := s.get SYS_STAT.MODE
    if 3 ≤ target || m == 2 || m == 3 then .next (s.inc SYS_RST_REJ_CNT)
    else
      let s := if target = 0 && s.flag TIME_STAT.LANE_SYNC then s.loseSources else s
      let s := (s.domainClear target).resetRegs .domain (inDomain target)
      let s := (s.inc SYS_DOMRST_CNT).graceByReset
      .next ((s.showRole.showMvb.rackResetCheck).outputsRefresh).showTime

/-! ### Watchdog (R414) -/

/-- TMO in ms as it acts. -/
def State.wdgTmo (s : State) : Nat := atLeast1 (s.get SYS_WDG_CFG.TMO)

/-- WIN in ms as it acts. -/
def State.wdgWin (s : State) : Nat := min (s.get SYS_WDG_CFG.WIN) (s.wdgTmo - 1)

/-- The watchdog's clock `rco` ns of RCO after the latest local tick edge, or after the reset where none has come since (R414). -/
def State.wdgNow (s : State) (rco : Nat) : Nat := s.pwr.rcoEdge + rco

/-- WATCHDOG_EXPIRY (R410, R414): TMO ms of RCO without a refresh, from the reset on. -/
def execWatchdogExpiry (t rco : Nat) (s : State) : Result :=
  let s := s.at_ t
  if !s.pwr.dormant && s.pwr.wdgAt + s.wdgTmo * 1000000 ≤ s.wdgNow rco then .next (s.resetBy .wdg 4 1) else .next s

/-- WDG_KICK (R414): 0x00A5 directly followed by 0x005A refreshes; any other write, and a refresh before WIN, expires. -/
def execWdgKick (t rco : Nat) (who : Initiator) (key : BitVec 16) (s : State) : Result :=
  match (s.at_ t).gate who SYS_WDG_KICK.KEY.addr false (who == .boot) with
  | (s, false) => .next s
  | (s, true) =>
    if key == 0x00A5 && !s.pwr.wdgHalf then .next { s with pwr := { s.pwr with wdgHalf := true } }
    else if key == 0x005A && s.pwr.wdgHalf then
      if !s.flag SYS_WDG_STAT.CFG_OPEN && s.wdgNow rco < s.pwr.wdgAt + s.wdgWin * 1000000 then .next (s.resetBy .wdg 4 2)
      else
        let s := { s with pwr := { s.pwr with wdgHalf := false, wdgAt := s.wdgNow rco } }
        .next ((s.putFlag SYS_WDG_STAT.CFG_OPEN false).put SYS_WDG_STAT.REMAIN s.wdgTmo)
    else .next (s.resetBy .wdg 4 2)

/-- WDG_CFG_WRITE (R414): until the first refresh. -/
def execWdgCfgWrite (t : Nat) (who : Initiator) (tmo win : BitVec 8) (s : State) : Result :=
  match (s.at_ t).gate who SYS_WDG_CFG.TMO.addr false (who == .boot) with
  | (s, false) => .next s
  | (s, true) =>
    if s.flag SYS_WDG_STAT.CFG_OPEN then .next ((s.put SYS_WDG_CFG.TMO tmo.toNat).put SYS_WDG_CFG.WIN win.toNat)
    else .next (s.inc SYS_WDG_REJ_CNT)

/-! ### Backup domain (R416 to R418) -/

/-- BACKUP_DOMAIN_LOSS (R416). -/
def execBackupDomainLoss (s : State) : Result := .next { s with nv := { s.nv with bkupLost := true } }

/-- TAMPER_OPENING (R418): `ticks` 1/32,768 s have passed since the RTC was last brought up to date. -/
def execTamperOpening (ticks : Nat) (s : State) : Result :=
  if s.flag SYS_TAMPER.OPEN then .next s
  else
    let s := (s.add SYS_RTC.RTC ticks).inc SYS_TAMPER_CNT
    .next ((s.put SYS_TAMPER_TIME.TIME (s.get SYS_RTC.RTC)).putFlag SYS_TAMPER.OPEN true)

/-- TAMPER_LOOP_CLOSED (R418). -/
def execTamperLoopClosed (s : State) : Result := .next (s.putIf SYS_TAMPER.OPEN 0)

end Sys2Proof.Machine
end

