-- ==== Sys2Proof/Machine/Boot.lean ====
section
/-! DEFINITION. Machine/Boot.lean: the boot chain, slot selection, the personality table and the exit from BOOT (R344, R415, R421,
R425 to R430, R475, R479 to R481). -/
namespace Sys2Proof.Machine
open Reg

/-! ### What follows a change of configuration registers -/

/-- The blocks follow their enables: lanes, ECN ports, rack bus, gears, MVB, outputs (R270, R285, R371, R297, R402, R321, R329). -/
def State.configChanged (s : State) : State :=
  let s := s.lanesCheck.gearsCheck.rackResetCheck.showMvb
  let s := [0, 1].foldl (fun (s : State) p => if s.ecnMay p then s else s.ecnDown p) s
  s.outputsRefresh

/-! ### Loading an image (R39, R148, R216, R415, R430) -/

/-- Whether the boot supervisor loads the word at `a`: a buffered register or one loaded from the Orchard image. -/
def loadable (a : Nat) : Bool :=
  match findRow a with
  | some r => r.acc == .rw || r.acc == .rwg || (r.acc == .ro && r.loaded)
  | none => false

/-- One register word loaded: its named bits take the value, applied and pending alike (R39). -/
def State.loadWord (s : State) (a : Nat) (v : Word) : State :=
  if loadable a then
    let m := BitVec.ofNat 32 (namedMask a)
    { s.setWord a (takenWord a ((v &&& m) ||| (s.word a &&& ~~~m))) with pend := SMap.erase s.pend a }
  else s

/-- Register words loaded in order. -/
def State.loadWords (s : State) (l : List (Nat × BitVec 32)) : State := l.foldl (fun (s : State) (p : Nat × BitVec 32) => s.loadWord p.1 p.2) s

/-- Registers, tables and seed envelopes of slot `n`'s images, the line order and VLAN IDs (R262, R287), the one program into all three
Tricycle cores' memories (R59), and PROG_ID of the header (R431). -/
def State.loadImage (s : State) (n : Nat) (img : SlotImage) : State :=
  let s := img.bytes.foldl (fun (s : State) (p : Nat × List (BitVec 8)) =>
    (imageAddrs p.1 p.2.length).foldl (fun (s : State) a => s.storeBytes a p.2) s) (s.loadWords img.words)
  let s := s.put CYC_PROG_ID.ID (imgProgId (s.slotOrch n))
  { s with
    twin := { s.twin with layoutId := img.layoutId }, boot := { s.boot with personalities := img.personalities }
    lanes := { s.lanes with hops := img.hops }, ecn := { s.ecn with vlans := img.vlans } }

/-- Start and length of envelope memory (R146). -/
def envBase : Nat := 0x21300000
def envLen : Nat := 0x30000

/-- CRC-32C of the DOOR axis table words (R430). -/
def State.axisTableCrc (s : State) : Nat :=
  crc32c ((List.range (96 * 16)).flatMap (fun i => leBytes 4 (s.word (0x200C1000 + 4 * i)).toNat))

/-- The envelope copies, newest first. -/
def State.envCopies (s : State) : List EnvCopy :=
  match s.nv.env0, s.nv.env1 with
  | some a, some b => if a.gen < b.gen then [b, a] else [a, b]
  | some a, none => [a]
  | none, some b => [b]
  | none, none => []

/-- The CRC-64 of an envelope copy, over its envelope memory (R69, R430). -/
def EnvCopy.crcOf (c : EnvCopy) : Nat := crc64 (Mem.readBytes c.cells envBase envLen)

/-- The newest copy that matches the door axis table and whose CRC-64 is valid is loaded, else the image's seed envelopes stay (R148, R430). -/
def State.loadEnvelopes (s : State) : State :=
  match s.envCopies with
  | [] => s
  | l =>
    let crc := s.axisTableCrc
    match l.find? (fun (c : EnvCopy) => c.axisCrc == crc && c.crc == c.crcOf) with
    | some c => { s with mem := Mem.copyFrom c.cells s.mem envBase envBase envLen }
    | none => s

/-- The envelope memory is written to the older copy (R430); never in shedding stage 2 or higher. -/
def State.saveEnvelopes (s : State) : State :=
  if 2 ≤ s.get PWR_STAT.STAGE then s
  else
    let gen := match s.envCopies with
      | c :: _ => c.gen + 1
      | [] => 1
    let c : EnvCopy := ⟨gen, s.axisTableCrc, Mem.slice s.mem envBase envLen envBase, 0⟩
    let c := { c with crc := c.crcOf }
    let nv := match s.nv.env0, s.nv.env1 with
      | some a, some b => if a.gen < b.gen then { s.nv with env0 := some c } else { s.nv with env1 := some c }
      | some _, none => { s.nv with env1 := some c }
      | none, _ => { s.nv with env0 := some c }
    ({ s with nv := nv, boot := { s.boot with savedLearn := s.get DOOR_LEARN_CNT } }).inc UPD_ENVSAVE_CNT

/-- Function latches after a SYS or stronger reset (R216). -/
def State.startLatches (s : State) : State :=
  (List.range 32).foldl (fun (s : State) n =>
    let o := s.get (TRIP_FN.START_OPEN n)
    (s.putIf (TRIP_FN_STAT.LATCHED n) (1 - o)).putIf (TRIP_FN_STAT.CAUSE n) (1 - o)) s

/-! ### Exit from BOOT (R114, R227, R344, R421, R426, R441, R455) -/

/-- The program state on the exit from BOOT (R111, R114). -/
def State.autorun (s : State) : State :=
  if s.flag CYC_CFG.AUTORUN then ((s.put CYC_STAT.PSTATE 1).putFlag CYC_STAT.KICK false).askStart else s

/-- Sessions with AUTO open (R227). -/
def State.autoOpen (s : State) : State :=
  ((List.range 128).foldl (fun (s : State) n => if s.flag (SAFE_S.AUTO n) then s.openSess n else s) s).safeCount

/-- The confirm window in seconds (UPD_CFG). -/
def State.confWin (s : State) : Nat := clampNat 30 3600 (s.get UPD_CFG.CONF_WIN)

/-- The window of the twin link protocol after entering RUN begins. -/
def State.openWindow (s : State) : State := { s with twin := { s.twin with window := some 0 } }

/-- The module leaves BOOT. -/
def State.leaveBoot (s : State) : State :=
  let s := { s with boot := { s.boot with
    lamp := none, noSlot := none, exitAt := s.localNow, saveAt := s.localNow, savedLearn := s.get DOOR_LEARN_CNT } }
  let s := s.inc UPD_BOOT_CNT
  let s := if s.flag UPD_STAT.TRIAL then s.put UPD_CONF_LEFT.LEFT s.confWin else s
  let s := s.bootRecords
  match s.boot.kept with
  | some (reason, sub) => ({ s with boot := { s.boot with kept := none } }).lockout reason sub
  | none =>
    if s.flag UPD_STAT.NEXT_SERVICE then ((s.putFlag UPD_STAT.NEXT_SERVICE false).enterMode 1).autorun.autoOpen
    else (s.enterMode 2).autorun.autoOpen.openWindow

/-- Steps 5 to 7 of R426, once the slot code has named the personality that `words` are. The copies of the timing set hold the loaded
value before the release (R63). -/
def State.completeBoot (s : State) (words : List (Nat × BitVec 32)) : State :=
  let s := ((s.loadWords words).loadTset.loadEnvelopes.startLatches.localUnhome).configChanged
  let s := (List.range 512).foldl (fun (s : State) n => if s.flag (ECN_PD.EN n) then s.put (ECN_PDST.STATE n) 1 else s) s
  let s := (List.range 8).foldl State.ringRun s
  let s := s.loadWord REGG_CFG_CTRL.EN.addr (s.word REGG_CFG_CTRL.EN.addr ||| BitVec.ofNat 32 (2 ^ REGG_CFG_CTRL.EN.lo))
  s.tripStart.releaseCores.leaveBoot.traceShed

/-! ### Slot selection (R425 to R428) -/

/-- An image is refused (R427, R429). -/
def State.refuseImage (s : State) (code slot imgId : Nat) : State :=
  ((s.put UPD_STAT.REFUSE code).inc UPD_REFUSE_CNT).recordImage 1 slot code imgId

/-- boot_ok() of R428: slot `n` loaded, or refused and BAD; `sup` is SUP_IN in 0.1 V. Of a verified Orchard image the token authorities stay
known (R445). -/
def State.bootOk (s : State) (n : Nat) (img : SlotImage) (sup : Nat) : State × Bool :=
  let l := s.loadImage n img
  let code := l.acceptCode n img sup
  if code == 0 then ({ l with boot := { l.boot with authorities := img.authorities } }, true)
  else
    let s := if code == 1 then s else { s with boot := { s.boot with authorities := img.authorities } }
    ((s.refuseImage code n (s.table.slot n).orchId).slotState n 4, false)

/-- The running slot (R428, R435). -/
def State.runImage (s : State) (n : Nat) (img : SlotImage) (trial : Bool) : State :=
  let s := ((s.put UPD_STAT.RUN_SLOT n).putFlag UPD_STAT.TRIAL trial).put UPD_STAT.CONF 0
  let s := (s.put UPD_VER.ORCH_MIN img.orchMin).put UPD_VER.ORCH_MAX img.orchMax
  (s.put UPD_RUN_ID.ID (s.table.slot n).orchId).put UPD_VER.ORCH_RUN (imgFmt (s.slotOrch n))

/-- The trial part of R428: the slot not preferred. -/
def State.trySlot (s : State) (o : Nat) (img : SlotImage) (sup : Nat) : State × Bool :=
  let r := s.table.slot o
  if r.state != 2 then (s, false)
  else if r.tries < atLeast1 (s.get UPD_CFG.TRIES) then
    match (s.writeTable (s.table.setSlot o { r with tries := r.tries + 1 })).bootOk o img sup with
    | (s, true) => (s.runImage o img true, true)
    | (s, false) => (s.fallback o, false)
  else (s.fallback o, false)

/-- A GOOD slot (R428). -/
def State.goodSlot (s : State) (n : Nat) (img : SlotImage) (sup : Nat) : State × Bool :=
  if (s.table.slot n).state != 3 then (s, false)
  else match s.bootOk n img sup with
    | (s, true) => (s.runImage n img false, true)
    | (s, false) => (s, false)

/-- The selection of R428; no slot is LOCKOUT with reason IMAGE. -/
def State.selectSlot (s : State) (img : Nat → SlotImage) (sup : Nat) : State × Bool :=
  let p := s.table.preferred
  let o := 1 - p
  match s.trySlot o (img o) sup with
  | (s, true) => (s, true)
  | (s, false) =>
    match s.goodSlot p (img p) sup with
    | (s, true) => (s, true)
    | (s, false) =>
      match s.goodSlot o (img o) sup with
      | (s, true) => (s.writeTable { s.table with preferred := o }, true)
      | (s, false) => (s.enterLockout 8 0, false)

/-! ### Slot codes (R480, R481) -/

/-- The personality that three readings of SLOT_ID name. -/
def State.personality (s : State) (r0 r1 r2 : BitVec 4) : Option (List (Nat × BitVec 32)) :=
  if r0 == r1 && r1 == r2 && r0 != 15 then
    (s.boot.personalities.find? (fun (p : Nat × List (Nat × BitVec 32)) => p.1 == r0.toNat)).map (fun p => p.2)
  else none

/-- Step 5 goes on, or BOOT is held (R481). -/
def State.readSlots (s : State) (r0 r1 r2 : BitVec 4) : State :=
  match s.personality r0 r1 r2 with
  | some words => s.completeBoot words
  | none => { s with boot := { s.boot with noSlot := some (r2.toNat, s.localNow) } }

/-- BOOT_CHAIN (R426 to R430): `fw0` and `fw1` are what the checks give for the copies of the supervisor firmware, `imgA` and `imgB` what they
give for the slots' images and what their bodies hold, `sup` is SUP_IN in 0.1 V, `r0` to `r2` the readings of SLOT_ID. -/
def execBootChain (t : Nat) (fw0 fw1 : SigCheck) (imgA imgB : SlotImage) (sup : Nat) (r0 r1 r2 : BitVec 4) (s : State) : Result :=
  let s := s.at_ t
  if s.get SYS_STAT.MODE != 0 || s.pwr.inReset || s.pwr.dormant || s.boot.stopped || s.boot.noSlot.isSome || !s.flag REC_STAT.READY then .next s
  else if !s.imageValid (s.supFirmware 0) 1 fw0 && !s.imageValid (s.supFirmware 1) 1 fw1 then .next { s with boot := { s.boot with stopped := true, noFw := true } }
  else
    let s := { s with boot := { s.boot with lamp := some s.localNow } }
    match s.selectSlot (fun n => if n = 0 then imgA else imgB) sup with
    | (s, true) => .next (s.readSlots r0 r1 r2)
    | (s, false) => .next s

/-- SLOT_ID_RETRY (R481): every second while BOOT is held. -/
def execSlotIdRetry (t : Nat) (r0 r1 r2 : BitVec 4) (s : State) : Result :=
  let s := s.at_ t
  match s.boot.noSlot with
  | some (_, at_) =>
    if s.get SYS_STAT.MODE == 0 && !s.boot.stopped && at_ + 1000000000 ≤ s.localNow then .next (s.readSlots r0 r1 r2) else .next s
  | none => .next s

/-- LAMP_TEST_END (R475): every colour has been shown for 0.5 s. -/
def execLampTestEnd (t : Nat) (s : State) : Result :=
  let s := s.at_ t
  match s.boot.lamp with
  | some at_ => if at_ + 1000000000 ≤ s.localNow then .next { s with boot := { s.boot with lamp := none } } else .next s
  | none => .next s

end Sys2Proof.Machine
end

