-- ==== Sys2Proof/Machine/Trip.lean ====
section
/-! DEFINITION. Machine/Trip.lean: literals, terms, the vote of the trip evaluators and its test, term banks, spokes, source loss
and function restarts (R199 to R218). -/
namespace Sys2Proof.Machine
open Reg

/-! ### Literals, terms and outputs (R199 to R201) -/

/-- Bit `b` of the module's own spoke (R206), `lit` giving a literal's value. -/
def State.spokeBit (s : State) (lit : Nat → Bool) (b : Nat) : Bool :=
  let i := s.get (TRIP_SPKMAP.INDEX b)
  s.flag (TRIP_SPKMAP.EN b) && (if s.flag (TRIP_SPKMAP.OUT b) then s.tripOut (i % 512) else lit i)

/-- Literal `i` (R199) where it is no bit of an own source without PAIR. -/
def State.plainLit (s : State) (i : Nat) : Bool :=
  if i < 0x040 then s.bit DIO.STATE i
  else if i < 0x240 then s.bit (TRIP_SRC_STAT.BITS ((i - 0x40) / 16)) (i % 16) && !s.srcLost ((i - 0x40) / 16)
  else if i < 0x250 then s.bit DOOR_ILK.ILK (i - 0x240)
  else if i < 0x2D0 then s.trip.prg.getLsbD (i - 0x250)
  else if i < 0x2F0 then !s.srcLost (i - 0x2D0)
  else if i = 0x2F0 then s.get SYS_STAT.MODE == 3 && s.claiming
  else i = 0x2F1 && s.flag TIME_STAT.LANE_SYNC

/-- Literal `i` (R199, R211): an own source without PAIR takes what TRIP_SPKMAP gives; a map entry that names such a bit again
takes its value at the last capture. -/
def State.literal (s : State) (i : Nat) : Bool :=
  if 0x040 ≤ i && i < 0x240 && s.ownAlone ((i - 0x40) / 16) then
    s.spokeBit (fun j => if 0x040 ≤ j && j < 0x240 && s.ownAlone ((j - 0x40) / 16) then s.trip.lits.getLsbD j else s.plainLit j) (i % 16)
  else s.plainLit i

/-- A number from `n` bits. -/
def bitsNat (n : Nat) (f : Nat → Bool) : Nat := (List.range n).foldl (fun v i => if f i then v + 2 ^ i else v) 0

/-- The 16 bits of the own spoke as they stand. -/
def State.ownBits (s : State) : Nat := bitsNat 16 (s.spokeBit s.literal)

/-- The literals at a capture (R202). -/
def State.capture (s : State) : BitVec 1024 := BitVec.ofNat 1024 (bitsNat 1024 s.literal)

/-- Address of term `k` in bank `b` (R205). -/
def termAddr (b k : Nat) : Nat := 0x21200000 + b * 0x40000 + k * 0x200

/-- Whether term `k` of the active bank is true for the literals `lits` (R200). -/
def State.termTrue (s : State) (lits : BitVec 1024) (k : Nat) : Bool :=
  let a := termAddr (s.get TRIP_STAT.BANK) k
  let use := s.load (a + 0x80) 128
  let val := s.load (a + 0x100) 128
  (lits.toNat ^^^ val) &&& use == 0

/-- What every evaluator computes (R200): each output is the OR of its enabled terms. -/
def State.outputs (s : State) (lits : BitVec 1024) : BitVec 512 :=
  let heads := (List.range 512).map (fun k => (k, s.load (termAddr (s.get TRIP_STAT.BANK) k) 4))
  let on := heads.filter (fun (p : Nat × Nat) => bitOf p.2 0 && s.termTrue lits p.1)
  BitVec.ofNat 512 (on.foldl (fun v (p : Nat × Nat) => v ||| 2 ^ bitsOf p.2 16 9) 0)

/-- Whether every trip output is at its safe value 0: LOCKOUT (TRIP_STAT.LOCK), or a mismatch with ACTION SAFE (R54). -/
def State.allZero (s : State) : Bool :=
  s.get SYS_STAT.MODE == 4 || (s.flag REGG_STAT.CFG_MISMATCH && s.get REGG_CFG_CTRL.ACTION == 1)

/-- The voted values after R201: 0 with PERMIT outside ACTIVE, and while the bound function is latched. -/
def State.gateOuts (s : State) (v : BitVec 512) : BitVec 512 :=
  if s.allZero then 0
  else BitVec.ofNat 512 (bitsNat 512 (fun j => v.getLsbD j
    && !(bitOf (s.tripAttr j) 0 && s.get SYS_STAT.MODE != 3)
    && (match s.tripFn j with
        | some n => !s.flag (TRIP_FN_STAT.LATCHED n)
        | none => true)))

/-- A change of trip outputs fires the snapshot triggers that name its edge (R459). -/
def State.tripTriggers (s : State) (old : BitVec 512) : State :=
  (List.range 32).foldl (fun s k =>
    let j := s.get (REC_TRG.INDEX k)
    let hit := if s.flag (REC_TRG.FALL k) then old.getLsbD j && !s.tripOut j else !old.getLsbD j && s.tripOut j
    if s.trigUsed k 1 && hit then s.fireTrigger k 1 j else s) s

/-- The output register holds `v` after the gates of R201: trip-bound channels, the trip area and triggers follow (R206). -/
def State.setOuts (s : State) (v : BitVec 512) : State :=
  let old := s.trip.outs
  let new := s.gateOuts v
  let s := { s with trip := { s.trip with outs := new } }
  let s := s.putIf TRIP_STAT.LOCK (s.get SYS_STAT.MODE == 4).toNat
  if new == old then s
  else
    let s := (List.range 16).foldl (fun (s : State) n =>
      let j := s.get (TIME_CAP_CFG.INDEX n)
      if s.get (TIME_CAP_CFG.KIND n) == 3 && new.getLsbD j != old.getLsbD j then s.stampEvent (64 + j) else s) s
    ((s.chansUpdate ((List.range 64).filter s.tripBound)).tripTriggers old).tripArea

/-- The voted values of an evaluation reach the output stage (R202, R322). -/
def State.takeOuts (s : State) (v : BitVec 512) : State := { s with dio := { s.dio with evalSeen := true } }.setOuts v

/-- LOCKOUT, reason TRIP (R203, R204): where evaluations no longer arrive, the gates of R201 still act on the values that stand. -/
def State.tripLockout (s : State) : State := let s := s.enterLockout 5 0; s.setOuts s.trip.outs

/-! ### Evaluation and vote (R202 to R204) -/

/-- Whether evaluator `e` participates. -/
def State.evalOn (s : State) (e : Nat) : Bool := s.bit TRIP_STAT.EVAL e

/-- Participating evaluators. -/
def State.evals (s : State) : List Nat := [0, 1, 2].filter s.evalOn

/-- Bitwise majority of three. -/
def major3 (a b c : BitVec 512) : BitVec 512 := (a &&& b) ||| (a &&& c) ||| (b &&& c)

/-- An evaluator is excluded (R203): functions with EVAL latch, and a trial's clean cycles start anew (R441). -/
def State.excludeEval (s : State) (e : Nat) : State :=
  ((s.putBit TRIP_STAT.EVAL e false).put UPD_CLEAN.CLEAN 0).faultFns 3 (fun _ => true)

/-- Exclusions after an evaluation in which the evaluators of mask `minor` were in minority (R203); with fewer than two left the
module enters LOCKOUT. -/
def State.minority (s : State) (minor : Nat) : State :=
  let twice := [0, 1, 2].filter (fun e => bitOf minor e && bitOf s.trip.prevMinor e)
  let s := s.add TRIP_EDIS_CNT ([0, 1, 2].filter (bitOf minor)).length
  let s := { s with trip := { s.trip with prevMinor := if twice.isEmpty then minor else 0 } }
  let s := twice.foldl State.excludeEval s
  if s.evals.length < 2 then s.tripLockout else s

/-- The values of the three evaluators under fault masks. -/
def evalValues (v f0 f1 f2 : BitVec 512) : Nat → BitVec 512
  | 0 => v ^^^ f0
  | 1 => v ^^^ f1
  | _ => v ^^^ f2

/-- The bits of an own source without PAIR as the literals have them (R211). -/
def State.showOwn (s : State) : State :=
  let n := s.get TRIP_SELF.SRC
  if s.ownAlone n then (s.putIf (TRIP_SRC_STAT.BITS n) s.ownBits).putIf (TRIP_SRC_STAT.LIVE n) 1 else s

/-- TRIP_EVALUATION (R200 to R203): `f0` to `f2` are the evaluators' own faults, as the outputs they invert, and `xfail` a
cross-check failure of the vote; all 0 in a sound fabric (assumption 190). -/
def execTripEvaluation (t : Nat) (f0 f1 f2 : BitVec 512) (xfail : Bool) (s : State) : Result :=
  let s := s.at_ t
  if s.pwr.inReset || s.pwr.dormant then .next s
  else
    let lits := s.capture
    let e := evalValues (s.outputs lits) f0 f1 f2
    let s := { s with trip := { s.trip with lits := lits } }.showOwn
    match s.evals with
    | [_, _, _] =>
      if xfail then .next s.tripLockout
      else
        let v := major3 (e 0) (e 1) (e 2)
        let minor := bits3 (fun i => e i != v)
        .next ((s.takeOuts v).minority minor)
    | [a, b] =>
      if xfail then .next s.tripLockout
      else
        let differ := e a != e b
        let again := differ && s.trip.prevMinor != 0
        let s := (s.takeOuts (e a &&& e b))
        let s := { s with trip := { s.trip with prevMinor := differ.toNat } }
        .next (if again then s.tripLockout else s)
    | _ => .next s.tripLockout

/-- TRIP_VOTER_TEST (R204): one evaluation with every output of one evaluator inverted, which both rails must report in minority on
all outputs; skipped while two evaluators participate. -/
def execTripVoterTest (t : Nat) (f0 f1 f2 : BitVec 512) (xfail : Bool) (s : State) : Result :=
  let s := s.at_ t
  if s.trip.testTicks < 16384 || s.pwr.inReset || s.pwr.dormant then .next s
  else if s.evals.length < 3 then .next (s.putFlag TRIP_STAT.VTEST_PEND true)
  else
    let lits := s.capture
    let k := s.get TRIP_VTEST_CNT % 3
    let e0 := evalValues (s.outputs lits) f0 f1 f2
    let e := fun i => if i = k then ~~~(e0 i) else e0 i
    let v := major3 (e 0) (e 1) (e 2)
    let good := !xfail && [0, 1, 2].all (fun i => (e i ^^^ v) == (if i = k then BitVec.allOnes 512 else 0))
    let s := ({ s with trip := { s.trip with lits := lits } }).takeOuts v
    if good then
      .next ({ ((s.inc TRIP_VTEST_CNT).putFlag TRIP_STAT.VTEST_PEND false) with trip := { s.trip with testTicks := 0 } })
    else .next s.tripLockout

/-- TRIP_SWAP (R205): boot supervisor only, guarded; the bank changes at the next edge. -/
def execTripSwap (t : Nat) (who : Initiator) (bank : Bool) (s : State) : Result :=
  match (s.at_ t).gate who TRIP_SWAP.BANK.addr true (who == .boot) with
  | (s, true) => .next ({ s with trip := { s.trip with swapTo := bank.toNat } }.putFlag TRIP_STAT.SWAP_PEND true)
  | (s, false) => .next s

/-! ### Spokes (R208 to R211, R252) -/

/-- Whether the module sends spokes (R209, R339): enabled, claiming, LANE synchronised. -/
def State.sendsSpokes (s : State) : Bool := s.flag TRIP_SELF.EN && s.claiming && s.flag TIME_STAT.LANE_SYNC

/-- A spoke on lane `l` (R252). STAMP and CV are those of its first bit, at each port. -/
def State.spokeFrame (s : State) (l bits seq : Nat) : List Byte :=
  s.stamped s.localNow (s.laneFrame l false 5 0xFFFF 0 false false (beBytes 2 bits ++ beBytes 4 seq ++ List.replicate 24 0))

/-- Where the module starts to send spokes the bucket is full (R208). -/
def State.spokeState (s : State) : State :=
  let now := s.sendsSpokes
  if now == s.trip.sending then s
  else { s with trip := { s.trip with sending := now, tokens := if now then 2 else s.trip.tokens } }

/-- Whether spokes go out on lane `l`: a link is up, and the lane is neither OFF nor in FAULT with cause DUPID (R208, R269, R270). -/
def State.spokeLane (s : State) (l : Nat) : Bool :=
  s.linked l != 0 && s.laneState l != 0 && !(s.laneState l == 5 && s.get (LANE_STAT.FAULT l) == 1)

/-- A spoke leaves on every linked port of both lanes (R208, R247). -/
def State.sendSpoke (s : State) : State :=
  let bits := s.ownBits
  let seq := s.trip.seq
  let s := [0, 1].foldl (fun s l => if s.spokeLane l then s.spokeOut l (s.spokeFrame l bits seq) else s) s
  let s := { s with trip := { s.trip with
    tokens := s.trip.tokens - 1, seq := (seq + 1) % 2 ^ 32, sentBits := bits, waitEvt := false, waitPer := false } }
  let n := s.get TRIP_SELF.SRC
  let s := s.inc TRIP_SPK_TX_CNT
  if s.flag (TRIP_SRC.PAIR n) then
    let s := (s.put (TRIP_SRC_STAT.BITS n) bits).putFlag (TRIP_SRC_STAT.LIVE n) true
    let x := SMap.getD s.trip.srcs n ⟨false, 0, 0⟩
    ({ s with trip := { s.trip with srcs := SMap.set s.trip.srcs n { x with ticks := 0 } } }).showPresent.tripArea
  else s

/-- EVENT_SPOKE (R208, R209): a change of the own bits, or one that waits, leaves with a token, else waits for the next. -/
def execEventSpoke (t : Nat) (s : State) : Result :=
  let s := (s.at_ t).spokeState
  if !s.sendsSpokes || !(s.trip.waitEvt || s.ownBits != s.trip.sentBits) then .next s
  else if 0 < s.trip.tokens then .next s.sendSpoke
  else if s.trip.waitEvt then .next s
  else .next (({ s with trip := { s.trip with waitEvt := true } }).inc TRIP_TOKW_CNT)

/-- The spoke work of a lane tick boundary (R208): the token of an even tick, and the periodic spoke. -/
def State.spokeTick (s : State) : State :=
  let tick := s.lanes.tick
  let s := s.spokeState
  let s := if tick % 2 = 0 then { s with trip := { s.trip with tokens := min 2 (s.trip.tokens + 1) } } else s
  if !s.sendsSpokes then s
  else
    let due := s.trip.waitPer || s.trip.waitEvt || tick % 8 == s.node % 8
    if due && 0 < s.trip.tokens then s.sendSpoke
    else if tick % 8 == s.node % 8 then { s with trip := { s.trip with waitPer := true } }
    else s

/-- source_with_node() of R210. -/
def State.sourceOf (s : State) (node : Nat) : Option Nat :=
  (List.range 32).find? (fun n => s.flag (TRIP_SRC.EN n)
    && (s.get (TRIP_SRC.NODE n) == node || (s.flag (TRIP_SRC.PAIR n) && s.get (TRIP_SRC.NODE n) + 1 == node)))

/-- An accepted spoke (R210, R340). -/
def State.acceptSpoke (s : State) (n lane : Nat) (h : LHdr) (bits seq age : Nat) : State :=
  let s := s.heed h.claim
  let s := (s.put (TRIP_SRC_STAT.BITS n) bits).put (TRIP_SRC.SEQ n) seq
  let s := ((s.putFlag (TRIP_SRC_STAT.LIVE n) true).putFlag (TRIP_SRC_STAT.FORCED n) (bitOf h.flags 0)).put (TRIP_SRC_STAT.LANE n) lane
  let s := { s with trip := { s.trip with srcs := SMap.set s.trip.srcs n ⟨true, h.claim, 0⟩ } }
  let s := (s.stampEvent (1024 + n)).put (TRIP_SRC.MAXLAT n) (max (s.get (TRIP_SRC.MAXLAT n)) age)
  let s := if s.get TRIP_LATE.NS < age then s.inc TRIP_LATE_CNT else s
  (s.inc TRIP_SPK_RX_CNT).showPresent.tripArea

/-- on_spoke() of R210. -/
def State.onSpoke (s : State) (lane : Nat) (f : List Byte) : State :=
  let h := laneHdr f
  match s.sourceOf h.sender with
  | none => s.inc TRIP_REJ_CNT
  | some n =>
    let src := SMap.getD s.trip.srcs n ⟨false, 0, 0⟩
    let pair := s.flag (TRIP_SRC.PAIR n)
    let seq := fieldBE f 32 4
    let d := (seq + 2 ^ 32 - s.get (TRIP_SRC.SEQ n)) % 2 ^ 32
    let follow := src.have_ && !(pair && src.claim < h.claim)
    let age := (s.laneNow + 2 ^ 32 - fieldBE f 36 4) % 2 ^ 32
    if f.length != 60 || fieldBE f 56 4 != s.spokeCv f then s.inc TRIP_REJ_CNT
    else if pair && h.claim < s.get TWIN_HIGH.CLAIM then s.inc TRIP_REJ_CNT
    else if follow && d = 0 then s.inc TRIP_DUP_CNT
    else if follow && 0x80000000 ≤ d then s.inc TRIP_REJ_CNT
    else if !s.flag TIME_STAT.LANE_SYNC || atLeast1 (s.get (TRIP_SRC.AGE_MAX n)) * 1000 < age then s.inc TRIP_REJ_CNT
    else s.acceptSpoke n lane h (fieldBE f 30 2) seq age

/-- SPOKE_RX (R210, R250, R269): decided whatever the lane state (R270). -/
def execSpokeRx (t lane : Nat) (frame : List Byte) (fcs : Bool) (s : State) : Result :=
  match (s.at_ t).laneFormat lane frame fcs with
  | (s, false) => .next s
  | (s, true) =>
    let h := laneHdr frame
    if h.kind != 5 then .next s
    else if s.laneTakes lane && h.sender == s.node then .next (s.laneFault lane 1)
    else .next (s.onSpoke lane frame)

/-- SOURCE_LOSS (R211): 8 + EXPECT lane ticks since the last accepted spoke; an own source without PAIR is never lost. -/
def execSourceLoss (t src : Nat) (s : State) : Result :=
  let s := s.at_ t
  let x := SMap.getD s.trip.srcs src ⟨false, 0, 0⟩
  if 32 ≤ src || s.srcLost src || s.ownAlone src || x.ticks < 8 + clampNat 2 16 (s.get (TRIP_SRC.EXPECT src)) then .next s
  else .next (s.loseSource src)

/-! ### Restart (R216 to R218) -/

/-- RPHASE of a reset input (TRIP_FNn STAT): 1 low long enough, 2 high within the window after such a low, 3 high too long. -/
def FnReset.phase (r : FnReset) : Nat :=
  if r.level then (if 80000 < r.ticks then 3 else if 800 ≤ r.ticks && 800 ≤ r.lowTicks then 2 else 0)
  else if 800 ≤ r.ticks then 1 else 0

/-- The reset input at a local tick edge with its level now (R217). -/
def FnReset.sample (r : FnReset) (level : Bool) : FnReset :=
  if level == r.level then { r with ticks := min 80001 (r.ticks + 1), release := none }
  else if level then ⟨true, 0, r.ticks, none⟩
  else ⟨false, 0, 0, if 800 ≤ r.lowTicks then some r.ticks else some 0⟩

/-- The reset inputs of the functions sampled at an edge (R217). -/
def State.resetTick (s : State) : State :=
  (List.range 32).foldl (fun s n =>
    if s.flag (TRIP_FN.RST_EN n) then
      let r := (SMap.getD s.trip.fns n ⟨false, 0, 0, none⟩).sample (s.literal (s.get (TRIP_FN.RST_LIT n)))
      ({ s with trip := { s.trip with fns := SMap.set s.trip.fns n r } }).putIf (TRIP_FN_STAT.RPHASE n) r.phase
    else s) s

/-- RESET_RELEASE (R216, R217): the falling edge that the latest local tick edge sampled. -/
def execResetRelease (t fn : Nat) (s : State) : Result :=
  let s := s.at_ t
  let r := SMap.getD s.trip.fns fn ⟨false, 0, 0, none⟩
  match r.release with
  | none => .next s
  | some high =>
    let s := { s with trip := { s.trip with fns := SMap.set s.trip.fns fn { r with release := none } } }
    if high < 800 || 80000 < high || !s.flag (TRIP_FN_STAT.LATCHED fn) then .next s
    else if s.get (TRIP_FN.POLICY fn) == 0 && !s.causePresent fn then .next (s.fnOpen fn 2 0)
    else .next (s.inc TRIP_RST_REJ_CNT)

/-- RESET_HIGH_TOO_LONG (R217): a high phase beyond 80,000 ticks, which stands at its end whatever follows. -/
def execResetHighTooLong (t fn : Nat) (s : State) : Result :=
  let s := s.at_ t
  let r := SMap.getD s.trip.fns fn ⟨false, 0, 0, none⟩
  if r.level && 80000 < r.ticks then
    .next (({ s with trip := { s.trip with fns := SMap.set s.trip.fns fn { r with ticks := 80001 } } }).putIf (TRIP_FN_STAT.RPHASE fn) 3)
  else .next s

/-- A restart through TRIP_RESTART (R216, R218), with the token of the service command. -/
def State.tripRestart (s : State) (fn : Nat) : State × Bool :=
  if !s.flag (TRIP_FN_STAT.LATCHED fn) then (s, false)
  else if s.get (TRIP_FN.POLICY fn) == 1 && !s.causePresent fn then
    (s.fnOpen fn 2 (match s.boot.session with | some x => x.token | none => 0), true)
  else (s.inc TRIP_RST_REJ_CNT, false)

/-- TRIP_RESTART (R216, R218): boot supervisor only, guarded. -/
def execTripRestart (t : Nat) (who : Initiator) (fn : BitVec 5) (s : State) : Result :=
  match (s.at_ t).gate who TRIP_RESTART.FN.addr true (who == .boot) with
  | (s, true) => .next (s.tripRestart fn.toNat).1
  | (s, false) => .next s

end Sys2Proof.Machine
end

