-- ==== Sys2Proof/Machine/Boundary.lean ====
section
/-! DEFINITION. Machine/Boundary.lean: the lane tick boundary (R13 to R15, R108, R208, R211, R266, R272, R274, R276, R279, R280,
R346, R496). -/
namespace Sys2Proof.Machine
open Reg

/-! ### The image that a lane tick carries (R15, R108) -/

/-- The lead point of R15, in ns before a boundary. -/
def leadNs : Nat := 6000

/-- The image carried from this boundary on, the slip where the number of local edges since the last lead point is not one,
and the AGE it is sent with. -/
def State.carry (s : State) : State :=
  let now := s.localNow
  let late := if now < s.time.edge + leadNs then 1 else 0
  let edges := s.lanes.edges - late
  let started := s.lanes.boundary != 0
  let slip := started && edges != 1
  let latest := if s.cyc.publishing.isSome then 1 - s.cyc.active else s.cyc.active
  let led := s.lanes.pubAt + leadNs ≤ now
  let carried := if led then s.lanes.pub else (s.lanes.pub + 2 ^ 32 - 1) % 2 ^ 32
  let buf := if led then latest else 1 - latest
  let same := carried == s.lanes.carried
  let again := same && slip && edges == 0
  let age := if !same then 0 else if again then s.lanes.age else min 255 (s.lanes.age + 1)
  let s := { s with lanes := { s.lanes with
    edges := late, buf := buf, kept := none, carried := carried, age := age, sentAge := if again then 0 else age } }
  if slip then s.inc LANE_SLIP_CNT else s

/-! ### Lanes (R270, R272, R276, R279) -/

/-- Lane `l` at a boundary: SYNC missed or taken, mastership given up or taken over. -/
def State.laneBoundary (s : State) (l : Nat) : State :=
  if !s.laneSynced l then s
  else
    let x := s.ln l
    if s.flag (LANE_STAT.MASTER l) then
      let s := s.setLn l { x with noSync := 0, gotSync := false, yielding := false, sent := [] }
      if x.yielding then s.putFlag (LANE_STAT.MASTER l) false else s
    else
      let s := s.setLn l { x with noSync := if x.gotSync then 0 else x.noSync + 1, gotSync := false, sent := [] }
      if x.statusSent && s.node < s.get (LANE_STAT.MASTER_ID l) then s.becomeMaster l else s

/-- A COLDSTART frame on both ports of lane `l` (R271, R273). -/
def State.coldSend (s : State) (l : Nat) : State :=
  s.laneOut l 0xFFFF (s.laneFrame l false 6 0xFFFF 0 false false (syncPayload s.laneSent))

/-- Lane `l` in a contest (R271): a COLDSTART frame at each of three lane tick boundaries, then the next boundary ends the window. -/
def State.contestBoundary (s : State) (l : Nat) : State :=
  if s.laneState l != 2 then s
  else
    let k := (s.ln l).contest
    let s := s.setLn l { s.ln l with contest := min 4 (k + 1) }
    if k < 3 then s.coldSend l else s

/-- Lane `l` at a macrocycle boundary: the nodes whose STATUS came in the last one, and leave to send from now on. -/
def State.laneMacro (s : State) (l : Nat) : State :=
  let x := s.ln l
  let s := (List.range 254).foldl (fun (s : State) n =>
    s.putIf (LANE_NODE.PRESENT (256 * l + n)) (SMap.find x.seen n).isSome.toNat) s
  s.setLn l { x with seen := [], heard := x.seen, sends := x.synced }

/-- What becomes of a mode change at the boundary of macrocycle `m` (R278, R279): a node that answered ACK and heard no decision is
uncertain through M, its master apart; any other one that did not commit is done with it, and M + 1 ends every one. -/
def State.modeBoundary (s : State) (m : Nat) : State :=
  let md := s.lanes.mode
  if md.answer = 0 || md.committed && md.annM == m then s
  else if md.annM == m then
    if md.aborted || md.answer == 3 then s.endMode
    else
      let s := [0, 1].foldl (fun (s : State) l =>
        if s.laneSynced l && !s.flag (LANE_STAT.MASTER l) then s.setLn l { s.ln l with uncertain := true } else s) s
      (s.put LANE_MODE.PHASE 4).endLaneAct
  else if 0 < serialDiff 32 m md.annM then
    ([0, 1].foldl (fun (s : State) l => s.setLn l { s.ln l with uncertain := false }) s).endMode
  else s

/-- The LANE packet of lane `l` for the macrocycle `m` that ends (R496), from its counters at the start of that macrocycle. -/
def State.traceLane (s : State) (m l : Nat) : State :=
  let cur := [s.get (LANE_RX_CNT l), s.get (LANE_LATE_CNT l), s.get (LANE_FCS_CNT l), s.get (LANE_PREEMPT_CNT l)]
  let diffs := cur.zipIdx.map (fun (p : Nat × Nat) =>
    min 0xFFFF ((p.1 + 2 ^ 32 - SMap.getD s.obs.laneBase (4 * l + p.2) 0) % 2 ^ 32))
  let s := if s.flag (if l = 0 then LANE_CTRL.EN_A else LANE_CTRL.EN_B) then
      s.trace 4 (leBytes 1 l ++ leBytes 3 0 ++ leBytes 4 m ++ diffs.flatMap (leBytes 2))
    else s
  { s with obs := { s.obs with
    laneBase := cur.zipIdx.foldl (fun b (p : Nat × Nat) => SMap.set b (4 * l + p.2) p.1) s.obs.laneBase } }

/-- A PDELAY_REQ on each linked port of a synchronised lane, 58.5 µs into the lane tick that begins now (R274). -/
def State.pdelaySend (s : State) (l : Nat) : State :=
  if s.laneSynced l then
    let frame := s.laneFrame l true 7 0xFFFF 0 false false (List.replicate 30 0)
    (s.portsUp l).foldl (fun s dn => s.laneOutOn l dn (s.localNow + 58500) 0xFFFF frame) s
  else s

/-! ### Ages (R211, R266, R346) -/

/-- Every count of lane ticks that later commands judge. -/
def State.boundaryCounts (s : State) : State :=
  let s := s.lanes.streams.foldl (fun (s : State) p => s.addSat (LANE_STR.AGE p.1) 1) s
  { s with
    door := { s.door with fb := s.door.fb.map (fun (p : Nat × Fb) => (p.1, { p.2 with age := min 255 (p.2.age + 1) })), passed := false }
    trip := { s.trip with srcs := s.trip.srcs.map (fun (p : Nat × Src) => (p.1, { p.2 with ticks := min 255 (p.2.ticks + 1) })) }
    twin := { s.twin with laneMiss := min 3 (s.twin.laneMiss + 1) } }

/-! ### The boundary -/

/-- The number of the lane tick that begins now (R13, R14). -/
def State.laneTick (s : State) : Nat := if s.time.laneEver then s.laneNow / tickNs else s.localNow / tickNs

/-- Everything that happens at a lane tick boundary that falls now. -/
def State.boundaryNow (s : State) : State :=
  let old := s.lanes.tick / macroTicks
  let tick := s.laneTick
  let new := tick / macroTicks
  let s := (s.carry).put LANE_OFS.OFS (s.ofs % tickNs)
  let s := { s with lanes := { s.lanes with tick := tick, boundary := s.localNow } }
  let s := (([0, 1].foldl State.laneBoundary s)).boundaryCounts
  let s := if old = new then s
    else
      let s := [0, 1].foldl State.laneMacro s
      let s := [0, 1].foldl (State.traceLane · (old % 2 ^ 32)) s
      s.modeBoundary (new % 2 ^ 32)
  let s := if tick % macroTicks = 63 then [0, 1].foldl State.pdelaySend s else s
  [0, 1].foldl State.contestBoundary s.spokeTick

/-- Whether a lane tick boundary falls now (R13, R14): LANE reaches a whole multiple of 62,500 ns at this ns of LOCAL, or until it is first
synchronised the latest local tick edge is now; each boundary once. -/
def State.boundaryDue (s : State) : Bool :=
  s.lanes.boundary != s.localNow
    && if s.time.laneEver then s.laneNow / tickNs != s.laneAt (s.localNow - 1) / tickNs else s.ofs == 0

/-- LANE_TICK_BOUNDARY (R13): the boundary `t` ns after the latest local tick edge. -/
def execLaneTickBoundary (t : Nat) (s : State) : Result :=
  if s.pwr.inReset || s.pwr.dormant then .next s
  else
    let s := s.at_ t
    .next (if s.boundaryDue then s.boundaryNow else s)

end Sys2Proof.Machine
end

