-- ==== Sys2Proof/Machine/Cycle.lean ====
section
/-! DEFINITION. Machine/Cycle.lean: the cycle engine's commands and timed events, forces and Grafts (R101, R103, R104, R106, R111,
R115 to R122). -/
namespace Sys2Proof.Machine
open Reg

/-- PUBLICATION_COMPLETE (R94, R101, R102): the idle buffer becomes active and BANK switches with it. In STOP the consumers keep their
Kickstand patterns (R110). -/
def execPublicationComplete (t : Nat) (s : State) : Result :=
  let s := s.at_ t
  match s.cyc.publishing with
  | none => .next s
  | some src =>
    let s := { s with cyc := { s.cyc with active := 1 - s.cyc.active, publishing := none, last := some src } }
    let s := ((s.put CYC_PUB.BANK (1 - s.get CYC_PUB.BANK)).put CYC_PUB.CYCLE_LO src.cycle).inc CYC_PUB_CNT
    let s := (s.streamFrame 8 0 (s.bytes (pubBuf s.cyc.active) (s.get CYC_IMG.OUT_LEN)) none).gwArrived 4 0
    .next (if s.get CYC_STAT.PSTATE == 0 then s else s.consume_)

/-- CYCLE_OVERRUN (R103, R441). -/
def execCycleOverrun (t : Nat) (s : State) : Result :=
  let s := s.at_ t
  if s.flag CYC_STAT.BUSY && !s.flag CYC_STAT.KIND && !s.flag CYC_STAT.OVERRUN && atLeast1 (s.get CYC_CFG.DEADLINE) ≤ s.cyc.since.getD 0 then
    let c := s.get CYC_CYCLE_CNT
    let s := ((s.inc CYC_OVR_CNT).putFlag CYC_STAT.OVERRUN true).put UPD_CLEAN.CLEAN 0
    let s := { s with cyc := { s.cyc with prevOvr := true } }
    .next ((s.traceCycle c 0 2).recordCycle 1 c)
  else .next s

/-- HANG in ticks. -/
def State.hangTicks (s : State) : Nat := min 4096 (max (atLeast1 (s.get CYC_CFG.DEADLINE) + 1) (s.get CYC_CFG.HANG))

/-- CYCLE_HANG (R104). -/
def execCycleHang (t : Nat) (s : State) : Result :=
  let s := s.at_ t
  .next (if s.flag CYC_STAT.BUSY && s.hangTicks ≤ s.cyc.since.getD 0 then s.enterLockout 3 0 else s)

/-- REFRESH_TIMEOUT (R106, R177, R188, R191, R207, R321, R332): consumer `who` has counted its timeout. A safe TX session judges
its own count when it builds (R229). -/
def execRefreshTimeout (t : Nat) (who : Consumer) (s : State) : Result :=
  let s := s.at_ t
  let sil := atLeast1 (s.get DIO_CTRL.SIL_TMO)
  .next (match who with
    | .dio => if sil ≤ s.refreshAge 0 then (s.putFlag DIO_STAT.KICK_PRG true).dioRefresh else s
    | .loop => if atLeast1 (s.get LOOP_CTRL.REF_TMO) ≤ s.refreshAge 1 then ({ s with loopPrg := true }).loopRefresh else s
    | .door => if atLeast1 (s.get MOT_CTRL.CMD_TMO) ≤ s.refreshAge 2 then s.doorKick else s
    | .trip => if atLeast1 (s.get TRIP_CTRL.PRG_TMO) ≤ s.refreshAge 3 then s.prgKick else s
    | .safe => s
    | .axis e =>
      if s.pulseOk e && (s.pulseChans e).any (fun ch => sil ≤ SMap.getD s.dio.pulseAge ch 0) then
        let s := { s with dio := { s.dio with pulseKick := (s.pulseChans e).foldl (fun v ch => setBit v ch true) s.dio.pulseKick } }
        let s := s.chansUpdate (s.pulseChans e)
        s.putIf (MOT_AS.HOMED (s.get (MOT_PULSE.AXIS e))) 0
      else s)

/-! ### Program state commands (R111) -/

/-- A CYC_CMD write with a code (R111, R128): boot supervisor only, guarded; it waits for the next edge. -/
def State.writeCmd (s : State) (who : Initiator) (code : Nat) : State :=
  match s.gate who 0x20050010 true (who == .boot) with
  | (s, true) => { s with cyc := { s.cyc with cmds := s.cyc.cmds ++ [code] } }
  | (s, false) => s

/-- START. -/
def execStart (t : Nat) (who : Initiator) (s : State) : Result := .next ((s.at_ t).writeCmd who 1)

/-- STOP. -/
def execStop (t : Nat) (who : Initiator) (s : State) : Result := .next ((s.at_ t).writeCmd who 2)

/-- HOLD. -/
def execHold (t : Nat) (who : Initiator) (s : State) : Result := .next ((s.at_ t).writeCmd who 3)

/-- RESUME. -/
def execResume (t : Nat) (who : Initiator) (s : State) : Result := .next ((s.at_ t).writeCmd who 4)

/-- STEP. -/
def execStep (t : Nat) (who : Initiator) (s : State) : Result := .next ((s.at_ t).writeCmd who 5)

/-- ARM (R122): `id` and `bindings` are those of the staged Graft (R124, R127), noted unless one is armed. -/
def execArm (t : Nat) (who : Initiator) (id : BitVec 64) (bindings : List Bind) (s : State) : Result :=
  let s := s.at_ t
  let note := (s.gate who 0x20050010 true (who == .boot)).2 && !s.flag CYC_STAT.ARMED && !s.cyc.cmds.contains 6
  let s := if note then { s with cyc := { s.cyc with graftId := id.toNat, bindings := bindings } } else s
  .next (s.writeCmd who 6)

/-- DISARM (R122). -/
def execDisarm (t : Nat) (who : Initiator) (s : State) : Result := .next ((s.at_ t).writeCmd who 7)

/-! ### Force table writes (R115 to R117, R128) -/

/-- FORCE_BIND (R116): CTRL written with VALID 1. While VALID is 1 nothing of the write but VALID is performed. -/
def execForceBind (t : Nat) (who : Initiator) (entry : BitVec 8) (ctrl : BitVec 32) (s : State) : Result :=
  let n := entry.toNat
  match (s.at_ t).gate who (CYC_FORCE.VALID n).addr false (who == .boot) with
  | (s, false) => .next s
  | (s, true) =>
    if s.flag (CYC_FORCE.VALID n) then .next s
    else .next ((s.forceCtrl n ctrl.toNat).forceBind n s.tokenId).1

/-- FORCE_RELEASE (R117): CTRL written with VALID 0; the other fields of a bound entry stay (R116). -/
def execForceRelease (t : Nat) (who : Initiator) (entry : BitVec 8) (ctrl : BitVec 32) (s : State) : Result :=
  let n := entry.toNat
  match (s.at_ t).gate who (CYC_FORCE.VALID n).addr false (who == .boot) with
  | (s, false) => .next s
  | (s, true) =>
    if s.flag (CYC_FORCE.VALID n) then .next (s.forceRelease n s.tokenId) else .next (s.forceCtrl n ctrl.toNat)

/-- A VALUE write (R116, R117): to a bound entry it acts as a new binding. -/
def State.forceValue (s : State) (n v : Nat) : State :=
  let s := s.put (CYC_FORCE.VALUE n) v
  if s.flag (CYC_FORCE.VALID n) && s.get (CYC_FORCE.TARGET n) == 0 then
    let w := s.get (CYC_FORCE.WORD n)
    s.liveStore (8 * w) (leBytes 8 (s.forced 0 w (s.unforced w (s.liveWord w))))
  else s

/-- FORCE_VALUE_WRITE (R116). -/
def execForceValueWrite (t : Nat) (who : Initiator) (entry : BitVec 8) (value : BitVec 64) (s : State) : Result :=
  let n := entry.toNat
  match (s.at_ t).gate who (CYC_FORCE.VALUE n).addr false (who == .boot) with
  | (s, false) => .next s
  | (s, true) => .next (s.forceValue n value.toNat)

end Sys2Proof.Machine
end

