-- ==== Sys2Proof/Machine/DoorOps.lean ====
section
/-! DEFINITION. Machine/DoorOps.lean: the door supervisor's readings, starts, entries into states and detectors
(R129 to R147, R156). -/
namespace Sys2Proof.Machine
open Reg

/-! ### Readings -/

/-- State of axis `n` (R138). -/
def State.dst (s : State) (n : Nat) : Nat := s.get (DOOR_AS.STATE n)

/-- A switch of axis `n`: 0 closed, 1 locked, 2 home, 3 limit, 4 sensitive edge, 5 egress, 6 isolation, 7 node fault. -/
def State.sw (s : State) (n k : Nat) : Bool := s.bit (DOOR_AS.SW n) k

/-- Fed-back position of axis `n` in µm. -/
def State.dpos (s : State) (n : Nat) : Int := s.getS (DOOR_AS.POS n)

/-- Whether axis `n` is a door leaf. -/
def State.isLeaf (s : State) (n : Nat) : Bool := s.get (AX_CFG.KIND n) == 1

/-- The axes that an event on axis `n` acts on (R130): all leaves of its door; a step or gap filler alone. -/
def State.together (s : State) (n : Nat) : List Nat :=
  if s.isLeaf n then s.axes.filter (fun i => s.isLeaf i && s.get (AX_CFG.DOOR i) == s.get (AX_CFG.DOOR n)) else [n]

/-- At P_CLOSED (R131). -/
def State.atClosed (s : State) (n : Nat) : Bool := (s.dpos n - s.getS (AX_P_CLOSED.POS n)).natAbs ≤ s.get (AX_WIN.CLOSED_WIN n)

/-- In the lock window (R131). -/
def State.inLock (s : State) (n : Nat) : Bool := (s.dpos n - s.getS (AX_P_LOCK.POS n)).natAbs ≤ s.get (AX_WIN.LOCK_WIN n)

/-- At P_OPEN: within CLOSED_WIN of it (assumption 49). -/
def State.atOpen (s : State) (n : Nat) : Bool := (s.dpos n - s.getS (AX_P_OPEN.POS n)).natAbs ≤ s.get (AX_WIN.CLOSED_WIN n)

/-- Whether axis `n` wants to open (R133, R134). -/
def State.wantOpen (s : State) (n : Nat) : Bool :=
  !s.door.kick && bitOf (s.door.cmd.getD (s.get (AX_CFG.DOOR n)) 0).toNat 0 && s.bit DOOR_REL.REL (s.get (AX_CFG.RGRP n))

/-- Whether axis `n` wants to close (R133, R134). -/
def State.wantClose (s : State) (n : Nat) : Bool :=
  !s.door.kick && !s.wantOpen n
    && (bitOf (s.door.cmd.getD (s.get (AX_CFG.DOOR n)) 0).toNat 1 || !s.bit DOOR_REL.REL (s.get (AX_CFG.RGRP n)))

/-- Rising edge of bit `k` of the door command of axis `n` (R133). -/
def State.cmdEdge (s : State) (n k : Nat) : Bool := !s.door.kick && bitOf (s.door.edges.getD (s.get (AX_CFG.DOOR n)) 0).toNat k

/-- Whether moves may start: not at Kickstand, not in shedding stage 3 (R134, R154). -/
def State.mayStart (s : State) : Bool := !s.door.kick && !s.flag DOOR_STAT.SHED_HELD

/-- The steps and gap fillers sequenced with the door of axis `n` (R140). -/
def State.stepsOf (s : State) (n : Nat) : List Nat :=
  s.axes.filter (fun i => !s.isLeaf i && !s.flag (AX_CFG.SEQ i) && s.get (AX_CFG.DOOR i) == s.get (AX_CFG.DOOR n))

/-- The leaves of the door of axis `n`. -/
def State.leavesOf (s : State) (n : Nat) : List Nat := s.axes.filter (fun i => s.isLeaf i && s.get (AX_CFG.DOOR i) == s.get (AX_CFG.DOOR n))

/-- Whether sequencing lets axis `n` start to open (R140). -/
def State.seqOpen (s : State) (n : Nat) : Bool := !s.isLeaf n || (s.stepsOf n).all (fun i => s.dst i == 1)

/-- Whether sequencing lets axis `n` start to close (R140). -/
def State.seqClose (s : State) (n : Nat) : Bool :=
  s.isLeaf n || s.flag (AX_CFG.SEQ n) || (s.leavesOf n).all (fun i => s.dst i == 3 || s.dst i == 4)

/-! ### Envelopes (R146) -/

/-- The bin of position `p` of axis `n` (R146). -/
def State.binOf (s : State) (n : Nat) (p : Int) : Nat :=
  let span := s.getS (AX_P_CLOSED.POS n) - s.getS (AX_P_OPEN.POS n)
  if span = 0 then 0 else (clampInt 0 255 (((p - s.getS (AX_P_OPEN.POS n)) * 256).fdiv span)).toNat

/-- Address of the envelope point of axis `n`, direction `d`, bin `b`. -/
def envAddr (n d b : Nat) : Nat := 0x21300000 + n * 0x800 + d * 0x400 + b * 4

/-- The direction whose envelope applies: 1 while opening, else 0; under direct control by the motion (R143). -/
def State.envDir (s : State) (n : Nat) : Nat :=
  if s.flag (MOT_AS.DIRECT n) then (sgn (s.mx n).st.v * s.closeDir n < 0 : Bool).toNat else (s.dst n == 5 : Bool).toNat

/-! ### Cycles (R156) -/

/-- The open cycle of axis `n` changed. -/
def State.cyc_ (s : State) (n : Nat) (f : Cycle → Cycle) : State := let d := s.dax n; s.setDax n { d with cycle := d.cycle.map f }

/-- One more of lifetime addition `k`: 0 OBST, 1 RETRY, 2 LFLT, 3 EGR, 4 ISO, 5 LRN (R157). Where no cycle is open it reaches the
registers at the next cycle's end (assumption 167). -/
def State.lifeAdd (s : State) (n k : Nat) : State := let d := s.dax n; s.setDax n { d with life := d.life.modify k (· + 1) }

/-! ### Starts -/

/-- The detectors' counts start again. -/
def State.clearDetect (s : State) (n : Nat) : State := s.setDax n { s.dax n with se := 0, fCnt := 0, feCnt := 0 }

/-- A stroke of axis `n` starts, of a kind of `strokeMoves`, or is kept until moves may start (R134, R144, R147, R154, R166): a closing one
from P_OPEN may be a learning stroke. The window of R144 that a reversal opens is `planAxis`'s. -/
def State.startStroke (s : State) (n kind : Nat) (um : Int) (force : Bool) : State :=
  let d := s.dax n
  if !s.mayStart then s.setDax n { d with target := um, resume := true, stroke := none }
  else
    let x := (s.mx n).st
    let c := s.closeDir n
    let rest := !x.moving
    let pastClosed : Bool := s.getS (AX_P_CLOSED.POS n) * c - s.get (AX_WIN.CLOSED_WIN n) ≤ s.dpos n * c
    let fromEnd := kind == 2 || (kind == 0 && pastClosed) || (kind == 1 && s.atOpen n)
    let acc := if !rest then d.acc else if fromEnd || s.get (AX_FB.ACC_WIN n) = 0 then none else some 0
    let learn : Option Stroke :=
      if kind == 2 then d.stroke
      else if rest && kind == 1 && s.atOpen n then some ⟨0, []⟩
      else none
    let s := (s.setDax n { d with target := um, resume := false, acc := acc, stroke := learn, dwell := none, dwelt := false })
    let moves := s.strokeMoves n kind um
    let set := match force, moves with | false, m :: _ => m.set | _, _ => s.get (MOT_AX_SETS.OBST n)
    (s.startMoves n moves set force).acted n

/-- No stroke of axis `n` is learned. -/
def State.noLearn (s : State) (n : Nat) : State := s.setDax n { s.dax n with stroke := none }

/-- The stroke that the state of axis `n` asks for, started again (R154, R134): no learning stroke, since a hold or Kickstand lies before it
(R147). -/
def State.restart (s : State) (n : Nat) : State :=
  State.noLearn (match s.dst n with
  | 2 => s.startStroke n 1 (s.getS (AX_P_CLOSED.POS n)) false
  | 5 => s.startStroke n 0 (s.dax n).target false
  | 3 => s.startStroke n 2 (s.getS (AX_P_LOCK.POS n)) false
  | _ => s.setDax n { s.dax n with resume := false }) n

/-! ### Entries into states (R138, R139) -/

/-- Axis `n` takes state `k`; what belongs to the state it leaves ends. The plausibility counts of R142 run on. -/
def State.enter (s : State) (n k : Nat) : State :=
  let old := s.dst n
  let d := s.dax n
  let d := { d with lockCnt := 0, egrOff := 0, dwell := none, dwelt := false, lockTicks := 0, stroking := false }
  let d := if old == 4 && k != 4 then { d with lockedOff := false, noedge := false } else d
  let d := if k == 3 || k == 4 then d else { d with noedge := false }
  let s := (s.setDax n d).put (DOOR_AS.STATE n) k
  let s := if k == 9 then s else s.putIf (DOOR_AS.CAUSE n) 0
  let s := if k == 5 then s else s.putIf (DOOR_AS.REOPEN n) 0
  let s := if k == 1 then s else s.putIf (DOOR_AS.CONTACT n) 0
  if k == 2 || k == 5 then s else (s.putIf (DOOR_AS.HELD n) 0).setDax n { s.dax n with resume := false }

/-- derive() (R138). -/
def State.derive (s : State) (n : Nat) : State :=
  if s.sw n 1 && s.sw n 0 && s.inLock n then
    let s := s.enter n 3
    s.setDax n { s.dax n with noedge := true }
  else if s.sw n 0 && s.atClosed n then s.enter n 3
  else s.enter n 1

/-- Entry to FAULTED with a cause (R139): counted, stopped with reason FAULT, the cycle ended. -/
def State.enterFault (s : State) (n cause : Nat) : State :=
  let s := ((s.enter n 9).put (DOOR_AS.CAUSE n) cause).inc DOOR_FAULT_CNT
  let s := s.setDax n { s.dax n with stroke := none }
  let s := if 1 ≤ cause && cause ≤ 5 then s.lifeAdd n 2 else s
  ((s.stopAxis n 2).acted n).endCycle n 9

/-- Entry to EGRESS of one axis (R139, R149). -/
def State.enterEgress (s : State) (n : Nat) : State :=
  let s := (s.enter n 7).setDax n { (s.enter n 7).dax n with stroke := none }
  (((s.stopAxis n 3).acted n).lifeAdd n 3).endCycle n 7

/-- Entry to ISOLATED (R139, R149). -/
def State.enterIsolated (s : State) (n : Nat) : State :=
  let s := (s.enter n 8).setDax n { (s.enter n 8).dax n with stroke := none }
  (((s.stopAxis n 4).acted n).lifeAdd n 4).endCycle n 8

/-- OPENING to P_OPEN (R139); from CLOSED or LOCKED at rest the stroke may be a learning one (R147). -/
def State.openFully (s : State) (n : Nat) : State :=
  let shut := (s.dst n == 3 || s.dst n == 4) && !(s.mx n).st.moving
  let s := ((s.enter n 5).putIf (DOOR_AS.REOPEN n) 0).startStroke n 0 (s.getS (AX_P_OPEN.POS n)) false
  if shut && !(s.dax n).resume then s.setDax n { s.dax n with stroke := some ⟨1, []⟩ } else s

/-- CLOSING to P_CLOSED (R139). -/
def State.startClose (s : State) (n : Nat) : State :=
  ((s.enter n 2).cyc_ n (fun c => { c with closingOn := true })).startStroke n 1 (s.getS (AX_P_CLOSED.POS n)) false

/-- CLOSING to P_CLOSED where the cycle opens with this move: T_CLOSING runs from its first entry (R156). -/
def State.closeFully (s : State) (n : Nat) : State := (s.startClose n).cyc_ n (fun c => { c with closingOn := true })

/-- The reopen target of axis `n` (R145): REOPEN_W towards open, no further than P_OPEN. -/
def State.reopenTarget (s : State) (n : Nat) : Int :=
  let c := s.closeDir n
  let open_ := s.getS (AX_P_OPEN.POS n)
  let t := s.dpos n - c * (100 * s.get (AX_ZONE.REOPEN_W n))
  if c * (t - open_) < 0 then open_ else t

/-- OPENING to the reopen target with REOPEN = 1; `force` stops with the OBST set first (R145, R166). -/
def State.reopen (s : State) (n : Nat) (force : Bool) : State :=
  ((s.enter n 5).put (DOOR_AS.REOPEN n) 1).startStroke n 0 (s.reopenTarget n) force

/-! ### Learning (R147) -/

/-- A stroke of axis `n` ends where a learning stroke ends: accepted, it waits for its boundary; or refused. LEARN_EN and a force on
the axis are judged here, at its end (assumption 166). -/
def State.endStroke (s : State) (n : Nat) : State :=
  let d := s.dax n
  match d.stroke with
  | none => s
  | some st =>
    let s := s.setDax n { d with stroke := none }
    if !s.flag DOOR_CTRL.LEARN_EN || s.flag CYC_STAT.FORCED || s.door.kick || st.samples.isEmpty then s
    else if st.samples.any (fun (x : Nat × Nat) =>
        s.get (AX_RETRY.LEARN_DEV n) * 16 < ((x.2 : Int) - ((s.load (envAddr n st.dir x.1) 4 % 2 ^ 24 : Nat) : Int)).natAbs) then
      (s.inc DOOR_LREF_CNT).cyc_ n (fun c => { c with flags := c.flags ||| 2 })
    else
      let s := s.setDax n { s.dax n with learn := some st }
      (s.putFlag DOOR_STAT.LEARN_BUSY true).cyc_ n (fun c => { c with flags := c.flags ||| 1 })

/-! ### Feedback of a pass (R136, R143, R156, R184, R187) -/

/-- One sample of a switch under debounce (R184): `n` further samples qualify. -/
def Deb.sample (d : Deb) (level : Bool) (cap : Int) (n : Nat) : Deb :=
  if level == d.on then { d with cand := none }
  else match d.cand with
    | none => { d with cand := some (0, cap) }
    | some (k, c) => { d with cand := some (min (k + 1) n, c) }

/-- Samples after the first that qualify an edge: ceil(HDEB / 62.5 µs), HDEB 1 to 250 in 0.1 ms (R184). -/
def State.debTicks (s : State) (n : Nat) : Nat := (clampNat 1 250 (s.get (MOT_AX_HOME.HDEB n)) * 8 + 4) / 5

/-- The cycle's durations and extremes of this pass (R156); `f` and `ex` in 1/160 N. -/
def State.cycleStats (s : State) (n : Nat) (f : Fb) (force : Nat) (ex : Int) : State :=
  let k := s.dst n
  let prev := (s.dax n).prevSw
  let lockEdge := f.sw / 2 % 2 != prev / 2 % 2
  let closedOn := f.sw % 2 == 1 && prev % 2 == 0
  let lockedOn := f.sw / 2 % 2 == 1 && prev / 2 % 2 == 0
  s.cyc_ n (fun (c : Cycle) =>
    let c := { c with
      opening := c.opening + (k == 5 && !c.opened).toNat
      opened := c.opened || k == 1
      open_ := c.open_ + (k == 1).toNat
      closing := c.closing + (c.closingOn && k != 3 && k != 4).toNat
      closingOn := c.closingOn && k != 3
      locking := c.locking + (k == 3).toNat
      iPeak := Nat.max c.iPeak f.cur
      fPeak := Nat.max c.fPeak (force / 16)
      devMax := if c.devMax < ex.tdiv 16 then ex.tdiv 16 else c.devMax
      lockEdges := c.lockEdges + lockEdge.toNat }
    let c := if closedOn then { c with closedAt := some (s.localNow / 100000) } else c
    match lockedOn, c.closedAt, c.lockDt with
    | true, some a, none => { c with lockDt := some (s.localNow / 100000 - a) }
    | _, _, _ => c)

/-- Whether the force and following-error detectors run on axis `n` (R141, R143, R180): it moves in CLOSING, OPENING or OBSTRUCTED, or under
direct control. -/
def State.forceOn (s : State) (n : Nat) : Bool :=
  !(s.mx n).legs.isEmpty && (s.flag (MOT_AS.DIRECT n) || s.dst n == 2 || s.dst n == 5 || s.dst n == 6)

/-- What a pass shows and counts of held feedback, fresh or stale (R135, R143, R146, R156): position, switches, force, excess, cycle,
sensitive-edge passes. -/
def State.showFb (s : State) (n : Nat) (f : Fb) : State :=
  let p := f.pos + s.getS (MOT_AS.OFFSET n)
  let force := s.get (AX_FMAX.KF n) * f.cur / 625
  let ex : Int := (force : Int) - ((s.load (envAddr n (s.envDir n) (s.binOf n p)) 4 % 2 ^ 24 : Nat) : Int)
  let s := (s.putS (DOOR_AS.POS n) p).putIf (DOOR_AS.SW n) f.sw
  let s := (s.putIf (DOOR_AS.F n) (min (force / 16) 0xFFFF)).putIf (DOOR_AS.EXCESS n) (ofSigned 16 (clampInt (-32768) 32767 (ex.tdiv 16)))
  let s := s.cycleStats n f force ex
  let d := s.dax n
  s.setDax n { d with se := if bitOf f.sw 4 then d.se + 1 else 0, lockedOff := d.lockedOff || !bitOf f.sw 1, prevSw := f.sw }

/-- Fresh feedback of axis `n` (R143, R147, R183, R184). -/
def State.takeFresh (s : State) (n : Nat) (f : Fb) : State :=
  let s := s.putIf (DOOR_AS.STALE n) 0
  let local_ := (s.pulseOf n).isSome
  let drives := s.get SYS_STAT.MODE == 3 || s.get SYS_STAT.MODE == 1
  let s := if s.get (MOT_AX_HOME.MODE n) != 1 && !s.flag (MOT_AS.HOMED n) && (!local_ || drives) then
      (s.put (MOT_AS.HOMED n) 1).putIf (MOT_AS.OFFSET n) 0 else s
  let s := s.showFb n f
  let p := s.dpos n
  let force := s.get (AX_FMAX.KF n) * f.cur / 625
  let ex : Int := (force : Int) - ((s.load (envAddr n (s.envDir n) (s.binOf n p)) 4 % 2 ^ 24 : Nat) : Int)
  let d := s.dax n
  let m := s.mx n
  let ticks := s.debTicks n
  let s := s.setMx n { m with
    home := m.home.sample (bitOf f.sw 2) f.cap ticks
    limit := m.limit.sample (bitOf f.sw 3) f.pos ticks }
  let fz : Bool := s.closeDir n * (s.getS (AX_P_CLOSED.POS n) - p) ≤ s.fzLen n
  let th := 16 * (if fz then s.get (AX_FTH.F_TH_FZ n) else s.get (AX_FTH.F_TH n))
  let above := s.forceOn n && d.acc.isNone && (th : Int) < ex
  let off := s.forceOn n && (s.get (AX_DET.FE_TH n) < (m.setPos - p).natAbs : Bool)
  s.setDax n { d with
    staleTicks := 0
    fCnt := if above then d.fCnt + 1 else 0
    feCnt := if off then d.feCnt + 1 else 0
    stroke := d.stroke.map (fun (st : Stroke) =>
      let b := s.binOf n p
      { st with samples := SMap.set st.samples b (Nat.max (SMap.getD st.samples b 0) force) }) }

/-- Stale feedback of axis `n` (R135, R136): shown, with no count of force or following error and none reset; lock proving restarts, no
stroke is learned. -/
def State.takeStale (s : State) (n : Nat) (f : Fb) : State :=
  let s := if s.flag (DOOR_AS.STALE n) then s else (s.put (DOOR_AS.STALE n) 1).inc DOOR_STALE_CNT
  let s := s.showFb n f
  let d := s.dax n
  let s := s.setDax n { d with staleTicks := d.staleTicks + 1, lockCnt := 0, plaus2 := 0, plaus4 := 0, plaus5 := 0, stroke := none }
  s.cyc_ n (fun c => { c with flags := c.flags ||| 16 })

/-- The held feedback of axis `n` taken by the pass. -/
def State.takeFb (s : State) (n : Nat) : State :=
  match SMap.find s.door.fb n with
  | none => s
  | some f => if s.fresh n then s.takeFresh n f else s.takeStale n f

/-! ### Counts of a pass: lock proving, plausibility, timers -/

/-- Lock proving and plausibility counts of axis `n` (R141, R142), on fresh feedback. A position is compared only once the axis is homed
(assumption 156). -/
def State.lockCounts (s : State) (n : Nat) : State :=
  if !s.fresh n then s
  else
    let d := s.dax n
    let k := s.dst n
    let c := s.closeDir n
    let p := s.dpos n
    let homed := s.flag (MOT_AS.HOMED n)
    let proof := k == 3 && s.sw n 0 && s.sw n 1 && s.inLock n && (d.lockedOff || d.noedge)
    let on := k != 7 && k != 8
    let imp := on && s.sw n 1 && (!s.sw n 0 || (homed && !s.inLock n))
    let stuck := on && homed && k == 5 && s.sw n 1
      && (c * (p - s.getS (AX_P_LOCK.POS n)) < -(3 * (s.get (AX_WIN.LOCK_WIN n) : Int)) : Bool)
    let closedStuck := on && homed && s.sw n 0 && (c * (p - s.getS (AX_P_CLOSED.POS n)) < -(s.get (AX_WIN.CLOSED_WIN n) : Int) : Bool)
    s.setDax n { d with
      lockCnt := if proof then d.lockCnt + 1 else 0
      plaus2 := if imp then d.plaus2 + 1 else 0
      plaus4 := if stuck then d.plaus4 + 1 else 0
      plaus5 := if closedStuck then d.plaus5 + 1 else 0 }

/-- The lane-tick counters of axis `n`: time in CLOSED, dwell, the window of R144, homing. -/
def State.axisTicks (s : State) (n : Nat) : State :=
  let d := s.dax n
  let s := s.setDax n { d with
    lockTicks := if s.dst n == 3 then d.lockTicks + 1 else 0
    dwell := d.dwell.map (· + 1)
    acc := d.acc.map (· + 1) }
  if s.homing n then s.setMx n { s.mx n with hticks := (s.mx n).hticks + 1 } else s

/-! ### Obstacle detection (R143 to R145) -/

/-- The detectors that fire on axis `n` in this pass: bit 0 sensitive edge, 1 force, 2 F_MAX, 3 following error. -/
def State.detects (s : State) (n : Nat) : Nat :=
  let d := s.dax n
  let k := s.dst n
  let moving := !(s.mx n).legs.isEmpty
  let edgeOn := moving && (s.flag (MOT_AS.DIRECT n) || k == 2 || k == 3 || (k == 5 && s.flag (AX_CFG.SE_OPEN n)))
  let f := s.get (AX_FMAX.KF n) * (match SMap.find s.door.fb n with | some f => f.cur | none => 0) / 625
  (edgeOn && s.get (AX_DET.SE_QUAL n) + 1 ≤ d.se : Bool).toNat
    + 2 * (s.forceOn n && atLeast1 (s.get (AX_DET.F_N n)) ≤ d.fCnt : Bool).toNat
    + 4 * (s.forceOn n && 16 * s.get (AX_FMAX.F_MAX n) < f : Bool).toNat
    + 8 * (s.forceOn n && atLeast1 (s.get (AX_DET.FE_N n)) ≤ d.feCnt : Bool).toNat

/-- A detection stored for the cycle record of axis `n` (R145, R156). -/
def State.noteObst (s : State) (n bits : Nat) : State :=
  let s := (s.lifeAdd n 0).setDax n { (s.lifeAdd n 0).dax n with stroke := none, se := 0, fCnt := 0, feCnt := 0 }
  let p := s.dpos n
  s.cyc_ n (fun c => { c with
    detections := c.detections + 1
    detector := if c.detections == 0 then bits else c.detector
    obstPos := if c.detections == 0 then p else c.obstPos })

/-- One retry after `used` ones, of every leaf of the door of axis `n` (R130, R139): each leaf counts it once. -/
def State.addRetry (s : State) (n used : Nat) : State :=
  (s.together n).foldl (fun s i =>
    if s.get (DOOR_AS.RETRY i) == used + 1 then s
    else ((s.put (DOOR_AS.RETRY i) (used + 1)).lifeAdd i 1).cyc_ i (fun c => { c with retries := c.retries + 1 })) s

/-- The retry count of the door of axis `n` starts anew (R130, R139). -/
def State.clearRetry (s : State) (n : Nat) : State := (s.together n).foldl (fun s i => s.putIf (DOOR_AS.RETRY i) 0) s

/-- Whether a leaf of the door of axis `n` is reopening: its close that follows keeps the retry count (R139). -/
def State.reopening (s : State) (n : Nat) : Bool := (s.together n).any (fun i => s.flag (DOOR_AS.REOPEN i))

/-- A detection acts on axis `n` (R130, R139, R140, R145, R180); `used` and `most` are the retries used and allowed of the leaf that gives
rise to it. -/
def State.obstacle (s : State) (n bits used most : Nat) : State :=
  let s := s.noteObst n bits
  let more : Bool := used < most
  if s.flag (MOT_AS.DIRECT n) then (s.stopAxis n 8).acted n
  else match s.dst n with
    | 2 | 3 | 4 =>
      if more then ((s.addRetry n used).reopen n true).clearDetect n
      else
        let s := ((s.enter n 6).startStroke n 0 (s.getS (AX_P_OPEN.POS n)) true).clearDetect n
        s.endCycle n 6
    | 5 =>
      if !s.isLeaf n then
        let s := ((s.enter n 1).put (DOOR_AS.CONTACT n) 1).cyc_ n (fun c => { c with flags := c.flags ||| 128 })
        (s.stopAxis n 8).acted n
      else if more && !s.flag (DOOR_AS.REOPEN n) then
        let s := ((s.addRetry n used).stopAxis n 8).acted n
        s.setDax n { s.dax n with dwell := some 0, dwelt := false }
      else (((s.enter n 6).stopAxis n 8).acted n).endCycle n 6
    | _ => s

end Sys2Proof.Machine
end

