-- ==== Sys2Proof/Machine/Homing.lean ====
section
/-! DEFINITION. Machine/Homing.lean: homing of an axis and its home and limit switches (R173, R174, R183 to R187, R193). -/
namespace Sys2Proof.Machine
open Reg

/-- HOME_DIR of axis `n`: 1 positive, -1 negative. -/
def State.homeDir (s : State) (n : Nat) : Int := if s.flag (MOT_AX_HOME.DIR n) then -1 else 1

/-- Raw fed-back position of axis `n`. -/
def State.rawPos (s : State) (n : Nat) : Int := match SMap.find s.door.fb n with | some f => f.pos | none => 0

/-- A phase of homing that moves in direction `dir` with set `k`, after a stop with set `stop` where `halt` says so (R185); the
move's target lies beyond any travel, since HOME_TRAVEL bounds it (assumption 188). -/
def State.homeMove (s : State) (n phase : Nat) (dir : Int) (k stop : Nat) (halt : Bool) : State :=
  let m := s.mx n
  let s := (s.setMx n { m with hdir := dir, hstart := s.rawPos n, htarget := none }).put (MOT_AS.HPHASE n) phase
  s.planAxis n [⟨m.st.um + dir * 0x80000000, k, false⟩] stop halt

/-- Whether homing of axis `n` may run: a node axis needs LANE (R193). -/
def State.homeLane (s : State) (n : Nat) : Bool := (s.pulseOf n).isSome || s.flag TIME_STAT.LANE_SYNC

/-- Homing starts (R185). -/
def State.startHoming (s : State) (n : Nat) : State :=
  let s := (s.setMx n { s.mx n with trips := 0, hticks := 0, homeEdges := 0, limitEdges := 0 }).putIf (MOT_AS.HFAIL n) 0
  let k := s.get (MOT_AX_SETS.HOME n)
  let on := match SMap.find s.door.fb n with | some f => bitOf f.sw 2 | none => false
  (if on then s.homeMove n 3 (-(s.homeDir n)) k k false else s.homeMove n 1 (s.homeDir n) k k false).acted n

/-- Homing fails with a cause (R185). -/
def State.failHoming (s : State) (n cause : Nat) : State :=
  let s := ((s.put (MOT_AS.HPHASE n) 6).put (MOT_AS.HFAIL n) cause).inc MOT_HFAIL_CNT
  s.stopAxis n 9

/-- CHATTER: more than 4 qualified edges of one switch within one move (R185, R186). -/
def State.chatter (s : State) (n : Nat) (f : Fld) : State :=
  let s := (s.put f 1).inc MOT_CHAT_CNT
  if s.homing n then s.failHoming n 4 else s

/-- What a pass checks of a running homing (R185, R193). -/
def State.homeCheck (s : State) (n : Nat) : State :=
  let m := s.mx n
  let d := s.dax n
  let raw := s.rawPos n
  let f := match SMap.find s.door.fb n with | some f => f | none => ⟨0, 0, 0, 0, 0, 0⟩
  let start := if (0 < m.hdir) == (raw < m.hstart) then raw else m.hstart
  let s := s.setMx n { m with hstart := start }
  let stale := s.flag (DOOR_AS.STALE n) && atLeast1 (s.get (AX_FB.FB_FAULT n)) ≤ d.staleTicks
  if !s.homeLane n || stale || bitOf f.sw 7 then s.failHoming n 6
  else if s.get (AX_DET.SE_QUAL n) + 1 ≤ d.se || 16 * s.get (AX_FMAX.F_MAX n) < s.get (AX_FMAX.KF n) * f.cur / 625 then s.failHoming n 5
  else if (s.get (MOT_AX.HOME_TRAVEL n) : Int) < m.hdir * (raw - start) then s.failHoming n 2
  else if s.get (MOT_AS.HPHASE n) == 3 && m.htarget.isSome && m.legs.isEmpty then
    let k := s.get (MOT_AX_SETS.CREEP n)
    s.homeMove n 4 (s.homeDir n) k k false
  else s

/-- APPROACH finds the edge (R185): the profile moves to vehicle coordinates with its new OFFSET and stops with the CREEP set. -/
def State.homeDone (s : State) (n : Nat) (cap : Int) : State :=
  let m := s.mx n
  let off := s.getS (MOT_AX.HOME_POS n) - cap
  let st := { m.st with p := m.st.p + (off - s.getS (MOT_AS.OFFSET n)) * pScale }
  let k := s.get (MOT_AX_SETS.CREEP n)
  let s := (((s.putS (MOT_AS.OFFSET n) off).put (MOT_AS.HOMED n) 1).put (MOT_AS.HPHASE n) 5).inc MOT_HOME_CNT
  let g := s.stopFrom n st k none
  let s := s.setMx n { m with st := st, legs := [g], queue := [], set := g.set, hdir := 0 }
  ((s.put (MOT_AS.MSTATE n) 3).put (MOT_AS.REASON n) 1).showQueue n

/-- The count of a switch's edges within the present move after one more (R185, R186): an axis that stands is in no move. -/
def State.edgeOf (s : State) (n k : Nat) : Nat := if (s.mx n).legs.isEmpty then k else k + 1

/-- Whether one more edge is the fifth of one move. -/
def State.fifthEdge (s : State) (n k : Nat) : Bool := !(s.mx n).legs.isEmpty && k == 4

/-- HOME_EDGE_QUALIFIED (R184 to R186) (assumption 189). -/
def execHomeEdgeQualified (t n : Nat) (s : State) : Result :=
  let s := s.at_ t
  let m := s.mx n
  match m.home.cand with
  | some (k, cap) =>
    if k < s.debTicks n then .next s
    else
      let on := !m.home.on
      let s := (s.setMx n { m with home := ⟨on, none⟩, homeEdges := s.edgeOf n m.homeEdges }).putS (MOT_AS.HCAP n) cap
      let s := if s.fifthEdge n m.homeEdges then s.chatter n (MOT_AS.CHAT_HOME n) else s
      let h := s.get (MOT_AX_SETS.HOME n)
      let dir := s.homeDir n
      match s.get (MOT_AS.HPHASE n), on with
      | 1, true => .next ((s.homeMove n 3 (-dir) h h true).showMotion)
      | 2, true => .next (((s.setMx n { s.mx n with hstart := s.rawPos n }).put (MOT_AS.HPHASE n) 3).showMotion)
      | 3, false =>
        let target := cap - dir * s.get (MOT_AX_HOME.BACKOFF n)
        let s := s.setMx n { s.mx n with htarget := some target }
        .next ((s.planAxis n [⟨target + s.getS (MOT_AS.OFFSET n), h, false⟩] h false).showMotion)
      | 4, true => .next ((s.homeDone n cap).showMotion)
      | _, _ => .next s.showMotion
  | none => .next s

/-- A stop of a moving axis for its limit switch outside homing (R174), unless an item of R176 above it has acted in this pass. -/
def State.limitStop (s : State) (n : Nat) : State :=
  let m := s.mx n
  if m.st.moving && !m.acted then
    let s := ((s.setMx n { m with limDir := if m.st.v = 0 then sgn m.st.a else sgn m.st.v }).put (MOT_AS.LIMIT n) 1).inc MOT_LIMIT_CNT
    (s.stopAxis n 7).acted n
  else s

/-- A qualified edge of the limit switch of axis `n` to `on` (R174, R185, R186): off clears LIMIT; the fifth edge of one move stops the
axis whichever way it goes. -/
def State.limitTaken (s : State) (n : Nat) (on : Bool) : State :=
  let m := s.mx n
  let fifth := s.fifthEdge n m.limitEdges
  let homing := s.homing n
  let s := s.setMx n { m with limit := ⟨on, none⟩, limitEdges := s.edgeOf n m.limitEdges }
  let s := if on then s else s.putIf (MOT_AS.LIMIT n) 0
  let s := if fifth then s.chatter n (MOT_AS.CHAT_LIMIT n) else s
  if !homing then (if on || fifth then s.limitStop n else s)
  else if !on || !s.homing n then s
  else
    let trips := m.trips + 1
    let s := s.setMx n { s.mx n with trips := trips }
    if 2 ≤ trips then s.failHoming n 1
    else if s.get (MOT_AS.HPHASE n) == 1 then s.homeMove n 2 (-(s.homeDir n)) (s.get (MOT_AX_SETS.HOME n)) (s.get (MOT_AX_SETS.STOP n)) true
    else s

/-- An edge of the limit switch that has qualified by now is taken (R174, R184). -/
def State.limitEdge (s : State) (n : Nat) : State :=
  let m := s.mx n
  match m.limit.cand with
  | some (k, _) => if k < s.debTicks n then s else s.limitTaken n (!m.limit.on)
  | none => s

/-- LIMIT_TRIP (R174, R185, R186): a qualified edge of the limit switch that no pass has taken yet. -/
def execLimitTrip (t n : Nat) (s : State) : Result :=
  let s := s.at_ t
  match (s.mx n).limit.cand with
  | some (k, _) => if k < s.debTicks n then .next s else .next (s.limitEdge n).showMotion
  | none => .next s

/-- HOMING_TIMEOUT (R185): HOME_TMO ms; 0 never. -/
def execHomingTimeout (t n : Nat) (s : State) : Result :=
  let s := s.at_ t
  let ms := s.get (MOT_AX.HOME_TMO n)
  if s.homing n && ms != 0 && msTicks ms ≤ (s.mx n).hticks then .next ((s.failHoming n 3).showMotion) else .next s

end Sys2Proof.Machine
end

