-- ==== Sys2Proof/Machine/Door.lean ====
section
/-! DEFINITION. Machine/Door.lean: the evaluation pass of the door supervisor and the motion generator, and the timed events that
follow it in its lane tick (R133 to R154, R160 to R162, R175 to R180, R193). -/
namespace Sys2Proof.Machine
open Reg

/-! ### One axis (R138, R139) -/

/-- Whether the cause of FAULTED of axis `n` is still present (R139). -/
def State.causeNow (s : State) (n : Nat) : Bool :=
  match s.get (DOOR_AS.CAUSE n) with
  | 1 => !s.sw n 0 || !s.sw n 1 || !s.inLock n
  | 2 => s.sw n 1 && (!s.sw n 0 || (s.flag (MOT_AS.HOMED n) && !s.inLock n))
  | 4 => s.sw n 1 && (s.closeDir n * (s.dpos n - s.getS (AX_P_LOCK.POS n)) < -(3 * (s.get (AX_WIN.LOCK_WIN n) : Int)) : Bool)
  | 5 => s.sw n 0 && (s.closeDir n * (s.dpos n - s.getS (AX_P_CLOSED.POS n)) < -(s.get (AX_WIN.CLOSED_WIN n) : Int) : Bool)
  | 6 => s.flag (DOOR_AS.STALE n)
  | 7 => !s.flag (MOT_AS.HOMED n)
  | 8 => s.sw n 6 && !s.sw n 0
  | 9 => s.sw n 7
  | _ => false

/-- Whether an egress switch that acts on axis `n` is on (R130): of a leaf any of its door's. -/
def State.egressOn (s : State) (n : Nat) : Bool := (s.together n).any (fun i => s.sw i 5)

/-- What one of the priorities 1 to 4 of R139 asks of an axis: FAULTED with a cause, a state, or to stay as it is, since a fault of the same
cause still holds. -/
inductive Event where
  | fault (cause : Nat)
  | egress
  | isolated
  | derived
  | stay
  | none
  deriving DecidableEq, Repr

/-- A fault of cause `c` on axis `n`: the same cause again is no new entry. -/
def State.faultEvent (s : State) (n c : Nat) : Event := if s.dst n == 9 && s.get (DOOR_AS.CAUSE n) == c then .stay else .fault c

/-- Whether a moving axis has been STALE for FB_FAULT lane ticks (R136). -/
def State.fbFault (s : State) (n : Nat) : Bool :=
  (s.dst n == 2 || s.dst n == 5) && s.flag (DOOR_AS.STALE n) && atLeast1 (s.get (AX_FB.FB_FAULT n)) ≤ (s.dax n).staleTicks

/-- Priorities 1 to 3 of R139, UNKNOWN's own rows in the same order. -/
def State.upperEvent (s : State) (n : Nat) : Event :=
  let k := s.dst n
  if k == 0 then
    if s.get (MOT_AS.HPHASE n) == 6 then .fault 7
    else if !s.fresh n || !s.flag (MOT_AS.HOMED n) then .none
    else if s.egressOn n then .egress
    else if s.sw n 6 then (if s.sw n 0 then .isolated else .fault 8)
    else .derived
  else if s.sw n 7 then s.faultEvent n 9
  else if s.fbFault n then .fault 6
  else if s.isLeaf n && s.egressOn n && k != 7 then .egress
  else if k == 7 then
    if !s.egressOn n && s.get (AX_DET.SE_QUAL n) + 1 ≤ (s.dax n).egrOff + 1 then .derived else .none
  else if k == 9 then .none
  else if k == 8 then
    if !s.sw n 0 then .fault 8 else if !s.sw n 6 then .derived else .none
  else if s.sw n 6 then (if s.sw n 0 then .isolated else .fault 8)
  else .none

/-- Priority 4 of R139: a plausibility fault held for LOCK_Q passes (R142), SWITCH_STUCK before the condition that holds with it; not in
EGRESS or ISOLATED, nor under direct control (R180). -/
def State.plausEvent (s : State) (n : Nat) : Event :=
  let d := s.dax n
  let q := atLeast1 (s.get (AX_DET.LOCK_Q n))
  if s.dst n == 7 || s.dst n == 8 || s.flag (MOT_AS.DIRECT n) then .none
  else if q ≤ d.plaus4 then s.faultEvent n 4
  else if q ≤ d.plaus2 then s.faultEvent n 2
  else if q ≤ d.plaus5 then s.faultEvent n 5
  else .none

/-- Priorities 1 to 4 together. -/
def State.firstEvent (s : State) (n : Nat) : Event :=
  match s.upperEvent n with
  | .none => s.plausEvent n
  | e => e

/-- An event carried out. -/
def State.doEvent (s : State) (n : Nat) : Event → State
  | .fault c => s.enterFault n c
  | .egress => s.enterEgress n
  | .isolated => s.enterIsolated n
  | .derived => s.derive n
  | .stay | .none => s

/-- CLOSED is reached (R139): the lock stroke follows once every leaf of the door is there. -/
def State.enterClosed (s : State) (n : Nat) : State := (s.endStroke n).enter n 3

/-- Whether every leaf of the door of axis `n` has ended its closing: none is on its way or waits for a command or a lock. -/
def State.doorShut (s : State) (n : Nat) : Bool := (s.together n).all (fun i => [0, 4, 7, 8, 9].contains (s.dst i))

/-- LOCKED is reached (R139, R141): the cycle ends; the retry counts, which the leaves of a door share, are 0 with the last leaf
(R130; assumption 193). -/
def State.enterLocked (s : State) (n : Nat) : State :=
  let noedge := !(s.dax n).lockedOff
  let s := s.enter n 4
  let s := if s.doorShut n then (s.together n).foldl (fun s i => s.putIf (DOOR_AS.LRETRY i) 0) (s.clearRetry n) else s
  let s := s.putFlag (DOOR_AS.NOEDGE n) noedge
  (s.cyc_ n (fun c => { c with flags := c.flags ||| (64 * noedge.toNat) })).endCycle n 4

/-- OPEN is reached (R139). -/
def State.enterOpen (s : State) (n : Nat) : State := (if s.flag (DOOR_AS.REOPEN n) then s else s.endStroke n).enter n 1

/-- Whether every leaf of the door of axis `n` that goes on after a dwell, to close where `re` says so, has ended its own (R181). -/
def State.allDwelt (s : State) (n : Nat) (re : Bool) : Bool :=
  (s.together n).all (fun i => s.dst i != 5 || s.flag (DOOR_AS.REOPEN i) != re || (!re && (s.dax i).dwell.isNone) || (s.dax i).dwelt)

/-- Priorities 6 and 7 of R139 for axis `n`, by its state at the start of the pass. Where an item of R176 has acted on the axis in this
pass, no new target follows (assumption 185). -/
def State.lowerEvents (s : State) (n : Nat) : State :=
  let free := !(s.mx n).acted
  let want := s.wantOpen n
  let open_ := want && free
  let close := s.wantClose n && free
  match s.dst n with
  | 1 =>
    if open_ && !s.atOpen n && !s.flag (DOOR_AS.CONTACT n) && s.seqOpen n then s.openFully n
    else if close && s.seqClose n then (if s.reopening n then s else s.clearRetry n).closeFully n
    else s
  | 2 =>
    if (s.together n).all (fun i => s.sw i 0 && s.atClosed i) then s.enterClosed n
    else if open_ then s.openFully n
    else s
  | 3 =>
    if atLeast1 (s.get (AX_DET.LOCK_Q n)) ≤ (s.dax n).lockCnt then s.enterLocked n
    else if open_ && s.seqOpen n then s.openFully n
    else s
  | 4 =>
    if want then (if open_ && s.seqOpen n then s.openFully n else s)
    else if s.fresh n && (!s.sw n 0 || !s.sw n 1 || !s.inLock n) then s.enterFault n 1
    else s
  | 5 =>
    let re := s.flag (DOOR_AS.REOPEN n)
    let d := s.dax n
    let here := s.flag (MOT_AS.ARRIVED n) || (re && (d.dwell.isSome || d.dwelt))
    if here && (want || !re) then s.enterOpen n
    else if s.flag (MOT_AS.ARRIVED n) then s.setDax n { d with dwell := some 0, dwelt := false }
    else if close && (!re || (d.dwelt && s.allDwelt n true)) && s.seqClose n then s.closeFully n
    else if free && !re && d.dwelt && s.allDwelt n false then s.startStroke n 0 (s.getS (AX_P_OPEN.POS n)) false
    else s
  | 6 =>
    if open_ then (s.clearRetry n).openFully n
    else if free && (s.cmdEdge n 1 || s.cmdEdge n 2) then (s.clearRetry n).closeFully n
    else s
  | 9 => if s.cmdEdge n 2 && !s.causeNow n then s.derive n else s
  | _ => s

/-- Direct control ends where SERVICE or standstill does: the axis stops, and at rest its state is derived (R180). -/
def State.directCheck (s : State) (n : Nat) : State :=
  if !s.flag (MOT_AS.DIRECT n) then s
  else
    let lost := s.get SYS_STAT.MODE != 1 || !s.still
    let s := if lost && !(s.mx n).giveUp then s.setMx n { s.mx n with giveUp := true } else s
    let m := s.mx n
    if !m.giveUp then s
    else if m.st.moving then (if m.acted || s.get (MOT_AS.MSTATE n) == 3 then s else (s.stopAxis n 10).acted n)
    else
      let s := if m.acted then s else s.stopAxis n 10
      ((s.put (MOT_AS.DIRECT n) 0).setMx n { (s.put (MOT_AS.DIRECT n) 0).mx n with giveUp := false }).derive n

/-- A detection of this pass as it acts on one axis: its detectors, and the retries used and allowed of the leaf that gives rise to it. -/
structure Hit where
  bits : Nat
  used : Nat
  most : Nat
  deriving DecidableEq, Repr

/-- Whether a detection of axis `n` takes effect, read from `s0`, the state all axes were read from: nothing of a higher priority does, and
no item of R176 above it has acted in `s` (R139, R176). -/
def State.fires (s0 s : State) (n : Nat) : Bool := s0.detects n != 0 && s0.firstEvent n == .none && !(s.mx n).acted

/-- The first leaf of the door of axis `n`, not under direct control, whose detection takes effect. -/
def State.firstHit (s0 s : State) (n : Nat) : Option Nat :=
  (s0.together n).find? (fun i => s0.fires s i && !s0.flag (MOT_AS.DIRECT i))

/-- The detection that acts on axis `n` (R130, R139, R180): its own, or that of the first leaf of its door, whose retry count counts. -/
def State.hitOf (s0 s : State) (n : Nat) : Option Hit :=
  let hit := fun i => Hit.mk (if s0.fires s n then s0.detects n else s0.detects i) (s0.get (DOOR_AS.RETRY i)) (s0.get (AX_RETRY.RETRY_MAX i))
  if (s.mx n).acted then none
  else if s0.flag (MOT_AS.DIRECT n) then (if s0.fires s n then some (hit n) else none)
  else if s0.dst n == 2 || s0.dst n == 3 || s0.dst n == 4 || s0.dst n == 5 || s0.fires s n then (s0.firstHit s n).map hit
  else none

/-- Priorities 1 to 4 of R139 on axis `n`, with the immediate stops that R176 puts first. `s0` is the state all axes were read from. -/
def State.immediate (s0 s : State) (n : Nat) : State :=
  let s := if s0.dst n == 7 then s.setDax n { s.dax n with egrOff := if s0.egressOn n then 0 else (s.dax n).egrOff + 1 } else s
  let s := if s0.flag (DOOR_AS.HELD n) && !s0.flag DOOR_STAT.SHED_HELD then s.put (DOOR_AS.HELD n) 0 else s
  s.doEvent n (s0.firstEvent n)

/-- Priorities 5 to 7 of R139 on axis `n`, where none above them took effect; `s1` is the state after the items that R176 puts first. -/
def State.supervise (s0 s1 s : State) (n : Nat) : State :=
  if s0.firstEvent n != .none then s
  else
    let s := s.directCheck n
    match s0.hitOf s1 n with
    | some h => s.obstacle n h.bits h.used h.most
    | none =>
      if s0.flag (MOT_AS.DIRECT n) then s
      else
        let s' := s.lowerEvents n
        if (s'.dax n).resume && s'.mayStart && !(s'.mx n).acted then s'.restart n else s'

/-- The lock stroke starts once every leaf of the door is CLOSED (R141). -/
def State.lockStroke (s : State) (n : Nat) : State :=
  let d := s.dax n
  if s.dst n == 3 && !d.stroking && !(s.mx n).acted && !s.flag (MOT_AS.DIRECT n)
      && (s.together n).all (fun i => s.dst i == 3 || s.dst i == 4) then
    let s := s.startStroke n 2 (s.getS (AX_P_LOCK.POS n)) false
    s.setDax n { s.dax n with stroking := true }
  else s

/-- Shedding stage 3 holds axis `n` (R154), unless an immediate stop has acted on it. -/
def State.shedHold (s : State) (n : Nat) : State :=
  if s.flag DOOR_STAT.SHED_HELD && (s.dst n == 2 || s.dst n == 5) && !s.flag (DOOR_AS.HELD n) && !(s.mx n).acted then
    let s := ((s.put (DOOR_AS.HELD n) 1).stopAxis n 5).acted n
    let s := s.setDax n { s.dax n with resume := true, stroke := none }
    s.cyc_ n (fun c => { c with flags := c.flags ||| 32 })
  else s

/-- Commands at Kickstand stop axis `n` where it moves, waits, or holds after a move (R134, R175, R177); its stroke goes on later. -/
def State.kickAxis (s : State) (n : Nat) : State :=
  let k := s.get (MOT_AS.MSTATE n)
  if s.door.kick && !(s.mx n).acted && (k == 1 || k == 2 || k == 5 || k == 6) then
    let s := (s.stopAxis n 6).acted n
    let d := s.dax n
    s.setDax n { d with resume := s.dst n == 2 || s.dst n == 5 || s.dst n == 3, stroke := none }
  else s

/-! ### Interlock and status (R135, R150) -/

/-- DS_ILKg (R150, R180). -/
def State.ilkBit (s : State) (g : Nat) : Bool :=
  let l := s.axes.filter (fun n => s.get (AX_CFG.IGRP n) == g)
  !l.isEmpty && l.all (fun n => (s.dst n == 4 || s.dst n == 8) && !s.flag (DOOR_AS.STALE n) && !s.flag (DOOR_AS.HELD n) && !s.flag (MOT_AS.DIRECT n))

/-- DOOR_ILK, DOOR_STAT and the axis status words in the input image follow the axes (R135, R150). -/
def State.showDoor (s : State) : State :=
  let l := s.axes
  let s := s.putIf DOOR_ILK.ILK ((List.range 16).foldl (fun v g => if s.ilkBit g then v + 2 ^ g else v) 0)
  let s := s.putIf DOOR_STAT.NMOVING (l.filter (fun n => s.dst n == 2 || s.dst n == 5)).length
  let s := s.putIf DOOR_STAT.NFAULT (l.filter (fun n => s.dst n == 9)).length
  s.liveWrite (s.get DOOR_CFG.STAT_OFF) ((List.range (min 96 (s.get DOOR_CFG.NAXES))).flatMap (fun n => leBytes 4 (s.word (DOOR_AS.STATE n).addr).toNat))

/-! ### The pass -/

/-- DOOR_REL: the released groups (R133). -/
def State.releasePass (s : State) : State :=
  let gate := s.tripOut (s.get DOOR_GATE.GATE_IDX)
  let rel := (List.range 16).foldl (fun v g =>
    if bitOf s.door.rel g && (!bitOf (s.get DOOR_GATE.APPLY) g || gate) then v + 2 ^ g else v) 0
  s.putIf DOOR_REL.REL rel

/-- The standby takes the state image (R358): door axes, then trip functions latched with cause START only. -/
def State.takeImage (s : State) : State :=
  match s.door.image with
  | none => s
  | some l =>
    let s := { s with door := { s.door with image := none } }
    let s := s.axes.foldl (fun s n =>
      let w := l.getD n 0
      let stale := s.get (DOOR_AS.STALE n)
      let s := (s.setWord (DOOR_AS.STATE n).addr (BitVec.ofNat 32 w)).put (DOOR_AS.STALE n) stale
      s.setDax n { s.dax n with
        resume := w % 16 == 2 || w % 16 == 5, target := s.getS (AX_P_OPEN.POS n), stroking := false, lockTicks := 0, lockCnt := 0
        dwell := none, dwelt := false }) s
    let s := (List.range 32).foldl (fun s n =>
      if s.flag (TRIP_FN_STAT.LATCHED n) && s.get (TRIP_FN_STAT.CAUSE n) == 1 && !s.causePresent n && !bitOf (l.getD (96 + n) 0) 7 then
        s.fnOpen n 3 0
      else s) s
    (s.put TWIN_STAT.SYNC 1).inc TWIN_RESYNC_CNT

/-- Axis `n` planned from its feedback towards its present target once LANE is back (R193): a stop from there, the queue, or the move that
an axis holding at its target makes back to it; one that waits for its GSTART comes to rest first. -/
def State.backAxis (s : State) (n : Nat) : State :=
  let m := s.mx n
  let hold := m.legs.isEmpty && s.get (MOT_AS.MSTATE n) == 2
  if (s.pulseOf n).isSome then s
  else if m.legs.isEmpty && s.get (MOT_AS.MSTATE n) == 6 then
    let s := s.stateFromFb n
    let x := (s.mx n).st
    if x.moving then (s.setMx n { s.mx n with legs := [s.stopFrom n x m.set none] }).put (MOT_AS.MSTATE n) 1 else s
  else if m.legs.isEmpty && !hold then s
  else
    let um := m.st.um
    let s := s.stateFromFb n
    if !hold then s.replanQueue n
    else if (s.mx n).st == PV.rest um then s
    else
      let queue : List Move := [⟨um, m.set, false⟩]
      let legs := (s.path n (s.mx n).st queue m.set false).1
      (((s.setMx n { s.mx n with legs := legs, queue := queue, hold := 0 }).put (MOT_AS.MSTATE n) 1).showSlowed n).showQueue n

/-- When LANE synchronises again each node axis is planned from its feedback (R193). -/
def State.laneBack (s : State) : State :=
  let now := s.flag TIME_STAT.LANE_SYNC
  let s1 := if now && !s.door.hadLane then s.axes.foldl State.backAxis s else s
  { s1 with door := { s1.door with hadLane := now } }

/-- Automatic homing at the first fresh feedback while not homed (R149, R183). -/
def State.autoHome (s : State) (n : Nat) : State :=
  let d := s.dax n
  if s.flag (MOT_AS.HOMED n) then s.setDax n { d with seen := false }
  else if !s.fresh n || d.seen then s
  else
    let s := s.setDax n { d with seen := true }
    let mode := s.get SYS_STAT.MODE
    if s.get (MOT_AX_HOME.MODE n) == 1 && s.flag MOT_CTRL.AUTOHOME && s.flag (MOT_AX_HOME.AUTO n) && (mode == 1 || mode == 3) && s.still
        && s.homeLane n && s.mayStart && !s.homing n && s.dst n != 7 && s.dst n != 8 then s.startHoming n
    else s

/-- A slot whose OP is none of R178's is refused by the pass that meets it. -/
def State.badSlots (s : State) : State :=
  (List.range 16).foldl (fun s k =>
    let b := (s.door.slots.drop (16 * k)).take 16
    let seq := (b.getD 0 0).toNat
    let op := (b.getD 1 0).toNat
    if b.length == 16 && seq != SMap.getD s.door.slotSeq k 0 && (op == 0 || 8 < op) then
      ({ s with door := { s.door with slotSeq := SMap.set s.door.slotSeq k seq, slotRes := SMap.set s.door.slotRes k 1 } }).inc MOT_CMD_REJ_CNT
    else s) s

/-- The evaluation pass (R135, R160, R176): feedback and profiles, then immediate stops, KICK and LIMIT, then every axis, then interlock and
status. -/
def State.doorPass (s : State) : State :=
  let l := s.axes
  let s := l.foldl (fun s n => (s.putIf (MOT_AS.ARRIVED n) 0).setMx n { s.mx n with acted := false }) s
  let s := l.foldl State.takeSample (l.foldl State.sampleLocal s)
  let s := l.foldl State.advanceAxis s.laneBack
  let s := l.foldl State.takeFb s
  let s := (s.takeImage).releasePass
  let s := l.foldl State.axisTicks s
  let s := l.foldl State.lockCounts s
  let s := l.foldl (fun s n => if s.homing n then s.homeCheck n else s.autoHome n) s
  let s1 := l.foldl State.shedHold (l.foldl s.immediate s)
  let s1 := l.foldl State.limitEdge (l.foldl State.kickAxis s1)
  let first := l.filter (fun n => s.fires s1 n && (s.flag (MOT_AS.DIRECT n) || s.firstHit s1 n == some n))
  let s1 := s1.add DOOR_OBST_CNT first.length
  let s := l.foldl (s.supervise s1) s1
  let s := l.foldl State.lockStroke s
  let s := l.foldl State.driveLocal s
  let s := { s with door := { s.door with edges := [], passed := true, slotsNew := false, ticks := s.door.ticks + 1 } }
  (s.badSlots.showDoor).showMotion

/-- Whether the feedback deadline of this lane tick has come, and its pass not yet run (R13, R135). -/
def State.passDue (s : State) : Bool := !s.door.passed && (s.lanes.boundary + 8 * s.get LANE_DOOR.FB_DL ≤ s.localNow : Bool)

/-- FEEDBACK_DEADLINE (R13, R135, R137, R161, R499): the pass, one in each lane tick, which took `dur` ns, planning until `plan` ns;
`mismatch` says that the two instances differ. -/
def execFeedbackDeadline (t : Nat) (mismatch : Bool) (dur plan : Nat) (s : State) : Result :=
  let s := s.at_ t
  if s.pwr.inReset || s.pwr.dormant || !s.passDue then .next s
  else
    let s := ((s.doorPass.inc DOOR_PASS_CNT).put DOOR_PASS.DUR dur).put MOT_PLAN.DUR plan
    let s := s.hist OBS_H2_CNT (dur / (10 * atLeast1 (s.get OBS_HIST_CFG.BIN2)))
    if !mismatch then .next s
    else
      let s := s.axes.foldl (fun s n => if (s.mx n).st.moving then (s.stopAxis n 2).acted n else s) s
      .next ((s.put DOOR_ILK.ILK 0).enterLockout 4 0)

/-! ### Timed events of the supervisor -/

/-- FEEDBACK_FAULT_TIMEOUT (R136): STALE ticks spent standing count too once the axis moves (assumption 165). -/
def execFeedbackFaultTimeout (t n : Nat) (s : State) : Result :=
  let s := s.at_ t
  if s.axUsed n && s.fbFault n then .next (((s.enterFault n 6).showDoor).showMotion) else .next s

/-- One lock retry after `used` ones of leaf `n` (R130, R139): a CLOSED or LOCKED one that is not under direct control opens. -/
def State.lockRetry (used : Nat) (s : State) (n : Nat) : State :=
  let s := ((s.put (DOOR_AS.LRETRY n) (used + 1)).lifeAdd n 1).cyc_ n (fun c => { c with retries := c.retries + 1 })
  if (s.dst n == 3 || s.dst n == 4) && !s.flag (MOT_AS.DIRECT n) then s.reopen n false else s

/-- LOCK_TIMEOUT (R139): a lock retry of the door, or FAULTED; not of an axis under direct control (R180). -/
def execLockTimeout (t n : Nat) (s : State) : Result :=
  let s := s.at_ t
  if s.axUsed n && s.dst n == 3 && !s.flag (MOT_AS.DIRECT n) && msTicks (s.get (AX_TIME.LOCK_TMO n)) ≤ (s.dax n).lockTicks then
    let used := s.get (DOOR_AS.LRETRY n)
    let s := if used < s.get (AX_RETRY.LOCK_RETRY_MAX n) then ((s.together n).foldl (State.lockRetry used) s).inc DOOR_LRETRY_CNT
      else s.enterFault n 3
    .next (s.showDoor.showMotion)
  else .next s

/-- One leaf goes on after its dwell: it closes, or resumes the opening that an obstacle held (R139). -/
def State.dwellNext (re : Bool) (s : State) (n : Nat) : State :=
  if s.dst n != 5 || s.flag (DOOR_AS.REOPEN n) != re || !(s.dax n).dwelt then s
  else if re then (if s.wantClose n then s.closeFully n else s)
  else s.startStroke n 0 (s.getS (AX_P_OPEN.POS n)) false

/-- REOPEN_DWELL_END (R139, R181): at the reopen target the axis closes where it wants to, after a hold in OPENING it resumes; the leaves
of one door do so together, once the last of them has dwelt. -/
def execReopenDwellEnd (t n : Nat) (s : State) : Result :=
  let s := s.at_ t
  let d := s.dax n
  match d.dwell with
  | some k =>
    if s.dst n != 5 || k < msTicks (s.get (AX_TIME.REOPEN_DWELL n)) then .next s
    else
      let re := s.flag (DOOR_AS.REOPEN n)
      let s := s.setDax n { d with dwell := none, dwelt := true }
      if s.allDwelt n re then .next ((((s.together n).foldl (State.dwellNext re) s).showDoor).showMotion) else .next s
  | none => .next s

/-- ACC_WIN_END (R144). -/
def execAccWinEnd (t n : Nat) (s : State) : Result :=
  let s := s.at_ t
  let d := s.dax n
  match d.acc with
  | some k => if msTicks (s.get (AX_FB.ACC_WIN n)) ≤ k then .next (s.setDax n { d with acc := none }) else .next s
  | none => .next s

/-- One point of a learned direction (R147). -/
def State.learnPoint (s : State) (n d : Nat) (x : Nat × Nat) : State :=
  let a := envAddr n d x.1
  let w := s.load a 4
  let old : Int := ((w % 2 ^ 24 : Nat) : Int)
  let v := clampInt (16 * s.get (AX_EBND.E_MIN n)) (16 * s.get (AX_EBND.E_MAX n)) (old + ((x.2 : Int) - old).fdiv 16)
  s.store a 4 (v.toNat % 2 ^ 24 + 2 ^ 24 * min 255 (w / 2 ^ 24 + 1))

/-- ENVELOPE_UPDATE (R147): the whole direction of one axis is applied. -/
def execEnvelopeUpdate (t n : Nat) (s : State) : Result :=
  let s := s.at_ t
  let d := s.dax n
  match d.learn with
  | some st =>
    let s := (st.samples.foldl (fun s x => s.learnPoint n st.dir x) s).inc DOOR_LEARN_CNT
    let s := (s.setDax n { d with learn := none }).lifeAdd n 5
    .next (s.putIf DOOR_STAT.LEARN_BUSY (s.door.ax.any (fun (x : Nat × DAxis) => x.2.learn.isSome)).toNat)
  | none => .next s

/-- HOLD_MS_END (R175): the hold after a completed move ends. -/
def execHoldMsEnd (t n : Nat) (s : State) : Result :=
  let s := s.at_ t
  if s.get (MOT_AS.MSTATE n) == 2 && (s.mx n).hold == 0 then .next ((s.standstill n 1).showMotion) else .next s

end Sys2Proof.Machine
end

