-- ==== Sys2Proof/Machine/Recorder.lean ====
section
/-! DEFINITION. Machine/Recorder.lean: the MRAM rings, records as they are written, snapshots, lifetime copies, the start-up
scan, reading and clearing (R450 to R469). -/
namespace Sys2Proof.Machine
open Reg

/-! ### Slots (R450, R451, R453) -/

/-- MRAM offset of partition `p` (R450). -/
def partOffset : Nat → Nat
  | 0 => 0x0000000
  | 1 => 0x0800000
  | 2 => 0x6800000
  | 3 => 0x7900000
  | _ => 0x7800000

/-- Slots of partition `p` (R450); LIFETIME uses 192. -/
def partCap : Nat → Nat
  | 0 => 131072
  | 1 => 1572864
  | 2 => 262144
  | 3 => 114688
  | 4 => 192
  | _ => 0

/-- Where slot `i` of partition `p` lies in the model's MRAM. -/
def slotAddr (p i : Nat) : Nat := mramBase + partOffset p + 64 * i

/-- The MARK of a complete record (R451). -/
def recMark : Nat := 0xA55A5AA5

/-- The 64 bytes of a slot as they stand. -/
def State.slot (s : State) (p i : Nat) : List Byte := s.bytes (slotAddr p i) 64

/-- Byte `k` of a slot's contents. -/
def sb (b : List Byte) (k : Nat) : Nat := (b.getD k 0).toNat

/-- The little-endian number of `n` bytes at `k` of a slot's contents. -/
def sn (b : List Byte) (k n : Nat) : Nat := leNat ((b.drop k).take n)

/-- Whether MARK and CRC are those of a complete record (R453). -/
def markOk (b : List Byte) : Bool := sn b 0x3C 4 == recMark && sn b 0x38 4 == crc32c (b.take 0x38)

/-- Whether a slot holds a valid record (R453). -/
def slotValid (b : List Byte) : Bool := markOk b && sb b 5 == 0x40

/-- Stores 56 bytes with their CRC and MARK into a slot (R453). -/
def State.writeSlot (s : State) (p i : Nat) (body : List Byte) : State :=
  let b := padTo 56 body
  s.storeBytes (slotAddr p i) (b ++ leBytes 4 (crc32c b) ++ leBytes 4 recMark)

/-- The same write broken off: MARK zeroed, the first `n` bytes written (R453). -/
def State.cutSlot (s : State) (p i n : Nat) (body : List Byte) : State :=
  let b := padTo 56 body
  (s.store (slotAddr p i + 0x3C) 4 0).storeBytes (slotAddr p i) ((b ++ leBytes 4 (crc32c b)).take n)

/-- The slot after slot `i` of partition `p`. -/
def nextSlot (p i : Nat) : Nat := (i + 1) % partCap p

/-- Whether a clear of partition `p` has taken place and its zeroing runs (R467). -/
def State.clearing (s : State) (p : Nat) : Bool :=
  match s.recd.clear with
  | some c => c.part == p && c.begun.isSome
  | none => false

/-- The record at NEXT of ring `p` gives way (R450): a valid one there is overwritten and counted. While a clear zeroes the ring, the
records from before it count no more (R467), so that only a full round of new ones is overwritten. -/
def State.makeRoom (s : State) (p : Nat) : State :=
  let i := s.get (REC_PART.NEXT p)
  if slotValid (s.slot p i) && s.get (REC_PART.COUNT p) != 0 && (!s.clearing p || s.get (REC_PART.COUNT p) == partCap p) then
    let s := (s.inc REC_OVW_CNT).put (REC_PART.COUNT p) (s.get (REC_PART.COUNT p) - 1)
    if s.get (REC_PART.OLDEST p) == i then s.put (REC_PART.OLDEST p) (nextSlot p i) else s
  else s

/-- One complete record at NEXT of partition `p`; the CLEAR LOG is never overwritten (R450). -/
def State.ringWrite (s : State) (p : Nat) (body : List Byte) : State :=
  if p == 3 && partCap 3 ≤ s.get (REC_PART.COUNT 3) then s
  else
  let s := s.makeRoom p
  let i := s.get (REC_PART.NEXT p)
  let s := s.writeSlot p i body
  let s := if s.get (REC_PART.COUNT p) == 0 then s.put (REC_PART.OLDEST p) i else s
  ((s.put (REC_PART.NEXT p) (nextSlot p i)).put (REC_PART.COUNT p) (s.get (REC_PART.COUNT p) + 1)).inc REC_WR_CNT

/-! ### Lifetime copies (R462) -/

/-- The slot of LIFETIME copy `k` of axis `a` (R462, R465). -/
def lifeSlot (a k : Nat) : Nat := 2 * a + k

/-- Copy `k` of axis `a` as it stands. -/
def State.lifeCopy (s : State) (a k : Nat) : List Byte := s.slot 4 (lifeSlot a k)

/-- GEN of a complete copy; 0 for any other. -/
def copyGen (b : List Byte) : Nat := if markOk b then sn b 0 4 else 0

/-- The older copy of axis `a`, which is written next, and the GEN it gets (R462). -/
def State.lifeNext (s : State) (a : Nat) : Nat × Nat :=
  let g0 := copyGen (s.lifeCopy a 0)
  let g1 := copyGen (s.lifeCopy a 1)
  (if g1 < g0 then 1 else 0, (Nat.max g0 g1 + 1) % 2 ^ 32)

/-- The 56 bytes of a lifetime copy (R462). -/
def lifeBody (gen seq : Nat) (counts : List Nat) : List Byte := leBytes 4 gen ++ leBytes 4 seq ++ counts.flatMap (leBytes 4)

/-! ### Writing (R452 to R454, R462, R467, R469) -/

/-- A record's 56 bytes with SEQ and, in stage 4, FLUSH (R469). -/
def State.sealed (s : State) (q : QRec) (seq : Nat) : List Byte :=
  let b7 := sb q.body 7
  let b7 := if s.pwr.flush then (if q.part == 1 then b7 ||| 0x80 else b7 ||| 4) else b7
  leBytes 4 seq ++ (q.body.drop 4).take 3 ++ leBytes 1 b7 ++ q.body.drop 8

/-- The SEQ of record `q` (R452, R461): the CLEAR LOG's own counter; the SEQ kept for a snapshot's head record; otherwise
REC_NEXT_SEQ, of which the first data record of a snapshot takes one for the head record before its own. -/
def State.takeSeq (s : State) (q : QRec) : State × Nat :=
  let typ := sb q.body 4
  let next := s.get REC_NEXT_SEQ.SEQ
  if q.part == 3 then ({ s with recd := { s.recd with clearSeq := (s.recd.clearSeq + 1) % 2 ^ 32 } }, s.recd.clearSeq)
  else
    match typ, s.recd.headSeq with
    | 0x30, some h => ({ s with recd := { s.recd with headSeq := none } }, h)
    | 0x31, h =>
      if h.isNone || sb q.body 0x0C == 1 then
        (({ s with recd := { s.recd with headSeq := some next } }).put REC_NEXT_SEQ.SEQ (next + 2), (next + 1) % 2 ^ 32)
      else (s.put REC_NEXT_SEQ.SEQ (next + 1), next)
    | _, _ => (s.put REC_NEXT_SEQ.SEQ (next + 1), next)

/-- What a record's own content takes from the moment of its write: a snapshot data record the SEQ of its head record (R461), the
CODE 1 record of a clear its DATA (R467). -/
def State.lateBytes (s : State) (q : QRec) (body : List Byte) : List Byte :=
  match q.part, sb body 4, s.recd.headSeq, s.recd.clear with
  | 2, 0x31, some h, _ => body.take 8 ++ leBytes 4 h ++ body.drop 12
  | 3, 0x70, _, some c =>
    if sb body 6 == 1 then
      body.take 0x18 ++ leBytes 1 c.part ++ leBytes 3 0 ++ leBytes 4 (s.get REC_NEXT_SEQ.SEQ) ++ leBytes 8 c.token
        ++ leBytes 8 (s.get SYS_RTC.RTC) ++ leBytes 8 (s.get TWIN_SERIAL.SERIAL)
    else body
  | _, _, _, _ => body

/-- Once the CODE 1 record has its MARK the clear has taken place (R467): the partition holds no record. -/
def State.clearBegun (s : State) (q : QRec) (body : List Byte) : State :=
  match s.recd.clear with
  | some c =>
    if q.part == 3 && sb body 6 == 1 && c.begun.isNone then
      let s := { s with recd := { s.recd with clear := some { c with begun := some ((body.drop 0x18).take 32) } } }
      (s.put (REC_PART.COUNT c.part) 0).put (REC_PART.OLDEST c.part) (s.get (REC_PART.NEXT c.part))
    else s
  | none => s

/-- The recorder writes record `q`: a door record's LIFETIME copy first (R462), then the record (R453). With `cut` the write is
broken off: up to 60 bytes of the record, or of the lifetime copy where `cut` is 61 or more. -/
def State.writeRecord (s : State) (q : QRec) (cut : Option Nat) : State :=
  let (s, seq) := s.takeSeq q
  let body := s.lateBytes q (s.sealed q seq)
  let i := s.get (REC_PART.NEXT q.part)
  match cut, q.door with
  | none, d =>
    let s := match d with
      | some (a, counts) =>
        let (k, gen) := s.lifeNext a
        s.writeSlot 4 (lifeSlot a k) (lifeBody gen seq counts)
      | none => s
    (s.ringWrite q.part body).clearBegun q body
  | some n, some (a, counts) =>
    let (k, gen) := s.lifeNext a
    if 61 ≤ n then s.cutSlot 4 (lifeSlot a k) (min (n - 61) 60) (lifeBody gen seq counts)
    else (s.writeSlot 4 (lifeSlot a k) (lifeBody gen seq counts)).cutSlot q.part i n body
  | some n, none => s.cutSlot q.part i (min n 60) body

/-- A SYS reset of the boot supervisor's own waits for one record less (R449). -/
def State.waitLess (s : State) : State :=
  match s.boot.resetWait with
  | some (sub, n) => ({ s with boot := { s.boot with resetWait := some (sub, n - 1) } }).waitingReset
  | none => s

/-- RECORD_WRITTEN (R450 to R454): after the scan, the next queued record goes into its slot. `cut` says that a reset or a power
loss breaks the write off after so many bytes. -/
def execRecordWritten (cut : Option Nat) (s : State) : Result :=
  if !s.flag REC_STAT.READY || s.pwr.dormant then .next s
  else match s.nextQueued with
    | none => .next s
    | some k =>
      match s.recd.queue[k]? with
      | none => .next s
      | some q =>
        let s := { s with recd := { s.recd with queue := s.recd.queue.eraseIdx k } }
        .next (((s.put REC_STAT.QLEVEL s.recd.queue.length).writeRecord q cut).waitLess)

/-! ### Records from programs and software (R457, R458) -/

/-- PROGRAM_RECORD (R457): REC_PRG_GO by the Tricycle. -/
def execProgramRecord (t : Nat) (who : Initiator) (typ : BitVec 4) (code : BitVec 8) (s : State) : Result :=
  match (s.at_ t).gate who REC_PRG_GO.TYPE.addr false (who == .tri) with
  | (s, false) => .next s
  | (s, true) => .next (s.record (0x40 + typ.toNat) code.toNat ((List.range 8).flatMap (fun i => leBytes 4 (s.get (REC_PRG_D.DATA i)))))

/-- SOFTWARE_RECORD (R458, R469): REC_SUBMIT by a service core, while the cluster runs. -/
def execSoftwareRecord (t : Nat) (who : Initiator) (addr : BitVec 32) (s : State) : Result :=
  match (s.at_ t).gate who REC_SUBMIT.ADDR.addr false who.isService with
  | (s, false) => .next s
  | (s, true) =>
    let b := s.bytes (addr.toNat / 64 * 64) 64
    let s := s.inc REC_SUB_DONE_CNT
    if 0x50 ≤ sb b 4 && sb b 4 ≤ 0x5F then .next (s.record (sb b 4) (sb b 6) ((b.drop 0x18).take 32))
    else .next (s.inc REC_REJ_CNT)

/-! ### Snapshots (R459 to R461) -/

/-- SNAPSHOT_TRIGGER (R459): REC_SNAP fires a software trigger. -/
def execSnapshotTrigger (t : Nat) (who : Initiator) (trg : BitVec 5) (s : State) : Result :=
  match (s.at_ t).gate who REC_SNAP.TRG.addr false true with
  | (s, false) => .next s
  | (s, true) => if s.trigUsed trg.toNat 2 then .next (s.fireTrigger trg.toNat 2 0) else .next s

/-- Whether `a` is a word of a pop window: TIME_CAPn_FIFO, CRC_En_FIFO, BRG_PWLOG, LOOP_HRXc (R31, R335). -/
def isPop (a : Nat) : Bool :=
  (0x20080200 ≤ a && a < 0x20080200 + 8 * 16) || (0x200F0100 ≤ a && a < 0x200F0180 && a % 32 / 4 == 6) || (0x200A0000 ≤ a && a < 0x200A0200 && a % 64 / 8 == 7)
    || a == 0x20100010 || a == 0x20100014

/-- One pair of a snapshot: an address outside the MMIO blocks or of a pop window is not read (R460). -/
def State.snapPair (s : State) (a : Nat) : List Byte :=
  if a < 0x20000000 || 0x20160000 ≤ a || isPop a then leBytes 4 (a + 1) ++ leBytes 4 0
  else leBytes 4 a ++ leBytes 4 (s.readReg a).toNat

/-- The addresses trigger `k` reads, in list order (R460): at most 64, none beyond word 2,047. -/
def State.snapList (s : State) (k : Nat) : List Nat :=
  let base := s.get (REC_TRG.BASE k)
  (List.range (min (min (s.get (REC_TRG.COUNT k)) 64) (2048 - base))).map (fun j => 4 * s.get (REC_LIST.ADDR (base + j)))

/-- A snapshot record: head or data (R451, R461). -/
def State.snapFrame (s : State) (typ code : Nat) (rest : List Byte) : List Byte :=
  padTo 56 (leBytes 4 0 ++ leBytes 1 typ ++ leBytes 1 0x40 ++ leBytes 1 code ++ leBytes 1 s.recFlags ++ rest)

/-- SNAPSHOT_CAPTURE_DONE (R459 to R461): the running capture ends; its data records, then its head record are handed over, and the next
waiting capture starts. `first` is LOCAL at the first read, `span` the ns to the last. -/
def execSnapshotCaptureDone (t first span : Nat) (s : State) : Result :=
  let s := s.at_ t
  match s.recd.running with
  | none => .next s
  | some c =>
    let l := s.snapList c.trig
    let parts := (l.length + 4) / 5
    let s1 := (List.range parts).foldl (fun s1 i =>
      s1.handOver ⟨2, s1.snapFrame 0x31 c.trig
        (leBytes 4 0 ++ leBytes 1 (i + 1) ++ leBytes 3 0 ++ ((l.drop (5 * i)).take 5).flatMap s.snapPair), none⟩) s
    let s1 := s1.handOver ⟨2, s1.snapFrame 0x30 c.trig
      (leBytes 8 c.lane ++ leBytes 8 c.consist ++ leBytes 8 first ++ leBytes 4 span ++ leBytes 1 l.length ++ leBytes 1 c.kind
        ++ leBytes 2 0 ++ leBytes 4 c.source), none⟩
    let s1 := { s1 with recd := { s1.recd with running := none } }
    .next (((s1.putFlag REC_STAT.CAPTURE false).inc REC_SNAP_CNT).startCapture)

/-! ### Reading (R465) -/

/-- One slot copied into the read buffer (R465): zeros for PART 5 to 7 and beyond CAP. -/
def State.readSlot (s : State) (part i : Nat) : State :=
  let b := if i < partCap part then s.slot part i else List.replicate 64 0
  ((List.range 16).foldl (fun s j => s.putIf (REC_RD_BUF.DATA j) (sn b (4 * j) 4)) s).inc REC_RD_CNT

/-- SLOT_READ (R465): REC_RD_CMD. -/
def execSlotRead (t : Nat) (who : Initiator) (part : BitVec 3) (slot : BitVec 21) (s : State) : Result :=
  match (s.at_ t).gate who REC_RD_CMD.PART.addr false true with
  | (s, false) => .next s
  | (s, true) => .next (s.readSlot part.toNat slot.toNat)

/-! ### Clearing (R467, R468) -/

/-- Whether a clear of partition `part` is refused (R467); a CLEAR record that waits in the queue has its slot. -/
def State.clearRefused (s : State) (part : Nat) : Bool :=
  let waiting := (s.recd.queue.filter (fun (r : QRec) => r.part == 3)).length
  3 ≤ part || s.recd.clear.isSome || partCap 3 < s.get (REC_PART.COUNT 3) + waiting + 2

/-- A clear is accepted: its CODE 1 record is handed over; a record that finds the queue full is dropped, and the clear with it. -/
def State.clearStart (s : State) (part : Nat) : State :=
  if 128 ≤ s.recd.queue.length then s.inc REC_DROP_CNT
  else
    let s := { s with recd := { s.recd with clear := some ⟨part, s.get REC_CLEAR_TOK.TOKEN_ID, none⟩ } }
    ((s.record 0x70 1 []).putFlag REC_STAT.CLEARING true).put REC_STAT.CPART part

/-- CLEAR (R467): REC_CLEAR by the boot supervisor, guarded. -/
def execClear (t : Nat) (who : Initiator) (part : BitVec 2) (s : State) : Result :=
  match (s.at_ t).gate who REC_CLEAR.PART.addr true (who == .boot) with
  | (s, false) => .next s
  | (s, true) => if s.clearRefused part.toNat then .next (s.inc REC_REJ_CNT) else .next (s.clearStart part.toNat)

/-- Numbers of a rising list, each once. -/
def dedup : List Nat → List Nat
  | a :: b :: t => if a = b then dedup (b :: t) else a :: dedup (b :: t)
  | l => l

/-- The slots of partition `p` that hold a byte other than zero. -/
def State.usedSlots (s : State) (p : Nat) : List Nat :=
  dedup ((s.mem.filter (fun (c : Host.Cell) => slotAddr p 0 ≤ c.1 && c.1 < slotAddr p (partCap p))).map (fun (c : Host.Cell) => (c.1 - slotAddr p 0) / 64))

/-- A slot all of whose bytes become zero. -/
def State.zeroSlot (s : State) (p i : Nat) : State := s.zero (slotAddr p i) 64

/-- CLEAR_DONE (R467): every slot of the partition but those written since the clear took place is zero; the CODE 2 record follows. -/
def execClearDone (t : Nat) (s : State) : Result :=
  let s := s.at_ t
  match s.recd.clear with
  | some ⟨p, _, some data⟩ =>
    let first := s.get (REC_PART.OLDEST p)
    let n := s.get (REC_PART.COUNT p)
    let old := (s.usedSlots p).filter (fun i => n ≤ (i + partCap p - first) % partCap p)
    let s := old.foldl (fun s i => s.zeroSlot p i) s
    let s := { s with recd := { s.recd with clear := none } }
    .next (((s.record 0x70 2 data).inc REC_CLEAR_CNT).putFlag REC_STAT.CLEARING false)
  | _ => .next s

/-! ### The start-up scan (R463, R464) -/

/-- Whether SEQ `a` precedes `b` (R452). -/
def seqBefore (a b : Nat) : Bool := serialDiff 32 a b < 0

/-- The newest SEQ of a list. -/
def newestSeq : List Nat → Option Nat
  | [] => none
  | a :: t => match newestSeq t with
    | some b => some (if seqBefore a b then b else a)
    | none => some a

/-- The slots of partition `p` with their contents. -/
def State.ringSlots (s : State) (p : Nat) : List (Nat × List Byte) := (s.usedSlots p).map (fun i => (i, s.slot p i))

/-- Ring pass of R464: slots neither empty nor valid in their partition are zeroed and counted. -/
def State.scanRing (s : State) (p : Nat) : State :=
  (s.ringSlots p).foldl (fun s (x : Nat × List Byte) =>
    if slotValid x.2 && typePartition (sb x.2 4) == p then s else (s.zeroSlot p x.1).inc REC_DISC_CNT) s

/-- The clears of the CLEAR LOG that are begun and not done: their DATA. -/
def State.openClears (s : State) : List (List Byte) :=
  let log := (s.ringSlots 3).map (fun (x : Nat × List Byte) => x.2)
  let done := (log.filter (fun b => sb b 6 == 2)).map (fun b => sn b 0x1C 4)
  ((log.filter (fun b => sb b 6 == 1 && !done.contains (sn b 0x1C 4)))).map (fun b => (b.drop 0x18).take 32)

/-- The place of a record in the order of writing (R452, R461): its SEQ, for a snapshot's head record that of its last data record; twice, and
one more for the head record. -/
def writeOrder (b : List Byte) : Nat :=
  if sb b 4 == 0x30 then 2 * ((sn b 0 4 + (sb b 0x24 + 4) / 5) % 2 ^ 32) + 1 else 2 * sn b 0 4

/-- Whether record `a` was written before `b`. -/
def writtenBefore (a b : List Byte) : Bool :=
  seqBefore (writeOrder a / 2) (writeOrder b / 2) || (writeOrder a / 2 == writeOrder b / 2 && writeOrder a < writeOrder b)

/-- NEXT, OLDEST and COUNT of ring `p` from its valid records, and NEXT and OLDEST 0 where it holds none (R464). -/
def State.ringPlace (s : State) (p : Nat) : State :=
  let l := s.ringSlots p
  match l with
  | [] => ((s.putIf (REC_PART.NEXT p) 0).putIf (REC_PART.OLDEST p) 0).putIf (REC_PART.COUNT p) 0
  | h :: t =>
    let newest := t.foldl (fun (a x : Nat × List Byte) => if writtenBefore a.2 x.2 then x else a) h
    let oldest := t.foldl (fun (a x : Nat × List Byte) => if writtenBefore x.2 a.2 then x else a) h
    ((s.putIf (REC_PART.NEXT p) (nextSlot p newest.1)).putIf (REC_PART.OLDEST p) oldest.1).putIf (REC_PART.COUNT p) l.length

/-- An open clear is completed by the scan (R464): earlier records of its partition go, and CODE 2 is written. -/
def State.scanClear (s : State) (data : List Byte) : State :=
  let p := sb data 0
  let s := (s.ringSlots p).foldl (fun s (x : Nat × List Byte) => if seqBefore (sn x.2 0 4) (sn data 4 4) then s.zeroSlot p x.1 else s) s
  let q : QRec := ⟨3, s.recFrame 0x70 2 data, none⟩
  s.writeRecord q none

/-- Orphaned snapshot data records are discarded (R461, R464). -/
def State.scanSnapshots (s : State) : State :=
  let l := s.ringSlots 2
  let heads := (l.filter (fun (x : Nat × List Byte) => sb x.2 4 == 0x30)).map (fun (x : Nat × List Byte) => sn x.2 0 4)
  l.foldl (fun s (x : Nat × List Byte) =>
    if sb x.2 4 == 0x31 && !heads.contains (sn x.2 8 4) then (s.zeroSlot 2 x.1).inc REC_DISC_CNT else s) s

/-- Whether a lifetime copy is valid (R463): `door` are the SEQs of the valid DOOR records, `clears` the CLEAR_SEQs of the open DOOR
CYCLE clears. -/
def lifeValid (door clears : List Nat) (b : List Byte) : Bool :=
  let q := sn b 4 4
  markOk b && (door.contains q || (!door.isEmpty && door.all (fun d => seqBefore q d)) || clears.any (fun c => seqBefore q c))

/-- The lifetime counters of axis `a` at the scan (R463). -/
def State.scanLife (s : State) (door clears : List Nat) (a : Nat) : State :=
  let s := [0, 1].foldl (fun s k =>
    let b := s.lifeCopy a k
    if lifeValid door clears b || sn b 0x3C 4 == 0 then s else s.store (slotAddr 4 (lifeSlot a k) + 0x3C) 4 0) s
  let b0 := s.lifeCopy a 0
  let b1 := s.lifeCopy a 1
  let s := if markOk b0 || markOk b1 then s else s.inc REC_LIFE_ERR_CNT
  let b := if copyGen b0 < copyGen b1 then b1 else b0
  let ok := markOk b
  ((lifeFlds a).zip (List.range 8)).foldl (fun s (x : Fld × Nat) => s.putIf x.1 (if ok then sn b (8 + 4 * x.2) 4 else 0)) s

/-- The scan of R464, in the order of its code. -/
def State.startScan (s : State) : State :=
  let s := [0, 1, 2, 3].foldl State.scanRing s
  let s := s.ringPlace 3
  let logSeqs := (s.ringSlots 3).map (fun (x : Nat × List Byte) => sn x.2 0 4)
  let s := { s with recd := { s.recd with clearSeq := match newestSeq logSeqs with | some q => (q + 1) % 2 ^ 32 | none => 1 } }
  let opens := s.openClears
  let s := (opens.foldl State.scanClear s).scanSnapshots
  let seqs := [0, 1, 2].flatMap (fun p => (s.ringSlots p).map (fun (x : Nat × List Byte) => sn x.2 0 4))
  let s := s.put REC_NEXT_SEQ.SEQ (match newestSeq seqs with | some q => q + 1 | none => 1)
  let door := (s.ringSlots 1).map (fun (x : Nat × List Byte) => sn x.2 0 4)
  let clears := (opens.filter (fun d => sb d 0 == 1)).map (fun d => sn d 4 4)
  let s := (List.range 96).foldl (fun s a => s.scanLife door clears a) s
  ([0, 1, 2].foldl State.ringPlace s).putFlag REC_STAT.READY true

/-- START_SCAN_DONE (R464): the scan ends; a reset that waited for it goes on waiting for its records (R449). -/
def execStartScanDone (t : Nat) (s : State) : Result :=
  let s := s.at_ t
  if s.flag REC_STAT.READY || s.pwr.inReset || s.pwr.dormant then .next s else .next s.startScan.waitingReset

end Sys2Proof.Machine
end

