-- ==== Sys2Proof/Machine/Safe.lean ====
section
/-! DEFINITION. Machine/Safe.lean: safe telegrams: building, receiving, loss, opening and closing (R221 to R237). -/
namespace Sys2Proof.Machine
open Reg

/-- The identity of session `n` (R223): source, destination, session number. -/
def State.safeIdentity (s : State) (n : Nat) : List Byte :=
  let own := beBytes 3 (s.ownUid n)
  let peer := beBytes 3 (s.get (SAFE_S.PEER_UID n))
  (if s.isTx n then own ++ peer else peer ++ own) ++ beBytes 2 (s.get (SAFE_S.SESSION n))

/-- The safety check value of a telegram's bytes before CV under an identity (R224). -/
def safeCv (identity body : List Byte) : List Byte := beBytes 4 (crc32s (identity ++ body))

/-- Header, payload and trailer bytes 0 to 11 of a telegram (R221). -/
def safeBody (payload : List Byte) (seq stamp session flags : Nat) : List Byte :=
  beBytes 1 1 ++ beBytes 1 0 ++ beBytes 2 payload.length ++ payload
    ++ beBytes 4 seq ++ beBytes 4 stamp ++ beBytes 2 session ++ beBytes 2 flags

/-- A session's time base in whole µs, low 32 bits (R221). -/
def State.safeNow (s : State) (n : Nat) : Nat :=
  (if s.flag (SAFE_S.TBASE n) then s.consNow else s.laneNow) / 1000 % 2 ^ 32

/-- Whether a session's time base is synchronised; FREEWHEEL counts (R232). -/
def State.safeSynced (s : State) (n : Nat) : Bool :=
  if s.flag (SAFE_S.TBASE n) then s.flag TIME_STAT.CONS_SYNC else s.flag TIME_STAT.LANE_SYNC

/-- Whether sessions run: SERVICE, STANDBY and ACTIVE (R235). -/
def State.safeRuns (s : State) : Bool := s.get SYS_STAT.MODE != 0 && s.get SYS_STAT.MODE != 4

/-- A disagreement of the two CV units (R237): the second within 16 ticks is the unit fault. -/
def State.safeUnit (s : State) : State :=
  let again := match s.safe.unitTicks with
    | some k => decide (k ≤ 16)
    | none => false
  let s := ({ s with safe := { s.safe with unitTicks := some 0 } }).inc SAFE_UNIT_CNT
  if again then (s.put SAFE_STAT.UNIT 1).enterLockout 6 0 else s

/-- The telegram TX session `n` builds now: its flags and bytes (R221, R224, R228). -/
def State.safeTelegram (s : State) (n : Nat) : Nat × List Byte :=
  let flags := (s.flag CYC_STAT.FORCED).toNat + 2 * (s.get SYS_STAT.MODE == 1).toNat + 4 * (s.sess n).first.toNat
  let payload := s.bytes (pubBuf s.cyc.active + s.get (SAFE_S.IMG_OFF n)) (s.get (SAFE_S.LEN n))
  let body := safeBody payload ((s.get (SAFE_T.SEQ n) + 1) % 2 ^ 32) (s.safeNow n) (s.get (SAFE_S.SESSION n)) flags
  (flags, body ++ safeCv (s.safeIdentity n) body)

/-- SAFE_TX_BUILD (R228, R229, R235, R237): session `n` builds for the coming send instant of its transport; `unit` says that
the two CV units disagree. -/
def execSafeTxBuild (t n : Nat) (unit : Bool) (s : State) : Result :=
  let s := s.at_ t
  if !(decide (n < 128) && s.safeRuns && s.isTx n && s.get (SAFE_T.STATE n) == 2) then .next s
  else if s.safeSilent n then
    let s := (s.setSess n { s.sess n with tele := none }).inc SAFE_SKIP_CNT
    .next (if s.get (SAFE_S.TRANS n) == 1 then s.inc ECN_PD_SKIP_CNT else s)
  else if unit then .next (s.setSess n { s.sess n with tele := none }).safeUnit
  else
    let tg := s.safeTelegram n
    let s := s.setSess n { s.sess n with tele := some tg.2, first := false }
    .next (((s.add (SAFE_T.SEQ n) 1).put (SAFE_T.FLAGS n) tg.1).inc SAFE_TX_CNT)

/-- An accepted telegram (R231, R232, R234). -/
def State.safeAccept (s : State) (n seq flags : Nat) (age : Int) (payload : List Byte) : State :=
  let st := s.get (SAFE_T.STATE n)
  let s := if st == 3 then s.inc SAFE_RESYNC_CNT else s
  let s := (s.put (SAFE_T.SEQ n) seq).put (SAFE_T.FLAGS n) flags
  let s := (s.putS (SAFE_T.LASTAGE n) age).put (SAFE_T.MAXAGE n) (max (s.get (SAFE_T.MAXAGE n) : Int) age).toNat
  let s := s.setSess n { s.sess n with ticks := 0, count := 0, payload := payload }
  (((s.put (SAFE_T.STATE n) 2).safeDeliver n).safeCount).inc SAFE_RX_CNT

/-- R232, once size, format and CV have been found good. -/
def State.safeJudge (s : State) (n seq stamp flags : Nat) (payload : List Byte) : State :=
  if bitOf flags 1 && !s.flag (SAFE_S.ACCEPT_TEST n) then s.inc SAFE_TEST_CNT
  else if !s.safeSynced n then s.inc SAFE_AGE_CNT
  else
    let age := toSigned 32 ((s.safeNow n + 2 ^ 32 - stamp) % 2 ^ 32)
    if age < -(s.get (SAFE_S.FUT n) : Int) || (s.get (SAFE_S.AGE_MAX n) : Int) < age then s.inc SAFE_AGE_CNT
    else
      let d := (seq + 2 ^ 32 - s.get (SAFE_T.SEQ n)) % 2 ^ 32
      if s.get (SAFE_T.STATE n) == 2 then
        if d == 0 then s.inc SAFE_DUP_CNT
        else if bitOf flags 2 then (s.inc SAFE_RESYNC_CNT).safeAccept n seq flags age payload
        else if 17 < d then s.inc SAFE_SEQ_CNT
        else (s.add SAFE_GAP_CNT (d - 1)).safeAccept n seq flags age payload
      else s.safeAccept n seq flags age payload

/-- Decision on a received telegram (R232, R237): `unit` says that the two CV units disagree. -/
def State.onTelegram (s : State) (n : Nat) (b : List Byte) (unit : Bool) : State :=
  let len := s.get (SAFE_S.LEN n)
  let f := fun i k => beNat ((b.drop i).take k)
  let flags := f (4 + len + 10) 2
  if b.length != 20 + len || f 0 1 != 1 || f 1 1 != 0 || f 2 2 != len || f (4 + len + 8) 2 != s.get (SAFE_S.SESSION n)
      || 8 ≤ flags then s.inc SAFE_FMT_CNT
  else if unit then s.safeUnit
  else if b.drop (16 + len) != safeCv (s.safeIdentity n) (b.take (16 + len)) then s.inc SAFE_CHK_CNT
  else s.safeJudge n (f (4 + len) 4) (f (8 + len) 4) flags ((b.drop 4).take len)

/-- Whether session `n` is an open RX session that runs. -/
def State.safeRxOpen (s : State) (n : Nat) : Bool := decide (n < 128) && s.safeRuns && !s.isTx n && s.get (SAFE_T.STATE n) != 0

/-- SAFE_TELEGRAM_RX (R232): a telegram arrives over the transport of RX session `n`. -/
def execSafeTelegramRx (t n : Nat) (telegram : List Byte) (unit : Bool) (s : State) : Result :=
  let s := s.at_ t
  .next (if s.safeRxOpen n then s.onTelegram n telegram unit else s)

/-- SAFE_RX_TIMEOUT (R231): RX session `n` in RUN has counted TMO local tick edges. -/
def execSafeRxTimeout (t n : Nat) (s : State) : Result :=
  let s := s.at_ t
  if s.safeRxOpen n && s.get (SAFE_T.STATE n) == 2 && atLeast1 (s.get (SAFE_S.TMO n)) ≤ (s.sess n).count then
    let s := (s.put (SAFE_T.STATE n) 3).setSess n { s.sess n with payload := [] }
    .next (((s.safeDeliver n).safeCount).inc SAFE_LOSS_CNT)
  else .next s

/-! ### SAFE_OPEN (R227) -/

/-- The sessions of SAFE_OPENm opened and closed as `v` asks. -/
def State.applyOpen (s : State) (m v : Nat) : State :=
  ((List.range 32).foldl (fun (s : State) k =>
    if bitOf v k then s.openSess (32 * m + k) else s.closeSess (32 * m + k)) s).safeCount

/-- A write of `v` to SAFE_OPENm (R35, R227): the Tricycle or the boot supervisor. -/
def State.writeOpen (s : State) (who : Initiator) (m v : Nat) : State :=
  match s.gate who (SAFE_OPEN.OPEN m).addr false true with
  | (s, false) => s
  | (s, true) => s.applyOpen m v

/-- SESSION_OPEN (R227): SAFE_OPENm written with the bit of session `n` set. -/
def execSessionOpen (t : Nat) (who : Initiator) (n : BitVec 7) (s : State) : Result :=
  let s := s.at_ t
  let m := n.toNat / 32
  .next (s.writeOpen who m (setBit (s.get (SAFE_OPEN.OPEN m)) (n.toNat % 32) true))

/-- SESSION_CLOSE (R227): SAFE_OPENm written with the bit of session `n` clear. -/
def execSessionClose (t : Nat) (who : Initiator) (n : BitVec 7) (s : State) : Result :=
  let s := s.at_ t
  let m := n.toNat / 32
  .next (s.writeOpen who m (setBit (s.get (SAFE_OPEN.OPEN m)) (n.toNat % 32) false))

/-! ### Local tick edge: headers and mailboxes (R231, R234, R236) -/

/-- The mailbox of session `n` (R236). -/
def State.mailbox (s : State) (n : Nat) : Nat := s.get SAFE_CFG.MBOX_BASE * 65536 + 512 * n

/-- One edge counted by RX session `n`, and its delivery header kept current (R231, R234). -/
def State.safeTick (s : State) (n : Nat) : State :=
  if s.flag (SAFE_S.EN n) && !s.isTx n && s.safeRuns then
    let x := s.sess n
    let s := s.setSess n { x with ticks := min 0xFFFF (x.ticks + 1), count := x.count + 1 }
    s.liveWrite (s.get (SAFE_S.IMG_OFF n)) (s.safeHeader n)
  else s

/-- The mailbox of session `n` at a local tick edge (R236): a new telegram of an RX session is decided, and the telegram of a
TX session is written. -/
def State.mailboxTick (unitBad : List Nat) (s : State) (n : Nat) : State :=
  if s.get (SAFE_T.STATE n) == 0 || s.get (SAFE_S.TRANS n) != 3 || !s.safeRuns then s
  else
    let a := s.mailbox n
    let count := s.load a 4
    if s.isTx n then
      match (s.sess n).tele with
      | some b =>
        let s := ((s.storeBytes (a + 8) b).store (a + 4) 4 b.length).store a 4 (count + 1)
        (s.setSess n { s.sess n with tele := none }).put (SAFE_T.SEQ2 n) (count + 1)
      | none => s
    else if count != s.get (SAFE_T.SEQ2 n) then
      (s.onTelegram n (s.bytes (a + 8) (min (s.load (a + 4) 4) 504)) (unitBad.contains n)).put (SAFE_T.SEQ2 n) count
    else s

/-- What the safe telegram engine counts at a local tick edge, ahead of the publication (R231, R234, R237). -/
def State.safeEdge (s : State) : State :=
  let s := { s with safe := { s.safe with unitTicks := s.safe.unitTicks.map (fun k => min 17 (k + 1)) } }
  (List.range 128).foldl State.safeTick s

/-- The mailboxes at a local tick edge, after the actions of R16 (R236). -/
def State.mailboxEdge (s : State) (unitBad : List Nat) : State := (List.range 128).foldl (State.mailboxTick unitBad) s

end Sys2Proof.Machine
end

