-- ==== Sys2Proof/Machine/Twin.lean ====
section
/-! DEFINITION. Machine/Twin.lean: commands of the twin pair (R336 to R360). -/
namespace Sys2Proof.Machine
open Reg

/-- TWIN_LINK_UP (R336, R337): HELLO is sent at every link-up. In BOOT, in DORMANT and without a crystal the module's end
sends no characters, so the link stays down (R336, R393). -/
def execTwinLinkUp (t : Nat) (s : State) : Result :=
  let s := s.at_ t
  if s.flag TWIN_STAT.LINK || s.get SYS_STAT.MODE == 0 || s.pwr.dormant || s.get CLK_STAT.REF == 2 || s.flag CLK_STAT.BYPASS then .next s
  else .next (s.putFlag TWIN_STAT.LINK true).helloSend

/-- TWIN_LINK_DOWN (R336). -/
def execTwinLinkDown (t : Nat) (s : State) : Result := .next (s.at_ t).twinDown

/-- HELLO_TX (R337): every 16,384 local ticks. -/
def execHelloTx (t : Nat) (s : State) : Result :=
  let s := s.at_ t
  if s.flag TWIN_STAT.LINK && 16384 ≤ s.twin.helloTicks then .next s.helloSend else .next s

/-- Payload of a received twin-link frame of type `typ`, where the link is up, its CRC matches and its length holds (R336). -/
def State.twinPayload (s : State) (typ : Nat) (frame : List Byte) (crc : Bool) : Option (List Byte) :=
  let len := fieldBE frame 2 2
  if s.flag TWIN_STAT.LINK && crc && fieldBE frame 0 1 == typ && 4 + len ≤ frame.length then some ((frame.drop 4).take len) else none

/-- The version used of two ranges (R4): the lower of the highest ones, 0 where the ranges do not meet. -/
def commonVersion (lo hi lo' hi' : Nat) : Nat := if lo' ≤ hi && lo ≤ hi' then min hi hi' else 0

/-- A received HELLO (R337): pairing is judged in the order PUID, SERIAL, VERSION. -/
def State.takeHello (s : State) (h : Hello) : State :=
  let lo := fun v => bitsOf v 0 4
  let hi := fun v => bitsOf v 4 4
  let nl := commonVersion (s.get TWIN_VER.LINK_MIN) (s.get TWIN_VER.LINK_MAX) (lo h.link) (hi h.link)
  let np := commonVersion (s.get TWIN_VER.PAN_MIN) (s.get TWIN_VER.PAN_MAX) (lo h.pan) (hi h.pan)
  let no := commonVersion (s.get UPD_VER.ORCH_MIN) (s.get UPD_VER.ORCH_MAX) (lo h.orch) (hi h.orch)
  let s := { s with twin := { s.twin with hello := some h } }
  let s := ((s.put TWIN_VER.LINK_NEG nl).put TWIN_VER.PAN_NEG np).put TWIN_VER.ORCH_NEG no
  let s := s.put TWIN_VER.ORCH_PEER (hi h.orch)
  let fault := if h.puid != s.get SAFE_PUID.UID then 2
    else if h.serial % 65536 == s.serialLow then 3
    else if nl == 0 || np == 0 || no == 0 then 1 else 0
  let s := (s.put TWIN_STAT.FAULT fault).putFlag TWIN_STAT.MISMATCH (fault == 1)
  let s := s.putFlag TWIN_STAT.PAIRED (fault == 0)
  (if fault == 0 then s.putIf TWIN_STAT.ALONE 0 else s).imageSend

/-- HELLO (R337). -/
def execHello (t : Nat) (frame : List Byte) (crc : Bool) (s : State) : Result :=
  let s := s.at_ t
  match s.twinPayload 1 frame crc with
  | some p =>
    if p.length = 16 then
      .next (s.takeHello ⟨fieldBE p 0 1, fieldBE p 1 1, fieldBE p 2 1, fieldBE p 4 8, fieldBE p 13 3⟩)
    else .next s
  | none => .next s

/-- HEARTBEAT (R340, R342, R345, R358, R440): the partner's claim, mode and flags. -/
def execHeartbeat (t : Nat) (frame : List Byte) (crc : Bool) (s : State) : Result :=
  let s := s.at_ t
  match s.twinPayload 2 frame crc with
  | some p =>
    if p.length ≠ 32 then .next s
    else
      let h : Hb := ⟨fieldBE p 0 4, fieldBE p 4 8, fieldBE p 12 1, fieldBE p 13 1, fieldBE p 14 2 % 4096, fieldBE p 16 1 % 16,
        fieldBE p 17 1, fieldBE p 20 4, fieldBE p 24 4, fieldBE p 28 4 % 2 ^ 24⟩
      let s := { s with twin := { s.twin with
        hb := some h, hbSince := true, hbMiss := 0, imgSent := s.twin.imgSent && h.mode == 2 } }
      let s := (s.put TWIN_STAT.PMODE h.mode).put TWIN_PCLAIM.CLAIM h.claim
      .next (((s.obey h.claim).1.seeClaim h.claim).imageSend)
  | none => .next s

/-- CLAIM_EXPIRY (R340): three boundaries without a frame from H's sender; a claiming module's own claim is then the highest seen
(R343). -/
def execClaimExpiry (t : Nat) (s : State) : Result :=
  let s := s.at_ t
  if 3 ≤ s.twin.quiet && s.get TWIN_HIGH.CLAIM != 0 then
    let s := { s with twin := { s.twin with quiet := 0 } }.put TWIN_HIGH.CLAIM 0
    .next (if s.claiming then s.ownSeen (s.get TWIN_CLAIM.CLAIM) else s)
  else .next s

/-- CLAIM_WINDOW_END (R344): start-up decisions begin. -/
def execClaimWindowEnd (t : Nat) (s : State) : Result :=
  let s := s.at_ t
  match s.twin.window with
  | some n =>
    if 64 ≤ n then .next ({ s with twin := { s.twin with window := none, deciding := true } }).startDecision else .next s
  | none => .next s

/-- TAKEOVER (R346, R347, R349), where its conditions held at the latest edge. -/
def execTakeover (t : Nat) (s : State) : Result :=
  let s := s.at_ t
  if !s.twin.takeDue || s.get SYS_STAT.MODE != 2 then .next s
  else
    let s := s.raiseClaim.enterMode 3
    let s := (List.range 128).foldl (fun s n => if s.pairTx n then s.setSess n { s.sess n with first := true } else s) s
    let s := { s with
      twin := { s.twin with takeDue := false, takeApply := true, taken := true }
      trip := { s.trip with waitEvt := true } }
    .next ((s.inc TWIN_TAKE_CNT).recordTwin 1)

/-- YIELD (R350), where its conditions held at the latest edge. -/
def execYield (t : Nat) (s : State) : Result :=
  let s := s.at_ t
  if s.twin.yieldDue && s.claiming then
    .next ((({ s with twin := { s.twin with yieldDue := false } }).putFlag TWIN_STAT.YIELD true).recordTwin 3)
  else .next s

/-- One fragment joins the assembly `x` (R336, R354): the assembly, and whether something is discarded with it: an unfinished one, or
one of which a fragment before this one is missing. What is `lost` has been discarded: its later fragments discard nothing more. -/
def joinFrag (x : Option FragRx) (seq off total : Nat) (data : List Byte) : FragRx × Bool :=
  let fresh : FragRx := ⟨seq, total, data.length, data, false⟩
  let gap : FragRx := ⟨seq, total, 0, [], true⟩
  match x with
  | some y =>
    if y.seq == seq && y.lost && off != 0 then (y, false)
    else if y.seq == seq && y.total == total && y.next == off && !y.lost then
      ({ y with next := off + data.length, got := y.got ++ data }, false)
    else if off == 0 then (fresh, !y.lost)
    else (gap, true)
  | none => if off == 0 then (fresh, false) else (gap, true)

/-- A Pannier whose last fragment is in: taken where its length, its CRC-64 and its claim are good, and discarded and
counted otherwise. (R354) -/
def State.panComplete (s : State) (x : FragRx) (base : Nat) : State :=
  let s := { s with twin := { s.twin with pan := none } }
  let claim := match s.twin.hb with
    | some h => h.claim
    | none => 0
  let body := x.total - 8
  if 0x1008 ≤ x.total && x.next == x.total && s.load (base + body) 8 == crc64 (s.bytes base body)
      && s.load (base + 0x20) 4 == claim then
    let s := ((s.put TWIN_PANP.RX_BUF (1 - s.get TWIN_PANP.RX_BUF)).put TWIN_PANP.RX_SEQ x.seq).put TWIN_PANP.RX_LEN x.total
    { s with twin := { s.twin with panNew := true } }.inc TWIN_PAN_RX_CNT
  else s.inc TWIN_PAN_ERR_CNT

/-- PANNIER (R354): a fragment; a Pannier whose every fragment arrived, whose CRC-64 matches and whose CLAIM is the partner's
becomes the latest accepted one. -/
def execPannier (t : Nat) (frame : List Byte) (crc : Bool) (s : State) : Result :=
  let s := s.at_ t
  match s.twinPayload 3 frame crc with
  | some p =>
    if p.length < 12 || !s.flag TWIN_STAT.PAIRED then .next s
    else
      let off := fieldBE p 4 4
      let data := p.drop 12
      let base := panRxBase (1 - s.get TWIN_PANP.RX_BUF)
      let r := joinFrag (s.twin.pan.map (fun x => { x with got := [] })) (fieldBE p 0 4) off (fieldBE p 8 4) data
      let s := if r.2 then s.inc TWIN_PAN_ERR_CNT else s
      let x := { r.1 with got := [] }
      let s := { s with twin := { s.twin with pan := some x } }
      if x.lost then .next s
      else if 0x10000 < off + data.length then
        .next ({ s with twin := { s.twin with pan := some { x with lost := true } } }.inc TWIN_PAN_ERR_CNT)
      else
        let s := s.storeBytes (base + off) data
        .next (if x.next < x.total then s else s.panComplete x base)
  | none => .next s

/-- IMAGE (R358): a fragment of the state image; a complete one waits for the standby's next evaluation pass. -/
def execImage (t : Nat) (frame : List Byte) (crc : Bool) (s : State) : Result :=
  let s := s.at_ t
  match s.twinPayload 4 frame crc with
  | some p =>
    if p.length < 12 || !s.flag TWIN_STAT.PAIRED || s.get SYS_STAT.MODE != 2 then .next s
    else
      let x := (joinFrag s.twin.img (fieldBE p 0 4) (fieldBE p 4 4) (fieldBE p 8 4) (p.drop 12)).1
      if x.lost || x.next < x.total then .next { s with twin := { s.twin with img := some x } }
      else
        let words := (List.range 96).map (fun n => leNat ((x.got.drop (4 * n)).take 4)) ++
          (List.range 32).map (fun n => (x.got.getD (384 + n) 0).toNat)
        .next { s with
          twin := { s.twin with img := none }
          door := { s.door with image := some words } }
  | none => .next s

/-- SWAP (R360): TWIN_CMD is the boot supervisor's alone. -/
def execSwap (t : Nat) (who : Initiator) (s : State) : Result :=
  match (s.at_ t).gate who 0x2012000C true (who == .boot) with
  | (s, false) => .next s
  | (s, true) => .next (s.swapTry false)

/-- SWAP_UNREADY (R360). -/
def execSwapUnready (t : Nat) (who : Initiator) (s : State) : Result :=
  match (s.at_ t).gate who 0x2012000C true (who == .boot) with
  | (s, false) => .next s
  | (s, true) => .next (s.swapTry true)

/-- SWAP_TIMEOUT (R360, R440): 16 local ticks without a claim of the partner. -/
def execSwapTimeout (t : Nat) (s : State) : Result :=
  let s := s.at_ t
  match s.twin.swap with
  | some n =>
    if 16 ≤ n && s.get TWIN_PCLAIM.CLAIM == 0 then
      let s := ({ s with twin := { s.twin with swap := none } }.putFlag TWIN_STAT.YIELD false).inc TWIN_CMD_REJ_CNT
      .next (if s.boot.deferSwap then s.cancelActivation else s)
    else .next s
  | none => .next s

/-- PANNIER_SENT (R353): the last fragment has gone; a waiting Pannier starts. -/
def execPannierSent (t : Nat) (s : State) : Result :=
  let s := s.at_ t
  match s.twin.sending with
  | some q =>
    let s := (s.inc TWIN_PAN_TX_CNT).put TWIN_PANP.TX_SEQ q
    match s.twin.waiting with
    | some w => .next ({ s with twin := { s.twin with waiting := none } }.panStart w)
    | none => .next { s with twin := { s.twin with sending := none } }
  | none => .next s

end Sys2Proof.Machine
end

