-- ==== Sys2Proof/Machine/Update.lean ====
section
/-! DEFINITION. Machine/Update.lean: release from LOCKOUT, envelope saves, activation, deferral, trial and confirmation (R423, R430,
R437 to R443). -/
namespace Sys2Proof.Machine
open Reg

/-- LOCKOUT_EDGE_RELEASE (R423, R449): the falling edge that the latest local tick edge sampled on the release input. -/
def execLockoutEdgeRelease (t : Nat) (s : State) : Result :=
  let s := s.at_ t
  match s.boot.release.release with
  | none => .next s
  | some high =>
    if s.get SYS_STAT.MODE != 4 || !s.flag UPD_LOCKRST.CH_EN then .next s
    else
      let s := { s with boot := { s.boot with release := { s.boot.release with release := none } } }
      let r := s.get SYS_STAT.LREASON
      if 800 ≤ high && high ≤ 80000 && 2 ≤ r && r ≤ 6 && bitOf (s.get UPD_LOCKRST.EDGE) r then
        .next ((s.record 0x12 0 (leBytes 1 r ++ leBytes 1 (s.get UPD_LOCKRST.CH))).ownReset 1)
      else .next (s.inc UPD_CMD_REJ_CNT)

/-- The release input at a local tick edge (R423): measured whatever the mode, its falling edges kept in LOCKOUT alone. -/
def State.releaseTick (s : State) : State :=
  let r := s.boot.release.sample (s.bit DIO.STATE (s.get UPD_LOCKRST.CH))
  let r := if s.get SYS_STAT.MODE == 4 && s.flag UPD_LOCKRST.CH_EN then r else { r with release := none }
  { s with boot := { s.boot with release := r } }

/-- ENVELOPE_SAVE_DUE (R430): every ENV_SAVE × 10 minutes, if learning has advanced. -/
def execEnvelopeSaveDue (t : Nat) (s : State) : Result :=
  let s := s.at_ t
  let n := min 144 (s.get UPD_CFG2.ENV_SAVE)
  if n = 0 || s.get SYS_STAT.MODE == 0 || s.localNow < s.boot.saveAt + n * 600000000000 then .next s
  else
    let s := { s with boot := { s.boot with saveAt := s.localNow } }
    .next (if s.get DOOR_LEARN_CNT == s.boot.savedLearn then s else s.saveEnvelopes)

/-! ### Activation (R437, R440) -/

/-- CONSIST_ACTIVATION (R437): CONSIST reaches UPD_ACT_AT. -/
def execConsistActivation (t : Nat) (s : State) : Result :=
  let s := s.at_ t
  if s.get UPD_STAT.ACT != 2 || s.flag UPD_STAT.DEFER || s.boot.resetWait.isSome then .next s
  else if s.consNow < s.get UPD_ACT_AT.AT then .next s
  else if !s.flag TIME_STAT.CONS_SYNC then .next s.cancelActivation
  else .next (s.activateAt s.claiming)

/-- DEFER_TIMEOUT (R440): DEFER_S × 100 s without a swap. -/
def execDeferTimeout (t : Nat) (s : State) : Result :=
  let s := s.at_ t
  if s.flag UPD_STAT.DEFER && !s.boot.deferSwap && s.boot.deferAt + atLeast1 (s.get UPD_CFG2.DEFER_S) * 100000000000 ≤ s.localNow then
    .next s.cancelActivation
  else .next s

/-! ### Confirmation (R434, R442, R443) -/

/-- The confirmation is complete (R434, R442). -/
def State.confirm (s : State) : State :=
  let n := s.runSlot
  let r := s.table.slot n
  let s := if s.get UPD_OTP.SVN < s.raiseOf n then s.put UPD_OTP.SVN (s.raiseOf n) else s
  let s := s.writeTable { s.table.setSlot n { r with state := 3 } with preferred := n }
  let s := (((s.putFlag UPD_STAT.TRIAL false).put UPD_CONF_LEFT.LEFT 0)).inc UPD_CONFIRM_CNT
  s.recordImage 3 n 0 r.orchId

/-- The bits UPD_CFG.REQ asks for; 0 acts as VITAL alone. -/
def State.confReq (s : State) : Nat := atLeast1 (s.get UPD_CFG.REQ)

/-- UPD_CONFIRM written (R442): `v` bit 0 VITAL, bit 1 SERVICE. The boot supervisor's store traps. -/
def State.confirmWrite (s : State) (who : Initiator) (v : Nat) : State :=
  match s.gate who UPD_CONFIRM.VITAL.addr true (who != .boot) with
  | (s, false) => s
  | (s, true) =>
    let foreign := if who.isService then bitOf v 0 else bitOf v 1
    let early := bitOf v 0 && s.get UPD_CLEAN.CLEAN < atLeast1 (s.get UPD_CFG2.CLEAN_CYC)
    if foreign || !s.flag UPD_STAT.TRIAL || early || s.boot.resetWait.isSome then s.inc UPD_CONF_REJ_CNT
    else
      let s := s.put UPD_STAT.CONF (s.get UPD_STAT.CONF ||| v)
      if s.get UPD_STAT.CONF &&& s.confReq == s.confReq then s.confirm else s

/-- VITAL (R442): UPD_CONFIRM written with bit 0. -/
def execVital (t : Nat) (who : Initiator) (s : State) : Result := .next ((s.at_ t).confirmWrite who 1)

/-- SERVICE (R442): UPD_CONFIRM written with bit 1. -/
def execService (t : Nat) (who : Initiator) (s : State) : Result := .next ((s.at_ t).confirmWrite who 2)

/-- CONFIRM_WINDOW_END (R443): the window ends unconfirmed. -/
def execConfirmWindowEnd (t : Nat) (s : State) : Result :=
  let s := s.at_ t
  if s.flag UPD_STAT.TRIAL && s.get SYS_STAT.MODE != 0 && s.boot.exitAt + s.confWin * 1000000000 ≤ s.localNow then .next s.revertTrial
  else .next s

end Sys2Proof.Machine
end

