-- ==== Sys2Proof/Machine/Service.lean ====
section
/-! DEFINITION. Machine/Service.lean: the service protocol, sessions, and the operations of the boot supervisor (R430 to R437,
R444 to R449, R466, R467). -/
namespace Sys2Proof.Machine
open Reg

/-- Seconds of SYS_RTC (R417). -/
def State.rtcSec (s : State) : Nat := s.get SYS_RTC.RTC / 32768

/-- A request that needs a session restarts its 600 s. -/
def State.touch (s : State) : State :=
  { s with boot := { s.boot with session := s.boot.session.map (fun (x : Session) => { x with last := s.localNow }) } }

/-! ### Requests without a session (R444, R445, R446, R466) -/

/-- INFO (R444): serial, mode, UPD_RUN_ID, versions, slot states. -/
def execInfo (t : Nat) (s : State) : Result :=
  let s := s.at_ t
  if !s.serviceUp then .next s
  else .next (s.svcReply 12480 [s.get TWIN_SERIAL.SERIAL, s.get SYS_STAT.MODE, s.get UPD_RUN_ID.ID, (s.word UPD_VER.ORCH_MIN.addr).toNat,
    (s.table.slot 0).state, (s.table.slot 1).state])

/-- CHALLENGE (R444): a fresh nonce, which replaces the one before. -/
def execChallenge (t : Nat) (s : State) : Result :=
  let s := s.at_ t
  if !s.serviceUp then .next s
  else
    let n := Config.nonce s.freeN
    .next (({ s with freeN := s.freeN + 1, boot := { s.boot with nonce := some (n, s.localNow) } }).svcReply 12481 [n.toNat])

/-- The first 72 bytes of a token as R445 lays them out: a number of `k` bytes at `o`. -/
def tokenField (tok : List Byte) (o k : Nat) : Nat := leNat ((tok.drop o).take k)

/-- Whether a LOGIN is accepted (R445, R446). -/
def State.loginOk (s : State) (tok : List Byte) (len rsaBy slhBy : Nat) : Bool :=
  let f := tokenField tok
  let scope := (f 0x08 8 != 0 && f 0x08 8 == s.get TWIN_SERIAL.SERIAL) || (f 0x08 8 == 0 && f 0x10 4 % 2 ^ 24 == s.get SAFE_PUID.UID)
  let time := f 0x18 8 ≤ s.rtcSec && s.rtcSec ≤ f 0x20 8 && f 0x20 8 ≤ f 0x18 8 + 86400
  let fresh := match s.boot.nonce with
    | some (n, at_) => f 0x28 16 == n.toNat && s.localNow ≤ at_ + 60000000000
    | none => false
  let signed := s.boot.authorities[f 0x40 1]? == some (rsaBy, slhBy)
  len == 16680 && signed && f 0 4 == 0xEA483070 && f 4 2 == 1 && f 0x14 4 == 0 && f 0x40 1 < 4 && f 0x41 7 == 0 && scope && time && fresh && s.boot.session.isNone

/-- LOGIN (R445, R446, R449): `tok` holds the first 72 bytes of a token of `len` bytes, `rsaBy` and `slhBy` are the public keys under which its
signatures over them verify; from an IPv4 address and a UDP port. -/
def execLogin (t : Nat) (tok : List Byte) (len rsaBy slhBy : Nat) (addr : BitVec 32) (port : BitVec 16) (s : State) : Result :=
  let s := s.at_ t
  if !s.serviceUp then .next s
  else
    let f := tokenField tok
    let ok := s.loginOk tok len rsaBy slhBy
    let roles := f 6 2
    let s := s.record 0x10 (!ok).toNat
      (leBytes 8 (f 0x38 8) ++ leBytes 2 roles ++ leBytes 2 0 ++ leBytes 4 addr.toNat ++ leBytes 2 port.toNat)
    if ok then
      let x : Session := ⟨roles % 32, f 0x20 8, f 0x38 8, addr.toNat, port.toNat, s.localNow⟩
      let s := { s with boot := { s.boot with session := some x, nonce := none } }
      .next ((((s.put UPD_STAT.SESSION 1).put UPD_STAT.ROLES roles).inc UPD_TOKEN_CNT).svcReply 12482 [0])
    else .next ((s.inc UPD_TOKEN_REJ_CNT).svcReply 12482 [1])

/-- The slots of partition `p` from `i` on, in ring order, at most `n`, up to NEXT (R466). -/
def ringFrom (p next : Nat) : Nat → Nat → List Nat
  | 0, _ => []
  | n + 1, i => i :: (if nextSlot p i = next then [] else ringFrom p next n (nextSlot p i))

/-- READ (R465, R466): result, OLDEST, NEXT, COUNT, the number returned, and the slots' bytes. -/
def execRead (t : Nat) (part : BitVec 8) (first : BitVec 32) (count : BitVec 8) (s : State) : Result :=
  let s := s.at_ t
  if !s.serviceUp then .next s
  else
    let p := part.toNat
    let n := count.toNat
    if 4 ≤ p || n = 0 || 16 < n || (first.toNat != 0xFFFFFFFF && partCap p ≤ first.toNat) then .next (s.svcReply 12485 [1, 0, 0, 0, 0])
    else
      let oldest := s.get (REC_PART.OLDEST p)
      let next := s.get (REC_PART.NEXT p)
      let held := s.get (REC_PART.COUNT p)
      let i := if first.toNat = 0xFFFFFFFF then oldest else first.toNat
      let l := if held = 0 || (i = next && held < partCap p) then [] else ringFrom p next n i
      let data := l.flatMap (fun i => (s.slot p i).map (fun (b : Byte) => b.toNat))
      .next ((l.foldl (fun (s : State) i => s.readSlot p i) s).svcReply 12485 ([0, oldest, next, held, l.length] ++ data))

/-! ### Requests of the session (R444, R446) -/

/-- Whether a request comes from the address and port that opened the session. -/
def State.fromSession (s : State) (addr port : Nat) : Bool :=
  match s.boot.session with
  | some x => x.addr == addr && x.port == port
  | none => false

/-- Whether the session holds role `k`. -/
def State.hasRole (s : State) (k : Nat) : Bool :=
  match s.boot.session with
  | some x => bitOf x.roles k
  | none => false

/-- DOWNLOAD (R444): at most 60 KiB into the staging area; role UPDATE. -/
def execDownload (t : Nat) (addr : BitVec 32) (port : BitVec 16) (offset : BitVec 32) (data : List Byte) (s : State) : Result :=
  let s := s.at_ t
  if !s.serviceUp then .next s
  else if !(s.fromSession addr.toNat port.toNat && s.hasRole 2) || 61440 < data.length then .next (s.svcReply 12484 [1])
  else .next (({ s with nv := { s.nv with staging := Mem.writeBytes s.nv.staging offset.toNat data } }).touch.svcReply 12484 [0])

/-- LOGOUT (R446). -/
def execLogout (t : Nat) (addr : BitVec 32) (port : BitVec 16) (s : State) : Result :=
  let s := s.at_ t
  if !s.serviceUp then .next s
  else if s.fromSession addr.toNat port.toNat then .next (s.endSession.svcReply 12486 [0])
  else .next (s.svcReply 12486 [1])

/-- SESSION_EXPIRY (R446): NOT_AFTER, or 600 s without a command. -/
def execSessionExpiry (t : Nat) (s : State) : Result :=
  let s := s.at_ t
  match s.boot.session with
  | some x => if x.notAfter ≤ s.rtcSec || x.last + 600000000000 ≤ s.localNow then .next s.endSession else .next s
  | none => .next s

/-! ### Commands (R447 to R449) -/

/-- The request is answered (R436, R444, R448, R449): result, counters, the OPERATION record, and the reply, which for a Graft that is armed
waits for its verdict. -/
def State.finishOp (s : State) (res : Nat) : State :=
  match s.boot.req with
  | none => s
  | some (a, b) =>
    let token := s.tokenId
    let s := { s with boot := { s.boot with req := none } }
    let s := s.store (a + Config.resultByte % 64) 1 res
    let s := ((s.putFlag UPD_STAT.REQ_BUSY false).put UPD_STAT.REQ_RES res).inc (if res == 0 then UPD_CMD_CNT else UPD_CMD_REJ_CNT)
    let s := (s.record 0x11 (sb b 0) (leBytes 8 token ++ leBytes 1 res ++ (b.drop 1).take 23)).touch
    if s.serviceUp && !(sb b 0 == 6 && res == 0 && s.boot.graftWait) then s.svcReply 12483 [res] else s

/-- A service operation with code `code` (R447, R448): session, mode, role of the present mode, guards, then `act`, which answers the
state and its result; `after` follows the OPERATION record where the operation was performed. -/
def State.serviceOp (s : State) (code : Nat) (modes : List Nat) (role : Nat) (guard : Bool) (act : State → State × Nat)
    (after : State → State) : State :=
  match s.boot.req with
  | none => s
  | some (_, b) =>
    if sb b 0 != code then s
    else if s.boot.session.isNone then s.finishOp 1
    else if !modes.contains (s.get SYS_STAT.MODE) then s.finishOp 2
    else if !s.hasRole role then s.finishOp 1
    else if !guard then s.finishOp 2
    else
      let r := act s
      let s := r.1.finishOp r.2
      if r.2 == 0 then after s else s

/-- An operation with nothing after its record. -/
def State.plainOp (s : State) (code : Nat) (modes : List Nat) (role : Nat) (guard : Bool) (act : State → State × Nat) : State :=
  s.serviceOp code modes role guard act id

/-- Roles of R445. -/
def roleMaintain : Nat := 0
def roleEngineer : Nat := 1
def roleUpdate : Nat := 2
def roleRecorder : Nat := 3
def roleSafety : Nat := 4

/-- MAINTAIN in SERVICE, ENGINEER elsewhere (R447). -/
def State.runRole (s : State) : Nat := if s.get SYS_STAT.MODE == 1 then roleMaintain else roleEngineer

/-- Address and port of the session; 0 without one. -/
def State.sessionFrom (s : State) : Nat × Nat :=
  match s.boot.session with
  | some x => (x.addr, x.port)
  | none => (0, 0)

/-- UPD_REQ_WRITE (R446, R448): a service core, while the cluster runs, hands over the block at a 64-byte aligned address, with a COMMAND that
came from `src` and UDP port `port`. Where that is not the session's the answer is that of no session, and the session's 600 s go on; a
code that R447 does not list is answered at once. -/
def execUpdReqWrite (t : Nat) (who : Initiator) (addr src : BitVec 32) (port : BitVec 16) (s : State) : Result :=
  match (s.at_ t).gate who UPD_REQ.ADDR.addr false who.isService with
  | (s, false) => .next s
  | (s, true) =>
    if s.boot.req.isSome then .next (s.inc UPD_CMD_REJ_CNT)
    else
      let a := addr.toNat / 64 * 64
      let b := s.bytes a 64
      let s := ({ s with boot := { s.boot with req := some (a, b) } }).putFlag UPD_STAT.REQ_BUSY true
      if !s.fromSession src.toNat port.toNat then
        let u := s.finishOp 1
        .next { u with boot := { u.boot with session := s.boot.session } }
      else if 1 ≤ sb b 0 && sb b 0 ≤ 0x10 then .next s
      else .next (s.finishOp 2)

/-- ENTER_SERVICE (R421, R447). -/
def execEnterService (t : Nat) (s : State) : Result :=
  let s := s.at_ t
  .next (s.plainOp 0x01 [2, 3] roleMaintain s.still (fun s => (s.enterMode 1, 0)))

/-- LEAVE_SERVICE (R421, R447). -/
def execLeaveService (t : Nat) (s : State) : Result :=
  let s := s.at_ t
  .next (s.plainOp 0x02 [1] roleMaintain true (fun s => (s.enterMode (if s.claiming then 3 else 2), 0)))

/-- CYC_CMD code of a program command. -/
def progCode : ProgCmd → Nat
  | .start => 1 | .stop => 2 | .resume => 4 | .step => 5

/-- A CYC_CMD write by the boot supervisor (R111). -/
def State.issue (s : State) (code : Nat) : State := { s with cyc := { s.cyc with cmds := s.cyc.cmds ++ [code] } }

/-- Whether R111 allows a program command after those that wait for the edge (R447). -/
def State.progGuard (s : State) (code : Nat) : Bool := s.cycCommands.cmdAllowed code

/-- PROGRAM_STATE_OPERATION (R111, R447). -/
def execProgramStateOperation (t : Nat) (cmd : ProgCmd) (s : State) : Result :=
  let s := s.at_ t
  .next (s.plainOp 0x03 [1, 3] s.runRole (s.progGuard (progCode cmd)) (fun s => (s.issue (progCode cmd), 0)))

/-- HOLD_OPERATION (R111, R447). -/
def execHoldOperation (t : Nat) (s : State) : Result :=
  let s := s.at_ t
  .next (s.plainOp 0x04 [1] roleEngineer (s.progGuard 3) (fun s => (s.issue 3, 0)))

/-- FORCE_OPERATION (R115, R116, R447): entry `n` bound with its words, or released. -/
def execForceOperation (t : Nat) (bind : Bool) (entry : BitVec 8) (ctrl : BitVec 32) (ident mask value : BitVec 64) (s : State) : Result :=
  let s := s.at_ t
  let n := entry.toNat
  .next (s.plainOp 0x05 [1, 3] s.runRole true (fun s =>
    if !bind then (s.forceRelease n s.tokenId, 0)
    else if s.flag (CYC_FORCE.VALID n) then (s, 3)
    else
      let s := ((s.put (CYC_FORCE.ID n) ident.toNat).put (CYC_FORCE.MASK n) mask.toNat).put (CYC_FORCE.VALUE n) value.toNat
      match (s.forceCtrl n ctrl.toNat).forceBind n s.tokenId with
      | (s, true) => (s, 0)
      | (s, false) => (s, 3)))

/-- The refusal code of a Graft image; 0: none (R432, R435, R436). -/
def State.graftCode (s : State) (g : GraftImage) : Nat :=
  let m := listImage g.bytes
  if !s.imageValid m 4 g.sig then 1
  else if imgFmt m != s.get UPD_VER.ORCH_RUN then 2
  else if imgBaseId m != s.get CYC_PROG_ID.ID then 10
  else 0

/-- Whether `n` bytes from `base` lie where the boot supervisor places a Graft (R94, R122): in shared SRAM outside the image copies, at a
64-byte boundary. -/
def graftPlace (base n : Nat) : Bool := 0x10020000 ≤ base && base + n ≤ 0x10400000 && base % 64 == 0

/-- GRAFT (R122, R436): the body is placed at `base` in shared SRAM, and ARM is issued. The boot supervisor chooses no other place
(assumption 155). -/
def execGraft (t : Nat) (img : GraftImage) (base : BitVec 32) (s : State) : Result :=
  let s := s.at_ t
  let m := listImage img.bytes
  let body := imgBody m
  if !graftPlace base.toNat (min 0x100000 body.length) then .next s
  else .next (s.plainOp 0x06 [1, 2, 3] roleEngineer true (fun s =>
    let code := s.graftCode img
    if code != 0 || 0x100000 < body.length then (s.refuseImage (if code = 0 then 1 else code) s.runSlot (imgId m), 4)
    else if s.flag CYC_STAT.ARMED || s.cyc.cmds.contains 6 then (s.refuseCmd, 3)
    else
      let s := s.storeBytes base.toNat body
      let s := ((s.put CYC_GRAFT_BASE.VALUE base.toNat).put CYC_GRAFT_LEN.VALUE body.length).put CYC_GRAFT_BASE_ID.ID (imgBaseId m)
      (({ s with cyc := { s.cyc with graftId := imgProgId m, bindings := img.bindings }, boot := { s.boot with graftWait := true } }).issue 6, 0)))

/-! ### Staged images (R431, R432, R447) -/

/-- The image at `base` in the staging area. -/
def State.stagedImage (s : State) (base : Nat) : ImageBytes := fun o k => Mem.readBytes s.nv.staging (base + o) k

/-- STAGE (R424, R432, R447): the firmware image at `fw` and the Orchard image at `orch` of the staging area, with what the checks give for
them, go into the slot not running; refused while the running slot is TRIAL. -/
def execStage (t : Nat) (fw orch : Nat) (fwSig orchSig : SigCheck) (s : State) : Result :=
  let s := s.at_ t
  .next (s.plainOp 0x07 [1, 2, 3, 4] roleUpdate (!s.flag UPD_STAT.TRIAL) (fun s =>
    let n := s.otherSlot
    let f := s.stagedImage fw
    let o := s.stagedImage orch
    if !(s.imageValid f 2 fwSig && s.imageValid o 3 orchSig) then (s.refuseImage 1 n (imgId o), 4)
    else
      let images := SMap.set (SMap.set s.nv.images (2 * n) (f 0 (imgLen f))) (2 * n + 1) (o 0 (imgLen o))
      let s := { s with nv := { s.nv with images := images } }
      ((s.writeTable (s.table.setSlot n ⟨1, 0, imgId f, imgId o, imgSvn o⟩)).recordImage 5 n 0 (imgId o), 0)))

/-- ACTIVATE (R437, R440): LOCAL, or CONSIST at a time. -/
def execActivate (t : Nat) (consist : Option (BitVec 64)) (s : State) : Result :=
  let s := s.at_ t
  let modes := if consist.isSome then [1, 2, 3, 4] else [1, 2, 4]
  let slot := s.table.slot s.otherSlot
  let guard := slot.state == 1 && s.boot.resetWait.isNone
  .next (match consist with
    | none =>
      s.serviceOp 0x08 modes roleUpdate guard
        (fun s => let s := s.put UPD_ACT_ID.ID slot.orchId
          if s.still then (s, 0) else (s.cancelActivation, 2))
        (fun s => s.activateAt s.claiming)
    | some at_ =>
      s.plainOp 0x08 modes roleUpdate guard (fun s =>
        (((s.put UPD_STAT.ACT 2).put UPD_ACT_ID.ID slot.orchId).put UPD_ACT_AT.AT at_.toNat, 0)))

/-- ANNOUNCE (R278, R447): through LANE_MODE_TGT and LANE_MODE_CMD, by the coordinator. -/
def execAnnounce (t : Nat) (op : AnnOp) (target : BitVec 32) (s : State) : Result :=
  let s := s.at_ t
  let role := match op with
    | .activation => roleUpdate
    | .cadence _ => roleEngineer
    | .cancel => if s.lanes.mode.op == 1 then roleEngineer else roleUpdate
  .next (s.plainOp 0x09 [1, 3] role s.amCoord (fun s =>
    match op with
    | .cancel => if (s.lanes.mode.op == 1 || s.lanes.mode.op == 2) && 3 < serialDiff 32 s.lanes.mode.m s.macro_ then (s.cancelAnnounce, 0) else (s, 3)
    | .cadence cid =>
      let s := s.put LANE_MODE_TGT.TGT target.toNat
      if serialDiff 32 target.toNat s.macro_ < 8 || s.bankCid (1 - s.get (LANE_STAT.BANK 0)) != cid.toNat then (s, 3)
      else (s.announce 1 cid.toNat 0, 0)
    | .activation =>
      let s := s.put LANE_MODE_TGT.TGT target.toNat
      if serialDiff 32 target.toNat s.macro_ < 8 then (s, 3)
      else (s.announce 2 0 (s.table.slot s.otherSlot).orchId, 0)))

/-- ROLE_SWAP (R360, R447). -/
def execRoleSwap (t : Nat) (unready : Bool) (s : State) : Result :=
  let s := s.at_ t
  .next (s.plainOp 0x0A [3] roleMaintain true (fun s => (s.swapTry unready, if s.swapOk unready then 0 else 3)))

/-- LOCKOUT_RESET (R423, R447, R449): the SYS reset follows the records. -/
def execLockoutReset (t : Nat) (s : State) : Result :=
  let s := s.at_ t
  .next (s.serviceOp 0x0B [4] roleSafety s.boot.resetWait.isNone (fun s => (s, 0)) (fun s => s.ownReset 1))

/-- TRIP_RESTART_OPERATION (R216, R218, R447). -/
def execTripRestartOperation (t : Nat) (fn : BitVec 5) (s : State) : Result :=
  let s := s.at_ t
  .next (s.plainOp 0x0C [1, 2, 3] roleSafety true (fun s =>
    match s.tripRestart fn.toNat with
    | (s, true) => (s, 0)
    | (s, false) => (s, 3)))

/-- CLEAR_OPERATION (R467, R468). -/
def execClearOperation (t : Nat) (part : BitVec 8) (s : State) : Result :=
  let s := s.at_ t
  .next (s.plainOp 0x0D [1, 2, 3, 4] roleRecorder true (fun s =>
    let s := s.put REC_CLEAR_TOK.TOKEN_ID s.tokenId
    if s.clearRefused part.toNat then (s.inc REC_REJ_CNT, 3) else (s.clearStart part.toNat, 0)))

/-- SAVE_ENVELOPES (R430, R447). -/
def execSaveEnvelopes (t : Nat) (s : State) : Result :=
  let s := s.at_ t
  .next (s.plainOp 0x0E [1, 2, 3, 4] roleMaintain true (fun s => (s.saveEnvelopes, 0)))

/-- REVOKE (R433, R447): a revocation image, whose body names the slots to revoke; bits 0 to 3 of each mask. -/
def execRevoke (t : Nat) (img : List Byte) (sig : SigCheck) (rsaMask slhMask : BitVec 4) (s : State) : Result :=
  let s := s.at_ t
  let m := listImage img
  .next (s.plainOp 0x0F [1, 4] roleUpdate true (fun s =>
    let rsaRev := s.get UPD_OTP.RSA_REV ||| rsaMask.toNat
    let slhRev := s.get UPD_OTP.SLH_REV ||| slhMask.toNat
    let left := fun prog rev => (List.range 4).any (fun k => bitOf prog k && !bitOf rev k)
    let ok := s.imageValid m 5 sig && !bitOf rsaMask.toNat (imgNum m 0x2C 1) && !bitOf slhMask.toNat (imgNum m 0x2D 1)
      && left (s.get UPD_OTP.RSA_PROG) rsaRev && left (s.get UPD_OTP.SLH_PROG) slhRev
    if ok then ((s.put UPD_OTP.RSA_REV rsaRev).put UPD_OTP.SLH_REV slhRev, 0) else (s.refuseImage 1 s.runSlot (imgId m), 4)))

/-- SET_RTC (R417, R421, R447). -/
def execSetRtc (t : Nat) (rtc : BitVec 64) (nextService : Bool) (s : State) : Result :=
  let s := s.at_ t
  .next (s.plainOp 0x10 [1, 2, 3, 4] roleMaintain true (fun s =>
    ((s.put SYS_RTC.RTC rtc.toNat).putFlag UPD_STAT.NEXT_SERVICE nextService, 0)))

end Sys2Proof.Machine
end

