-- ==== Sys2Proof/Machine/RegisterWrite.lean ====
section
/-! DEFINITION. Machine/RegisterWrite.lean: a write to any address: to a register by the rules of its class and the rights to it, into
the table windows, into memory; and a read of any address, the pop windows among them (R23, R25, R28, R31, R32, R35, R36, R39 to R49, R61). -/
namespace Sys2Proof.Machine
open Reg

/-! ### The shape of an access (R23, R28) -/

/-- Whether `a` lies in an MMIO block (R23). -/
def inMmio (a : Nat) : Bool := 0x20000000 ≤ a && a < 0x20160000

/-- Whether `a` is the _ACT alias of a buffered register's word (R39). -/
def isAlias (a : Nat) : Bool := 0x8000 ≤ a % 0x10000 && buffered (a - 0x8000)

/-- The register row that an access at `a` reaches, by its own offset or by its _ACT alias. -/
def rowAt (a : Nat) : Option RegRow := if isAlias a then findRow (a - 0x8000) else findRow a

/-- Whether an access of `size` bytes at `a` has a size that a register accepts (R28). -/
def regShape (a size : Nat) : Bool :=
  (size == 4 && a % 4 == 0) || (size == 8 && a % 8 == 0 &&
    match rowAt a with
    | some r => r.words == 2
    | none => false)

/-- Whether an access of `size` bytes has a size that a table window accepts (R28). -/
def tableShape (a size : Nat) : Bool := (size == 4 || size == 8) && a % size == 0

/-! ### Rights narrower than the block's (R35) -/

/-- Whether `a` lies in the force table (R128). -/
def inForceTable (a : Nat) : Bool := 0x20051000 ≤ a && a < 0x20055000

/-- Registers that only the boot supervisor writes (R128, R205, R218, R278, R360, R410, R414, R417, R467). -/
def bootOnly (a : Nat) : Bool :=
  a == 0x20000008 || a == 0x20000010 || a == 0x20000014 || a == 0x20000020 || a == 0x20000024
    || a == 0x20050010 || a == 0x20050020 || a == 0x20050024 || a == 0x20050038 || a == 0x2005003C || inForceTable a
    || a == 0x200B0010 || a == 0x200B0018 || a == 0x2012000C || a == 0x20060030 || a == 0x20060034
    || a == 0x2013018C || a == 0x20130190 || a == 0x20130194

/-- The right to a register beyond R35's right to its block: registers of the boot supervisor, of the Tricycle (R457), of the service
cores (R448, R458), and those closed to one of them (R398, R442). -/
def regRight (who : Initiator) (a : Nat) : Bool :=
  if bootOnly a then who == .boot
  else if a == 0x20130184 || (0x201301A0 ≤ a && a < 0x201301C0) then who == .tri
  else if a == 0x20130180 || a == 0x20140024 then who.isService
  else if a == 0x20140020 then who != .boot
  else if a == CLK_TGEAR.GEAR.addr then !who.isService
  else true

/-- Guarded write-only triggers, whose Meaning column says so (R39). -/
def guardedTrigger (a : Nat) : Bool :=
  a == 0x20000008 || a == 0x20050010 || a == 0x20060030 || a == 0x200B0010 || a == 0x200B0018 || a == 0x2012000C
    || a == 0x2013018C || a == 0x20140020

/-- Whether the write needs an unlock (R41). -/
def guarded (a : Nat) : Bool :=
  guardedTrigger a ||
    match findRow a with
    | some r => r.acc == .rwg
    | none => false

/-! ### Registers with a command of their own -/

/-- A write to word `k` of force entry `n` (R116, R117): while VALID is 1 only VALID and VALUE take it. -/
def State.forceWord (s : State) (t n ofs size v : Nat) : Result :=
  let bound := s.flag (CYC_FORCE.VALID n)
  let merge := fun (old : Nat) => if size = 8 then v else putBits old (8 * (ofs % 8)) 32 v
  if ofs = 0 then
    if bitOf v 0 then execForceBind t .boot (BitVec.ofNat 8 n) (BitVec.ofNat 32 v) s
    else execForceRelease t .boot (BitVec.ofNat 8 n) (BitVec.ofNat 32 v) s
  else if ofs / 8 = 3 then execForceValueWrite t .boot (BitVec.ofNat 8 n) (BitVec.ofNat 64 (merge (s.get (CYC_FORCE.VALUE n)))) s
  else
    let s := s.consume .boot 5
    if bound then .next s
    else if ofs / 8 = 1 then .next (s.put (CYC_FORCE.ID n) (merge (s.get (CYC_FORCE.ID n))))
    else .next (s.put (CYC_FORCE.MASK n) (merge (s.get (CYC_FORCE.MASK n))))

/-- A write into the words of check engine `e` that act at once (R239 to R244); none where the word acts as any RWI register. -/
def State.crcWord (s : State) (who : Initiator) (e ofs size v : Nat) : Option Result :=
  let i := BitVec.ofNat 3 e
  if ofs = 0 then
    some (execCrcCfgWrite who i (BitVec.ofNat 32 v) (Config.jobFolded s.freeN) { s with freeN := s.freeN + 1 })
  else if ofs = 8 || ofs = 12 then
    let old := s.get (CRC.VAL e)
    some (execCrcValWrite who i (BitVec.ofNat 64 (if size = 8 then v else putBits old (8 * (ofs - 8)) 32 v)) s)
  else if ofs = 0x24 then
    some (match bitsOf v 0 2 with
      | 0 => execCrcInit who i s
      | 1 => execJob who i s
      | 2 => execSave who i (BitVec.ofNat 7 (v / 4)) s
      | _ => execLoad who i (BitVec.ofNat 7 (v / 4)) s)
  else if ofs = 0x28 then some (execCrcData who i (BitVec.ofNat 32 v) s)
  else if ofs = 0x30 || ofs = 0x34 then
    some (if size = 8 then execCrcData64 who i (BitVec.ofNat 64 v) s else execCrcData who i (BitVec.ofNat 32 v) s)
  else none

/-- A write that has the right, the unlock and the reserved bits it needs, to a register whose write is a command of its own; none
for every other register. `s` still holds the unlock. -/
def State.ownWrite (s : State) (t : Nat) (who : Initiator) (a size v : Nat) : Option Result :=
  let at_ := fun (f : Fld) => bitsOf v f.lo f.width
  if a == SYS_RST.KIND.addr then
    some (match at_ SYS_RST.KIND with
      | 1 => execSys t who s
      | 2 => execCore t who (at_ SYS_RST.TARGET) s
      | 3 => execDomain t who (at_ SYS_RST.TARGET) s
      | _ => .next ((s.consume who 0).inc SYS_RST_REJ_CNT))
  else if a == SYS_WDG_CFG.TMO.addr then
    some (execWdgCfgWrite t who (BitVec.ofNat 8 (at_ SYS_WDG_CFG.TMO)) (BitVec.ofNat 8 (at_ SYS_WDG_CFG.WIN)) s)
  else if a == SYS_WDG_KICK.KEY.addr then some (execWdgKick t s.ofs who (BitVec.ofNat 16 v) s)
  else if a == REGG_STROBE.GROUPS.addr then some (execReggStrobe who (BitVec.ofNat 16 v) s)
  else if a == CYC_CMD.CMD.addr then some (.next (s.writeCmd who (at_ CYC_CMD.CMD)))
  else if inForceTable a then some (s.forceWord t ((a - 0x20051000) / 64) ((a - 0x20051000) % 64) size v)
  else if a == LANE_MODE_CMD.CID.addr then
    let cid := BitVec.ofNat 16 (at_ LANE_MODE_CMD.CID)
    some (match at_ LANE_MODE_CMD.OP with
      | 1 => execAnnounceCadence t who cid s
      | 2 => execAnnounceActivate t who cid s
      | 3 => execCancel t who s
      | _ => .next (s.consume who 6))
  else if 0x20070100 ≤ a && a < 0x20070190 && a % 16 == 12 then some (execEcnTailWrite t who ((a - 0x20070100) / 16) v s)
  else if 0x20090020 ≤ a && a < 0x20090030 then some (.next (s.writeOpen who ((a - 0x20090020) / 4) v))
  else if 0x200A0000 ≤ a && a < 0x200A0200 then s.crcWord who ((a - 0x200A0000) / 64) (a % 64) size v
  else if a == TRIP_SWAP.BANK.addr then some (execTripSwap t who (bitOf v 0) s)
  else if a == TRIP_RESTART.FN.addr then some (execTripRestart t who (BitVec.ofNat 5 v) s)
  else if a == LOOP_RETRY.CH.addr then some (execLoopRetry t who (BitVec.ofNat 4 v) s)
  else if 0x200F0100 ≤ a && a < 0x200F0180 && a % 32 == 0x14 then
    let c := (a - 0x200F0100) / 32
    some (if at_ (LOOP_CH_HGO.GO 0) == 1 then execHartGo t who c (at_ (LOOP_CH_HGO.LEN 0)) s else .next (s.consume who 0xF))
  else if a == BRG_PF_FLUSH.FLUSH.addr then some (execBrgPfFlush t who (bitOf v 0) s)
  else if a == GW_MAP_SWAP.BANK.addr then some (execGwMapSwap t who (bitOf v 0) s)
  else if a == TWIN_CMD.OP.addr then
    some (match at_ TWIN_CMD.OP with
      | 1 => execSwap t who s
      | 2 => execSwapUnready t who s
      | _ => .next ((s.consume who 0x12).inc TWIN_CMD_REJ_CNT))
  else if a == REC_RD_CMD.PART.addr then
    some (execSlotRead t who (BitVec.ofNat 3 v) (BitVec.ofNat 21 (at_ REC_RD_CMD.SLOT)) s)
  else if a == REC_SUBMIT.ADDR.addr then some (execSoftwareRecord t who (BitVec.ofNat 32 v) s)
  else if a == REC_PRG_GO.TYPE.addr then
    some (execProgramRecord t who (BitVec.ofNat 4 v) (BitVec.ofNat 8 (at_ REC_PRG_GO.CODE)) s)
  else if a == REC_SNAP.TRG.addr then some (execSnapshotTrigger t who (BitVec.ofNat 5 v) s)
  else if a == REC_CLEAR.PART.addr then some (execClear t who (BitVec.ofNat 2 v) s)
  else if a == UPD_CONFIRM.VITAL.addr then some (.next (s.confirmWrite who (v % 4)))
  else if a == UPD_REQ.ADDR.addr then some (execUpdReqWrite t who (BitVec.ofNat 32 v) (BitVec.ofNat 32 s.sessionFrom.1) (BitVec.ofNat 16 s.sessionFrom.2) s)
  else none

/-! ### The classes (R39, R40, R49) -/

/-- Whether the word `v` leaves every reserved bit of the word at `a` as it reads (R49). -/
def State.reservedKept (s : State) (a v : Nat) : Bool :=
  let m := BitVec.ofNat 32 (namedMask a)
  (BitVec.ofNat 32 v &&& ~~~m) == (s.readReg a &&& ~~~m)

/-- One word of a performed write (R39) (assumption 182). -/
def State.classWord (s : State) (c : Acc) (a v : Nat) : State :=
  match c with
  | .rw | .rwg => s.setPend a (BitVec.ofNat 32 v)
  | .rwi => s.setWord a (BitVec.ofNat 32 v)
  | .ro => { s.setWord a (takenWord a (BitVec.ofNat 32 v)) with pend := SMap.erase s.pend a }
  | .wo => s

/-- The words of a write of `size` bytes: offset and value. -/
def wordsOf (size v : Nat) : List (Nat × Nat) := if size = 8 then [(0, v % 2 ^ 32), (4, v / 2 ^ 32)] else [(0, v)]

/-- Whether the write is a per-core register's (R75): it has an instance in each Tricycle core only. -/
def perCore (a : Nat) : Bool := a == TRI_SELF_SCR.SCR.addr || a == CYC_DONE.VALUE.addr

/-- A write of the `size` low bytes of `v` to the register at `a` (R28, R35, R36, R39 to R42, R49). -/
def State.writeReg (s : State) (t : Nat) (who : Initiator) (a size v : Nat) : Result :=
  if !regShape a size then .next (s.trap who true a)
  else if a == REGG_UNLOCK.KEY.addr then
    if 2 ^ 21 ≤ v then .fault .reservedBitWrite
    else execReggUnlock who (BitVec.ofNat 16 v) (BitVec.ofNat 5 (v / 2 ^ 16)) s
  else
    match s.gate who a (guarded a) (regRight who a) with
    | (s', false) => .next s'
    | (s', true) =>
      if isAlias a then .next (s'.inc REGG_ROWR_CNT)
      else match findRow a with
      | none => .next s'
      | some r =>
        if r.acc == .ro && !(r.stated && who == .boot && s.get SYS_STAT.MODE == 0) then .next (s'.inc REGG_ROWR_CNT)
        else if !(wordsOf size v).all (fun p => s.reservedKept (a + p.1) p.2) then .fault .reservedBitWrite
        else if perCore a then .next s'
        else match s.ownWrite t who a size v with
        | some out => out
        | none =>
          let s'' := (wordsOf size v).foldl (fun (s : State) p => s.classWord r.acc (a + p.1) p.2) s'
          .next (if r.acc == .ro then s''.configChanged else s'')

/-! ### Table windows (R23, R25, R28, R35, R148, R205, R258, R299) -/

/-- Whether the word at `a` lies in the tables of its window (R25): two signal map banks; entries and header of two cadence banks of
two tables; header, USE and VAL of the terms of two banks, and the output attributes; the envelopes. -/
def inTable (a : Nat) : Bool :=
  let ofs := a % 0x100000
  match a / 0x100000 with
  | 0x210 => ofs < 0xC0000
  | 0x211 => ofs < 0x80000 && ofs % 0x20000 < 0x10004
  | 0x212 =>
    if ofs < 0x80000 then ofs % 0x200 < 4 || (0x80 ≤ ofs % 0x200 && ofs % 0x200 < 0x180)
    else ofs < 0x82000 && ofs % 0x1000 < 0x800
  | 0x213 => ofs < 0x30000
  | _ => false

/-- Whether cadence bank `b` is in use (R258): the active bank of either lane, or named by an announced mode change. -/
def State.cadInUse (s : State) (b : Nat) : Bool :=
  s.get (LANE_STAT.BANK 0) == b || s.get (LANE_STAT.BANK 1) == b
    || (let p := s.get LANE_MODE.PHASE
        (p == 1 || p == 2 || p == 4) && s.bankCid b == s.get LANE_MODE.CID)

/-- The bank of a term memory word. -/
def termBank (a : Nat) : Nat := if a % 0x100000 < 0x80000 then a % 0x100000 / 0x40000 else (a % 0x100000 - 0x80000) / 0x1000

/-- A performed write of one word into a table; words beyond the tables are ignored (R25). -/
def State.tableWord (s : State) (a v : Nat) : State := if inTable a then s.store a 4 v else s

/-- Whether `who` may write the table window of `a` (R35). -/
def tableRight (who : Initiator) (a : Nat) : Bool := if a < 0x21200000 then who != .tri else who == .boot

/-- A write of `size` bytes into a table window (R28, R35, R36, R57, R205). The reserved bits of an entry are stored as written
(assumption 147). -/
def State.writeTableWindow (s : State) (who : Initiator) (a size v : Nat) : Result :=
  if !tableShape a size || !tableRight who a then .next (s.trap who true a)
  else if !inTable a then .next s
  else if a < 0x21100000 && a % 0x100000 / 0x60000 == s.get GW_MAP_STAT.ACTIVE then .fault .activeMapBankWrite
  else if 0x21100000 ≤ a && a < 0x21200000 && s.cadInUse (a % 0x100000 / 0x40000) then .fault .cadenceBankInUse
  else if 0x21200000 ≤ a && a < 0x21300000 && termBank a == s.get TRIP_STAT.BANK then .next (s.inc TRIP_TWR_CNT)
  else .next ((wordsOf size v).foldl (fun (s : State) p => s.tableWord (a + p.1) p.2) s)

/-! ### Writes by address (R23, R25, R28, R35, R36) -/

/-- A write of the `size` low bytes of `v` at `a`: by the region that covers it, or an access fault. -/
def State.writeAt (s : State) (t : Nat) (who : Initiator) (a size v : Nat) : Result :=
  if !s.acts who then .next s
  else match regionAt a size with
  | none => .next (s.trap who true a)
  | some .mmio => s.writeReg t who a size v
  | some .table => s.writeTableWindow who a size v
  | some .rack => execRackOutboundAccess.core who s a size (some v)
  | some r => s.storeAt who r a size v

/-- REGISTER_WRITE (R39): an initiator's write of `size` bytes. -/
def execRegisterWrite (t : Nat) (who : Initiator) (addr : BitVec 64) (size : Nat) (data : BitVec 64) (s : State) : Result :=
  (s.at_ t).writeAt t who addr.toNat size (data.toNat % 2 ^ (8 * size))

/-- TABLE_WINDOW_WRITE (R205): an initiator's write of `size` bytes, a store like any other where `addr` lies in no table window. -/
def execTableWindowWrite (t : Nat) (who : Initiator) (addr : BitVec 64) (size : Nat) (data : BitVec 64) (s : State) : Result :=
  (s.at_ t).writeAt t who addr.toNat size (data.toNat % 2 ^ (8 * size))

/-! ### Pop windows (R31, R32, R61) -/

/-- The oldest entry behind the pop window that starts at `a`, and the state without it; none where it is empty or no window. -/
def State.popHead (s : State) (a : Nat) : Option (Nat × State) :=
  if 0x20080200 ≤ a && a < 0x20080280 && a % 8 == 0 then
    let n := (a - 0x20080200) / 8
    match SMap.getD s.time.caps n [] with
    | [] => none
    | e :: t =>
      some (e, ({ s with time := { s.time with caps := SMap.set s.time.caps n t } }).put (TIME_CAP_STAT.LEVEL n) t.length)
  else if 0x200A0000 ≤ a && a < 0x200A0200 && a % 64 == 0x38 then
    let n := (a - 0x200A0000) / 64
    match (s.eng n).fifo with
    | [] => none
    | e :: t => some (e.1, s.setEng n { s.eng n with fifo := t })
  else if a == BRG_PWLOG.ADDR.addr then
    match s.brg.log with
    | [] => none
    | e :: t => some (e, ({ s with brg := { s.brg with log := t } }).showBrg)
  else if 0x200F0100 ≤ a && a < 0x200F0180 && a % 32 == 0x18 then
    let c := (a - 0x200F0100) / 32
    match (s.loop c).fifo with
    | [] => none
    | e :: t => some (e, (s.setLoop c { s.loop c with fifo := t }).put (LOOP_CH_STAT.HRX_LEVEL c) t.length)
  else none

/-- The key of a held high half: block and initiator (R32). -/
def heldKey (a : Nat) (who : Initiator) : Nat := blockOf a * 8 + who.idx

/-- A load without the right or the shape, or from no region, faults (R23, R28, R36); it halts a Tricycle core (R62). -/
def State.loadTrap (s : State) (who : Initiator) (core a : Nat) : State :=
  if who == .tri then (if core < 3 then s.coreTrap core false a else s.noteTrap who false a) else s.trap who false a

/-- Whether the pop window at `a` is one of those 64 bits wide (R32). -/
def popWide (a : Nat) : Bool := isPop a && !(0x200F0000 ≤ a && a < 0x20100000)

/-- A read of `size` bytes of a pop window (R31, R32): whole, its low half, its high half, or a 32-bit window. -/
def State.popLoad (s : State) (who : Initiator) (a size : Nat) : State :=
  let key := heldKey a who
  if popWide a && size == 4 && a % 8 == 4 then
    { s.gave who (SMap.getD s.held key 0) with held := SMap.erase s.held key }
  else
    let half := popWide a && size == 4
    match s.popHead a with
    | some (v, s) => if half then { s.gave who (v % 2 ^ 32) with held := SMap.set s.held key (v / 2 ^ 32) } else s.gave who v
    | none => if half then { s.gave who 0 with held := SMap.erase s.held key } else s.gave who 0

/-! ### Loads by address (R23, R25, R28, R35, R36, R74, R75) -/

/-- What a 32-bit read of an MMIO word returns to an initiator: a per-core register's instance in the reading core (R75), else the
register's word. -/
def State.readBy (s : State) (who : Initiator) (core a : Nat) : Word :=
  if who == .tri && a == TRI_SELF_SCR.SCR.addr then (s.core core).scratch
  else if who == .tri && a == CYC_DONE.VALUE.addr then (s.core core).doneVal
  else s.readReg a

/-- A read of `size` bytes of an MMIO block: no Tricycle core reads a pop window (R61). -/
def State.mmioLoad (s : State) (who : Initiator) (core a size : Nat) : State :=
  if !regShape a size then s.loadTrap who core a
  else if isPop a then if who == .tri then s.loadTrap who core a else s.popLoad who a size
  else s.gave who ((s.readBy who core a).toNat + if size = 8 then (s.readBy who core (a + 4)).toNat * 2 ^ 32 else 0)

/-- A read of a table window: words beyond the table read as 0 (R25). -/
def State.tableLoad (s : State) (who : Initiator) (core a size : Nat) : State :=
  if !tableShape a size then s.loadTrap who core a
  else
    let w := fun o => if inTable (a + o) then s.load (a + o) 4 else 0
    s.gave who (w 0 + if size = 8 then w 4 * 2 ^ 32 else 0)

/-- A load of `size` bytes at `a`; `core` is the loading core of the Tricycle. -/
def State.loadAt (s : State) (who : Initiator) (core a size : Nat) : Result :=
  match regionAt a size with
  | none => .next (s.loadTrap who core a)
  | some .mmio => .next (s.mmioLoad who core a size)
  | some .table => .next (s.tableLoad who core a size)
  | some .rack => if who == .tri then .next (s.loadTrap who core a) else execRackOutboundAccess.core who s a size none
  | some r =>
    if memSize size && memRight who (some core) false r then
      .next (s.gave who (s.load (if who == .tri then coreAddr core a else a) size))
    else .next (s.loadTrap who core a)

/-- Whether `a` lies in a DEVICE region (R23). -/
def inDevice (a : Nat) : Bool := inMmio a || (0x21000000 ≤ a && a < 0x21400000) || (0x40000000 ≤ a && a < 0x80000000)

/-- A load that core `core` or another initiator issues: a Tricycle core that does not execute issues none, and its DEVICE read waits
behind the unresolved stores of its own queue (R74). -/
def State.issueLoad (s : State) (who : Initiator) (core a size : Nat) : Result :=
  if who != .tri then if s.acts who then s.loadAt who core a size else .next s
  else if !s.executes core then .next s
  else if inDevice a && !(s.core core).queue.isEmpty then .next (s.setCore core { s.core core with readStall := some (a, size) })
  else s.loadAt who core a size

/-- POP_READ_64 (R31, R32): a 64-bit load at `win`. -/
def execPopRead64 (t : Nat) (who : Initiator) (core : Nat) (win : BitVec 64) (s : State) : Result :=
  (s.at_ t).issueLoad who core win.toNat 8

/-- POP_READ_LOW (R32): a 32-bit load at `win`, the low half of a window. -/
def execPopReadLow (t : Nat) (who : Initiator) (core : Nat) (win : BitVec 64) (s : State) : Result :=
  (s.at_ t).issueLoad who core win.toNat 4

/-- POP_READ_HIGH (R32): a 32-bit load at `win` + 4, the high half of the window that starts at `win`. -/
def execPopReadHigh (t : Nat) (who : Initiator) (core : Nat) (win : BitVec 64) (s : State) : Result :=
  (s.at_ t).issueLoad who core (win.toNat + 4) 4

/-- POP_READ_32 (R31, R335): a 32-bit load at `win`. -/
def execPopRead32 (t : Nat) (who : Initiator) (core : Nat) (win : BitVec 64) (s : State) : Result :=
  (s.at_ t).issueLoad who core win.toNat 4

end Sys2Proof.Machine
end

