-- ==== Sys2Proof/Machine/TriStore.lean ====
section
/-! DEFINITION. Machine/TriStore.lean: the Tricycle's stores to DEVICE regions: rights, store queues, matching, timeout (R37, R62,
R67, R73 to R75). -/
namespace Sys2Proof.Machine
open Reg

/-- Whether a Tricycle core may issue this store (R28, R35, R128): into an MMIO block, to a register not closed to it. -/
def triMay (a size : Nat) : Bool := inMmio a && regShape a size && regRight .tri a

/-- Two copies of a store: same address, size and data. -/
def DStore.same (x y : DStore) : Bool := x.addr == y.addr && x.size == y.size && x.data == y.data

/-- Two stores at the same position. -/
def DStore.level (x y : DStore) : Bool := x.win == y.win && x.k == y.k

/-- What R73 says now of the oldest unresolved stores: performed, not performed, or still waiting. -/
def State.storeVerdict (s : State) : Option (Bool × DStore) :=
  let ps := s.parts
  match ps.filterMap (fun n => (s.core n).queue.head?) with
  | [x, y] =>
    if !x.level y then none
    else if x.same y then some (true, x)
    else if ps.length = 2 then some (false, x) else none
  | [x, y, z] =>
    if x.level y && x.same y then some (true, x)
    else if x.level z && x.same z then some (true, x)
    else if y.level z && y.same z then some (true, y)
    else if x.level y && y.level z then some (false, x) else none
  | _ => none

/-- The position of `x` is resolved: its copies leave the queues, and a later copy is discarded (R73). -/
def State.settle (s : State) (x : DStore) : State :=
  let s := [0, 1, 2].foldl (fun (s : State) n =>
    let c := s.core n
    if c.queue.any (fun y => x.level y) then s.setCore n { c with queue := c.queue.filter (fun y => !x.level y) } else s) s
  { s with tri := { s.tri with resolved := (x.win, x.k) :: s.tri.resolved } }

/-- Every store that can be resolved now is, in the order of the queues (R73, R74): a performed one as the voted Tricycle's write. -/
def State.resolveStores (t : Nat) : Nat → State → Result
  | 0, s => .next s
  | fuel + 1, s =>
    match s.storeVerdict with
    | none => .next s
    | some (true, x) =>
      match (s.settle x).writeReg t .tri x.addr x.size x.data with
      | .next s => State.resolveStores t fuel (s.inc TRI_DSTORE_CNT)
      | out => out
    | some (false, x) => State.resolveStores t fuel ((s.settle x).inc TRI_DFAIL_CNT)

/-- The store enters the queue of core `n` at its position, unless that position is resolved (R73). -/
def State.enqueueStore (s : State) (n addr size data : Nat) : State :=
  let s := s.fold n 2 size addr data
  let c := s.core n
  let win := s.get CYC_CYCLE_CNT * 2 ^ 40 + c.win
  let c' := { c with nDev := c.nDev + 1 }
  if s.tri.resolved.contains (win, c.nDev) then s.setCore n c'
  else s.setCore n { c' with queue := c.queue ++ [⟨win, c.nDev, addr, size, data, s.localNow⟩] }

/-- A DEVICE store that core `n` issues (R67, R72 to R75). A store to TRI_SELF_SCR is neither matched nor folded. -/
def State.issueStore (s : State) (t n addr size data : Nat) : Result :=
  if !triMay addr size then .next (s.coreTrap n true addr)
  else if addr == CYC_DONE.VALUE.addr then .next (s.closeWindow n true data)
  else if addr == TRI_SELF_SCR.SCR.addr then .next (s.setCore n { s.core n with scratch := BitVec.ofNat 32 data })
  else if (s.core n).done then .next (s.lateFold n)
  else if !(s.core n).started then .next s
  else if 16 ≤ (s.core n).queue.length then .next (s.setCore n { s.core n with storeStall := some (addr, size, data) })
  else (s.enqueueStore n addr size data).resolveStores t 64

/-- TRI_DEVICE_STORE (R23, R36, R62, R73): core `core` stores the `size` low bytes of `data` at `addr`. A store that no region covers
faults; one that lies in MEMORY acts there at once. -/
def execTriDeviceStore (t core : Nat) (addr : BitVec 64) (size : Nat) (data : BitVec 64) (s : State) : Result :=
  let s := s.at_ t
  let v := data.toNat % 2 ^ (8 * size)
  if !s.executes core then .next s
  else match regionAt addr.toNat size with
    | none => .next (s.coreTrap core true addr.toNat)
    | some r => if r.isMemory then .next (s.coreStore core r addr.toNat size v) else s.issueStore t core addr.toNat size v

/-- Stores whose WIN_TMO has passed since their first issue are not performed, oldest first (R73). -/
def State.timeOutStores : Nat → State → State
  | 0, s => s
  | fuel + 1, s =>
    match (s.parts.filterMap (fun n => (s.core n).queue.head?)).find? (fun (x : DStore) => x.at_ + s.winTmo ≤ s.localNow) with
    | none => s
    | some x => State.timeOutStores fuel ((s.settle x).inc TRI_DFAIL_CNT)

/-- DEVICE_STORE_TIMEOUT (R73). -/
def execDeviceStoreTimeout (t : Nat) (s : State) : Result := ((s.at_ t).timeOutStores 64).resolveStores t 64

/-- STORE_QUEUE_RESUME (R74): the stalled store of core `core` enters its queue once an entry of 16 has been resolved; a DEVICE read
that waited goes on once every earlier store of its queue has been. -/
def execStoreQueueResume (t core : Nat) (s : State) : Result :=
  let s := s.at_ t
  let c := s.core core
  if 3 ≤ core || c.st != .run || c.halted then .next s
  else
    match c.storeStall, c.readStall with
    | some (addr, size, data), _ =>
      if c.queue.length < 16 then ((s.setCore core { c with storeStall := none }).enqueueStore core addr size data).resolveStores t 64 else .next s
    | none, some (addr, size) =>
      if c.queue.isEmpty then (s.setCore core { c with readStall := none }).loadAt .tri core addr size else .next s
    | none, none => .next s

/-! ### Events that may exclude a core -/

/-- CYCLE_START_INTERRUPT (R60, R65, R71): core `core` enters it. TRI_START shows the ns since the edge that starts the cycle, as far as
its 14 bits go (assumption 174). -/
def execCycleStartInterrupt (t core : Nat) (s : State) : Result :=
  let s := s.at_ t
  let c := s.core core
  if 3 ≤ core || !s.flag CYC_STAT.BUSY || c.st != .run || c.started || c.halted then .next s
  else
    let s := s.put (TRI_START.DELAY core) s.execNs
    let s := s.setCore core { c with started := true, done := false, sig := 0, win := 0, nDev := 0, entry := s.execNs }
    s.startCheck.resolveStores t 64

/-- VOTER_DECISION (R76 to R80, R88): the decision that is due; `fa` and `fb` are the faults of the two comparator instances' bits, 0 in a
sound voter. Stores that an exclusion lets resolve are resolved (R73). -/
def execVoterDecision (t : Nat) (fa fb : BitVec 3) (s : State) : Result :=
  let s := s.at_ t
  if !s.voteDue then .next s else (s.decide_ fa fb).resolveStores t 64

end Sys2Proof.Machine
end

