-- ==== Sys2Proof/Machine/Edge.lean ====
section
/-! DEFINITION. Machine/Edge.lean: the local tick edge, in the order of R16 (R12, R43, R53, R64, R83, R96 to R101, R111, R205, R217,
R236, R271, R284, R307, R339 to R346, R350, R356, R495 to R497). -/
namespace Sys2Proof.Machine
open Reg

/-! ### The update strobe (R43, R44, R53, R63) -/

/-- Pending words of the blocks that `p` selects become applied. -/
def State.applyPend (s : State) (p : Nat → Bool) : State :=
  { s with
    regs := s.pend.foldl (fun m (q : Nat × Word) => if p (blockOf q.1) then SMap.set m q.1 q.2 else m) s.regs
    pend := s.pend.filter (fun (q : Nat × Word) => !p (blockOf q.1)) }

/-- Whether window `w` has changed between two states (R383). -/
def windowChanged (s s' : State) (w : Nat) : Bool :=
  [0, 4, 8].any (fun o => s.word (0x20100100 + 16 * w + o) != s'.word (0x20100100 + 16 * w + o))

/-- Strobe application at an edge: the groups named since the last one, and REGG, which waits for no strobe (R43, R44). A new
reference ends the grace period at this edge and a new pass starts (R53); where the same edge opens the grace period too, it ends at
once (assumption 146). -/
def State.strobeEdge (s : State) : State :=
  let old := s
  let mask := s.get REGG_STROBE_PEND.GROUPS
  let in_ := fun b => b == 3 || bitOf mask (s.groupOf b)
  let newRef := (SMap.find s.pend REGG_CFG_REF.REF.addr).isSome
  let restart := mask != 0 || s.regg.waitEdge
  let s := s.applyPend in_
  let s := if s.get TIME_CTRL.SLEW_PPM == old.get TIME_CTRL.SLEW_PPM then s else { s with time := old.rebaseCons.time }
  let s := if bitOf mask (old.groupOf 4) then s.loadTset else s
  let s := if mask = 0 then s else ((s.inc REGG_STRB_CNT).put REGG_STROBE_PEND.GROUPS 0).putFlag REGG_STAT.STROBE_PEND false
  let s := if restart then s.openGrace else s
  let s := if newRef && s.flag REGG_STAT.CFG_WAIT then s.putFlag REGG_STAT.CFG_WAIT false else s
  let s := [false, true].foldl (fun (s : State) svc =>
    if in_ 1 && (SMap.find old.pend (gearReq svc).addr).isSome then (s.gearAsked svc).gearCheck svc else s) s
  if s.regs == old.regs then s
  else
    let s := s.pfForget (windowChanged old s)
    let s := if s.get OBS_HIST_CFG.BIN0 == old.get OBS_HIST_CFG.BIN0 && s.get OBS_HIST_CFG.BIN2 == old.get OBS_HIST_CFG.BIN2 then s
      else s.inc OBS_HIST_GEN_CNT
    s.configChanged

/-! ### Trace packets of an edge (R495, R497) -/

/-- The port runs while enabled and not shed. -/
def State.traceRun (s : State) : State :=
  let s := s.traceShed
  if s.flag OBS_TRC_CTRL.EN && !s.flag OBS_TRC_STAT.SHED then s.putIf OBS_TRC_STAT.RUN 1
  else if s.flag OBS_TRC_STAT.RUN then s.traceOff else s

/-- The TICK packet. -/
def State.traceTick (s : State) : State :=
  s.trace 1 (leBytes 8 s.localNow ++ leBytes 8 s.laneNow ++ leBytes 8 s.consNow ++ leBytes 1 s.timeq ++ leBytes 1 (s.get SYS_STAT.MODE)
    ++ leBytes 2 0)

/-- What `f` does, with the trace packets it queues set aside as type and payload, because R497 queues others before them. -/
def State.aside (s : State) (f : State → State) : State × List (Nat × List Byte) :=
  let o := s.obs
  let s' := f { s with obs := { o with buf := [], lost := 0 } }
  let ps := s'.obs.buf.map (fun p => ((p.getD 1 0).toNat, (p.drop 6).take (p.getD 2 0).toNat))
  let buf := if s'.flag OBS_TRC_STAT.RUN then o.buf else []
  if s'.pwr.inReset then (s', [])
  else (({ s' with obs := { s'.obs with buf := buf, pseq := o.pseq, lost := o.lost } }).putIf OBS_TRC_STAT.LEVEL (traceLevel buf), ps)

/-- Packets set aside are queued. -/
def State.requeue (s : State) (ps : List (Nat × List Byte)) : State :=
  if s.flag OBS_TRC_STAT.RUN then ps.foldl (fun (s : State) p => s.queuePacket p.1 p.2) s else s

/-! ### Cold start of the lanes (R271) -/

/-- LANE is proposed as LOCAL at the start of a contest, where no other lane gives it (R271; until the first synchronisation it reads
0, and `laneSent` is LOCAL). -/
def State.proposeLane (s : State) : State :=
  if s.time.laneEver && !(s.laneSynced 0 || s.laneSynced 1) then s.setLane s.localNow true else s

/-- Lane `l` counts its listen and its wait, in local ticks (R270, R271). -/
def State.laneEdge (s : State) (l : Nat) : State :=
  let x := s.ln l
  match s.laneState l, x.wait with
  | 1, none => s.setLn l { x with listen := min 128 (x.listen + 1) }
  | 1, some k => if k ≤ 1 then (s.laneGoto l 2).proposeLane else s.setLn l { x with wait := some (k - 1) }
  | _, _ => s

/-! ### The twin pair at an edge (R340, R342, R345, R346, R350) -/

/-- The claiming module's claim follows its health grade, and counts as seen (R339, R340). -/
def State.claimEdge (s : State) : State :=
  if !s.claiming then s
  else
    let c := claimOf (s.get TWIN_EPOCH.EPOCH) s.grade s.serialLow
    (s.putIf TWIN_CLAIM.CLAIM c).ownSeen c

/-- H ages (R340). -/
def State.quietEdge (s : State) : State :=
  if s.twin.heard then { s with twin := { s.twin with quiet := 0, heard := false } }
  else { s with twin := { s.twin with quiet := min 3 (s.twin.quiet + 1) } }

/-- A module that has set YIELD stops claiming once a heartbeat shows the partner claiming (R342). -/
def State.yieldStop (s : State) : State :=
  match s.twin.hb with
  | some h => if s.claiming && s.flag TWIN_STAT.YIELD && s.twin.hbSince && h.claim != 0 then s.demote else s
  | none => s

/-- Counts of the twin link, and what this edge decides of takeover and YIELD. -/
def State.twinEdge (s : State) : State :=
  let got := s.twin.hbSince
  let s := if s.flag TWIN_STAT.PAIRED && !got then s.inc TWIN_HB_MISS_CNT else s
  let laneUp := s.laneSynced 0 || s.laneSynced 1
  let s := { s with twin := { s.twin with
    hbMiss := if got then 0 else min 3 (s.twin.hbMiss + 1)
    helloTicks := min 16384 (s.twin.helloTicks + 1)
    window := s.twin.window.map (fun k => min 64 (k + 1))
    noLane := if laneUp then 0 else min 16 (s.twin.noLane + 1)
    swap := s.twin.swap.map (fun k => min 16 (k + 1)) } }
  let s := ((s.claimEdge.quietEdge).yieldStop).startDecision
  let s := { s with twin := { s.twin with takeDue := s.mayTake, yieldDue := s.mayYield } }
  ({ s with twin := { s.twin with hbSince := false } }).showReady

/-- The heartbeat (R345): last in the order of R16, in every mode except BOOT. -/
def State.heartbeatEdge (s : State) : State := if s.get SYS_STAT.MODE == 0 then s else s.twinSend 2 s.heartbeat

/-! ### Counters of an edge (R12) -/

/-- Counts of local ticks that later commands judge. -/
def State.edgeCounts (s : State) : State :=
  let pds := (List.range 512).filter (fun n => s.flag (ECN_PD.EN n))
  let s := pds.foldl (fun (s : State) n => s.setPd n { s.pdOf n with ticks := (s.pdOf n).ticks + 1 }) s
  { s with
    regg := { s.regg with
      unlocks := s.regg.unlocks.map (fun (p : Nat × Unlock) => (p.1, { p.2 with edges := min 2 (p.2.edges + 1) }))
      graceEdges := if s.flag REGG_STAT.CFG_WAIT && !s.regg.waitEdge then min 256 (s.regg.graceEdges + 1) else s.regg.graceEdges }
    cyc := { s.cyc with
      since := s.cyc.since.map (· + 1)
      refresh := (List.range 5).map (fun k => (k, SMap.getD s.cyc.refresh k 0 + 1)) }
    obs := { s.obs with pubTicks := s.obs.pubTicks.map (· + 1) }
    tri := { s.tri with testTicks := s.tri.testTicks + 1 }
    trip := { s.trip with testTicks := s.trip.testTicks + 1 }
    recd := { s.recd with since := s.recd.since.map (fun (p : Nat × Nat) => (p.1, p.2 + 1)) }
    lanes := { s.lanes with edges := s.lanes.edges + 1 } }

/-- What the module measures and shows at an edge (R284, R405, R411, R414, R417, R441). -/
def State.edgeShow (s : State) (i : EdgeIn) : State :=
  let now := s.localNow
  let s := { s with pwr := { s.pwr with rcoEdge := s.pwr.rcoEdge + i.rco } }
  let s := ((s.add SYS_RTC.RTC i.rtc).putIf PWR_STAT.SUP_V i.supV).putIf PWR_HOLD.HOLD_V i.holdV
  let s := s.putIf PWR_STAT.RAIL_OK i.railOk.toNat
  let s := (List.range 8).foldl (fun (s : State) g => s.putIf (DIO_GSTAT.VG g) (i.groupV.getD g 0)) s
  let s := (List.range 4).foldl (fun (s : State) c => s.putIf (LOOP_CH_STAT.CD c) (bitOf i.carriers c).toNat) s
  let s := s.putIf SYS_WDG_STAT.REMAIN (min 255 ((s.pwr.wdgAt + s.wdgTmo * 1000000 - s.pwr.rcoEdge) / 1000000))
  let s := if s.flag UPD_STAT.TRIAL && s.get SYS_STAT.MODE != 0 then
      s.putIf UPD_CONF_LEFT.LEFT ((s.boot.exitAt + s.confWin * 1000000000 - now) / 1000000000)
    else s
  let s := if s.flag TIME_STAT.LANE_FW then s.addSat TIME_LANE_HOLD.HOLD 1 else s
  if s.flag TIME_STAT.CONS_FW then s.addSat TIME_CONS_HOLD.HOLD 1 else s

/-- The term bank asked for becomes active (R205). -/
def State.tripSwapEdge (s : State) : State :=
  if s.flag TRIP_STAT.SWAP_PEND then (s.put TRIP_STAT.BANK s.trip.swapTo).putFlag TRIP_STAT.SWAP_PEND false else s

/-- A deferred activation whose module has demoted: it takes place at the first edge after that (R440). -/
def State.deferEdge (s : State) : State :=
  if s.boot.deferSwap && s.get SYS_STAT.MODE == 2 then ({ s with boot := { s.boot with deferSwap := false } }).activate else s

/-! ### The edge -/

/-- LOCAL at the next edge: the next whole multiple of 62,500 ns, or in bypass the first step of 40 ns at or past it (R12, R397). -/
def State.nextEdge (s : State) : Nat :=
  let n := (s.time.edge / tickNs + 1) * tickNs
  if s.flag CLK_STAT.BYPASS then n + (s.clk.phase + 40 - n % 40) % 40 else n

/-- Everything ahead of the publication: samples, commands, decisions and the input areas (R16, R64, R95, R111). -/
def State.edgeFirst (i : EdgeIn) (s : State) : State :=
  let s := (s.edgeShow i).dioTick.loopTick i.loops
  let s := (([0, 1].foldl State.laneEdge s).resetTick).releaseTick
  let s := s.deferEdge.twinEdge.tsetCheck
  let s := (s.putIf CYC_STAT.STILL s.still.toNat).cycCommands.holdCheck.stopEdge
  let s := (s.putIf CYC_STAT.KICK (s.get CYC_STAT.PSTATE == 0).toNat).tripSwapEdge
  (s.gwSwap.gwTick.safeEdge).twinAreaTick

/-- Publication, latch and cycle start; TAKEN has been shown once an image has been latched (R96, R99, R101, R347). -/
def State.edgeCycle (s : State) : State :=
  let n := s.get CYC_CYCLE_CNT
  let s := s.publishEdge.cycleEdge
  if s.get CYC_CYCLE_CNT == n then s else { s with twin := { s.twin with taken := false } }

/-- LOCAL_TICK_EDGE (R12, R16). While the module is in reset or DORMANT there is none. Until LANE is first synchronised the edge is also a
lane tick boundary (R14). Stores that an exclusion at this edge lets resolve are resolved (R73). -/
def execLocalTickEdge (i : EdgeIn) (s : State) : Result :=
  if s.pwr.inReset || s.pwr.dormant then .next s
  else
    let s := ({ s with time := { s.time with edge := s.nextEdge } }).at_ 0
    let out := [0, 1, 2].filter (fun n => (s.core n).st == .excluded)
    let (s, p1) := s.edgeCounts.aside State.strobeEdge
    let s := s.traceRun.traceTick
    let (s, p2) := s.aside (State.edgeFirst i)
    if s.pwr.inReset then .next s
    else
      let s := (s.edgeCycle.requeue (p1 ++ p2)).startCopies out
      let s := ((s.heartbeatEdge.mailboxEdge i.unitBad).mvbTick.pdPulls).gptpEdge
      (if s.time.laneEver then s else s.boundaryNow).showTime.resolveStores 0 64

end Sys2Proof.Machine
end

