-- ==== Sys2Proof/Machine/Motion.lean ====
section
/-! DEFINITION. Machine/Motion.lean: program motion commands by slot, direct control, groups and interpolation
(R168, R176, R178 to R183). -/
namespace Sys2Proof.Machine
open Reg

/-- A motion command as its slot holds it (R178). -/
structure Slot where
  seq : Nat
  op : Nat
  index : Nat
  set : Nat
  group : Bool
  target : Int
  deriving DecidableEq, Repr

/-- Slot `k` of the latest publication. -/
def State.slotOf (s : State) (k : Nat) : Slot :=
  let b := (s.door.slots.drop (16 * k)).take 16
  let v := fun i => (b.getD i 0).toNat
  ⟨v 0, v 1, v 2, v 3 % 16, bitOf (v 3) 4, toSigned 32 (leNat ((b.drop 4).take 4))⟩

/-- The slot's result: its SEQ taken, 0 accepted or 1 refused (R178); a refusal counts where `count` says so (R168, R179). -/
def State.slotDone (s : State) (k : Nat) (ok count : Bool) : State :=
  let s := { s with door := { s.door with
    slotSeq := SMap.set s.door.slotSeq k (s.slotOf k).seq, slotRes := SMap.set s.door.slotRes k (!ok).toNat } }
  (if !ok && count then s.inc MOT_CMD_REJ_CNT else s).showMotion

/-- Whether slot `k` holds a command that has not been taken. -/
def State.slotNew (s : State) (k : Nat) : Bool := (s.slotOf k).seq != SMap.getD s.door.slotSeq k 0

/-- Whether slot `k` holds a new command with code `op`, which the generator takes with the first pass after its publication (R178), once
the slots before it are taken (R176). -/
def State.slotDue (s : State) (k op : Nat) : Bool :=
  k < 16 && s.door.passed && !s.door.slotsNew && s.door.slots.length == 256 && (s.slotOf k).op == op && s.slotNew k
    && (List.range k).all (fun i => !s.slotNew i)

/-- Whether nothing above program commands has acted on axis `n` in this pass (R176, R177). -/
def State.slotFree (s : State) (n : Nat) : Bool := n < 96 && s.axUsed n && !(s.mx n).acted && !s.door.kick

/-- Mode SERVICE at standstill, the axis under direct control (R179), and neither in EGRESS nor in ISOLATED (R149). -/
def State.directOk (s : State) (n : Nat) : Bool :=
  s.slotFree n && s.get SYS_STAT.MODE == 1 && s.still && s.flag (MOT_AS.DIRECT n) && !(s.mx n).giveUp && s.dst n != 7 && s.dst n != 8

/-- A queue whose head is a GROUP entry, at rest: it waits for its GSTART (R181). -/
def State.waitGroup (s : State) (n : Nat) (queue : List Move) : State :=
  ((s.setMx n { s.mx n with queue := queue }).put (MOT_AS.MSTATE n) 6).showQueue n

/-- A move appended to the queue of axis `n` (R166 to R168): behind a GROUP head that still waits, and behind a member of an interpolation,
which goes on as it is, without a new plan (R181, R182). -/
def State.append (s : State) (n : Nat) (m : Move) : State :=
  let (s, m) := s.clampMove n m
  let x := s.mx n
  match x.queue with
  | [] =>
    if !m.group then s.planAxis n [m] m.set false
    else if x.legs.isEmpty then s.waitGroup n [m]
    else ((s.setMx n { x with queue := [m] }).put (MOT_AS.MSTATE n) 1).showQueue n
  | h :: _ =>
    let q := x.queue ++ [m]
    if x.legs.isEmpty then s.waitGroup n q
    else if h.group || x.interp != 0 then (s.setMx n { x with queue := q }).showQueue n
    else ((s.setMx n { x with queue := q, legs := (s.path n x.st q h.set false).1 }).showSlowed n).showQueue n

/-- MOVE (R168, R179): one that finds the queue full sets QFULL and is no refused program command for MOT_CMD_REJ_CNT (assumption
168). -/
def execMove (t slot : Nat) (s : State) : Result :=
  let s := s.at_ t
  if !s.slotDue slot 1 then .next s
  else
    let c := s.slotOf slot
    if !s.directOk c.index then .next (s.slotDone slot false true)
    else if 8 ≤ (s.mx c.index).queue.length then .next ((s.inc MOT_QFULL_CNT).slotDone slot false false)
    else if s.limitRefuses c.index (s.queueEnd c.index) c.target then .next (s.slotDone slot false true)
    else .next ((s.append c.index ⟨c.target, c.set, c.group⟩).slotDone slot true false)

/-- REPLACE (R170, R179): the queue becomes this move; a GROUP move stops first and waits. -/
def execReplace (t slot : Nat) (s : State) : Result :=
  let s := s.at_ t
  if !s.slotDue slot 2 then .next s
  else
    let c := s.slotOf slot
    let n := c.index
    if !s.directOk n || s.limitRefuses n (s.mx n).st.p c.target then .next (s.slotDone slot false true)
    else
      let (s, m) := s.clampMove n ⟨c.target, c.set, c.group⟩
      let x := s.mx n
      let s :=
        if !m.group then s.planAxis n [m] m.set false
        else if x.st.moving then
          let rev := needsStop x.st (m.target * pScale) (s.limOf n m.set)
          let g := s.stopFrom n x.st m.set (if rev then some m.target else none)
          let s := if rev then (s.inc MOT_REV_CNT).accWindow n else s
          ((s.setMx n { x with legs := [g], queue := [m], set := g.set }).put (MOT_AS.MSTATE n) 1).showQueue n
        else s.waitGroup n [m]
      .next (s.slotDone slot true false)

/-- The axes of motion group `g` (R181). -/
def State.groupAxes (s : State) (g : Nat) : List Nat := s.axes.filter (fun n => s.get (MOT_AX_STILL.MGRP n) == g)

/-- Whether GSTART is allowed for group `g` (R179): every axis holds a GROUP entry at its queue head, at rest. -/
def State.groupOk (s : State) (g : Nat) : Bool :=
  let l := s.groupAxes g
  !l.isEmpty && l.all (fun n => s.directOk n && !(s.mx n).st.moving && (s.mx n).legs.isEmpty
    && match (s.mx n).queue with | m :: _ => m.group | [] => false)

/-- The queue with its head released. -/
def releaseHead : List Move → List Move
  | m :: t => { m with group := false } :: t
  | [] => []

/-- The waiting head of axis `n` starts with its own set (R181). -/
def State.startHead (s : State) (n : Nat) : State :=
  let q := releaseHead (s.mx n).queue
  s.planAxis n q (match q with | m :: _ => m.set | [] => 0) false

/-- GSTART (R181). -/
def execGstart (t slot : Nat) (s : State) : Result :=
  let s := s.at_ t
  if !s.slotDue slot 3 then .next s
  else
    let g := (s.slotOf slot).index
    if 16 ≤ g || !s.groupOk g then .next (s.slotDone slot false true)
    else .next (((s.groupAxes g).foldl State.startHead s).slotDone slot true false)

/-- Distance of the head move of axis `n`, in scaled units. -/
def State.headDist (s : State) (n : Nat) : Int :=
  match (s.mx n).queue with | m :: _ => m.target * pScale - (s.mx n).st.p | [] => 0

/-- The lead's segments scaled to another axis: jerks times its distance over the lead's (R182). -/
def scaleSegs (l : List Seg) (dist lead : Int) : List Seg :=
  if lead = 0 then [] else l.map (fun (g : Seg) => ⟨roundDiv (g.jerk * dist * sgn lead) (lead.natAbs : Int), g.dur⟩)

/-- Whether segments of axis `n` pass its own stopping check of R172, in either direction. -/
def State.softPath (s : State) (n : Nat) (segs : List Seg) : Bool :=
  match s.soft n with
  | none => true
  | some (lo, hi) =>
    let x := (s.mx n).st
    (samples x segs).all (fun p => (p.v ≤ 0 || stopPoint p (s.obLim n) ≤ hi) && (0 ≤ p.v || lo ≤ stopPoint p (s.obLim n)))

/-- The lead's segments, slowed as a whole until every member passes its check (R182). -/
def State.leadSegs (s : State) (l : List Nat) (lead : Nat) : List Seg × Bool :=
  match (s.mx lead).queue with
  | [] => ([], false)
  | m :: _ =>
    let lim := s.limOf lead m.set
    let (full, slow) := planMove (s.mx lead).st (m.target * pScale) 0 lim (s.obLim lead) (s.soft lead)
    let d := s.headDist lead
    let ok := fun segs => l.all (fun n => s.softPath n (scaleSegs segs (s.headDist n) d))
    if ok full then (full, slow)
    else
      let at_ := fun k => (planMove (s.mx lead).st (m.target * pScale) 0 { lim with vmax := k } (s.obLim lead) (s.soft lead)).1
      (at_ (greatest (fun k => k ≤ lim.vmax && ok (at_ k)) 31 0), true)

/-- One member of an interpolation starts (R182); the moves behind its head follow once it has arrived. -/
def State.startMember (s : State) (g : Nat) (segs : List Seg) (lead : Int) (slow : Bool) (n : Nat) : State :=
  match (s.mx n).queue with
  | [] => s
  | m :: t =>
    let leg : Leg := ⟨scaleSegs segs (s.headDist n) lead, false, m.set, PV.rest m.target, none, slow⟩
    let s := s.setMx n { s.mx n with legs := [leg], queue := { m with group := false } :: t, set := m.set, enable := true, hold := 0, interp := g + 1 }
    ((((s.showSlowed n).put (MOT_AS.MSTATE n) 1).moveStarts n).showQueue n)

/-- GSTART_INTERP (R182): the axis with the longest distance leads. -/
def execGstartInterp (t slot : Nat) (s : State) : Result :=
  let s := s.at_ t
  if !s.slotDue slot 4 then .next s
  else
    let g := (s.slotOf slot).index
    if 16 ≤ g || !s.groupOk g then .next (s.slotDone slot false true)
    else
      let l := s.groupAxes g
      let lead := l.foldl (fun a n => if (s.headDist a).natAbs < (s.headDist n).natAbs then n else a) (l.headD 0)
      let (segs, slow) := s.leadSegs l lead
      let d := s.headDist lead
      .next ((l.foldl (fun s' n => s'.startMember g segs d slow n) s).slotDone slot true false)

/-- HOME (R149, R179, R183) (assumption 187). -/
def execHome (t slot : Nat) (s : State) : Result :=
  let s := s.at_ t
  if !s.slotDue slot 5 then .next s
  else
    let n := (s.slotOf slot).index
    let mode := s.get SYS_STAT.MODE
    if s.slotFree n && (mode == 1 || mode == 3) && s.still && !s.flag (MOT_AS.HOMED n) && !s.homing n && s.homeLane n
        && s.dst n != 7 && s.dst n != 8 then
      .next ((s.startHoming n).slotDone slot true false)
    else .next (s.slotDone slot false true)

/-- STOP of one axis (R175, R179). -/
def execMotionStop (t slot : Nat) (s : State) : Result :=
  let s := s.at_ t
  if !s.slotDue slot 6 then .next s
  else
    let n := (s.slotOf slot).index
    if s.slotFree n && s.flag (MOT_AS.DIRECT n) then .next ((s.stopAxis n 10).slotDone slot true false)
    else .next (s.slotDone slot false true)

/-- TAKE (R179, R180). -/
def execTake (t slot : Nat) (s : State) : Result :=
  let s := s.at_ t
  if !s.slotDue slot 7 then .next s
  else
    let n := (s.slotOf slot).index
    let k := s.dst n
    if s.slotFree n && s.get SYS_STAT.MODE == 1 && s.still && s.flag (MOT_AS.HOMED n) && !(s.mx n).st.moving && (s.mx n).legs.isEmpty
        && (k == 1 || k == 3 || k == 4 || k == 6 || k == 9) then
      let s := (s.put (MOT_AS.DIRECT n) 1).setMx n { s.mx n with giveUp := false }
      .next ((s.setDax n { s.dax n with resume := false, stroke := none }).slotDone slot true false)
    else .next (s.slotDone slot false true)

/-- GIVE (R179, R180): the state is derived (assumption 186). -/
def execGive (t slot : Nat) (s : State) : Result :=
  let s := s.at_ t
  if !s.slotDue slot 8 then .next s
  else
    let n := (s.slotOf slot).index
    if s.slotFree n && s.flag (MOT_AS.DIRECT n) && !(s.mx n).st.moving then
      let s := (s.put (MOT_AS.DIRECT n) 0).derive n
      .next ((s.showDoor).slotDone slot true false)
    else .next (s.slotDone slot false true)

end Sys2Proof.Machine
end

