-- ==== Sys2Proof/Machine/Dispatch.lean ====
section
/-! DEFINITION. Machine/Dispatch.lean: one arm per command, each a direct call of its meaning. -/
namespace Sys2Proof.Machine

def exec (i : Instr) (s : State) : Host.Outcome State Fault Refusal :=
  match i with
  | .localTickEdge inputs => Sys2Proof.Machine.execLocalTickEdge inputs s
  | .laneTickBoundary t => Sys2Proof.Machine.execLaneTickBoundary t s
  | .streamAgeStale m => Sys2Proof.Machine.execStreamAgeStale m s
  | .registerWrite t who addr size data => Sys2Proof.Machine.execRegisterWrite t who addr size data s
  | .popRead64 t who core win => Sys2Proof.Machine.execPopRead64 t who core win s
  | .popReadLow t who core win => Sys2Proof.Machine.execPopReadLow t who core win s
  | .popReadHigh t who core win => Sys2Proof.Machine.execPopReadHigh t who core win s
  | .popRead32 t who core win => Sys2Proof.Machine.execPopRead32 t who core win s
  | .reggUnlock who key block => Sys2Proof.Machine.execReggUnlock who key block s
  | .unlockExpiry who => Sys2Proof.Machine.execUnlockExpiry who s
  | .reggStrobe who groups => Sys2Proof.Machine.execReggStrobe who groups s
  | .cfgPassEnd t => Sys2Proof.Machine.execCfgPassEnd t s
  | .cfgGraceEnd t => Sys2Proof.Machine.execCfgGraceEnd t s
  | .cycleStartInterrupt t core => Sys2Proof.Machine.execCycleStartInterrupt t core s
  | .outputImageStore t core off size data => Sys2Proof.Machine.execOutputImageStore t core off size data s
  | .triDeviceStore t core addr size data => Sys2Proof.Machine.execTriDeviceStore t core addr size data s
  | .deviceStoreTimeout t => Sys2Proof.Machine.execDeviceStoreTimeout t s
  | .storeQueueResume t core => Sys2Proof.Machine.execStoreQueueResume t core s
  | .tchkWrite t who core acc => Sys2Proof.Machine.execTchkWrite t who core acc s
  | .cycDoneWrite t core value => Sys2Proof.Machine.execCycDoneWrite t core value s
  | .coreFaultHalt t core => Sys2Proof.Machine.execCoreFaultHalt t core s
  | .eccCorrected => Sys2Proof.Machine.execEccCorrected s
  | .windowTimeout t => Sys2Proof.Machine.execWindowTimeout t s
  | .voterDecision t fa fb => Sys2Proof.Machine.execVoterDecision t fa fb s
  | .voterTestDue t fa fb => Sys2Proof.Machine.execVoterTestDue t fa fb s
  | .stateCopyComplete t core ok => Sys2Proof.Machine.execStateCopyComplete t core ok s
  | .publicationComplete t => Sys2Proof.Machine.execPublicationComplete t s
  | .cycleOverrun t => Sys2Proof.Machine.execCycleOverrun t s
  | .cycleHang t => Sys2Proof.Machine.execCycleHang t s
  | .refreshTimeout t who => Sys2Proof.Machine.execRefreshTimeout t who s
  | .start t who => Sys2Proof.Machine.execStart t who s
  | .stop t who => Sys2Proof.Machine.execStop t who s
  | .hold t who => Sys2Proof.Machine.execHold t who s
  | .resume t who => Sys2Proof.Machine.execResume t who s
  | .step t who => Sys2Proof.Machine.execStep t who s
  | .arm t who id bindings => Sys2Proof.Machine.execArm t who id bindings s
  | .disarm t who => Sys2Proof.Machine.execDisarm t who s
  | .forceBind t who entry ctrl => Sys2Proof.Machine.execForceBind t who entry ctrl s
  | .forceRelease t who entry ctrl => Sys2Proof.Machine.execForceRelease t who entry ctrl s
  | .forceValueWrite t who entry value => Sys2Proof.Machine.execForceValueWrite t who entry value s
  | .feedbackDeadline t mismatch dur plan => Sys2Proof.Machine.execFeedbackDeadline t mismatch dur plan s
  | .feedbackFaultTimeout t n => Sys2Proof.Machine.execFeedbackFaultTimeout t n s
  | .lockTimeout t n => Sys2Proof.Machine.execLockTimeout t n s
  | .reopenDwellEnd t n => Sys2Proof.Machine.execReopenDwellEnd t n s
  | .accWinEnd t n => Sys2Proof.Machine.execAccWinEnd t n s
  | .envelopeUpdate t n => Sys2Proof.Machine.execEnvelopeUpdate t n s
  | .holdMsEnd t n => Sys2Proof.Machine.execHoldMsEnd t n s
  | .move t slot => Sys2Proof.Machine.execMove t slot s
  | .replace t slot => Sys2Proof.Machine.execReplace t slot s
  | .gstart t slot => Sys2Proof.Machine.execGstart t slot s
  | .gstartInterp t slot => Sys2Proof.Machine.execGstartInterp t slot s
  | .home t slot => Sys2Proof.Machine.execHome t slot s
  | .motionStop t slot => Sys2Proof.Machine.execMotionStop t slot s
  | .take t slot => Sys2Proof.Machine.execTake t slot s
  | .give t slot => Sys2Proof.Machine.execGive t slot s
  | .limitTrip t n => Sys2Proof.Machine.execLimitTrip t n s
  | .homeEdgeQualified t n => Sys2Proof.Machine.execHomeEdgeQualified t n s
  | .homingTimeout t n => Sys2Proof.Machine.execHomingTimeout t n s
  | .tripEvaluation t f0 f1 f2 xfail => Sys2Proof.Machine.execTripEvaluation t f0 f1 f2 xfail s
  | .tripVoterTest t f0 f1 f2 xfail => Sys2Proof.Machine.execTripVoterTest t f0 f1 f2 xfail s
  | .tripSwap t who bank => Sys2Proof.Machine.execTripSwap t who bank s
  | .eventSpoke t => Sys2Proof.Machine.execEventSpoke t s
  | .spokeRx t lane frame fcs => Sys2Proof.Machine.execSpokeRx t lane frame fcs s
  | .sourceLoss t src => Sys2Proof.Machine.execSourceLoss t src s
  | .resetRelease t fn => Sys2Proof.Machine.execResetRelease t fn s
  | .resetHighTooLong t fn => Sys2Proof.Machine.execResetHighTooLong t fn s
  | .tripRestart t who fn => Sys2Proof.Machine.execTripRestart t who fn s
  | .safeTxBuild t n unit => Sys2Proof.Machine.execSafeTxBuild t n unit s
  | .safeTelegramRx t n telegram unit => Sys2Proof.Machine.execSafeTelegramRx t n telegram unit s
  | .safeRxTimeout t n => Sys2Proof.Machine.execSafeRxTimeout t n s
  | .sessionOpen t who n => Sys2Proof.Machine.execSessionOpen t who n s
  | .sessionClose t who n => Sys2Proof.Machine.execSessionClose t who n s
  | .crcData who e data => Sys2Proof.Machine.execCrcData who e data s
  | .crcData64 who e data => Sys2Proof.Machine.execCrcData64 who e data s
  | .job who e => Sys2Proof.Machine.execJob who e s
  | .crcJobDone e => Sys2Proof.Machine.execCrcJobDone e s
  | .save who e k => Sys2Proof.Machine.execSave who e k s
  | .load who e k => Sys2Proof.Machine.execLoad who e k s
  | .crcInit who e => Sys2Proof.Machine.execCrcInit who e s
  | .crcValWrite who e val => Sys2Proof.Machine.execCrcValWrite who e val s
  | .crcCfgWrite who e cfg folded => Sys2Proof.Machine.execCrcCfgWrite who e cfg folded s
  | .snoopFrameEnd e key data addr fcs => Sys2Proof.Machine.execSnoopFrameEnd e key data addr fcs s
  | .frameForward t lane fromDn frame residence fcs => Sys2Proof.Machine.execFrameForward t lane fromDn frame residence fcs s
  | .laneLinkUp t lane dn => Sys2Proof.Machine.execLaneLinkUp t lane dn s
  | .laneLinkDown t lane dn => Sys2Proof.Machine.execLaneLinkDown t lane dn s
  | .preemptVerifyDone t lane dn ok => Sys2Proof.Machine.execPreemptVerifyDone t lane dn ok s
  | .scheduledFrameTx t lane entry => Sys2Proof.Machine.execScheduledFrameTx t lane entry s
  | .syncRx t lane dn frame fcs => Sys2Proof.Machine.execSyncRx t lane dn frame fcs s
  | .coldstartRx t lane dn frame fcs => Sys2Proof.Machine.execColdstartRx t lane dn frame fcs s
  | .pdelayReq t lane dn frame fcs turn => Sys2Proof.Machine.execPdelayReq t lane dn frame fcs turn s
  | .pdelayResp t lane dn t1 t4 frame fcs => Sys2Proof.Machine.execPdelayResp t lane dn t1 t4 frame fcs s
  | .statusRx t lane frame fcs => Sys2Proof.Machine.execStatusRx t lane frame fcs s
  | .dataRx t lane frame fcs => Sys2Proof.Machine.execDataRx t lane frame fcs s
  | .feedbackRx t lane frame fcs => Sys2Proof.Machine.execFeedbackRx t lane frame fcs s
  | .listenEnd t lane => Sys2Proof.Machine.execListenEnd t lane s
  | .contestWindowEnd t lane => Sys2Proof.Machine.execContestWindowEnd t lane s
  | .syncLoss t lane => Sys2Proof.Machine.execSyncLoss t lane s
  | .masterSilent t lane => Sys2Proof.Machine.execMasterSilent t lane s
  | .announceCadence t who cid => Sys2Proof.Machine.execAnnounceCadence t who cid s
  | .announceActivate t who cid => Sys2Proof.Machine.execAnnounceActivate t who cid s
  | .cancel t who => Sys2Proof.Machine.execCancel t who s
  | .modeChangeDecision t => Sys2Proof.Machine.execModeChangeDecision t s
  | .bankSwitch t => Sys2Proof.Machine.execBankSwitch t s
  | .laneFreewheel t => Sys2Proof.Machine.execLaneFreewheel t s
  | .ptpSyncRx t port domain gm => Sys2Proof.Machine.execPtpSyncRx t port domain gm s
  | .ptpAnnounceRx t port ann => Sys2Proof.Machine.execPtpAnnounceRx t port ann s
  | .ptpReceiptTimeout t port => Sys2Proof.Machine.execPtpReceiptTimeout t port s
  | .consistHoldoverExpiry t => Sys2Proof.Machine.execConsistHoldoverExpiry t s
  | .ecnLinkChange t port speed asCapable role => Sys2Proof.Machine.execEcnLinkChange t port speed asCapable role s
  | .ecnFrameRx t port frame fcs => Sys2Proof.Machine.execEcnFrameRx t port frame fcs s
  | .ecnTailWrite t who ring tail => Sys2Proof.Machine.execEcnTailWrite t who ring tail s
  | .ecnLaunch t port q => Sys2Proof.Machine.execEcnLaunch t port q s
  | .pdPublish t n => Sys2Proof.Machine.execPdPublish t n s
  | .pdPullRequest t comId => Sys2Proof.Machine.execPdPullRequest t comId s
  | .pdTelegramRx t n src msg comId seq etb optrn major fcs dataset => Sys2Proof.Machine.execPdTelegramRx t n src msg comId seq etb optrn major fcs dataset s
  | .pdSubscriberTimeout t n => Sys2Proof.Machine.execPdSubscriberTimeout t n s
  | .captureEdge t n => Sys2Proof.Machine.execCaptureEdge t n s
  | .mvbSinkFrame t n data okA okB => Sys2Proof.Machine.execMvbSinkFrame t n data okA okB s
  | .mvbMasterFrame t n => Sys2Proof.Machine.execMvbMasterFrame t n s
  | .mvbStatusRequest t => Sys2Proof.Machine.execMvbStatusRequest t s
  | .mvbSinkStale n => Sys2Proof.Machine.execMvbSinkStale n s
  | .mvbLineSwitch toB => Sys2Proof.Machine.execMvbLineSwitch toB s
  | .gwMapSwap t who bank => Sys2Proof.Machine.execGwMapSwap t who bank s
  | .mapScanDone t => Sys2Proof.Machine.execMapScanDone t s
  | .gwEntryStale t e => Sys2Proof.Machine.execGwEntryStale t e s
  | .inputFilteredEdge t ch level => Sys2Proof.Machine.execInputFilteredEdge t ch level s
  | .wettingEnd t ch => Sys2Proof.Machine.execWettingEnd t ch s
  | .outputShort t ch => Sys2Proof.Machine.execOutputShort t ch s
  | .groupUvSet t g => Sys2Proof.Machine.execGroupUvSet t g s
  | .groupUvClear t g => Sys2Proof.Machine.execGroupUvClear t g s
  | .groupOvSet t g => Sys2Proof.Machine.execGroupOvSet t g s
  | .groupOvClear t g => Sys2Proof.Machine.execGroupOvClear t g s
  | .groupOvcSet t g => Sys2Proof.Machine.execGroupOvcSet t g s
  | .groupOvcEnd t g => Sys2Proof.Machine.execGroupOvcEnd t g s
  | .readbackMismatch t ch level => Sys2Proof.Machine.execReadbackMismatch t ch level s
  | .groupSwitchTest t g fell => Sys2Proof.Machine.execGroupSwitchTest t g fell s
  | .tripSilence t => Sys2Proof.Machine.execTripSilence t s
  | .driverRefreshLoss t target => Sys2Proof.Machine.execDriverRefreshLoss t target s
  | .darkTestStart t ch => Sys2Proof.Machine.execDarkTestStart t ch s
  | .lightTestStart t ch => Sys2Proof.Machine.execLightTestStart t ch s
  | .testPulseEnd t ch a b => Sys2Proof.Machine.execTestPulseEnd t ch a b s
  | .channelFaultClear t ch => Sys2Proof.Machine.execChannelFaultClear t ch s
  | .loopFault t c => Sys2Proof.Machine.execLoopFault t c s
  | .loopRetry t who mask => Sys2Proof.Machine.execLoopRetry t who mask s
  | .loopAutoRetry t c => Sys2Proof.Machine.execLoopAutoRetry t c s
  | .loopCompliance c sat => Sys2Proof.Machine.execLoopCompliance c sat s
  | .hartGo t who c len => Sys2Proof.Machine.execHartGo t who c len s
  | .hartFrameRx t c frame burst => Sys2Proof.Machine.execHartFrameRx t c frame burst s
  | .hartTimeout t c => Sys2Proof.Machine.execHartTimeout t c s
  | .twinLinkUp t => Sys2Proof.Machine.execTwinLinkUp t s
  | .twinLinkDown t => Sys2Proof.Machine.execTwinLinkDown t s
  | .helloTx t => Sys2Proof.Machine.execHelloTx t s
  | .hello t frame crc => Sys2Proof.Machine.execHello t frame crc s
  | .heartbeat t frame crc => Sys2Proof.Machine.execHeartbeat t frame crc s
  | .claimExpiry t => Sys2Proof.Machine.execClaimExpiry t s
  | .claimWindowEnd t => Sys2Proof.Machine.execClaimWindowEnd t s
  | .takeover t => Sys2Proof.Machine.execTakeover t s
  | .yield t => Sys2Proof.Machine.execYield t s
  | .pannier t frame crc => Sys2Proof.Machine.execPannier t frame crc s
  | .image t frame crc => Sys2Proof.Machine.execImage t frame crc s
  | .swap t who => Sys2Proof.Machine.execSwap t who s
  | .swapUnready t who => Sys2Proof.Machine.execSwapUnready t who s
  | .swapTimeout t => Sys2Proof.Machine.execSwapTimeout t s
  | .rackOutboundAccess t who acc => Sys2Proof.Machine.execRackOutboundAccess t who acc s
  | .rackStatusCycle t win status reqs => Sys2Proof.Machine.execRackStatusCycle t win status reqs s
  | .rackRetryReissue t win => Sys2Proof.Machine.execRackRetryReissue t win s
  | .rackResponse t card pos tag err par beats reqs => Sys2Proof.Machine.execRackResponse t card pos tag err par beats reqs s
  | .rackResponseTimeout t tag => Sys2Proof.Machine.execRackResponseTimeout t tag s
  | .rackInboundRequest t pos tag cmd addr be data par reqs => Sys2Proof.Machine.execRackInboundRequest t pos tag cmd addr be data par reqs s
  | .rackInboundComplete t pos tag reqs => Sys2Proof.Machine.execRackInboundComplete t pos tag reqs s
  | .rackLockedSequence t who addr size acc => Sys2Proof.Machine.execRackLockedSequence t who addr size acc s
  | .rackLockTimeout t => Sys2Proof.Machine.execRackLockTimeout t s
  | .prefetchExpiry t => Sys2Proof.Machine.execPrefetchExpiry t s
  | .brgPfFlush t who flush => Sys2Proof.Machine.execBrgPfFlush t who flush s
  | .clockMonitorWindow t ab ar br => Sys2Proof.Machine.execClockMonitorWindow t ab ar br s
  | .clockSourceDead t src => Sys2Proof.Machine.execClockSourceDead t src s
  | .qualifyTimeout t src => Sys2Proof.Machine.execQualifyTimeout t src s
  | .doubtTimeout t => Sys2Proof.Machine.execDoubtTimeout t s
  | .xobProofStart t => Sys2Proof.Machine.execXobProofStart t s
  | .crystalRestart t src => Sys2Proof.Machine.execCrystalRestart t src s
  | .pllLossOfLock t => Sys2Proof.Machine.execPllLossOfLock t s
  | .domainSwitchForced t dom => Sys2Proof.Machine.execDomainSwitchForced t dom s
  | .gearChangeDone t svc => Sys2Proof.Machine.execGearChangeDone t svc s
  | .gearChangeAbandon t svc => Sys2Proof.Machine.execGearChangeAbandon t svc s
  | .holdupEntry t sup => Sys2Proof.Machine.execHoldupEntry t sup s
  | .holdupExit t sup => Sys2Proof.Machine.execHoldupExit t sup s
  | .stage1Entry t sup => Sys2Proof.Machine.execStage1Entry t sup s
  | .stage2Entry t sup => Sys2Proof.Machine.execStage2Entry t sup s
  | .stage3Entry t hold => Sys2Proof.Machine.execStage3Entry t hold s
  | .stage4Entry t hold => Sys2Proof.Machine.execStage4Entry t hold s
  | .stageLeave t sup hold => Sys2Proof.Machine.execStageLeave t sup hold s
  | .flushDeadline t => Sys2Proof.Machine.execFlushDeadline t s
  | .dormantExit => Sys2Proof.Machine.execDormantExit s
  | .railFault t => Sys2Proof.Machine.execRailFault t s
  | .powerOnReset => Sys2Proof.Machine.execPowerOnReset s
  | .brownOutReset => Sys2Proof.Machine.execBrownOutReset s
  | .extReset t => Sys2Proof.Machine.execExtReset t s
  | .watchdogExpiry t rco => Sys2Proof.Machine.execWatchdogExpiry t rco s
  | .sys t who => Sys2Proof.Machine.execSys t who s
  | .core t who target => Sys2Proof.Machine.execCore t who target s
  | .domain t who target => Sys2Proof.Machine.execDomain t who target s
  | .resetSequence ok rco => Sys2Proof.Machine.execResetSequence ok rco s
  | .wdgKick t rco who key => Sys2Proof.Machine.execWdgKick t rco who key s
  | .wdgCfgWrite t who tmo win => Sys2Proof.Machine.execWdgCfgWrite t who tmo win s
  | .tamperOpening ticks => Sys2Proof.Machine.execTamperOpening ticks s
  | .bootChain t fw0 fw1 imgA imgB sup r0 r1 r2 => Sys2Proof.Machine.execBootChain t fw0 fw1 imgA imgB sup r0 r1 r2 s
  | .slotIdRetry t r0 r1 r2 => Sys2Proof.Machine.execSlotIdRetry t r0 r1 r2 s
  | .startScanDone t => Sys2Proof.Machine.execStartScanDone t s
  | .lampTestEnd t => Sys2Proof.Machine.execLampTestEnd t s
  | .lockoutEdgeRelease t => Sys2Proof.Machine.execLockoutEdgeRelease t s
  | .envelopeSaveDue t => Sys2Proof.Machine.execEnvelopeSaveDue t s
  | .consistActivation t => Sys2Proof.Machine.execConsistActivation t s
  | .deferTimeout t => Sys2Proof.Machine.execDeferTimeout t s
  | .vital t who => Sys2Proof.Machine.execVital t who s
  | .service t who => Sys2Proof.Machine.execService t who s
  | .confirmWindowEnd t => Sys2Proof.Machine.execConfirmWindowEnd t s
  | .info t => Sys2Proof.Machine.execInfo t s
  | .challenge t => Sys2Proof.Machine.execChallenge t s
  | .login t tok len rsaBy slhBy addr port => Sys2Proof.Machine.execLogin t tok len rsaBy slhBy addr port s
  | .download t addr port offset data => Sys2Proof.Machine.execDownload t addr port offset data s
  | .read t part first count => Sys2Proof.Machine.execRead t part first count s
  | .logout t addr port => Sys2Proof.Machine.execLogout t addr port s
  | .sessionExpiry t => Sys2Proof.Machine.execSessionExpiry t s
  | .enterService t => Sys2Proof.Machine.execEnterService t s
  | .leaveService t => Sys2Proof.Machine.execLeaveService t s
  | .programStateOperation t cmd => Sys2Proof.Machine.execProgramStateOperation t cmd s
  | .holdOperation t => Sys2Proof.Machine.execHoldOperation t s
  | .forceOperation t bind entry ctrl ident mask value => Sys2Proof.Machine.execForceOperation t bind entry ctrl ident mask value s
  | .graft t img base => Sys2Proof.Machine.execGraft t img base s
  | .stage t fw orch fwSig orchSig => Sys2Proof.Machine.execStage t fw orch fwSig orchSig s
  | .activate t consist => Sys2Proof.Machine.execActivate t consist s
  | .announce t op target => Sys2Proof.Machine.execAnnounce t op target s
  | .roleSwap t unready => Sys2Proof.Machine.execRoleSwap t unready s
  | .lockoutReset t => Sys2Proof.Machine.execLockoutReset t s
  | .tripRestartOperation t fn => Sys2Proof.Machine.execTripRestartOperation t fn s
  | .clearOperation t part => Sys2Proof.Machine.execClearOperation t part s
  | .saveEnvelopes t => Sys2Proof.Machine.execSaveEnvelopes t s
  | .revoke t img sig rsaMask slhMask => Sys2Proof.Machine.execRevoke t img sig rsaMask slhMask s
  | .setRtc t rtc nextService => Sys2Proof.Machine.execSetRtc t rtc nextService s
  | .updReqWrite t who addr src port => Sys2Proof.Machine.execUpdReqWrite t who addr src port s
  | .recordWritten cut => Sys2Proof.Machine.execRecordWritten cut s
  | .programRecord t who typ code => Sys2Proof.Machine.execProgramRecord t who typ code s
  | .softwareRecord t who addr => Sys2Proof.Machine.execSoftwareRecord t who addr s
  | .snapshotTrigger t who trg => Sys2Proof.Machine.execSnapshotTrigger t who trg s
  | .snapshotCaptureDone t first span => Sys2Proof.Machine.execSnapshotCaptureDone t first span s
  | .slotRead t who part slot => Sys2Proof.Machine.execSlotRead t who part slot s
  | .clear t who part => Sys2Proof.Machine.execClear t who part s
  | .clearDone t => Sys2Proof.Machine.execClearDone t s
  | .tableWindowWrite t who addr size data => Sys2Proof.Machine.execTableWindowWrite t who addr size data s
  | .backupDomainLoss => Sys2Proof.Machine.execBackupDomainLoss s
  | .tamperLoopClosed => Sys2Proof.Machine.execTamperLoopClosed s
  | .retiredTagRelease t tag => Sys2Proof.Machine.execRetiredTagRelease t tag s
  | .pannierSent t => Sys2Proof.Machine.execPannierSent t s
  | .tracePacketSent => Sys2Proof.Machine.execTracePacketSent s
  | .macEntryAgeing t mac => Sys2Proof.Machine.execMacEntryAgeing t mac s

end Sys2Proof.Machine
end

