-- ==== Sys2Proof/Safety.lean ====
section
/-! DEFINITION. Safety.lean: what a safe run of the block keeps, and how claims say that a command completes. -/
namespace Sys2Proof.Machine

/-- Every byte memory is in canonical form: the address map, the saved envelopes and the staging area. -/
structure State.MemOk (s : State) : Prop where
  mem : Mem.wf s.mem = true
  env0 : ∀ c, s.nv.env0 = some c → Mem.wf c.cells = true
  env1 : ∀ c, s.nv.env1 = some c → Mem.wf c.cells = true
  staging : Mem.wf s.nv.staging = true

/-- The command completes on `s`, in a next state of which `P` holds. -/
def Completes (c : Instr) (s : State) (P : State → Prop) : Prop := ∃ u, exec c s = .next u ∧ P u

/-- From `s` to `u`, no register word but those at `ws` changes, and no byte of memory. -/
def State.changesOnly (s u : State) (ws : List Nat) : Prop :=
  (∀ a, a ∉ ws → u.word a = s.word a) ∧ ∀ a, u.byte a = s.byte a

/-- The words of the time base registers, which follow every timed command (R281). -/
def timeWords : List Nat :=
  [Reg.TIME_LOCAL.NS.addr, Reg.TIME_LOCAL.NS.addr + 4, Reg.TIME_LANE.NS.addr, Reg.TIME_LANE.NS.addr + 4,
    Reg.TIME_CONSIST.NS.addr, Reg.TIME_CONSIST.NS.addr + 4]

end Sys2Proof.Machine
end

