-- ==== Sys2Proof/Certificates/Slice0/Obligations.lean ====
section
/-! DEFINITION. Certificates/Slice0/Obligations.lean: the statements for the provers. In a completion statement, `s` is the state the
command meets, `v` is `s` at the command's time (R281 shows it in the time base registers), and `u` the next state. -/
set_option linter.unusedVariables false
open Sys2Proof Sys2Proof.Machine Sys2Proof.Machine.Reg

/-- (1) An unlock with the key 0x4B1D for a block up to 0x15 that the writer may write is held for that block with no edge counted and shown in UNLOCK_HELD; only REGG_STAT changes. (2) A wrong key leaves the writer no unlock and increments REGG_DENY_CNT; only REGG_STAT and that counter change. (3) An unlock of a block the writer may not write, or beyond 0x15, increments REGG_DENY_CNT, the only word that changes, and leaves every held unlock. (4) A held unlock with two edges counted ends and increments REGG_EXPIRE_CNT; only REGG_STAT and that counter change. (5) A strobe of the Tricycle or the boot supervisor ORs its mask into REGG_STROBE_PEND; only REGG_STAT, REGG_STROBE_PEND and REGG_DENY_CNT may change. No clause changes a byte of memory. (R41, R42, R43, R45) -/
def Obligations.RegisterGuard : Prop :=
  (∀ (s : State) (who : Initiator) (block : BitVec 5), s.acts who = true → block.toNat ≤ 0x15 → mayWrite who block.toNat = true → Completes (.reggUnlock who 0x4B1D block) s (fun u => SMap.find u.regg.unlocks who.idx = some ⟨block.toNat, 0⟩ ∧ u.bit REGG_STAT.UNLOCK_HELD who.idx = true ∧ s.changesOnly u [REGG_STAT.UNLOCK_HELD.addr])) ∧
  (∀ (s : State) (who : Initiator) (key : BitVec 16) (block : BitVec 5), s.acts who = true → key ≠ 0x4B1D → Completes (.reggUnlock who key block) s (fun u => SMap.find u.regg.unlocks who.idx = none ∧ u.bit REGG_STAT.UNLOCK_HELD who.idx = false ∧ u.get REGG_DENY_CNT = (s.get REGG_DENY_CNT + 1) % 2 ^ 32 ∧ s.changesOnly u [REGG_STAT.UNLOCK_HELD.addr, REGG_DENY_CNT.addr])) ∧
  (∀ (s : State) (who : Initiator) (block : BitVec 5), s.acts who = true → (0x15 < block.toNat ∨ mayWrite who block.toNat = false) → Completes (.reggUnlock who 0x4B1D block) s (fun u => u.get REGG_DENY_CNT = (s.get REGG_DENY_CNT + 1) % 2 ^ 32 ∧ u.regg = s.regg ∧ s.changesOnly u [REGG_DENY_CNT.addr])) ∧
  (∀ (s : State) (who : Initiator) (x : Unlock), s.acts who = true → SMap.find s.regg.unlocks who.idx = some x → 2 ≤ x.edges → Completes (.unlockExpiry who) s (fun u => SMap.find u.regg.unlocks who.idx = none ∧ u.get REGG_EXPIRE_CNT = (s.get REGG_EXPIRE_CNT + 1) % 2 ^ 32 ∧ s.changesOnly u [REGG_STAT.UNLOCK_HELD.addr, REGG_EXPIRE_CNT.addr])) ∧
  (∀ (s : State) (who : Initiator) (groups : BitVec 16), s.acts who = true → who.isService = false → Completes (.reggStrobe who groups) s (fun u => u.get REGG_STROBE_PEND.GROUPS = s.get REGG_STROBE_PEND.GROUPS ||| groups.toNat ∧ s.changesOnly u [REGG_STAT.UNLOCK_HELD.addr, REGG_STROBE_PEND.GROUPS.addr, REGG_DENY_CNT.addr]))

/-- A pass that ends outside a reset, its grace period opened, stores its CRC in REGG_CFG_CALC and increments REGG_CFG_PASS_CNT. With EN = 0 or CFG_WAIT = 1 no other word and no byte of memory changes. With EN = 1 and CFG_WAIT = 0 it is compared with REGG_CFG_REF. A match leaves the rest as it is, or clears a standing CFG_MISMATCH and refreshes the outputs. A mismatch increments REGG_CFG_MIS_CNT; where CFG_MISMATCH was 0 it sets it, writes record type 0x0E with ACTION as its code and both CRCs, and refreshes the outputs; with ACTION 2 or 3 LOCKOUT, reason 2, follows. A grace period open since at least its GRACE edges (0 taken as 1) ends: CFG_WAIT goes to 0 and no other word and no byte of memory changes. No clause says how long a pass takes or what a reset or strobe does to one. (R51, R52, R53, R54) -/
def Obligations.ConfigurationCheck : Prop :=
  (∀ (s : State) (t : Nat) (v : State), v = s.at_ t → v.pwr.inReset = false → v.regg.waitEdge = false → (v.flag REGG_CFG_CTRL.EN = false ∨ v.flag REGG_STAT.CFG_WAIT = true) → Completes (.cfgPassEnd t) s (fun u => u.get REGG_CFG_CALC.CALC = v.cfgCrc % 2 ^ 32 ∧ u.get REGG_CFG_PASS_CNT = (v.get REGG_CFG_PASS_CNT + 1) % 2 ^ 32 ∧ v.changesOnly u [REGG_CFG_CALC.CALC.addr, REGG_CFG_PASS_CNT.addr])) ∧
  (∀ (s : State) (t : Nat) (v : State), v = s.at_ t → v.pwr.inReset = false → v.regg.waitEdge = false → v.flag REGG_CFG_CTRL.EN = true → v.flag REGG_STAT.CFG_WAIT = false → v.flag REGG_STAT.CFG_MISMATCH = false → v.get REGG_CFG_CTRL.ACTION < 2 → exec (.cfgPassEnd t) s = .next (if v.cfgCrc % 2 ^ 32 = v.get REGG_CFG_REF.REF then ((v.put REGG_CFG_CALC.CALC v.cfgCrc).inc REGG_CFG_PASS_CNT) else (((((v.put REGG_CFG_CALC.CALC v.cfgCrc).inc REGG_CFG_PASS_CNT).inc REGG_CFG_MIS_CNT).putFlag REGG_STAT.CFG_MISMATCH true).record 0x0E (v.get REGG_CFG_CTRL.ACTION) (leBytes 4 (v.cfgCrc % 2 ^ 32) ++ leBytes 4 (v.get REGG_CFG_REF.REF))).outputsRefresh)) ∧
  (∀ (s : State) (t : Nat) (v : State), v = s.at_ t → v.pwr.inReset = false → v.regg.waitEdge = false → v.flag REGG_CFG_CTRL.EN = true → v.flag REGG_STAT.CFG_WAIT = false → v.flag REGG_STAT.CFG_MISMATCH = false → 2 ≤ v.get REGG_CFG_CTRL.ACTION → exec (.cfgPassEnd t) s = .next (if v.cfgCrc % 2 ^ 32 = v.get REGG_CFG_REF.REF then ((v.put REGG_CFG_CALC.CALC v.cfgCrc).inc REGG_CFG_PASS_CNT) else ((((((v.put REGG_CFG_CALC.CALC v.cfgCrc).inc REGG_CFG_PASS_CNT).inc REGG_CFG_MIS_CNT).putFlag REGG_STAT.CFG_MISMATCH true).record 0x0E (v.get REGG_CFG_CTRL.ACTION) (leBytes 4 (v.cfgCrc % 2 ^ 32) ++ leBytes 4 (v.get REGG_CFG_REF.REF))).outputsRefresh).enterLockout 2 0)) ∧
  (∀ (s : State) (t : Nat) (v : State), v = s.at_ t → v.pwr.inReset = false → v.regg.waitEdge = false → v.flag REGG_CFG_CTRL.EN = true → v.flag REGG_STAT.CFG_WAIT = false → v.flag REGG_STAT.CFG_MISMATCH = true → v.get REGG_CFG_CTRL.ACTION < 2 → exec (.cfgPassEnd t) s = .next (if v.cfgCrc % 2 ^ 32 = v.get REGG_CFG_REF.REF then (((v.put REGG_CFG_CALC.CALC v.cfgCrc).inc REGG_CFG_PASS_CNT).putFlag REGG_STAT.CFG_MISMATCH false).outputsRefresh else ((v.put REGG_CFG_CALC.CALC v.cfgCrc).inc REGG_CFG_PASS_CNT).inc REGG_CFG_MIS_CNT)) ∧
  (∀ (s : State) (t : Nat) (v : State), v = s.at_ t → v.pwr.inReset = false → v.regg.waitEdge = false → v.flag REGG_CFG_CTRL.EN = true → v.flag REGG_STAT.CFG_WAIT = false → v.flag REGG_STAT.CFG_MISMATCH = true → 2 ≤ v.get REGG_CFG_CTRL.ACTION → exec (.cfgPassEnd t) s = .next (if v.cfgCrc % 2 ^ 32 = v.get REGG_CFG_REF.REF then (((v.put REGG_CFG_CALC.CALC v.cfgCrc).inc REGG_CFG_PASS_CNT).putFlag REGG_STAT.CFG_MISMATCH false).outputsRefresh else (((v.put REGG_CFG_CALC.CALC v.cfgCrc).inc REGG_CFG_PASS_CNT).inc REGG_CFG_MIS_CNT).enterLockout 2 0)) ∧
  (∀ (s : State) (t : Nat) (v : State), v = s.at_ t → v.flag REGG_STAT.CFG_WAIT = true → v.regg.waitEdge = false → atLeast1 (v.get REGG_CFG_CTRL.GRACE) ≤ v.regg.graceEdges → Completes (.cfgGraceEnd t) s (fun u => u.flag REGG_STAT.CFG_WAIT = false ∧ v.changesOnly u [REGG_STAT.CFG_WAIT.addr]))

/-- With BUSY 0: in FEED mode a write of CRC_En_DATA or DATA64 folds its 4 or 8 bytes, least significant first, into VAL; in every mode INIT sets VAL to the initial value of the polynomial and a write of VAL sets it. In each case VAL holds what the polynomial keeps of it (32 or 64 bits), RES is VAL after the final XOR, and only the words of VAL and RES and REGG_STAT may change. Outside FEED mode a data write changes only REGG_STAT. With BUSY 1 each of the four is refused: CRC_En_REJ_CNT is incremented, and only its word and REGG_STAT may change. No clause changes a byte of memory. (R239, R240) -/
def Obligations.CheckEngineData : Prop :=
  (∀ (s : State) (who : Initiator) (e : BitVec 3) (data : BitVec 32), s.acts who = true → s.flag (CRC_STAT.BUSY e.toNat) = false → s.get (CRC_CFG.MODE e.toNat) = 1 → Completes (.crcData who e data) s (fun u => u.get (CRC.VAL e.toNat) = (s.polyOf e.toNat).trim ((s.polyOf e.toNat).fold (s.get (CRC.VAL e.toNat)) (leBytes 4 data.toNat)) ∧ u.get (CRC.RES e.toNat) = (s.polyOf e.toNat).final ((s.polyOf e.toNat).trim ((s.polyOf e.toNat).fold (s.get (CRC.VAL e.toNat)) (leBytes 4 data.toNat))) ∧ s.changesOnly u [(CRC.VAL e.toNat).addr, (CRC.VAL e.toNat).addr + 4, (CRC.RES e.toNat).addr, (CRC.RES e.toNat).addr + 4, REGG_STAT.UNLOCK_HELD.addr])) ∧
  (∀ (s : State) (who : Initiator) (e : BitVec 3) (data : BitVec 64), s.acts who = true → s.flag (CRC_STAT.BUSY e.toNat) = false → s.get (CRC_CFG.MODE e.toNat) = 1 → Completes (.crcData64 who e data) s (fun u => u.get (CRC.VAL e.toNat) = (s.polyOf e.toNat).trim ((s.polyOf e.toNat).fold (s.get (CRC.VAL e.toNat)) (leBytes 8 data.toNat)) ∧ u.get (CRC.RES e.toNat) = (s.polyOf e.toNat).final ((s.polyOf e.toNat).trim ((s.polyOf e.toNat).fold (s.get (CRC.VAL e.toNat)) (leBytes 8 data.toNat))) ∧ s.changesOnly u [(CRC.VAL e.toNat).addr, (CRC.VAL e.toNat).addr + 4, (CRC.RES e.toNat).addr, (CRC.RES e.toNat).addr + 4, REGG_STAT.UNLOCK_HELD.addr])) ∧
  (∀ (s : State) (who : Initiator) (e : BitVec 3), s.acts who = true → s.flag (CRC_STAT.BUSY e.toNat) = false → Completes (.crcInit who e) s (fun u => u.get (CRC.VAL e.toNat) = (s.polyOf e.toNat).trim ((s.polyOf e.toNat).initial) ∧ u.get (CRC.RES e.toNat) = (s.polyOf e.toNat).final ((s.polyOf e.toNat).trim ((s.polyOf e.toNat).initial)) ∧ s.changesOnly u [(CRC.VAL e.toNat).addr, (CRC.VAL e.toNat).addr + 4, (CRC.RES e.toNat).addr, (CRC.RES e.toNat).addr + 4, REGG_STAT.UNLOCK_HELD.addr])) ∧
  (∀ (s : State) (who : Initiator) (e : BitVec 3) (x : BitVec 64), s.acts who = true → s.flag (CRC_STAT.BUSY e.toNat) = false → Completes (.crcValWrite who e x) s (fun u => u.get (CRC.VAL e.toNat) = (s.polyOf e.toNat).trim (x.toNat) ∧ u.get (CRC.RES e.toNat) = (s.polyOf e.toNat).final ((s.polyOf e.toNat).trim (x.toNat)) ∧ s.changesOnly u [(CRC.VAL e.toNat).addr, (CRC.VAL e.toNat).addr + 4, (CRC.RES e.toNat).addr, (CRC.RES e.toNat).addr + 4, REGG_STAT.UNLOCK_HELD.addr])) ∧
  (∀ (s : State) (who : Initiator) (e : BitVec 3) (data : BitVec 32), s.acts who = true → s.flag (CRC_STAT.BUSY e.toNat) = false → s.get (CRC_CFG.MODE e.toNat) ≠ 1 → Completes (.crcData who e data) s (fun u => s.changesOnly u [REGG_STAT.UNLOCK_HELD.addr])) ∧
  (∀ (s : State) (who : Initiator) (e : BitVec 3) (data : BitVec 64), s.acts who = true → s.flag (CRC_STAT.BUSY e.toNat) = false → s.get (CRC_CFG.MODE e.toNat) ≠ 1 → Completes (.crcData64 who e data) s (fun u => s.changesOnly u [REGG_STAT.UNLOCK_HELD.addr])) ∧
  (∀ (s : State) (who : Initiator) (e : BitVec 3) (data : BitVec 32), s.acts who = true → s.flag (CRC_STAT.BUSY e.toNat) = true → Completes (.crcData who e data) s (fun u => u.get (CRC_REJ_CNT e.toNat) = (s.get (CRC_REJ_CNT e.toNat) + 1) % 2 ^ 32 ∧ s.changesOnly u [(CRC_REJ_CNT e.toNat).addr, REGG_STAT.UNLOCK_HELD.addr])) ∧
  (∀ (s : State) (who : Initiator) (e : BitVec 3) (data : BitVec 64), s.acts who = true → s.flag (CRC_STAT.BUSY e.toNat) = true → Completes (.crcData64 who e data) s (fun u => u.get (CRC_REJ_CNT e.toNat) = (s.get (CRC_REJ_CNT e.toNat) + 1) % 2 ^ 32 ∧ s.changesOnly u [(CRC_REJ_CNT e.toNat).addr, REGG_STAT.UNLOCK_HELD.addr])) ∧
  (∀ (s : State) (who : Initiator) (e : BitVec 3), s.acts who = true → s.flag (CRC_STAT.BUSY e.toNat) = true → Completes (.crcInit who e) s (fun u => u.get (CRC_REJ_CNT e.toNat) = (s.get (CRC_REJ_CNT e.toNat) + 1) % 2 ^ 32 ∧ s.changesOnly u [(CRC_REJ_CNT e.toNat).addr, REGG_STAT.UNLOCK_HELD.addr])) ∧
  (∀ (s : State) (who : Initiator) (e : BitVec 3) (x : BitVec 64), s.acts who = true → s.flag (CRC_STAT.BUSY e.toNat) = true → Completes (.crcValWrite who e x) s (fun u => u.get (CRC_REJ_CNT e.toNat) = (s.get (CRC_REJ_CNT e.toNat) + 1) % 2 ^ 32 ∧ s.changesOnly u [(CRC_REJ_CNT e.toNat).addr, REGG_STAT.UNLOCK_HELD.addr]))

/-- With BUSY 0 in FEED mode, JOB sets BUSY and keeps the job of CRC_En_ADDR and CRC_En_LEN. The end of a job clears BUSY, folds its bytes of memory into VAL and increments CRC_En_DONE_CNT. With neither BUSY nor OPEN, SAVE keeps CFG, FOLD and VAL in context k, and LOAD of a context that a SAVE has written gives them back, VAL as the new polynomial keeps it; with either, both are refused and increment CRC_En_REJ_CNT. A write of CFG that leaves bits 15 to 10 zero takes effect at once and ends a job and an open frame; with BUSY or OPEN it increments CRC_En_REJ_CNT. One that sets a bit of 15 to 10 is the fault reservedBitWrite. The end of a frame in SNOOP_FRAME increments CRC_En_FRM_CNT: of a stream of another sender that the filter wants, no frame being open, and of the own streams the frame that is open. No next state here differs in a byte of memory. (R240, R241, R243, R244) -/
def Obligations.CheckEngineJobs : Prop :=
  (∀ (s : State) (who : Initiator) (e : BitVec 3), s.acts who = true → s.flag (CRC_STAT.BUSY e.toNat) = false → s.get (CRC_CFG.MODE e.toNat) = 1 → Completes (.job who e) s (fun u => u.flag (CRC_STAT.BUSY e.toNat) = true ∧ (u.eng e.toNat).job = some (s.get (CRC.ADDR e.toNat), s.get (CRC.LEN e.toNat)) ∧ ∀ a, u.byte a = s.byte a)) ∧
  (∀ (s : State) (e : BitVec 3) (a len : Nat), (s.eng e.toNat).job = some (a, len) → Completes (.crcJobDone e) s (fun u => u.flag (CRC_STAT.BUSY e.toNat) = false ∧ (u.eng e.toNat).job = none ∧ u.get (CRC.VAL e.toNat) = (s.polyOf e.toNat).trim ((s.polyOf e.toNat).fold (s.get (CRC.VAL e.toNat)) (s.bytes a len)) ∧ u.get (CRC_DONE_CNT e.toNat) = (s.get (CRC_DONE_CNT e.toNat) + 1) % 2 ^ 32 ∧ ∀ a, u.byte a = s.byte a)) ∧
  (∀ (s : State) (who : Initiator) (e : BitVec 3) (k : BitVec 7), s.acts who = true → s.crcBusy e.toNat = false → Completes (.save who e k) s (fun u => SMap.find u.safe.ctx k.toNat = some ⟨(s.word (CRC_CFG.POLY e.toNat).addr).toNat, s.get (CRC.FOLD e.toNat), s.get (CRC.VAL e.toNat)⟩ ∧ s.changesOnly u [REGG_STAT.UNLOCK_HELD.addr])) ∧
  (∀ (s : State) (who : Initiator) (e : BitVec 3) (k : BitVec 7) (c : CrcCtx), s.acts who = true → s.crcBusy e.toNat = false → SMap.find s.safe.ctx k.toNat = some c → Completes (.load who e k) s (fun u => u.word (CRC_CFG.POLY e.toNat).addr = BitVec.ofNat 32 c.cfg ∧ u.get (CRC.FOLD e.toNat) = c.fold % 2 ^ 32 ∧ u.get (CRC.VAL e.toNat) = (u.polyOf e.toNat).trim c.val ∧ (u.eng e.toNat).cont = true ∧ ∀ a, u.byte a = s.byte a)) ∧
  (∀ (s : State) (who : Initiator) (e : BitVec 3) (cfg : BitVec 32) (folded : Nat), s.acts who = true → bitsOf cfg.toNat 10 6 = 0 → s.crcBusy e.toNat = false → (s.eng e.toNat).job = none → Completes (.crcCfgWrite who e cfg folded) s (fun u => u.word (CRC_CFG.POLY e.toNat).addr = cfg ∧ (u.eng e.toNat).cont = false ∧ (u.eng e.toNat).job = none ∧ ∀ a, u.byte a = s.byte a)) ∧
  (∀ (s : State) (who : Initiator) (e : BitVec 3) (cfg : BitVec 32) (folded : Nat), s.acts who = true → bitsOf cfg.toNat 10 6 ≠ 0 → exec (.crcCfgWrite who e cfg folded) s = .fault .reservedBitWrite) ∧
  (∀ (s : State) (who : Initiator) (e : BitVec 3) (k : BitVec 7), s.acts who = true → s.flag (CRC_STAT.BUSY e.toNat) = true → Completes (.save who e k) s (fun u => u.get (CRC_REJ_CNT e.toNat) = (s.get (CRC_REJ_CNT e.toNat) + 1) % 2 ^ 32 ∧ s.changesOnly u [(CRC_REJ_CNT e.toNat).addr, REGG_STAT.UNLOCK_HELD.addr])) ∧
  (∀ (s : State) (who : Initiator) (e : BitVec 3) (k : BitVec 7), s.acts who = true → s.flag (CRC_STAT.BUSY e.toNat) = true → Completes (.load who e k) s (fun u => u.get (CRC_REJ_CNT e.toNat) = (s.get (CRC_REJ_CNT e.toNat) + 1) % 2 ^ 32 ∧ s.changesOnly u [(CRC_REJ_CNT e.toNat).addr, REGG_STAT.UNLOCK_HELD.addr])) ∧
  (∀ (s : State) (who : Initiator) (e : BitVec 3) (k : BitVec 7), s.acts who = true → s.flag (CRC_STAT.OPEN e.toNat) = true → Completes (.save who e k) s (fun u => u.get (CRC_REJ_CNT e.toNat) = (s.get (CRC_REJ_CNT e.toNat) + 1) % 2 ^ 32 ∧ s.changesOnly u [(CRC_REJ_CNT e.toNat).addr, REGG_STAT.UNLOCK_HELD.addr])) ∧
  (∀ (s : State) (who : Initiator) (e : BitVec 3) (k : BitVec 7), s.acts who = true → s.flag (CRC_STAT.OPEN e.toNat) = true → Completes (.load who e k) s (fun u => u.get (CRC_REJ_CNT e.toNat) = (s.get (CRC_REJ_CNT e.toNat) + 1) % 2 ^ 32 ∧ s.changesOnly u [(CRC_REJ_CNT e.toNat).addr, REGG_STAT.UNLOCK_HELD.addr])) ∧
  (∀ (s : State) (who : Initiator) (e : BitVec 3) (cfg : BitVec 32) (folded : Nat), s.acts who = true → bitsOf cfg.toNat 10 6 = 0 → s.crcBusy e.toNat = true → Completes (.crcCfgWrite who e cfg folded) s (fun u => u.word (CRC_CFG.POLY e.toNat).addr = cfg ∧ (u.eng e.toNat).job = none ∧ (u.eng e.toNat).frame = none ∧ u.get (CRC_REJ_CNT e.toNat) = (s.get (CRC_REJ_CNT e.toNat) + 1) % 2 ^ 32 ∧ ∀ a, u.byte a = s.byte a)) ∧
  (∀ (s : State) (e : BitVec 3) (key : BitVec 16) (data : List Byte) (addr : BitVec 64) (fcs : Bool), ownStream (s.get (CRC_CFG.SRC e.toNat)) = false → s.snoops e.toNat key.toNat = true → s.get (CRC_CFG.MODE e.toNat) = 3 → (s.eng e.toNat).frame = none → Completes (.snoopFrameEnd e key data addr fcs) s (fun u => u.get (CRC_FRM_CNT e.toNat) = (s.get (CRC_FRM_CNT e.toNat) + 1) % 2 ^ 32 ∧ ∀ a, u.byte a = s.byte a)) ∧
  (∀ (s : State) (e : BitVec 3) (key : BitVec 16) (data : List Byte) (addr : BitVec 64) (fcs : Bool) (d : List Byte), ownStream (s.get (CRC_CFG.SRC e.toNat)) = true → s.snoops e.toNat key.toNat = true → (s.eng e.toNat).frame = some d → Completes (.snoopFrameEnd e key data addr fcs) s (fun u => u.get (CRC_FRM_CNT e.toNat) = (s.get (CRC_FRM_CNT e.toNat) + 1) % 2 ^ 32 ∧ (u.eng e.toNat).frame = none ∧ ∀ a, u.byte a = s.byte a))

/-- For g < 8 and ch < 64, each command completes with the effect stated. UV, OV, OVC set, on a used group where the flag is 0 (UV: 16 ticks below; OV: 16 above): the flag is set, DIO_GRP_FLT_CNT is incremented, the OUTPUT channels of the group fault with cause 5 (OVC: 6); OVC starts its hold where none runs. UV and OV clear (UV: 160 ticks above; OV: VG below 1.4 Un) and the end of OVC after 1600 ticks clear the flag. A short on a driven OUTPUT channel faults it, cause 1. A readback, settled and outside a test pulse, that differs from the driver is the STUCK fault of its level. The switch test of a used group not yet tested marks it tested where the voltage fell, else sets GSW and faults the group, cause 5. Trip silence of SIL_TMO ticks sets KICK_TRIP and increments DIO_SIL_CNT. A dark and a light test start when their conditions hold; the end of a test pulse that has had its width counts a pass, or a failure with fault cause 4. A fault of a channel without OUTPUT personality whose clearing condition is met heals; of an OUTPUT channel it heals where neither the group nor the readback faults it again. A driver that loses its refresh is dead. The outputs, and where a fault or pin changes the image area too, are then brought up to date. (R316, R317, R318, R319, R322, R323, R324, R325, R500) -/
def Obligations.FieldOutputs : Prop :=
  (∀ (s : State) (t : Nat) (g : Nat) (v : State), v = s.at_ t → g < 8 → v.grpUsed g = true → v.flag (DIO_GSTAT.UV g) = false → 16 ≤ (v.voltsOf g).1 → exec (.groupUvSet t g) s = .next ((((v.putFlag (DIO_GSTAT.UV g) true).inc DIO_GRP_FLT_CNT).grpFault g 5 64).dioRefresh.dioImage)) ∧
  (∀ (s : State) (t : Nat) (g : Nat) (v : State), v = s.at_ t → g < 8 → v.grpUsed g = true → v.flag (DIO_GSTAT.OV g) = false → 16 ≤ (v.voltsOf g).2.2 → exec (.groupOvSet t g) s = .next ((((v.putFlag (DIO_GSTAT.OV g) true).inc DIO_GRP_FLT_CNT).grpFault g 5 64).dioRefresh.dioImage)) ∧
  (∀ (s : State) (t : Nat) (g : Nat) (v : State), v = s.at_ t → g < 8 → v.flag (DIO_GSTAT.UV g) = true → 160 ≤ (v.voltsOf g).2.1 → exec (.groupUvClear t g) s = .next ((v.putFlag (DIO_GSTAT.UV g) false).dioRefresh.dioImage)) ∧
  (∀ (s : State) (t : Nat) (g : Nat) (v : State), v = s.at_ t → g < 8 → v.flag (DIO_GSTAT.OV g) = true → 10 * v.get (DIO_GSTAT.VG g) < 14 * v.grpUn g → exec (.groupOvClear t g) s = .next ((v.putFlag (DIO_GSTAT.OV g) false).dioRefresh.dioImage)) ∧
  (∀ (s : State) (t : Nat) (g : Nat) (v : State), v = s.at_ t → g < 8 → v.grpUsed g = true → v.flag (DIO_GSTAT.OVC g) = false → exec (.groupOvcSet t g) s = .next (let x := (((v.putFlag (DIO_GSTAT.OVC g) true).inc DIO_GRP_FLT_CNT).grpFault g 6 64).dioRefresh.dioImage; if x.flag (DIO_GSTAT.OVC g) && (SMap.find x.dio.ovc g).isNone then { x with dio := { x.dio with ovc := SMap.set x.dio.ovc g 0 } } else x)) ∧
  (∀ (s : State) (t : Nat) (g : Nat) (v : State), v = s.at_ t → g < 8 → v.flag (DIO_GSTAT.OVC g) = true → 1600 ≤ SMap.getD v.dio.ovc g 0 → exec (.groupOvcEnd t g) s = .next ((({ v with dio := { v.dio with ovc := SMap.erase v.dio.ovc g } }).putFlag (DIO_GSTAT.OVC g) false).dioRefresh.dioImage)) ∧
  (∀ (s : State) (t : Nat) (ch : Nat) (v : State), v = s.at_ t → ch < 64 → v.pers ch = 1 → (v.chan ch).drv = true → exec (.outputShort t ch) s = .next ((v.chanFault ch 1).dioRefresh.dioImage)) ∧
  (∀ (s : State) (t : Nat) (ch : Nat) (level : Bool) (v : State), v = s.at_ t → ch < 64 → v.pers ch = 1 → (v.chan ch).test = 0 → (v.chan ch).drv ≠ level → v.settled ch = true → exec (.readbackMismatch t ch level) s = .next (((v.setPin ch level).stuck ch level).dioRefresh.dioImage)) ∧
  (∀ (s : State) (t : Nat) (g : Nat) (v : State), v = s.at_ t → g < 8 → v.grpUsed g = true → bitOf v.dio.tested g = false → v.flag (DIO_GSTAT.GSW g) = false → exec (.groupSwitchTest t g true) s = .next (({ v with dio := { v.dio with tested := setBit v.dio.tested g true } }).dioRefresh)) ∧
  (∀ (s : State) (t : Nat) (g : Nat) (v : State), v = s.at_ t → g < 8 → v.grpUsed g = true → bitOf v.dio.tested g = false → v.flag (DIO_GSTAT.GSW g) = false → exec (.groupSwitchTest t g false) s = .next (((v.putFlag (DIO_GSTAT.GSW g) true).grpFault g 5 64).dioRefresh.dioImage)) ∧
  (∀ (s : State) (t : Nat) (v : State), v = s.at_ t → v.flag DIO_STAT.KICK_TRIP = false → atLeast1 (v.get DIO_CTRL.SIL_TMO) ≤ v.dio.silent → exec (.tripSilence t) s = .next (((v.putFlag DIO_STAT.KICK_TRIP true).inc DIO_SIL_CNT).dioRefresh)) ∧
  (∀ (s : State) (t : Nat) (ch : Nat) (v : State), v = s.at_ t → ch < 64 → v.pers ch = 1 → v.flag (DIO_CH_CFG.TEST_EN ch) = true → (v.chan ch).drv = true → v.get (DIO_CH_TEST.DARK_PER ch) ≠ 0 → msTicks (10 * v.get (DIO_CH_TEST.DARK_PER ch)) ≤ (v.chan ch).sinceDark → v.grpTesting (ch / 8) = false → exec (.darkTestStart t ch) s = .next ((v.setChan ch { v.chan ch with test := 1, testAt := v.localNow }).dioRefresh)) ∧
  (∀ (s : State) (t : Nat) (ch : Nat) (v : State), v = s.at_ t → ch < 64 → v.pers ch = 1 → v.flag (DIO_CH_CFG.TEST_EN ch) = true → (v.chan ch).drv = false → (v.chan ch).demand = false → (v.chan ch).sinceOn = none → v.get (DIO_CH_TEST.LIGHT_PER ch) ≠ 0 → msTicks (10 * v.get (DIO_CH_TEST.LIGHT_PER ch)) ≤ (v.chan ch).sinceLight → v.grpTesting (ch / 8) = false → v.grpHeld (ch / 8) = false → bitOf v.dio.tested (ch / 8) = true → exec (.lightTestStart t ch) s = .next ((v.setChan ch { v.chan ch with test := 2, testAt := v.localNow }).dioRefresh)) ∧
  (∀ (s : State) (t : Nat) (ch k : Nat) (v : State), v = s.at_ t → ch < 64 → v.pers ch = 1 → v.flag (DIO_CH_CFG.TEST_EN ch) = true → (v.chan ch).drv = false → (v.chan ch).demand = false → (v.chan ch).sinceOn = some k → 16 ≤ k → v.get (DIO_CH_TEST.LIGHT_PER ch) ≠ 0 → msTicks (10 * v.get (DIO_CH_TEST.LIGHT_PER ch)) ≤ (v.chan ch).sinceLight → v.grpTesting (ch / 8) = false → v.grpHeld (ch / 8) = false → bitOf v.dio.tested (ch / 8) = true → exec (.lightTestStart t ch) s = .next ((v.setChan ch { v.chan ch with test := 2, testAt := v.localNow }).dioRefresh)) ∧
  (∀ (s : State) (t : Nat) (ch : Nat) (a b : Bool) (v : State), v = s.at_ t → ch < 64 → (v.chan ch).test = 1 → (v.chan ch).testAt + v.testWidth ch ≤ v.localNow → exec (.testPulseEnd t ch a b) s = .next ((if !a && !b then (v.setChan ch { v.chan ch with test := 0, sinceDark := 0 }).inc (DIO_CH_PASS_CNT ch) else ((v.setChan ch { v.chan ch with test := 0, sinceDark := 0 }).inc (DIO_CH_FAIL_CNT ch)).chanFault ch 4).dioRefresh.dioImage)) ∧
  (∀ (s : State) (t : Nat) (ch : Nat) (a b : Bool) (v : State), v = s.at_ t → ch < 64 → (v.chan ch).test = 2 → (v.chan ch).testAt + v.testWidth ch ≤ v.localNow → exec (.testPulseEnd t ch a b) s = .next ((if a && b then (v.setChan ch { v.chan ch with test := 0, sinceLight := 0, lightPassed := (v.chan ch).lightPassed || (a && b && 16 ≤ (v.chan ch).clearTicks) }).inc (DIO_CH_PASS_CNT ch) else ((v.setChan ch { v.chan ch with test := 0, sinceLight := 0, lightPassed := (v.chan ch).lightPassed || (a && b && 16 ≤ (v.chan ch).clearTicks) }).inc (DIO_CH_FAIL_CNT ch)).chanFault ch 4).dioRefresh.dioImage)) ∧
  (∀ (s : State) (t : Nat) (ch : Nat) (v : State), v = s.at_ t → ch < 64 → v.flag (DIO_CH_STAT.FAULTED ch) = true → v.clearMet ch = true → (v.chanHeal ch).pers ch ≠ 1 → exec (.channelFaultClear t ch) s = .next ((v.chanHeal ch).dioRefresh.dioImage)) ∧
  (∀ (s : State) (t : Nat) (ch : Nat) (v : State), v = s.at_ t → ch < 64 → v.flag (DIO_CH_STAT.FAULTED ch) = true → v.clearMet ch = true → (v.chanHeal ch).pers ch = 1 → (v.chanHeal ch).flag (DIO_GSTAT.OVC (ch / 8)) = false → (v.chanHeal ch).grpHeld (ch / 8) = false → ((v.chanHeal ch).bit DIO.STATE ch && !((v.chanHeal ch).chan ch).drv && (v.chanHeal ch).settled ch) = false → exec (.channelFaultClear t ch) s = .next ((v.chanHeal ch).dioRefresh.dioImage)) ∧
  (∀ (s : State) (t : Nat) (ch : Nat) (v : State), v = s.at_ t → ch < 64 → exec (.driverRefreshLoss t (.driver ch)) s = .next ((v.setChan ch { v.chan ch with dead := true }).dioRefresh))

/-- For ch < 64. A filtered edge of an INPUT channel in a used group, the filter time after its last edge, shows in DIO_STATE and PIN, increments DIO_CHn_EDGE_CNT and keeps its instant. Without WET, or while a pulse runs, nothing more; else a pulse starts, unless 4 of the group run or 18 ms have not passed since the last one ended: then DIO_WET_SKIP_CNT is incremented. An edge of an OUTPUT or PULSE channel shows in DIO_STATE and PIN and breaks a clearing condition that holds no more. The image area is then written. The end of a wetting pulse that has run 1.9 ms clears WETTING, keeps its instant, and changes no other word and no byte of memory. (R313, R314, R327) -/
def Obligations.FieldInputs : Prop :=
  (∀ (s : State) (t : Nat) (ch : Nat) (level : Bool) (v : State), v = s.at_ t → ch < 64 → v.grpUsed (ch / 8) = true → v.bit DIO.STATE ch ≠ level → v.pers ch = 0 → v.filterMay ch = true → (v.setPin ch level).pers ch = 0 → (((((v.setPin ch level).stampEvent ch).inc (DIO_CH_EDGE_CNT ch)).homeCapture ch).flag (DIO_CH_CFG.WET ch) = false ∨ ((((v.setPin ch level).stampEvent ch).inc (DIO_CH_EDGE_CNT ch)).homeCapture ch).flag (DIO_CH_STAT.WETTING ch) = true) → exec (.inputFilteredEdge t ch level) s = .next (((((v.setPin ch level).stampEvent ch).inc (DIO_CH_EDGE_CNT ch)).homeCapture ch).dioImage)) ∧
  (∀ (s : State) (t : Nat) (ch : Nat) (level : Bool) (v : State), v = s.at_ t → ch < 64 → v.grpUsed (ch / 8) = true → v.bit DIO.STATE ch ≠ level → v.pers ch = 0 → v.filterMay ch = true → (v.setPin ch level).pers ch = 0 → ((((v.setPin ch level).stampEvent ch).inc (DIO_CH_EDGE_CNT ch)).homeCapture ch).flag (DIO_CH_CFG.WET ch) = true → ((((v.setPin ch level).stampEvent ch).inc (DIO_CH_EDGE_CNT ch)).homeCapture ch).flag (DIO_CH_STAT.WETTING ch) = false → (((((v.setPin ch level).stampEvent ch).inc (DIO_CH_EDGE_CNT ch)).homeCapture ch).chan ch).wetEnd = none → (((List.range 8).filter (fun i => ((((v.setPin ch level).stampEvent ch).inc (DIO_CH_EDGE_CNT ch)).homeCapture ch).flag (DIO_CH_STAT.WETTING (8 * (ch / 8) + i)))).length < 4) → exec (.inputFilteredEdge t ch level) s = .next (((((((v.setPin ch level).stampEvent ch).inc (DIO_CH_EDGE_CNT ch)).homeCapture ch).putFlag (DIO_CH_STAT.WETTING ch) true).setChan ch { ((((v.setPin ch level).stampEvent ch).inc (DIO_CH_EDGE_CNT ch)).homeCapture ch).chan ch with wetFrom := some ((((v.setPin ch level).stampEvent ch).inc (DIO_CH_EDGE_CNT ch)).homeCapture ch).localNow }).dioImage)) ∧
  (∀ (s : State) (t : Nat) (ch : Nat) (level : Bool) (e : Nat) (v : State), v = s.at_ t → ch < 64 → v.grpUsed (ch / 8) = true → v.bit DIO.STATE ch ≠ level → v.pers ch = 0 → v.filterMay ch = true → (v.setPin ch level).pers ch = 0 → ((((v.setPin ch level).stampEvent ch).inc (DIO_CH_EDGE_CNT ch)).homeCapture ch).flag (DIO_CH_CFG.WET ch) = true → ((((v.setPin ch level).stampEvent ch).inc (DIO_CH_EDGE_CNT ch)).homeCapture ch).flag (DIO_CH_STAT.WETTING ch) = false → (((((v.setPin ch level).stampEvent ch).inc (DIO_CH_EDGE_CNT ch)).homeCapture ch).chan ch).wetEnd = some e → e + 18000000 ≤ ((((v.setPin ch level).stampEvent ch).inc (DIO_CH_EDGE_CNT ch)).homeCapture ch).localNow → (((List.range 8).filter (fun i => ((((v.setPin ch level).stampEvent ch).inc (DIO_CH_EDGE_CNT ch)).homeCapture ch).flag (DIO_CH_STAT.WETTING (8 * (ch / 8) + i)))).length < 4) → exec (.inputFilteredEdge t ch level) s = .next (((((((v.setPin ch level).stampEvent ch).inc (DIO_CH_EDGE_CNT ch)).homeCapture ch).putFlag (DIO_CH_STAT.WETTING ch) true).setChan ch { ((((v.setPin ch level).stampEvent ch).inc (DIO_CH_EDGE_CNT ch)).homeCapture ch).chan ch with wetFrom := some ((((v.setPin ch level).stampEvent ch).inc (DIO_CH_EDGE_CNT ch)).homeCapture ch).localNow }).dioImage)) ∧
  (∀ (s : State) (t : Nat) (ch : Nat) (level : Bool) (e : Nat) (v : State), v = s.at_ t → ch < 64 → v.grpUsed (ch / 8) = true → v.bit DIO.STATE ch ≠ level → v.pers ch = 0 → v.filterMay ch = true → (v.setPin ch level).pers ch = 0 → ((((v.setPin ch level).stampEvent ch).inc (DIO_CH_EDGE_CNT ch)).homeCapture ch).flag (DIO_CH_CFG.WET ch) = true → ((((v.setPin ch level).stampEvent ch).inc (DIO_CH_EDGE_CNT ch)).homeCapture ch).flag (DIO_CH_STAT.WETTING ch) = false → (((((v.setPin ch level).stampEvent ch).inc (DIO_CH_EDGE_CNT ch)).homeCapture ch).chan ch).wetEnd = some e → ((((v.setPin ch level).stampEvent ch).inc (DIO_CH_EDGE_CNT ch)).homeCapture ch).localNow < e + 18000000 → exec (.inputFilteredEdge t ch level) s = .next ((((((v.setPin ch level).stampEvent ch).inc (DIO_CH_EDGE_CNT ch)).homeCapture ch).inc DIO_WET_SKIP_CNT).dioImage)) ∧
  (∀ (s : State) (t : Nat) (ch : Nat) (level : Bool) (v : State), v = s.at_ t → ch < 64 → v.grpUsed (ch / 8) = true → v.bit DIO.STATE ch ≠ level → v.pers ch = 0 → v.filterMay ch = true → (v.setPin ch level).pers ch = 0 → ((((v.setPin ch level).stampEvent ch).inc (DIO_CH_EDGE_CNT ch)).homeCapture ch).flag (DIO_CH_CFG.WET ch) = true → ((((v.setPin ch level).stampEvent ch).inc (DIO_CH_EDGE_CNT ch)).homeCapture ch).flag (DIO_CH_STAT.WETTING ch) = false → (4 ≤ ((List.range 8).filter (fun i => ((((v.setPin ch level).stampEvent ch).inc (DIO_CH_EDGE_CNT ch)).homeCapture ch).flag (DIO_CH_STAT.WETTING (8 * (ch / 8) + i)))).length) → exec (.inputFilteredEdge t ch level) s = .next ((((((v.setPin ch level).stampEvent ch).inc (DIO_CH_EDGE_CNT ch)).homeCapture ch).inc DIO_WET_SKIP_CNT).dioImage)) ∧
  (∀ (s : State) (t : Nat) (ch : Nat) (level : Bool) (v : State), v = s.at_ t → ch < 64 → v.grpUsed (ch / 8) = true → v.bit DIO.STATE ch ≠ level → v.pers ch ≠ 0 → (v.setPin ch level).pers ch ≠ 0 → exec (.inputFilteredEdge t ch level) s = .next (((v.setPin ch level).breakClear ch).dioImage)) ∧
  (∀ (s : State) (t : Nat) (ch : Nat) (v : State), v = s.at_ t → ch < 64 → v.flag (DIO_CH_STAT.WETTING ch) = true → v.wetDone ch = true → Completes (.wettingEnd t ch) s (fun u => u.flag (DIO_CH_STAT.WETTING ch) = false ∧ (u.chan ch).wetFrom = none ∧ (u.chan ch).wetEnd = some v.localNow ∧ (u.chan ch).demand = (v.chan ch).demand ∧ v.changesOnly u [(DIO_CH_STAT.WETTING ch).addr]))

/-- For c < 4. A loop out of tolerance for FT ms that is not at fault sets FAULT, increments LOOP_FAULT_CNT, keeps the instant, sets OPEN where the mode is 3 (HART) or the readback shows it off, updates the loop and writes channel record 2 with its readback. LOOP_RETRY ends the fault of the loops in its mask and of no other, AUTO_RETRY that of its loop once its seconds have passed; a healed loop shows FAULT and OPEN 0; neither changes a byte of memory. A regulator going into saturation sets COMPLIANCE and increments LOOP_COMPL_CNT; leaving it, it clears COMPLIANCE. GO of HART on a channel that is on and not busy, with LEN 1 to 288, sets HART_BUSY and increments LOOP_HTX_CNT; on one that is busy or not on, or with LEN 0 or above 288, it increments LOOP_HREJ_CNT. GO keeps the instant at which the request ends. A received frame that is no burst, after the end of the request that is open, ends HART_BUSY; one to no open request changes nothing; a burst leaves HART_BUSY; none changes a byte of memory. A missing reply, 28 character times after the end of the request, ends HART_BUSY and increments LOOP_HTMO_CNT; before that it changes nothing. Compliance, GO and the missing reply change no other word than those named and REGG_STAT (GO), and no byte of memory. A regulator that loses its refresh is dead, shows DRIVE 0, and changes no byte of memory. (R330, R331, R332, R333, R334, R335, R500) -/
def Obligations.CurrentLoops : Prop :=
  (∀ (s : State) (t : Nat) (c since : Nat) (v : State), v = s.at_ t → c < 4 → (v.loop c).overSince = some since → since + 1000000 * atLeast1 (v.get (LOOP_CH_FT.FT c)) ≤ v.localNow → v.flag (LOOP_CH_STAT.FAULT c) = false → exec (.loopFault t c) s = .next ((let x := (v.putFlag (LOOP_CH_STAT.FAULT c) true).inc LOOP_FAULT_CNT
    let x := x.setLoop c { x.loop c with overSince := none, faultAt := x.localNow }
    let x := (x.putIf (LOOP_CH_STAT.OPEN c) (x.loopMode c == 3 || x.loopOff c (x.get (LOOP_CH_VAL.READ c))).toNat).loopUpdate c
    x.recordChannel 2 c 0 (x.get (LOOP_CH_VAL.READ c))))) ∧
  (∀ (s : State) (t : Nat) (who : Initiator) (mask : BitVec 4) (v : State), v = s.at_ t → v.acts who = true → Completes (.loopRetry t who mask) s (fun u => (∀ c, c < 4 → mask.getLsbD c = true → u.flag (LOOP_CH_STAT.FAULT c) = false) ∧ (∀ c, c < 4 → mask.getLsbD c = false → u.flag (LOOP_CH_STAT.FAULT c) = v.flag (LOOP_CH_STAT.FAULT c)) ∧ ∀ a, u.byte a = v.byte a)) ∧
  (∀ (s : State) (t : Nat) (c : Nat) (v : State), v = s.at_ t → c < 4 → v.get (LOOP_CH_CFG.AUTO_RETRY c) ≠ 0 → v.flag (LOOP_CH_STAT.FAULT c) = true → (v.loop c).faultAt + v.get (LOOP_CH_CFG.AUTO_RETRY c) * 1000000000 ≤ v.localNow → exec (.loopAutoRetry t c) s = .next (v.loopHeal c)) ∧
  (∀ (s : State) (c : Nat), c < 4 → s.flag (LOOP_CH_STAT.FAULT c) = true → (s.loopHeal c).flag (LOOP_CH_STAT.FAULT c) = false ∧ (s.loopHeal c).flag (LOOP_CH_STAT.OPEN c) = false ∧ ∀ a, (s.loopHeal c).byte a = s.byte a) ∧
  (∀ (s : State) (c : Nat), c < 4 → s.flag (LOOP_CH_STAT.COMPLIANCE c) = false → Completes (.loopCompliance c true) s (fun u => u.flag (LOOP_CH_STAT.COMPLIANCE c) = true ∧ u.get LOOP_COMPL_CNT = (s.get LOOP_COMPL_CNT + 1) % 2 ^ 32 ∧ s.changesOnly u [(LOOP_CH_STAT.COMPLIANCE c).addr, LOOP_COMPL_CNT.addr])) ∧
  (∀ (s : State) (c : Nat), c < 4 → s.flag (LOOP_CH_STAT.COMPLIANCE c) = true → Completes (.loopCompliance c false) s (fun u => u.flag (LOOP_CH_STAT.COMPLIANCE c) = false ∧ s.changesOnly u [(LOOP_CH_STAT.COMPLIANCE c).addr])) ∧
  (∀ (s : State) (t : Nat) (who : Initiator) (c len : Nat) (v : State), v = s.at_ t → v.acts who = true → c < 4 → v.flag (LOOP_CH_STAT.HART_BUSY c) = false → v.hartOn c = true → 0 < len → len ≤ 288 → Completes (.hartGo t who c len) s (fun u => u.flag (LOOP_CH_STAT.HART_BUSY c) = true ∧ u.get LOOP_HTX_CNT = (v.get LOOP_HTX_CNT + 1) % 2 ^ 32 ∧ (u.loop c).sentAt = max v.localNow (v.loop c).turnAt + hartNs (v.hartRequest c len).length ∧ v.changesOnly u [REGG_STAT.UNLOCK_HELD.addr, (LOOP_CH_STAT.HART_BUSY c).addr, LOOP_HTX_CNT.addr])) ∧
  (∀ (s : State) (t : Nat) (who : Initiator) (c len : Nat) (v : State), v = s.at_ t → v.acts who = true → c < 4 → (v.hartOn c = false ∨ len = 0 ∨ 288 < len) → Completes (.hartGo t who c len) s (fun u => u.get LOOP_HREJ_CNT = (v.get LOOP_HREJ_CNT + 1) % 2 ^ 32 ∧ v.changesOnly u [REGG_STAT.UNLOCK_HELD.addr, LOOP_HREJ_CNT.addr])) ∧
  (∀ (s : State) (t : Nat) (who : Initiator) (c len : Nat) (v : State), v = s.at_ t → v.acts who = true → c < 4 → v.flag (LOOP_CH_STAT.HART_BUSY c) = true → Completes (.hartGo t who c len) s (fun u => u.get LOOP_HREJ_CNT = (v.get LOOP_HREJ_CNT + 1) % 2 ^ 32 ∧ v.changesOnly u [REGG_STAT.UNLOCK_HELD.addr, LOOP_HREJ_CNT.addr])) ∧
  (∀ (s : State) (t : Nat) (c : Nat) (frame : List (Byte × Bool)) (v : State), v = s.at_ t → c < 4 → v.hartOn c = true → v.flag (LOOP_CH_STAT.HART_BUSY c) = true → (v.loop c).sentAt ≤ v.localNow → Completes (.hartFrameRx t c frame false) s (fun u => u.flag (LOOP_CH_STAT.HART_BUSY c) = false ∧ (u.loop c).turnAt = v.localNow + hartNs hartRt2 ∧ ∀ a, u.byte a = v.byte a)) ∧
  (∀ (s : State) (t : Nat) (c : Nat) (frame : List (Byte × Bool)) (v : State), v = s.at_ t → c < 4 → v.hartOn c = true → (v.flag (LOOP_CH_STAT.HART_BUSY c) = false ∨ v.localNow < (v.loop c).sentAt) → exec (.hartFrameRx t c frame false) s = .next (v)) ∧
  (∀ (s : State) (t : Nat) (c : Nat) (frame : List (Byte × Bool)) (v : State), v = s.at_ t → c < 4 → v.hartOn c = true → Completes (.hartFrameRx t c frame true) s (fun u => u.flag (LOOP_CH_STAT.HART_BUSY c) = v.flag (LOOP_CH_STAT.HART_BUSY c) ∧ ∀ a, u.byte a = v.byte a)) ∧
  (∀ (s : State) (t : Nat) (c : Nat) (v : State), v = s.at_ t → c < 4 → v.flag (LOOP_CH_STAT.HART_BUSY c) = true → (v.loop c).sentAt + hartNs hartSto ≤ v.localNow → Completes (.hartTimeout t c) s (fun u => u.flag (LOOP_CH_STAT.HART_BUSY c) = false ∧ u.get LOOP_HTMO_CNT = (v.get LOOP_HTMO_CNT + 1) % 2 ^ 32 ∧ v.changesOnly u [(LOOP_CH_STAT.HART_BUSY c).addr, LOOP_HTMO_CNT.addr])) ∧
  (∀ (s : State) (t : Nat) (c : Nat) (v : State), v = s.at_ t → c < 4 → v.localNow < (v.loop c).sentAt + hartNs hartSto → exec (.hartTimeout t c) s = .next (v)) ∧
  (∀ (s : State) (t : Nat) (c : Nat) (v : State), v = s.at_ t → c < 4 → Completes (.driverRefreshLoss t (.regulator c)) s (fun u => (u.loop c).dead = true ∧ u.get (LOOP_CH_VAL.DRIVE c) = 0 ∧ ∀ a, u.byte a = s.byte a))

/-- A monitor window with all three pairs measured shows each deviation in its CLK_MON word, counts the window of the pair as good up to 4 (A-B) or 102 (A-R, B-R) and decides; one that measured no pair only decides. A running source with no edge fails; so does a running one still not qualified 16 ms after its start. A doubt of 16 ms is LOCKOUT, reason 7 (CLOCK). The proof of XO-B, due while XO-A is qualified, sets PROOF, takes XO-B out of qualification with its source running, keeps its instant, leaves a doubt standing only where XO-B was not qualified, and changes no word but CLK_STAT; the next one is due PROOF_H hours later (0 taken as 1). A failed crystal that stands is restarted 1 s after its last start or failure: it runs, is not qualified, keeps the instant, and no word but CLK_STAT changes. The last two change no byte of memory. (R387, R388, R389, R390, R391, R392) -/
def Obligations.ClockSources : Prop :=
  (∀ (s : State) (t : Nat) (ab ar br : Int) (v : State), v = s.at_ t → exec (.clockMonitorWindow t (some ab) (some ar) (some br)) s = .next ((let x := (v.putS CLK_MON_AB.DEV ab).setPair 0 ((v.clkPair 0).window (ab.natAbs ≤ 4))
    let x := (x.putS CLK_MON_AR.DEV ar).setPair 1 ((x.clkPair 1).window (ar.natAbs ≤ 102))
    let x := (x.putS CLK_MON_BR.DEV br).setPair 2 ((x.clkPair 2).window (br.natAbs ≤ 102))
    x.clockDecide))) ∧
  (∀ (s : State) (t : Nat) (v : State), v = s.at_ t → exec (.clockMonitorWindow t none none none) s = .next (v.clockDecide)) ∧
  (∀ (s : State) (t : Nat) (src : Nat) (v : State), v = s.at_ t → src < 3 → v.srcRuns src = true → exec (.clockSourceDead t src) s = .next (v.srcFail src)) ∧
  (∀ (s : State) (t : Nat) (src : Nat) (v : State), v = s.at_ t → src < 3 → v.srcRuns src = true → v.srcOk src = false → SMap.getD v.clk.restartAt src 0 + 16000000 ≤ v.localNow → exec (.qualifyTimeout t src) s = .next (v.srcFail src)) ∧
  (∀ (s : State) (t : Nat) (v : State), v = s.at_ t → v.flag CLK_STAT.DOUBT = true → v.clk.doubtAt + 16000000 ≤ v.localNow → exec (.doubtTimeout t) s = .next (v.enterLockout 7 0)) ∧
  (∀ (s : State) (t : Nat) (v : State), v = s.at_ t → v.srcOk 0 = true → v.proofDue = true → Completes (.xobProofStart t) s (fun u => u.flag CLK_STAT.PROOF = true ∧ u.srcOk 1 = false ∧ u.srcRuns 1 = true ∧ u.clk.proofAt = some v.localNow ∧ u.flag CLK_STAT.DOUBT = (v.flag CLK_STAT.DOUBT && !v.srcOk 1) ∧ v.changesOnly u [CLK_STAT.OK.addr])) ∧
  (∀ (s : State) (k : Nat), s.clk.proofAt = some k → s.proofDue = decide (k + atLeast1 (s.get CLK_CFG.PROOF_H) * 3600000000000 ≤ s.localNow)) ∧
  (∀ (s : State) (t : Nat) (src : Nat) (v : State), v = s.at_ t → src < 2 → v.bit CLK_STAT.FAIL src = true → v.srcRuns src = false → SMap.getD v.clk.restartAt src 0 + 1000000000 ≤ v.localNow → Completes (.crystalRestart t src) s (fun u => u.srcRuns src = true ∧ u.srcOk src = false ∧ SMap.find u.clk.restartAt src = some v.localNow ∧ v.changesOnly u [CLK_STAT.OK.addr]))

/-- A PLL that loses lock is bypassed, LOCAL from then on stepping from the present 40 ns phase, takes every link down and leads to LOCKOUT, reason 7 (CLOCK). A forced switch of domain 0 to 6 marks it in UNCLEAN, increments CLK_UNCLEAN_CNT, writes clock record 3 and ends what is in flight in it or into it: of the fabric and the rack bus domain no inbound rack request and no locked sequence is left. The reset sequence ends the reset with LOCAL at its tick edge, of the sources that run those that start left running and qualified, REF the first of XO-A, XO-B and the ring oscillator that starts (the last where no crystal does), the PLL locked and no BYPASS. A gear change that completes takes the gear aimed at, clears the busy flag, increments CLK_GEAR_CNT and checks for another. One to a higher gear, still busy 50 µs after its start, is abandoned: the busy flag is cleared, CLK_GEARFAIL_CNT incremented, the gear that failed kept, and a change to another gear wanted by then is checked for. (R397, R398, R399, R402, R413) -/
def Obligations.ClockDomains : Prop :=
  (∀ (s : State) (t : Nat) (v : State), v = s.at_ t → v.flag CLK_STAT.PLL_LOCK = true → exec (.pllLossOfLock t) s = .next (({ ((v.putFlag CLK_STAT.BYPASS true).putFlag CLK_STAT.PLL_LOCK false) with clk := { v.clk with phase := v.localNow % 40 } }).linksDown.enterLockout 7 0)) ∧
  (∀ (s : State) (t : Nat) (dom : Nat) (v : State), v = s.at_ t → dom < 7 → exec (.domainSwitchForced t dom) s = .next ((((v.putBit CLK_STAT.UNCLEAN dom true).inc CLK_UNCLEAN_CNT).recordClock 3).switchErrors dom)) ∧
  (∀ (s : State) (dom : Nat), (dom = 2 ∨ dom = 5) → (s.switchErrors dom).brg.inb = [] ∧ (s.switchErrors dom).brg.lock = none) ∧
  (∀ (s : State) (ok : BitVec 3) (rco : Nat), s.pwr.inReset = true → s.pwr.dormant = false → Completes (.resetSequence ok rco) s (fun u => u.pwr.inReset = false ∧ u.pwr.rcoEdge = rco ∧ u.ofs = 0 ∧ u.clk.run = s.clk.run &&& ok.toNat ∧ u.flag CLK_STAT.PLL_LOCK = true ∧ u.flag CLK_STAT.BYPASS = false ∧ u.get CLK_STAT.OK = ok.toNat ∧ u.get CLK_STAT.REF = if ok.getLsbD 0 then 0 else if ok.getLsbD 1 then 1 else 2)) ∧
  (∀ (s : State) (t : Nat) (svc : Bool) (v : State), v = s.at_ t → v.flag (gearBusy svc) = true → exec (.gearChangeDone t svc) s = .next ((((v.put (gearAct svc) (SMap.getD v.clk.gearTo svc.toNat 2)).putFlag (gearBusy svc) false).inc CLK_GEAR_CNT).gearCheck svc)) ∧
  (∀ (s : State) (t : Nat) (svc : Bool) (v : State), v = s.at_ t → v.flag (gearBusy svc) = true → v.get (gearAct svc) < SMap.getD v.clk.gearTo svc.toNat 2 → SMap.getD v.clk.gearAt svc.toNat 0 + 50000 ≤ v.localNow → exec (.gearChangeAbandon t svc) s = .next ((let x := (v.putFlag (gearBusy svc) false).inc CLK_GEARFAIL_CNT; ({ x with clk := { x.clk with gearOff := SMap.set x.clk.gearOff svc.toNat (SMap.getD v.clk.gearTo svc.toNat 2) } }).gearCheck svc)))

/-- Outside a reset and DORMANT, the evaluation captures the literals and shows an own source without PAIR in them. With three evaluators and no cross-check failure the output stage takes the bitwise majority of their results, and the evaluators whose result differs from it are counted as the minority. With two it takes what both agree on; a disagreement is remembered, and the second in a row is LOCKOUT of the trip fabric. With fewer than two, or with a cross-check failure, it is that LOCKOUT. A voter test is due 16384 ticks after the last good one. With fewer than three evaluators it stays pending. With three sound evaluators and no failure it clears VTEST_PEND, starts its period anew and keeps the captured literals; with a cross-check failure the outputs take the majority under test and LOCKOUT follows. The LOCKOUT of the trip fabric is tripLockout: reason 5 with the outputs gated again. (R200, R201, R202, R203, R204) -/
def Obligations.TripVote : Prop :=
  (∀ (s : State) (t : Nat) (f0 f1 f2 : BitVec 512) (v : State), v = s.at_ t → v.pwr.inReset = false → v.pwr.dormant = false → (({ v with trip := { v.trip with lits := v.capture } }).showOwn).evals = [0, 1, 2] → exec (.tripEvaluation t f0 f1 f2 false) s = .next (((({ v with trip := { v.trip with lits := v.capture } }).showOwn).takeOuts (major3 (evalValues (v.outputs v.capture) f0 f1 f2 0) (evalValues (v.outputs v.capture) f0 f1 f2 1) (evalValues (v.outputs v.capture) f0 f1 f2 2))).minority (bits3 (fun i => evalValues (v.outputs v.capture) f0 f1 f2 i != major3 (evalValues (v.outputs v.capture) f0 f1 f2 0) (evalValues (v.outputs v.capture) f0 f1 f2 1) (evalValues (v.outputs v.capture) f0 f1 f2 2))))) ∧
  (∀ (s : State) (t : Nat) (f0 f1 f2 : BitVec 512) (a b : Nat) (v : State), v = s.at_ t → v.pwr.inReset = false → v.pwr.dormant = false → (({ v with trip := { v.trip with lits := v.capture } }).showOwn).evals = [a, b] → exec (.tripEvaluation t f0 f1 f2 false) s = .next ((let x := (({ v with trip := { v.trip with lits := v.capture } }).showOwn).takeOuts (evalValues (v.outputs v.capture) f0 f1 f2 a &&& evalValues (v.outputs v.capture) f0 f1 f2 b); let y := { x with trip := { x.trip with prevMinor := (evalValues (v.outputs v.capture) f0 f1 f2 a != evalValues (v.outputs v.capture) f0 f1 f2 b).toNat } }; if (evalValues (v.outputs v.capture) f0 f1 f2 a != evalValues (v.outputs v.capture) f0 f1 f2 b) && (({ v with trip := { v.trip with lits := v.capture } }).showOwn).trip.prevMinor != 0 then y.tripLockout else y))) ∧
  (∀ (s : State) (t : Nat) (f0 f1 f2 : BitVec 512) (v : State), v = s.at_ t → v.pwr.inReset = false → v.pwr.dormant = false → 2 ≤ (({ v with trip := { v.trip with lits := v.capture } }).showOwn).evals.length → exec (.tripEvaluation t f0 f1 f2 true) s = .next ((({ v with trip := { v.trip with lits := v.capture } }).showOwn).tripLockout)) ∧
  (∀ (s : State) (t : Nat) (f0 f1 f2 : BitVec 512) (xfail : Bool) (v : State), v = s.at_ t → v.pwr.inReset = false → v.pwr.dormant = false → (({ v with trip := { v.trip with lits := v.capture } }).showOwn).evals.length < 2 → exec (.tripEvaluation t f0 f1 f2 xfail) s = .next ((({ v with trip := { v.trip with lits := v.capture } }).showOwn).tripLockout)) ∧
  (∀ (s : State) (t : Nat) (f0 f1 f2 : BitVec 512) (xfail : Bool) (v : State), v = s.at_ t → v.pwr.inReset = false → v.pwr.dormant = false → 16384 ≤ v.trip.testTicks → v.evals.length < 3 → exec (.tripVoterTest t f0 f1 f2 xfail) s = .next (v.putFlag TRIP_STAT.VTEST_PEND true)) ∧
  (∀ (s : State) (t : Nat) (v : State), v = s.at_ t → v.pwr.inReset = false → v.pwr.dormant = false → 16384 ≤ v.trip.testTicks → v.evals = [0, 1, 2] → Completes (.tripVoterTest t 0 0 0 false) s (fun u => u.flag TRIP_STAT.VTEST_PEND = false ∧ u.trip.testTicks = 0 ∧ u.trip.lits = v.capture)) ∧
  (∀ (s : State) (t : Nat) (f0 f1 f2 : BitVec 512) (v : State), v = s.at_ t → v.pwr.inReset = false → v.pwr.dormant = false → 16384 ≤ v.trip.testTicks → v.evals = [0, 1, 2] → exec (.tripVoterTest t f0 f1 f2 true) s = .next (((({ v with trip := { v.trip with lits := v.capture } }).takeOuts (major3 ((fun i => if i = v.get TRIP_VTEST_CNT % 3 then ~~~(evalValues (v.outputs v.capture) f0 f1 f2 i) else evalValues (v.outputs v.capture) f0 f1 f2 i) 0) ((fun i => if i = v.get TRIP_VTEST_CNT % 3 then ~~~(evalValues (v.outputs v.capture) f0 f1 f2 i) else evalValues (v.outputs v.capture) f0 f1 f2 i) 1) ((fun i => if i = v.get TRIP_VTEST_CNT % 3 then ~~~(evalValues (v.outputs v.capture) f0 f1 f2 i) else evalValues (v.outputs v.capture) f0 f1 f2 i) 2))).tripLockout)))

/-- A swap by the boot supervisor with an unlock sets SWAP_PEND and keeps the bank asked for; the bank and every byte of memory stay. A source below 32 that is not lost, no own source without PAIR, and not heard for 8 + EXPECT ticks (2 to 16) is lost: LIVE and BITS go to 0, TRIP_LOSS_CNT is incremented, and the functions whose mask names it take the fault of a lost source. A reset input released after 800 to 80000 ticks of 62.5 us opens a latched function of policy 0 with no cause present; where the policy is another or a cause is present, it stays latched and TRIP_RST_REJ_CNT is the only word that changes, by one; outside that window nothing opens. A high phase longer than 80000 ticks shows RPHASE 3, the only word that changes. TRIP_RESTART by the boot supervisor with an unlock opens a latched function of policy 1 with no cause present, with the token of the session if one is open; with a cause present or another policy it increments TRIP_RST_REJ_CNT and changes only that word and REGG_STAT. A latch of a function already latched changes only its cause. (R205, R211, R215, R216, R217, R218) -/
def Obligations.TripLatches : Prop :=
  (∀ (s : State) (t : Nat) (bank : Bool) (v : State), v = s.at_ t → v.unlocked .boot 0x0B = true → Completes (.tripSwap t .boot bank) s (fun u => u.flag TRIP_STAT.SWAP_PEND = true ∧ u.trip.swapTo = bank.toNat ∧ u.get TRIP_STAT.BANK = v.get TRIP_STAT.BANK ∧ ∀ a, u.byte a = v.byte a)) ∧
  (∀ (s : State) (t : Nat) (src : Nat) (v : State), v = s.at_ t → src < 32 → v.srcLost src = false → v.ownAlone src = false → 8 + clampNat 2 16 (v.get (TRIP_SRC.EXPECT src)) ≤ (SMap.getD v.trip.srcs src ⟨false, 0, 0⟩).ticks → exec (.sourceLoss t src) s = .next ((let x := ((v.putFlag (TRIP_SRC_STAT.LIVE src) false).put (TRIP_SRC_STAT.BITS src) 0).inc TRIP_LOSS_CNT; x.faultFns 0 (fun n => bitOf (x.get (TRIP_FN_SRC.MASK n)) src)))) ∧
  (∀ (s : State) (t : Nat) (fn high : Nat) (v : State), v = s.at_ t → fn < 32 → (SMap.getD v.trip.fns fn ⟨false, 0, 0, none⟩).release = some high → 800 ≤ high → high ≤ 80000 → v.flag (TRIP_FN_STAT.LATCHED fn) = true → v.get (TRIP_FN.POLICY fn) = 0 → v.causePresent fn = false → exec (.resetRelease t fn) s = .next (({ v with trip := { v.trip with fns := SMap.set v.trip.fns fn { SMap.getD v.trip.fns fn ⟨false, 0, 0, none⟩ with release := none } } }).fnOpen fn 2 0)) ∧
  (∀ (s : State) (t : Nat) (fn high : Nat) (v : State), v = s.at_ t → fn < 32 → (SMap.getD v.trip.fns fn ⟨false, 0, 0, none⟩).release = some high → 800 ≤ high → high ≤ 80000 → v.flag (TRIP_FN_STAT.LATCHED fn) = true → (v.get (TRIP_FN.POLICY fn) ≠ 0 ∨ v.causePresent fn = true) → Completes (.resetRelease t fn) s (fun u => u.flag (TRIP_FN_STAT.LATCHED fn) = true ∧ u.get TRIP_RST_REJ_CNT = (v.get TRIP_RST_REJ_CNT + 1) % 2 ^ 32 ∧ v.changesOnly u [TRIP_RST_REJ_CNT.addr])) ∧
  (∀ (s : State) (t : Nat) (fn high : Nat) (v : State), v = s.at_ t → fn < 32 → (SMap.getD v.trip.fns fn ⟨false, 0, 0, none⟩).release = some high → (high < 800 ∨ 80000 < high) → Completes (.resetRelease t fn) s (fun u => v.changesOnly u [])) ∧
  (∀ (s : State) (t : Nat) (fn : Nat) (v : State), v = s.at_ t → fn < 32 → (SMap.getD v.trip.fns fn ⟨false, 0, 0, none⟩).level = true → 80000 < (SMap.getD v.trip.fns fn ⟨false, 0, 0, none⟩).ticks → Completes (.resetHighTooLong t fn) s (fun u => u.get (TRIP_FN_STAT.RPHASE fn) = 3 ∧ v.changesOnly u [(TRIP_FN_STAT.RPHASE fn).addr])) ∧
  (∀ (s : State) (t : Nat) (fn : BitVec 5) (v : State), v = s.at_ t → v.unlocked .boot 0x0B = true → (v.dropUnlock .boot).flag (TRIP_FN_STAT.LATCHED fn.toNat) = true → (v.dropUnlock .boot).get (TRIP_FN.POLICY fn.toNat) = 1 → (v.dropUnlock .boot).causePresent fn.toNat = false → exec (.tripRestart t .boot fn) s = .next ((v.dropUnlock .boot).fnOpen fn.toNat 2 (match v.boot.session with | some x => x.token | none => 0))) ∧
  (∀ (s : State) (t : Nat) (fn : BitVec 5) (v : State), v = s.at_ t → v.unlocked .boot 0x0B = true → (v.dropUnlock .boot).flag (TRIP_FN_STAT.LATCHED fn.toNat) = true → ((v.dropUnlock .boot).get (TRIP_FN.POLICY fn.toNat) ≠ 1 ∨ (v.dropUnlock .boot).causePresent fn.toNat = true) → Completes (.tripRestart t .boot fn) s (fun u => u.get TRIP_RST_REJ_CNT = (v.get TRIP_RST_REJ_CNT + 1) % 2 ^ 32 ∧ v.changesOnly u [REGG_STAT.UNLOCK_HELD.addr, TRIP_RST_REJ_CNT.addr])) ∧
  (∀ (s : State) (n cause : Nat), n < 32 → cause < 16 → s.flag (TRIP_FN_STAT.LATCHED n) = true → (s.fnLatch n cause).get (TRIP_FN_STAT.CAUSE n) = cause % 8 ∧ (s.fnLatch n cause).flag (TRIP_FN_STAT.LATCHED n) = true ∧ s.changesOnly (s.fnLatch n cause) [(TRIP_FN_STAT.CAUSE n).addr])

/-- The own sending state first follows whether spokes may be sent. A change of the own bits, or one that waits, then leaves at once as a spoke where a token is left; without a token it waits, from then on, and TRIP_TOKW_CNT, the only word that changes, is incremented, once per wait. A frame of good format and kind 5, not the own ID heard back, goes to on_spoke(); the own ID heard on a lane that takes frames is the lane fault DUPID; a frame of good format and another kind changes nothing; one with an FCS error increments LANE_n_FCS_CNT. A spoke whose sender is no source increments TRIP_REJ_CNT, the only word that changes. (R208, R210, R252) -/
def Obligations.Spokes : Prop :=
  (∀ (s : State) (t : Nat) (v : State), v = s.at_ t → v.spokeState.sendsSpokes = true → (v.spokeState.trip.waitEvt = true ∨ v.spokeState.ownBits ≠ v.spokeState.trip.sentBits) → 0 < v.spokeState.trip.tokens → exec (.eventSpoke t) s = .next (v.spokeState.sendSpoke)) ∧
  (∀ (s : State) (t : Nat) (v : State), v = s.at_ t → v.spokeState.sendsSpokes = true → (v.spokeState.trip.waitEvt = true ∨ v.spokeState.ownBits ≠ v.spokeState.trip.sentBits) → v.spokeState.trip.tokens = 0 → v.spokeState.trip.waitEvt = false → Completes (.eventSpoke t) s (fun u => u.trip.waitEvt = true ∧ u.get TRIP_TOKW_CNT = (v.get TRIP_TOKW_CNT + 1) % 2 ^ 32 ∧ v.changesOnly u [TRIP_TOKW_CNT.addr])) ∧
  (∀ (s : State) (t : Nat) (v : State), v = s.at_ t → v.spokeState.sendsSpokes = true → (v.spokeState.trip.waitEvt = true ∨ v.spokeState.ownBits ≠ v.spokeState.trip.sentBits) → v.spokeState.trip.tokens = 0 → v.spokeState.trip.waitEvt = true → exec (.eventSpoke t) s = .next (v.spokeState)) ∧
  (∀ (s : State) (t : Nat) (lane : Nat) (frame : List Byte) (fcs : Bool) (v : State), v = s.at_ t → lane < 2 → (v.laneFormat lane frame fcs).2 = true → (laneHdr frame).kind = 5 → (v.laneTakes lane = false ∨ (laneHdr frame).sender ≠ v.node) → exec (.spokeRx t lane frame fcs) s = .next (v.onSpoke lane frame)) ∧
  (∀ (s : State) (t : Nat) (lane : Nat) (frame : List Byte) (fcs : Bool) (v : State), v = s.at_ t → lane < 2 → (v.laneFormat lane frame fcs).2 = true → (laneHdr frame).kind = 5 → v.laneTakes lane = true → (laneHdr frame).sender = v.node → exec (.spokeRx t lane frame fcs) s = .next (v.laneFault lane 1)) ∧
  (∀ (s : State) (t : Nat) (lane : Nat) (frame : List Byte) (fcs : Bool) (v : State), v = s.at_ t → lane < 2 → (v.laneFormat lane frame fcs).2 = true → (laneHdr frame).kind ≠ 5 → exec (.spokeRx t lane frame fcs) s = .next (v)) ∧
  (∀ (s : State) (t : Nat) (lane : Nat) (frame : List Byte) (v : State), v = s.at_ t → lane < 2 → exec (.spokeRx t lane frame false) s = .next (v.inc (LANE_FCS_CNT lane))) ∧
  (∀ (s : State) (lane : Nat) (f : List Byte), s.sourceOf (laneHdr f).sender = none → (s.onSpoke lane f).get TRIP_REJ_CNT = (s.get TRIP_REJ_CNT + 1) % 2 ^ 32 ∧ s.changesOnly (s.onSpoke lane f) [TRIP_REJ_CNT.addr])

/-- Outside DORMANT: hold-up, not yet shown, at a supply below 40 % or above 145 % of nominal sets HOLDUP, increments PWR_INTR_CNT and enters the stages up to 2; at a supply between 45 % and 140 % it ends: HOLDUP goes to 0 and no other word and no byte of memory changes; at another supply either leaves the state as it is. A stage is entered from the one below with its actions: stage 1 below TH1 (60 to 70, as clamped), stage 2 below TH2 (at most TH1 - 3) or in hold-up, stage 3 in hold-up with the reservoir below 330, stage 4 with it below 240 (in 0.1 V). Stage 2, 3 or 4 from stage 0 enters every lower one first, in ascending order; one already entered is not entered again. The highest stage is left with its own undoing: stage 1 at TH1 + 5, stage 2 at TH2 + 5, stage 3 with the reservoir at 400, stages 2 and 3 not during hold-up; in hold-up they stay. At the flush deadline, where no record waits any more or 1.0 ms has passed, REC_FLUSHLOST_CNT takes the records still queued, everything that DORMANT does not keep is cleared, and the module is dormant with no clock source running. (R405, R407, R408, R469) -/
def Obligations.Shedding : Prop :=
  (∀ (s : State) (t : Nat) (sup : Nat) (v : State), v = s.at_ t → v.flag PWR_STAT.HOLDUP = false → (v.reaches sup 40 = false ∨ 145 * unOf (v.get PWR_CFG.UN) < 100 * sup) → v.pwr.dormant = false → exec (.holdupEntry t sup) s = .next (((v.putFlag PWR_STAT.HOLDUP true).inc PWR_INTR_CNT).enterStage 2)) ∧
  (∀ (s : State) (t : Nat) (sup : Nat) (v : State), v = s.at_ t → v.reaches sup 40 = true → 100 * sup ≤ 145 * unOf (v.get PWR_CFG.UN) → exec (.holdupEntry t sup) s = .next (v)) ∧
  (∀ (s : State) (t : Nat) (sup : Nat) (v : State), v = s.at_ t → v.reaches sup 45 = true → 100 * sup ≤ 140 * unOf (v.get PWR_CFG.UN) → Completes (.holdupExit t sup) s (fun u => u.get PWR_STAT.HOLDUP = 0 ∧ v.changesOnly u [PWR_STAT.HOLDUP.addr])) ∧
  (∀ (s : State) (t : Nat) (sup : Nat) (v : State), v = s.at_ t → (v.reaches sup 45 = false ∨ 140 * unOf (v.get PWR_CFG.UN) < 100 * sup) → exec (.holdupExit t sup) s = .next (v)) ∧
  (∀ (s : State) (t : Nat) (sup : Nat) (v : State), v = s.at_ t → v.pwr.dormant = false → v.reaches sup v.th1 = false → v.get PWR_STAT.STAGE = 0 → exec (.stage1Entry t sup) s = .next (v.stageIn 1)) ∧
  (∀ (s : State) (t : Nat) (sup : Nat) (v : State), v = s.at_ t → 1 ≤ v.get PWR_STAT.STAGE → exec (.stage1Entry t sup) s = .next (v)) ∧
  (∀ (s : State) (t : Nat) (sup : Nat) (v : State), v = s.at_ t → v.pwr.dormant = false → (v.reaches sup v.th2 = false ∨ v.flag PWR_STAT.HOLDUP = true) → v.get PWR_STAT.STAGE = 1 → exec (.stage2Entry t sup) s = .next (v.stageIn 2)) ∧
  (∀ (s : State) (t : Nat) (sup : Nat) (v : State), v = s.at_ t → 2 ≤ v.get PWR_STAT.STAGE → exec (.stage2Entry t sup) s = .next (v)) ∧
  (∀ (s : State) (t : Nat) (hold : Nat) (v : State), v = s.at_ t → v.pwr.dormant = false → hold < 240 → v.get PWR_STAT.STAGE = 3 → exec (.stage4Entry t hold) s = .next (v.stageIn 4)) ∧
  (∀ (s : State) (t : Nat) (hold : Nat) (v : State), v = s.at_ t → 4 ≤ v.get PWR_STAT.STAGE → exec (.stage4Entry t hold) s = .next (v)) ∧
  (∀ (s : State) (t : Nat) (sup : Nat) (v : State), v = s.at_ t → v.reaches sup v.th1 = true → exec (.stage1Entry t sup) s = .next (v)) ∧
  (∀ (s : State) (t : Nat) (sup : Nat) (v : State), v = s.at_ t → v.reaches sup v.th2 = true → v.flag PWR_STAT.HOLDUP = false → exec (.stage2Entry t sup) s = .next (v)) ∧
  (∀ (s : State) (t : Nat) (hold : Nat) (v : State), v = s.at_ t → 240 ≤ hold → exec (.stage4Entry t hold) s = .next (v)) ∧
  (∀ (s : State) (t : Nat) (hold : Nat) (v : State), v = s.at_ t → v.pwr.dormant = false → v.flag PWR_STAT.HOLDUP = true → hold < 330 → v.get PWR_STAT.STAGE = 2 → exec (.stage3Entry t hold) s = .next (v.stageIn 3)) ∧
  (∀ (s : State) (t : Nat) (hold : Nat) (v : State), v = s.at_ t → v.pwr.dormant = false → v.flag PWR_STAT.HOLDUP = true → hold < 330 → v.get PWR_STAT.STAGE = 0 → exec (.stage3Entry t hold) s = .next (((v.stageIn 1).stageIn 2).stageIn 3)) ∧
  (∀ (s : State) (t : Nat) (hold : Nat) (v : State), v = s.at_ t → (v.flag PWR_STAT.HOLDUP = false ∨ 330 ≤ hold) → exec (.stage3Entry t hold) s = .next (v)) ∧
  (∀ (s : State) (t : Nat) (sup : Nat) (v : State), v = s.at_ t → v.pwr.dormant = false → (v.reaches sup v.th2 = false ∨ v.flag PWR_STAT.HOLDUP = true) → v.get PWR_STAT.STAGE = 0 → exec (.stage2Entry t sup) s = .next ((v.stageIn 1).stageIn 2)) ∧
  (∀ (s : State) (t : Nat) (hold : Nat) (v : State), v = s.at_ t → v.pwr.dormant = false → hold < 240 → v.get PWR_STAT.STAGE = 0 → exec (.stage4Entry t hold) s = .next ((((v.stageIn 1).stageIn 2).stageIn 3).stageIn 4)) ∧
  (∀ (s : State) (t : Nat) (sup hold : Nat) (v : State), v = s.at_ t → v.get PWR_STAT.STAGE = 1 → v.reaches sup (v.th1 + 5) = true → exec (.stageLeave t sup hold) s = .next ((((v.put PWR_STAT.STAGE 0).put CLK_GEAR_STAT.S_CAP 2).gearsCheck).traceShed)) ∧
  (∀ (s : State) (t : Nat) (sup hold : Nat) (v : State), v = s.at_ t → v.get PWR_STAT.STAGE = 1 → v.reaches sup (v.th1 + 5) = false → exec (.stageLeave t sup hold) s = .next (v)) ∧
  (∀ (s : State) (t : Nat) (sup hold : Nat) (v : State), v = s.at_ t → v.get PWR_STAT.STAGE = 2 → v.flag PWR_STAT.HOLDUP = false → v.reaches sup (v.th2 + 5) = true → exec (.stageLeave t sup hold) s = .next ((List.range 8).foldl State.ringRun ([Initiator.s0, .s1, .s2, .s3].foldl State.coreRestart (v.put PWR_STAT.STAGE 1)).showBrg.showMvb.loopsBack)) ∧
  (∀ (s : State) (t : Nat) (sup hold : Nat) (v : State), v = s.at_ t → v.get PWR_STAT.STAGE = 2 → v.reaches sup (v.th2 + 5) = false → exec (.stageLeave t sup hold) s = .next (v)) ∧
  (∀ (s : State) (t : Nat) (sup hold : Nat) (v : State), v = s.at_ t → v.get PWR_STAT.STAGE = 3 → v.flag PWR_STAT.HOLDUP = false → 400 ≤ hold → exec (.stageLeave t sup hold) s = .next (((((v.put PWR_STAT.STAGE 2).put DOOR_STAT.SHED_HELD 0).put CLK_GEAR_STAT.T_CAP 2).gearsCheck))) ∧
  (∀ (s : State) (t : Nat) (sup hold : Nat) (v : State), v = s.at_ t → v.get PWR_STAT.STAGE = 3 → hold < 400 → exec (.stageLeave t sup hold) s = .next (v)) ∧
  (∀ (s : State) (t : Nat) (sup hold : Nat) (v : State), v = s.at_ t → v.flag PWR_STAT.HOLDUP = true → (v.get PWR_STAT.STAGE = 2 ∨ v.get PWR_STAT.STAGE = 3) → exec (.stageLeave t sup hold) s = .next (v)) ∧
  (∀ (s : State) (t : Nat) (v : State), v = s.at_ t → v.pwr.flush = true → (v.nextQueued = none ∨ v.pwr.flushAt + 1000000 ≤ v.localNow) → exec (.flushDeadline t) s = .next ((let x := (v.add REC_FLUSHLOST_CNT v.recd.queue.length).cleared .dormant; { x with pwr := { x.pwr with dormant := true }, clk := { x.clk with run := 0 } })))

/-- Where no reset is in progress, each of these shows its kind and sub-cause in SYS_RSTCAUSE (power-on 1, 0; brown-out 2, 1; external 3, 0; watchdog, its timeout passed, 4, 1; rail fault 2, 3; a brown-out with the backup domain lost counts as power-on), and after it the module is in its reset sequence with cycle, Tricycle and lane state as at power-up and the queue of commands as it was; the way out of DORMANT is 2, 2. External, watchdog and rail resets are not taken in DORMANT. Such a hard reset other than SYS and watchdog leaves every memory byte below the recorder MRAM at 0. SYS by the boot supervisor with an unlock is the own reset with sub-cause 1. CORE with a target below 4 restarts that service core, increments SYS_DOMRST_CNT, opens the grace period of the configuration check and ends the service session; with a higher one it increments SYS_RST_REJ_CNT and changes only that word and REGG_STAT. DOMAIN in a mode other than 2 and 3 with a target below 3 (where that takes lane time away, loses the sources that need it,) clears the domain and its registers, increments SYS_DOMRST_CNT, opens that grace period and brings role, MVB, rack and outputs up to date; in modes 2 and 3 or with a higher target it is refused like CORE. (R9, R410, R411, R412, R413, R414, R415, R484) -/
def Obligations.ResetCauses : Prop :=
  (∀ (s : State), s.pwr.inReset = false → Completes (.powerOnReset) s (fun u => u.get SYS_RSTCAUSE.KIND = 1 ∧ u.get SYS_RSTCAUSE.SUB = 0 ∧ u.pwr.inReset = true ∧ u.cyc = State.reset.cyc ∧ u.tri = State.reset.tri ∧ u.lanes = State.reset.lanes ∧ u.pending = s.pending)) ∧
  (∀ (s : State), s.pwr.inReset = false → s.nv.bkupLost = false → Completes (.brownOutReset) s (fun u => u.get SYS_RSTCAUSE.KIND = 2 ∧ u.get SYS_RSTCAUSE.SUB = 1 ∧ u.pwr.inReset = true ∧ u.cyc = State.reset.cyc ∧ u.tri = State.reset.tri ∧ u.lanes = State.reset.lanes ∧ u.pending = s.pending)) ∧
  (∀ (s : State), s.pwr.inReset = false → s.nv.bkupLost = true → Completes (.brownOutReset) s (fun u => u.get SYS_RSTCAUSE.KIND = 1 ∧ u.get SYS_RSTCAUSE.SUB = 0 ∧ u.pwr.inReset = true ∧ u.cyc = State.reset.cyc ∧ u.tri = State.reset.tri ∧ u.lanes = State.reset.lanes ∧ u.pending = s.pending)) ∧
  (∀ (s : State), s.pwr.dormant = true → s.nv.bkupLost = false → Completes (.dormantExit) s (fun u => u.get SYS_RSTCAUSE.KIND = 2 ∧ u.get SYS_RSTCAUSE.SUB = 2 ∧ u.pwr.inReset = true ∧ u.cyc = State.reset.cyc ∧ u.tri = State.reset.tri ∧ u.lanes = State.reset.lanes ∧ u.pending = s.pending)) ∧
  (∀ (s : State) (t : Nat), s.pwr.inReset = false → s.pwr.dormant = false → Completes (.extReset t) s (fun u => u.get SYS_RSTCAUSE.KIND = 3 ∧ u.get SYS_RSTCAUSE.SUB = 0 ∧ u.pwr.inReset = true ∧ u.cyc = State.reset.cyc ∧ u.tri = State.reset.tri ∧ u.lanes = State.reset.lanes ∧ u.pending = s.pending)) ∧
  (∀ (s : State) (t rco : Nat), s.pwr.inReset = false → s.pwr.dormant = false → s.pwr.wdgAt + s.wdgTmo * 1000000 ≤ s.wdgNow rco → Completes (.watchdogExpiry t rco) s (fun u => u.get SYS_RSTCAUSE.KIND = 4 ∧ u.get SYS_RSTCAUSE.SUB = 1 ∧ u.pwr.inReset = true ∧ u.cyc = State.reset.cyc ∧ u.tri = State.reset.tri ∧ u.lanes = State.reset.lanes ∧ u.pending = s.pending)) ∧
  (∀ (s : State) (t : Nat), s.pwr.inReset = false → s.pwr.dormant = false → s.nv.bkupLost = false → Completes (.railFault t) s (fun u => u.get SYS_RSTCAUSE.KIND = 2 ∧ u.get SYS_RSTCAUSE.SUB = 3 ∧ u.pwr.inReset = true ∧ u.cyc = State.reset.cyc ∧ u.tri = State.reset.tri ∧ u.lanes = State.reset.lanes ∧ u.pending = s.pending)) ∧
  (∀ (s : State) (t : Nat) (v : State), v = s.at_ t → v.unlocked .boot 0x00 = true → exec (.sys t .boot) s = .next ((v.dropUnlock .boot).ownReset 1)) ∧
  (∀ (s : State) (t : Nat) (target : Nat) (v : State), v = s.at_ t → v.unlocked .boot 0x00 = true → target < 4 → exec (.core t .boot target) s = .next (((((v.dropUnlock .boot).coreRestart (.ofIdx (target + 1))).showBrg).inc SYS_DOMRST_CNT).graceByReset)) ∧
  (∀ (s : State) (t : Nat) (target : Nat) (v : State), v = s.at_ t → v.unlocked .boot 0x00 = true → 4 ≤ target → Completes (.core t .boot target) s (fun u => u.get SYS_RST_REJ_CNT = (v.get SYS_RST_REJ_CNT + 1) % 2 ^ 32 ∧ v.changesOnly u [REGG_STAT.UNLOCK_HELD.addr, SYS_RST_REJ_CNT.addr])) ∧
  (∀ (s : State) (t : Nat) (target : Nat) (v : State), v = s.at_ t → v.unlocked .boot 0x00 = true → target < 3 → (v.dropUnlock .boot).get SYS_STAT.MODE = 1 → exec (.domain t .boot target) s = .next ((let x := (v.dropUnlock .boot); let x := if target = 0 && x.flag TIME_STAT.LANE_SYNC then x.loseSources else x; ((((((x.domainClear target).resetRegs .domain (inDomain target)).inc SYS_DOMRST_CNT).graceByReset).showRole.showMvb.rackResetCheck).outputsRefresh).showTime))) ∧
  (∀ (s : State) (t : Nat) (target : Nat) (v : State), v = s.at_ t → v.unlocked .boot 0x00 = true → (3 ≤ target ∨ v.get SYS_STAT.MODE = 2 ∨ v.get SYS_STAT.MODE = 3) → Completes (.domain t .boot target) s (fun u => u.get SYS_RST_REJ_CNT = (v.get SYS_RST_REJ_CNT + 1) % 2 ^ 32 ∧ v.changesOnly u [REGG_STAT.UNLOCK_HELD.addr, SYS_RST_REJ_CNT.addr])) ∧
  (∀ (s : State) (k : ResetKind) (kind sub a : Nat), a < mramBase → k ≠ .sys → k ≠ .wdg → (s.hardReset k kind sub).byte a = 0)

/-- By the boot supervisor: the first half of the kick, none being held, is held, and only REGG_STAT changes. The second half after it refreshes the watchdog while the configuration is open or WIN ms have passed since the last refresh: the half is let go, the instant kept, CFG_OPEN goes to 0, REMAIN shows the timeout, no byte of memory changes; the time of RCO being meant; outside a reset, before WIN it is the watchdog reset with sub-cause 2, and a second half with none held, a first half with one held, and any other value show kind 4, sub-cause 2 in SYS_RSTCAUSE. The configuration takes TMO and WIN while it is open, changing only its word and REGG_STAT; closed, it increments SYS_WDG_REJ_CNT and changes only that word and REGG_STAT. A loss of the backup domain is kept and changes no word and no byte. An opening of the tamper loop adds the ticks to the RTC, increments SYS_TAMPER_CNT, stores the RTC in SYS_TAMPER_TIME and sets OPEN; while OPEN is 1 it changes nothing; the closed loop clears OPEN, the only word that changes. None of these changes a byte of memory, the resets apart. (R414, R416, R418) -/
def Obligations.Watchdog : Prop :=
  (∀ (s : State) (t : Nat) (rco : Nat) (v : State), v = s.at_ t → v.pwr.wdgHalf = false → Completes (.wdgKick t rco .boot 0x00A5) s (fun u => u.pwr.wdgHalf = true ∧ v.changesOnly u [REGG_STAT.UNLOCK_HELD.addr])) ∧
  (∀ (s : State) (t : Nat) (rco : Nat) (v : State), v = s.at_ t → v.pwr.wdgHalf = true → v.flag SYS_WDG_STAT.CFG_OPEN = true → Completes (.wdgKick t rco .boot 0x005A) s (fun u => u.pwr.wdgHalf = false ∧ u.pwr.wdgAt = v.wdgNow rco ∧ u.flag SYS_WDG_STAT.CFG_OPEN = false ∧ u.get SYS_WDG_STAT.REMAIN = v.wdgTmo ∧ ∀ a, u.byte a = v.byte a)) ∧
  (∀ (s : State) (t : Nat) (rco : Nat) (v : State), v = s.at_ t → v.pwr.wdgHalf = true → v.flag SYS_WDG_STAT.CFG_OPEN = false → v.pwr.wdgAt + v.wdgWin * 1000000 ≤ v.wdgNow rco → Completes (.wdgKick t rco .boot 0x005A) s (fun u => u.pwr.wdgHalf = false ∧ u.pwr.wdgAt = v.wdgNow rco ∧ u.flag SYS_WDG_STAT.CFG_OPEN = false ∧ u.get SYS_WDG_STAT.REMAIN = v.wdgTmo ∧ ∀ a, u.byte a = v.byte a)) ∧
  (∀ (s : State) (t : Nat) (rco : Nat) (v : State), v = s.at_ t → v.pwr.inReset = false → v.pwr.wdgHalf = true → v.flag SYS_WDG_STAT.CFG_OPEN = false → v.wdgNow rco < v.pwr.wdgAt + v.wdgWin * 1000000 → Completes (.wdgKick t rco .boot 0x005A) s (fun u => u.get SYS_RSTCAUSE.KIND = 4 ∧ u.get SYS_RSTCAUSE.SUB = 2)) ∧
  (∀ (s : State) (t : Nat) (rco : Nat) (v : State), v = s.at_ t → v.pwr.inReset = false → v.pwr.wdgHalf = false → Completes (.wdgKick t rco .boot 0x005A) s (fun u => u.get SYS_RSTCAUSE.KIND = 4 ∧ u.get SYS_RSTCAUSE.SUB = 2)) ∧
  (∀ (s : State) (t : Nat) (rco : Nat) (v : State), v = s.at_ t → v.pwr.inReset = false → v.pwr.wdgHalf = true → Completes (.wdgKick t rco .boot 0x00A5) s (fun u => u.get SYS_RSTCAUSE.KIND = 4 ∧ u.get SYS_RSTCAUSE.SUB = 2)) ∧
  (∀ (s : State) (t : Nat) (rco : Nat) (key : BitVec 16) (v : State), v = s.at_ t → v.pwr.inReset = false → key ≠ 0x00A5 → key ≠ 0x005A → Completes (.wdgKick t rco .boot key) s (fun u => u.get SYS_RSTCAUSE.KIND = 4 ∧ u.get SYS_RSTCAUSE.SUB = 2)) ∧
  (∀ (s : State) (t : Nat) (tmo win : BitVec 8) (v : State), v = s.at_ t → v.flag SYS_WDG_STAT.CFG_OPEN = true → Completes (.wdgCfgWrite t .boot tmo win) s (fun u => u.get SYS_WDG_CFG.TMO = tmo.toNat ∧ u.get SYS_WDG_CFG.WIN = win.toNat ∧ v.changesOnly u [REGG_STAT.UNLOCK_HELD.addr, SYS_WDG_CFG.TMO.addr])) ∧
  (∀ (s : State) (t : Nat) (tmo win : BitVec 8) (v : State), v = s.at_ t → v.flag SYS_WDG_STAT.CFG_OPEN = false → Completes (.wdgCfgWrite t .boot tmo win) s (fun u => u.get SYS_WDG_REJ_CNT = (v.get SYS_WDG_REJ_CNT + 1) % 2 ^ 32 ∧ v.changesOnly u [REGG_STAT.UNLOCK_HELD.addr, SYS_WDG_REJ_CNT.addr])) ∧
  (∀ (s : State), Completes (.backupDomainLoss) s (fun u => u.nv.bkupLost = true ∧ s.changesOnly u [])) ∧
  (∀ (s : State) (ticks : Nat), s.flag SYS_TAMPER.OPEN = false → Completes (.tamperOpening ticks) s (fun u => u.flag SYS_TAMPER.OPEN = true ∧ u.get SYS_TAMPER_CNT = (s.get SYS_TAMPER_CNT + 1) % 2 ^ 32 ∧ u.get SYS_RTC.RTC = (s.get SYS_RTC.RTC + ticks) % 2 ^ 64 ∧ u.get SYS_TAMPER_TIME.TIME = u.get SYS_RTC.RTC ∧ ∀ a, u.byte a = s.byte a)) ∧
  (∀ (s : State) (ticks : Nat), s.flag SYS_TAMPER.OPEN = true → Completes (.tamperOpening ticks) s (fun u => u = s)) ∧
  (∀ (s : State), Completes (.tamperLoopClosed) s (fun u => u.get SYS_TAMPER.OPEN = 0 ∧ s.changesOnly u [SYS_TAMPER.OPEN.addr]))

/-- With LINK 0, outside BOOT and DORMANT, on a crystal and without BYPASS, a link that comes up sets LINK, puts a frame on the twin wire and starts the HELLO period; only TWIN_STAT changes. A link that goes down clears LINK and PAIRED, ends both Panniers and increments TWIN_LINK_CNT; only TWIN_STAT, that counter and TWIN_PAN_ERR_CNT may change. HELLO goes out again after 16384 ticks with LINK; no word changes. A good HELLO of 16 bytes is judged from its fields, a good heartbeat of 32 bytes is kept, shows PMODE and PCLAIM, and its claim is obeyed and seen; one of another length changes nothing. Of a Pannier in PAIRED, a first fragment that does not complete it is stored at the start of the receive buffer and joined, and changes no other byte and no word; a fragment that completes it within 64 KiB ends it: with body, CRC and claim right, the buffer, its number and length are shown and TWIN_PAN_RX_CNT is incremented, else TWIN_PAN_ERR_CNT; a later fragment while none is assembled increments TWIN_PAN_ERR_CNT, the only word that changes, and the rest of that Pannier then counts no more. Of a state image in STANDBY, a first fragment that does not complete it is joined, changing no word or byte; one that completes it gives the door its 128 words. A sent Pannier increments TWIN_PAN_TX_CNT and shows its number; one that waits is then started. (R336, R337, R345, R354, R358) -/
def Obligations.TwinLink : Prop :=
  (∀ (s : State) (t : Nat) (v : State), v = s.at_ t → v.flag TWIN_STAT.LINK = false → v.get SYS_STAT.MODE ≠ 0 → v.pwr.dormant = false → v.get CLK_STAT.REF ≠ 2 → v.flag CLK_STAT.BYPASS = false → Completes (.twinLinkUp t) s (fun u => u.flag TWIN_STAT.LINK = true ∧ u.twin.helloTicks = 0 ∧ (SMap.find u.wire 2).isSome = true ∧ v.changesOnly u [TWIN_STAT.LINK.addr])) ∧
  (∀ (s : State) (t : Nat) (v : State), v = s.at_ t → v.flag TWIN_STAT.LINK = true → Completes (.twinLinkDown t) s (fun u => u.flag TWIN_STAT.LINK = false ∧ u.flag TWIN_STAT.PAIRED = false ∧ u.get TWIN_LINK_CNT = (v.get TWIN_LINK_CNT + 1) % 2 ^ 32 ∧ u.twin.pan = none ∧ u.twin.sending = none ∧ v.changesOnly u [TWIN_STAT.LINK.addr, TWIN_LINK_CNT.addr, TWIN_PAN_ERR_CNT.addr])) ∧
  (∀ (s : State) (t : Nat) (v : State), v = s.at_ t → v.flag TWIN_STAT.LINK = true → 16384 ≤ v.twin.helloTicks → Completes (.helloTx t) s (fun u => u.twin.helloTicks = 0 ∧ (SMap.find u.wire 2).isSome = true ∧ v.changesOnly u [])) ∧
  (∀ (s : State) (t : Nat) (frame p : List Byte) (crc : Bool) (v : State), v = s.at_ t → v.twinPayload 1 frame crc = some p → p.length = 16 → exec (.hello t frame crc) s = .next (v.takeHello ⟨fieldBE p 0 1, fieldBE p 1 1, fieldBE p 2 1, fieldBE p 4 8, fieldBE p 13 3⟩)) ∧
  (∀ (s : State) (t : Nat) (frame p : List Byte) (crc : Bool) (v : State), v = s.at_ t → v.twinPayload 1 frame crc = some p → p.length ≠ 16 → exec (.hello t frame crc) s = .next (v)) ∧
  (∀ (s : State) (t : Nat) (frame p : List Byte) (crc : Bool) (v : State), v = s.at_ t → v.twinPayload 2 frame crc = some p → p.length ≠ 32 → exec (.heartbeat t frame crc) s = .next (v)) ∧
  (∀ (s : State) (t : Nat) (frame p : List Byte) (crc : Bool) (v : State), v = s.at_ t → v.twinPayload 2 frame crc = some p → p.length = 32 → exec (.heartbeat t frame crc) s = .next ((let h : Hb := ⟨fieldBE p 0 4, fieldBE p 4 8, fieldBE p 12 1, fieldBE p 13 1, fieldBE p 14 2 % 4096, fieldBE p 16 1 % 16, fieldBE p 17 1, fieldBE p 20 4, fieldBE p 24 4, fieldBE p 28 4 % 2 ^ 24⟩
    let x := (({ v with twin := { v.twin with hb := some h, hbSince := true, hbMiss := 0, imgSent := v.twin.imgSent && h.mode == 2 } }).put TWIN_STAT.PMODE h.mode).put TWIN_PCLAIM.CLAIM h.claim
    ((x.obey h.claim).1.seeClaim h.claim).imageSend))) ∧
  (∀ (s : State) (t : Nat) (frame p : List Byte) (crc : Bool) (v : State), v = s.at_ t → v.twinPayload 2 frame crc = some p → p.length = 32 → fieldBE p 0 4 = 0 → v.twin.imgSent = true → fieldBE p 12 1 = 2 → Completes (.heartbeat t frame crc) s (fun u => u.get TWIN_STAT.PMODE = 2 ∧ u.get TWIN_PCLAIM.CLAIM = 0 ∧ u.twin.hbMiss = 0 ∧ u.twin.hbSince = true ∧ u.get TWIN_HIGH.CLAIM = v.get TWIN_HIGH.CLAIM ∧ ∀ a, u.byte a = v.byte a)) ∧
  (∀ (s : State) (t : Nat) (frame p : List Byte) (crc : Bool) (v : State), v = s.at_ t → v.twinPayload 3 frame crc = some p → v.flag TWIN_STAT.PAIRED = true → 12 < p.length → p.length ≤ 1036 → fieldBE p 4 4 = 0 → p.length - 12 < fieldBE p 8 4 → v.twin.pan = none → Completes (.pannier t frame crc) s (fun u => u.twin.pan = some ⟨fieldBE p 0 4, fieldBE p 8 4, p.length - 12, [], false⟩ ∧ (∀ a, u.word a = v.word a) ∧ (∀ a, a < panRxBase (1 - v.get TWIN_PANP.RX_BUF) ∨ panRxBase (1 - v.get TWIN_PANP.RX_BUF) + (p.length - 12) ≤ a → u.byte a = v.byte a))) ∧
  (∀ (s : State) (t : Nat) (frame p : List Byte) (crc : Bool) (x : FragRx) (v : State), v = s.at_ t → v.twinPayload 3 frame crc = some p → 12 ≤ p.length → v.flag TWIN_STAT.PAIRED = true → (joinFrag (v.twin.pan.map (fun x => { x with got := [] })) (fieldBE p 0 4) (fieldBE p 4 4) (fieldBE p 8 4) (p.drop 12) = (x, false)) → x.lost = false → fieldBE p 4 4 + (p.drop 12).length ≤ 0x10000 → x.total ≤ x.next → exec (.pannier t frame crc) s = .next ((let base := panRxBase (1 - v.get TWIN_PANP.RX_BUF)
    let y := ({ v with twin := { v.twin with pan := some { x with got := [] } } }).storeBytes (base + fieldBE p 4 4) (p.drop 12)
    let z := { y with twin := { y.twin with pan := none } }
    let claim := match z.twin.hb with | some h => h.claim | none => 0
    if 0x1008 ≤ x.total && x.next == x.total && z.load (base + (x.total - 8)) 8 == crc64 (z.bytes base (x.total - 8)) && z.load (base + 0x20) 4 == claim then
      let y := ((z.put TWIN_PANP.RX_BUF (1 - z.get TWIN_PANP.RX_BUF)).put TWIN_PANP.RX_SEQ x.seq).put TWIN_PANP.RX_LEN x.total
      ({ y with twin := { y.twin with panNew := true } }).inc TWIN_PAN_RX_CNT
    else z.inc TWIN_PAN_ERR_CNT))) ∧
  (∀ (s : State) (t : Nat) (frame p : List Byte) (crc : Bool) (v : State), v = s.at_ t → v.twinPayload 3 frame crc = some p → 12 ≤ p.length → v.flag TWIN_STAT.PAIRED = true → v.twin.pan = none → fieldBE p 4 4 ≠ 0 → Completes (.pannier t frame crc) s (fun u => u.twin.pan = some ⟨fieldBE p 0 4, fieldBE p 8 4, 0, [], true⟩ ∧ u.get TWIN_PAN_ERR_CNT = (v.get TWIN_PAN_ERR_CNT + 1) % 2 ^ 32 ∧ v.changesOnly u [TWIN_PAN_ERR_CNT.addr])) ∧
  (∀ (s : State) (t : Nat) (frame p : List Byte) (crc : Bool) (y : FragRx) (v : State), v = s.at_ t → v.twinPayload 3 frame crc = some p → 12 ≤ p.length → v.flag TWIN_STAT.PAIRED = true → v.twin.pan = some y → y.lost = true → y.seq = fieldBE p 0 4 → fieldBE p 4 4 ≠ 0 → exec (.pannier t frame crc) s = .next ({ v with twin := { v.twin with pan := some { y with got := [] } } })) ∧
  (∀ (s : State) (t : Nat) (frame p : List Byte) (crc : Bool) (x : FragRx) (v : State), v = s.at_ t → v.twinPayload 4 frame crc = some p → 12 ≤ p.length → v.flag TWIN_STAT.PAIRED = true → v.get SYS_STAT.MODE = 2 → (joinFrag v.twin.img (fieldBE p 0 4) (fieldBE p 4 4) (fieldBE p 8 4) (p.drop 12)).1 = x → x.lost = false → x.total ≤ x.next → exec (.image t frame crc) s = .next ({ v with
      twin := { v.twin with img := none }
      door := { v.door with image := some ((List.range 96).map (fun n => leNat ((x.got.drop (4 * n)).take 4)) ++ (List.range 32).map (fun n => (x.got.getD (384 + n) 0).toNat)) } })) ∧
  (∀ (s : State) (t : Nat) (frame p : List Byte) (crc : Bool) (v : State), v = s.at_ t → v.twinPayload 4 frame crc = some p → v.flag TWIN_STAT.PAIRED = true → v.get SYS_STAT.MODE = 2 → 12 ≤ p.length → fieldBE p 4 4 = 0 → p.length - 12 < fieldBE p 8 4 → v.twin.img = none → Completes (.image t frame crc) s (fun u => u.twin.img = some ⟨fieldBE p 0 4, fieldBE p 8 4, p.length - 12, p.drop 12, false⟩ ∧ v.changesOnly u [])) ∧
  (∀ (s : State) (t : Nat) (q : Nat) (v : State), v = s.at_ t → v.twin.sending = some q → v.twin.waiting = none → Completes (.pannierSent t) s (fun u => u.twin.sending = none ∧ u.get TWIN_PAN_TX_CNT = (v.get TWIN_PAN_TX_CNT + 1) % 2 ^ 32 ∧ u.get TWIN_PANP.TX_SEQ = q % 2 ^ 32 ∧ v.changesOnly u [TWIN_PAN_TX_CNT.addr, TWIN_PANP.TX_SEQ.addr])) ∧
  (∀ (s : State) (t : Nat) (q w : Nat) (v : State), v = s.at_ t → v.twin.sending = some q → v.twin.waiting = some w → exec (.pannierSent t) s = .next ((let x := (v.inc TWIN_PAN_TX_CNT).put TWIN_PANP.TX_SEQ q; ({ x with twin := { x.twin with waiting := none } }).panStart w)))

/-- A highest claim not heard for three boundaries ends: TWIN_HIGH, the only word that changes, goes to 0, or to the own claim where the module claims. The start-up window ends after 64 ticks, and the decision begins. A takeover that is due in STANDBY raises the claim, enters mode 3 (ACTIVE), marks the PAIR TX sessions as first, lets an event spoke wait, increments TWIN_TAKE_CNT and writes twin record 1. A yield that is due while claiming sets YIELD and writes twin record 3. SWAP and SWAP_UNREADY by the boot supervisor with an unlock are tried: one whose conditions do not hold increments TWIN_CMD_REJ_CNT, the only word that changes; one whose conditions hold sets YIELD, starts its count and writes twin record 3. A swap whose 16 ticks have passed while the partner claims nothing ends: YIELD goes to 0 and TWIN_CMD_REJ_CNT is incremented; where no activation waits for it only these words change, else that activation is cancelled. (R340, R343, R344, R347, R350, R360) -/
def Obligations.TwinRoles : Prop :=
  (∀ (s : State) (t : Nat) (v : State), v = s.at_ t → 3 ≤ v.twin.quiet → v.get TWIN_HIGH.CLAIM ≠ 0 → v.claiming = false → Completes (.claimExpiry t) s (fun u => u.get TWIN_HIGH.CLAIM = 0 ∧ u.twin.quiet = 0 ∧ v.changesOnly u [TWIN_HIGH.CLAIM.addr])) ∧
  (∀ (s : State) (t : Nat) (v : State), v = s.at_ t → 3 ≤ v.twin.quiet → v.get TWIN_HIGH.CLAIM ≠ 0 → v.claiming = true → Completes (.claimExpiry t) s (fun u => u.get TWIN_HIGH.CLAIM = v.get TWIN_CLAIM.CLAIM ∧ u.twin.quiet = 0 ∧ v.changesOnly u [TWIN_HIGH.CLAIM.addr])) ∧
  (∀ (s : State) (t : Nat) (n : Nat) (v : State), v = s.at_ t → v.twin.window = some n → 64 ≤ n → exec (.claimWindowEnd t) s = .next (({ v with twin := { v.twin with window := none, deciding := true } }).startDecision)) ∧
  (∀ (s : State) (t : Nat) (v : State), v = s.at_ t → v.twin.takeDue = true → v.get SYS_STAT.MODE = 2 → exec (.takeover t) s = .next ((let x := (List.range 128).foldl (fun s n => if s.pairTx n then s.setSess n { s.sess n with first := true } else s) (v.raiseClaim.enterMode 3)
    ((({ x with twin := { x.twin with takeDue := false, takeApply := true, taken := true }, trip := { x.trip with waitEvt := true } }).inc TWIN_TAKE_CNT).recordTwin 1)))) ∧
  (∀ (s : State) (t : Nat) (v : State), v = s.at_ t → v.twin.yieldDue = true → v.claiming = true → exec (.yield t) s = .next ((({ v with twin := { v.twin with yieldDue := false } }).putFlag TWIN_STAT.YIELD true).recordTwin 3)) ∧
  (∀ (s : State) (t : Nat) (v : State), v = s.at_ t → v.unlocked .boot 0x12 = true → exec (.swap t .boot) s = .next ((v.dropUnlock .boot).swapTry false)) ∧
  (∀ (s : State) (t : Nat) (v : State), v = s.at_ t → v.unlocked .boot 0x12 = true → exec (.swapUnready t .boot) s = .next ((v.dropUnlock .boot).swapTry true)) ∧
  (∀ (s : State) (unready : Bool), s.swapOk unready = false → (s.swapTry unready).get TWIN_CMD_REJ_CNT = (s.get TWIN_CMD_REJ_CNT + 1) % 2 ^ 32 ∧ s.changesOnly (s.swapTry unready) [TWIN_CMD_REJ_CNT.addr]) ∧
  (∀ (s : State) (unready : Bool), s.swapOk unready = true → s.swapTry unready = (({ s with twin := { s.twin with swap := some 0 } }).putFlag TWIN_STAT.YIELD true).recordTwin 3) ∧
  (∀ (s : State) (t : Nat) (n : Nat) (v : State), v = s.at_ t → v.twin.swap = some n → 16 ≤ n → v.get TWIN_PCLAIM.CLAIM = 0 → v.boot.deferSwap = false → Completes (.swapTimeout t) s (fun u => u.twin.swap = none ∧ u.flag TWIN_STAT.YIELD = false ∧ u.get TWIN_CMD_REJ_CNT = (v.get TWIN_CMD_REJ_CNT + 1) % 2 ^ 32 ∧ v.changesOnly u [TWIN_STAT.YIELD.addr, TWIN_CMD_REJ_CNT.addr])) ∧
  (∀ (s : State) (t : Nat) (n : Nat) (v : State), v = s.at_ t → v.twin.swap = some n → 16 ≤ n → v.get TWIN_PCLAIM.CLAIM = 0 → v.boot.deferSwap = true → exec (.swapTimeout t) s = .next (((({ v with twin := { v.twin with swap := none } }).putFlag TWIN_STAT.YIELD false).inc TWIN_CMD_REJ_CNT).cancelActivation))

/-- For initiators other than the Tricycle. An aligned load of 1, 2 or 4 bytes in exactly one used window queues one read of it; with PREFETCH it is served from a buffer that holds the address or queues a 16-word fill. A store discards the buffers of its window and queues one write, posted where POSTED is set. In no window an access faults in its core and increments BRG_NOWIN_CNT; in more than one it is the fault overlappingWindows; of another shape it faults in its core; by the Tricycle it faults in its core, changing no word and no request. An access by the hart that holds a lock ends its sequence first. A DMA transfer of whole words inside one window queues its bursts; one that leaves the window, or in none, fails. A status cycle ends the phase of the current request of its window: ACK increments BRG_OUT_CNT, a posted write is then done, another request waits for its response; RETRY increments BRG_RETRY_CNT and waits, or at RETRY_MAX fails with cause 3; ERR and abort fail with cause 1 and 2. The arbiter grants in it. A retried request is issued again 80 ns after its status cycle. A good response delivers, one with an error or a parity error fails, one to a retired tag increments BRG_LATE_CNT. A response not there in RSP_TMO us is an error, increments BRG_TMO_CNT and retires its tag, for a further RSP_TMO. Prefetch buffers of PF_AGE us are discarded; a flush discards all. (R366, R368, R372, R376, R377, R378, R383) -/
def Obligations.RackOutbound : Prop :=
  (∀ (s : State) (t : Nat) (who : Initiator) (w a size : Nat) (x : State) (v : State), v = s.at_ t → who ≠ .tri → v.acts who = true → x = v.lockBreak who → (size = 1 ∨ size = 2 ∨ size = 4) → a % size = 0 → x.owHits a = [w] → x.flag (BRG_OW.PREFETCH w) = false → exec (.rackOutboundAccess t who (.load a size)) s = .next (x.rackQueue (x.newReq (some who) w a 0 1 size []))) ∧
  (∀ (s : State) (t : Nat) (who : Initiator) (w a size : Nat) (b : PfBuf) (x : State) (v : State), v = s.at_ t → who ≠ .tri → v.acts who = true → x = v.lockBreak who → (size = 1 ∨ size = 2 ∨ size = 4) → a % size = 0 → x.owHits a = [w] → x.flag (BRG_OW.PREFETCH w) = true → x.pfFind w a = some b → exec (.rackOutboundAccess t who (.load a size)) s = .next (x.pfServe (some who) b a size)) ∧
  (∀ (s : State) (t : Nat) (who : Initiator) (w a size : Nat) (x : State) (v : State), v = s.at_ t → who ≠ .tri → v.acts who = true → x = v.lockBreak who → (size = 1 ∨ size = 2 ∨ size = 4) → a % size = 0 → x.owHits a = [w] → x.flag (BRG_OW.PREFETCH w) = true → x.pfFind w a = none → exec (.rackOutboundAccess t who (.load a size)) s = .next (x.rackQueue { x.newReq (some who) w a 0 1 size [] with raddr := x.owRack w (a / 64 * 64), beats := 16, fill := true })) ∧
  (∀ (s : State) (t : Nat) (who : Initiator) (w a size d : Nat) (x : State) (v : State), v = s.at_ t → who ≠ .tri → v.acts who = true → x = v.lockBreak who → (size = 1 ∨ size = 2 ∨ size = 4) → a % size = 0 → x.owHits a = [w] → x.flag (BRG_OW.POSTED w) = false → exec (.rackOutboundAccess t who (.store a size d)) s = .next ((x.pfForget (fun k => k == w)).rackQueue (x.newReq (some who) w a 1 1 size [d % 2 ^ (8 * size)]))) ∧
  (∀ (s : State) (t : Nat) (who : Initiator) (w a size d : Nat) (x : State) (v : State), v = s.at_ t → who ≠ .tri → v.acts who = true → x = v.lockBreak who → (size = 1 ∨ size = 2 ∨ size = 4) → a % size = 0 → x.owHits a = [w] → x.flag (BRG_OW.POSTED w) = true → exec (.rackOutboundAccess t who (.store a size d)) s = .next ((x.pfForget (fun k => k == w)).rackQueue (x.newReq (some who) w a 2 1 size [d % 2 ^ (8 * size)]))) ∧
  (∀ (s : State) (t : Nat) (who : Initiator) (a size d : Nat) (x : State) (v : State), v = s.at_ t → who ≠ .tri → v.acts who = true → x = v.lockBreak who → x.owHits a = [] → exec (.rackOutboundAccess t who (.store a size d)) s = .next ((x.rackTrap who true a).inc BRG_NOWIN_CNT)) ∧
  (∀ (s : State) (t : Nat) (who : Initiator) (a size d : Nat) (w : Nat) (x : State) (v : State), v = s.at_ t → who ≠ .tri → v.acts who = true → x = v.lockBreak who → x.owHits a = [w] → (¬ ((size = 1 ∨ size = 2 ∨ size = 4) ∧ a % size = 0)) → exec (.rackOutboundAccess t who (.store a size d)) s = .next (x.rackTrap who true a)) ∧
  (∀ (s : State) (t : Nat) (a size d : Nat) (v : State), v = s.at_ t → Completes (.rackOutboundAccess t .tri (.store a size d)) s (fun u => SMap.find u.traps Initiator.tri.idx = some ⟨true, a⟩ ∧ SMap.find u.brg.res Initiator.tri.idx = some .fault ∧ u.brg.reqs = v.brg.reqs ∧ v.changesOnly u [])) ∧
  (∀ (s : State) (t : Nat) (who : Initiator) (a size d : Nat) (w w1 : Nat) (l : List Nat) (x v : State), v = s.at_ t → who ≠ .tri → v.acts who = true → x = v.lockBreak who → x.owHits a = w :: w1 :: l → exec (.rackOutboundAccess t who (.store a size d)) s = .fault .overlappingWindows) ∧
  (∀ (s : State) (t : Nat) (who : Initiator) (a size : Nat) (x : State) (v : State), v = s.at_ t → who ≠ .tri → v.acts who = true → x = v.lockBreak who → x.owHits a = [] → exec (.rackOutboundAccess t who (.load a size)) s = .next ((x.rackTrap who false a).inc BRG_NOWIN_CNT)) ∧
  (∀ (s : State) (t : Nat) (who : Initiator) (a size : Nat) (w : Nat) (x : State) (v : State), v = s.at_ t → who ≠ .tri → v.acts who = true → x = v.lockBreak who → x.owHits a = [w] → (¬ ((size = 1 ∨ size = 2 ∨ size = 4) ∧ a % size = 0)) → exec (.rackOutboundAccess t who (.load a size)) s = .next (x.rackTrap who false a)) ∧
  (∀ (s : State) (t : Nat) (a size : Nat) (v : State), v = s.at_ t → Completes (.rackOutboundAccess t .tri (.load a size)) s (fun u => SMap.find u.traps Initiator.tri.idx = some ⟨false, a⟩ ∧ SMap.find u.brg.res Initiator.tri.idx = some .fault ∧ u.brg.reqs = v.brg.reqs ∧ v.changesOnly u [])) ∧
  (∀ (s : State) (t : Nat) (who : Initiator) (a size : Nat) (w w1 : Nat) (l : List Nat) (x v : State), v = s.at_ t → who ≠ .tri → v.acts who = true → x = v.lockBreak who → x.owHits a = w :: w1 :: l → exec (.rackOutboundAccess t who (.load a size)) s = .fault .overlappingWindows) ∧
  (∀ (s : State) (t : Nat) (who : Initiator) (w : Nat) (a n : Nat) (v : State), v = s.at_ t → v.owHits a = [w] → a % 4 = 0 → a + 4 * n ≤ v.get (BRG_OW.LBASE w) + v.owSize w → exec (.rackOutboundAccess t who (.dmaRead a n)) s = .next (v.rackDma w a n none)) ∧
  (∀ (s : State) (t : Nat) (who : Initiator) (w : Nat) (a n : Nat) (v : State), v = s.at_ t → v.owHits a = [w] → (v.get (BRG_OW.LBASE w) + v.owSize w < a + 4 * n ∨ a % 4 ≠ 0) → exec (.rackOutboundAccess t who (.dmaRead a n)) s = .next ({ v with brg := { v.brg with dmaFailed := true } })) ∧
  (∀ (s : State) (t : Nat) (who : Initiator) (a n : Nat) (v : State), v = s.at_ t → v.owHits a = [] → exec (.rackOutboundAccess t who (.dmaRead a n)) s = .next (({ v with brg := { v.brg with dmaFailed := true } }).inc BRG_NOWIN_CNT)) ∧
  (∀ (s : State) (t : Nat) (who : Initiator) (w : Nat) (a : Nat) (d : List (BitVec 32)) (v : State), v = s.at_ t → v.owHits a = [w] → a % 4 = 0 → a + 4 * d.length ≤ v.get (BRG_OW.LBASE w) + v.owSize w → exec (.rackOutboundAccess t who (.dmaWrite a d)) s = .next (v.rackDma w a d.length (some (d.map BitVec.toNat)))) ∧
  (∀ (s : State) (t : Nat) (who : Initiator) (w : Nat) (a : Nat) (d : List (BitVec 32)) (v : State), v = s.at_ t → v.owHits a = [w] → (v.get (BRG_OW.LBASE w) + v.owSize w < a + 4 * d.length ∨ a % 4 ≠ 0) → exec (.rackOutboundAccess t who (.dmaWrite a d)) s = .next ({ v with brg := { v.brg with dmaFailed := true } })) ∧
  (∀ (s : State) (t : Nat) (who : Initiator) (a : Nat) (d : List (BitVec 32)) (v : State), v = s.at_ t → v.owHits a = [] → exec (.rackOutboundAccess t who (.dmaWrite a d)) s = .next (({ v with brg := { v.brg with dmaFailed := true } }).inc BRG_NOWIN_CNT)) ∧
  (∀ (s : State) (t : Nat) (win : Nat) (reqs : BitVec 8) (r : RackReq) (v : State), v = s.at_ t → v.owCurrent win = some r → v.mayIssue r = true → r.kind ≠ 2 → exec (.rackStatusCycle t win .ack reqs) s = .next ((((((v.rackTurn 0).send 6 (rackPhase r)).lockPhase r).inc BRG_OUT_CNT).rackSet r { r with phase := 2, at_ := ((((v.rackTurn 0).send 6 (rackPhase r)).lockPhase r).inc BRG_OUT_CNT).localNow }).showBrg.arbitrate reqs)) ∧
  (∀ (s : State) (t : Nat) (win : Nat) (reqs : BitVec 8) (r : RackReq) (v : State), v = s.at_ t → v.owCurrent win = some r → v.mayIssue r = true → r.kind = 2 → exec (.rackStatusCycle t win .ack reqs) s = .next ((((((((v.rackTurn 0).send 6 (rackPhase r)).lockPhase r).inc BRG_OUT_CNT).rackDrop r).rackStream r r.data).showBrg).showBrg.arbitrate reqs)) ∧
  (∀ (s : State) (t : Nat) (win : Nat) (reqs : BitVec 8) (r : RackReq) (v : State), v = s.at_ t → v.owCurrent win = some r → v.mayIssue r = true → r.retries + 1 < atLeast1 (((((v.rackTurn 0).send 6 (rackPhase r)).lockPhase r).inc BRG_RETRY_CNT).get BRG_CTRL.RETRY_MAX) → exec (.rackStatusCycle t win .retry reqs) s = .next ((((((v.rackTurn 0).send 6 (rackPhase r)).lockPhase r).inc BRG_RETRY_CNT).rackSet r { r with phase := 1, retries := r.retries + 1, at_ := ((((v.rackTurn 0).send 6 (rackPhase r)).lockPhase r).inc BRG_RETRY_CNT).localNow }).showBrg.arbitrate reqs)) ∧
  (∀ (s : State) (t : Nat) (win : Nat) (reqs : BitVec 8) (r : RackReq) (v : State), v = s.at_ t → v.owCurrent win = some r → v.mayIssue r = true → atLeast1 (((((v.rackTurn 0).send 6 (rackPhase r)).lockPhase r).inc BRG_RETRY_CNT).get BRG_CTRL.RETRY_MAX) ≤ r.retries + 1 → exec (.rackStatusCycle t win .retry reqs) s = .next ((((((v.rackTurn 0).send 6 (rackPhase r)).lockPhase r).inc BRG_RETRY_CNT).rackFail r 3).giveTags.showBrg.arbitrate reqs)) ∧
  (∀ (s : State) (t : Nat) (win : Nat) (reqs : BitVec 8) (r : RackReq) (v : State), v = s.at_ t → v.owCurrent win = some r → v.mayIssue r = true → exec (.rackStatusCycle t win .err reqs) s = .next (((((v.rackTurn 0).send 6 (rackPhase r)).lockPhase r).rackFail r 1).giveTags.showBrg.arbitrate reqs)) ∧
  (∀ (s : State) (t : Nat) (win : Nat) (reqs : BitVec 8) (r : RackReq) (v : State), v = s.at_ t → v.owCurrent win = some r → v.mayIssue r = true → exec (.rackStatusCycle t win .abort reqs) s = .next (((((v.rackTurn 0).send 6 (rackPhase r)).lockPhase r).rackFail r 2).giveTags.showBrg.arbitrate reqs)) ∧
  (∀ (s : State) (t : Nat) (win : Nat) (r : RackReq) (v : State), v = s.at_ t → v.owCurrent win = some r → r.phase = 1 → r.at_ + 80 ≤ v.localNow → exec (.rackRetryReissue t win) s = .next (v.rackSet r { r with phase := 0 })) ∧
  (∀ (s : State) (t : Nat) (card tag : Nat) (beats : List (BitVec 32)) (reqs : BitVec 8) (r : RackReq) (v : State), v = s.at_ t → ((v.rackTurn card).brg.reqs.find? (fun r => r.phase == 2 && r.tag == some tag) = some r) → exec (.rackResponse t card 0 tag false false beats reqs) s = .next (((v.rackTurn card).rackOk r (beats.map BitVec.toNat)).giveTags.arbitrate reqs)) ∧
  (∀ (s : State) (t : Nat) (card tag : Nat) (beats : List (BitVec 32)) (reqs : BitVec 8) (r : RackReq) (v : State), v = s.at_ t → ((v.rackTurn card).brg.reqs.find? (fun r => r.phase == 2 && r.tag == some tag) = some r) → exec (.rackResponse t card 0 tag true false beats reqs) s = .next (((v.rackTurn card).rackError r).giveTags.arbitrate reqs)) ∧
  (∀ (s : State) (t : Nat) (card tag : Nat) (beats : List (BitVec 32)) (reqs : BitVec 8) (err : Bool) (r : RackReq) (v : State), v = s.at_ t → ((v.rackTurn card).brg.reqs.find? (fun r => r.phase == 2 && r.tag == some tag) = some r) → exec (.rackResponse t card 0 tag err true beats reqs) s = .next ((((v.rackTurn card).inc BRG_PAR_CNT).rackError r).giveTags.arbitrate reqs)) ∧
  (∀ (s : State) (t : Nat) (card tag : Nat) (beats : List (BitVec 32)) (reqs : BitVec 8) (err : Bool) (v : State), v = s.at_ t → ((v.rackTurn card).brg.reqs.find? (fun r => r.phase == 2 && r.tag == some tag) = none) → (SMap.find (v.rackTurn card).brg.retired tag).isSome = true → exec (.rackResponse t card 0 tag err false beats reqs) s = .next (((v.rackTurn card).inc BRG_LATE_CNT).arbitrate reqs)) ∧
  (∀ (s : State) (t : Nat) (card tag : Nat) (beats : List (BitVec 32)) (reqs : BitVec 8) (pos : Nat) (err par : Bool) (v : State), v = s.at_ t → pos ≠ 0 → exec (.rackResponse t card pos tag err par beats reqs) s = .next ((v.rackTurn card).arbitrate reqs)) ∧
  (∀ (s : State) (t : Nat) (tag : Nat) (r : RackReq) (v : State), v = s.at_ t → (v.brg.reqs.find? (fun r => r.phase == 2 && r.tag == some tag) = some r) → r.at_ + atLeast1 (v.get BRG_CTRL.RSP_TMO) * 1000 ≤ v.localNow → exec (.rackResponseTimeout t tag) s = .next ((let x := (v.rackError r).inc BRG_TMO_CNT; ({ x with brg := { x.brg with retired := SMap.set x.brg.retired tag x.localNow } }).giveTags))) ∧
  (∀ (s : State) (t : Nat) (tag at_ : Nat) (v : State), v = s.at_ t → SMap.find v.brg.retired tag = some at_ → at_ + atLeast1 (v.get BRG_CTRL.RSP_TMO) * 1000 ≤ v.localNow → exec (.retiredTagRelease t tag) s = .next (({ v with brg := { v.brg with retired := SMap.erase v.brg.retired tag } }).giveTags)) ∧
  (∀ (s : State) (t : Nat) (v : State), v = s.at_ t → exec (.prefetchExpiry t) s = .next (v.pfDiscard (fun b => b.at_ + atLeast1 (v.get BRG_CTRL.PF_AGE) * 1000 ≤ v.localNow))) ∧
  (∀ (s : State) (t : Nat) (v : State), v = s.at_ t → v.brg.pf = [] → Completes (.brgPfFlush t .boot true) s (fun u => u.brg = v.brg ∧ v.changesOnly u [REGG_STAT.UNLOCK_HELD.addr])) ∧
  (∀ (s : State) (t : Nat) (who : Initiator) (v : State), v = s.at_ t → v.acts who = true → v.unlocked who 0x10 = false → exec (.brgPfFlush t who true) s = .next (v.pfDiscard (fun _ => true)))

/-- Outside RB_RESET_N, an inbound request, after its grant and the arbitration of its status cycle: with bad parity it is answered ERR and increments BRG_PAR_CNT, the only word that changes; illegal, in no window, without WR_EN for a write, or in a window outside memory it is answered ERR; in two windows it is the fault overlappingWindows; a legal one that crosses an outbound read or non-posted write that may be issued and has not refused this position is answered RETRY, counted; with 16 open one that wants an answer is answered RETRY, counted; else it is taken, counted and answered ACK. Its completion performs it: a read keeps its words and changes no byte, a write stores; one that wants an answer gives it where no card holds the grant, else it is ready and answered later; the arbiter grants after an answer. LR and AMO by another initiator than the Tricycle on an aligned word in one outbound window take a free lock, increment BRG_LOCK_CNT and queue their read; while another hart holds it they wait. The SC of the hart that holds the lock, after its read, within 2 us, queues the write; any other fails. A lock 2 us after its address cycle without its write is released, BRG_LOCK_TMO_CNT incremented, no byte of memory changed. In memory that is not run over, 4 or 8 aligned bytes with the right: LR reserves and answers, AMO stores its result and answers the old value, SC stores and succeeds with the reservation and fails without; without the right an AMO traps. An AMO of the Tricycle stores in every core that executes, where each has the right. (R30, R365, R366, R379, R380, R381, R382) -/
def Obligations.RackInbound : Prop :=
  (∀ (s : State) (t : Nat) (pos tag cmd addr be : Nat) (data : List (BitVec 32)) (reqs : BitVec 8) (v : State), v = s.at_ t → v.rackReset = false → Completes (.rackInboundRequest t pos tag cmd addr be data true reqs) s (fun u => u.brg.status = .err ∧ u.get BRG_PAR_CNT = (v.get BRG_PAR_CNT + 1) % 2 ^ 32 ∧ u.brg.inb = v.brg.inb ∧ v.changesOnly u [BRG_PAR_CNT.addr])) ∧
  (∀ (s : State) (t : Nat) (pos tag cmd addr be : Nat) (data : List (BitVec 32)) (reqs : BitVec 8) (v : State), v = s.at_ t → v.rackReset = false → legalIn cmd addr be (data.map BitVec.toNat) = false → exec (.rackInboundRequest t pos tag cmd addr be data false reqs) s = .next (((v.rackTurn pos).arbitrate reqs).answer .err)) ∧
  (∀ (s : State) (t : Nat) (pos tag cmd addr be : Nat) (data : List (BitVec 32)) (reqs : BitVec 8) (v : State), v = s.at_ t → v.rackReset = false → legalIn cmd addr be (data.map BitVec.toNat) = true → ((v.rackTurn pos).arbitrate reqs).iwHits addr = [] → exec (.rackInboundRequest t pos tag cmd addr be data false reqs) s = .next (((v.rackTurn pos).arbitrate reqs).answer .err)) ∧
  (∀ (s : State) (t : Nat) (pos tag cmd addr be : Nat) (data : List (BitVec 32)) (reqs : BitVec 8) (w w1 : Nat) (l : List Nat) (v : State), v = s.at_ t → v.rackReset = false → legalIn cmd addr be (data.map BitVec.toNat) = true → ((v.rackTurn pos).arbitrate reqs).iwHits addr = w :: w1 :: l → exec (.rackInboundRequest t pos tag cmd addr be data false reqs) s = .fault .overlappingWindows) ∧
  (∀ (s : State) (t : Nat) (pos tag cmd addr be : Nat) (data : List (BitVec 32)) (reqs : BitVec 8) (w : Nat) (v : State), v = s.at_ t → v.rackReset = false → legalIn cmd addr be (data.map BitVec.toNat) = true → ((v.rackTurn pos).arbitrate reqs).iwHits addr = [w] → ((4 ≤ cmd ∧ ((v.rackTurn pos).arbitrate reqs).flag (BRG_IW.WR_EN w) = false) ∨ inboundMem (((v.rackTurn pos).arbitrate reqs).iwLocal w) (((v.rackTurn pos).arbitrate reqs).iwSize w) = false) → exec (.rackInboundRequest t pos tag cmd addr be data false reqs) s = .next (((v.rackTurn pos).arbitrate reqs).answer .err)) ∧
  (∀ (s : State) (t : Nat) (pos tag cmd addr be : Nat) (data : List (BitVec 32)) (reqs : BitVec 8) (w : Nat) (q : RackReq) (v : State), v = s.at_ t → v.rackReset = false → legalIn cmd addr be (data.map BitVec.toNat) = true → ((v.rackTurn pos).arbitrate reqs).iwHits addr = [w] → (cmd < 4 ∨ ((v.rackTurn pos).arbitrate reqs).flag (BRG_IW.WR_EN w) = true) → inboundMem (((v.rackTurn pos).arbitrate reqs).iwLocal w) (((v.rackTurn pos).arbitrate reqs).iwSize w) = true → ((v.rackTurn pos).arbitrate reqs).crosser pos = some q → exec (.rackInboundRequest t pos tag cmd addr be data false reqs) s = .next (((((v.rackTurn pos).arbitrate reqs).crossing q pos).inc BRG_IRETRY_CNT).answer .retry)) ∧
  (∀ (s : State) (t : Nat) (pos tag cmd addr be : Nat) (data : List (BitVec 32)) (reqs : BitVec 8) (w : Nat) (v : State), v = s.at_ t → v.rackReset = false → legalIn cmd addr be (data.map BitVec.toNat) = true → ((v.rackTurn pos).arbitrate reqs).iwHits addr = [w] → (cmd < 4 ∨ ((v.rackTurn pos).arbitrate reqs).flag (BRG_IW.WR_EN w) = true) → inboundMem (((v.rackTurn pos).arbitrate reqs).iwLocal w) (((v.rackTurn pos).arbitrate reqs).iwSize w) = true → ((v.rackTurn pos).arbitrate reqs).crosser pos = none → (⟨w, pos, tag, cmd, ((v.rackTurn pos).arbitrate reqs).iwLocal w + (addr - ((v.rackTurn pos).arbitrate reqs).iwBase w), be, data.map BitVec.toNat, false⟩ : RackIn).answers = true → 16 ≤ ((v.rackTurn pos).arbitrate reqs).brg.open_ → exec (.rackInboundRequest t pos tag cmd addr be data false reqs) s = .next ((((v.rackTurn pos).arbitrate reqs).inc BRG_IRETRY_CNT).answer .retry)) ∧
  (∀ (s : State) (t : Nat) (pos tag cmd addr be : Nat) (data : List (BitVec 32)) (reqs : BitVec 8) (w : Nat) (v : State), v = s.at_ t → v.rackReset = false → legalIn cmd addr be (data.map BitVec.toNat) = true → ((v.rackTurn pos).arbitrate reqs).iwHits addr = [w] → (cmd < 4 ∨ ((v.rackTurn pos).arbitrate reqs).flag (BRG_IW.WR_EN w) = true) → inboundMem (((v.rackTurn pos).arbitrate reqs).iwLocal w) (((v.rackTurn pos).arbitrate reqs).iwSize w) = true → ((v.rackTurn pos).arbitrate reqs).crosser pos = none → ((⟨w, pos, tag, cmd, ((v.rackTurn pos).arbitrate reqs).iwLocal w + (addr - ((v.rackTurn pos).arbitrate reqs).iwBase w), be, data.map BitVec.toNat, false⟩ : RackIn).answers = false ∨ ((v.rackTurn pos).arbitrate reqs).brg.open_ < 16) → exec (.rackInboundRequest t pos tag cmd addr be data false reqs) s = .next (((({ ((v.rackTurn pos).arbitrate reqs) with brg := { ((v.rackTurn pos).arbitrate reqs).brg with inb := ((v.rackTurn pos).arbitrate reqs).brg.inb ++ [(⟨w, pos, tag, cmd, ((v.rackTurn pos).arbitrate reqs).iwLocal w + (addr - ((v.rackTurn pos).arbitrate reqs).iwBase w), be, data.map BitVec.toNat, false⟩ : RackIn)] } }).inc BRG_IN_CNT).answer .ack).showBrg)) ∧
  (∀ (s : State) (t : Nat) (pos tag : Nat) (reqs : BitVec 8) (r : RackIn) (v : State), v = s.at_ t → (v.brg.inb.find? (fun r => r.pos == pos && r.tag == tag) = some r) → r.ready = false → r.answers = false → exec (.rackInboundComplete t pos tag reqs) s = .next ((v.inPerform r).showBrg)) ∧
  (∀ (s : State) (t : Nat) (pos tag : Nat) (reqs : BitVec 8) (r : RackIn) (v : State), v = s.at_ t → (v.brg.inb.find? (fun r => r.pos == pos && r.tag == tag) = some r) → r.ready = false → r.answers = true → v.brg.gnt = none → exec (.rackInboundComplete t pos tag reqs) s = .next ((v.inPerform r).inAnswer (v.performed r) reqs)) ∧
  (∀ (s : State) (t : Nat) (pos tag : Nat) (reqs : BitVec 8) (r : RackIn) (v : State), v = s.at_ t → (v.brg.inb.find? (fun r => r.pos == pos && r.tag == tag) = some r) → r.ready = false → r.answers = true → v.brg.gnt ≠ none → exec (.rackInboundComplete t pos tag reqs) s = .next ((v.inPerform r).showBrg)) ∧
  (∀ (s : State) (t : Nat) (pos tag : Nat) (reqs : BitVec 8) (r : RackIn) (v : State), v = s.at_ t → (v.brg.inb.find? (fun r => r.pos == pos && r.tag == tag) = some r) → r.ready = true → exec (.rackInboundComplete t pos tag reqs) s = .next (v.inAnswer r reqs)) ∧
  (∀ (s : State) (r : RackIn), r.cmd < 4 → (∀ a, (s.inPerform r).byte a = s.byte a) ∧ (s.performed r).data = (List.range (cmdBeats r.cmd)).map (fun i => s.load (r.addr + 4 * i) 4)) ∧
  (∀ (s : State) (r : RackIn), 4 ≤ r.cmd → (s.inPerform r).mem = (s.inWrite r).mem) ∧
  (∀ (s : State) (t : Nat) (who : Initiator) (addr w : Nat) (x : State) (v : State), v = s.at_ t → who ≠ .tri → v.acts who = true → regionAt addr 4 = some .rack → addr % 4 = 0 → v.owHits addr = [w] → x = v.lockBreak who → x.brg.lock = none → exec (.rackLockedSequence t who addr 4 .lr) s = .next (((({ x with brg := { x.brg with lock := some ⟨who, addr, none, none, none⟩ } }).inc BRG_LOCK_CNT).rackQueue { (({ x with brg := { x.brg with lock := some ⟨who, addr, none, none, none⟩ } })).newReq (some who) w addr 0 1 4 [] with lock := true }).showBrg)) ∧
  (∀ (s : State) (t : Nat) (who : Initiator) (addr w : Nat) (x : State) (v : State), v = s.at_ t → who ≠ .tri → v.acts who = true → regionAt addr 4 = some .rack → addr % 4 = 0 → v.owHits addr = [w] → x = v.lockBreak who → x.brg.lock ≠ none → exec (.rackLockedSequence t who addr 4 .lr) s = .next (x)) ∧
  (∀ (s : State) (t : Nat) (who : Initiator) (addr w : Nat) (op : AmoOp) (d : BitVec 64) (x : State) (v : State), v = s.at_ t → who ≠ .tri → v.acts who = true → regionAt addr 4 = some .rack → addr % 4 = 0 → v.owHits addr = [w] → x = v.lockBreak who → x.brg.lock = none → exec (.rackLockedSequence t who addr 4 (.amo op d)) s = .next (((({ x with brg := { x.brg with lock := some ⟨who, addr, some (op, d), none, none⟩ } }).inc BRG_LOCK_CNT).rackQueue { (({ x with brg := { x.brg with lock := some ⟨who, addr, some (op, d), none, none⟩ } })).newReq (some who) w addr 0 1 4 [] with lock := true }).showBrg)) ∧
  (∀ (s : State) (t : Nat) (who : Initiator) (addr w : Nat) (op : AmoOp) (d : BitVec 64) (x : State) (v : State), v = s.at_ t → who ≠ .tri → v.acts who = true → regionAt addr 4 = some .rack → addr % 4 = 0 → v.owHits addr = [w] → x = v.lockBreak who → x.brg.lock ≠ none → exec (.rackLockedSequence t who addr 4 (.amo op d)) s = .next (x)) ∧
  (∀ (s : State) (t : Nat) (who : Initiator) (addr w : Nat) (d : BitVec 64) (v : State), v = s.at_ t → who ≠ .tri → v.acts who = true → regionAt addr 4 = some .rack → addr % 4 = 0 → v.owHits addr = [w] → v.brg.lock = none → exec (.rackLockedSequence t who addr 4 (.sc d)) s = .next (v.rackDone (some who) .scFail)) ∧
  (∀ (s : State) (t : Nat) (who : Initiator) (addr w : Nat) (d : BitVec 64) (l : RackLock) (v : State), v = s.at_ t → who ≠ .tri → v.acts who = true → regionAt addr 4 = some .rack → addr % 4 = 0 → v.owHits addr = [w] → v.brg.lock = some l → l.who = who → l.amo = none → l.addr = addr → l.got.isSome = true → l.open_ v.localNow = true → exec (.rackLockedSequence t who addr 4 (.sc d)) s = .next (((v.pfForget (fun k => k == w)).lockWrite l { v.newReq (some who) w addr 0 1 4 [] with lock := true } (d.toNat % 2 ^ 32)).showBrg)) ∧
  (∀ (s : State) (t : Nat) (who : Initiator) (addr w : Nat) (d : BitVec 64) (l : RackLock) (v : State), v = s.at_ t → who ≠ .tri → v.acts who = true → regionAt addr 4 = some .rack → addr % 4 = 0 → v.owHits addr = [w] → v.brg.lock = some l → (¬ (l.who = who ∧ l.amo = none ∧ l.addr = addr ∧ l.got.isSome = true ∧ l.open_ v.localNow = true)) → exec (.rackLockedSequence t who addr 4 (.sc d)) s = .next ((v.lockBreak who).rackDone (some who) .scFail)) ∧
  (∀ (s : State) (t : Nat) (l : RackLock) (v : State), v = s.at_ t → v.brg.lock = some l → l.open_ v.localNow = false → Completes (.rackLockTimeout t) s (fun u => u.brg.lock = none ∧ u.get BRG_LOCK_TMO_CNT = (v.get BRG_LOCK_TMO_CNT + 1) % 2 ^ 32 ∧ ∀ a, u.byte a = v.byte a)) ∧
  (∀ (s : State) (t : Nat) (who : Initiator) (a n : Nat) (r : Region) (v : State), v = s.at_ t → who ≠ .tri → v.acts who = true → regionAt a n = some r → r ≠ .mmio → r ≠ .table → r ≠ .rack → (n = 4 ∨ n = 8) → a % n = 0 → memRight who none false r = true → exec (.rackLockedSequence t who a n .lr) s = .next ((v.reserve who a).accDone who (.value (v.memLoad a n)))) ∧
  (∀ (s : State) (t : Nat) (who : Initiator) (a n : Nat) (r : Region) (op : AmoOp) (d : BitVec 64) (v : State), v = s.at_ t → who ≠ .tri → v.acts who = true → regionAt a n = some r → r ≠ .mmio → r ≠ .table → r ≠ .rack → (n = 4 ∨ n = 8) → a % n = 0 → memRight who none true r = true → v.runsOver who r = false → exec (.rackLockedSequence t who a n (.amo op d)) s = .next ((v.memStore who a n (amoValue op n (v.memLoad a n) d)).accDone who (.value (v.memLoad a n)))) ∧
  (∀ (s : State) (t : Nat) (who : Initiator) (a n : Nat) (r : Region) (d : BitVec 64) (x : State) (v : State), v = s.at_ t → x = v.lockBreak who → who ≠ .tri → v.acts who = true → regionAt a n = some r → r ≠ .mmio → r ≠ .table → r ≠ .rack → (n = 4 ∨ n = 8) → a % n = 0 → memRight who none true r = true → x.runsOver who r = false → x.reserved who a = true → exec (.rackLockedSequence t who a n (.sc d)) s = .next ((({ x with resv := SMap.erase x.resv who.idx }).memStore who a n (d.toNat % 2 ^ (8 * n))).accDone who .scOk)) ∧
  (∀ (s : State) (t : Nat) (who : Initiator) (a n : Nat) (r : Region) (d : BitVec 64) (x : State) (v : State), v = s.at_ t → x = v.lockBreak who → who ≠ .tri → v.acts who = true → regionAt a n = some r → r ≠ .mmio → r ≠ .table → r ≠ .rack → (n = 4 ∨ n = 8) → a % n = 0 → memRight who none true r = true → x.runsOver who r = false → x.reserved who a = false → exec (.rackLockedSequence t who a n (.sc d)) s = .next (({ x with resv := SMap.erase x.resv who.idx }).accDone who .scFail)) ∧
  (∀ (s : State) (t : Nat) (who : Initiator) (a n : Nat) (r : Region) (op : AmoOp) (d : BitVec 64) (v : State), v = s.at_ t → who ≠ .tri → v.acts who = true → regionAt a n = some r → r ≠ .mmio → r ≠ .table → r ≠ .rack → (n = 4 ∨ n = 8) → a % n = 0 → memRight who none true r = false → exec (.rackLockedSequence t who a n (.amo op d)) s = .next ((v.trap who true a).accDone who .fault)) ∧
  (∀ (s : State) (t : Nat) (a n : Nat) (r : Region) (op : AmoOp) (d : BitVec 64) (v : State), v = s.at_ t → regionAt a n = some r → r ≠ .mmio → r ≠ .table → r ≠ .rack → (n = 4 ∨ n = 8) → a % n = 0 → v.triCores ≠ [] → (∀ k ∈ v.triCores, memRight .tri (some k) true r = true) → exec (.rackLockedSequence t .tri a n (.amo op d)) s = .next ((v.triCores.foldl (fun y k => y.coreStore k r a n (amoValue op n (y.load (coreAddr k a) n) d)) v).accDone .tri (.value (v.memLoad a n))))

/-- During a cycle a running core that has not started enters its cycle start interrupt: its entry time is shown in TRI_START, window 0 opens with signature 0, and the start check follows: with a participant not started it does nothing, with one of three participants late that one is excluded with cause 5. Otherwise the entry changes nothing. An image store of an executing core with an open window, of 1, 2, 4 or 8 bytes within 64 KiB, is folded as item type 1 and performed. An access to CSR 0x8C0 by another initiator traps. By a core it reads 0; a CSRRW or CSRRS folds its value, a CSRRC folds 0, as item type 3, and delivers the window, or, with 8 closed windows waiting, the close waits. CYC_DONE folds item type 4, keeps its value and closes likewise. After CYC_DONE an image store, a TCHK write or CYC_DONE halts the core and empties its queue; where a cycle runs that it has not entered, that window is delivered invalid, else the next window counts as invalid. A fault of a running core halts it the same way, delivering an open window as invalid. A corrected error increments TRI_ECC_CNT. A delivery appends the signature and opens the next window with signature 0. (R58, R60, R62, R65, R67, R69, R70, R71, R72) -/
def Obligations.CoreWindows : Prop :=
  (∀ (s : State) (t : Nat) (core : Nat) (v : State), v = s.at_ t → core < 3 → v.flag CYC_STAT.BUSY = true → (v.core core).st = .run → (v.core core).started = false → (v.core core).halted = false → (((v.put (TRI_START.DELAY core) v.execNs).setCore core { v.core core with started := true, done := false, sig := 0, win := 0, nDev := 0, entry := v.execNs }).startCheck).storeVerdict = none → exec (.cycleStartInterrupt t core) s = .next (((v.put (TRI_START.DELAY core) v.execNs).setCore core { v.core core with started := true, done := false, sig := 0, win := 0, nDev := 0, entry := v.execNs }).startCheck)) ∧
  (∀ (s : State) (t : Nat) (core : Nat) (v : State), v = s.at_ t → (3 ≤ core ∨ v.flag CYC_STAT.BUSY = false ∨ (v.core core).st ≠ .run ∨ (v.core core).started = true ∨ (v.core core).halted = true) → exec (.cycleStartInterrupt t core) s = .next (v)) ∧
  (∀ (s : State) (n : Nat), n ∈ s.parts → (s.core n).started = false → s.startCheck = s) ∧
  (∀ (s : State) (n : Nat), s.parts = [0, 1, 2] → (∀ m, m < 3 → (s.core m).started = true) → [0, 1, 2].filter (s.lateStart [0, 1, 2]) = [n] → s.startCheck = s.exclude n 5) ∧
  (∀ (s : State) (t : Nat) (core off size : Nat) (data : BitVec 64) (v : State), v = s.at_ t → v.executes core = true → (v.core core).done = false → (v.core core).started = true → (size = 1 ∨ size = 2 ∨ size = 4 ∨ size = 8) → off + size ≤ 0x10000 → exec (.outputImageStore t core off size data) s = .next ((v.fold core 1 size off (data.toNat % 2 ^ (8 * size))).store (outBank core 0 + off) size (data.toNat % 2 ^ (8 * size)))) ∧
  (∀ (s : State) (t : Nat) (core off size : Nat) (data : BitVec 64) (v : State), v = s.at_ t → v.executes core = true → (v.core core).done = true → (v.flag CYC_STAT.BUSY = false ∨ (v.core core).started = true) → (size = 1 ∨ size = 2 ∨ size = 4 ∨ size = 8) → off + size ≤ 0x10000 → exec (.outputImageStore t core off size data) s = .next (v.setCore core { v.core core with halted := true, queue := [], storeStall := none, readStall := none, closeStall := none, badNext := true })) ∧
  (∀ (s : State) (t : Nat) (core off size : Nat) (data : BitVec 64) (v : State), v = s.at_ t → v.executes core = true → (v.core core).done = true → v.flag CYC_STAT.BUSY = true → (v.core core).started = false → (size = 1 ∨ size = 2 ∨ size = 4 ∨ size = 8) → off + size ≤ 0x10000 → exec (.outputImageStore t core off size data) s = .next (v.setCore core { v.core core with halted := true, queue := [], storeStall := none, readStall := none, closeStall := none, closed := (v.core core).closed ++ [⟨none, false, v.localNow⟩] })) ∧
  (∀ (s : State) (t : Nat) (who : Initiator) (core : Nat) (acc : CsrAcc) (v : State), v = s.at_ t → who ≠ .tri → exec (.tchkWrite t who core acc) s = .next ({ v with csrTraps := SMap.set v.csrTraps who.idx 0x8C0 })) ∧
  (∀ (s : State) (t : Nat) (core : Nat) (v : State), v = s.at_ t → v.executes core = true → exec (.tchkWrite t .tri core .read) s = .next (v.gave .tri 0)) ∧
  (∀ (s : State) (t : Nat) (core : Nat) (x : BitVec 64) (v : State), v = s.at_ t → v.executes core = true → (v.core core).done = false → (v.core core).started = true → (v.core core).closed.length < 8 → exec (.tchkWrite t .tri core (.rw x)) s = .next (((v.gave .tri 0).fold core 3 8 0x8C0 x.toNat).deliver core false)) ∧
  (∀ (s : State) (t : Nat) (core : Nat) (x : BitVec 64) (v : State), v = s.at_ t → v.executes core = true → (v.core core).done = false → (v.core core).started = true → 8 ≤ (v.core core).closed.length → exec (.tchkWrite t .tri core (.rw x)) s = .next ((let x1 := (v.gave .tri 0).fold core 3 8 0x8C0 (x.toNat); x1.setCore core { x1.core core with closeStall := some (false, x.toNat) }))) ∧
  (∀ (s : State) (t : Nat) (core : Nat) (x : BitVec 64) (v : State), v = s.at_ t → v.executes core = true → (v.core core).done = true → (v.flag CYC_STAT.BUSY = false ∨ (v.core core).started = true) → exec (.tchkWrite t .tri core (.rw x)) s = .next ((v.gave .tri 0).setCore core { v.core core with halted := true, queue := [], storeStall := none, readStall := none, closeStall := none, badNext := true })) ∧
  (∀ (s : State) (t : Nat) (core : Nat) (x : BitVec 64) (v : State), v = s.at_ t → v.executes core = true → (v.core core).done = true → v.flag CYC_STAT.BUSY = true → (v.core core).started = false → exec (.tchkWrite t .tri core (.rw x)) s = .next ((v.gave .tri 0).setCore core { v.core core with halted := true, queue := [], storeStall := none, readStall := none, closeStall := none, closed := (v.core core).closed ++ [⟨none, false, v.localNow⟩] })) ∧
  (∀ (s : State) (t : Nat) (core : Nat) (x : BitVec 64) (v : State), v = s.at_ t → v.executes core = true → (v.core core).done = false → (v.core core).started = true → (v.core core).closed.length < 8 → exec (.tchkWrite t .tri core (.rs x)) s = .next (((v.gave .tri 0).fold core 3 8 0x8C0 x.toNat).deliver core false)) ∧
  (∀ (s : State) (t : Nat) (core : Nat) (x : BitVec 64) (v : State), v = s.at_ t → v.executes core = true → (v.core core).done = false → (v.core core).started = true → 8 ≤ (v.core core).closed.length → exec (.tchkWrite t .tri core (.rs x)) s = .next ((let x1 := (v.gave .tri 0).fold core 3 8 0x8C0 (x.toNat); x1.setCore core { x1.core core with closeStall := some (false, x.toNat) }))) ∧
  (∀ (s : State) (t : Nat) (core : Nat) (x : BitVec 64) (v : State), v = s.at_ t → v.executes core = true → (v.core core).done = true → (v.flag CYC_STAT.BUSY = false ∨ (v.core core).started = true) → exec (.tchkWrite t .tri core (.rs x)) s = .next ((v.gave .tri 0).setCore core { v.core core with halted := true, queue := [], storeStall := none, readStall := none, closeStall := none, badNext := true })) ∧
  (∀ (s : State) (t : Nat) (core : Nat) (x : BitVec 64) (v : State), v = s.at_ t → v.executes core = true → (v.core core).done = true → v.flag CYC_STAT.BUSY = true → (v.core core).started = false → exec (.tchkWrite t .tri core (.rs x)) s = .next ((v.gave .tri 0).setCore core { v.core core with halted := true, queue := [], storeStall := none, readStall := none, closeStall := none, closed := (v.core core).closed ++ [⟨none, false, v.localNow⟩] })) ∧
  (∀ (s : State) (t : Nat) (core : Nat) (x : BitVec 64) (v : State), v = s.at_ t → v.executes core = true → (v.core core).done = false → (v.core core).started = true → (v.core core).closed.length < 8 → exec (.tchkWrite t .tri core (.rc x)) s = .next (((v.gave .tri 0).fold core 3 8 0x8C0 0).deliver core false)) ∧
  (∀ (s : State) (t : Nat) (core : Nat) (x : BitVec 64) (v : State), v = s.at_ t → v.executes core = true → (v.core core).done = false → (v.core core).started = true → 8 ≤ (v.core core).closed.length → exec (.tchkWrite t .tri core (.rc x)) s = .next ((let x1 := (v.gave .tri 0).fold core 3 8 0x8C0 (0); x1.setCore core { x1.core core with closeStall := some (false, 0) }))) ∧
  (∀ (s : State) (t : Nat) (core : Nat) (x : BitVec 64) (v : State), v = s.at_ t → v.executes core = true → (v.core core).done = true → (v.flag CYC_STAT.BUSY = false ∨ (v.core core).started = true) → exec (.tchkWrite t .tri core (.rc x)) s = .next ((v.gave .tri 0).setCore core { v.core core with halted := true, queue := [], storeStall := none, readStall := none, closeStall := none, badNext := true })) ∧
  (∀ (s : State) (t : Nat) (core : Nat) (x : BitVec 64) (v : State), v = s.at_ t → v.executes core = true → (v.core core).done = true → v.flag CYC_STAT.BUSY = true → (v.core core).started = false → exec (.tchkWrite t .tri core (.rc x)) s = .next ((v.gave .tri 0).setCore core { v.core core with halted := true, queue := [], storeStall := none, readStall := none, closeStall := none, closed := (v.core core).closed ++ [⟨none, false, v.localNow⟩] })) ∧
  (∀ (s : State) (t : Nat) (core : Nat) (value : BitVec 32) (v : State), v = s.at_ t → v.executes core = true → (v.core core).done = false → (v.core core).started = true → (v.core core).closed.length < 8 → exec (.cycDoneWrite t core value) s = .next ((let x := v.fold core 4 4 CYC_DONE.VALUE.addr value.toNat; let y := x.setCore core { x.core core with doneVal := value }; y.deliver core true))) ∧
  (∀ (s : State) (t : Nat) (core : Nat) (value : BitVec 32) (v : State), v = s.at_ t → v.executes core = true → (v.core core).done = false → (v.core core).started = true → 8 ≤ (v.core core).closed.length → exec (.cycDoneWrite t core value) s = .next ((let x := v.fold core 4 4 CYC_DONE.VALUE.addr value.toNat; let y := x.setCore core { x.core core with doneVal := value }; y.setCore core { y.core core with closeStall := some (true, value.toNat) }))) ∧
  (∀ (s : State) (t : Nat) (core : Nat) (value : BitVec 32) (v : State), v = s.at_ t → v.executes core = true → (v.core core).done = true → (v.flag CYC_STAT.BUSY = false ∨ (v.core core).started = true) → exec (.cycDoneWrite t core value) s = .next (v.setCore core { v.core core with halted := true, queue := [], storeStall := none, readStall := none, closeStall := none, badNext := true })) ∧
  (∀ (s : State) (t : Nat) (core : Nat) (value : BitVec 32) (v : State), v = s.at_ t → v.executes core = true → (v.core core).done = true → v.flag CYC_STAT.BUSY = true → (v.core core).started = false → exec (.cycDoneWrite t core value) s = .next (v.setCore core { v.core core with halted := true, queue := [], storeStall := none, readStall := none, closeStall := none, closed := (v.core core).closed ++ [⟨none, false, v.localNow⟩] })) ∧
  (∀ (s : State) (t : Nat) (core : Nat) (v : State), v = s.at_ t → core < 3 → (v.core core).st = .run → (v.core core).halted = false → (v.core core).done = false → (v.core core).started = true → exec (.coreFaultHalt t core) s = .next (v.setCore core { v.core core with halted := true, queue := [], storeStall := none, readStall := none, closeStall := none, closed := (v.core core).closed ++ [⟨none, false, v.localNow⟩] })) ∧
  (∀ (s : State) (t : Nat) (core : Nat) (v : State), v = s.at_ t → core < 3 → (v.core core).st = .run → (v.core core).halted = false → ((v.core core).done = true ∨ (v.core core).started = false) → (v.flag CYC_STAT.BUSY = false ∨ (v.core core).started = true) → exec (.coreFaultHalt t core) s = .next (v.setCore core { v.core core with halted := true, queue := [], storeStall := none, readStall := none, closeStall := none, badNext := true })) ∧
  (∀ (s : State) (t : Nat) (core : Nat) (v : State), v = s.at_ t → core < 3 → (v.core core).st = .run → (v.core core).halted = false → ((v.core core).done = true ∨ (v.core core).started = false) → v.flag CYC_STAT.BUSY = true → (v.core core).started = false → exec (.coreFaultHalt t core) s = .next (v.setCore core { v.core core with halted := true, queue := [], storeStall := none, readStall := none, closeStall := none, closed := (v.core core).closed ++ [⟨none, false, v.localNow⟩] })) ∧
  (∀ (s : State) (t : Nat) (core : Nat) (v : State), v = s.at_ t → (3 ≤ core ∨ (v.core core).st ≠ .run ∨ (v.core core).halted = true) → exec (.coreFaultHalt t core) s = .next (v)) ∧
  (∀ (s : State), Completes (.eccCorrected) s (fun u => u.get TRI_ECC_CNT = (s.get TRI_ECC_CNT + 1) % 2 ^ 32 ∧ s.changesOnly u [TRI_ECC_CNT.addr])) ∧
  (∀ (s : State) (n : Nat) (last : Bool), n < 3 → ((s.deliver n last).core n).closed = (s.core n).closed ++ [⟨some (s.core n).sig, last, s.localNow⟩] ∧ ((s.deliver n last).core n).sig = 0 ∧ ((s.deliver n last).core n).win = (s.core n).win + 1 ∧ ((s.deliver n last).core n).done = last)

/-- WIN_TMO after the first delivery among the participants the next window is due; before that a timeout changes nothing. A decision is taken where it is due, and the DEVICE stores that it lets resolve are then performed; the further clauses are for those where none is. With the two comparator instances in disagreement it is LOCKOUT, reason 1, sub-cause 3. In a program cycle, with no voter test waiting and the window number not a multiple of 1024: three equal signatures count the window, show OUTCOME, MINOR, MISSING and INVALID 0 and SELECT 0, become the agreed signatures and change no byte of memory; core 2 differing from two equal ones counts the window, shows OUTCOME 1, MINOR 2 and SELECT 0, and excludes core 2 with cause 1, counted; two participants 0 and 1 that differ count the window, leave OUTCOME 2 and SELECT as it was. A voter test is due after 16384 ticks with a participant left: without an agreed window, or with fewer than two participants among the agreed signatures, VTEST_PEND is set; with three agreed equal signatures and equal comparators it counts, clears VTEST_PEND, sets TESTED and starts its period anew. Before 16384 ticks it changes nothing. Comparators with faults fa and fb vote as R77 decides from the flipped comparisons where fa = fb, and not at all where they differ. (R76, R77, R78, R79, R80, R81, R82) -/
def Obligations.Voter : Prop :=
  (∀ (s : State) (t : Nat) (v : State), v = s.at_ t → (∀ n ∈ v.parts, ∀ x ∈ (v.core n).closed.head?, v.localNow < x.at_ + v.winTmo) → exec (.windowTimeout t) s = .next (v)) ∧
  (∀ (s : State) (t : Nat) (n : Nat) (x : Win) (v : State), v = s.at_ t → n ∈ v.parts → (v.core n).closed.head? = some x → x.at_ + v.winTmo ≤ v.localNow → exec (.windowTimeout t) s = .next ({ v with tri := { v.tri with due := true } })) ∧
  (∀ (s : State) (t : Nat) (fa fb : BitVec 3) (v : State), v = s.at_ t → v.voteDue = true → fa ≠ fb → (v.enterLockout 1 3).storeVerdict = none → exec (.voterDecision t fa fb) s = .next (v.enterLockout 1 3)) ∧
  (∀ (s : State) (t : Nat) (fa fb : BitVec 3) (v : State), v = s.at_ t → v.voteDue = true → exec (.voterDecision t fa fb) s = (v.decide_ fa fb).resolveStores t 64) ∧
  (∀ (s : State) (t : Nat) (fa fb : BitVec 3) (v : State), v = s.at_ t → v.voteDue = false → exec (.voterDecision t fa fb) s = .next (v)) ∧
  (∀ (s : State) (t : Nat) (x : DWord) (i j k : Nat) (v : State), v = s.at_ t → v.parts = [0, 1, 2] → (v.core 0).closed.head? = some ⟨some x, false, i⟩ → (v.core 1).closed.head? = some ⟨some x, false, j⟩ → (v.core 2).closed.head? = some ⟨some x, false, k⟩ → v.flag CYC_STAT.KIND = false → v.flag TRI_STAT.VTEST_PEND = false → (v.get TRI_WIN_CNT + 1) % 1024 ≠ 0 → (v.decide_ 0 0).storeVerdict = none → Completes (.voterDecision t 0 0) s (fun u => u.get TRI_WIN_CNT = (v.get TRI_WIN_CNT + 1) % 2 ^ 32 ∧ u.get TRI_LAST.OUTCOME = 0 ∧ u.get TRI_LAST.MINOR = 0 ∧ u.get TRI_LAST.MISSING = 0 ∧ u.get TRI_LAST.INVALID = 0 ∧ u.get TRI_STAT.SELECT = 0 ∧ u.tri.decided = v.tri.decided + 1 ∧ u.tri.agreed = [(0, x), (1, x), (2, x)] ∧ ∀ a, u.byte a = v.byte a)) ∧
  (∀ (s : State) (t : Nat) (a c : DWord) (i j k : Nat) (v : State), v = s.at_ t → v.parts = [0, 1, 2] → (v.core 0).closed.head? = some ⟨some a, false, i⟩ → (v.core 1).closed.head? = some ⟨some a, false, j⟩ → (v.core 2).closed.head? = some ⟨some c, false, k⟩ → v.flag CYC_STAT.KIND = false → c ≠ a → v.flag TRI_STAT.VTEST_PEND = false → (v.get TRI_WIN_CNT + 1) % 1024 ≠ 0 → (v.decide_ 0 0).storeVerdict = none → Completes (.voterDecision t 0 0) s (fun u => u.get TRI_WIN_CNT = (v.get TRI_WIN_CNT + 1) % 2 ^ 32 ∧ u.get TRI_LAST.OUTCOME = 1 ∧ u.get TRI_LAST.MINOR = 2 ∧ u.get TRI_STAT.SELECT = 0 ∧ u.get TRI_CAUSE.CAUSE2 = 1 ∧ u.get TRI_EXCL_CNT = (v.get TRI_EXCL_CNT + 1) % 2 ^ 32)) ∧
  (∀ (s : State) (t : Nat) (a b : DWord) (i j : Nat) (v : State), v = s.at_ t → v.parts = [0, 1] → (v.core 0).closed.head? = some ⟨some a, false, i⟩ → (v.core 1).closed.head? = some ⟨some b, false, j⟩ → v.flag CYC_STAT.KIND = false → a ≠ b → v.flag TRI_STAT.VTEST_PEND = false → (v.get TRI_WIN_CNT + 1) % 1024 ≠ 0 → (v.decide_ 0 0).storeVerdict = none → Completes (.voterDecision t 0 0) s (fun u => u.get TRI_WIN_CNT = (v.get TRI_WIN_CNT + 1) % 2 ^ 32 ∧ u.get TRI_LAST.OUTCOME = 2 ∧ u.get TRI_STAT.SELECT = v.get TRI_STAT.SELECT)) ∧
  (∀ (s : State) (t : Nat) (fa fb : BitVec 3) (v : State), v = s.at_ t → 16384 ≤ v.tri.testTicks → v.parts.isEmpty = false → v.tri.agreed = [] → exec (.voterTestDue t fa fb) s = .next (v.putFlag TRI_STAT.VTEST_PEND true)) ∧
  (∀ (s : State) (t : Nat) (fa fb : BitVec 3) (v : State), v = s.at_ t → (v.tri.testTicks < 16384 ∨ v.parts = []) → exec (.voterTestDue t fa fb) s = .next (v)) ∧
  (∀ (s : State) (t : Nat) (fa fb : BitVec 3) (v : State), v = s.at_ t → 16384 ≤ v.tri.testTicks → v.parts.isEmpty = false → ((v.parts.filter (fun n => (SMap.find v.tri.agreed n).isSome)).length < 2) → exec (.voterTestDue t fa fb) s = .next (v.putFlag TRI_STAT.VTEST_PEND true)) ∧
  (∀ (s : State) (t : Nat) (a : DWord) (v : State), v = s.at_ t → 16384 ≤ v.tri.testTicks → v.parts = [0, 1, 2] → v.tri.agreed = [(0, a), (1, a), (2, a)] → Completes (.voterTestDue t 0 0) s (fun u => u.get TRI_VTEST_CNT = (v.get TRI_VTEST_CNT + 1) % 2 ^ 32 ∧ u.flag TRI_STAT.VTEST_PEND = false ∧ u.flag TRI_LAST.TESTED = true ∧ u.tri.testTicks = 0 ∧ v.changesOnly u [TRI_VTEST_CNT.addr, TRI_STAT.VTEST_PEND.addr, TRI_LAST.TESTED.addr])) ∧
  (∀ (ps : List Nat) (sig : Nat → Option DWord) (fa fb : BitVec 3), vote ps sig fa fb = if fa = fb then some (decideVote ps ((pairsOf sig).flip fa)) else none)

/-- For a core in COPY, a completion read back as written copies the TCM and the partition of COPY_SRC, DRAM_MIB of it and at most 16 MiB, makes the core READY and increments TRI_COPY_CNT; one that does not read back excludes the core with cause 7. For another core it changes nothing. (R83, R85, R86) -/
def Obligations.CoreCopies : Prop :=
  (∀ (s : State) (t : Nat) (core : Nat) (v : State), v = s.at_ t → core < 3 → (v.core core).st = .copy → exec (.stateCopyComplete t core true) s = .next ((let x := (v.copy (tcmBase (v.get TRI_STAT.COPY_SRC)) (tcmBase core) 0x80000).copy (partBase (v.get TRI_STAT.COPY_SRC)) (partBase core) (min 16 (v.get TRI_COPY.DRAM_MIB) * 0x100000); (x.setCore core { x.core core with st := .ready }).inc TRI_COPY_CNT))) ∧
  (∀ (s : State) (t : Nat) (core : Nat) (v : State), v = s.at_ t → core < 3 → (v.core core).st = .copy → exec (.stateCopyComplete t core false) s = .next (v.exclude core 7)) ∧
  (∀ (s : State) (t : Nat) (core : Nat) (ok : Bool) (v : State), v = s.at_ t → (3 ≤ core ∨ (v.core core).st ≠ .copy) → exec (.stateCopyComplete t core ok) s = .next (v))

/-- A DEVICE store of an executing core without the right traps and faults the core. A permitted one to TRI_SELF_SCR sets the scratch word of that core alone and is not folded; one to CYC_DONE closes the last window. After CYC_DONE it halts the core as R72 says. Else, with a window open, it enters the core queue if fewer than 16 wait there, otherwise it waits with the core. Where the oldest stores then match, one store is performed as a write of the voted Tricycle and TRI_DSTORE_CNT increments, and the next oldest are resolved; where they can no longer match, the store is dropped and TRI_DFAIL_CNT increments. One oldest store past WIN_TMO, with none behind it, is dropped and counts in TRI_DFAIL_CNT. A stalled store enters its queue once fewer than 16 wait, folded then; a stalled read is done once the queue is empty. A store by a core that does not execute changes nothing; one at an address of no region traps and faults the core; one into memory is performed by coreStore. (R62, R67, R73, R74, R75) -/
def Obligations.DeviceStores : Prop :=
  (∀ (s : State) (t : Nat) (core : Nat) (addr : BitVec 64) (size : Nat) (data : BitVec 64) (r : Region) (v : State), v = s.at_ t → v.executes core = true → regionAt addr.toNat size = some r → r.isMemory = false → triMay addr.toNat size = false → exec (.triDeviceStore t core addr size data) s = .next (v.coreTrap core true addr.toNat)) ∧
  (∀ (s : State) (t : Nat) (core : Nat) (addr : BitVec 64) (size : Nat) (data : BitVec 64) (v : State), v = s.at_ t → v.executes core = true → regionAt addr.toNat size = none → exec (.triDeviceStore t core addr size data) s = .next (v.coreTrap core true addr.toNat)) ∧
  (∀ (s : State) (t : Nat) (core : Nat) (addr : BitVec 64) (size : Nat) (data : BitVec 64) (r : Region) (v : State), v = s.at_ t → v.executes core = true → regionAt addr.toNat size = some r → r.isMemory = true → exec (.triDeviceStore t core addr size data) s = .next (v.coreStore core r addr.toNat size (data.toNat % 2 ^ (8 * size)))) ∧
  (∀ (s : State) (t : Nat) (core : Nat) (addr : BitVec 64) (size : Nat) (data : BitVec 64) (v : State), v = s.at_ t → v.executes core = false → exec (.triDeviceStore t core addr size data) s = .next (v)) ∧
  (∀ (s : State) (t : Nat) (core : Nat) (data : BitVec 64) (v : State), v = s.at_ t → v.executes core = true → exec (.triDeviceStore t core (BitVec.ofNat 64 TRI_SELF_SCR.SCR.addr) 4 data) s = .next (v.setCore core { v.core core with scratch := BitVec.ofNat 32 (data.toNat % 2 ^ 32) })) ∧
  (∀ (s : State) (t : Nat) (core : Nat) (data : BitVec 64) (v : State), v = s.at_ t → v.executes core = true → exec (.triDeviceStore t core (BitVec.ofNat 64 CYC_DONE.VALUE.addr) 4 data) s = .next (v.closeWindow core true (data.toNat % 2 ^ 32))) ∧
  (∀ (s : State) (t : Nat) (core : Nat) (addr : BitVec 64) (size : Nat) (data : BitVec 64) (r : Region) (v : State), v = s.at_ t → v.executes core = true → regionAt addr.toNat size = some r → r.isMemory = false → triMay addr.toNat size = true → addr.toNat ≠ CYC_DONE.VALUE.addr → addr.toNat ≠ TRI_SELF_SCR.SCR.addr → (v.core core).done = true → (v.flag CYC_STAT.BUSY = false ∨ (v.core core).started = true) → exec (.triDeviceStore t core addr size data) s = .next (v.setCore core { v.core core with halted := true, queue := [], storeStall := none, readStall := none, closeStall := none, badNext := true })) ∧
  (∀ (s : State) (t : Nat) (core : Nat) (addr : BitVec 64) (size : Nat) (data : BitVec 64) (r : Region) (v : State), v = s.at_ t → v.executes core = true → regionAt addr.toNat size = some r → r.isMemory = false → triMay addr.toNat size = true → addr.toNat ≠ CYC_DONE.VALUE.addr → addr.toNat ≠ TRI_SELF_SCR.SCR.addr → (v.core core).done = true → v.flag CYC_STAT.BUSY = true → (v.core core).started = false → exec (.triDeviceStore t core addr size data) s = .next (v.setCore core { v.core core with halted := true, queue := [], storeStall := none, readStall := none, closeStall := none, closed := (v.core core).closed ++ [⟨none, false, v.localNow⟩] })) ∧
  (∀ (s : State) (t : Nat) (core : Nat) (addr : BitVec 64) (size : Nat) (data : BitVec 64) (r : Region) (v : State), v = s.at_ t → v.executes core = true → regionAt addr.toNat size = some r → r.isMemory = false → triMay addr.toNat size = true → addr.toNat ≠ CYC_DONE.VALUE.addr → addr.toNat ≠ TRI_SELF_SCR.SCR.addr → (v.core core).done = false → (v.core core).started = true → (v.core core).queue.length < 16 → (v.enqueueStore core addr.toNat size (data.toNat % 2 ^ (8 * size))).storeVerdict = none → exec (.triDeviceStore t core addr size data) s = .next (v.enqueueStore core addr.toNat size (data.toNat % 2 ^ (8 * size)))) ∧
  (∀ (s : State) (t : Nat) (core : Nat) (addr : BitVec 64) (size : Nat) (data : BitVec 64) (r : Region) (v : State), v = s.at_ t → v.executes core = true → regionAt addr.toNat size = some r → r.isMemory = false → triMay addr.toNat size = true → addr.toNat ≠ CYC_DONE.VALUE.addr → addr.toNat ≠ TRI_SELF_SCR.SCR.addr → (v.core core).done = false → (v.core core).started = true → 16 ≤ (v.core core).queue.length → exec (.triDeviceStore t core addr size data) s = .next (v.setCore core { v.core core with storeStall := some (addr.toNat, size, data.toNat % 2 ^ (8 * size)) })) ∧
  (∀ (s : State) (t : Nat) (core : Nat) (addr : BitVec 64) (size : Nat) (data : BitVec 64) (r : Region) (x : DStore) (w : State) (v : State), v = s.at_ t → v.executes core = true → regionAt addr.toNat size = some r → r.isMemory = false → triMay addr.toNat size = true → addr.toNat ≠ CYC_DONE.VALUE.addr → addr.toNat ≠ TRI_SELF_SCR.SCR.addr → (v.core core).done = false → (v.core core).started = true → (v.core core).queue.length < 16 → (v.enqueueStore core addr.toNat size (data.toNat % 2 ^ (8 * size))).storeVerdict = some (true, x) → ((v.enqueueStore core addr.toNat size (data.toNat % 2 ^ (8 * size))).settle x).writeReg t .tri x.addr x.size x.data = .next w → (w.inc TRI_DSTORE_CNT).storeVerdict = none → exec (.triDeviceStore t core addr size data) s = .next (w.inc TRI_DSTORE_CNT)) ∧
  (∀ (s w : State) (t fuel : Nat) (x : DStore), s.storeVerdict = some (true, x) → (s.settle x).writeReg t .tri x.addr x.size x.data = .next w → State.resolveStores t (fuel + 1) s = State.resolveStores t fuel (w.inc TRI_DSTORE_CNT)) ∧
  (∀ (s : State) (t fuel : Nat) (x : DStore), s.storeVerdict = some (false, x) → State.resolveStores t (fuel + 1) s = State.resolveStores t fuel ((s.settle x).inc TRI_DFAIL_CNT)) ∧
  (∀ (s : State) (t fuel : Nat), s.storeVerdict = none → State.resolveStores t fuel s = .next s) ∧
  (∀ (s : State) (t : Nat) (x : DStore) (v : State), v = s.at_ t → ((v.parts.filterMap (fun n => (v.core n).queue.head?)).find? (fun (x : DStore) => x.at_ + v.winTmo ≤ v.localNow) = some x) → ((((v.settle x).inc TRI_DFAIL_CNT).parts.filterMap (fun n => (((v.settle x).inc TRI_DFAIL_CNT).core n).queue.head?)) = []) → exec (.deviceStoreTimeout t) s = .next ((v.settle x).inc TRI_DFAIL_CNT)) ∧
  (∀ (s : State) (t : Nat) (core addr size data : Nat) (v : State), v = s.at_ t → core < 3 → (v.core core).storeStall = some (addr, size, data) → (v.core core).st = .run → (v.core core).halted = false → (v.core core).queue.length < 16 → ((v.setCore core { v.core core with storeStall := none }).enqueueStore core addr size data).storeVerdict = none → exec (.storeQueueResume t core) s = .next ((v.setCore core { v.core core with storeStall := none }).enqueueStore core addr size data)) ∧
  (∀ (s : State) (t : Nat) (core addr size : Nat) (v : State), v = s.at_ t → core < 3 → (v.core core).storeStall = none → (v.core core).readStall = some (addr, size) → (v.core core).st = .run → (v.core core).halted = false → (v.core core).queue = [] → regionAt addr size = some .mmio → exec (.storeQueueResume t core) s = .next ((v.setCore core { v.core core with readStall := none }).mmioLoad .tri core addr size))

/-- A CYC_CMD write of the boot supervisor that holds the unlock of block 5 gives the unlock up and puts the code behind those that wait for the next edge; ARM also notes the identity and bindings of the staged Graft unless one is armed or an ARM waits. Without the unlock it increments REGG_DENY_CNT, the one word that changes, and queues nothing. A write by another initiator traps. When its edge performs a code: START in STOP, in mode SERVICE or ACTIVE, gives RUN, clears KICK and asks for a first cycle. STOP in RUN discards the image of the cycle and stops the program. HOLD in RUN, in SERVICE at standstill, sets HOLD_PEND unless set. RESUME in HOLD at standstill gives RUN and asks for a cycle. STEP in HOLD at standstill sets STEP_PEND unless set and asks for a cycle. ARM with none armed and the base identity equal to the program identity sets ARMED and VERDICT 1; else it is refused, and a waiting staging service gets result 3. DISARM with one armed, outside its Graft cycle, clears ARMED, VERDICT, GRAFT_HELD and the note of a rejoined core, and a waiting staging service gets result 0. A code that is not allowed, or is no code, increments CYC_CMD_REJ_CNT and changes nothing else. (R99, R111, R122, R128) -/
def Obligations.ProgramCommands : Prop :=
  (∀ (s : State) (t : Nat) (v : State), v = s.at_ t → v.unlocked .boot 0x05 = false → exec (.start t .boot) s = .next (v.inc REGG_DENY_CNT)) ∧
  (∀ (s : State) (t : Nat) (who : Initiator) (v : State), v = s.at_ t → v.acts who = true → who ≠ .boot → exec (.start t who) s = .next (v.trap who true 0x20050010)) ∧
  (∀ (s : State) (t : Nat) (v : State), v = s.at_ t → v.unlocked .boot 0x05 = false → exec (.stop t .boot) s = .next (v.inc REGG_DENY_CNT)) ∧
  (∀ (s : State) (t : Nat) (who : Initiator) (v : State), v = s.at_ t → v.acts who = true → who ≠ .boot → exec (.stop t who) s = .next (v.trap who true 0x20050010)) ∧
  (∀ (s : State) (t : Nat) (v : State), v = s.at_ t → v.unlocked .boot 0x05 = false → exec (.hold t .boot) s = .next (v.inc REGG_DENY_CNT)) ∧
  (∀ (s : State) (t : Nat) (who : Initiator) (v : State), v = s.at_ t → v.acts who = true → who ≠ .boot → exec (.hold t who) s = .next (v.trap who true 0x20050010)) ∧
  (∀ (s : State) (t : Nat) (v : State), v = s.at_ t → v.unlocked .boot 0x05 = false → exec (.resume t .boot) s = .next (v.inc REGG_DENY_CNT)) ∧
  (∀ (s : State) (t : Nat) (who : Initiator) (v : State), v = s.at_ t → v.acts who = true → who ≠ .boot → exec (.resume t who) s = .next (v.trap who true 0x20050010)) ∧
  (∀ (s : State) (t : Nat) (v : State), v = s.at_ t → v.unlocked .boot 0x05 = false → exec (.step t .boot) s = .next (v.inc REGG_DENY_CNT)) ∧
  (∀ (s : State) (t : Nat) (who : Initiator) (v : State), v = s.at_ t → v.acts who = true → who ≠ .boot → exec (.step t who) s = .next (v.trap who true 0x20050010)) ∧
  (∀ (s : State) (t : Nat) (v : State), v = s.at_ t → v.unlocked .boot 0x05 = false → exec (.disarm t .boot) s = .next (v.inc REGG_DENY_CNT)) ∧
  (∀ (s : State) (t : Nat) (who : Initiator) (v : State), v = s.at_ t → v.acts who = true → who ≠ .boot → exec (.disarm t who) s = .next (v.trap who true 0x20050010)) ∧
  (∀ (s : State) (t : Nat) (id : BitVec 64) (bindings : List Bind) (v : State), v = s.at_ t → v.unlocked .boot 0x05 = false → exec (.arm t .boot id bindings) s = .next (v.inc REGG_DENY_CNT)) ∧
  (∀ (s : State) (t : Nat) (who : Initiator) (id : BitVec 64) (bindings : List Bind) (v : State), v = s.at_ t → v.acts who = true → who ≠ .boot → exec (.arm t who id bindings) s = .next (v.trap who true 0x20050010)) ∧
  (∀ (s : State) (t : Nat) (id : BitVec 64) (bindings : List Bind) (v : State), v = s.at_ t → v.unlocked .boot 0x05 = true → (v.flag CYC_STAT.ARMED = true ∨ 6 ∈ v.cyc.cmds) → exec (.arm t .boot id bindings) s = .next ({ v.dropUnlock .boot with cyc := { v.cyc with cmds := v.cyc.cmds ++ [6] } })) ∧
  (∀ (s : State) (t : Nat) (v : State), v = s.at_ t → v.unlocked .boot 0x05 = true → exec (.start t .boot) s = .next ({ v.dropUnlock .boot with cyc := { v.cyc with cmds := v.cyc.cmds ++ [1] } })) ∧
  (∀ (s : State) (t : Nat) (v : State), v = s.at_ t → v.unlocked .boot 0x05 = true → exec (.stop t .boot) s = .next ({ v.dropUnlock .boot with cyc := { v.cyc with cmds := v.cyc.cmds ++ [2] } })) ∧
  (∀ (s : State) (t : Nat) (v : State), v = s.at_ t → v.unlocked .boot 0x05 = true → exec (.hold t .boot) s = .next ({ v.dropUnlock .boot with cyc := { v.cyc with cmds := v.cyc.cmds ++ [3] } })) ∧
  (∀ (s : State) (t : Nat) (v : State), v = s.at_ t → v.unlocked .boot 0x05 = true → exec (.resume t .boot) s = .next ({ v.dropUnlock .boot with cyc := { v.cyc with cmds := v.cyc.cmds ++ [4] } })) ∧
  (∀ (s : State) (t : Nat) (v : State), v = s.at_ t → v.unlocked .boot 0x05 = true → exec (.step t .boot) s = .next ({ v.dropUnlock .boot with cyc := { v.cyc with cmds := v.cyc.cmds ++ [5] } })) ∧
  (∀ (s : State) (t : Nat) (v : State), v = s.at_ t → v.unlocked .boot 0x05 = true → exec (.disarm t .boot) s = .next ({ v.dropUnlock .boot with cyc := { v.cyc with cmds := v.cyc.cmds ++ [7] } })) ∧
  (∀ (s : State) (t : Nat) (id : BitVec 64) (bindings : List Bind) (v : State), v = s.at_ t → v.unlocked .boot 0x05 = true → v.flag CYC_STAT.ARMED = false → 6 ∉ v.cyc.cmds → exec (.arm t .boot id bindings) s = .next ({ v.dropUnlock .boot with cyc := { v.cyc with cmds := v.cyc.cmds ++ [6], graftId := id.toNat, bindings := bindings } })) ∧
  (∀ (s : State) (t : Nat) (v : State), v = s.at_ t → v.unlocked .boot 0x05 = false → Completes (.start t .boot) s (fun u => u.cyc = v.cyc ∧ u.get REGG_DENY_CNT = (v.get REGG_DENY_CNT + 1) % 2 ^ 32 ∧ v.changesOnly u [REGG_DENY_CNT.addr])) ∧
  (∀ (s : State), s.get CYC_STAT.PSTATE = 0 → (s.get SYS_STAT.MODE = 1 ∨ s.get SYS_STAT.MODE = 3) → (s.cycCommand 1).get CYC_STAT.PSTATE = 1 ∧ (s.cycCommand 1).flag CYC_STAT.KICK = false ∧ (s.cycCommand 1).cyc.startReq = true ∧ (s.cycCommand 1).cyc.first = true ∧ s.changesOnly (s.cycCommand 1) [CYC_STAT.PSTATE.addr]) ∧
  (∀ (s : State) (code : Nat), (code = 0 ∨ 7 < code ∨ (code = 1 ∧ (s.get CYC_STAT.PSTATE ≠ 0 ∨ (s.get SYS_STAT.MODE ≠ 1 ∧ s.get SYS_STAT.MODE ≠ 3))) ∨ (code = 2 ∧ s.get CYC_STAT.PSTATE ≠ 1) ∨ (code = 3 ∧ (s.get CYC_STAT.PSTATE ≠ 1 ∨ s.get SYS_STAT.MODE ≠ 1 ∨ s.still = false ∨ s.flag CYC_STAT.HOLD_PEND = true)) ∨ (code = 4 ∧ (s.get CYC_STAT.PSTATE ≠ 2 ∨ s.still = false)) ∨ (code = 5 ∧ (s.get CYC_STAT.PSTATE ≠ 2 ∨ s.still = false ∨ s.flag CYC_STAT.STEP_PEND = true)) ∨ (code = 7 ∧ (s.flag CYC_STAT.ARMED = false ∨ (s.flag CYC_STAT.BUSY = true ∧ s.flag CYC_STAT.KIND = true)))) → (s.cycCommand code).get CYC_CMD_REJ_CNT = (s.get CYC_CMD_REJ_CNT + 1) % 2 ^ 32 ∧ (s.cycCommand code).cyc = s.cyc ∧ s.changesOnly (s.cycCommand code) [CYC_CMD_REJ_CNT.addr]) ∧
  (∀ (s : State), s.get CYC_STAT.PSTATE = 1 → s.get SYS_STAT.MODE = 1 → s.still = true → s.flag CYC_STAT.HOLD_PEND = false → (s.cycCommand 3).flag CYC_STAT.HOLD_PEND = true ∧ (s.cycCommand 3).get CYC_STAT.PSTATE = 1 ∧ s.changesOnly (s.cycCommand 3) [CYC_STAT.HOLD_PEND.addr]) ∧
  (∀ (s : State), s.get CYC_STAT.PSTATE = 2 → s.still = true → (s.cycCommand 4).get CYC_STAT.PSTATE = 1 ∧ (s.cycCommand 4).cyc.startReq = true ∧ s.changesOnly (s.cycCommand 4) [CYC_STAT.PSTATE.addr]) ∧
  (∀ (s : State), s.get CYC_STAT.PSTATE = 2 → s.still = true → s.flag CYC_STAT.STEP_PEND = false → (s.cycCommand 5).flag CYC_STAT.STEP_PEND = true ∧ (s.cycCommand 5).get CYC_STAT.PSTATE = 2 ∧ (s.cycCommand 5).cyc.startReq = true ∧ s.changesOnly (s.cycCommand 5) [CYC_STAT.STEP_PEND.addr]) ∧
  (∀ (s : State), s.get CYC_STAT.PSTATE = 1 → s.cycCommand 2 = s.discardImage.programStop) ∧
  (∀ (s : State), (s.flag CYC_STAT.ARMED = true ∨ s.get CYC_GRAFT_BASE_ID.ID ≠ s.get CYC_PROG_ID.ID) → s.cycCommand 6 = (s.inc CYC_CMD_REJ_CNT).graftReply 3) ∧
  (∀ (s : State), s.flag CYC_STAT.ARMED = false → s.get CYC_GRAFT_BASE_ID.ID = s.get CYC_PROG_ID.ID → (s.cycCommand 6).flag CYC_STAT.ARMED = true ∧ (s.cycCommand 6).get CYC_GRAFT_STAT.VERDICT = 1 ∧ s.changesOnly (s.cycCommand 6) [CYC_STAT.ARMED.addr, CYC_GRAFT_STAT.VERDICT.addr]) ∧
  (∀ (s : State), s.flag CYC_STAT.ARMED = true → (s.flag CYC_STAT.BUSY = false ∨ s.flag CYC_STAT.KIND = false) → s.boot.graftWait = false → (s.cycCommand 7).flag CYC_STAT.ARMED = false ∧ (s.cycCommand 7).get CYC_GRAFT_STAT.VERDICT = 0 ∧ (s.cycCommand 7).flag TRI_STAT.GRAFT_HELD = false ∧ (s.cycCommand 7).tri.rejoined = false ∧ s.changesOnly (s.cycCommand 7) [CYC_STAT.ARMED.addr, CYC_GRAFT_STAT.VERDICT.addr, TRI_STAT.GRAFT_HELD.addr]) ∧
  (∀ (s : State) (res : Nat), s.boot.graftWait = true → s.graftReply res = ({ s with boot := { s.boot with graftWait := false } }).svcReply 12483 [res, s.get CYC_GRAFT_STAT.VERDICT]) ∧
  (∀ (s : State), s.flag CYC_STAT.ARMED = true → (s.flag CYC_STAT.BUSY = false ∨ s.flag CYC_STAT.KIND = false) → s.cycCommand 7 = (((({ s with tri := { s.tri with rejoined := false } } : State).putFlag CYC_STAT.ARMED false).put CYC_GRAFT_STAT.VERDICT 0).graftReply 0).putFlag TRI_STAT.GRAFT_HELD false)

/-- A publication that completes makes the idle buffer active, switches BANK, shows the cycle number and increments CYC_PUB_CNT; the image is offered to the check engine stream 8 and to the gateway as its source 4, and, unless the program is in STOP, every consumer takes its values. With none in progress the command changes nothing. In a program cycle whose overrun is not shown yet, DEADLINE ticks or more after its start: CYC_OVR_CNT increments, OVERRUN is shown, CLEAN goes to 0, the overrun is traced and recorded; before the deadline nothing changes. A running cycle that has reached the later of its deadline plus one and HANG, at most 4096 ticks, is LOCKOUT with reason 3; before that nothing changes. A consumer whose refresh count has reached its timeout (0 taken as 1) takes Kickstand: discrete outputs, loops, door commands, program trip terms, or one local axis, whose channels are updated and whose HOMED is cleared; before its timeout nothing changes. Safe telegrams take nothing here. (R94, R101, R102, R103, R104, R106, R134, R177, R207, R303, R321, R332) -/
def Obligations.CycleEvents : Prop :=
  (∀ (s : State) (t : Nat) (src : ImageSrc) (x y z : State) (v : State), v = s.at_ t → v.cyc.publishing = some src → x = { v with cyc := { v.cyc with active := 1 - v.cyc.active, publishing := none, last := some src } } → y = ((x.put CYC_PUB.BANK (1 - x.get CYC_PUB.BANK)).put CYC_PUB.CYCLE_LO src.cycle).inc CYC_PUB_CNT → z = (y.streamFrame 8 0 (y.bytes (pubBuf y.cyc.active) (y.get CYC_IMG.OUT_LEN)) none).gwArrived 4 0 → z.get CYC_STAT.PSTATE = 0 → exec (.publicationComplete t) s = .next (z)) ∧
  (∀ (s : State) (t : Nat) (src : ImageSrc) (x y z : State) (v : State), v = s.at_ t → v.cyc.publishing = some src → x = { v with cyc := { v.cyc with active := 1 - v.cyc.active, publishing := none, last := some src } } → y = ((x.put CYC_PUB.BANK (1 - x.get CYC_PUB.BANK)).put CYC_PUB.CYCLE_LO src.cycle).inc CYC_PUB_CNT → z = (y.streamFrame 8 0 (y.bytes (pubBuf y.cyc.active) (y.get CYC_IMG.OUT_LEN)) none).gwArrived 4 0 → z.get CYC_STAT.PSTATE ≠ 0 → exec (.publicationComplete t) s = .next (z.consume_)) ∧
  (∀ (s : State) (t : Nat) (v : State), v = s.at_ t → v.cyc.publishing = none → exec (.publicationComplete t) s = .next (v)) ∧
  (∀ (s : State) (t : Nat) (k : Nat) (v : State), v = s.at_ t → v.cyc.since = some k → v.flag CYC_STAT.BUSY = true → v.flag CYC_STAT.KIND = false → v.flag CYC_STAT.OVERRUN = false → atLeast1 (v.get CYC_CFG.DEADLINE) ≤ k → exec (.cycleOverrun t) s = .next ((let x := ((v.inc CYC_OVR_CNT).putFlag CYC_STAT.OVERRUN true).put UPD_CLEAN.CLEAN 0; (({ x with cyc := { x.cyc with prevOvr := true } } : State).traceCycle (v.get CYC_CYCLE_CNT) 0 2).recordCycle 1 (v.get CYC_CYCLE_CNT)))) ∧
  (∀ (s : State) (t : Nat) (v : State), v = s.at_ t → (v.flag CYC_STAT.BUSY = false ∨ v.flag CYC_STAT.KIND = true ∨ v.flag CYC_STAT.OVERRUN = true ∨ v.cyc.since.getD 0 < atLeast1 (v.get CYC_CFG.DEADLINE)) → exec (.cycleOverrun t) s = .next (v)) ∧
  (∀ (s : State) (t : Nat) (v : State), v = s.at_ t → (v.flag CYC_STAT.BUSY = false ∨ v.cyc.since.getD 0 < v.hangTicks) → exec (.cycleHang t) s = .next (v)) ∧
  (∀ (s : State) (t : Nat) (k : Nat) (v : State), v = s.at_ t → v.cyc.since = some k → v.flag CYC_STAT.BUSY = true → min 4096 (max (atLeast1 (v.get CYC_CFG.DEADLINE) + 1) (v.get CYC_CFG.HANG)) ≤ k → exec (.cycleHang t) s = .next (v.enterLockout 3 0)) ∧
  (∀ (s : State) (t : Nat) (v : State), v = s.at_ t → atLeast1 (v.get DIO_CTRL.SIL_TMO) ≤ v.refreshAge 0 → exec (.refreshTimeout t .dio) s = .next ((v.putFlag DIO_STAT.KICK_PRG true).dioRefresh)) ∧
  (∀ (s : State) (t : Nat) (v : State), v = s.at_ t → v.refreshAge 0 < atLeast1 (v.get DIO_CTRL.SIL_TMO) → exec (.refreshTimeout t .dio) s = .next (v)) ∧
  (∀ (s : State) (t : Nat) (v : State), v = s.at_ t → atLeast1 (v.get LOOP_CTRL.REF_TMO) ≤ v.refreshAge 1 → exec (.refreshTimeout t .loop) s = .next (({ v with loopPrg := true } : State).loopRefresh)) ∧
  (∀ (s : State) (t : Nat) (v : State), v = s.at_ t → v.refreshAge 1 < atLeast1 (v.get LOOP_CTRL.REF_TMO) → exec (.refreshTimeout t .loop) s = .next (v)) ∧
  (∀ (s : State) (t : Nat) (v : State), v = s.at_ t → atLeast1 (v.get MOT_CTRL.CMD_TMO) ≤ v.refreshAge 2 → exec (.refreshTimeout t .door) s = .next (v.doorKick)) ∧
  (∀ (s : State) (t : Nat) (v : State), v = s.at_ t → v.refreshAge 2 < atLeast1 (v.get MOT_CTRL.CMD_TMO) → exec (.refreshTimeout t .door) s = .next (v)) ∧
  (∀ (s : State) (t : Nat) (v : State), v = s.at_ t → atLeast1 (v.get TRIP_CTRL.PRG_TMO) ≤ v.refreshAge 3 → exec (.refreshTimeout t .trip) s = .next (v.prgKick)) ∧
  (∀ (s : State) (t : Nat) (v : State), v = s.at_ t → v.refreshAge 3 < atLeast1 (v.get TRIP_CTRL.PRG_TMO) → exec (.refreshTimeout t .trip) s = .next (v)) ∧
  (∀ (s : State) (t : Nat) (v : State), v = s.at_ t → exec (.refreshTimeout t .safe) s = .next (v)) ∧
  (∀ (s : State) (t : Nat) (e ch : Nat) (v : State), v = s.at_ t → v.pulseOk e = true → ch ∈ v.pulseChans e → atLeast1 (v.get DIO_CTRL.SIL_TMO) ≤ SMap.getD v.dio.pulseAge ch 0 → exec (.refreshTimeout t (.axis e)) s = .next ((let x : State := { v with dio := { v.dio with pulseKick := (v.pulseChans e).foldl (fun m c => setBit m c true) v.dio.pulseKick } }; let y := x.chansUpdate (x.pulseChans e); y.putIf (MOT_AS.HOMED (y.get (MOT_PULSE.AXIS e))) 0))) ∧
  (∀ (s : State) (t : Nat) (e : Nat) (v : State), v = s.at_ t → (v.pulseOk e = false ∨ ∀ ch ∈ v.pulseChans e, SMap.getD v.dio.pulseAge ch 0 < atLeast1 (v.get DIO_CTRL.SIL_TMO)) → exec (.refreshTimeout t (.axis e)) s = .next (v))

/-- A permitted write is one of the boot supervisor; it gives up the unlock of block 5 if held. A CTRL write to bind an entry whose VALID is 0 takes TARGET, WORD, MODE and TYPE and binds: where its mode, 1 for SERVICE and 2 for ACTIVE, is the present one and its word lies in the image, VALID and FORCED are set and the binding is recorded as code 1 with the token of the session; otherwise CYC_CMD_REJ_CNT increments, the one word that changes. To an entry whose VALID is 1 it changes nothing else. A CTRL write with VALID 0 releases a bound entry, recorded as code 2, and gives an unbound entry its fields. VALUE takes its 64 bits; of a bound input entry the live banks then show the word with every force on it applied; of another no other word and no byte of memory changes. A write by any other initiator traps. (R116, R117, R120, R121) -/
def Obligations.Forces : Prop :=
  (∀ (s : State) (t : Nat) (who : Initiator) (entry : BitVec 8) (ctrl : BitVec 32) (v : State), v = s.at_ t → v.acts who = true → who ≠ .boot → exec (.forceBind t who entry ctrl) s = .next (v.trap who true (CYC_FORCE.VALID entry.toNat).addr)) ∧
  (∀ (s : State) (t : Nat) (who : Initiator) (entry : BitVec 8) (ctrl : BitVec 32) (v : State), v = s.at_ t → v.acts who = true → who ≠ .boot → exec (.forceRelease t who entry ctrl) s = .next (v.trap who true (CYC_FORCE.VALID entry.toNat).addr)) ∧
  (∀ (s : State) (t : Nat) (who : Initiator) (entry : BitVec 8) (value : BitVec 64) (v : State), v = s.at_ t → v.acts who = true → who ≠ .boot → exec (.forceValueWrite t who entry value) s = .next (v.trap who true (CYC_FORCE.VALUE entry.toNat).addr)) ∧
  (∀ (s : State) (t : Nat) (entry : BitVec 8) (ctrl : BitVec 32) (v : State), v = s.at_ t → v.flag (CYC_FORCE.VALID entry.toNat) = true → exec (.forceBind t .boot entry ctrl) s = .next (v.consume .boot 0x05)) ∧
  (∀ (s : State) (t : Nat) (entry : BitVec 8) (ctrl : BitVec 32) (v : State), v = s.at_ t → v.flag (CYC_FORCE.VALID entry.toNat) = false → exec (.forceBind t .boot entry ctrl) s = .next (((((((v.consume .boot 0x05).put (CYC_FORCE.TARGET entry.toNat) (bitsOf ctrl.toNat 1 1)).put (CYC_FORCE.WORD entry.toNat) (bitsOf ctrl.toNat 2 12)).put (CYC_FORCE.MODE entry.toNat) (bitsOf ctrl.toNat 14 2)).put (CYC_FORCE.TYPE entry.toNat) (bitsOf ctrl.toNat 16 16)).forceBind entry.toNat v.tokenId).1)) ∧
  (∀ (s : State) (t : Nat) (entry : BitVec 8) (ctrl : BitVec 32) (v : State), v = s.at_ t → v.flag (CYC_FORCE.VALID entry.toNat) = true → exec (.forceRelease t .boot entry ctrl) s = .next (((v.consume .boot 0x05).releaseForce entry.toNat).recordForce 2 entry.toNat v.tokenId)) ∧
  (∀ (s : State) (t : Nat) (entry : BitVec 8) (ctrl : BitVec 32) (v : State), v = s.at_ t → v.flag (CYC_FORCE.VALID entry.toNat) = false → exec (.forceRelease t .boot entry ctrl) s = .next (((((v.consume .boot 0x05).put (CYC_FORCE.TARGET entry.toNat) (bitsOf ctrl.toNat 1 1)).put (CYC_FORCE.WORD entry.toNat) (bitsOf ctrl.toNat 2 12)).put (CYC_FORCE.MODE entry.toNat) (bitsOf ctrl.toNat 14 2)).put (CYC_FORCE.TYPE entry.toNat) (bitsOf ctrl.toNat 16 16))) ∧
  (∀ (s : State) (t : Nat) (entry : BitVec 8) (value : BitVec 64) (v : State), v = s.at_ t → v.flag (CYC_FORCE.VALID entry.toNat) = true → v.get (CYC_FORCE.TARGET entry.toNat) = 0 → exec (.forceValueWrite t .boot entry value) s = .next ((let x := (v.consume .boot 0x05).put (CYC_FORCE.VALUE entry.toNat) value.toNat; let w := x.get (CYC_FORCE.WORD entry.toNat); x.liveStore (8 * w) (leBytes 8 (x.forced 0 w (x.unforced w (x.liveWord w))))))) ∧
  (∀ (s : State) (t : Nat) (entry : BitVec 8) (value : BitVec 64) (v : State), v = s.at_ t → (v.flag (CYC_FORCE.VALID entry.toNat) = false ∨ v.get (CYC_FORCE.TARGET entry.toNat) ≠ 0) → Completes (.forceValueWrite t .boot entry value) s (fun u => u.get (CYC_FORCE.VALUE entry.toNat) = value.toNat ∧ v.changesOnly u [REGG_STAT.UNLOCK_HELD.addr, (CYC_FORCE.VALUE entry.toNat).addr, (CYC_FORCE.VALUE entry.toNat).addr + 4])) ∧
  (∀ (s : State) (n token : Nat), n < 256 → s.get (CYC_FORCE.MODE n) = 1 → s.get SYS_STAT.MODE = 1 → s.get (CYC_FORCE.TARGET n) = 1 → 8 * s.get (CYC_FORCE.WORD n) + 8 ≤ s.get CYC_IMG.OUT_LEN → (s.forceBind n token).2 = true ∧ (s.forceBind n token).1.flag (CYC_FORCE.VALID n) = true ∧ (s.forceBind n token).1.flag CYC_STAT.FORCED = true ∧ (s.forceBind n token).1.flag SYS_STAT.FORCED = true) ∧
  (∀ (s : State) (n token : Nat), s.get (CYC_FORCE.MODE n) ≠ 1 → s.get (CYC_FORCE.MODE n) ≠ 2 → (s.forceBind n token).2 = false ∧ s.changesOnly (s.forceBind n token).1 [CYC_CMD_REJ_CNT.addr] ∧ (s.forceBind n token).1.get CYC_CMD_REJ_CNT = (s.get CYC_CMD_REJ_CNT + 1) % 2 ^ 32) ∧
  (∀ (s : State) (n token : Nat), ((s.get (CYC_FORCE.MODE n) = 1 ∧ s.get SYS_STAT.MODE = 1) ∨ (s.get (CYC_FORCE.MODE n) = 2 ∧ s.get SYS_STAT.MODE = 3)) → (8 * s.get (CYC_FORCE.WORD n) + 8 ≤ (if s.get (CYC_FORCE.TARGET n) = 0 then s.get CYC_IMG.IN_LEN else s.get CYC_IMG.OUT_LEN)) → s.forceBind n token = ((s.bindForce n).record 0x0D 1 (leBytes 1 n ++ leBytes 1 ((s.bindForce n).get (CYC_FORCE.TARGET n)) ++ leBytes 1 ((s.bindForce n).get (CYC_FORCE.MODE n)) ++ leBytes 1 0 ++ leBytes 8 ((s.bindForce n).get (CYC_FORCE.ID n)) ++ leBytes 8 token), true)) ∧
  (∀ (s : State) (n token : Nat), ((s.get (CYC_FORCE.MODE n) = 1 ∧ s.get SYS_STAT.MODE ≠ 1) ∨ (s.get (CYC_FORCE.MODE n) = 2 ∧ s.get SYS_STAT.MODE ≠ 3) ∨ (if s.get (CYC_FORCE.TARGET n) = 0 then s.get CYC_IMG.IN_LEN else s.get CYC_IMG.OUT_LEN) < 8 * s.get (CYC_FORCE.WORD n) + 8) → s.forceBind n token = (s.inc CYC_CMD_REJ_CNT, false))

/-- While both links of a lane are up a frame to 03-EE-0A leaves by the other port, with an inverted FCS where it came in with a bad one: a SYNC or COLDSTART with residence and the upstream link delay added to CORR, a spoke by the express queue of that port, another as it is. Any other frame, or one with a link down, is not forwarded. With 64 express frames waiting a spoke is dropped and LANE_XOVF_CNT increments, the one word that changes; at an empty port a forwarded frame leaves at once. A link that comes up or goes down has to verify anew, and the conditions of the lane are checked; a link down empties its port. The check takes an OFF lane whose conditions hold to LISTEN, or to FAULT cause 4 with a failed verification, and another lane whose conditions do not hold to OFF. A verification that ends is noted, unless its link is down: success leaves FAULT cause 4 for LISTEN once PREEMPT shows, failure leads to FAULT cause 4 unless the lane is OFF or there already. A PDELAY_REQ taken is answered on its port with the turn-around; with the own ID it is FAULT cause 1. A PDELAY_RESP taken gives the link delay of its port, the mean of the last 8, at most 65,535 ns; with the own ID it is FAULT cause 1. (R246, R247, R270, R274) -/
def Obligations.LaneLinks : Prop :=
  (∀ (s : State) (t : Nat) (lane : Nat) (fromDn fcs : Bool) (frame : List Byte) (residence : Nat) (v : State), v = s.at_ t → v.linked lane = 3 → frameBytes frame 0 3 = [0x03, 0xEE, 0x0A] → (laneHdr frame).kind ≠ 5 → (laneHdr frame).kind ≠ 0 → (laneHdr frame).kind ≠ 6 → exec (.frameForward t lane fromDn frame residence fcs) s = .next (v.forwardOut lane (if fromDn then 0 else 1) (frame ++ (if fcs then ethFcs frame else (ethFcs frame).map (fun b => ~~~ b))))) ∧
  (∀ (s : State) (t : Nat) (lane : Nat) (fromDn fcs : Bool) (frame : List Byte) (residence : Nat) (out : List Byte) (v : State), v = s.at_ t → v.linked lane = 3 → frameBytes frame 0 3 = [0x03, 0xEE, 0x0A] → ((laneHdr frame).kind = 0 ∨ (laneHdr frame).kind = 6) → (out = frame.take 38 ++ beBytes 8 (fieldBE frame 38 8 + residence + (if fromDn then v.get (LANE_PDLY.DN lane) else v.get (LANE_PDLY.UP lane)) * 65536) ++ frame.drop 46) → exec (.frameForward t lane fromDn frame residence fcs) s = .next (v.forwardOut lane (if fromDn then 0 else 1) (out ++ (if fcs then ethFcs out else (ethFcs out).map (fun b => ~~~ b))))) ∧
  (∀ (s : State) (t : Nat) (lane : Nat) (fromDn fcs : Bool) (frame : List Byte) (residence : Nat) (v : State), v = s.at_ t → v.linked lane = 3 → frameBytes frame 0 3 = [0x03, 0xEE, 0x0A] → (laneHdr frame).kind = 5 → exec (.frameForward t lane fromDn frame residence fcs) s = .next (v.expressOut lane (if fromDn then 0 else 1) false (frame ++ (if fcs then ethFcs frame else (ethFcs frame).map (fun b => ~~~ b))))) ∧
  (∀ (s : State) (t : Nat) (lane : Nat) (fromDn fcs : Bool) (frame : List Byte) (residence : Nat) (v : State), v = s.at_ t → (v.linked lane ≠ 3 ∨ frameBytes frame 0 3 ≠ [0x03, 0xEE, 0x0A]) → exec (.frameForward t lane fromDn frame residence fcs) s = .next (v)) ∧
  (∀ (s : State) (l dn : Nat) (own : Bool) (bytes : List Byte), l < 2 → (64 ≤ ((s.port (2 * l + dn)).filter (fun f => f.express && s.localNow < f.start)).length) → (s.expressOut l dn own bytes).get (LANE_XOVF_CNT l) = (s.get (LANE_XOVF_CNT l) + 1) % 2 ^ 32 ∧ (s.expressOut l dn own bytes).lanes = s.lanes ∧ s.changesOnly (s.expressOut l dn own bytes) [(LANE_XOVF_CNT l).addr]) ∧
  (∀ (s : State) (l dn : Nat) (bytes : List Byte), s.port (2 * l + dn) = [] → s.forwardOut l dn bytes = s.setPort (2 * l + dn) [⟨s.localNow, s.localNow + wireNs bytes.length, false, false, bytes⟩]) ∧
  (∀ (s : State) (t : Nat) (lane dn : Nat) (v : State), v = s.at_ t → lane < 2 → dn < 2 → exec (.laneLinkUp t lane dn) s = .next ((let x := v.setLn lane { v.ln lane with verified := setBit (v.ln lane).verified dn false, failed := setBit (v.ln lane).failed dn false }; ((x.put (linkFld lane dn) 1).showPreempt lane).laneCheck lane))) ∧
  (∀ (s : State) (t : Nat) (lane dn : Nat) (v : State), v = s.at_ t → lane < 2 → dn < 2 → exec (.laneLinkDown t lane dn) s = .next ((let x := v.setLn lane { v.ln lane with verified := setBit (v.ln lane).verified dn false, failed := setBit (v.ln lane).failed dn false }; (((x.setPort (2 * lane + dn) []).put (linkFld lane dn) 0).showPreempt lane).laneCheck lane))) ∧
  (∀ (s : State) (l : Nat), s.laneState l = 0 → s.laneWanted l = true → s.laneCheck l = if s.linkFailed l = true then s.laneFault l 4 else s.laneGoto l 1) ∧
  (∀ (s : State) (l : Nat), s.laneState l ≠ 0 → s.laneWanted l = false → s.laneCheck l = s.laneGoto l 0) ∧
  (∀ (s : State) (l : Nat), s.laneState l = 0 ↔ s.laneWanted l = false → s.laneCheck l = s) ∧
  (∀ (s : State) (t : Nat) (lane dn : Nat) (v : State), v = s.at_ t → lane < 2 → dn < 2 → v.get (linkFld lane dn) ≠ 0 → (((v.setLn lane { v.ln lane with verified := setBit (v.ln lane).verified dn true, failed := setBit (v.ln lane).failed dn false }).showPreempt lane).laneState lane ≠ 5 ∨ ((v.setLn lane { v.ln lane with verified := setBit (v.ln lane).verified dn true, failed := setBit (v.ln lane).failed dn false }).showPreempt lane).get (LANE_STAT.FAULT lane) ≠ 4 ∨ ((v.setLn lane { v.ln lane with verified := setBit (v.ln lane).verified dn true, failed := setBit (v.ln lane).failed dn false }).showPreempt lane).flag (LANE_STAT.PREEMPT lane) = false) → exec (.preemptVerifyDone t lane dn true) s = .next (((v.setLn lane { v.ln lane with verified := setBit (v.ln lane).verified dn true, failed := setBit (v.ln lane).failed dn false }).showPreempt lane))) ∧
  (∀ (s : State) (t : Nat) (lane dn : Nat) (v : State), v = s.at_ t → lane < 2 → dn < 2 → v.get (linkFld lane dn) ≠ 0 → ((v.setLn lane { v.ln lane with verified := setBit (v.ln lane).verified dn true, failed := setBit (v.ln lane).failed dn false }).showPreempt lane).laneState lane = 5 → ((v.setLn lane { v.ln lane with verified := setBit (v.ln lane).verified dn true, failed := setBit (v.ln lane).failed dn false }).showPreempt lane).get (LANE_STAT.FAULT lane) = 4 → ((v.setLn lane { v.ln lane with verified := setBit (v.ln lane).verified dn true, failed := setBit (v.ln lane).failed dn false }).showPreempt lane).flag (LANE_STAT.PREEMPT lane) = true → exec (.preemptVerifyDone t lane dn true) s = .next (((v.setLn lane { v.ln lane with verified := setBit (v.ln lane).verified dn true, failed := setBit (v.ln lane).failed dn false }).showPreempt lane).laneGoto lane 1)) ∧
  (∀ (s : State) (t : Nat) (lane dn : Nat) (v : State), v = s.at_ t → lane < 2 → dn < 2 → v.get (linkFld lane dn) ≠ 0 → ((v.setLn lane { v.ln lane with verified := setBit (v.ln lane).verified dn false, failed := setBit (v.ln lane).failed dn true }).showPreempt lane).laneState lane ≠ 0 → (((v.setLn lane { v.ln lane with verified := setBit (v.ln lane).verified dn false, failed := setBit (v.ln lane).failed dn true }).showPreempt lane).laneState lane ≠ 5 ∨ ((v.setLn lane { v.ln lane with verified := setBit (v.ln lane).verified dn false, failed := setBit (v.ln lane).failed dn true }).showPreempt lane).get (LANE_STAT.FAULT lane) ≠ 4) → exec (.preemptVerifyDone t lane dn false) s = .next (((v.setLn lane { v.ln lane with verified := setBit (v.ln lane).verified dn false, failed := setBit (v.ln lane).failed dn true }).showPreempt lane).laneFault lane 4)) ∧
  (∀ (s : State) (t : Nat) (lane dn : Nat) (v : State), v = s.at_ t → lane < 2 → dn < 2 → v.get (linkFld lane dn) ≠ 0 → (((v.setLn lane { v.ln lane with verified := setBit (v.ln lane).verified dn false, failed := setBit (v.ln lane).failed dn true }).showPreempt lane).laneState lane = 0 ∨ (((v.setLn lane { v.ln lane with verified := setBit (v.ln lane).verified dn false, failed := setBit (v.ln lane).failed dn true }).showPreempt lane).laneState lane = 5 ∧ ((v.setLn lane { v.ln lane with verified := setBit (v.ln lane).verified dn false, failed := setBit (v.ln lane).failed dn true }).showPreempt lane).get (LANE_STAT.FAULT lane) = 4)) → exec (.preemptVerifyDone t lane dn false) s = .next (((v.setLn lane { v.ln lane with verified := setBit (v.ln lane).verified dn false, failed := setBit (v.ln lane).failed dn true }).showPreempt lane))) ∧
  (∀ (s : State) (t : Nat) (lane dn : Nat) (ok : Bool) (v : State), v = s.at_ t → v.get (linkFld lane dn) = 0 → exec (.preemptVerifyDone t lane dn ok) s = .next (v)) ∧
  (∀ (s : State) (t : Nat) (lane dn : Nat) (frame : List Byte) (fcs : Bool) (turn : Nat) (v : State), v = s.at_ t → lane < 2 → v.laneTakes lane = true → (v.laneFormat lane frame fcs).2 = true → (laneHdr frame).kind = 7 → v.isDup lane (laneHdr frame) = false → exec (.pdelayReq t lane dn frame fcs turn) s = .next (v.laneOutOn lane dn v.localNow 0xFFFF (v.laneFrame lane true 8 0xFFFF 0 false false (beBytes 8 turn ++ List.replicate 22 0)))) ∧
  (∀ (s : State) (t : Nat) (lane dn : Nat) (frame : List Byte) (fcs : Bool) (turn : Nat) (v : State), v = s.at_ t → lane < 2 → v.laneTakes lane = true → (v.laneFormat lane frame fcs).2 = true → (laneHdr frame).kind = 7 → v.isDup lane (laneHdr frame) = true → exec (.pdelayReq t lane dn frame fcs turn) s = .next (v.laneFault lane 1)) ∧
  (∀ (s : State) (t : Nat) (lane dn t1 t4 : Nat) (frame : List Byte) (fcs : Bool) (d : Int) (ds : List Nat) (v : State), v = s.at_ t → lane < 2 → v.laneTakes lane = true → (v.laneFormat lane frame fcs).2 = true → dn < 2 → (laneHdr frame).kind = 8 → v.isDup lane (laneHdr frame) = false → d = (((t4 : Int) - t1) - (fieldBE frame 30 8 / 65536 : Nat)) / 2 → ds = (d.toNat :: SMap.getD v.lanes.pdelay (2 * lane + dn) []).take 8 → exec (.pdelayResp t lane dn t1 t4 frame fcs) s = .next (({ v with lanes := { v.lanes with pdelay := SMap.set v.lanes.pdelay (2 * lane + dn) ds } }).put (if dn = 0 then LANE_PDLY.UP lane else LANE_PDLY.DN lane) (min 0xFFFF (ds.foldl (· + ·) 0 / ds.length)))) ∧
  (∀ (s : State) (t : Nat) (lane dn t1 t4 : Nat) (frame : List Byte) (fcs : Bool) (v : State), v = s.at_ t → lane < 2 → v.laneTakes lane = true → (v.laneFormat lane frame fcs).2 = true → (laneHdr frame).kind = 8 → v.isDup lane (laneHdr frame) = true → exec (.pdelayResp t lane dn t1 t4 frame fcs) s = .next (v.laneFault lane 1))

/-- A SYNC taken with the own ID is FAULT cause 1. Of another ID, its claim obeyed, a LISTEN or CONTEND lane goes to INTEGRATE and takes it there, a lane in INTEGRATE takes it there, a SYNCED lane judges it as R272 and R280 say. A COLDSTART with the own ID is FAULT cause 1; of a lower ID it takes a LISTEN or CONTEND lane to INTEGRATE, and a lane in INTEGRATE takes it; the first of a higher ID in LISTEN sets the wait to one tick; another changes nothing. The end of 128 ticks in LISTEN with no wait set starts the wait of the own ID. The end of the third contest window makes the node master in SYNCED; where no other lane is SYNCED, LANE is taken from LOCAL. Of a SYNCED lane that is not master: 64 ticks without SYNC lead to LISTEN and increment LANE_REJOIN_CNT; after 2 the lowest ID left of those present becomes master, and LANE_SRC shows the lane of the lower master ID. A boundary at which no SYNCED lane took its SYNC, with none of them master, puts LANE into FREEWHEEL, its hold at 0, counted, shown on each SYNCED lane. Before their conditions these commands change nothing. The state change itself shows the state, no FAULT and no MASTER and changes no byte of memory. A SYNC or COLDSTART taken in INTEGRATE is kept as the candidate unless it agrees with the one kept to 1 us; if it agrees and no bank holds its CID, it is FAULT cause 2. (R269, R270, R271, R272, R273, R282) -/
def Obligations.LaneStates : Prop :=
  (∀ (s : State) (t : Nat) (lane dn : Nat) (frame : List Byte) (fcs : Bool) (x : State) (v : State), v = s.at_ t → lane < 2 → v.laneTakes lane = true → (v.laneFormat lane frame fcs).2 = true → (laneHdr frame).kind = 0 → v.isDup lane (laneHdr frame) = false → x = (v.obey (laneHdr frame).claim).1.laneClaim (laneHdr frame).claim → (x.laneState lane = 1 ∨ x.laneState lane = 2) → exec (.syncRx t lane dn frame fcs) s = .next ((x.laneGoto lane 3).integrate lane (laneHdr frame) (x.syncValue lane dn frame))) ∧
  (∀ (s : State) (t : Nat) (lane dn : Nat) (frame : List Byte) (fcs : Bool) (x : State) (v : State), v = s.at_ t → lane < 2 → v.laneTakes lane = true → (v.laneFormat lane frame fcs).2 = true → (laneHdr frame).kind = 0 → v.isDup lane (laneHdr frame) = false → x = (v.obey (laneHdr frame).claim).1.laneClaim (laneHdr frame).claim → x.laneState lane = 3 → exec (.syncRx t lane dn frame fcs) s = .next (x.integrate lane (laneHdr frame) (x.syncValue lane dn frame))) ∧
  (∀ (s : State) (t : Nat) (lane dn : Nat) (frame : List Byte) (fcs : Bool) (x : State) (v : State), v = s.at_ t → lane < 2 → v.laneTakes lane = true → (v.laneFormat lane frame fcs).2 = true → (laneHdr frame).kind = 0 → v.isDup lane (laneHdr frame) = false → x = (v.obey (laneHdr frame).claim).1.laneClaim (laneHdr frame).claim → x.laneState lane = 4 → exec (.syncRx t lane dn frame fcs) s = .next (x.takeSync lane (laneHdr frame) (x.syncValue lane dn frame))) ∧
  (∀ (s : State) (t : Nat) (lane dn : Nat) (frame : List Byte) (fcs : Bool) (v : State), v = s.at_ t → lane < 2 → v.laneTakes lane = true → (v.laneFormat lane frame fcs).2 = true → (laneHdr frame).kind = 0 → v.isDup lane (laneHdr frame) = true → exec (.syncRx t lane dn frame fcs) s = .next (v.laneFault lane 1)) ∧
  (∀ (s : State) (t : Nat) (lane dn : Nat) (frame : List Byte) (fcs : Bool) (v : State), v = s.at_ t → lane < 2 → v.laneTakes lane = true → (v.laneFormat lane frame fcs).2 = true → (laneHdr frame).kind = 6 → v.isDup lane (laneHdr frame) = false → (v.laneState lane = 1 ∨ v.laneState lane = 2) → (laneHdr frame).sender < v.node → exec (.coldstartRx t lane dn frame fcs) s = .next ((v.laneGoto lane 3).integrate lane (laneHdr frame) (v.syncValue lane dn frame))) ∧
  (∀ (s : State) (t : Nat) (lane dn : Nat) (frame : List Byte) (fcs : Bool) (v : State), v = s.at_ t → lane < 2 → v.laneTakes lane = true → (v.laneFormat lane frame fcs).2 = true → (laneHdr frame).kind = 6 → v.isDup lane (laneHdr frame) = false → v.laneState lane = 3 → exec (.coldstartRx t lane dn frame fcs) s = .next (v.integrate lane (laneHdr frame) (v.syncValue lane dn frame))) ∧
  (∀ (s : State) (t : Nat) (lane dn : Nat) (frame : List Byte) (fcs : Bool) (v : State), v = s.at_ t → lane < 2 → v.laneTakes lane = true → (v.laneFormat lane frame fcs).2 = true → (laneHdr frame).kind = 6 → v.isDup lane (laneHdr frame) = false → v.laneState lane = 1 → v.node ≤ (laneHdr frame).sender → (v.ln lane).cold = none → exec (.coldstartRx t lane dn frame fcs) s = .next (v.setLn lane { v.ln lane with cold := some (laneHdr frame).sender, wait := some 1 })) ∧
  (∀ (s : State) (t : Nat) (lane dn : Nat) (frame : List Byte) (fcs : Bool) (v : State), v = s.at_ t → lane < 2 → v.laneTakes lane = true → (v.laneFormat lane frame fcs).2 = true → (laneHdr frame).kind = 6 → v.isDup lane (laneHdr frame) = false → ((v.laneState lane = 1 ∧ v.node ≤ (laneHdr frame).sender ∧ (v.ln lane).cold ≠ none) ∨ (v.laneState lane = 2 ∧ v.node ≤ (laneHdr frame).sender) ∨ v.laneState lane = 4) → exec (.coldstartRx t lane dn frame fcs) s = .next (v)) ∧
  (∀ (s : State) (t : Nat) (lane dn : Nat) (frame : List Byte) (fcs : Bool) (v : State), v = s.at_ t → lane < 2 → v.laneTakes lane = true → (v.laneFormat lane frame fcs).2 = true → (laneHdr frame).kind = 6 → v.isDup lane (laneHdr frame) = true → exec (.coldstartRx t lane dn frame fcs) s = .next (v.laneFault lane 1)) ∧
  (∀ (s : State) (t : Nat) (lane : Nat) (v : State), v = s.at_ t → v.laneState lane = 1 → 128 ≤ (v.ln lane).listen → (v.ln lane).wait = none → exec (.listenEnd t lane) s = .next (v.setLn lane { v.ln lane with wait := some v.node })) ∧
  (∀ (s : State) (t : Nat) (lane : Nat) (v : State), v = s.at_ t → (v.laneState lane ≠ 1 ∨ (v.ln lane).listen < 128 ∨ (v.ln lane).wait ≠ none) → exec (.listenEnd t lane) s = .next (v)) ∧
  (∀ (s : State) (t : Nat) (lane : Nat) (v : State), v = s.at_ t → lane < 2 → v.laneState lane = 2 → 4 ≤ (v.ln lane).contest → v.laneSynced (1 - lane) = false → Completes (.contestWindowEnd t lane) s (fun u => u.laneState lane = 4 ∧ u.flag (LANE_STAT.MASTER lane) = true ∧ u.get (LANE_STAT.MASTER_ID lane) = v.node ∧ u.laneNow = v.localNow ∧ u.get TIME_STAT.LANE_SRC = lane ∧ u.flag TIME_STAT.LANE_SYNC = true ∧ ∀ a, u.byte a = v.byte a)) ∧
  (∀ (s : State) (t : Nat) (lane : Nat) (v : State), v = s.at_ t → lane < 2 → v.laneState lane = 2 → 4 ≤ (v.ln lane).contest → v.laneSynced (1 - lane) = true → Completes (.contestWindowEnd t lane) s (fun u => u.laneState lane = 4 ∧ u.flag (LANE_STAT.MASTER lane) = true ∧ u.get (LANE_STAT.MASTER_ID lane) = v.node ∧ ∀ a, u.byte a = v.byte a)) ∧
  (∀ (s : State) (t : Nat) (lane : Nat) (v : State), v = s.at_ t → (v.laneState lane ≠ 2 ∨ (v.ln lane).contest < 4) → exec (.contestWindowEnd t lane) s = .next (v)) ∧
  (∀ (s : State) (t : Nat) (lane : Nat) (v : State), v = s.at_ t → v.laneSynced lane = true → v.flag (LANE_STAT.MASTER lane) = false → 64 ≤ (v.ln lane).noSync → exec (.syncLoss t lane) s = .next ((v.laneGoto lane 1).inc (LANE_REJOIN_CNT lane))) ∧
  (∀ (s : State) (t : Nat) (lane : Nat) (v : State), v = s.at_ t → (v.laneSynced lane = false ∨ v.flag (LANE_STAT.MASTER lane) = true ∨ (v.ln lane).noSync < 64) → exec (.syncLoss t lane) s = .next (v)) ∧
  (∀ (s : State) (t : Nat) (lane : Nat) (v : State), v = s.at_ t → v.laneSynced lane = true → v.flag (LANE_STAT.MASTER lane) = false → 2 ≤ (v.ln lane).noSync → ((v.present lane).all (fun n => n == v.get (LANE_STAT.MASTER_ID lane) || v.node ≤ n) = true) → exec (.masterSilent t lane) s = .next ((let x := ((v.put (LANE_STAT.MASTER_ID lane) v.node).putFlag (LANE_STAT.MASTER lane) true).inc (LANE_MASTER_CNT lane); (x.setLn lane { x.ln lane with noSync := 0, gotSync := true, yielding := false }).showLaneSrc))) ∧
  (∀ (s : State) (t : Nat) (lane : Nat) (v : State), v = s.at_ t → (v.laneSynced lane = false ∨ v.flag (LANE_STAT.MASTER lane) = true ∨ (v.ln lane).noSync < 2 ∨ (v.present lane).all (fun n => n == v.get (LANE_STAT.MASTER_ID lane) || v.node ≤ n) = false) → exec (.masterSilent t lane) s = .next (v)) ∧
  (∀ (s : State) (t : Nat) (v : State), v = s.at_ t → v.flag TIME_STAT.LANE_SYNC = true → v.flag TIME_STAT.LANE_FW = false → (∀ l, l < 2 → v.laneSynced l = true → v.flag (LANE_STAT.MASTER l) = false ∧ 1 ≤ (v.ln l).noSync) → Completes (.laneFreewheel t) s (fun u => u.flag TIME_STAT.LANE_FW = true ∧ u.get TIME_LANE_HOLD.HOLD = 0 ∧ u.get TIME_LANE_FW_CNT = (v.get TIME_LANE_FW_CNT + 1) % 2 ^ 32 ∧ (v.laneSynced 0 = true → u.flag (LANE_STAT.FREEWHEEL 0) = true) ∧ (v.laneSynced 1 = true → u.flag (LANE_STAT.FREEWHEEL 1) = true) ∧ u.lanes = v.lanes ∧ ∀ a, u.byte a = v.byte a)) ∧
  (∀ (s : State) (t : Nat) (l : Nat) (v : State), v = s.at_ t → (v.flag TIME_STAT.LANE_SYNC = false ∨ v.flag TIME_STAT.LANE_FW = true ∨ (l < 2 ∧ v.laneSynced l = true ∧ (v.flag (LANE_STAT.MASTER l) = true ∨ (v.ln l).noSync = 0))) → exec (.laneFreewheel t) s = .next (v)) ∧
  (∀ (s : State) (l st : Nat), l < 2 → st < 8 → (s.laneGoto l st).laneState l = st ∧ (s.laneGoto l st).get (LANE_STAT.FAULT l) = 0 ∧ (s.laneGoto l st).flag (LANE_STAT.MASTER l) = false ∧ ∀ a, (s.laneGoto l st).byte a = s.byte a) ∧
  (∀ (s : State) (l : Nat) (h : LHdr) (v : Int), (∀ v0 l0, (s.ln l).cand = some (h.sender, v0, l0) → 1000 < gap (v - v0) ((s.localNow : Int) - l0)) → s.integrate l h v = s.setLn l { s.ln l with cand := some (h.sender, v, s.localNow) }) ∧
  (∀ (s : State) (l : Nat) (h : LHdr) (v : Int) (v0 : Int) (l0 : Nat), (s.ln l).cand = some (h.sender, v0, l0) → gap (v - v0) ((s.localNow : Int) - l0) ≤ 1000 → s.bankOf l h.cid = none → s.integrate l h v = s.laneFault l 2)

/-- A frame on a lane that is OFF or in FAULT changes nothing. On another lane one with a bad FCS increments LANE_FCS_CNT, one with a good FCS and bad format LANE_FMT_CNT, the one word that changes; one of another kind than the reception changes nothing. A frame taken with the own ID is FAULT cause 1. A STATUS with another CID on a SYNCED lane increments LANE_CID_CNT; another is obeyed for its claim and fills the line of its node: state, versions, RESTART, announcement answer. From the master, with versions outside the own ones, it then is FAULT cause 3; else announcements and decisions of the coordinator, and UPD_OWN of the partner, are taken. A DATA or FEEDBACK frame with a CID that is not the lane cadence increments LANE_CID_CNT, one that does not fit its entry LANE_SLOT_CNT, and changes nothing else; a second copy of a DUAL entry changes nothing. A DATA frame taken counts, as late where its tick is past, and its stream holds its bytes and MAX_AGE, with AGE, STALE, lane and flags shown, then the gateway takes it. A FEEDBACK frame taken counts, as late where its tick or FB_DL is past, keeps RESTART and the node status, and holds its records, 8 at most, each for the axis of its node with that channel, if there is one. A stream older than its maximum age is STALE; another stays. (R250, R256, R265, R266, R269, R276, R277) -/
def Obligations.LaneData : Prop :=
  (∀ (s : State) (t : Nat) (lane : Nat) (dn : Nat) (frame : List Byte) (fcs : Bool) (v : State), v = s.at_ t → v.laneTakes lane = false → exec (.syncRx t lane dn frame fcs) s = .next (v)) ∧
  (∀ (s : State) (t : Nat) (lane : Nat) (dn : Nat) (frame : List Byte) (v : State), v = s.at_ t → lane < 2 → v.laneTakes lane = true → Completes (.syncRx t lane dn frame false) s (fun u => u.get (LANE_FCS_CNT lane) = (v.get (LANE_FCS_CNT lane) + 1) % 2 ^ 32 ∧ v.changesOnly u [(LANE_FCS_CNT lane).addr])) ∧
  (∀ (s : State) (t : Nat) (lane : Nat) (dn : Nat) (frame : List Byte) (v : State), v = s.at_ t → lane < 2 → v.laneTakes lane = true → (v.laneFormat lane frame true).2 = false → Completes (.syncRx t lane dn frame true) s (fun u => u.get (LANE_FMT_CNT lane) = (v.get (LANE_FMT_CNT lane) + 1) % 2 ^ 32 ∧ v.changesOnly u [(LANE_FMT_CNT lane).addr])) ∧
  (∀ (s : State) (t : Nat) (lane : Nat) (dn : Nat) (frame : List Byte) (v : State), v = s.at_ t → v.laneTakes lane = true → (v.laneFormat lane frame true).2 = true → (laneHdr frame).kind ≠ 0 → exec (.syncRx t lane dn frame true) s = .next (v)) ∧
  (∀ (s : State) (t : Nat) (lane : Nat) (dn : Nat) (frame : List Byte) (fcs : Bool) (v : State), v = s.at_ t → v.laneTakes lane = false → exec (.coldstartRx t lane dn frame fcs) s = .next (v)) ∧
  (∀ (s : State) (t : Nat) (lane : Nat) (dn : Nat) (frame : List Byte) (v : State), v = s.at_ t → lane < 2 → v.laneTakes lane = true → Completes (.coldstartRx t lane dn frame false) s (fun u => u.get (LANE_FCS_CNT lane) = (v.get (LANE_FCS_CNT lane) + 1) % 2 ^ 32 ∧ v.changesOnly u [(LANE_FCS_CNT lane).addr])) ∧
  (∀ (s : State) (t : Nat) (lane : Nat) (dn : Nat) (frame : List Byte) (v : State), v = s.at_ t → lane < 2 → v.laneTakes lane = true → (v.laneFormat lane frame true).2 = false → Completes (.coldstartRx t lane dn frame true) s (fun u => u.get (LANE_FMT_CNT lane) = (v.get (LANE_FMT_CNT lane) + 1) % 2 ^ 32 ∧ v.changesOnly u [(LANE_FMT_CNT lane).addr])) ∧
  (∀ (s : State) (t : Nat) (lane : Nat) (dn : Nat) (frame : List Byte) (v : State), v = s.at_ t → v.laneTakes lane = true → (v.laneFormat lane frame true).2 = true → (laneHdr frame).kind ≠ 6 → exec (.coldstartRx t lane dn frame true) s = .next (v)) ∧
  (∀ (s : State) (t : Nat) (lane : Nat) (dn : Nat) (frame : List Byte) (fcs : Bool) (turn : Nat) (v : State), v = s.at_ t → v.laneTakes lane = false → exec (.pdelayReq t lane dn frame fcs turn) s = .next (v)) ∧
  (∀ (s : State) (t : Nat) (lane : Nat) (dn : Nat) (frame : List Byte) (turn : Nat) (v : State), v = s.at_ t → lane < 2 → v.laneTakes lane = true → Completes (.pdelayReq t lane dn frame false turn) s (fun u => u.get (LANE_FCS_CNT lane) = (v.get (LANE_FCS_CNT lane) + 1) % 2 ^ 32 ∧ v.changesOnly u [(LANE_FCS_CNT lane).addr])) ∧
  (∀ (s : State) (t : Nat) (lane : Nat) (dn : Nat) (frame : List Byte) (turn : Nat) (v : State), v = s.at_ t → lane < 2 → v.laneTakes lane = true → (v.laneFormat lane frame true).2 = false → Completes (.pdelayReq t lane dn frame true turn) s (fun u => u.get (LANE_FMT_CNT lane) = (v.get (LANE_FMT_CNT lane) + 1) % 2 ^ 32 ∧ v.changesOnly u [(LANE_FMT_CNT lane).addr])) ∧
  (∀ (s : State) (t : Nat) (lane : Nat) (dn : Nat) (frame : List Byte) (turn : Nat) (v : State), v = s.at_ t → v.laneTakes lane = true → (v.laneFormat lane frame true).2 = true → (laneHdr frame).kind ≠ 7 → exec (.pdelayReq t lane dn frame true turn) s = .next (v)) ∧
  (∀ (s : State) (t : Nat) (lane : Nat) (dn t1 t4 : Nat) (frame : List Byte) (fcs : Bool) (v : State), v = s.at_ t → v.laneTakes lane = false → exec (.pdelayResp t lane dn t1 t4 frame fcs) s = .next (v)) ∧
  (∀ (s : State) (t : Nat) (lane : Nat) (dn t1 t4 : Nat) (frame : List Byte) (v : State), v = s.at_ t → lane < 2 → v.laneTakes lane = true → Completes (.pdelayResp t lane dn t1 t4 frame false) s (fun u => u.get (LANE_FCS_CNT lane) = (v.get (LANE_FCS_CNT lane) + 1) % 2 ^ 32 ∧ v.changesOnly u [(LANE_FCS_CNT lane).addr])) ∧
  (∀ (s : State) (t : Nat) (lane : Nat) (dn t1 t4 : Nat) (frame : List Byte) (v : State), v = s.at_ t → lane < 2 → v.laneTakes lane = true → (v.laneFormat lane frame true).2 = false → Completes (.pdelayResp t lane dn t1 t4 frame true) s (fun u => u.get (LANE_FMT_CNT lane) = (v.get (LANE_FMT_CNT lane) + 1) % 2 ^ 32 ∧ v.changesOnly u [(LANE_FMT_CNT lane).addr])) ∧
  (∀ (s : State) (t : Nat) (lane : Nat) (dn t1 t4 : Nat) (frame : List Byte) (v : State), v = s.at_ t → v.laneTakes lane = true → (v.laneFormat lane frame true).2 = true → (laneHdr frame).kind ≠ 8 → exec (.pdelayResp t lane dn t1 t4 frame true) s = .next (v)) ∧
  (∀ (s : State) (t : Nat) (lane : Nat) (frame : List Byte) (fcs : Bool) (v : State), v = s.at_ t → v.laneTakes lane = false → exec (.statusRx t lane frame fcs) s = .next (v)) ∧
  (∀ (s : State) (t : Nat) (lane : Nat) (frame : List Byte) (v : State), v = s.at_ t → lane < 2 → v.laneTakes lane = true → Completes (.statusRx t lane frame false) s (fun u => u.get (LANE_FCS_CNT lane) = (v.get (LANE_FCS_CNT lane) + 1) % 2 ^ 32 ∧ v.changesOnly u [(LANE_FCS_CNT lane).addr])) ∧
  (∀ (s : State) (t : Nat) (lane : Nat) (frame : List Byte) (v : State), v = s.at_ t → lane < 2 → v.laneTakes lane = true → (v.laneFormat lane frame true).2 = false → Completes (.statusRx t lane frame true) s (fun u => u.get (LANE_FMT_CNT lane) = (v.get (LANE_FMT_CNT lane) + 1) % 2 ^ 32 ∧ v.changesOnly u [(LANE_FMT_CNT lane).addr])) ∧
  (∀ (s : State) (t : Nat) (lane : Nat) (frame : List Byte) (v : State), v = s.at_ t → v.laneTakes lane = true → (v.laneFormat lane frame true).2 = true → (laneHdr frame).kind ≠ 4 → exec (.statusRx t lane frame true) s = .next (v)) ∧
  (∀ (s : State) (t : Nat) (lane : Nat) (frame : List Byte) (fcs : Bool) (v : State), v = s.at_ t → v.laneTakes lane = false → exec (.dataRx t lane frame fcs) s = .next (v)) ∧
  (∀ (s : State) (t : Nat) (lane : Nat) (frame : List Byte) (v : State), v = s.at_ t → lane < 2 → v.laneTakes lane = true → Completes (.dataRx t lane frame false) s (fun u => u.get (LANE_FCS_CNT lane) = (v.get (LANE_FCS_CNT lane) + 1) % 2 ^ 32 ∧ v.changesOnly u [(LANE_FCS_CNT lane).addr])) ∧
  (∀ (s : State) (t : Nat) (lane : Nat) (frame : List Byte) (v : State), v = s.at_ t → lane < 2 → v.laneTakes lane = true → (v.laneFormat lane frame true).2 = false → Completes (.dataRx t lane frame true) s (fun u => u.get (LANE_FMT_CNT lane) = (v.get (LANE_FMT_CNT lane) + 1) % 2 ^ 32 ∧ v.changesOnly u [(LANE_FMT_CNT lane).addr])) ∧
  (∀ (s : State) (t : Nat) (lane : Nat) (frame : List Byte) (v : State), v = s.at_ t → v.laneTakes lane = true → (v.laneFormat lane frame true).2 = true → (laneHdr frame).kind ≠ 1 → exec (.dataRx t lane frame true) s = .next (v)) ∧
  (∀ (s : State) (t : Nat) (lane : Nat) (frame : List Byte) (fcs : Bool) (v : State), v = s.at_ t → v.laneTakes lane = false → exec (.feedbackRx t lane frame fcs) s = .next (v)) ∧
  (∀ (s : State) (t : Nat) (lane : Nat) (frame : List Byte) (v : State), v = s.at_ t → lane < 2 → v.laneTakes lane = true → Completes (.feedbackRx t lane frame false) s (fun u => u.get (LANE_FCS_CNT lane) = (v.get (LANE_FCS_CNT lane) + 1) % 2 ^ 32 ∧ v.changesOnly u [(LANE_FCS_CNT lane).addr])) ∧
  (∀ (s : State) (t : Nat) (lane : Nat) (frame : List Byte) (v : State), v = s.at_ t → lane < 2 → v.laneTakes lane = true → (v.laneFormat lane frame true).2 = false → Completes (.feedbackRx t lane frame true) s (fun u => u.get (LANE_FMT_CNT lane) = (v.get (LANE_FMT_CNT lane) + 1) % 2 ^ 32 ∧ v.changesOnly u [(LANE_FMT_CNT lane).addr])) ∧
  (∀ (s : State) (t : Nat) (lane : Nat) (frame : List Byte) (v : State), v = s.at_ t → v.laneTakes lane = true → (v.laneFormat lane frame true).2 = true → (laneHdr frame).kind ≠ 3 → exec (.feedbackRx t lane frame true) s = .next (v)) ∧
  (∀ (s : State) (t : Nat) (lane : Nat) (frame : List Byte) (fcs : Bool) (v : State), v = s.at_ t → lane < 2 → v.laneTakes lane = true → (v.laneFormat lane frame fcs).2 = true → (laneHdr frame).kind = 4 → v.isDup lane (laneHdr frame) = true → exec (.statusRx t lane frame fcs) s = .next (v.laneFault lane 1)) ∧
  (∀ (s : State) (t : Nat) (lane : Nat) (frame : List Byte) (fcs : Bool) (v : State), v = s.at_ t → lane < 2 → v.laneTakes lane = true → (v.laneFormat lane frame fcs).2 = true → (laneHdr frame).kind = 1 → v.isDup lane (laneHdr frame) = true → exec (.dataRx t lane frame fcs) s = .next (v.laneFault lane 1)) ∧
  (∀ (s : State) (t : Nat) (lane : Nat) (frame : List Byte) (fcs : Bool) (v : State), v = s.at_ t → lane < 2 → v.laneTakes lane = true → (v.laneFormat lane frame fcs).2 = true → (laneHdr frame).kind = 3 → v.isDup lane (laneHdr frame) = true → exec (.feedbackRx t lane frame fcs) s = .next (v.laneFault lane 1)) ∧
  (∀ (s : State) (t : Nat) (lane : Nat) (frame : List Byte) (fcs : Bool) (v : State), v = s.at_ t → lane < 2 → v.laneTakes lane = true → (v.laneFormat lane frame fcs).2 = true → (laneHdr frame).kind = 4 → v.isDup lane (laneHdr frame) = false → (laneHdr frame).cid ≠ v.laneCid lane → v.laneSynced lane = true → exec (.statusRx t lane frame fcs) s = .next (v.inc (LANE_CID_CNT lane))) ∧
  (∀ (s : State) (t : Nat) (lane : Nat) (frame : List Byte) (fcs mine : Bool) (x y z q : State) (v : State), v = s.at_ t → lane < 2 → v.laneTakes lane = true → (v.laneFormat lane frame fcs).2 = true → (laneHdr frame).kind = 4 → v.isDup lane (laneHdr frame) = false → ((laneHdr frame).cid = v.laneCid lane ∨ v.laneSynced lane = false) → x = (v.obey (laneHdr frame).claim).1.laneClaim (laneHdr frame).claim → (y = (((x.put (LANE_NODE.STATE (256 * lane + (laneHdr frame).sender)) (fieldBE frame 31 1)).put (LANE_NODE.VER (256 * lane + (laneHdr frame).sender)) (fieldBE frame 30 1)).put (LANE_NODE.RESTART (256 * lane + (laneHdr frame).sender)) (fieldBE frame 32 2)).put (LANE_NODE.ANN (256 * lane + (laneHdr frame).sender)) (if (fieldBE frame 40 1) = 3 then 3 else if (fieldBE frame 40 1) = 0 then 0 else 1)) → mine = ((y.lanes.mode.op == 1 || y.lanes.mode.op == 2) && (fieldBE frame 36 4) == y.lanes.mode.m && (fieldBE frame 34 2) == y.lanes.mode.cid) → (z = (y.setLn lane { y.ln lane with seen := SMap.set (y.ln lane).seen (laneHdr frame).sender (if mine && (fieldBE frame 40 1) == y.lanes.mode.op then 1 else if mine && (fieldBE frame 40 1) == 3 then 3 else 0) }).nodeRestart (laneHdr frame).sender (fieldBE frame 32 2)) → (q = if z.present lane = [] then z else z.negotiate lane) → (laneHdr frame).sender = q.get (LANE_STAT.MASTER_ID lane) → ((fieldBE frame 30 1) % 16 > q.get LANE_VER.OWN_MAX ∨ (fieldBE frame 30 1) / 16 < q.get LANE_VER.OWN_MIN) → exec (.statusRx t lane frame fcs) s = .next (q.laneFault lane 3)) ∧
  (∀ (s : State) (t : Nat) (lane : Nat) (frame : List Byte) (fcs mine : Bool) (x y z q : State) (v : State), v = s.at_ t → lane < 2 → v.laneTakes lane = true → (v.laneFormat lane frame fcs).2 = true → (laneHdr frame).kind = 4 → v.isDup lane (laneHdr frame) = false → ((laneHdr frame).cid = v.laneCid lane ∨ v.laneSynced lane = false) → x = (v.obey (laneHdr frame).claim).1.laneClaim (laneHdr frame).claim → (y = (((x.put (LANE_NODE.STATE (256 * lane + (laneHdr frame).sender)) (fieldBE frame 31 1)).put (LANE_NODE.VER (256 * lane + (laneHdr frame).sender)) (fieldBE frame 30 1)).put (LANE_NODE.RESTART (256 * lane + (laneHdr frame).sender)) (fieldBE frame 32 2)).put (LANE_NODE.ANN (256 * lane + (laneHdr frame).sender)) (if (fieldBE frame 40 1) = 3 then 3 else if (fieldBE frame 40 1) = 0 then 0 else 1)) → mine = ((y.lanes.mode.op == 1 || y.lanes.mode.op == 2) && (fieldBE frame 36 4) == y.lanes.mode.m && (fieldBE frame 34 2) == y.lanes.mode.cid) → (z = (y.setLn lane { y.ln lane with seen := SMap.set (y.ln lane).seen (laneHdr frame).sender (if mine && (fieldBE frame 40 1) == y.lanes.mode.op then 1 else if mine && (fieldBE frame 40 1) == 3 then 3 else 0) }).nodeRestart (laneHdr frame).sender (fieldBE frame 32 2)) → (q = if z.present lane = [] then z else z.negotiate lane) → (¬ ((laneHdr frame).sender = q.get (LANE_STAT.MASTER_ID lane) ∧ ((fieldBE frame 30 1) % 16 > q.get LANE_VER.OWN_MAX ∨ (fieldBE frame 30 1) / 16 < q.get LANE_VER.OWN_MIN))) → exec (.statusRx t lane frame fcs) s = .next ((let op := (fieldBE frame 46 1); let w := if q.isCoord lane (laneHdr frame).sender (laneHdr frame).claim then (if op = 1 ∨ op = 2 then q.takeAnnounce op (fieldBE frame 48 2) (fieldBE frame 50 4) (fieldBE frame 54 8) else if op = 3 ∨ op = 4 then q.takeDecision op (fieldBE frame 50 4) else q) else q; if w.isPair lane (laneHdr frame).sender ∧ (laneHdr frame).sender ≠ w.node then w.partnerOwn (fieldBE frame 42 4) else w))) ∧
  (∀ (s : State) (t : Nat) (lane k : Nat) (frame : List Byte) (fcs : Bool) (v : State), v = s.at_ t → lane < 2 → v.laneTakes lane = true → (v.laneFormat lane frame fcs).2 = true → (laneHdr frame).kind = 4 → v.isDup lane (laneHdr frame) = false → (laneHdr frame).claim = 0 → (laneHdr frame).cid = v.laneCid lane → k = 256 * lane + (laneHdr frame).sender → v.isPair lane (laneHdr frame).sender = false → (laneHdr frame).sender ≠ v.get (LANE_STAT.MASTER_ID lane) → v.get LANE_CFG.COORD = 0 → Completes (.statusRx t lane frame fcs) s (fun u => u.get (LANE_NODE.STATE k) = fieldBE frame 31 1 % 8 ∧ u.get (LANE_NODE.VER k) = fieldBE frame 30 1 ∧ u.get (LANE_NODE.RESTART k) = fieldBE frame 32 2 ∧ (SMap.find (u.ln lane).seen (laneHdr frame).sender).isSome = true ∧ ∀ a, u.byte a = v.byte a)) ∧
  (∀ (s : State) (t : Nat) (lane : Nat) (frame : List Byte) (fcs : Bool) (v : State), v = s.at_ t → lane < 2 → v.laneTakes lane = true → (v.laneFormat lane frame fcs).2 = true → (laneHdr frame).kind = 1 → v.isDup lane (laneHdr frame) = false → (laneHdr frame).cid ≠ v.laneCid lane → exec (.dataRx t lane frame fcs) s = .next (v.inc (LANE_CID_CNT lane))) ∧
  (∀ (s : State) (t : Nat) (lane : Nat) (frame : List Byte) (fcs : Bool) (w0 : Nat) (v : State), v = s.at_ t → lane < 2 → v.laneTakes lane = true → (v.laneFormat lane frame fcs).2 = true → (laneHdr frame).kind = 1 → v.isDup lane (laneHdr frame) = false → (laneHdr frame).cid = v.laneCid lane → w0 = v.cadWord (v.get (LANE_STAT.BANK lane)) lane (laneHdr frame).slot 0 → (4096 ≤ (laneHdr frame).slot ∨ bitsOf w0 28 3 ≠ 2 ∨ v.senderOk lane (bitsOf w0 19 8) (laneHdr frame).sender = false ∨ v.lanes.tick % (2 ^ 32 * 64) < (entryTick (laneHdr frame) w0) ∨ (entryTick (laneHdr frame) w0) + 64 ≤ v.lanes.tick % (2 ^ 32 * 64)) → exec (.dataRx t lane frame fcs) s = .next (v.inc (LANE_SLOT_CNT lane))) ∧
  (∀ (s : State) (t : Nat) (lane : Nat) (frame : List Byte) (fcs : Bool) (v : State), v = s.at_ t → lane < 2 → v.laneTakes lane = true → (v.laneFormat lane frame fcs).2 = true → (laneHdr frame).kind = 3 → v.isDup lane (laneHdr frame) = false → (laneHdr frame).cid ≠ v.laneCid lane → exec (.feedbackRx t lane frame fcs) s = .next (v.inc (LANE_CID_CNT lane))) ∧
  (∀ (s : State) (t : Nat) (lane : Nat) (frame : List Byte) (fcs : Bool) (w0 : Nat) (v : State), v = s.at_ t → lane < 2 → v.laneTakes lane = true → (v.laneFormat lane frame fcs).2 = true → (laneHdr frame).kind = 3 → v.isDup lane (laneHdr frame) = false → (laneHdr frame).cid = v.laneCid lane → w0 = v.cadWord (v.get (LANE_STAT.BANK lane)) lane (laneHdr frame).slot 0 → (4096 ≤ (laneHdr frame).slot ∨ bitsOf w0 28 3 ≠ 4 ∨ v.senderOk lane (bitsOf w0 19 8) (laneHdr frame).sender = false ∨ v.lanes.tick % (2 ^ 32 * 64) < (entryTick (laneHdr frame) w0) ∨ (entryTick (laneHdr frame) w0) + 64 ≤ v.lanes.tick % (2 ^ 32 * 64)) → exec (.feedbackRx t lane frame fcs) s = .next (v.inc (LANE_SLOT_CNT lane))) ∧
  (∀ (s : State) (t : Nat) (lane behind : Nat) (frame : List Byte) (fcs : Bool) (w0 w1 w2 : Nat) (v : State), v = s.at_ t → lane < 2 → v.laneTakes lane = true → (v.laneFormat lane frame fcs).2 = true → (laneHdr frame).kind = 1 → v.isDup lane (laneHdr frame) = false → (v.admitFrame lane (laneHdr frame) 2).2 = some behind → w0 = v.cadWord (v.get (LANE_STAT.BANK lane)) lane (laneHdr frame).slot 0 → w1 = v.cadWord (v.get (LANE_STAT.BANK lane)) lane (laneHdr frame).slot 1 → w2 = v.cadWord (v.get (LANE_STAT.BANK lane)) lane (laneHdr frame).slot 2 → bitOf w0 31 = true → v.copyTaken (bitsOf w1 16 16 % 512) (entryTick (laneHdr frame) w0) = true → exec (.dataRx t lane frame fcs) s = .next (v)) ∧
  (∀ (s : State) (t : Nat) (lane behind : Nat) (frame : List Byte) (fcs : Bool) (w0 w1 w2 : Nat) (v : State), v = s.at_ t → lane < 2 → v.laneTakes lane = true → (v.laneFormat lane frame fcs).2 = true → (laneHdr frame).kind = 1 → v.isDup lane (laneHdr frame) = false → (v.admitFrame lane (laneHdr frame) 2).2 = some behind → w0 = v.cadWord (v.get (LANE_STAT.BANK lane)) lane (laneHdr frame).slot 0 → w1 = v.cadWord (v.get (LANE_STAT.BANK lane)) lane (laneHdr frame).slot 1 → w2 = v.cadWord (v.get (LANE_STAT.BANK lane)) lane (laneHdr frame).slot 2 → (bitOf w0 31 = false ∨ v.copyTaken (bitsOf w1 16 16 % 512) (entryTick (laneHdr frame) w0) = false) → exec (.dataRx t lane frame fcs) s = .next ((let m := bitsOf w1 16 16 % 512; let age := min 255 ((laneHdr frame).age + behind); let a := (v.inc (LANE_RX_CNT lane)).takeCopy m (entryTick (laneHdr frame) w0); let b := if 0 < behind then a.inc (LANE_LATE_CNT lane) else a; let c := (b.obey (laneHdr frame).claim).1.laneClaim (laneHdr frame).claim; let d := { c with lanes := { c.lanes with streams := SMap.set c.lanes.streams m ⟨frameBytes frame 30 (bitsOf w1 0 11), bitsOf w2 0 8⟩ } }; let e := ((d.put (LANE_STR.AGE m) age).putFlag (LANE_STR.STALE m) (bitsOf w2 0 8 < age)).put (LANE_STR.LANE m) lane; ((e.putFlag (LANE_STR.FLAG_STALE m) (bitOf (laneHdr frame).flags 1)).putFlag (LANE_STR.FORCED m) (bitOf (laneHdr frame).flags 0)).gwArrived 1 m))) ∧
  (∀ (s : State) (t : Nat) (lane m behind : Nat) (frame : List Byte) (fcs : Bool) (w0 w1 w2 : Nat) (v : State), v = s.at_ t → lane < 2 → v.laneTakes lane = true → (v.laneFormat lane frame fcs).2 = true → (laneHdr frame).kind = 1 → v.isDup lane (laneHdr frame) = false → (v.admitFrame lane (laneHdr frame) 2).2 = some behind → w0 = v.cadWord (v.get (LANE_STAT.BANK lane)) lane (laneHdr frame).slot 0 → w1 = v.cadWord (v.get (LANE_STAT.BANK lane)) lane (laneHdr frame).slot 1 → w2 = v.cadWord (v.get (LANE_STAT.BANK lane)) lane (laneHdr frame).slot 2 → (bitOf w0 31 = false ∨ v.copyTaken (bitsOf w1 16 16 % 512) (entryTick (laneHdr frame) w0) = false) → (laneHdr frame).claim = 0 → m = bitsOf w1 16 16 % 512 → v.gwEntries = [] → Completes (.dataRx t lane frame fcs) s (fun u => SMap.find u.lanes.streams m = some ⟨frameBytes frame 30 (bitsOf w1 0 11), bitsOf w2 0 8⟩ ∧ u.get (LANE_STR.AGE m) = min 255 ((laneHdr frame).age + behind) ∧ u.flag (LANE_STR.STALE m) = decide (bitsOf w2 0 8 < min 255 ((laneHdr frame).age + behind)) ∧ u.get (LANE_STR.LANE m) = lane ∧ u.get (LANE_RX_CNT lane) = (v.get (LANE_RX_CNT lane) + 1) % 2 ^ 32)) ∧
  (∀ (s : State) (t : Nat) (lane behind : Nat) (frame : List Byte) (fcs : Bool) (w0 : Nat) (v : State), v = s.at_ t → lane < 2 → v.laneTakes lane = true → (v.laneFormat lane frame fcs).2 = true → (laneHdr frame).kind = 3 → v.isDup lane (laneHdr frame) = false → (v.admitFrame lane (laneHdr frame) 4).2 = some behind → w0 = v.cadWord (v.get (LANE_STAT.BANK lane)) lane (laneHdr frame).slot 0 → bitOf w0 31 = true → v.copyTaken (512 + (laneHdr frame).sender) (entryTick (laneHdr frame) w0) = true → exec (.feedbackRx t lane frame fcs) s = .next (v)) ∧
  (∀ (s : State) (t : Nat) (lane behind : Nat) (frame : List Byte) (fcs : Bool) (w0 : Nat) (v : State), v = s.at_ t → lane < 2 → v.laneTakes lane = true → (v.laneFormat lane frame fcs).2 = true → (laneHdr frame).kind = 3 → v.isDup lane (laneHdr frame) = false → (v.admitFrame lane (laneHdr frame) 4).2 = some behind → w0 = v.cadWord (v.get (LANE_STAT.BANK lane)) lane (laneHdr frame).slot 0 → (bitOf w0 31 = false ∨ v.copyTaken (512 + (laneHdr frame).sender) (entryTick (laneHdr frame) w0) = false) → exec (.feedbackRx t lane frame fcs) s = .next ((let n := (laneHdr frame).sender; let a := (v.inc (LANE_RX_CNT lane)).takeCopy (512 + n) (entryTick (laneHdr frame) w0); let b := if 0 < behind ∨ a.lanes.boundary + 8 * a.get LANE_DOOR.FB_DL < a.localNow then a.inc (LANE_LATE_CNT lane) else a; let c := b.nodeRestart n (fieldBE frame 32 2); let d := { c with door := { c.door with nstat := SMap.set c.door.nstat n (fieldBE frame 31 1 % 4) } }; (List.range (min 8 (fieldBE frame 30 1))).foldl (fun s k => s.holdFeedback n (min 255 ((laneHdr frame).age + behind)) (frameBytes frame (34 + 16 * k) 16)) d))) ∧
  (∀ (s : State) (t : Nat) (lane behind : Nat) (frame : List Byte) (fcs : Bool) (w0 : Nat) (v : State), v = s.at_ t → lane < 2 → v.laneTakes lane = true → (v.laneFormat lane frame fcs).2 = true → (laneHdr frame).kind = 3 → v.isDup lane (laneHdr frame) = false → (v.admitFrame lane (laneHdr frame) 4).2 = some behind → w0 = v.cadWord (v.get (LANE_STAT.BANK lane)) lane (laneHdr frame).slot 0 → (bitOf w0 31 = false ∨ v.copyTaken (512 + (laneHdr frame).sender) (entryTick (laneHdr frame) w0) = false) → 0 < behind → Completes (.feedbackRx t lane frame fcs) s (fun u => u.get (LANE_RX_CNT lane) = (v.get (LANE_RX_CNT lane) + 1) % 2 ^ 32 ∧ u.get (LANE_LATE_CNT lane) = (v.get (LANE_LATE_CNT lane) + 1) % 2 ^ 32 ∧ SMap.find u.lanes.restart (laneHdr frame).sender = some (fieldBE frame 32 2) ∧ ∀ a, u.byte a = v.byte a)) ∧
  (∀ (s : State) (node age a : Nat) (r : List Byte), ((s.nodeAxes node).find? (fun a => s.get (AX_CFG.CH a) == fieldBE r 0 1 % 8) = some a) → SMap.find (s.holdFeedback node age r).door.fb a = some ⟨toSigned 32 (fieldBE r 4 4), fieldBE r 2 2, fieldBE r 1 1, toSigned 32 (fieldBE r 8 4), fieldBE r 12 1, age⟩ ∧ s.changesOnly (s.holdFeedback node age r) []) ∧
  (∀ (s : State) (node age : Nat) (r : List Byte), ((s.nodeAxes node).find? (fun a => s.get (AX_CFG.CH a) == fieldBE r 0 1 % 8) = none) → s.holdFeedback node age r = s) ∧
  (∀ (s : State) (m : Nat) (x : Stream), m < 512 → SMap.find s.lanes.streams m = some x → x.maxAge < s.get (LANE_STR.AGE m) → Completes (.streamAgeStale m) s (fun u => u.flag (LANE_STR.STALE m) = true ∧ s.changesOnly u [(LANE_STR.STALE m).addr])) ∧
  (∀ (s : State) (m : Nat), (512 ≤ m ∨ ∀ x ∈ SMap.find s.lanes.streams m, s.get (LANE_STR.AGE m) ≤ x.maxAge) → exec (.streamAgeStale m) s = .next (s))

/-- An announcement or CANCEL of the boot supervisor that holds the unlock of block 6 gives it up and is made; without it only REGG_DENY_CNT increments; by another initiator it traps. An announcement by the coordinator with a target 8 or more macrocycles ahead, of a cadence that the other bank of a lane holds or of an activation, is kept, clears REFUSED and is answered by the module itself; any other changes nothing. The answer shows PHASE 1, ACT, CID and M, unless that announcement is answered already. CANCEL by the coordinator of its announcement more than 3 ahead aborts, PHASE 3; any other changes nothing. Two macrocycles before M, and then only, the coordinator decides: COMMIT where it did not refuse and every node heard acknowledged on a lane, else abort; a refusal shows REFUSED. At tick 0 of M a committed cadence switches the banks that hold it and ends the mode change; a committed activation ends it and activates where acknowledged and held; else nothing changes. An entry of the tick and own sender whose offset has come, not sent yet, on a linked SYNCED lane, leaves, counted, with its content; a SYNC carries LANE and ends FREEWHEEL of LANE; an entry with no content sends nothing; an entry whose tick exceeds the express reserve is the fault expressReserve. Any other changes nothing. (R57, R248, R259, R262, R273, R278) -/
def Obligations.LaneModeChange : Prop :=
  (∀ (s : State) (t : Nat) (cid : BitVec 16) (v : State), v = s.at_ t → v.unlocked .boot 0x06 = true → exec (.announceCadence t .boot cid) s = .next ((v.dropUnlock .boot).announce 1 cid.toNat 0)) ∧
  (∀ (s : State) (t : Nat) (cid : BitVec 16) (v : State), v = s.at_ t → v.unlocked .boot 0x06 = false → exec (.announceCadence t .boot cid) s = .next (v.inc REGG_DENY_CNT)) ∧
  (∀ (s : State) (t : Nat) (who : Initiator) (cid : BitVec 16) (v : State), v = s.at_ t → v.acts who = true → who ≠ .boot → exec (.announceCadence t who cid) s = .next (v.trap who true LANE_MODE_CMD.CID.addr)) ∧
  (∀ (s : State) (t : Nat) (cid : BitVec 16) (v : State), v = s.at_ t → v.unlocked .boot 0x06 = true → exec (.announceActivate t .boot cid) s = .next ((v.dropUnlock .boot).announce 2 cid.toNat (v.table.slot v.otherSlot).orchId)) ∧
  (∀ (s : State) (t : Nat) (cid : BitVec 16) (v : State), v = s.at_ t → v.unlocked .boot 0x06 = false → exec (.announceActivate t .boot cid) s = .next (v.inc REGG_DENY_CNT)) ∧
  (∀ (s : State) (t : Nat) (who : Initiator) (cid : BitVec 16) (v : State), v = s.at_ t → v.acts who = true → who ≠ .boot → exec (.announceActivate t who cid) s = .next (v.trap who true LANE_MODE_CMD.CID.addr)) ∧
  (∀ (s : State) (t : Nat) (v : State), v = s.at_ t → v.unlocked .boot 0x06 = true → exec (.cancel t .boot) s = .next ((v.dropUnlock .boot).cancelAnnounce)) ∧
  (∀ (s : State) (t : Nat) (v : State), v = s.at_ t → v.unlocked .boot 0x06 = false → exec (.cancel t .boot) s = .next (v.inc REGG_DENY_CNT)) ∧
  (∀ (s : State) (t : Nat) (who : Initiator) (v : State), v = s.at_ t → v.acts who = true → who ≠ .boot → exec (.cancel t who) s = .next (v.trap who true LANE_MODE_CMD.CID.addr)) ∧
  (∀ (s : State) (op cid act : Nat), s.amCoord = true → 8 ≤ serialDiff 32 (s.get LANE_MODE_TGT.TGT) s.macro_ → (op ≠ 1 ∨ s.bankCid (1 - s.get (LANE_STAT.BANK 0)) = cid ∨ s.bankCid (1 - s.get (LANE_STAT.BANK 1)) = cid) → s.announce op cid act = (({ s with lanes := { s.lanes with mode := { s.lanes.mode with op := op, cid := cid, m := s.get LANE_MODE_TGT.TGT, actId := act } } }).putFlag LANE_MODE.REFUSED false).takeAnnounce op cid (s.get LANE_MODE_TGT.TGT) act) ∧
  (∀ (s : State) (op cid act : Nat), (s.amCoord = false ∨ serialDiff 32 (s.get LANE_MODE_TGT.TGT) s.macro_ < 8 ∨ (op = 1 ∧ s.bankCid (1 - s.get (LANE_STAT.BANK 0)) ≠ cid ∧ s.bankCid (1 - s.get (LANE_STAT.BANK 1)) ≠ cid)) → s.announce op cid act = s) ∧
  (∀ (s : State) (op cid m act : Nat), (s.lanes.mode.annM ≠ m ∨ s.lanes.mode.annCid ≠ cid ∨ s.lanes.mode.answer = 0) → op < 2 → m < 2 ^ 32 → cid < 2 ^ 16 → (s.takeAnnounce op cid m act).lanes.mode = { s.lanes.mode with answer := s.answerTo op cid act, annCid := cid, annM := m, annAct := 0, committed := false, aborted := false } ∧ (s.takeAnnounce op cid m act).get LANE_MODE.PHASE = 1 ∧ (s.takeAnnounce op cid m act).flag LANE_MODE.ACT = false ∧ (s.takeAnnounce op cid m act).get LANE_MODE.CID = cid ∧ (s.takeAnnounce op cid m act).get LANE_MODE_M.M = m ∧ s.changesOnly (s.takeAnnounce op cid m act) [LANE_MODE.PHASE.addr, LANE_MODE_M.M.addr]) ∧
  (∀ (s : State) (op cid m act : Nat), s.lanes.mode.annM = m → s.lanes.mode.annCid = cid → s.lanes.mode.answer ≠ 0 → s.takeAnnounce op cid m act = s) ∧
  (∀ (s : State), s.amCoord = true → (s.lanes.mode.op = 1 ∨ s.lanes.mode.op = 2) → 3 < serialDiff 32 s.lanes.mode.m s.macro_ → s.lanes.mode.annM = s.lanes.mode.m → s.lanes.mode.answer ≠ 0 → s.cancelAnnounce.lanes.mode.op = 4 ∧ s.cancelAnnounce.lanes.mode.aborted = true ∧ s.cancelAnnounce.get LANE_MODE.PHASE = 3) ∧
  (∀ (s : State), (s.amCoord = false ∨ (s.lanes.mode.op ≠ 1 ∧ s.lanes.mode.op ≠ 2) ∨ serialDiff 32 s.lanes.mode.m s.macro_ ≤ 3) → s.cancelAnnounce = s) ∧
  (∀ (s : State) (t : Nat) (v : State), v = s.at_ t → v.amCoord = true → (v.lanes.mode.op = 1 ∨ v.lanes.mode.op = 2) → serialDiff 32 v.lanes.mode.m v.macro_ = 2 → v.lanes.mode.answer ≠ 3 → (∀ p ∈ ((v.ln 0).heard ++ (v.ln 1).heard), p.2 = 1 ∨ ∃ q ∈ ((v.ln 0).heard ++ (v.ln 1).heard), q.1 = p.1 ∧ q.2 = 1) → exec (.modeChangeDecision t) s = .next ((let x := (if (v.lanes.mode.answer = 3 ∨ ∃ p ∈ ((v.ln 0).heard ++ (v.ln 1).heard), p.2 = 3) then v.putFlag LANE_MODE.REFUSED true else v).takeDecision 3 v.lanes.mode.m; { x with lanes := { x.lanes with mode := { x.lanes.mode with op := 3 } } }))) ∧
  (∀ (s : State) (t : Nat) (v : State), v = s.at_ t → v.amCoord = true → (v.lanes.mode.op = 1 ∨ v.lanes.mode.op = 2) → serialDiff 32 v.lanes.mode.m v.macro_ = 2 → (v.lanes.mode.answer = 3 ∨ ¬ (∀ p ∈ ((v.ln 0).heard ++ (v.ln 1).heard), p.2 = 1 ∨ ∃ q ∈ ((v.ln 0).heard ++ (v.ln 1).heard), q.1 = p.1 ∧ q.2 = 1)) → exec (.modeChangeDecision t) s = .next ((let x := (if (v.lanes.mode.answer = 3 ∨ ∃ p ∈ ((v.ln 0).heard ++ (v.ln 1).heard), p.2 = 3) then v.putFlag LANE_MODE.REFUSED true else v).takeDecision 4 v.lanes.mode.m; { x with lanes := { x.lanes with mode := { x.lanes.mode with op := 4 } } }))) ∧
  (∀ (s : State) (t : Nat) (v : State), v = s.at_ t → (v.amCoord = false ∨ (v.lanes.mode.op ≠ 1 ∧ v.lanes.mode.op ≠ 2) ∨ serialDiff 32 v.lanes.mode.m v.macro_ ≠ 2) → exec (.modeChangeDecision t) s = .next (v)) ∧
  (∀ (s : State) (t : Nat) (l b : Nat) (v : State), v = s.at_ t → v.lanes.mode.committed = true → v.macro_ = v.lanes.mode.annM → v.lanes.tick % 64 = 0 → v.flag LANE_MODE.ACT = false → l < 2 → b < 2 → v.bankOf l v.lanes.mode.annCid = some b → Completes (.bankSwitch t) s (fun u => u.get (LANE_STAT.BANK l) = b ∧ u.laneCid l = v.lanes.mode.annCid % 65536 ∧ u.get LANE_MODE.PHASE = 0 ∧ u.lanes.mode = ⟨0, 0, 0, 0, 0, 0, 0, 0, false, false⟩ ∧ ∀ a, u.byte a = v.byte a)) ∧
  (∀ (s : State) (t : Nat) (v : State), v = s.at_ t → v.lanes.mode.committed = true → v.macro_ = v.lanes.mode.annM → v.lanes.tick % 64 = 0 → v.flag LANE_MODE.ACT = true → (v.lanes.mode.answer = 2 ∧ v.holdsImage v.lanes.mode.annAct = true) → exec (.bankSwitch t) s = .next (v.endMode.activateAt v.endMode.claiming)) ∧
  (∀ (s : State) (t : Nat) (v : State), v = s.at_ t → v.lanes.mode.committed = true → v.macro_ = v.lanes.mode.annM → v.lanes.tick % 64 = 0 → v.flag LANE_MODE.ACT = true → (v.lanes.mode.answer ≠ 2 ∨ v.holdsImage v.lanes.mode.annAct = false) → exec (.bankSwitch t) s = .next (v.endMode.endLaneAct)) ∧
  (∀ (s : State) (t : Nat) (v : State), v = s.at_ t → (v.lanes.mode.committed = false ∨ v.macro_ ≠ v.lanes.mode.annM ∨ v.lanes.tick % 64 ≠ 0) → exec (.bankSwitch t) s = .next (v)) ∧
  (∀ (s : State) (t : Nat) (lane entry : Nat) (v : State), v = s.at_ t → v.laneSynced lane = true → v.linked lane ≠ 0 → bitsOf (v.cadWord (v.get (LANE_STAT.BANK lane)) lane entry 0) 0 6 = v.lanes.tick % 64 → v.mySender lane (bitsOf (v.cadWord (v.get (LANE_STAT.BANK lane)) lane entry 0) 19 8) = true → (bitsOf (v.cadWord (v.get (LANE_STAT.BANK lane)) lane entry 0) 28 3 = 1 ∨ ((v.ln lane).sends = true ∧ (v.ln lane).uncertain = false)) → 8 * bitsOf (v.cadWord (v.get (LANE_STAT.BANK lane)) lane entry 0) 6 13 ≤ v.laneNow % tickNs → entry ∉ (v.ln lane).sent → v.overReserve lane (bitsOf (v.cadWord (v.get (LANE_STAT.BANK lane)) lane entry 0) 0 6) = false → bitsOf (v.cadWord (v.get (LANE_STAT.BANK lane)) lane entry 0) 28 3 = 1 → exec (.scheduledFrameTx t lane entry) s = .next ((let x := (v.setLn lane { v.ln lane with sent := entry :: (v.ln lane).sent }).laneFwEnd; x.laneSend lane (bitsOf (x.cadWord (x.get (LANE_STAT.BANK lane)) lane entry 1) 16 16) (x.laneFrame lane false 0 entry 0 false (bitOf (v.cadWord (v.get (LANE_STAT.BANK lane)) lane entry 0) 27) (syncPayload (v.setLn lane { v.ln lane with sent := entry :: (v.ln lane).sent }).laneNow))))) ∧
  (∀ (s : State) (t : Nat) (lane entry : Nat) (x : State) (v : State), v = s.at_ t → v.laneSynced lane = true → v.linked lane ≠ 0 → bitsOf (v.cadWord (v.get (LANE_STAT.BANK lane)) lane entry 0) 0 6 = v.lanes.tick % 64 → v.mySender lane (bitsOf (v.cadWord (v.get (LANE_STAT.BANK lane)) lane entry 0) 19 8) = true → (bitsOf (v.cadWord (v.get (LANE_STAT.BANK lane)) lane entry 0) 28 3 = 1 ∨ ((v.ln lane).sends = true ∧ (v.ln lane).uncertain = false)) → 8 * bitsOf (v.cadWord (v.get (LANE_STAT.BANK lane)) lane entry 0) 6 13 ≤ v.laneNow % tickNs → entry ∉ (v.ln lane).sent → v.overReserve lane (bitsOf (v.cadWord (v.get (LANE_STAT.BANK lane)) lane entry 0) 0 6) = false → ((v.setLn lane { v.ln lane with sent := entry :: (v.ln lane).sent }).laneContent lane entry (bitsOf (v.cadWord (v.get (LANE_STAT.BANK lane)) lane entry 0) 28 3)).1 = none → x = ((v.setLn lane { v.ln lane with sent := entry :: (v.ln lane).sent }).laneContent lane entry (bitsOf (v.cadWord (v.get (LANE_STAT.BANK lane)) lane entry 0) 28 3)).2 → exec (.scheduledFrameTx t lane entry) s = .next (x)) ∧
  (∀ (s : State) (t : Nat) (lane entry k age : Nat) (stale : Bool) (data : List Byte) (x : State) (v : State), v = s.at_ t → v.laneSynced lane = true → v.linked lane ≠ 0 → bitsOf (v.cadWord (v.get (LANE_STAT.BANK lane)) lane entry 0) 0 6 = v.lanes.tick % 64 → v.mySender lane (bitsOf (v.cadWord (v.get (LANE_STAT.BANK lane)) lane entry 0) 19 8) = true → (bitsOf (v.cadWord (v.get (LANE_STAT.BANK lane)) lane entry 0) 28 3 = 1 ∨ ((v.ln lane).sends = true ∧ (v.ln lane).uncertain = false)) → 8 * bitsOf (v.cadWord (v.get (LANE_STAT.BANK lane)) lane entry 0) 6 13 ≤ v.laneNow % tickNs → entry ∉ (v.ln lane).sent → v.overReserve lane (bitsOf (v.cadWord (v.get (LANE_STAT.BANK lane)) lane entry 0) 0 6) = false → (v.setLn lane { v.ln lane with sent := entry :: (v.ln lane).sent }).laneContent lane entry (bitsOf (v.cadWord (v.get (LANE_STAT.BANK lane)) lane entry 0) 28 3) = (some (k, stale, age, data), x) → exec (.scheduledFrameTx t lane entry) s = .next (x.laneSend lane (bitsOf (x.cadWord (x.get (LANE_STAT.BANK lane)) lane entry 1) 16 16) (x.laneFrame lane false k entry age stale (bitOf (v.cadWord (v.get (LANE_STAT.BANK lane)) lane entry 0) 27) data))) ∧
  (∀ (s : State) (t : Nat) (lane entry : Nat) (v : State), v = s.at_ t → v.laneSynced lane = true → v.linked lane ≠ 0 → bitsOf (v.cadWord (v.get (LANE_STAT.BANK lane)) lane entry 0) 0 6 = v.lanes.tick % 64 → v.mySender lane (bitsOf (v.cadWord (v.get (LANE_STAT.BANK lane)) lane entry 0) 19 8) = true → (bitsOf (v.cadWord (v.get (LANE_STAT.BANK lane)) lane entry 0) 28 3 = 1 ∨ ((v.ln lane).sends = true ∧ (v.ln lane).uncertain = false)) → 8 * bitsOf (v.cadWord (v.get (LANE_STAT.BANK lane)) lane entry 0) 6 13 ≤ v.laneNow % tickNs → entry ∉ (v.ln lane).sent → v.overReserve lane (bitsOf (v.cadWord (v.get (LANE_STAT.BANK lane)) lane entry 0) 0 6) = true → exec (.scheduledFrameTx t lane entry) s = .fault .expressReserve) ∧
  (∀ (s : State) (t : Nat) (lane entry : Nat) (v : State), v = s.at_ t → (v.laneSynced lane = false ∨ v.linked lane = 0 ∨ bitsOf (v.cadWord (v.get (LANE_STAT.BANK lane)) lane entry 0) 0 6 ≠ v.lanes.tick % 64 ∨ v.mySender lane (bitsOf (v.cadWord (v.get (LANE_STAT.BANK lane)) lane entry 0) 19 8) = false ∨ (bitsOf (v.cadWord (v.get (LANE_STAT.BANK lane)) lane entry 0) 28 3 ≠ 1 ∧ ((v.ln lane).sends = false ∨ (v.ln lane).uncertain = true)) ∨ v.laneNow % tickNs < 8 * bitsOf (v.cadWord (v.get (LANE_STAT.BANK lane)) lane entry 0) 6 13 ∨ entry ∈ (v.ln lane).sent) → exec (.scheduledFrameTx t lane entry) s = .next (v))

/-- A gPTP Sync of the configured domain on the slave port, while frames run and the module is not grandmaster, shows the offset of CONSIST and the measured rate and starts anew from here: an offset larger than STEP_NS steps CONSIST to the grandmaster, counts, and places the publishers of CONSIST anew, a smaller one leaves it where it is and is slewed; either sets CONS_SYNC, ends FREEWHEEL and, with BRIDGE, is relayed on the master ports. An Announce of that domain, not of the own clock, on a linked port is kept and the grandmaster selected anew, and with BRIDGE relayed from the slave port, one step more. Where another clock is best and is not the one shown, it is shown and counted with its UTC offset, GM_SELF 0, no Sync of it known. The receipt timeout of the slave port drops its Announce, puts a synchronised CONSIST into FREEWHEEL, its hold 0, counted, and selects anew. A holdover beyond TIME_HOLD_MAX ends synchronisation and FREEWHEEL. A selected event that happens now is stamped, to 4 ns and less its own delay, with its quality, in the base of its capture while fewer than 8 stamps wait; a further one only counts as overflow. Selected are: the filtered edge of a plain input, a lane tick, a macrocycle, a SYNC taken on lane A or B, the edge of a trip output, a live trip source. Otherwise these commands change nothing. (R283, R284, R294, R295, R296) -/
def Obligations.ConsistTime : Prop :=
  (∀ (s : State) (t : Nat) (port : Nat) (domain : BitVec 8) (gm : Nat) (y : State) (v : State), v = s.at_ t → v.ringsOn = true → domain.toNat = v.get TIME_PTP.DOMAIN → port < 2 → v.get (ECN_STAT.PTP_ROLE port) = 2 → v.flag TIME_STAT.GM_SELF = false → v.get TIME_CTRL.STEP_NS < ((v.consNow : Int) - gm).natAbs → (y = (((({ (((v.putS TIME_CONS_OFS.OFS (clampInt (-2147483648) 2147483647 ((v.consNow : Int) - gm))).inc TIME_CONS_STEP_CNT).putS TIME_CONS_RATE.RATE (match v.time.ptp with | some p => ptpRate p.1 p.2 v.localNow gm | none => 0)) with time := { v.time with consRef := v.localNow, consVal := (gm : Int), consEver := true, slew := 0, ptp := some (v.localNow, (gm : Int)) } } : State).putIf TIME_STAT.CONS_FW 0).putIf TIME_CONS_HOLD.HOLD 0).putIf TIME_STAT.CONS_SYNC 1).showTime.pdRestart) → exec (.ptpSyncRx t port domain gm) s = .next (if y.flag ECN_CTRL.BRIDGE = true then (y.masterPorts.foldl (fun s p => s.gptpSync p gm) y).ptpNext else y)) ∧
  (∀ (s : State) (t : Nat) (port : Nat) (domain : BitVec 8) (gm : Nat) (y : State) (v : State), v = s.at_ t → v.ringsOn = true → domain.toNat = v.get TIME_PTP.DOMAIN → port < 2 → v.get (ECN_STAT.PTP_ROLE port) = 2 → v.flag TIME_STAT.GM_SELF = false → ((v.consNow : Int) - gm).natAbs ≤ v.get TIME_CTRL.STEP_NS → (y = (((({ (((v.putS TIME_CONS_OFS.OFS (clampInt (-2147483648) 2147483647 ((v.consNow : Int) - gm)))).putS TIME_CONS_RATE.RATE (match v.time.ptp with | some p => ptpRate p.1 p.2 v.localNow gm | none => 0)) with time := { v.time with consRef := v.localNow, consVal := (v.consNow : Int), consEver := true, slew := (gm : Int) - v.consNow, ptp := some (v.localNow, (gm : Int)) } } : State).putIf TIME_STAT.CONS_FW 0).putIf TIME_CONS_HOLD.HOLD 0).putIf TIME_STAT.CONS_SYNC 1).showTime) → exec (.ptpSyncRx t port domain gm) s = .next (if y.flag ECN_CTRL.BRIDGE = true then (y.masterPorts.foldl (fun s p => s.gptpSync p gm) y).ptpNext else y)) ∧
  (∀ (s : State) (t : Nat) (port : Nat) (domain : BitVec 8) (gm : Nat) (v : State), v = s.at_ t → v.ringsOn = true → domain.toNat = v.get TIME_PTP.DOMAIN → port < 2 → v.get (ECN_STAT.PTP_ROLE port) = 2 → v.flag TIME_STAT.GM_SELF = false → v.flag ECN_CTRL.BRIDGE = false → v.get TIME_CTRL.STEP_NS < ((v.consNow : Int) - gm).natAbs → Completes (.ptpSyncRx t port domain gm) s (fun u => u.consNow = gm ∧ u.flag TIME_STAT.CONS_SYNC = true ∧ u.flag TIME_STAT.CONS_FW = false ∧ u.get TIME_CONS_STEP_CNT = (v.get TIME_CONS_STEP_CNT + 1) % 2 ^ 32 ∧ u.time.consEver = true ∧ ∀ a, u.byte a = v.byte a)) ∧
  (∀ (s : State) (t : Nat) (port : Nat) (domain : BitVec 8) (gm : Nat) (v : State), v = s.at_ t → v.ringsOn = true → domain.toNat = v.get TIME_PTP.DOMAIN → port < 2 → v.get (ECN_STAT.PTP_ROLE port) = 2 → v.flag TIME_STAT.GM_SELF = false → v.flag ECN_CTRL.BRIDGE = false → ((v.consNow : Int) - gm).natAbs ≤ v.get TIME_CTRL.STEP_NS → Completes (.ptpSyncRx t port domain gm) s (fun u => u.consNow = v.consNow ∧ u.time.slew = (gm : Int) - v.consNow ∧ u.getS TIME_CONS_OFS.OFS = clampInt (-2147483648) 2147483647 ((v.consNow : Int) - gm) ∧ u.flag TIME_STAT.CONS_SYNC = true ∧ u.get TIME_CONS_STEP_CNT = v.get TIME_CONS_STEP_CNT ∧ ∀ a, u.byte a = v.byte a)) ∧
  (∀ (s : State) (t : Nat) (port : Nat) (domain : BitVec 8) (gm : Nat) (v : State), v = s.at_ t → (v.ringsOn = false ∨ domain.toNat ≠ v.get TIME_PTP.DOMAIN ∨ 2 ≤ port ∨ v.get (ECN_STAT.PTP_ROLE port) ≠ 2 ∨ v.flag TIME_STAT.GM_SELF = true) → exec (.ptpSyncRx t port domain gm) s = .next (v)) ∧
  (∀ (s : State) (t : Nat) (port : Nat) (ann : PtpAnnounce) (v : State), v = s.at_ t → v.ringsOn = true → ann.domain.toNat = v.get TIME_PTP.DOMAIN → port < 2 → v.flag (ECN_STAT.LINK port) = true → ann.gm.toNat ≠ v.clockId → ({ v with time := { v.time with anns := SMap.set v.time.anns port ann } } : State).selectGm.flag ECN_CTRL.BRIDGE = true → ({ v with time := { v.time with anns := SMap.set v.time.anns port ann } } : State).selectGm.get (ECN_STAT.PTP_ROLE port) = 2 → exec (.ptpAnnounceRx t port ann) s = .next ((let y := ({ v with time := { v.time with anns := SMap.set v.time.anns port ann } } : State).selectGm; (y.masterPorts.foldl (fun s p => s.gptpAnnounce p { ann with steps := ann.steps + 1 }) y).ptpNext))) ∧
  (∀ (s : State) (t : Nat) (port : Nat) (ann : PtpAnnounce) (v : State), v = s.at_ t → v.ringsOn = true → ann.domain.toNat = v.get TIME_PTP.DOMAIN → port < 2 → v.flag (ECN_STAT.LINK port) = true → ann.gm.toNat ≠ v.clockId → (({ v with time := { v.time with anns := SMap.set v.time.anns port ann } } : State).selectGm.flag ECN_CTRL.BRIDGE = false ∨ ({ v with time := { v.time with anns := SMap.set v.time.anns port ann } } : State).selectGm.get (ECN_STAT.PTP_ROLE port) ≠ 2) → exec (.ptpAnnounceRx t port ann) s = .next (({ v with time := { v.time with anns := SMap.set v.time.anns port ann } } : State).selectGm)) ∧
  (∀ (s : State) (t : Nat) (port : Nat) (ann : PtpAnnounce) (p : Nat) (a : PtpAnnounce) (v : State), v = s.at_ t → v.ringsOn = true → ann.domain.toNat = v.get TIME_PTP.DOMAIN → port < 2 → v.flag (ECN_STAT.LINK port) = true → ann.gm.toNat ≠ v.clockId → v.flag ECN_CTRL.BRIDGE = false → v.flag TIME_PTP.EXT = true → ({ v with time := { v.time with anns := SMap.set v.time.anns port ann } } : State).ownBest = false → ({ v with time := { v.time with anns := SMap.set v.time.anns port ann } } : State).bestAnnounce = some (p, a) → v.get TIME_GM_ID.ID ≠ a.gm.toNat → Completes (.ptpAnnounceRx t port ann) s (fun u => u.get TIME_GM_ID.ID = a.gm.toNat ∧ u.get TIME_GM_CHG_CNT = (v.get TIME_GM_CHG_CNT + 1) % 2 ^ 32 ∧ u.get TIME_UTC_OFS.UTC = a.utc.toNat ∧ u.flag TIME_UTC_OFS.VALID = a.flags.getLsbD 2 ∧ u.get TIME_STAT.GM_SELF = 0 ∧ u.time.ptp = none ∧ ∀ a, u.byte a = v.byte a)) ∧
  (∀ (s : State) (t : Nat) (port : Nat) (ann : PtpAnnounce) (v : State), v = s.at_ t → (v.ringsOn = false ∨ ann.domain.toNat ≠ v.get TIME_PTP.DOMAIN ∨ 2 ≤ port ∨ v.flag (ECN_STAT.LINK port) = false ∨ ann.gm.toNat = v.clockId) → exec (.ptpAnnounceRx t port ann) s = .next (v)) ∧
  (∀ (s : State) (t : Nat) (port : Nat) (v : State), v = s.at_ t → v.get (ECN_STAT.PTP_ROLE port) = 2 → exec (.ptpReceiptTimeout t port) s = .next ((({ v with time := { v.time with anns := SMap.erase v.time.anns port } } : State).consFreewheel).selectGm)) ∧
  (∀ (s : State) (t : Nat) (port : Nat) (v : State), v = s.at_ t → v.get (ECN_STAT.PTP_ROLE port) ≠ 2 → exec (.ptpReceiptTimeout t port) s = .next (v)) ∧
  (∀ (s : State), s.flag TIME_STAT.CONS_SYNC = true → s.flag TIME_STAT.CONS_FW = false → s.consFreewheel.flag TIME_STAT.CONS_FW = true ∧ s.consFreewheel.flag TIME_STAT.CONS_SYNC = true ∧ s.consFreewheel.get TIME_CONS_HOLD.HOLD = 0 ∧ s.consFreewheel.get TIME_CONS_FW_CNT = (s.get TIME_CONS_FW_CNT + 1) % 2 ^ 32 ∧ s.changesOnly s.consFreewheel [TIME_STAT.CONS_FW.addr, TIME_CONS_HOLD.HOLD.addr, TIME_CONS_FW_CNT.addr]) ∧
  (∀ (s : State) (t : Nat) (v : State), v = s.at_ t → v.flag TIME_STAT.CONS_FW = true → v.get TIME_HOLD_MAX.TICKS < v.get TIME_CONS_HOLD.HOLD → Completes (.consistHoldoverExpiry t) s (fun u => u.get TIME_STAT.CONS_FW = 0 ∧ u.get TIME_STAT.CONS_SYNC = 0 ∧ u.get TIME_CONS_HOLD.HOLD = 0 ∧ v.changesOnly u [TIME_STAT.CONS_FW.addr, TIME_CONS_HOLD.HOLD.addr])) ∧
  (∀ (s : State) (t : Nat) (v : State), v = s.at_ t → (v.flag TIME_STAT.CONS_FW = false ∨ v.get TIME_CONS_HOLD.HOLD ≤ v.get TIME_HOLD_MAX.TICKS) → exec (.consistHoldoverExpiry t) s = .next (v)) ∧
  (∀ (s : State) (t : Nat) (n back : Nat) (v : State), v = s.at_ t → n < 16 → v.captureEvent n = some back → v.get (TIME_CAP_CFG.TBASE n) = 0 → (SMap.getD v.time.caps n []).length < 8 → Completes (.captureEdge t n) s (fun u => SMap.getD u.time.caps n [] = SMap.getD v.time.caps n [] ++ [((v.localNow - back) / 4 * 4 % 2 ^ 62)] ∧ u.get (TIME_CAP_STAT.LEVEL n) = (SMap.getD v.time.caps n []).length + 1 ∧ v.changesOnly u [(TIME_CAP_STAT.LEVEL n).addr])) ∧
  (∀ (s : State) (t : Nat) (n back : Nat) (v : State), v = s.at_ t → n < 16 → v.captureEvent n = some back → v.get (TIME_CAP_CFG.TBASE n) = 1 → (SMap.getD v.time.caps n []).length < 8 → Completes (.captureEdge t n) s (fun u => SMap.getD u.time.caps n [] = SMap.getD v.time.caps n [] ++ [(v.stampQuality 1 * 2 ^ 62 + (v.laneNow - back) / 4 * 4 % 2 ^ 62)] ∧ u.get (TIME_CAP_STAT.LEVEL n) = (SMap.getD v.time.caps n []).length + 1 ∧ v.changesOnly u [(TIME_CAP_STAT.LEVEL n).addr])) ∧
  (∀ (s : State) (t : Nat) (n back : Nat) (v : State), v = s.at_ t → n < 16 → v.captureEvent n = some back → v.get (TIME_CAP_CFG.TBASE n) = 2 → (SMap.getD v.time.caps n []).length < 8 → Completes (.captureEdge t n) s (fun u => SMap.getD u.time.caps n [] = SMap.getD v.time.caps n [] ++ [(v.stampQuality 2 * 2 ^ 62 + (v.consNow - back) / 4 * 4 % 2 ^ 62)] ∧ u.get (TIME_CAP_STAT.LEVEL n) = (SMap.getD v.time.caps n []).length + 1 ∧ v.changesOnly u [(TIME_CAP_STAT.LEVEL n).addr])) ∧
  (∀ (s : State) (t : Nat) (n back : Nat) (v : State), v = s.at_ t → n < 16 → v.captureEvent n = some back → 8 ≤ (SMap.getD v.time.caps n []).length → Completes (.captureEdge t n) s (fun u => u.time = v.time ∧ u.get TIME_CAP_OVF_CNT = (v.get TIME_CAP_OVF_CNT + 1) % 2 ^ 32 ∧ v.changesOnly u [TIME_CAP_OVF_CNT.addr])) ∧
  (∀ (s : State) (t : Nat) (n : Nat) (v : State), v = s.at_ t → (16 ≤ n ∨ v.captureEvent n = none) → exec (.captureEdge t n) s = .next (v)) ∧
  (∀ (s : State) (n : Nat), s.get (TIME_CAP_CFG.KIND n) = 1 → s.captureEvent n = if s.get (TIME_CAP_CFG.INDEX n) < 64 ∧ s.pers (s.get (TIME_CAP_CFG.INDEX n)) = 0 ∧ SMap.find s.time.events (s.get (TIME_CAP_CFG.INDEX n)) = some s.localNow ∧ (2 ≤ s.get (TIME_CAP_CFG.EDGE n) || (s.get (TIME_CAP_CFG.EDGE n) == 0) == s.bit DIO.STATE (s.get (TIME_CAP_CFG.INDEX n))) = true then some (s.filterNs (s.get (TIME_CAP_CFG.INDEX n)) + pipelineNs) else none) ∧
  (∀ (s : State) (n : Nat), s.get (TIME_CAP_CFG.KIND n) = 2 → s.get (TIME_CAP_CFG.INDEX n) = 0 → s.captureEvent n = if s.lanes.boundary = s.localNow then some 0 else none) ∧
  (∀ (s : State) (n : Nat), s.get (TIME_CAP_CFG.KIND n) = 2 → s.get (TIME_CAP_CFG.INDEX n) = 1 → s.captureEvent n = if s.lanes.boundary = s.localNow ∧ s.lanes.tick % macroTicks = 0 then some 0 else none) ∧
  (∀ (s : State) (n : Nat), s.get (TIME_CAP_CFG.KIND n) = 2 → s.get (TIME_CAP_CFG.INDEX n) = 2 → s.captureEvent n = if SMap.find s.time.events (2048) = some s.localNow then some 0 else none) ∧
  (∀ (s : State) (n : Nat), s.get (TIME_CAP_CFG.KIND n) = 2 → s.get (TIME_CAP_CFG.INDEX n) = 3 → s.captureEvent n = if SMap.find s.time.events (2049) = some s.localNow then some 0 else none) ∧
  (∀ (s : State) (n : Nat), s.get (TIME_CAP_CFG.KIND n) = 3 → s.captureEvent n = if s.get (TIME_CAP_CFG.INDEX n) < 512 ∧ SMap.find s.time.events (64 + s.get (TIME_CAP_CFG.INDEX n)) = some s.localNow ∧ (2 ≤ s.get (TIME_CAP_CFG.EDGE n) || (s.get (TIME_CAP_CFG.EDGE n) == 0) == s.tripOut (s.get (TIME_CAP_CFG.INDEX n))) = true then some 0 else none) ∧
  (∀ (s : State) (n : Nat), s.get (TIME_CAP_CFG.KIND n) = 4 → s.captureEvent n = if s.get (TIME_CAP_CFG.INDEX n) < 32 ∧ SMap.find s.time.events (1024 + s.get (TIME_CAP_CFG.INDEX n)) = some s.localNow then some 0 else none)

/-- A link up at an enabled port with a reference shows LINK, SPEED and gPTP state, under EXT its role, selects the grandmaster anew and reports its groups; any other link change shows 0 in each and forgets frame in transmission and Announce, a slave port freewheeling and selecting anew. On a linked port a frame with a bad FCS only counts; a good one counts; too long or of no VLAN with ING_FILT it counts as dropped; else a source that is no group is learned, 1024 at most, a query answered; while frames run, a gPTP frame goes no further but for the answer to a Pdelay request, and another is bridged, unless reserved or BRIDGE is 0, and put into the receive ring if it is for the module itself (a group, its own or no known address) and not process data that the engine takes. A frame goes to the linked port that learned its address, else to every linked port but its own. A source not heard for 300 s is forgotten. A permitted TAIL write is taken and the engine runs its ring. The first frame that may go from a queue is dropped and counted late if unsynchronised, or late with LATE 0; else it waits while the link is down, another is in transmission, its launch is to come or a higher queue may send; else it leaves. A publisher sends at its instant, or counts a skip with CONSIST unsynchronised; sending steps its sequence. A pull request does so for each publisher of that ComID. A subscriber that listens takes a telegram that fits, and shows it; any other counts as rejected. After CYCLE ticks without one its state is 3, counted. Otherwise nothing changes. (R285, R286, R287, R288, R289, R290, R291, R292, R293) -/
def Obligations.ConsistEthernet : Prop :=
  (∀ (s : State) (t : Nat) (port speed role : Nat) (as_ : Bool) (x : State) (v : State), v = s.at_ t → (speed = 1 ∨ speed = 2) → v.ecnMay port = true → (x = if v.flag TIME_PTP.EXT = true then (((v.putFlag (ECN_STAT.LINK port) true).put (ECN_STAT.SPEED port) speed).putFlag (ECN_STAT.AS_CAPABLE port) as_).put (ECN_STAT.PTP_ROLE port) role else ((v.putFlag (ECN_STAT.LINK port) true).put (ECN_STAT.SPEED port) speed).putFlag (ECN_STAT.AS_CAPABLE port) as_) → exec (.ecnLinkChange t port speed as_ role) s = .next ((if x.ringsOn = true then x.selectGm else x).igmpReports port)) ∧
  (∀ (s : State) (t : Nat) (port speed role : Nat) (as_ : Bool) (v : State), v = s.at_ t → port < 2 → role < 4 → (speed = 1 ∨ speed = 2) → v.ecnMay port = true → v.flag TIME_PTP.EXT = true → v.ringsOn = false → v.flag ECN_CTRL.PD_EN = false → Completes (.ecnLinkChange t port speed as_ role) s (fun u => u.flag (ECN_STAT.LINK port) = true ∧ u.get (ECN_STAT.SPEED port) = speed ∧ u.flag (ECN_STAT.AS_CAPABLE port) = as_ ∧ u.get (ECN_STAT.PTP_ROLE port) = role ∧ v.changesOnly u [(ECN_STAT.LINK port).addr])) ∧
  (∀ (s : State) (t : Nat) (port speed role : Nat) (as_ : Bool) (v : State), v = s.at_ t → (speed = 0 ∨ 2 < speed ∨ v.ecnMay port = false) → exec (.ecnLinkChange t port speed as_ role) s = .next (v.ecnDown port)) ∧
  (∀ (s : State) (t : Nat) (port speed role : Nat) (as_ : Bool) (v : State), v = s.at_ t → port < 2 → (speed = 0 ∨ 2 < speed ∨ v.ecnMay port = false) → v.get (ECN_STAT.PTP_ROLE port) ≠ 2 → Completes (.ecnLinkChange t port speed as_ role) s (fun u => u.get (ECN_STAT.LINK port) = 0 ∧ u.get (ECN_STAT.SPEED port) = 0 ∧ u.get (ECN_STAT.AS_CAPABLE port) = 0 ∧ u.get (ECN_STAT.PTP_ROLE port) = 0 ∧ SMap.find u.time.anns port = none ∧ v.changesOnly u [(ECN_STAT.LINK port).addr])) ∧
  (∀ (s : State) (t : Nat) (port : Nat) (frame : List Byte) (fcs : Bool) (v : State), v = s.at_ t → v.flag (ECN_STAT.LINK port) = false → exec (.ecnFrameRx t port frame fcs) s = .next (v)) ∧
  (∀ (s : State) (t : Nat) (port : Nat) (frame : List Byte) (v : State), v = s.at_ t → port < 2 → v.flag (ECN_STAT.LINK port) = true → Completes (.ecnFrameRx t port frame false) s (fun u => u.get (ecnFcs port) = (v.get (ecnFcs port) + 1) % 2 ^ 32 ∧ u.ecn = v.ecn ∧ v.changesOnly u [(ecnFcs port).addr])) ∧
  (∀ (s : State) (t : Nat) (port : Nat) (frame : List Byte) (x : State) (v : State), v = s.at_ t → v.flag (ECN_STAT.LINK port) = true → x = v.inc (ecnRx port) → (1518 < frame.length ∨ (x.flag ECN_CFG.ING_FILT = true ∧ (x.ecnVlan frame).1 ∉ x.ecn.vlans)) → exec (.ecnFrameRx t port frame true) s = .next (x.inc ECN_DROP_CNT)) ∧
  (∀ (s : State) (t : Nat) (port : Nat) (frame : List Byte) (x y z : State) (v : State), v = s.at_ t → v.flag (ECN_STAT.LINK port) = true → x = v.inc (ecnRx port) → (frame.length ≤ 1518 ∧ (x.flag ECN_CFG.ING_FILT = false ∨ (x.ecnVlan frame).1 ∈ x.ecn.vlans)) → (y = if macAt frame 6 / 2 ^ 40 % 2 = 0 ∧ ((SMap.find x.ecn.macs (macAt frame 6)).isSome = true ∨ x.ecn.macs.length < 1024) then { x with ecn := { x.ecn with macs := SMap.set x.ecn.macs (macAt frame 6) (port, x.localNow) } } else x) → (z = if igmpQuery frame = true then y.igmpReports port else y) → z.ringsOn = false → exec (.ecnFrameRx t port frame true) s = .next (z)) ∧
  (∀ (s : State) (t : Nat) (port : Nat) (frame : List Byte) (x y z : State) (v : State), v = s.at_ t → v.flag (ECN_STAT.LINK port) = true → x = v.inc (ecnRx port) → (frame.length ≤ 1518 ∧ (x.flag ECN_CFG.ING_FILT = false ∨ (x.ecnVlan frame).1 ∈ x.ecn.vlans)) → (y = if macAt frame 6 / 2 ^ 40 % 2 = 0 ∧ ((SMap.find x.ecn.macs (macAt frame 6)).isSome = true ∨ x.ecn.macs.length < 1024) then { x with ecn := { x.ecn with macs := SMap.set x.ecn.macs (macAt frame 6) (port, x.localNow) } } else x) → (z = if igmpQuery frame = true then y.igmpReports port else y) → z.ringsOn = true → etherType frame = 0x88F7 → exec (.ecnFrameRx t port frame true) s = .next (if z.isPdelayReq frame = true then z.pdelayAnswer port frame else z)) ∧
  (∀ (s : State) (t : Nat) (port : Nat) (frame : List Byte) (x y z w : State) (v : State), v = s.at_ t → v.flag (ECN_STAT.LINK port) = true → x = v.inc (ecnRx port) → (frame.length ≤ 1518 ∧ (x.flag ECN_CFG.ING_FILT = false ∨ (x.ecnVlan frame).1 ∈ x.ecn.vlans)) → (y = if macAt frame 6 / 2 ^ 40 % 2 = 0 ∧ ((SMap.find x.ecn.macs (macAt frame 6)).isSome = true ∨ x.ecn.macs.length < 1024) then { x with ecn := { x.ecn with macs := SMap.set x.ecn.macs (macAt frame 6) (port, x.localNow) } } else x) → (z = if igmpQuery frame = true then y.igmpReports port else y) → z.ringsOn = true → etherType frame ≠ 0x88F7 → (w = if z.flag ECN_CTRL.BRIDGE = true ∧ ¬ (0x0180C2000000 ≤ macAt frame 0 ∧ macAt frame 0 ≤ 0x0180C200000F) then z.enqueue (z.ecnRoute (macAt frame 0) (some port)) (x.ecnVlan frame).2 ⟨frame, none, none, false, false, none⟩ else z) → (w.ecnInside (macAt frame 0) = true ∧ w.pdConsumes frame = false) → exec (.ecnFrameRx t port frame true) s = .next (w.ringReceive port frame)) ∧
  (∀ (s : State) (t : Nat) (port : Nat) (frame : List Byte) (x y z w : State) (v : State), v = s.at_ t → v.flag (ECN_STAT.LINK port) = true → x = v.inc (ecnRx port) → (frame.length ≤ 1518 ∧ (x.flag ECN_CFG.ING_FILT = false ∨ (x.ecnVlan frame).1 ∈ x.ecn.vlans)) → (y = if macAt frame 6 / 2 ^ 40 % 2 = 0 ∧ ((SMap.find x.ecn.macs (macAt frame 6)).isSome = true ∨ x.ecn.macs.length < 1024) then { x with ecn := { x.ecn with macs := SMap.set x.ecn.macs (macAt frame 6) (port, x.localNow) } } else x) → (z = if igmpQuery frame = true then y.igmpReports port else y) → z.ringsOn = true → etherType frame ≠ 0x88F7 → (w = if z.flag ECN_CTRL.BRIDGE = true ∧ ¬ (0x0180C2000000 ≤ macAt frame 0 ∧ macAt frame 0 ≤ 0x0180C200000F) then z.enqueue (z.ecnRoute (macAt frame 0) (some port)) (x.ecnVlan frame).2 ⟨frame, none, none, false, false, none⟩ else z) → (w.ecnInside (macAt frame 0) = false ∨ w.pdConsumes frame = true) → exec (.ecnFrameRx t port frame true) s = .next (w)) ∧
  (∀ (s : State) (dst : Nat), s.ecnInside dst = true ↔ (dst / 2 ^ 40 % 2 = 1 ∨ ∀ x ∈ SMap.find s.ecn.macs dst, x.1 = 2)) ∧
  (∀ (s : State) (dst : Nat) (from_ : Option Nat) (p : Nat), p ∈ s.ecnRoute dst from_ ↔ p < 2 ∧ some p ≠ from_ ∧ s.flag (ECN_STAT.LINK p) = true ∧ ∀ x ∈ SMap.find s.ecn.macs dst, x.1 = p) ∧
  (∀ (s : State) (t : Nat) (port : Nat) (frame : List Byte) (v : State), v = s.at_ t → port < 2 → v.flag (ECN_STAT.LINK port) = true → frame.length ≤ 1518 → v.flag ECN_CFG.ING_FILT = false → v.ecn.macs.length < 1024 → macAt frame 6 / 2 ^ 40 % 2 = 0 → v.ringsOn = false → igmpQuery frame = false → Completes (.ecnFrameRx t port frame true) s (fun u => SMap.find u.ecn.macs (macAt frame 6) = some (port, v.localNow) ∧ u.get (ecnRx port) = (v.get (ecnRx port) + 1) % 2 ^ 32 ∧ v.changesOnly u [(ecnRx port).addr])) ∧
  (∀ (s : State) (t : Nat) (mac p x : Nat) (v : State), v = s.at_ t → SMap.find v.ecn.macs mac = some (p, x) → x + 300000000000 ≤ v.localNow → exec (.macEntryAgeing t mac) s = .next ({ v with ecn := { v.ecn with macs := SMap.erase v.ecn.macs mac } })) ∧
  (∀ (s : State) (t : Nat) (mac : Nat) (v : State), v = s.at_ t → (∀ x ∈ SMap.find v.ecn.macs mac, v.localNow < x.2 + 300000000000) → exec (.macEntryAgeing t mac) s = .next (v)) ∧
  (∀ (s : State) (t : Nat) (who : Initiator) (ring tail : Nat) (v : State), v = s.at_ t → v.acts who = true → mayWrite who (blockOf (ECN_RING.TAIL ring).addr) = true → exec (.ecnTailWrite t who ring tail) s = .next ((let x := (v.consume who (blockOf (ECN_RING.TAIL ring).addr)).put (ECN_RING.TAIL ring) tail; if ring < 8 then x.ringRun ring else x))) ∧
  (∀ (s : State) (t : Nat) (who : Initiator) (tail : Nat) (v : State), v = s.at_ t → v.acts who = true → tail < 4096 → mayWrite who (blockOf (ECN_RING.TAIL 8).addr) = true → v.unlocked who (blockOf (ECN_RING.TAIL 8).addr) = false → Completes (.ecnTailWrite t who 8 tail) s (fun u => u.get (ECN_RING.TAIL 8) = tail ∧ u.ecn = v.ecn ∧ v.changesOnly u [(ECN_RING.TAIL 8).addr])) ∧
  (∀ (s : State) (t : Nat) (port q : Nat) (v : State), v = s.at_ t → v.goQueue port q = [] → exec (.ecnLaunch t port q) s = .next (v)) ∧
  (∀ (s : State) (t : Nat) (port q : Nat) (f : EFrame) (l : List EFrame) (v : State), v = s.at_ t → v.goQueue port q = f :: l → ((f.launch ≠ none ∧ v.get (ECN_QCFG.TBASE q) = 1 ∧ v.flag TIME_STAT.CONS_SYNC = false)) → exec (.ecnLaunch t port q) s = .next (((v.setQueue port q ((v.ecnQueue port q).erase f)).inc ECN_LATE_CNT).ringDone q f.desc true)) ∧
  (∀ (s : State) (t : Nat) (port q : Nat) (f : EFrame) (l : List EFrame) (a : Nat) (v : State), v = s.at_ t → v.goQueue port q = f :: l → f.launch = some a → a + 1000 * v.get (ECN_QCFG.TOL q) < f.atHead.getD (v.queueNow q) → v.flag (ECN_QCFG.LATE q) = false → exec (.ecnLaunch t port q) s = .next (((v.setQueue port q ((v.ecnQueue port q).erase f)).inc ECN_LATE_CNT).ringDone q f.desc true)) ∧
  (∀ (s : State) (t : Nat) (port q : Nat) (f : EFrame) (l : List EFrame) (v : State), v = s.at_ t → v.goQueue port q = f :: l → (f.launch = none ∨ v.get (ECN_QCFG.TBASE q) ≠ 1 ∨ v.flag TIME_STAT.CONS_SYNC = true) → ((∀ a ∈ f.launch, f.atHead.getD (v.queueNow q) ≤ a + 1000 * v.get (ECN_QCFG.TOL q))) → (v.flag (ECN_STAT.LINK port) = false ∨ v.localNow < SMap.getD v.ecn.busy port 0 ∨ v.eligible port q = false ∨ ∃ k, k < 8 ∧ q < k ∧ v.eligible port k = true) → exec (.ecnLaunch t port q) s = .next (v)) ∧
  (∀ (s : State) (t : Nat) (port q : Nat) (f : EFrame) (l : List EFrame) (v : State), v = s.at_ t → v.goQueue port q = f :: l → (f.launch = none ∨ v.get (ECN_QCFG.TBASE q) ≠ 1 ∨ v.flag TIME_STAT.CONS_SYNC = true) → ((∀ a ∈ f.launch, f.atHead.getD (v.queueNow q) ≤ a + 1000 * v.get (ECN_QCFG.TOL q))) → v.flag (ECN_STAT.LINK port) = true → SMap.getD v.ecn.busy port 0 ≤ v.localNow → v.eligible port q = true → (∀ k, k < 8 → q < k → v.eligible port k = false) → exec (.ecnLaunch t port q) s = .next (((v.setQueue port q ((v.ecnQueue port q).erase f)).ecnSend port f.bytes f.forced).ringDone q f.desc false)) ∧
  (∀ (s : State) (t : Nat) (port q : Nat) (f : EFrame) (l : List EFrame) (a : Nat) (v : State), v = s.at_ t → v.goQueue port q = f :: l → (f.launch = none ∨ v.get (ECN_QCFG.TBASE q) ≠ 1 ∨ v.flag TIME_STAT.CONS_SYNC = true) → f.launch = some a → a + 1000 * v.get (ECN_QCFG.TOL q) < f.atHead.getD (v.queueNow q) → v.flag (ECN_QCFG.LATE q) = true → (v.flag (ECN_STAT.LINK port) = false ∨ v.localNow < SMap.getD v.ecn.busy port 0 ∨ v.eligible port q = false ∨ ∃ k, k < 8 ∧ q < k ∧ v.eligible port k = true) → exec (.ecnLaunch t port q) s = .next (v)) ∧
  (∀ (s : State) (t : Nat) (port q : Nat) (f : EFrame) (l : List EFrame) (a : Nat) (v : State), v = s.at_ t → v.goQueue port q = f :: l → (f.launch = none ∨ v.get (ECN_QCFG.TBASE q) ≠ 1 ∨ v.flag TIME_STAT.CONS_SYNC = true) → f.launch = some a → a + 1000 * v.get (ECN_QCFG.TOL q) < f.atHead.getD (v.queueNow q) → v.flag (ECN_QCFG.LATE q) = true → v.flag (ECN_STAT.LINK port) = true → SMap.getD v.ecn.busy port 0 ≤ v.localNow → v.eligible port q = true → (∀ k, k < 8 → q < k → v.eligible port k = false) → exec (.ecnLaunch t port q) s = .next ((((v.inc ECN_LATE_CNT).setQueue port q ((v.ecnQueue port q).erase f)).ecnSend port f.bytes f.forced).ringDone q f.desc false)) ∧
  (∀ (s : State) (t : Nat) (n : Nat) (v : State), v = s.at_ t → (v.pdInstant n = none ∨ v.pdMay n = false) → exec (.pdPublish t n) s = .next (v)) ∧
  (∀ (s : State) (t : Nat) (n next launch : Nat) (v : State), v = s.at_ t → v.pdInstant n = some (next, launch) → v.pdMay n = true → v.pdSynced n = false → exec (.pdPublish t n) s = .next ((v.setPd n { v.pdOf n with next := next }).inc ECN_PD_SKIP_CNT)) ∧
  (∀ (s : State) (t : Nat) (n next launch : Nat) (v : State), v = s.at_ t → v.pdInstant n = some (next, launch) → v.pdMay n = true → v.pdSynced n = true → exec (.pdPublish t n) s = .next ((v.setPd n { v.pdOf n with next := next }).pdSend n 0x5064 (some ((v.setPd n { v.pdOf n with next := next }).queueNow ((v.setPd n { v.pdOf n with next := next }).get (ECN_PD.PCP n)) + launch - (if (v.setPd n { v.pdOf n with next := next }).get (ECN_PD.TBASE n) = 1 then (v.setPd n { v.pdOf n with next := next }).consNow else (v.setPd n { v.pdOf n with next := next }).localNow))))) ∧
  (∀ (s : State) (t : Nat) (comId : Nat) (v : State), v = s.at_ t → exec (.pdPullRequest t comId) s = .next ((List.range 512).foldl (fun x n => if x.pdMay n = true ∧ x.get (ECN_PD.COMID n) = comId then (if x.pdSynced n = true then x.pdSend n 0x5070 none else x.inc ECN_PD_SKIP_CNT) else x) v)) ∧
  (∀ (s : State) (n msg : Nat) (launch : Option Nat) (x : State), s.txPayload 2 n (s.get (ECN_PD.LEN n)) = (none, x) → s.pdSend n msg launch = x) ∧
  (∀ (s : State) (n msg : Nat) (launch : Option Nat) (data : List Byte) (x : State), n < 512 → s.txPayload 2 n (s.get (ECN_PD.LEN n)) = (some data, x) → ((s.pdSend n msg launch).pdOf n).seq = ((x.pdOf n).seq + 1) % 2 ^ 32 ∧ (s.pdSend n msg launch).get (ECN_PDST.STATE n) = 2 ∧ (s.pdSend n msg launch).get (ECN_PDST.SEQ n) = ((x.pdOf n).seq + 1) % 2 ^ 16 ∧ (s.pdSend n msg launch).get ECN_PD_TX_CNT = (x.get ECN_PD_TX_CNT + 1) % 2 ^ 32 ∧ x.changesOnly (s.pdSend n msg launch) [(ECN_PDST.STATE n).addr, ECN_PD_TX_CNT.addr]) ∧
  (∀ (s : State) (t : Nat) (n src msg comId seq etb optrn major : Nat) (fcs : Bool) (dataset : List Byte) (v : State), v = s.at_ t → (v.pdListens = false ∨ v.flag (ECN_PD.EN n) = false ∨ v.flag (ECN_PD.DIR n) = true) → exec (.pdTelegramRx t n src msg comId seq etb optrn major fcs dataset) s = .next (v)) ∧
  (∀ (s : State) (t : Nat) (n src msg comId seq etb optrn major : Nat) (fcs : Bool) (dataset : List Byte) (v : State), v = s.at_ t → v.pdListens = true → v.flag (ECN_PD.EN n) = true → v.flag (ECN_PD.DIR n) = false → fcs = true → (msg = 0x5064 ∨ msg = 0x5070) → major = 1 → comId = v.get (ECN_PD.COMID n) → dataset.length = v.get (ECN_PD.LEN n) → (v.get (ECN_PD.SRC_IP n) = 0 ∨ v.get (ECN_PD.SRC_IP n) = src) → (etb = 0 ∨ etb = v.get ECN_ETB_TOPO.VALUE) → (optrn = 0 ∨ optrn = v.get ECN_OPTRN_TOPO.VALUE) → SMap.find (v.pdOf n).last src ≠ some seq → exec (.pdTelegramRx t n src msg comId seq etb optrn major fcs dataset) s = .next (((((v.setPd n { v.pdOf n with data := dataset, ticks := 0, ever := true, last := SMap.set (v.pdOf n).last src seq }).put (ECN_PDST.STATE n) 2).put (ECN_PDST.SEQ n) seq).inc ECN_PD_RX_CNT).gwArrived 2 n)) ∧
  (∀ (s : State) (t : Nat) (n src msg comId seq etb optrn major : Nat) (fcs : Bool) (dataset : List Byte) (v : State), v = s.at_ t → v.pdListens = true → v.flag (ECN_PD.EN n) = true → v.flag (ECN_PD.DIR n) = false → fcs = true → (msg = 0x5064 ∨ msg = 0x5070) → major = 1 → comId = v.get (ECN_PD.COMID n) → dataset.length = v.get (ECN_PD.LEN n) → (v.get (ECN_PD.SRC_IP n) = 0 ∨ v.get (ECN_PD.SRC_IP n) = src) → (etb = 0 ∨ etb = v.get ECN_ETB_TOPO.VALUE) → (optrn = 0 ∨ optrn = v.get ECN_OPTRN_TOPO.VALUE) → SMap.find (v.pdOf n).last src ≠ some seq → n < 512 → v.gwEntries = [] → Completes (.pdTelegramRx t n src msg comId seq etb optrn major fcs dataset) s (fun u => (u.pdOf n).data = dataset ∧ (u.pdOf n).ticks = 0 ∧ u.get (ECN_PDST.STATE n) = 2 ∧ u.get (ECN_PDST.SEQ n) = seq % 2 ^ 16 ∧ u.get ECN_PD_RX_CNT = (v.get ECN_PD_RX_CNT + 1) % 2 ^ 32)) ∧
  (∀ (s : State) (t : Nat) (n src msg comId seq etb optrn major : Nat) (fcs : Bool) (dataset : List Byte) (v : State), v = s.at_ t → v.pdListens = true → v.flag (ECN_PD.EN n) = true → v.flag (ECN_PD.DIR n) = false → (fcs = false ∨ (msg ≠ 0x5064 ∧ msg ≠ 0x5070) ∨ major ≠ 1 ∨ comId ≠ v.get (ECN_PD.COMID n) ∨ dataset.length ≠ v.get (ECN_PD.LEN n) ∨ (v.get (ECN_PD.SRC_IP n) ≠ 0 ∧ v.get (ECN_PD.SRC_IP n) ≠ src) ∨ (etb ≠ 0 ∧ etb ≠ v.get ECN_ETB_TOPO.VALUE) ∨ (optrn ≠ 0 ∧ optrn ≠ v.get ECN_OPTRN_TOPO.VALUE) ∨ SMap.find (v.pdOf n).last src = some seq) → Completes (.pdTelegramRx t n src msg comId seq etb optrn major fcs dataset) s (fun u => u.get ECN_PD_REJ_CNT = (v.get ECN_PD_REJ_CNT + 1) % 2 ^ 32 ∧ u.ecn = v.ecn ∧ v.changesOnly u [ECN_PD_REJ_CNT.addr])) ∧
  (∀ (s : State) (t : Nat) (n : Nat) (v : State), v = s.at_ t → n < 512 → v.flag (ECN_PD.EN n) = true → v.flag (ECN_PD.DIR n) = false → v.get (ECN_PDST.STATE n) ≠ 3 → v.get (ECN_PD.CYCLE n) ≤ (v.pdOf n).ticks → Completes (.pdSubscriberTimeout t n) s (fun u => u.get (ECN_PDST.STATE n) = 3 ∧ u.get ECN_PD_TMO_CNT = (v.get ECN_PD_TMO_CNT + 1) % 2 ^ 32 ∧ u.ecn = v.ecn ∧ v.changesOnly u [(ECN_PDST.STATE n).addr, ECN_PD_TMO_CNT.addr])) ∧
  (∀ (s : State) (t : Nat) (n : Nat) (v : State), v = s.at_ t → (v.flag (ECN_PD.EN n) = false ∨ v.flag (ECN_PD.DIR n) = true ∨ v.get (ECN_PDST.STATE n) = 3 ∨ (v.pdOf n).ticks < v.get (ECN_PD.CYCLE n)) → exec (.pdSubscriberTimeout t n) s = .next (v))

/-- While the MVB unit is on, each line of a slave frame shows whether it received well, and counts its error if not. A frame valid on the trusted line with the length of a used sink slot is held with freshness 0, not STALE, counts, and the gateway takes it; any other only shows its lines. A used source slot answers its master frame with its buffer or its safe telegram, counted, unless PAIR keeps it to the claiming module or its session has no telegram; a status request is answered with the device status word. A sink slot past its FRESH at the latest edge, not shown as STALE, is STALE and counts. A change of the trusted line is shown and counts. A permitted map swap waits for the next edge. At the edge a swap to the other bank shows it, counts, and asks for its scan; to the bank in force it only ends. The scan counts the faulty used entries listed in the active bank, shows ERR and the first of them. An entry whose staleness is not the one shown is marked, NSTALE follows, one that goes stale counts, and its image destination takes its value; one that is as shown changes nothing. Otherwise these commands change nothing. (R297, R298, R302, R306, R307, R308) -/
def Obligations.MvbGateway : Prop :=
  (∀ (s : State) (t : Nat) (n : Nat) (data : List Byte) (okA okB : Bool) (x y : State) (v : State), v = s.at_ t → v.mvbOn = true → (x = if okA = true then v.putIf GW_MVB_STAT.LINE_A_OK 1 else (v.putIf GW_MVB_STAT.LINE_A_OK 0).inc GW_MVB_ERRA_CNT) → (y = if okB = true then x.putIf GW_MVB_STAT.LINE_B_OK 1 else (x.putIf GW_MVB_STAT.LINE_B_OK 0).inc GW_MVB_ERRB_CNT) → ((y.flag GW_MVB_STAT.TRUSTED = true → okB = true) ∧ (y.flag GW_MVB_STAT.TRUSTED = false → okA = true) ∧ data.length = y.mvbLen n) → y.mvbUsed n = true → y.flag (GW_MVBP.DIR n) = false → exec (.mvbSinkFrame t n data okA okB) s = .next (((((y.setMvb n ⟨data, some y.localNow, false⟩).put (GW_MVBS.FRESHNESS n) 0).putFlag (GW_MVBS.STALE n) false).inc GW_MVB_RX_CNT).gwArrived 3 n)) ∧
  (∀ (s : State) (t : Nat) (n : Nat) (data : List Byte) (okA okB : Bool) (x y : State) (v : State), v = s.at_ t → v.mvbOn = true → (x = if okA = true then v.putIf GW_MVB_STAT.LINE_A_OK 1 else (v.putIf GW_MVB_STAT.LINE_A_OK 0).inc GW_MVB_ERRA_CNT) → (y = if okB = true then x.putIf GW_MVB_STAT.LINE_B_OK 1 else (x.putIf GW_MVB_STAT.LINE_B_OK 0).inc GW_MVB_ERRB_CNT) → ((y.flag GW_MVB_STAT.TRUSTED = true ∧ okB = false) ∨ (y.flag GW_MVB_STAT.TRUSTED = false ∧ okA = false) ∨ data.length ≠ y.mvbLen n ∨ y.mvbUsed n = false ∨ y.flag (GW_MVBP.DIR n) = true) → exec (.mvbSinkFrame t n data okA okB) s = .next (y)) ∧
  (∀ (s : State) (t : Nat) (n : Nat) (data : List Byte) (okA okB : Bool) (v : State), v = s.at_ t → v.mvbOn = false → exec (.mvbSinkFrame t n data okA okB) s = .next (v)) ∧
  (∀ (s : State) (t : Nat) (n : Nat) (data : List Byte) (v : State), v = s.at_ t → n < 256 → v.mvbOn = true → v.flag GW_MVB_STAT.TRUSTED = false → data.length = v.mvbLen n → v.mvbUsed n = true → v.flag (GW_MVBP.DIR n) = false → v.gwEntries = [] → Completes (.mvbSinkFrame t n data true true) s (fun u => SMap.find u.gw.mvb n = some ⟨data, some v.localNow, false⟩ ∧ u.get (GW_MVBS.FRESHNESS n) = 0 ∧ u.flag (GW_MVBS.STALE n) = false ∧ u.get GW_MVB_RX_CNT = (v.get GW_MVB_RX_CNT + 1) % 2 ^ 32 ∧ u.get GW_MVB_STAT.LINE_A_OK = 1 ∧ u.get GW_MVB_STAT.LINE_B_OK = 1)) ∧
  (∀ (s : State) (t : Nat) (n : Nat) (data : List Byte) (v : State), v = s.at_ t → v.mvbOn = true → Completes (.mvbSinkFrame t n data false false) s (fun u => u.get GW_MVB_ERRA_CNT = (v.get GW_MVB_ERRA_CNT + 1) % 2 ^ 32 ∧ u.get GW_MVB_ERRB_CNT = (v.get GW_MVB_ERRB_CNT + 1) % 2 ^ 32 ∧ u.get GW_MVB_STAT.LINE_A_OK = 0 ∧ u.get GW_MVB_STAT.LINE_B_OK = 0 ∧ u.gw = v.gw ∧ v.changesOnly u [GW_MVB_STAT.LINE_A_OK.addr, GW_MVB_ERRA_CNT.addr, GW_MVB_ERRB_CNT.addr])) ∧
  (∀ (s : State) (t : Nat) (n : Nat) (v : State), v = s.at_ t → v.mvbOn = true → v.mvbUsed n = true → v.flag (GW_MVBP.DIR n) = true → (v.flag (GW_MVBP.PAIR n) = false ∨ v.claiming = true) → v.safeTxOn 2 n = none → exec (.mvbMasterFrame t n) s = .next ((v.mvbSend (v.mvbOf n).data (v.mvbOf n).forced).inc GW_MVB_TX_CNT)) ∧
  (∀ (s : State) (t : Nat) (n k : Nat) (bs : List Byte) (v : State), v = s.at_ t → v.mvbOn = true → v.mvbUsed n = true → v.flag (GW_MVBP.DIR n) = true → (v.flag (GW_MVBP.PAIR n) = false ∨ v.claiming = true) → v.safeTxOn 2 n = some k → (v.takeTele k).1 = some bs → exec (.mvbMasterFrame t n) s = .next (((v.takeTele k).2.mvbSend bs ((v.takeTele k).2.flag CYC_STAT.FORCED)).inc GW_MVB_TX_CNT)) ∧
  (∀ (s : State) (t : Nat) (n k : Nat) (v : State), v = s.at_ t → v.mvbOn = true → v.mvbUsed n = true → v.flag (GW_MVBP.DIR n) = true → (v.flag (GW_MVBP.PAIR n) = false ∨ v.claiming = true) → v.safeTxOn 2 n = some k → (v.takeTele k).1 = none → exec (.mvbMasterFrame t n) s = .next ((v.takeTele k).2)) ∧
  (∀ (s : State) (t : Nat) (n : Nat) (v : State), v = s.at_ t → (v.mvbOn = false ∨ v.mvbUsed n = false ∨ v.flag (GW_MVBP.DIR n) = false ∨ (v.flag (GW_MVBP.PAIR n) = true ∧ v.claiming = false)) → exec (.mvbMasterFrame t n) s = .next (v)) ∧
  (∀ (s : State) (t : Nat) (v : State), v = s.at_ t → v.mvbOn = true → exec (.mvbStatusRequest t) s = .next (v.send 5 (beBytes 2 (v.get GW_MVB_STAT.DSW)))) ∧
  (∀ (s : State) (t : Nat) (v : State), v = s.at_ t → v.mvbOn = false → exec (.mvbStatusRequest t) s = .next (v)) ∧
  (∀ (s : State) (n : Nat), n < 256 → s.mvbUsed n = true → s.flag (GW_MVBP.DIR n) = false → s.flag (GW_MVBS.STALE n) = false → s.mvbOld n = true → Completes (.mvbSinkStale n) s (fun u => u.flag (GW_MVBS.STALE n) = true ∧ u.get GW_MVB_FRESH_CNT = (s.get GW_MVB_FRESH_CNT + 1) % 2 ^ 32 ∧ s.changesOnly u [(GW_MVBS.STALE n).addr, GW_MVB_FRESH_CNT.addr])) ∧
  (∀ (s : State) (n : Nat), (s.mvbUsed n = false ∨ s.flag (GW_MVBP.DIR n) = true ∨ s.flag (GW_MVBS.STALE n) = true ∨ s.mvbOld n = false) → exec (.mvbSinkStale n) s = .next (s)) ∧
  (∀ (s : State) (toB : Bool), s.mvbOn = true → s.flag GW_MVB_STAT.TRUSTED = !toB → Completes (.mvbLineSwitch toB) s (fun u => u.flag GW_MVB_STAT.TRUSTED = toB ∧ u.get GW_MVB_SWITCH_CNT = (s.get GW_MVB_SWITCH_CNT + 1) % 2 ^ 32 ∧ s.changesOnly u [GW_MVB_STAT.TRUSTED.addr, GW_MVB_SWITCH_CNT.addr])) ∧
  (∀ (s : State) (toB : Bool), (s.mvbOn = false ∨ s.flag GW_MVB_STAT.TRUSTED = toB) → exec (.mvbLineSwitch toB) s = .next (s)) ∧
  (∀ (s : State) (t : Nat) (who : Initiator) (bank : Bool) (v : State), v = s.at_ t → v.acts who = true → mayWrite who (blockOf GW_MAP_SWAP.BANK.addr) = true → exec (.gwMapSwap t who bank) s = .next ((let x := v.consume who (blockOf GW_MAP_SWAP.BANK.addr); ({ x with gw := { x.gw with swapTo := bank.toNat } }).putFlag GW_MAP_STAT.SWAP_PEND true))) ∧
  (∀ (s : State) (t : Nat) (who : Initiator) (bank : Bool) (v : State), v = s.at_ t → v.acts who = true → mayWrite who (blockOf GW_MAP_SWAP.BANK.addr) = true → v.unlocked who (blockOf GW_MAP_SWAP.BANK.addr) = false → Completes (.gwMapSwap t who bank) s (fun u => u.gw = { v.gw with swapTo := bank.toNat } ∧ u.flag GW_MAP_STAT.SWAP_PEND = true ∧ u.get GW_MAP_STAT.ACTIVE = v.get GW_MAP_STAT.ACTIVE ∧ v.changesOnly u [GW_MAP_STAT.SWAP_PEND.addr])) ∧
  (∀ (s : State) (t : Nat) (bad : List Nat) (v : State), v = s.at_ t → v.gw.scan = true → (bad = (v.gwListed (v.get GW_MAP_STAT.ACTIVE)).filter (fun e => (v.gwEntry (v.get GW_MAP_STAT.ACTIVE) e).used && !v.gwOk (v.gwEntry (v.get GW_MAP_STAT.ACTIVE) e))) → exec (.mapScanDone t) s = .next (((({ v with gw := { v.gw with scan := false } } : State).add GW_MAP_ERR_CNT bad.length).putFlag GW_STAT.ERR (!bad.isEmpty)).put GW_STAT.ERR_IDX (bad.headD 0))) ∧
  (∀ (s : State) (t : Nat) (v : State), v = s.at_ t → v.gw.scan = false → exec (.mapScanDone t) s = .next (v)) ∧
  (∀ (s : State) (t : Nat) (e : Nat) (x : GwEntry) (v : State), v = s.at_ t → (v.gwEntries.find? (fun p => p.1 == e) = some (e, x)) → v.gwStaleNow x = true → e ∉ v.gw.stale → exec (.gwEntryStale t e) s = .next ((((({ v with gw := { v.gw with stale := e :: v.gw.stale } } : State).put GW_STAT.NSTALE (v.gw.stale.length + 1)).inc GW_STALE_CNT).gwToImage e x))) ∧
  (∀ (s : State) (t : Nat) (e : Nat) (x : GwEntry) (v : State), v = s.at_ t → (v.gwEntries.find? (fun p => p.1 == e) = some (e, x)) → v.gwStaleNow x = false → e ∈ v.gw.stale → exec (.gwEntryStale t e) s = .next ((let l := v.gw.stale.filter (fun n => n ≠ e); (({ v with gw := { v.gw with stale := l } } : State).put GW_STAT.NSTALE l.length).gwToImage e x))) ∧
  (∀ (s : State) (t : Nat) (e : Nat) (x : GwEntry) (v : State), v = s.at_ t → (v.gwEntries.find? (fun p => p.1 == e) = some (e, x)) → v.gwStaleNow x = true ↔ e ∈ v.gw.stale → exec (.gwEntryStale t e) s = .next (v)) ∧
  (∀ (s : State) (t : Nat) (e : Nat) (v : State), v = s.at_ t → (v.gwEntries.find? (fun p => p.1 == e) = none) → exec (.gwEntryStale t e) s = .next (v)) ∧
  (∀ (s : State), s.flag GW_MAP_STAT.SWAP_PEND = true → s.get GW_MAP_STAT.ACTIVE ≠ s.gw.swapTo → s.gw.swapTo < 2 → s.gwSwap.get GW_MAP_STAT.ACTIVE = s.gw.swapTo ∧ s.gwSwap.flag GW_MAP_STAT.SWAP_PEND = false ∧ s.gwSwap.gw.scan = true ∧ s.gwSwap.get GW_SWAP_CNT = (s.get GW_SWAP_CNT + 1) % 2 ^ 32) ∧
  (∀ (s : State), s.flag GW_MAP_STAT.SWAP_PEND = true → s.get GW_MAP_STAT.ACTIVE = s.gw.swapTo → s.gwSwap = s.putFlag GW_MAP_STAT.SWAP_PEND false)

/-- A slot whose SEQ is new and whose operation is the command, with no new slot before it, is taken after the pass of the lane tick, the first since the slots were published; any other changes nothing. MOVE under direct control appends to the queue, but a full queue increments MOT_QFULL_CNT and shows result 1, not counted as refused. REPLACE under direct control, its target clamped, plans the one move; with GROUP a moving axis first stops, by a counted reversal that opens the acceleration window where the target lies behind, and an axis at rest waits for its group. A target beyond a standing LIMIT is refused to both. GSTART starts the heads of a group that may start; with interpolation its members move together with the profile of the longest distance. HOME at standstill, in SERVICE or ACTIVE, of an axis not homed, not homing, not in EGRESS or ISOLATED, with LANE where it needs it, starts homing. STOP of an axis under direct control stops it with reason 10. TAKE in SERVICE at standstill of a homed axis at rest in states 1, 3, 4, 6 or 9 sets DIRECT and drops its stroke. GIVE of an axis under direct control at rest ends it and derives the door state. Each then shows the SEQ with result 0. A command that is not allowed shows its SEQ with result 1 and increments MOT_CMD_REJ_CNT. (R165, R168, R170, R174, R178, R179, R180, R181, R182, R183) -/
def Obligations.MotionCommands : Prop :=
  (∀ (s : State) (slot k : Nat), s.slotDue slot k = true ↔ (slot < 16 ∧ s.door.passed = true ∧ s.door.slotsNew = false ∧ s.door.slots.length = 256 ∧ (s.slotOf slot).op = k ∧ s.slotNew slot = true ∧ (List.range slot).all (fun i => !s.slotNew i) = true)) ∧
  (∀ (s : State) (n : Nat) (p um : Int), s.limitRefuses n p um = true ↔ (s.flag (MOT_AS.LIMIT n) = true ∧ sgn ((s.clampTarget n um).1 * pScale - p) = (s.mx n).limDir)) ∧
  (∀ (s : State) (t : Nat) (slot : Nat) (v : State), v = s.at_ t → v.slotDue slot 1 = false → exec (.move t slot) s = .next (v)) ∧
  (∀ (s : State) (t : Nat) (slot : Nat) (v : State), v = s.at_ t → v.slotDue slot 2 = false → exec (.replace t slot) s = .next (v)) ∧
  (∀ (s : State) (t : Nat) (slot : Nat) (v : State), v = s.at_ t → v.slotDue slot 3 = false → exec (.gstart t slot) s = .next (v)) ∧
  (∀ (s : State) (t : Nat) (slot : Nat) (v : State), v = s.at_ t → v.slotDue slot 4 = false → exec (.gstartInterp t slot) s = .next (v)) ∧
  (∀ (s : State) (t : Nat) (slot : Nat) (v : State), v = s.at_ t → v.slotDue slot 5 = false → exec (.home t slot) s = .next (v)) ∧
  (∀ (s : State) (t : Nat) (slot : Nat) (v : State), v = s.at_ t → v.slotDue slot 6 = false → exec (.motionStop t slot) s = .next (v)) ∧
  (∀ (s : State) (t : Nat) (slot : Nat) (v : State), v = s.at_ t → v.slotDue slot 7 = false → exec (.take t slot) s = .next (v)) ∧
  (∀ (s : State) (t : Nat) (slot : Nat) (v : State), v = s.at_ t → v.slotDue slot 8 = false → exec (.give t slot) s = .next (v)) ∧
  (∀ (s : State) (t : Nat) (slot : Nat) (v : State), v = s.at_ t → slot < 16 → v.slotDue slot 1 = true → v.directOk (v.slotOf slot).index = true → (v.mx (v.slotOf slot).index).queue.length < 8 → v.limitRefuses (v.slotOf slot).index (v.queueEnd (v.slotOf slot).index) (v.slotOf slot).target = false → exec (.move t slot) s = .next ((v.append (v.slotOf slot).index ⟨(v.slotOf slot).target, (v.slotOf slot).set, (v.slotOf slot).group⟩).slotDone slot true false)) ∧
  (∀ (s : State) (t : Nat) (slot : Nat) (v : State), v = s.at_ t → slot < 16 → v.slotDue slot 1 = true → v.directOk (v.slotOf slot).index = true → 8 ≤ (v.mx (v.slotOf slot).index).queue.length → exec (.move t slot) s = .next ((v.inc MOT_QFULL_CNT).slotDone slot false false)) ∧
  (∀ (s : State) (t : Nat) (slot : Nat) (v : State), v = s.at_ t → slot < 16 → v.slotDue slot 1 = true → v.directOk (v.slotOf slot).index = false → exec (.move t slot) s = .next (v.slotDone slot false true)) ∧
  (∀ (s : State) (t : Nat) (slot : Nat) (v : State), v = s.at_ t → slot < 16 → v.slotDue slot 1 = true → v.directOk (v.slotOf slot).index = true → (v.mx (v.slotOf slot).index).queue.length < 8 → v.limitRefuses (v.slotOf slot).index (v.queueEnd (v.slotOf slot).index) (v.slotOf slot).target = true → exec (.move t slot) s = .next (v.slotDone slot false true)) ∧
  (∀ (s : State) (t : Nat) (slot : Nat) (v : State), v = s.at_ t → slot < 16 → v.slotDue slot 2 = true → v.directOk (v.slotOf slot).index = false → exec (.replace t slot) s = .next (v.slotDone slot false true)) ∧
  (∀ (s : State) (t : Nat) (slot : Nat) (v : State), v = s.at_ t → slot < 16 → v.slotDue slot 2 = true → v.directOk (v.slotOf slot).index = true → v.limitRefuses (v.slotOf slot).index ((v.mx (v.slotOf slot).index).st.p) (v.slotOf slot).target = true → exec (.replace t slot) s = .next (v.slotDone slot false true)) ∧
  (∀ (s : State) (t : Nat) (slot n : Nat) (x : State) (m : Move) (v : State), v = s.at_ t → slot < 16 → v.slotDue slot 2 = true → n = (v.slotOf slot).index → v.directOk n = true → v.limitRefuses n (v.mx n).st.p (v.slotOf slot).target = false → x = (v.clampMove n ⟨(v.slotOf slot).target, (v.slotOf slot).set, (v.slotOf slot).group⟩).1 → m = (v.clampMove n ⟨(v.slotOf slot).target, (v.slotOf slot).set, (v.slotOf slot).group⟩).2 → m.group = false → exec (.replace t slot) s = .next ((x.planAxis n [m] m.set false).slotDone slot true false)) ∧
  (∀ (s : State) (t : Nat) (slot n : Nat) (x : State) (m : Move) (v : State), v = s.at_ t → slot < 16 → v.slotDue slot 2 = true → n = (v.slotOf slot).index → v.directOk n = true → v.limitRefuses n (v.mx n).st.p (v.slotOf slot).target = false → x = (v.clampMove n ⟨(v.slotOf slot).target, (v.slotOf slot).set, (v.slotOf slot).group⟩).1 → m = (v.clampMove n ⟨(v.slotOf slot).target, (v.slotOf slot).set, (v.slotOf slot).group⟩).2 → m.group = true → (x.mx n).st.moving = false → exec (.replace t slot) s = .next ((x.waitGroup n [m]).slotDone slot true false)) ∧
  (∀ (s : State) (t : Nat) (slot n : Nat) (x : State) (m : Move) (v : State), v = s.at_ t → slot < 16 → v.slotDue slot 2 = true → n = (v.slotOf slot).index → v.directOk n = true → v.limitRefuses n (v.mx n).st.p (v.slotOf slot).target = false → x = (v.clampMove n ⟨(v.slotOf slot).target, (v.slotOf slot).set, (v.slotOf slot).group⟩).1 → m = (v.clampMove n ⟨(v.slotOf slot).target, (v.slotOf slot).set, (v.slotOf slot).group⟩).2 → m.group = true → (x.mx n).st.moving = true → needsStop (x.mx n).st (m.target * pScale) (x.limOf n m.set) = false → exec (.replace t slot) s = .next ((((x.setMx n { x.mx n with legs := [(x.stopFrom n (x.mx n).st m.set none)], queue := [m], set := ((x.stopFrom n (x.mx n).st m.set none)).set }).put (MOT_AS.MSTATE n) 1).showQueue n).slotDone slot true false)) ∧
  (∀ (s : State) (t : Nat) (slot n : Nat) (x y : State) (m : Move) (v : State), v = s.at_ t → slot < 16 → v.slotDue slot 2 = true → n = (v.slotOf slot).index → v.directOk n = true → v.limitRefuses n (v.mx n).st.p (v.slotOf slot).target = false → x = (v.clampMove n ⟨(v.slotOf slot).target, (v.slotOf slot).set, (v.slotOf slot).group⟩).1 → m = (v.clampMove n ⟨(v.slotOf slot).target, (v.slotOf slot).set, (v.slotOf slot).group⟩).2 → m.group = true → (x.mx n).st.moving = true → needsStop (x.mx n).st (m.target * pScale) (x.limOf n m.set) = true → y = (x.inc MOT_REV_CNT).accWindow n → exec (.replace t slot) s = .next ((((y.setMx n { x.mx n with legs := [(x.stopFrom n (x.mx n).st m.set (some m.target))], queue := [m], set := ((x.stopFrom n (x.mx n).st m.set (some m.target))).set }).put (MOT_AS.MSTATE n) 1).showQueue n).slotDone slot true false)) ∧
  (∀ (s : State) (t : Nat) (slot : Nat) (v : State), v = s.at_ t → slot < 16 → v.slotDue slot 3 = true → (16 ≤ (v.slotOf slot).index ∨ v.groupOk (v.slotOf slot).index = false) → exec (.gstart t slot) s = .next (v.slotDone slot false true)) ∧
  (∀ (s : State) (t : Nat) (slot : Nat) (v : State), v = s.at_ t → slot < 16 → v.slotDue slot 4 = true → (16 ≤ (v.slotOf slot).index ∨ v.groupOk (v.slotOf slot).index = false) → exec (.gstartInterp t slot) s = .next (v.slotDone slot false true)) ∧
  (∀ (s : State) (t : Nat) (slot g : Nat) (v : State), v = s.at_ t → slot < 16 → v.slotDue slot 3 = true → g = (v.slotOf slot).index → g < 16 → v.groupOk g = true → exec (.gstart t slot) s = .next (((v.groupAxes g).foldl State.startHead v).slotDone slot true false)) ∧
  (∀ (s : State) (t : Nat) (slot g lead : Nat) (segs : List Seg) (slow : Bool) (v : State), v = s.at_ t → slot < 16 → v.slotDue slot 4 = true → g = (v.slotOf slot).index → g < 16 → v.groupOk g = true → (lead = (v.groupAxes g).foldl (fun a n => if (v.headDist a).natAbs < (v.headDist n).natAbs then n else a) ((v.groupAxes g).headD 0)) → v.leadSegs (v.groupAxes g) lead = (segs, slow) → exec (.gstartInterp t slot) s = .next (((v.groupAxes g).foldl (fun x n => x.startMember g segs (v.headDist lead) slow n) v).slotDone slot true false)) ∧
  (∀ (s : State) (t : Nat) (slot n : Nat) (v : State), v = s.at_ t → slot < 16 → v.slotDue slot 5 = true → n = (v.slotOf slot).index → v.slotFree n = true → (v.get SYS_STAT.MODE = 1 ∨ v.get SYS_STAT.MODE = 3) → v.still = true → v.flag (MOT_AS.HOMED n) = false → v.homing n = false → v.homeLane n = true → v.dst n ≠ 7 → v.dst n ≠ 8 → exec (.home t slot) s = .next ((v.startHoming n).slotDone slot true false)) ∧
  (∀ (s : State) (t : Nat) (slot n : Nat) (v : State), v = s.at_ t → slot < 16 → v.slotDue slot 5 = true → n = (v.slotOf slot).index → (¬ (v.slotFree n = true ∧ (v.get SYS_STAT.MODE = 1 ∨ v.get SYS_STAT.MODE = 3) ∧ v.still = true ∧ v.flag (MOT_AS.HOMED n) = false ∧ v.homing n = false ∧ v.homeLane n = true ∧ v.dst n ≠ 7 ∧ v.dst n ≠ 8)) → exec (.home t slot) s = .next (v.slotDone slot false true)) ∧
  (∀ (s : State) (t : Nat) (slot n : Nat) (v : State), v = s.at_ t → slot < 16 → v.slotDue slot 6 = true → n = (v.slotOf slot).index → v.slotFree n = true → v.flag (MOT_AS.DIRECT n) = true → exec (.motionStop t slot) s = .next ((v.stopAxis n 10).slotDone slot true false)) ∧
  (∀ (s : State) (t : Nat) (slot n : Nat) (v : State), v = s.at_ t → slot < 16 → v.slotDue slot 6 = true → n = (v.slotOf slot).index → (¬ (v.slotFree n = true ∧ v.flag (MOT_AS.DIRECT n) = true)) → exec (.motionStop t slot) s = .next (v.slotDone slot false true)) ∧
  (∀ (s : State) (t : Nat) (slot n : Nat) (v : State), v = s.at_ t → slot < 16 → v.slotDue slot 7 = true → n = (v.slotOf slot).index → v.slotFree n = true → v.get SYS_STAT.MODE = 1 → v.still = true → v.flag (MOT_AS.HOMED n) = true → (v.mx n).st.moving = false → (v.mx n).legs = [] → (v.dst n = 1 ∨ v.dst n = 3 ∨ v.dst n = 4 ∨ v.dst n = 6 ∨ v.dst n = 9) → exec (.take t slot) s = .next ((let x := (v.put (MOT_AS.DIRECT n) 1).setMx n { v.mx n with giveUp := false }; (x.setDax n { v.dax n with resume := false, stroke := none }).slotDone slot true false))) ∧
  (∀ (s : State) (t : Nat) (slot n : Nat) (v : State), v = s.at_ t → slot < 16 → v.slotDue slot 7 = true → n = (v.slotOf slot).index → (¬ (v.slotFree n = true ∧ v.get SYS_STAT.MODE = 1 ∧ v.still = true ∧ v.flag (MOT_AS.HOMED n) = true ∧ (v.mx n).st.moving = false ∧ (v.mx n).legs = [] ∧ (v.dst n = 1 ∨ v.dst n = 3 ∨ v.dst n = 4 ∨ v.dst n = 6 ∨ v.dst n = 9))) → exec (.take t slot) s = .next (v.slotDone slot false true)) ∧
  (∀ (s : State) (t : Nat) (slot n : Nat) (v : State), v = s.at_ t → slot < 16 → v.slotDue slot 8 = true → n = (v.slotOf slot).index → v.slotFree n = true → v.flag (MOT_AS.DIRECT n) = true → (v.mx n).st.moving = false → exec (.give t slot) s = .next ((((v.put (MOT_AS.DIRECT n) 0).derive n).showDoor).slotDone slot true false)) ∧
  (∀ (s : State) (t : Nat) (slot n : Nat) (v : State), v = s.at_ t → slot < 16 → v.slotDue slot 8 = true → n = (v.slotOf slot).index → (¬ (v.slotFree n = true ∧ v.flag (MOT_AS.DIRECT n) = true ∧ (v.mx n).st.moving = false)) → exec (.give t slot) s = .next (v.slotDone slot false true)) ∧
  (∀ (s : State) (k : Nat) (ok count : Bool) (x : State), (x = if ok = false ∧ count = true then s.inc MOT_CMD_REJ_CNT else s) → SMap.find (s.slotDone k ok count).door.slotSeq k = some (s.slotOf k).seq ∧ SMap.find (s.slotDone k ok count).door.slotRes k = some (if ok = true then 0 else 1) ∧ (s.slotDone k ok count) = ({ x with door := { x.door with slotSeq := SMap.set x.door.slotSeq k (s.slotOf k).seq, slotRes := SMap.set x.door.slotRes k (if ok = true then 0 else 1) } }).showMotion)

/-- An edge of a limit or home switch whose candidate has lasted the debounce ticks qualifies; before that, or with no candidate, it changes nothing. A qualified limit edge goes to the limit handling, then the summary is shown: outside the fifth edge of a move, off clears LIMIT, and on outside homing stops a moving axis that no event of the pass has acted on. That stop keeps its direction, shows LIMIT, increments MOT_LIMIT_CNT and stops the axis with reason 7; any other axis it leaves. A qualified home edge takes its capture and changes the switch; the fifth edge of a move is chatter, shown in CHAT_HOME, counted, and fails homing with cause 4. Then an on edge in phase 1 turns to phase 3 back from the switch, in phase 2 notes where it was and goes to phase 3; an off edge in phase 3 moves BACKOFF away; an on edge in phase 4 ends homing at the capture; any other edge does no more. A homing axis past HOME_TMO, if not 0, fails with cause 3; another stays. A hold of MSTATE 2 that has run out goes to standstill with reason 1; another stays. Standstill shows MSTATE 4 and its reason, disables the axis in its standstill mode and empties the queue. Failed homing shows phase 6 and its cause, counts, changes no byte of memory, and is the stop of the axis with reason 9. (R174, R175, R184, R185, R186) -/
def Obligations.AxisEvents : Prop :=
  (∀ (s : State) (t : Nat) (n k : Nat) (cap : Int) (v : State), v = s.at_ t → (v.mx n).limit.cand = some (k, cap) → v.debTicks n ≤ k → exec (.limitTrip t n) s = .next ((v.limitEdge n).showMotion)) ∧
  (∀ (s : State) (t : Nat) (n k : Nat) (cap : Int) (v : State), v = s.at_ t → (v.mx n).limit.cand = some (k, cap) → k < v.debTicks n → exec (.limitTrip t n) s = .next (v)) ∧
  (∀ (s : State) (t : Nat) (n : Nat) (v : State), v = s.at_ t → (v.mx n).limit.cand = none → exec (.limitTrip t n) s = .next (v)) ∧
  (∀ (s : State) (t : Nat) (n k : Nat) (cap : Int) (v : State), v = s.at_ t → n < 96 → (v.mx n).limit.cand = some (k, cap) → v.debTicks n ≤ k → (v.mx n).limit.on = true → v.fifthEdge n (v.mx n).limitEdges = false → exec (.limitTrip t n) s = .next (((v.setMx n { v.mx n with limit := ⟨false, none⟩, limitEdges := v.edgeOf n (v.mx n).limitEdges }).putIf (MOT_AS.LIMIT n) 0).showMotion)) ∧
  (∀ (s : State) (t : Nat) (n k : Nat) (cap : Int) (v : State), v = s.at_ t → n < 96 → (v.mx n).limit.cand = some (k, cap) → v.debTicks n ≤ k → (v.mx n).limit.on = false → v.fifthEdge n (v.mx n).limitEdges = false → v.homing n = false → exec (.limitTrip t n) s = .next (((v.setMx n { v.mx n with limit := ⟨true, none⟩, limitEdges := v.edgeOf n (v.mx n).limitEdges }).limitStop n).showMotion)) ∧
  (∀ (s : State) (n : Nat), (s.mx n).st.moving = true → (s.mx n).acted = false → s.limitStop n = (((((s.setMx n { s.mx n with limDir := if (s.mx n).st.v = 0 then sgn (s.mx n).st.a else sgn (s.mx n).st.v }).put (MOT_AS.LIMIT n) 1).inc MOT_LIMIT_CNT).stopAxis n 7).acted n)) ∧
  (∀ (s : State) (n : Nat), ((s.mx n).st.moving = false ∨ (s.mx n).acted = true) → s.limitStop n = s) ∧
  (∀ (s : State) (t : Nat) (n k : Nat) (cap : Int) (v : State), v = s.at_ t → (v.mx n).home.cand = some (k, cap) → k < v.debTicks n → exec (.homeEdgeQualified t n) s = .next (v)) ∧
  (∀ (s : State) (t : Nat) (n : Nat) (v : State), v = s.at_ t → (v.mx n).home.cand = none → exec (.homeEdgeQualified t n) s = .next (v)) ∧
  (∀ (s : State) (t : Nat) (n k : Nat) (cap : Int) (x y : State) (v : State), v = s.at_ t → (v.mx n).home.cand = some (k, cap) → v.debTicks n ≤ k → y = (v.setMx n { v.mx n with home := ⟨!(v.mx n).home.on, none⟩, homeEdges := v.edgeOf n (v.mx n).homeEdges }).putS (MOT_AS.HCAP n) cap → (x = if y.fifthEdge n (v.mx n).homeEdges = true then y.chatter n (MOT_AS.CHAT_HOME n) else y) → x.get (MOT_AS.HPHASE n) = 1 → (v.mx n).home.on = false → exec (.homeEdgeQualified t n) s = .next ((x.homeMove n 3 (-(x.homeDir n)) (x.get (MOT_AX_SETS.HOME n)) (x.get (MOT_AX_SETS.HOME n)) true).showMotion)) ∧
  (∀ (s : State) (t : Nat) (n k : Nat) (cap : Int) (x y : State) (v : State), v = s.at_ t → (v.mx n).home.cand = some (k, cap) → v.debTicks n ≤ k → y = (v.setMx n { v.mx n with home := ⟨!(v.mx n).home.on, none⟩, homeEdges := v.edgeOf n (v.mx n).homeEdges }).putS (MOT_AS.HCAP n) cap → (x = if y.fifthEdge n (v.mx n).homeEdges = true then y.chatter n (MOT_AS.CHAT_HOME n) else y) → x.get (MOT_AS.HPHASE n) = 2 → (v.mx n).home.on = false → exec (.homeEdgeQualified t n) s = .next (((x.setMx n { x.mx n with hstart := x.rawPos n }).put (MOT_AS.HPHASE n) 3).showMotion)) ∧
  (∀ (s : State) (t : Nat) (n k : Nat) (cap : Int) (x y : State) (target : Int) (v : State), v = s.at_ t → (v.mx n).home.cand = some (k, cap) → v.debTicks n ≤ k → y = (v.setMx n { v.mx n with home := ⟨!(v.mx n).home.on, none⟩, homeEdges := v.edgeOf n (v.mx n).homeEdges }).putS (MOT_AS.HCAP n) cap → (x = if y.fifthEdge n (v.mx n).homeEdges = true then y.chatter n (MOT_AS.CHAT_HOME n) else y) → x.get (MOT_AS.HPHASE n) = 3 → (v.mx n).home.on = true → target = cap - x.homeDir n * x.get (MOT_AX_HOME.BACKOFF n) → exec (.homeEdgeQualified t n) s = .next ((let z := x.setMx n { x.mx n with htarget := some target }; (z.planAxis n [⟨target + z.getS (MOT_AS.OFFSET n), x.get (MOT_AX_SETS.HOME n), false⟩] (x.get (MOT_AX_SETS.HOME n)) false).showMotion))) ∧
  (∀ (s : State) (t : Nat) (n k : Nat) (cap : Int) (x y : State) (v : State), v = s.at_ t → (v.mx n).home.cand = some (k, cap) → v.debTicks n ≤ k → y = (v.setMx n { v.mx n with home := ⟨!(v.mx n).home.on, none⟩, homeEdges := v.edgeOf n (v.mx n).homeEdges }).putS (MOT_AS.HCAP n) cap → (x = if y.fifthEdge n (v.mx n).homeEdges = true then y.chatter n (MOT_AS.CHAT_HOME n) else y) → x.get (MOT_AS.HPHASE n) = 4 → (v.mx n).home.on = false → exec (.homeEdgeQualified t n) s = .next ((x.homeDone n cap).showMotion)) ∧
  (∀ (s : State) (t : Nat) (n k : Nat) (cap : Int) (x y : State) (v : State), v = s.at_ t → (v.mx n).home.cand = some (k, cap) → v.debTicks n ≤ k → y = (v.setMx n { v.mx n with home := ⟨!(v.mx n).home.on, none⟩, homeEdges := v.edgeOf n (v.mx n).homeEdges }).putS (MOT_AS.HCAP n) cap → (x = if y.fifthEdge n (v.mx n).homeEdges = true then y.chatter n (MOT_AS.CHAT_HOME n) else y) → ((x.get (MOT_AS.HPHASE n) = 1 ∧ (v.mx n).home.on = true) ∨ (x.get (MOT_AS.HPHASE n) = 2 ∧ (v.mx n).home.on = true) ∨ (x.get (MOT_AS.HPHASE n) = 3 ∧ (v.mx n).home.on = false) ∨ (x.get (MOT_AS.HPHASE n) = 4 ∧ (v.mx n).home.on = true) ∨ x.get (MOT_AS.HPHASE n) = 0 ∨ 4 < x.get (MOT_AS.HPHASE n)) → exec (.homeEdgeQualified t n) s = .next (x.showMotion)) ∧
  (∀ (s : State) (n : Nat) (f : Fld) (x : State), x = (s.put f 1).inc MOT_CHAT_CNT → s.chatter n f = if x.homing n = true then x.failHoming n 4 else x) ∧
  (∀ (s : State) (t : Nat) (n : Nat) (v : State), v = s.at_ t → n < 96 → v.homing n = true → v.get (MOT_AX.HOME_TMO n) ≠ 0 → msTicks (v.get (MOT_AX.HOME_TMO n)) ≤ (v.mx n).hticks → exec (.homingTimeout t n) s = .next ((v.failHoming n 3).showMotion)) ∧
  (∀ (s : State) (t : Nat) (n : Nat) (v : State), v = s.at_ t → (v.homing n = false ∨ v.get (MOT_AX.HOME_TMO n) = 0 ∨ (v.mx n).hticks < msTicks (v.get (MOT_AX.HOME_TMO n))) → exec (.homingTimeout t n) s = .next (v)) ∧
  (∀ (s : State) (t : Nat) (n : Nat) (v : State), v = s.at_ t → n < 96 → v.get (MOT_AS.MSTATE n) = 2 → (v.mx n).hold = 0 → exec (.holdMsEnd t n) s = .next ((v.standstill n 1).showMotion)) ∧
  (∀ (s : State) (t : Nat) (n : Nat) (v : State), v = s.at_ t → (v.get (MOT_AS.MSTATE n) ≠ 2 ∨ (v.mx n).hold ≠ 0) → exec (.holdMsEnd t n) s = .next (v)) ∧
  (∀ (s : State) (n r : Nat), n < 96 → r < 16 → (s.standstill n r).get (MOT_AS.MSTATE n) = 4 ∧ (s.standstill n r).get (MOT_AS.REASON n) = r ∧ ((s.standstill n r).mx n).enable = false ∧ ((s.standstill n r).mx n).short = s.stillMode n r ∧ ((s.standstill n r).mx n).queue = [] ∧ s.changesOnly (s.standstill n r) [(MOT_AS.MSTATE n).addr]) ∧
  (∀ (s : State) (n cause : Nat), n < 96 → cause < 8 → (s.failHoming n cause).get (MOT_AS.HPHASE n) = 6 ∧ (s.failHoming n cause).get (MOT_AS.HFAIL n) = cause ∧ (s.failHoming n cause).get MOT_HFAIL_CNT = (s.get MOT_HFAIL_CNT + 1) % 2 ^ 32 ∧ ∀ a, (s.failHoming n cause).byte a = s.byte a) ∧
  (∀ (s : State) (n cause : Nat), s.failHoming n cause = (((s.put (MOT_AS.HPHASE n) 6).put (MOT_AS.HFAIL n) cause).inc MOT_HFAIL_CNT).stopAxis n 9)

/-- At the feedback deadline of a lane tick whose pass has not run, outside reset and sleep, the pass is made; DOOR_PASS_CNT increments, both durations are shown, and the histogram of passes counts. A mismatch of the two instances then stops every moving axis with reason 2, clears DOOR_ILK and is LOCKOUT with reason 4. An axis in states 2 or 5 stale for FB_FAULT ticks (0 taken as 1) is FAULTED with cause 6. LOCK_TMO in state 3, not under direct control, while LRETRY is below its maximum, counts a retry for all that move together, reopens those in states 3 and 4 that are not under direct control, and increments DOOR_LRETRY_CNT; else FAULTED with cause 3. A reopen dwell that ends in state 5 is kept as ended; once all that dwell together have ended, each such axis goes on: with REOPEN it closes where closing is wanted, without it the reopening stroke to P_OPEN starts. An acceleration window past ACC_WIN ends. A stroke accepted for learning is learned point by point, counted, kept for the lifetime counts, and LEARN_BUSY shows whether another waits. Before their conditions these commands change nothing. Entering a state shows it and changes no byte of memory; FAULTED is state 9 with its cause, counted; EGRESS is 7 and ISOLATED 8. (R135, R136, R137, R139, R144, R147, R150) -/
def Obligations.DoorEvents : Prop :=
  (∀ (s : State) (t : Nat) (dur plan : Nat) (x y : State) (v : State), v = s.at_ t → v.pwr.inReset = false → v.pwr.dormant = false → v.passDue = true → x = ((v.doorPass.inc DOOR_PASS_CNT).put DOOR_PASS.DUR dur).put MOT_PLAN.DUR plan → y = x.hist OBS_H2_CNT (dur / (10 * atLeast1 (x.get OBS_HIST_CFG.BIN2))) → exec (.feedbackDeadline t false dur plan) s = .next (y)) ∧
  (∀ (s : State) (t : Nat) (dur plan : Nat) (x y : State) (v : State), v = s.at_ t → v.pwr.inReset = false → v.pwr.dormant = false → v.passDue = true → x = ((v.doorPass.inc DOOR_PASS_CNT).put DOOR_PASS.DUR dur).put MOT_PLAN.DUR plan → y = x.hist OBS_H2_CNT (dur / (10 * atLeast1 (x.get OBS_HIST_CFG.BIN2))) → exec (.feedbackDeadline t true dur plan) s = .next (((y.axes.foldl (fun s n => if (s.mx n).st.moving = true then (s.stopAxis n 2).acted n else s) y).put DOOR_ILK.ILK 0).enterLockout 4 0)) ∧
  (∀ (s : State) (t : Nat) (mismatch : Bool) (dur plan : Nat) (v : State), v = s.at_ t → (v.pwr.inReset = true ∨ v.pwr.dormant = true ∨ v.passDue = false) → exec (.feedbackDeadline t mismatch dur plan) s = .next (v)) ∧
  (∀ (s : State) (t : Nat) (n : Nat) (v : State), v = s.at_ t → v.axUsed n = true → (v.dst n = 2 ∨ v.dst n = 5) → v.flag (DOOR_AS.STALE n) = true → atLeast1 (v.get (AX_FB.FB_FAULT n)) ≤ (v.dax n).staleTicks → exec (.feedbackFaultTimeout t n) s = .next (((v.enterFault n 6).showDoor).showMotion)) ∧
  (∀ (s : State) (t : Nat) (n : Nat) (v : State), v = s.at_ t → (¬ (v.axUsed n = true ∧ (v.dst n = 2 ∨ v.dst n = 5) ∧ v.flag (DOOR_AS.STALE n) = true ∧ atLeast1 (v.get (AX_FB.FB_FAULT n)) ≤ (v.dax n).staleTicks)) → exec (.feedbackFaultTimeout t n) s = .next (v)) ∧
  (∀ (s : State) (t : Nat) (n : Nat) (v : State), v = s.at_ t → v.axUsed n = true → v.dst n = 3 → v.flag (MOT_AS.DIRECT n) = false → msTicks (v.get (AX_TIME.LOCK_TMO n)) ≤ (v.dax n).lockTicks → v.get (DOOR_AS.LRETRY n) < v.get (AX_RETRY.LOCK_RETRY_MAX n) → exec (.lockTimeout t n) s = .next (((((v.together n).foldl (State.lockRetry (v.get (DOOR_AS.LRETRY n))) v).inc DOOR_LRETRY_CNT).showDoor).showMotion)) ∧
  (∀ (s : State) (used n : Nat) (x : State), (x = ((s.put (DOOR_AS.LRETRY n) (used + 1)).lifeAdd n 1).cyc_ n (fun c => { c with retries := c.retries + 1 })) → State.lockRetry used s n = if (x.dst n = 3 ∨ x.dst n = 4) ∧ x.flag (MOT_AS.DIRECT n) = false then x.reopen n false else x) ∧
  (∀ (s : State) (t : Nat) (n : Nat) (v : State), v = s.at_ t → v.axUsed n = true → v.dst n = 3 → v.flag (MOT_AS.DIRECT n) = false → msTicks (v.get (AX_TIME.LOCK_TMO n)) ≤ (v.dax n).lockTicks → v.get (AX_RETRY.LOCK_RETRY_MAX n) ≤ v.get (DOOR_AS.LRETRY n) → exec (.lockTimeout t n) s = .next (((v.enterFault n 3).showDoor).showMotion)) ∧
  (∀ (s : State) (t : Nat) (n : Nat) (v : State), v = s.at_ t → (¬ (v.axUsed n = true ∧ v.dst n = 3 ∧ v.flag (MOT_AS.DIRECT n) = false ∧ msTicks (v.get (AX_TIME.LOCK_TMO n)) ≤ (v.dax n).lockTicks)) → exec (.lockTimeout t n) s = .next (v)) ∧
  (∀ (s : State) (t : Nat) (n k : Nat) (x : State) (v : State), v = s.at_ t → (v.dax n).dwell = some k → v.dst n = 5 → msTicks (v.get (AX_TIME.REOPEN_DWELL n)) ≤ k → x = v.setDax n { v.dax n with dwell := none, dwelt := true } → x.allDwelt n (v.flag (DOOR_AS.REOPEN n)) = true → exec (.reopenDwellEnd t n) s = .next ((((x.together n).foldl (State.dwellNext (v.flag (DOOR_AS.REOPEN n))) x).showDoor).showMotion)) ∧
  (∀ (s : State) (t : Nat) (n k : Nat) (x : State) (v : State), v = s.at_ t → (v.dax n).dwell = some k → v.dst n = 5 → msTicks (v.get (AX_TIME.REOPEN_DWELL n)) ≤ k → x = v.setDax n { v.dax n with dwell := none, dwelt := true } → x.allDwelt n (v.flag (DOOR_AS.REOPEN n)) = false → exec (.reopenDwellEnd t n) s = .next (x)) ∧
  (∀ (s : State) (t : Nat) (n k : Nat) (v : State), v = s.at_ t → (v.dax n).dwell = some k → (v.dst n ≠ 5 ∨ k < msTicks (v.get (AX_TIME.REOPEN_DWELL n))) → exec (.reopenDwellEnd t n) s = .next (v)) ∧
  (∀ (s : State) (t : Nat) (n : Nat) (v : State), v = s.at_ t → (v.dax n).dwell = none → exec (.reopenDwellEnd t n) s = .next (v)) ∧
  (∀ (s : State) (n : Nat) (re : Bool), s.dst n = 5 → s.flag (DOOR_AS.REOPEN n) = re → (s.dax n).dwelt = true → re = true → State.dwellNext re s n = if s.wantClose n = true then s.closeFully n else s) ∧
  (∀ (s : State) (n : Nat) (re : Bool), s.dst n = 5 → s.flag (DOOR_AS.REOPEN n) = re → (s.dax n).dwelt = true → re = false → State.dwellNext re s n = s.startStroke n 0 (s.getS (AX_P_OPEN.POS n)) false) ∧
  (∀ (s : State) (n : Nat) (re : Bool), (s.dst n ≠ 5 ∨ s.flag (DOOR_AS.REOPEN n) ≠ re ∨ (s.dax n).dwelt = false) → State.dwellNext re s n = s) ∧
  (∀ (s : State) (t : Nat) (n k : Nat) (v : State), v = s.at_ t → (v.dax n).acc = some k → msTicks (v.get (AX_FB.ACC_WIN n)) ≤ k → exec (.accWinEnd t n) s = .next (v.setDax n { v.dax n with acc := none })) ∧
  (∀ (s : State) (t : Nat) (n : Nat) (v : State), v = s.at_ t → (∀ k ∈ (v.dax n).acc, k < msTicks (v.get (AX_FB.ACC_WIN n))) → exec (.accWinEnd t n) s = .next (v)) ∧
  (∀ (s : State) (t : Nat) (n : Nat) (st : Stroke) (v : State), v = s.at_ t → (v.dax n).learn = some st → exec (.envelopeUpdate t n) s = .next ((let x := (st.samples.foldl (fun y p => y.learnPoint n st.dir p) v).inc DOOR_LEARN_CNT; let y := (x.setDax n { v.dax n with learn := none }).lifeAdd n 5; y.putIf DOOR_STAT.LEARN_BUSY (y.door.ax.any (fun p => p.2.learn.isSome)).toNat))) ∧
  (∀ (s : State) (t : Nat) (n : Nat) (v : State), v = s.at_ t → (v.dax n).learn = none → exec (.envelopeUpdate t n) s = .next (v)) ∧
  (∀ (s : State) (n cause : Nat), n < 96 → cause < 16 → (s.enterFault n cause).dst n = 9 ∧ (s.enterFault n cause).get (DOOR_AS.CAUSE n) = cause ∧ (s.enterFault n cause).get DOOR_FAULT_CNT = (s.get DOOR_FAULT_CNT + 1) % 2 ^ 32) ∧
  (∀ (s : State) (n : Nat), n < 96 → (s.enterEgress n).dst n = 7 ∧ (s.enterIsolated n).dst n = 8) ∧
  (∀ (s : State) (n k : Nat), n < 96 → k < 10 → (s.enter n k).dst n = k ∧ ∀ a, (s.enter n k).byte a = s.byte a)

/-- While sessions run, a TX session in RUN at its build: a silent one has no telegram and increments SAFE_SKIP_CNT, and ECN_PD_SKIP_CNT on process data; a unit error drops the telegram and is counted as below; else it builds the telegram, SEQ advances, FLAGS are shown and SAFE_TX_CNT increments. Another build changes nothing. A telegram for a session that is not an open RX one changes nothing. For an open one: wrong size, version, kind, length, session or flags increment SAFE_FMT_CNT; a unit error is counted as below; a wrong CV increments SAFE_CHK_CNT; else it is judged: a test flag not accepted counts in SAFE_TEST_CNT; with its base not synchronised, or an age outside -FUT to AGE_MAX, in SAFE_AGE_CNT; in RUN a repeated SEQ in SAFE_DUP_CNT, a first telegram resynchronises, counted, and is accepted, a SEQ more than 17 ahead counts in SAFE_SEQ_CNT, another is accepted, the gap counted; outside RUN it is accepted. Acceptance shows SEQ and STATE RUN, holds the payload, restarts the count, and increments SAFE_RX_CNT. A unit error increments SAFE_UNIT_CNT; a second within 16 ticks is LOCKOUT, reason 6. An open RX session in RUN that has counted TMO (0 taken as 1) is in LOSS, its payload dropped and delivered so, SAFE_LOSS_CNT increments; another changes nothing. A permitted write of SAFE_OPEN opens the sessions of its 1 bits and closes those of its 0 bits; without the right it traps and changes nothing else. Opening needs EN and two valid UIDs and starts TX in RUN with its first telegram to come, RX waiting with no payload; closing shows STATE 0. (R221, R227, R228, R229, R230, R231, R232, R233, R235, R237) -/
def Obligations.SafeTelegrams : Prop :=
  (∀ (s : State) (t : Nat) (n : Nat) (v : State), v = s.at_ t → n < 128 → v.safeRuns = true → v.isTx n = true → v.get (SAFE_T.STATE n) = 2 → v.safeSilent n = false → exec (.safeTxBuild t n false) s = .next ((let x := v.setSess n { v.sess n with tele := some (v.safeTelegram n).2, first := false }; ((x.add (SAFE_T.SEQ n) 1).put (SAFE_T.FLAGS n) (v.safeTelegram n).1).inc SAFE_TX_CNT))) ∧
  (∀ (s : State) (t : Nat) (n : Nat) (v : State), v = s.at_ t → n < 128 → v.safeRuns = true → v.isTx n = true → v.get (SAFE_T.STATE n) = 2 → v.safeSilent n = false → exec (.safeTxBuild t n true) s = .next ((v.setSess n { v.sess n with tele := none }).safeUnit)) ∧
  (∀ (s : State) (t : Nat) (n : Nat) (unit : Bool) (v : State), v = s.at_ t → n < 128 → v.safeRuns = true → v.isTx n = true → v.get (SAFE_T.STATE n) = 2 → v.safeSilent n = true → v.get (SAFE_S.TRANS n) ≠ 1 → Completes (.safeTxBuild t n unit) s (fun u => (u.sess n).tele = none ∧ u.get SAFE_SKIP_CNT = (v.get SAFE_SKIP_CNT + 1) % 2 ^ 32 ∧ u.get (SAFE_T.SEQ n) = v.get (SAFE_T.SEQ n) ∧ v.changesOnly u [SAFE_SKIP_CNT.addr])) ∧
  (∀ (s : State) (t : Nat) (n : Nat) (unit : Bool) (v : State), v = s.at_ t → n < 128 → v.safeRuns = true → v.isTx n = true → v.get (SAFE_T.STATE n) = 2 → v.safeSilent n = true → v.get (SAFE_S.TRANS n) = 1 → Completes (.safeTxBuild t n unit) s (fun u => (u.sess n).tele = none ∧ u.get SAFE_SKIP_CNT = (v.get SAFE_SKIP_CNT + 1) % 2 ^ 32 ∧ u.get ECN_PD_SKIP_CNT = (v.get ECN_PD_SKIP_CNT + 1) % 2 ^ 32 ∧ v.changesOnly u [SAFE_SKIP_CNT.addr, ECN_PD_SKIP_CNT.addr])) ∧
  (∀ (s : State) (t : Nat) (n : Nat) (unit : Bool) (v : State), v = s.at_ t → (128 ≤ n ∨ v.safeRuns = false ∨ v.isTx n = false ∨ v.get (SAFE_T.STATE n) ≠ 2) → exec (.safeTxBuild t n unit) s = .next (v)) ∧
  (∀ (s : State) (t : Nat) (n : Nat) (telegram : List Byte) (unit : Bool) (v : State), v = s.at_ t → v.safeRxOpen n = false → exec (.safeTelegramRx t n telegram unit) s = .next (v)) ∧
  (∀ (s : State) (t : Nat) (n : Nat) (telegram : List Byte) (unit : Bool) (v : State), v = s.at_ t → v.safeRxOpen n = true → (telegram.length ≠ 20 + v.get (SAFE_S.LEN n) ∨ beNat ((telegram.drop (0)).take 1) ≠ 1 ∨ beNat ((telegram.drop (1)).take 1) ≠ 0 ∨ beNat ((telegram.drop (2)).take 2) ≠ v.get (SAFE_S.LEN n) ∨ beNat ((telegram.drop (4 + v.get (SAFE_S.LEN n) + 8)).take 2) ≠ v.get (SAFE_S.SESSION n) ∨ 8 ≤ beNat ((telegram.drop (4 + v.get (SAFE_S.LEN n) + 10)).take 2)) → Completes (.safeTelegramRx t n telegram unit) s (fun u => u.get SAFE_FMT_CNT = (v.get SAFE_FMT_CNT + 1) % 2 ^ 32 ∧ u.safe = v.safe ∧ v.changesOnly u [SAFE_FMT_CNT.addr])) ∧
  (∀ (s : State) (t : Nat) (n : Nat) (telegram : List Byte) (v : State), v = s.at_ t → v.safeRxOpen n = true → telegram.length = 20 + v.get (SAFE_S.LEN n) → beNat ((telegram.drop (0)).take 1) = 1 → beNat ((telegram.drop (1)).take 1) = 0 → beNat ((telegram.drop (2)).take 2) = v.get (SAFE_S.LEN n) → beNat ((telegram.drop (4 + v.get (SAFE_S.LEN n) + 8)).take 2) = v.get (SAFE_S.SESSION n) → beNat ((telegram.drop (4 + v.get (SAFE_S.LEN n) + 10)).take 2) < 8 → exec (.safeTelegramRx t n telegram true) s = .next (v.safeUnit)) ∧
  (∀ (s : State) (t : Nat) (n : Nat) (telegram : List Byte) (v : State), v = s.at_ t → v.safeRxOpen n = true → telegram.length = 20 + v.get (SAFE_S.LEN n) → beNat ((telegram.drop (0)).take 1) = 1 → beNat ((telegram.drop (1)).take 1) = 0 → beNat ((telegram.drop (2)).take 2) = v.get (SAFE_S.LEN n) → beNat ((telegram.drop (4 + v.get (SAFE_S.LEN n) + 8)).take 2) = v.get (SAFE_S.SESSION n) → beNat ((telegram.drop (4 + v.get (SAFE_S.LEN n) + 10)).take 2) < 8 → telegram.drop (16 + v.get (SAFE_S.LEN n)) ≠ safeCv (v.safeIdentity n) (telegram.take (16 + v.get (SAFE_S.LEN n))) → exec (.safeTelegramRx t n telegram false) s = .next (v.inc SAFE_CHK_CNT)) ∧
  (∀ (s : State) (t : Nat) (n : Nat) (telegram : List Byte) (v : State), v = s.at_ t → v.safeRxOpen n = true → telegram.length = 20 + v.get (SAFE_S.LEN n) → beNat ((telegram.drop (0)).take 1) = 1 → beNat ((telegram.drop (1)).take 1) = 0 → beNat ((telegram.drop (2)).take 2) = v.get (SAFE_S.LEN n) → beNat ((telegram.drop (4 + v.get (SAFE_S.LEN n) + 8)).take 2) = v.get (SAFE_S.SESSION n) → beNat ((telegram.drop (4 + v.get (SAFE_S.LEN n) + 10)).take 2) < 8 → telegram.drop (16 + v.get (SAFE_S.LEN n)) = safeCv (v.safeIdentity n) (telegram.take (16 + v.get (SAFE_S.LEN n))) → exec (.safeTelegramRx t n telegram false) s = .next (v.safeJudge n (beNat ((telegram.drop (4 + v.get (SAFE_S.LEN n))).take 4)) (beNat ((telegram.drop (8 + v.get (SAFE_S.LEN n))).take 4)) (beNat ((telegram.drop (4 + v.get (SAFE_S.LEN n) + 10)).take 2)) ((telegram.drop 4).take (v.get (SAFE_S.LEN n))))) ∧
  (∀ (s : State) (n seq stamp flags : Nat) (payload : List Byte), bitOf flags 1 = true → s.flag (SAFE_S.ACCEPT_TEST n) = false → s.safeJudge n seq stamp flags payload = s.inc SAFE_TEST_CNT) ∧
  (∀ (s : State) (n seq stamp flags : Nat) (payload : List Byte), (bitOf flags 1 = false ∨ s.flag (SAFE_S.ACCEPT_TEST n) = true) → s.safeSynced n = false → s.safeJudge n seq stamp flags payload = s.inc SAFE_AGE_CNT) ∧
  (∀ (s : State) (n seq stamp flags : Nat) (payload : List Byte), (bitOf flags 1 = false ∨ s.flag (SAFE_S.ACCEPT_TEST n) = true) → s.safeSynced n = true → (toSigned 32 ((s.safeNow n + 2 ^ 32 - stamp) % 2 ^ 32) < -(s.get (SAFE_S.FUT n) : Int) ∨ (s.get (SAFE_S.AGE_MAX n) : Int) < toSigned 32 ((s.safeNow n + 2 ^ 32 - stamp) % 2 ^ 32)) → s.safeJudge n seq stamp flags payload = s.inc SAFE_AGE_CNT) ∧
  (∀ (s : State) (n seq stamp flags : Nat) (payload : List Byte), (bitOf flags 1 = false ∨ s.flag (SAFE_S.ACCEPT_TEST n) = true) → s.safeSynced n = true → -(s.get (SAFE_S.FUT n) : Int) ≤ toSigned 32 ((s.safeNow n + 2 ^ 32 - stamp) % 2 ^ 32) → toSigned 32 ((s.safeNow n + 2 ^ 32 - stamp) % 2 ^ 32) ≤ (s.get (SAFE_S.AGE_MAX n) : Int) → s.get (SAFE_T.STATE n) = 2 → (seq + 2 ^ 32 - s.get (SAFE_T.SEQ n)) % 2 ^ 32 = 0 → s.safeJudge n seq stamp flags payload = s.inc SAFE_DUP_CNT) ∧
  (∀ (s : State) (n seq stamp flags : Nat) (payload : List Byte), (bitOf flags 1 = false ∨ s.flag (SAFE_S.ACCEPT_TEST n) = true) → s.safeSynced n = true → -(s.get (SAFE_S.FUT n) : Int) ≤ toSigned 32 ((s.safeNow n + 2 ^ 32 - stamp) % 2 ^ 32) → toSigned 32 ((s.safeNow n + 2 ^ 32 - stamp) % 2 ^ 32) ≤ (s.get (SAFE_S.AGE_MAX n) : Int) → s.get (SAFE_T.STATE n) = 2 → (seq + 2 ^ 32 - s.get (SAFE_T.SEQ n)) % 2 ^ 32 ≠ 0 → bitOf flags 2 = true → s.safeJudge n seq stamp flags payload = (s.inc SAFE_RESYNC_CNT).safeAccept n seq flags (toSigned 32 ((s.safeNow n + 2 ^ 32 - stamp) % 2 ^ 32)) payload) ∧
  (∀ (s : State) (n seq stamp flags : Nat) (payload : List Byte), (bitOf flags 1 = false ∨ s.flag (SAFE_S.ACCEPT_TEST n) = true) → s.safeSynced n = true → -(s.get (SAFE_S.FUT n) : Int) ≤ toSigned 32 ((s.safeNow n + 2 ^ 32 - stamp) % 2 ^ 32) → toSigned 32 ((s.safeNow n + 2 ^ 32 - stamp) % 2 ^ 32) ≤ (s.get (SAFE_S.AGE_MAX n) : Int) → s.get (SAFE_T.STATE n) = 2 → 17 < (seq + 2 ^ 32 - s.get (SAFE_T.SEQ n)) % 2 ^ 32 → bitOf flags 2 = false → s.safeJudge n seq stamp flags payload = s.inc SAFE_SEQ_CNT) ∧
  (∀ (s : State) (n seq stamp flags : Nat) (payload : List Byte), (bitOf flags 1 = false ∨ s.flag (SAFE_S.ACCEPT_TEST n) = true) → s.safeSynced n = true → -(s.get (SAFE_S.FUT n) : Int) ≤ toSigned 32 ((s.safeNow n + 2 ^ 32 - stamp) % 2 ^ 32) → toSigned 32 ((s.safeNow n + 2 ^ 32 - stamp) % 2 ^ 32) ≤ (s.get (SAFE_S.AGE_MAX n) : Int) → s.get (SAFE_T.STATE n) = 2 → (seq + 2 ^ 32 - s.get (SAFE_T.SEQ n)) % 2 ^ 32 ≠ 0 → (seq + 2 ^ 32 - s.get (SAFE_T.SEQ n)) % 2 ^ 32 ≤ 17 → bitOf flags 2 = false → s.safeJudge n seq stamp flags payload = (s.add SAFE_GAP_CNT ((seq + 2 ^ 32 - s.get (SAFE_T.SEQ n)) % 2 ^ 32 - 1)).safeAccept n seq flags (toSigned 32 ((s.safeNow n + 2 ^ 32 - stamp) % 2 ^ 32)) payload) ∧
  (∀ (s : State) (n seq stamp flags : Nat) (payload : List Byte), (bitOf flags 1 = false ∨ s.flag (SAFE_S.ACCEPT_TEST n) = true) → s.safeSynced n = true → -(s.get (SAFE_S.FUT n) : Int) ≤ toSigned 32 ((s.safeNow n + 2 ^ 32 - stamp) % 2 ^ 32) → toSigned 32 ((s.safeNow n + 2 ^ 32 - stamp) % 2 ^ 32) ≤ (s.get (SAFE_S.AGE_MAX n) : Int) → s.get (SAFE_T.STATE n) ≠ 2 → s.safeJudge n seq stamp flags payload = s.safeAccept n seq flags (toSigned 32 ((s.safeNow n + 2 ^ 32 - stamp) % 2 ^ 32)) payload) ∧
  (∀ (s : State) (n seq flags : Nat) (age : Int) (payload : List Byte), n < 128 → s.isTx n = false → seq < 2 ^ 32 → s.get (SAFE_T.STATE n) = 2 → flags < 8 → (s.safeAccept n seq flags age payload).get (SAFE_T.SEQ n) = seq ∧ (s.safeAccept n seq flags age payload).get (SAFE_T.STATE n) = 2 ∧ ((s.safeAccept n seq flags age payload).sess n).payload = payload ∧ ((s.safeAccept n seq flags age payload).sess n).count = 0 ∧ (s.safeAccept n seq flags age payload).get SAFE_RX_CNT = (s.get SAFE_RX_CNT + 1) % 2 ^ 32) ∧
  (∀ (s : State) (k : Nat), s.safe.unitTicks = some k → k ≤ 16 → s.safeUnit = ((({ s with safe := { s.safe with unitTicks := some 0 } } : State).inc SAFE_UNIT_CNT).put SAFE_STAT.UNIT 1).enterLockout 6 0) ∧
  (∀ (s : State), (∀ k ∈ s.safe.unitTicks, 16 < k) → s.safeUnit = ({ s with safe := { s.safe with unitTicks := some 0 } } : State).inc SAFE_UNIT_CNT) ∧
  (∀ (s : State) (t : Nat) (n : Nat) (v : State), v = s.at_ t → n < 128 → v.safeRxOpen n = true → v.get (SAFE_T.STATE n) = 2 → atLeast1 (v.get (SAFE_S.TMO n)) ≤ (v.sess n).count → Completes (.safeRxTimeout t n) s (fun u => u.get (SAFE_T.STATE n) = 3 ∧ (u.sess n).payload = [] ∧ u.get SAFE_LOSS_CNT = (v.get SAFE_LOSS_CNT + 1) % 2 ^ 32)) ∧
  (∀ (s : State) (t : Nat) (n : Nat) (v : State), v = s.at_ t → v.safeRxOpen n = true → v.get (SAFE_T.STATE n) = 2 → atLeast1 (v.get (SAFE_S.TMO n)) ≤ (v.sess n).count → exec (.safeRxTimeout t n) s = .next ((((((v.put (SAFE_T.STATE n) 3).setSess n { v.sess n with payload := [] }).safeDeliver n).safeCount).inc SAFE_LOSS_CNT))) ∧
  (∀ (s : State) (t : Nat) (n : Nat) (v : State), v = s.at_ t → (v.safeRxOpen n = false ∨ v.get (SAFE_T.STATE n) ≠ 2 ∨ (v.sess n).count < atLeast1 (v.get (SAFE_S.TMO n))) → exec (.safeRxTimeout t n) s = .next (v)) ∧
  (∀ (s : State) (t : Nat) (who : Initiator) (n : BitVec 7) (v : State), v = s.at_ t → v.acts who = true → mayWrite who 9 = true → exec (.sessionOpen t who n) s = .next ((v.consume who 9).applyOpen (n.toNat / 32) (setBit ((v.get (SAFE_OPEN.OPEN (n.toNat / 32)))) (n.toNat % 32) true))) ∧
  (∀ (s : State) (t : Nat) (who : Initiator) (n : BitVec 7) (v : State), v = s.at_ t → v.acts who = true → who.isService = true → Completes (.sessionOpen t who n) s (fun u => SMap.find u.traps who.idx = some ⟨true, (SAFE_OPEN.OPEN (n.toNat / 32)).addr⟩ ∧ u.safe = v.safe ∧ v.changesOnly u [])) ∧
  (∀ (s : State) (t : Nat) (who : Initiator) (n : BitVec 7) (v : State), v = s.at_ t → v.acts who = true → mayWrite who 9 = true → exec (.sessionClose t who n) s = .next ((v.consume who 9).applyOpen (n.toNat / 32) (setBit ((v.get (SAFE_OPEN.OPEN (n.toNat / 32)))) (n.toNat % 32) false))) ∧
  (∀ (s : State) (t : Nat) (who : Initiator) (n : BitVec 7) (v : State), v = s.at_ t → v.acts who = true → who.isService = true → Completes (.sessionClose t who n) s (fun u => SMap.find u.traps who.idx = some ⟨true, (SAFE_OPEN.OPEN (n.toNat / 32)).addr⟩ ∧ u.safe = v.safe ∧ v.changesOnly u [])) ∧
  (∀ (s : State) (m w : Nat), s.applyOpen m w = ((List.range 32).foldl (fun (x : State) k => if bitOf w k = true then x.openSess (32 * m + k) else x.closeSess (32 * m + k)) s).safeCount) ∧
  (∀ (s : State) (n : Nat), s.sessOpen n = false → s.flag (SAFE_S.EN n) = true → uidValid (s.ownUid n) = true → uidValid (s.get (SAFE_S.PEER_UID n)) = true → s.isTx n = true → s.openSess n = ((s.putBit (SAFE_OPEN.OPEN (n / 32)) (n % 32) true).put (SAFE_T.STATE n) 2).setSess n { (s.putBit (SAFE_OPEN.OPEN (n / 32)) (n % 32) true).sess n with first := true }) ∧
  (∀ (s : State) (n : Nat), s.sessOpen n = false → s.flag (SAFE_S.EN n) = true → uidValid (s.ownUid n) = true → uidValid (s.get (SAFE_S.PEER_UID n)) = true → s.isTx n = false → s.openSess n = (((s.putBit (SAFE_OPEN.OPEN (n / 32)) (n % 32) true).put (SAFE_T.STATE n) 1).setSess n { (s.putBit (SAFE_OPEN.OPEN (n / 32)) (n % 32) true).sess n with payload := [], count := 0 }).safeDeliver n) ∧
  (∀ (s : State) (n : Nat), (s.sessOpen n = true ∨ s.flag (SAFE_S.EN n) = false ∨ uidValid (s.ownUid n) = false ∨ uidValid (s.get (SAFE_S.PEER_UID n)) = false) → s.openSess n = s) ∧
  (∀ (s : State) (n : Nat), s.sessOpen n = true → s.isTx n = true → s.closeSess n = ((s.putBit (SAFE_OPEN.OPEN (n / 32)) (n % 32) false).put (SAFE_T.STATE n) 0).setSess n { ((s.putBit (SAFE_OPEN.OPEN (n / 32)) (n % 32) false).put (SAFE_T.STATE n) 0).sess n with tele := none }) ∧
  (∀ (s : State) (n : Nat), s.sessOpen n = true → s.isTx n = false → s.closeSess n = (((s.putBit (SAFE_OPEN.OPEN (n / 32)) (n % 32) false).put (SAFE_T.STATE n) 0).setSess n { ((s.putBit (SAFE_OPEN.OPEN (n / 32)) (n % 32) false).put (SAFE_T.STATE n) 0).sess n with payload := [] }).safeDeliver n) ∧
  (∀ (s : State) (n : Nat), s.sessOpen n = false → s.closeSess n = s)

/-- In BOOT, outside reset and sleep, not stopped, with the recorder READY and no slot code read yet, a chain with no valid copy of the supervisor firmware stops for good. Otherwise the lamp test starts and a slot is selected: the other one than the preferred as a trial, else the preferred one, else the other one, which then becomes preferred; with none usable it is LOCKOUT with reason 8 and the chain ends. With a slot selected the code is read: three readings that agree and are not 15, of a code the personality table holds, load its words and complete the boot; any other holds BOOT with the last reading and its time, and is read again after a second. At other times neither command changes anything. The start-up scan of a recorder that is not READY, outside reset and sleep, makes it READY, and a reset that waited for it follows; at other times it changes nothing. The lamp test ends after its second and not before. (R426, R428, R464, R475, R480, R481) -/
def Obligations.BootChain : Prop :=
  (∀ (s : State) (t : Nat) (fw0 fw1 : SigCheck) (imgA imgB : SlotImage) (sup : Nat) (r0 r1 r2 : BitVec 4) (v : State), v = s.at_ t → (¬ (v.get SYS_STAT.MODE = 0 ∧ v.pwr.inReset = false ∧ v.pwr.dormant = false ∧ v.boot.stopped = false ∧ v.boot.noSlot = none ∧ v.flag REC_STAT.READY = true)) → exec (.bootChain t fw0 fw1 imgA imgB sup r0 r1 r2) s = .next (v)) ∧
  (∀ (s : State) (t : Nat) (fw0 fw1 : SigCheck) (imgA imgB : SlotImage) (sup : Nat) (r0 r1 r2 : BitVec 4) (v : State), v = s.at_ t → v.get SYS_STAT.MODE = 0 → v.pwr.inReset = false → v.pwr.dormant = false → v.boot.stopped = false → v.boot.noSlot = none → v.flag REC_STAT.READY = true → v.imageValid (v.supFirmware 0) 1 fw0 = false → v.imageValid (v.supFirmware 1) 1 fw1 = false → exec (.bootChain t fw0 fw1 imgA imgB sup r0 r1 r2) s = .next ({ v with boot := { v.boot with stopped := true, noFw := true } })) ∧
  (∀ (s : State) (t : Nat) (fw0 fw1 : SigCheck) (imgA imgB : SlotImage) (sup : Nat) (r0 r1 r2 : BitVec 4) (v : State), v = s.at_ t → v.get SYS_STAT.MODE = 0 → v.pwr.inReset = false → v.pwr.dormant = false → v.boot.stopped = false → v.boot.noSlot = none → v.flag REC_STAT.READY = true → (v.imageValid (v.supFirmware 0) 1 fw0 = true ∨ v.imageValid (v.supFirmware 1) 1 fw1 = true) → ((({ v with boot := { v.boot with lamp := some v.localNow } } : State).selectSlot (fun n => if n = 0 then imgA else imgB) sup).2 = true) → exec (.bootChain t fw0 fw1 imgA imgB sup r0 r1 r2) s = .next ((({ v with boot := { v.boot with lamp := some v.localNow } } : State).selectSlot (fun n => if n = 0 then imgA else imgB) sup).1.readSlots r0 r1 r2)) ∧
  (∀ (s : State) (t : Nat) (fw0 fw1 : SigCheck) (imgA imgB : SlotImage) (sup : Nat) (r0 r1 r2 : BitVec 4) (v : State), v = s.at_ t → v.get SYS_STAT.MODE = 0 → v.pwr.inReset = false → v.pwr.dormant = false → v.boot.stopped = false → v.boot.noSlot = none → v.flag REC_STAT.READY = true → (v.imageValid (v.supFirmware 0) 1 fw0 = true ∨ v.imageValid (v.supFirmware 1) 1 fw1 = true) → ((({ v with boot := { v.boot with lamp := some v.localNow } } : State).selectSlot (fun n => if n = 0 then imgA else imgB) sup).2 = false) → exec (.bootChain t fw0 fw1 imgA imgB sup r0 r1 r2) s = .next ((({ v with boot := { v.boot with lamp := some v.localNow } } : State).selectSlot (fun n => if n = 0 then imgA else imgB) sup).1)) ∧
  (∀ (s : State) (img : Nat → SlotImage) (sup p : Nat), p = s.table.preferred → (s.trySlot (1 - p) (img (1 - p)) sup).2 = true → s.selectSlot img sup = ((s.trySlot (1 - p) (img (1 - p)) sup).1, true)) ∧
  (∀ (s : State) (img : Nat → SlotImage) (sup p : Nat), p = s.table.preferred → (s.trySlot (1 - p) (img (1 - p)) sup).2 = false → ((s.trySlot (1 - p) (img (1 - p)) sup).1.goodSlot p (img p) sup).2 = true → s.selectSlot img sup = (((s.trySlot (1 - p) (img (1 - p)) sup).1.goodSlot p (img p) sup).1, true)) ∧
  (∀ (s : State) (img : Nat → SlotImage) (sup p : Nat), p = s.table.preferred → (s.trySlot (1 - p) (img (1 - p)) sup).2 = false → ((s.trySlot (1 - p) (img (1 - p)) sup).1.goodSlot p (img p) sup).2 = false → (((s.trySlot (1 - p) (img (1 - p)) sup).1.goodSlot p (img p) sup).1.goodSlot (1 - p) (img (1 - p)) sup).2 = true → s.selectSlot img sup = ((((s.trySlot (1 - p) (img (1 - p)) sup).1.goodSlot p (img p) sup).1.goodSlot (1 - p) (img (1 - p)) sup).1.writeTable { (((s.trySlot (1 - p) (img (1 - p)) sup).1.goodSlot p (img p) sup).1.goodSlot (1 - p) (img (1 - p)) sup).1.table with preferred := 1 - p }, true)) ∧
  (∀ (s : State) (img : Nat → SlotImage) (sup p : Nat), p = s.table.preferred → (s.trySlot (1 - p) (img (1 - p)) sup).2 = false → ((s.trySlot (1 - p) (img (1 - p)) sup).1.goodSlot p (img p) sup).2 = false → (((s.trySlot (1 - p) (img (1 - p)) sup).1.goodSlot p (img p) sup).1.goodSlot (1 - p) (img (1 - p)) sup).2 = false → s.selectSlot img sup = ((((s.trySlot (1 - p) (img (1 - p)) sup).1.goodSlot p (img p) sup).1.goodSlot (1 - p) (img (1 - p)) sup).1.enterLockout 8 0, false)) ∧
  (∀ (s : State) (t : Nat) (r0 r1 r2 : BitVec 4) (k x : Nat) (v : State), v = s.at_ t → v.boot.noSlot = some (k, x) → v.get SYS_STAT.MODE = 0 → v.boot.stopped = false → x + 1000000000 ≤ v.localNow → exec (.slotIdRetry t r0 r1 r2) s = .next (v.readSlots r0 r1 r2)) ∧
  (∀ (s : State) (t : Nat) (r0 r1 r2 : BitVec 4) (v : State), v = s.at_ t → (v.get SYS_STAT.MODE ≠ 0 ∨ v.boot.stopped = true ∨ ∀ y ∈ v.boot.noSlot, v.localNow < y.2 + 1000000000) → exec (.slotIdRetry t r0 r1 r2) s = .next (v)) ∧
  (∀ (s : State) (r0 r1 r2 : BitVec 4), (r0 ≠ r1 ∨ r1 ≠ r2 ∨ r0 = 15 ∨ s.boot.personalities.find? (fun p => p.1 == r0.toNat) = none) → s.readSlots r0 r1 r2 = { s with boot := { s.boot with noSlot := some (r2.toNat, s.localNow) } }) ∧
  (∀ (s : State) (r : BitVec 4) (words : List (Nat × BitVec 32)), r ≠ 15 → ((s.boot.personalities.find? (fun p => p.1 == r.toNat)) = some (r.toNat, words)) → s.readSlots r r r = s.completeBoot words) ∧
  (∀ (s : State) (t : Nat) (v : State), v = s.at_ t → v.flag REC_STAT.READY = false → v.pwr.inReset = false → v.pwr.dormant = false → exec (.startScanDone t) s = .next (v.startScan.waitingReset)) ∧
  (∀ (s : State) (t : Nat) (v : State), v = s.at_ t → (¬ (v.flag REC_STAT.READY = false ∧ v.pwr.inReset = false ∧ v.pwr.dormant = false)) → exec (.startScanDone t) s = .next (v)) ∧
  (∀ (s : State), s.startScan.flag REC_STAT.READY = true) ∧
  (∀ (s : State) (t : Nat) (x : Nat) (v : State), v = s.at_ t → v.boot.lamp = some x → x + 1000000000 ≤ v.localNow → exec (.lampTestEnd t) s = .next ({ v with boot := { v.boot with lamp := none } })) ∧
  (∀ (s : State) (t : Nat) (v : State), v = s.at_ t → (∀ x ∈ v.boot.lamp, v.localNow < x + 1000000000) → exec (.lampTestEnd t) s = .next (v))

/-- A release edge that waits, in LOCKOUT with the channel enabled, is taken: with a high phase of 800 to 80,000 ticks and a reason of 2 to 6 selected by EDGE it is recorded and is a reset with sub-cause 1; another increments UPD_CMD_REJ_CNT, the one word that changes. Outside BOOT, ENV_SAVE periods of 600 s (at most 144) after the last one, the save falls due: with learning advanced the envelopes are saved, else only the time is kept. The consist activation of ACT 2, not deferred and no reset waiting, takes place once CONSIST has reached UPD_ACT_AT; without synchronisation it is cancelled. A deferral, not yet in its swap, of DEFER_S times 100 s (0 taken as 1) is cancelled. A confirmation of any initiator but the boot supervisor, with the unlock of block 0x14, gives it up; in a trial with no reset waiting a VITAL one by the Tricycle, once CLEAN has reached CLEAN_CYC (0 taken as 1), and a SERVICE one by a service core set their CONF bits and, with all required bits, confirm; any other increments UPD_CONF_REJ_CNT. Without the unlock REGG_DENY_CNT increments; by the boot supervisor it traps. The confirm window that ends in a trial outside BOOT reverts it. Otherwise these commands change nothing. (R423, R430, R437, R440, R442, R443) -/
def Obligations.UpdateEvents : Prop :=
  (∀ (s : State) (t : Nat) (high r : Nat) (v : State), v = s.at_ t → v.boot.release.release = some high → v.get SYS_STAT.MODE = 4 → v.flag UPD_LOCKRST.CH_EN = true → 800 ≤ high → high ≤ 80000 → r = v.get SYS_STAT.LREASON → 2 ≤ r → r ≤ 6 → bitOf (v.get UPD_LOCKRST.EDGE) r = true → exec (.lockoutEdgeRelease t) s = .next ((({ v with boot := { v.boot with release := { v.boot.release with release := none } } } : State).record 0x12 0 (leBytes 1 r ++ leBytes 1 (v.get UPD_LOCKRST.CH))).ownReset 1)) ∧
  (∀ (s : State) (t : Nat) (high : Nat) (v : State), v = s.at_ t → v.boot.release.release = some high → v.get SYS_STAT.MODE = 4 → v.flag UPD_LOCKRST.CH_EN = true → (high < 800 ∨ 80000 < high ∨ v.get SYS_STAT.LREASON < 2 ∨ 6 < v.get SYS_STAT.LREASON ∨ bitOf (v.get UPD_LOCKRST.EDGE) (v.get SYS_STAT.LREASON) = false) → Completes (.lockoutEdgeRelease t) s (fun u => u.boot.release.release = none ∧ u.get UPD_CMD_REJ_CNT = (v.get UPD_CMD_REJ_CNT + 1) % 2 ^ 32 ∧ v.changesOnly u [UPD_CMD_REJ_CNT.addr])) ∧
  (∀ (s : State) (t : Nat) (v : State), v = s.at_ t → (v.boot.release.release = none ∨ v.get SYS_STAT.MODE ≠ 4 ∨ v.flag UPD_LOCKRST.CH_EN = false) → exec (.lockoutEdgeRelease t) s = .next (v)) ∧
  (∀ (s : State) (t : Nat) (v : State), v = s.at_ t → 1 ≤ v.get UPD_CFG2.ENV_SAVE → v.get SYS_STAT.MODE ≠ 0 → v.boot.saveAt + min 144 (v.get UPD_CFG2.ENV_SAVE) * 600000000000 ≤ v.localNow → v.get DOOR_LEARN_CNT ≠ v.boot.savedLearn → exec (.envelopeSaveDue t) s = .next (({ v with boot := { v.boot with saveAt := v.localNow } } : State).saveEnvelopes)) ∧
  (∀ (s : State) (t : Nat) (v : State), v = s.at_ t → 1 ≤ v.get UPD_CFG2.ENV_SAVE → v.get SYS_STAT.MODE ≠ 0 → v.boot.saveAt + min 144 (v.get UPD_CFG2.ENV_SAVE) * 600000000000 ≤ v.localNow → v.get DOOR_LEARN_CNT = v.boot.savedLearn → exec (.envelopeSaveDue t) s = .next ({ v with boot := { v.boot with saveAt := v.localNow } })) ∧
  (∀ (s : State) (t : Nat) (v : State), v = s.at_ t → (v.get UPD_CFG2.ENV_SAVE = 0 ∨ v.get SYS_STAT.MODE = 0 ∨ v.localNow < v.boot.saveAt + min 144 (v.get UPD_CFG2.ENV_SAVE) * 600000000000) → exec (.envelopeSaveDue t) s = .next (v)) ∧
  (∀ (s : State) (t : Nat) (v : State), v = s.at_ t → v.get UPD_STAT.ACT = 2 → v.flag UPD_STAT.DEFER = false → v.boot.resetWait = none → v.get UPD_ACT_AT.AT ≤ v.consNow → v.flag TIME_STAT.CONS_SYNC = true → exec (.consistActivation t) s = .next (v.activateAt v.claiming)) ∧
  (∀ (s : State) (t : Nat) (v : State), v = s.at_ t → v.get UPD_STAT.ACT = 2 → v.flag UPD_STAT.DEFER = false → v.boot.resetWait = none → v.get UPD_ACT_AT.AT ≤ v.consNow → v.flag TIME_STAT.CONS_SYNC = false → exec (.consistActivation t) s = .next (v.cancelActivation)) ∧
  (∀ (s : State) (t : Nat) (v : State), v = s.at_ t → (v.get UPD_STAT.ACT ≠ 2 ∨ v.flag UPD_STAT.DEFER = true ∨ v.boot.resetWait ≠ none ∨ v.consNow < v.get UPD_ACT_AT.AT) → exec (.consistActivation t) s = .next (v)) ∧
  (∀ (s : State) (t : Nat) (v : State), v = s.at_ t → v.flag UPD_STAT.DEFER = true → v.boot.deferSwap = false → v.boot.deferAt + atLeast1 (v.get UPD_CFG2.DEFER_S) * 100000000000 ≤ v.localNow → exec (.deferTimeout t) s = .next (v.cancelActivation)) ∧
  (∀ (s : State) (t : Nat) (v : State), v = s.at_ t → (¬ (v.flag UPD_STAT.DEFER = true ∧ v.boot.deferSwap = false ∧ v.boot.deferAt + atLeast1 (v.get UPD_CFG2.DEFER_S) * 100000000000 ≤ v.localNow)) → exec (.deferTimeout t) s = .next (v)) ∧
  (∀ (s : State) (t : Nat) (v : State), v = s.at_ t → v.unlocked .tri 0x14 = true → (v.dropUnlock .tri).flag UPD_STAT.TRIAL = true → atLeast1 ((v.dropUnlock .tri).get UPD_CFG2.CLEAN_CYC) ≤ (v.dropUnlock .tri).get UPD_CLEAN.CLEAN → v.boot.resetWait = none → exec (.vital t .tri) s = .next ((let x := (v.dropUnlock .tri).put UPD_STAT.CONF ((v.dropUnlock .tri).get UPD_STAT.CONF ||| 1); if x.get UPD_STAT.CONF &&& x.confReq == x.confReq then x.confirm else x))) ∧
  (∀ (s : State) (t : Nat) (who : Initiator) (v : State), v = s.at_ t → v.acts who = true → who.isService = true → v.unlocked who 0x14 = true → (v.dropUnlock who).flag UPD_STAT.TRIAL = true → v.boot.resetWait = none → exec (.service t who) s = .next ((let x := (v.dropUnlock who).put UPD_STAT.CONF ((v.dropUnlock who).get UPD_STAT.CONF ||| 2); if x.get UPD_STAT.CONF &&& x.confReq == x.confReq then x.confirm else x))) ∧
  (∀ (s : State) (t : Nat) (v : State), v = s.at_ t → v.unlocked .tri 0x14 = true → ((v.dropUnlock .tri).flag UPD_STAT.TRIAL = false ∨ (v.dropUnlock .tri).get UPD_CLEAN.CLEAN < atLeast1 ((v.dropUnlock .tri).get UPD_CFG2.CLEAN_CYC) ∨ v.boot.resetWait ≠ none) → exec (.vital t .tri) s = .next ((v.dropUnlock .tri).inc UPD_CONF_REJ_CNT)) ∧
  (∀ (s : State) (t : Nat) (who : Initiator) (v : State), v = s.at_ t → v.acts who = true → who.isService = true → v.unlocked who 0x14 = true → ((v.dropUnlock who).flag UPD_STAT.TRIAL = false ∨ v.boot.resetWait ≠ none) → exec (.service t who) s = .next ((v.dropUnlock who).inc UPD_CONF_REJ_CNT)) ∧
  (∀ (s : State) (t : Nat) (who : Initiator) (v : State), v = s.at_ t → v.acts who = true → who.isService = true → v.unlocked who 0x14 = true → exec (.vital t who) s = .next ((v.dropUnlock who).inc UPD_CONF_REJ_CNT)) ∧
  (∀ (s : State) (t : Nat) (v : State), v = s.at_ t → v.unlocked .tri 0x14 = true → exec (.service t .tri) s = .next ((v.dropUnlock .tri).inc UPD_CONF_REJ_CNT)) ∧
  (∀ (s : State) (t : Nat) (v : State), v = s.at_ t → v.acts .s0 = true → v.unlocked .s0 0x14 = true → Completes (.vital t .s0) s (fun u => u.get UPD_CONF_REJ_CNT = (v.get UPD_CONF_REJ_CNT + 1) % 2 ^ 32 ∧ u.boot = v.boot ∧ v.changesOnly u [REGG_STAT.UNLOCK_HELD.addr, UPD_CONF_REJ_CNT.addr])) ∧
  (∀ (s : State) (t : Nat) (who : Initiator) (v : State), v = s.at_ t → v.acts who = true → who ≠ .boot → v.unlocked who 0x14 = false → exec (.vital t who) s = .next (v.inc REGG_DENY_CNT)) ∧
  (∀ (s : State) (t : Nat) (v : State), v = s.at_ t → exec (.vital t .boot) s = .next (v.trap .boot true UPD_CONFIRM.VITAL.addr)) ∧
  (∀ (s : State) (t : Nat) (who : Initiator) (v : State), v = s.at_ t → v.acts who = true → who ≠ .boot → v.unlocked who 0x14 = false → exec (.service t who) s = .next (v.inc REGG_DENY_CNT)) ∧
  (∀ (s : State) (t : Nat) (v : State), v = s.at_ t → exec (.service t .boot) s = .next (v.trap .boot true UPD_CONFIRM.VITAL.addr)) ∧
  (∀ (s : State) (t : Nat) (v : State), v = s.at_ t → v.flag UPD_STAT.TRIAL = true → v.get SYS_STAT.MODE ≠ 0 → v.boot.exitAt + v.confWin * 1000000000 ≤ v.localNow → exec (.confirmWindowEnd t) s = .next (v.revertTrial)) ∧
  (∀ (s : State) (t : Nat) (v : State), v = s.at_ t → (¬ (v.flag UPD_STAT.TRIAL = true ∧ v.get SYS_STAT.MODE ≠ 0 ∧ v.boot.exitAt + v.confWin * 1000000000 ≤ v.localNow)) → exec (.confirmWindowEnd t) s = .next (v))

/-- While the service cluster is not up, none of these requests changes anything. While it is up, INFO is answered with serial number, mode, running image, versions and slot states; CHALLENGE with a fresh nonce, a free value of the model, kept with its time. A LOGIN of 16,680 bytes that meets the fields, scope, times, nonce and an authority is accepted, no session being open: it opens the session with its roles, uses the nonce up, shows SESSION and ROLES, increments UPD_TOKEN_CNT and is answered 0; another increments UPD_TOKEN_REJ_CNT and is answered 1; each is recorded with token, roles, address and port. A DOWNLOAD of at most 61,440 bytes from the address and port of the session, with role UPDATE, goes into the staging area, touches the session and is answered 0; another is answered 1 and changes no staging byte. READ of a partition that exists, 1 to 16 slots, from a slot within it or from the oldest, answers the slots found with their bytes and reads each through the read buffer, none where nothing is held or the start is NEXT of a ring not full; another is answered 1. LOGOUT from the session ends it, answered 0; another is answered 1. NOT_AFTER or 600 s without a command end the session; else it stays. Its end clears SESSION and ROLES and changes no other word. A service core that writes UPD_REQ gives up its unlock of block 0x14; with no request waiting its block of 64 bytes is taken and REQ_BUSY set; one not from the session is answered 1, a code outside 1 to 0x10 then 2, both at once; with one waiting UPD_CMD_REJ_CNT increments. By another initiator the write traps. (R421, R444, R445, R446, R448, R466) -/
def Obligations.ServiceRequests : Prop :=
  (∀ (s : State) (t : Nat) (v : State), v = s.at_ t → v.serviceUp = false → exec (.info t) s = .next (v)) ∧
  (∀ (s : State) (t : Nat) (v : State), v = s.at_ t → v.serviceUp = false → exec (.challenge t) s = .next (v)) ∧
  (∀ (s : State) (t : Nat) (tok : List Byte) (len rsaBy slhBy : Nat) (addr : BitVec 32) (port : BitVec 16) (v : State), v = s.at_ t → v.serviceUp = false → exec (.login t tok len rsaBy slhBy addr port) s = .next (v)) ∧
  (∀ (s : State) (t : Nat) (addr : BitVec 32) (port : BitVec 16) (offset : BitVec 32) (data : List Byte) (v : State), v = s.at_ t → v.serviceUp = false → exec (.download t addr port offset data) s = .next (v)) ∧
  (∀ (s : State) (t : Nat) (part : BitVec 8) (first : BitVec 32) (count : BitVec 8) (v : State), v = s.at_ t → v.serviceUp = false → exec (.read t part first count) s = .next (v)) ∧
  (∀ (s : State) (t : Nat) (addr : BitVec 32) (port : BitVec 16) (v : State), v = s.at_ t → v.serviceUp = false → exec (.logout t addr port) s = .next (v)) ∧
  (∀ (s : State) (t : Nat) (who : Initiator) (addr src : BitVec 32) (port : BitVec 16) (v : State), v = s.at_ t → v.acts who = false → exec (.updReqWrite t who addr src port) s = .next (v)) ∧
  (∀ (s : State) (t : Nat) (v : State), v = s.at_ t → v.serviceUp = true → exec (.info t) s = .next ({ v with boot := { v.boot with reply := some (12580, [v.get TWIN_SERIAL.SERIAL, v.get SYS_STAT.MODE, v.get UPD_RUN_ID.ID, (v.word UPD_VER.ORCH_MIN.addr).toNat, (v.table.slot 0).state, (v.table.slot 1).state]) } })) ∧
  (∀ (s : State) (t : Nat) (v : State), v = s.at_ t → v.serviceUp = true → exec (.challenge t) s = .next ({ v with freeN := v.freeN + 1, boot := { v.boot with nonce := some (Config.nonce v.freeN, v.localNow), reply := some (12581, [(Config.nonce v.freeN).toNat]) } })) ∧
  (∀ (s : State) (t : Nat) (tok : List Byte) (len rsaBy slhBy : Nat) (addr : BitVec 32) (port : BitVec 16) (v : State), v = s.at_ t → v.serviceUp = true → v.loginOk tok len rsaBy slhBy = false → exec (.login t tok len rsaBy slhBy addr port) s = .next (((v.record 0x10 1 (leBytes 8 (tokenField tok 0x38 8) ++ leBytes 2 (tokenField tok 6 2) ++ leBytes 2 0 ++ leBytes 4 addr.toNat ++ leBytes 2 port.toNat)).inc UPD_TOKEN_REJ_CNT).svcReply 12482 [1])) ∧
  (∀ (s : State) (t : Nat) (tok : List Byte) (len rsaBy slhBy : Nat) (addr : BitVec 32) (port : BitVec 16) (v : State), v = s.at_ t → v.serviceUp = true → v.loginOk tok len rsaBy slhBy = true → exec (.login t tok len rsaBy slhBy addr port) s = .next ((let y : State := { (v.record 0x10 0 (leBytes 8 (tokenField tok 0x38 8) ++ leBytes 2 (tokenField tok 6 2) ++ leBytes 2 0 ++ leBytes 4 addr.toNat ++ leBytes 2 port.toNat)) with boot := { (v.record 0x10 0 (leBytes 8 (tokenField tok 0x38 8) ++ leBytes 2 (tokenField tok 6 2) ++ leBytes 2 0 ++ leBytes 4 addr.toNat ++ leBytes 2 port.toNat)).boot with session := some ⟨tokenField tok 6 2 % 32, tokenField tok 0x20 8, tokenField tok 0x38 8, addr.toNat, port.toNat, (v.record 0x10 0 (leBytes 8 (tokenField tok 0x38 8) ++ leBytes 2 (tokenField tok 6 2) ++ leBytes 2 0 ++ leBytes 4 addr.toNat ++ leBytes 2 port.toNat)).localNow⟩, nonce := none } }; ((((y.put UPD_STAT.SESSION 1).put UPD_STAT.ROLES (tokenField tok 6 2)).inc UPD_TOKEN_CNT).svcReply 12482 [0])))) ∧
  (∀ (s : State) (tok : List Byte) (len rsaBy slhBy : Nat), s.loginOk tok len rsaBy slhBy = true ↔ (len = 16680 ∧ s.boot.authorities[tokenField tok 0x40 1]? = some (rsaBy, slhBy) ∧ tokenField tok 0 4 = 0xEA483070 ∧ tokenField tok 4 2 = 1 ∧ tokenField tok 0x14 4 = 0 ∧ tokenField tok 0x40 1 < 4 ∧ tokenField tok 0x41 7 = 0 ∧ ((tokenField tok 8 8 ≠ 0 ∧ tokenField tok 8 8 = s.get TWIN_SERIAL.SERIAL) ∨ (tokenField tok 8 8 = 0 ∧ tokenField tok 0x10 4 % 2 ^ 24 = s.get SAFE_PUID.UID)) ∧ tokenField tok 0x18 8 ≤ s.rtcSec ∧ s.rtcSec ≤ tokenField tok 0x20 8 ∧ tokenField tok 0x20 8 ≤ tokenField tok 0x18 8 + 86400 ∧ (∃ x, s.boot.nonce = some x ∧ tokenField tok 0x28 16 = x.1.toNat ∧ s.localNow ≤ x.2 + 60000000000) ∧ s.boot.session = none)) ∧
  (∀ (s : State) (t : Nat) (addr : BitVec 32) (port : BitVec 16) (offset : BitVec 32) (data : List Byte) (v : State), v = s.at_ t → v.serviceUp = true → v.fromSession addr.toNat port.toNat = true → v.hasRole 2 = true → data.length ≤ 61440 → exec (.download t addr port offset data) s = .next ((({ v with nv := { v.nv with staging := Mem.writeBytes v.nv.staging offset.toNat data } } : State).touch).svcReply 12484 [0])) ∧
  (∀ (s : State) (t : Nat) (addr : BitVec 32) (port : BitVec 16) (offset : BitVec 32) (data : List Byte) (v : State), v = s.at_ t → v.serviceUp = true → (v.fromSession addr.toNat port.toNat = false ∨ v.hasRole 2 = false ∨ 61440 < data.length) → Completes (.download t addr port offset data) s (fun u => u.nv = v.nv ∧ u.boot.reply = some (12584, [1]) ∧ v.changesOnly u [])) ∧
  (∀ (s : State) (t : Nat) (part : BitVec 8) (first : BitVec 32) (count : BitVec 8) (v : State), v = s.at_ t → v.serviceUp = true → (¬ (part.toNat < 4 ∧ 1 ≤ count.toNat ∧ count.toNat ≤ 16 ∧ (first.toNat = 0xFFFFFFFF ∨ first.toNat < partCap part.toNat))) → exec (.read t part first count) s = .next (v.svcReply 12485 [1, 0, 0, 0, 0])) ∧
  (∀ (s : State) (t : Nat) (part : BitVec 8) (first : BitVec 32) (count : BitVec 8) (start : Nat) (v : State), v = s.at_ t → v.serviceUp = true → part.toNat < 4 → 1 ≤ count.toNat → count.toNat ≤ 16 → (first.toNat = 0xFFFFFFFF ∨ first.toNat < partCap part.toNat) → (start = if first.toNat = 0xFFFFFFFF then v.get (REC_PART.OLDEST part.toNat) else first.toNat) → (v.get (REC_PART.COUNT part.toNat) = 0 ∨ (start = v.get (REC_PART.NEXT part.toNat) ∧ v.get (REC_PART.COUNT part.toNat) < partCap part.toNat)) → exec (.read t part first count) s = .next (v.svcReply 12485 [0, v.get (REC_PART.OLDEST part.toNat), v.get (REC_PART.NEXT part.toNat), v.get (REC_PART.COUNT part.toNat), 0])) ∧
  (∀ (s : State) (t : Nat) (part : BitVec 8) (first : BitVec 32) (count : BitVec 8) (start : Nat) (l : List Nat) (v : State), v = s.at_ t → v.serviceUp = true → part.toNat < 4 → 1 ≤ count.toNat → count.toNat ≤ 16 → (first.toNat = 0xFFFFFFFF ∨ first.toNat < partCap part.toNat) → (start = if first.toNat = 0xFFFFFFFF then v.get (REC_PART.OLDEST part.toNat) else first.toNat) → (v.get (REC_PART.COUNT part.toNat) ≠ 0 ∧ (start ≠ v.get (REC_PART.NEXT part.toNat) ∨ partCap part.toNat ≤ v.get (REC_PART.COUNT part.toNat))) → l = ringFrom part.toNat (v.get (REC_PART.NEXT part.toNat)) count.toNat start → exec (.read t part first count) s = .next ((l.foldl (fun x i => x.readSlot part.toNat i) v).svcReply 12485 ([0, v.get (REC_PART.OLDEST part.toNat), v.get (REC_PART.NEXT part.toNat), v.get (REC_PART.COUNT part.toNat), l.length] ++ l.flatMap (fun i => (v.slot part.toNat i).map (fun b => b.toNat))))) ∧
  (∀ (s : State) (t : Nat) (addr : BitVec 32) (port : BitVec 16) (v : State), v = s.at_ t → v.serviceUp = true → v.fromSession addr.toNat port.toNat = true → exec (.logout t addr port) s = .next (v.endSession.svcReply 12486 [0])) ∧
  (∀ (s : State) (t : Nat) (addr : BitVec 32) (port : BitVec 16) (v : State), v = s.at_ t → v.serviceUp = true → v.fromSession addr.toNat port.toNat = false → exec (.logout t addr port) s = .next (v.svcReply 12486 [1])) ∧
  (∀ (s : State) (t : Nat) (x : Session) (v : State), v = s.at_ t → v.boot.session = some x → (x.notAfter ≤ v.rtcSec ∨ x.last + 600000000000 ≤ v.localNow) → exec (.sessionExpiry t) s = .next (v.endSession)) ∧
  (∀ (s : State) (t : Nat) (v : State), v = s.at_ t → (∀ x ∈ v.boot.session, v.rtcSec < x.notAfter ∧ v.localNow < x.last + 600000000000) → exec (.sessionExpiry t) s = .next (v)) ∧
  (∀ (s : State), s.endSession.boot.session = none ∧ s.endSession.get UPD_STAT.SESSION = 0 ∧ s.endSession.get UPD_STAT.ROLES = 0 ∧ s.changesOnly s.endSession [UPD_STAT.SESSION.addr]) ∧
  (∀ (s : State) (t : Nat) (who : Initiator) (addr src : BitVec 32) (port : BitVec 16) (a : Nat) (b : List Byte) (v : State), v = s.at_ t → v.acts who = true → who.isService = true → a = addr.toNat / 64 * 64 → b = (v.consume who 0x14).bytes a 64 → v.boot.req = none → v.fromSession src.toNat port.toNat = true → 1 ≤ sb b 0 → sb b 0 ≤ 0x10 → exec (.updReqWrite t who addr src port) s = .next (({ v.consume who 0x14 with boot := { v.boot with req := some (a, b) } } : State).putFlag UPD_STAT.REQ_BUSY true)) ∧
  (∀ (s : State) (t : Nat) (who : Initiator) (addr src : BitVec 32) (port : BitVec 16) (a : Nat) (b : List Byte) (v : State), v = s.at_ t → v.acts who = true → who.isService = true → a = addr.toNat / 64 * 64 → b = (v.consume who 0x14).bytes a 64 → v.boot.req = none → v.fromSession src.toNat port.toNat = true → (sb b 0 = 0 ∨ 0x10 < sb b 0) → exec (.updReqWrite t who addr src port) s = .next ((({ v.consume who 0x14 with boot := { v.boot with req := some (a, b) } } : State).putFlag UPD_STAT.REQ_BUSY true).finishOp 2)) ∧
  (∀ (s : State) (t : Nat) (who : Initiator) (addr src : BitVec 32) (port : BitVec 16) (a : Nat) (b : List Byte) (u : State) (v : State), v = s.at_ t → v.acts who = true → who.isService = true → a = addr.toNat / 64 * 64 → b = (v.consume who 0x14).bytes a 64 → v.boot.req = none → v.fromSession src.toNat port.toNat = false → u = (({ v.consume who 0x14 with boot := { v.boot with req := some (a, b) } } : State).putFlag UPD_STAT.REQ_BUSY true).finishOp 1 → exec (.updReqWrite t who addr src port) s = .next ({ u with boot := { u.boot with session := v.boot.session } })) ∧
  (∀ (s : State) (t : Nat) (who : Initiator) (addr src : BitVec 32) (port : BitVec 16) (v : State), v = s.at_ t → v.acts who = true → who.isService = true → v.boot.req ≠ none → exec (.updReqWrite t who addr src port) s = .next ((v.consume who 0x14).inc UPD_CMD_REJ_CNT)) ∧
  (∀ (s : State) (t : Nat) (who : Initiator) (addr src : BitVec 32) (port : BitVec 16) (v : State), v = s.at_ t → v.acts who = true → who.isService = false → exec (.updReqWrite t who addr src port) s = .next (v.trap who true UPD_REQ.ADDR.addr))

/-- An operation with no request of its code waiting changes nothing. With one, it is answered 1 without a session, 2 in a mode that does not allow it, 1 without its role, 2 where its guard fails (standstill for ENTER_SERVICE, no trial for STAGE, an image and no reset waiting for ACTIVATE, a coordinator for ANNOUNCE, a program command or HOLD that the cycle engine would not refuse, no reset waiting for LOCKOUT_RESET). Else it is performed and answered 0: the mode changes; the program command or HOLD is put behind the others; a force entry not bound takes its fields and is bound, or is released; a Graft that fits its image checks, with none armed or waiting, at its place in shared SRAM, is stored and armed at the next edge; images staged and accepted fill the other slot; an activation waits for its CONSIST time, or takes place at standstill; an announcement 8 macrocycles ahead, or a CANCEL in time, is made; the roles swap where they may; LOCKOUT ends by a reset; the function is restarted; clearing a partition starts; the envelopes are saved; key rows are revoked; the RTC is set. It is answered 3 where the force entry is bound already or does not bind, a Graft is armed or waits, the announcement or CANCEL comes too late or the cadence is not in the other bank, the swap may not be, the function does not restart, or the partition may not be cleared; 4 where an image is refused; 2 where an activation at once is not at standstill and is cancelled. The answer clears the request and REQ_BUSY and shows REQ_RES. (R421, R423, R430, R433, R436, R437, R447, R448, R467) -/
def Obligations.ServiceOperations : Prop :=
  (∀ (s : State) (t : Nat) (v : State), v = s.at_ t → (∀ x ∈ v.boot.req, sb x.2 0 ≠ 0x01) → exec (.enterService t) s = .next (v)) ∧
  (∀ (s : State) (t : Nat) (a : Nat) (b : List Byte) (v : State), v = s.at_ t → v.boot.req = some (a, b) → sb b 0 = 0x01 → v.boot.session = none → exec (.enterService t) s = .next (v.finishOp 1)) ∧
  (∀ (s : State) (t : Nat) (a : Nat) (b : List Byte) (v : State), v = s.at_ t → v.boot.req = some (a, b) → sb b 0 = 0x01 → v.boot.session.isSome = true → (v.get SYS_STAT.MODE ≠ 2 ∧ v.get SYS_STAT.MODE ≠ 3) → exec (.enterService t) s = .next (v.finishOp 2)) ∧
  (∀ (s : State) (t : Nat) (a : Nat) (b : List Byte) (v : State), v = s.at_ t → v.boot.req = some (a, b) → sb b 0 = 0x01 → v.boot.session.isSome = true → (v.get SYS_STAT.MODE = 2 ∨ v.get SYS_STAT.MODE = 3) → v.hasRole 0 = false → exec (.enterService t) s = .next (v.finishOp 1)) ∧
  (∀ (s : State) (t : Nat) (a : Nat) (b : List Byte) (v : State), v = s.at_ t → v.boot.req = some (a, b) → sb b 0 = 0x01 → v.boot.session.isSome = true → (v.get SYS_STAT.MODE = 2 ∨ v.get SYS_STAT.MODE = 3) → v.hasRole 0 = true → v.still = false → exec (.enterService t) s = .next (v.finishOp 2)) ∧
  (∀ (s : State) (t : Nat) (v : State), v = s.at_ t → (∀ x ∈ v.boot.req, sb x.2 0 ≠ 0x02) → exec (.leaveService t) s = .next (v)) ∧
  (∀ (s : State) (t : Nat) (a : Nat) (b : List Byte) (v : State), v = s.at_ t → v.boot.req = some (a, b) → sb b 0 = 0x02 → v.boot.session = none → exec (.leaveService t) s = .next (v.finishOp 1)) ∧
  (∀ (s : State) (t : Nat) (a : Nat) (b : List Byte) (v : State), v = s.at_ t → v.boot.req = some (a, b) → sb b 0 = 0x02 → v.boot.session.isSome = true → v.get SYS_STAT.MODE ≠ 1 → exec (.leaveService t) s = .next (v.finishOp 2)) ∧
  (∀ (s : State) (t : Nat) (a : Nat) (b : List Byte) (v : State), v = s.at_ t → v.boot.req = some (a, b) → sb b 0 = 0x02 → v.boot.session.isSome = true → v.get SYS_STAT.MODE = 1 → v.hasRole 0 = false → exec (.leaveService t) s = .next (v.finishOp 1)) ∧
  (∀ (s : State) (t : Nat) (cmd : ProgCmd) (v : State), v = s.at_ t → (∀ x ∈ v.boot.req, sb x.2 0 ≠ 0x03) → exec (.programStateOperation t cmd) s = .next (v)) ∧
  (∀ (s : State) (t : Nat) (cmd : ProgCmd) (a : Nat) (b : List Byte) (v : State), v = s.at_ t → v.boot.req = some (a, b) → sb b 0 = 0x03 → v.boot.session = none → exec (.programStateOperation t cmd) s = .next (v.finishOp 1)) ∧
  (∀ (s : State) (t : Nat) (cmd : ProgCmd) (a : Nat) (b : List Byte) (v : State), v = s.at_ t → v.boot.req = some (a, b) → sb b 0 = 0x03 → v.boot.session.isSome = true → (v.get SYS_STAT.MODE ≠ 1 ∧ v.get SYS_STAT.MODE ≠ 3) → exec (.programStateOperation t cmd) s = .next (v.finishOp 2)) ∧
  (∀ (s : State) (t : Nat) (cmd : ProgCmd) (a : Nat) (b : List Byte) (v : State), v = s.at_ t → v.boot.req = some (a, b) → sb b 0 = 0x03 → v.boot.session.isSome = true → (v.get SYS_STAT.MODE = 1 ∨ v.get SYS_STAT.MODE = 3) → v.hasRole v.runRole = false → exec (.programStateOperation t cmd) s = .next (v.finishOp 1)) ∧
  (∀ (s : State) (t : Nat) (cmd : ProgCmd) (a : Nat) (b : List Byte) (v : State), v = s.at_ t → v.boot.req = some (a, b) → sb b 0 = 0x03 → v.boot.session.isSome = true → (v.get SYS_STAT.MODE = 1 ∨ v.get SYS_STAT.MODE = 3) → v.hasRole v.runRole = true → v.progGuard (progCode cmd) = false → exec (.programStateOperation t cmd) s = .next (v.finishOp 2)) ∧
  (∀ (s : State) (t : Nat) (v : State), v = s.at_ t → (∀ x ∈ v.boot.req, sb x.2 0 ≠ 0x04) → exec (.holdOperation t) s = .next (v)) ∧
  (∀ (s : State) (t : Nat) (a : Nat) (b : List Byte) (v : State), v = s.at_ t → v.boot.req = some (a, b) → sb b 0 = 0x04 → v.boot.session = none → exec (.holdOperation t) s = .next (v.finishOp 1)) ∧
  (∀ (s : State) (t : Nat) (a : Nat) (b : List Byte) (v : State), v = s.at_ t → v.boot.req = some (a, b) → sb b 0 = 0x04 → v.boot.session.isSome = true → v.get SYS_STAT.MODE ≠ 1 → exec (.holdOperation t) s = .next (v.finishOp 2)) ∧
  (∀ (s : State) (t : Nat) (a : Nat) (b : List Byte) (v : State), v = s.at_ t → v.boot.req = some (a, b) → sb b 0 = 0x04 → v.boot.session.isSome = true → v.get SYS_STAT.MODE = 1 → v.hasRole 1 = false → exec (.holdOperation t) s = .next (v.finishOp 1)) ∧
  (∀ (s : State) (t : Nat) (a : Nat) (b : List Byte) (v : State), v = s.at_ t → v.boot.req = some (a, b) → sb b 0 = 0x04 → v.boot.session.isSome = true → v.get SYS_STAT.MODE = 1 → v.hasRole 1 = true → v.progGuard 3 = false → exec (.holdOperation t) s = .next (v.finishOp 2)) ∧
  (∀ (s : State) (t : Nat) (fb : Bool) (entry : BitVec 8) (ctrl : BitVec 32) (ident mask value : BitVec 64) (v : State), v = s.at_ t → (∀ x ∈ v.boot.req, sb x.2 0 ≠ 0x05) → exec (.forceOperation t fb entry ctrl ident mask value) s = .next (v)) ∧
  (∀ (s : State) (t : Nat) (fb : Bool) (entry : BitVec 8) (ctrl : BitVec 32) (ident mask value : BitVec 64) (a : Nat) (b : List Byte) (v : State), v = s.at_ t → v.boot.req = some (a, b) → sb b 0 = 0x05 → v.boot.session = none → exec (.forceOperation t fb entry ctrl ident mask value) s = .next (v.finishOp 1)) ∧
  (∀ (s : State) (t : Nat) (fb : Bool) (entry : BitVec 8) (ctrl : BitVec 32) (ident mask value : BitVec 64) (a : Nat) (b : List Byte) (v : State), v = s.at_ t → v.boot.req = some (a, b) → sb b 0 = 0x05 → v.boot.session.isSome = true → (v.get SYS_STAT.MODE ≠ 1 ∧ v.get SYS_STAT.MODE ≠ 3) → exec (.forceOperation t fb entry ctrl ident mask value) s = .next (v.finishOp 2)) ∧
  (∀ (s : State) (t : Nat) (fb : Bool) (entry : BitVec 8) (ctrl : BitVec 32) (ident mask value : BitVec 64) (a : Nat) (b : List Byte) (v : State), v = s.at_ t → v.boot.req = some (a, b) → sb b 0 = 0x05 → v.boot.session.isSome = true → (v.get SYS_STAT.MODE = 1 ∨ v.get SYS_STAT.MODE = 3) → v.hasRole v.runRole = false → exec (.forceOperation t fb entry ctrl ident mask value) s = .next (v.finishOp 1)) ∧
  (∀ (s : State) (t : Nat) (img : GraftImage) (base : BitVec 32) (v : State), v = s.at_ t → (∀ x ∈ v.boot.req, sb x.2 0 ≠ 0x06) → exec (.graft t img base) s = .next (v)) ∧
  (∀ (s : State) (t : Nat) (img : GraftImage) (base : BitVec 32) (a : Nat) (b : List Byte) (v : State), v = s.at_ t → v.boot.req = some (a, b) → sb b 0 = 0x06 → graftPlace base.toNat (min 0x100000 (imgBody (listImage img.bytes)).length) = true → v.boot.session = none → exec (.graft t img base) s = .next (v.finishOp 1)) ∧
  (∀ (s : State) (t : Nat) (img : GraftImage) (base : BitVec 32) (a : Nat) (b : List Byte) (v : State), v = s.at_ t → v.boot.req = some (a, b) → sb b 0 = 0x06 → graftPlace base.toNat (min 0x100000 (imgBody (listImage img.bytes)).length) = true → v.boot.session.isSome = true → (v.get SYS_STAT.MODE ≠ 1 ∧ v.get SYS_STAT.MODE ≠ 2 ∧ v.get SYS_STAT.MODE ≠ 3) → exec (.graft t img base) s = .next (v.finishOp 2)) ∧
  (∀ (s : State) (t : Nat) (img : GraftImage) (base : BitVec 32) (a : Nat) (b : List Byte) (v : State), v = s.at_ t → v.boot.req = some (a, b) → sb b 0 = 0x06 → graftPlace base.toNat (min 0x100000 (imgBody (listImage img.bytes)).length) = true → v.boot.session.isSome = true → (v.get SYS_STAT.MODE = 1 ∨ v.get SYS_STAT.MODE = 2 ∨ v.get SYS_STAT.MODE = 3) → v.hasRole 1 = false → exec (.graft t img base) s = .next (v.finishOp 1)) ∧
  (∀ (s : State) (t : Nat) (fw orch : Nat) (f g : SigCheck) (v : State), v = s.at_ t → (∀ x ∈ v.boot.req, sb x.2 0 ≠ 0x07) → exec (.stage t fw orch f g) s = .next (v)) ∧
  (∀ (s : State) (t : Nat) (fw orch : Nat) (f g : SigCheck) (a : Nat) (b : List Byte) (v : State), v = s.at_ t → v.boot.req = some (a, b) → sb b 0 = 0x07 → v.boot.session = none → exec (.stage t fw orch f g) s = .next (v.finishOp 1)) ∧
  (∀ (s : State) (t : Nat) (fw orch : Nat) (f g : SigCheck) (a : Nat) (b : List Byte) (v : State), v = s.at_ t → v.boot.req = some (a, b) → sb b 0 = 0x07 → v.boot.session.isSome = true → (v.get SYS_STAT.MODE ≠ 1 ∧ v.get SYS_STAT.MODE ≠ 2 ∧ v.get SYS_STAT.MODE ≠ 3 ∧ v.get SYS_STAT.MODE ≠ 4) → exec (.stage t fw orch f g) s = .next (v.finishOp 2)) ∧
  (∀ (s : State) (t : Nat) (fw orch : Nat) (f g : SigCheck) (a : Nat) (b : List Byte) (v : State), v = s.at_ t → v.boot.req = some (a, b) → sb b 0 = 0x07 → v.boot.session.isSome = true → (v.get SYS_STAT.MODE = 1 ∨ v.get SYS_STAT.MODE = 2 ∨ v.get SYS_STAT.MODE = 3 ∨ v.get SYS_STAT.MODE = 4) → v.hasRole 2 = false → exec (.stage t fw orch f g) s = .next (v.finishOp 1)) ∧
  (∀ (s : State) (t : Nat) (fw orch : Nat) (f g : SigCheck) (a : Nat) (b : List Byte) (v : State), v = s.at_ t → v.boot.req = some (a, b) → sb b 0 = 0x07 → v.boot.session.isSome = true → (v.get SYS_STAT.MODE = 1 ∨ v.get SYS_STAT.MODE = 2 ∨ v.get SYS_STAT.MODE = 3 ∨ v.get SYS_STAT.MODE = 4) → v.hasRole 2 = true → v.flag UPD_STAT.TRIAL = true → exec (.stage t fw orch f g) s = .next (v.finishOp 2)) ∧
  (∀ (s : State) (t : Nat) (v : State), v = s.at_ t → (∀ x ∈ v.boot.req, sb x.2 0 ≠ 0x08) → exec (.activate t none) s = .next (v)) ∧
  (∀ (s : State) (t : Nat) (a : Nat) (b : List Byte) (v : State), v = s.at_ t → v.boot.req = some (a, b) → sb b 0 = 0x08 → v.boot.session = none → exec (.activate t none) s = .next (v.finishOp 1)) ∧
  (∀ (s : State) (t : Nat) (a : Nat) (b : List Byte) (v : State), v = s.at_ t → v.boot.req = some (a, b) → sb b 0 = 0x08 → v.boot.session.isSome = true → (v.get SYS_STAT.MODE ≠ 1 ∧ v.get SYS_STAT.MODE ≠ 2 ∧ v.get SYS_STAT.MODE ≠ 4) → exec (.activate t none) s = .next (v.finishOp 2)) ∧
  (∀ (s : State) (t : Nat) (a : Nat) (b : List Byte) (v : State), v = s.at_ t → v.boot.req = some (a, b) → sb b 0 = 0x08 → v.boot.session.isSome = true → (v.get SYS_STAT.MODE = 1 ∨ v.get SYS_STAT.MODE = 2 ∨ v.get SYS_STAT.MODE = 4) → v.hasRole 2 = false → exec (.activate t none) s = .next (v.finishOp 1)) ∧
  (∀ (s : State) (t : Nat) (a : Nat) (b : List Byte) (v : State), v = s.at_ t → v.boot.req = some (a, b) → sb b 0 = 0x08 → v.boot.session.isSome = true → (v.get SYS_STAT.MODE = 1 ∨ v.get SYS_STAT.MODE = 2 ∨ v.get SYS_STAT.MODE = 4) → v.hasRole 2 = true → ((v.table.slot v.otherSlot).state ≠ 1 ∨ v.boot.resetWait ≠ none) → exec (.activate t none) s = .next (v.finishOp 2)) ∧
  (∀ (s : State) (t : Nat) (c : BitVec 64) (v : State), v = s.at_ t → (∀ x ∈ v.boot.req, sb x.2 0 ≠ 0x08) → exec (.activate t (some c)) s = .next (v)) ∧
  (∀ (s : State) (t : Nat) (c : BitVec 64) (a : Nat) (b : List Byte) (v : State), v = s.at_ t → v.boot.req = some (a, b) → sb b 0 = 0x08 → v.boot.session = none → exec (.activate t (some c)) s = .next (v.finishOp 1)) ∧
  (∀ (s : State) (t : Nat) (c : BitVec 64) (a : Nat) (b : List Byte) (v : State), v = s.at_ t → v.boot.req = some (a, b) → sb b 0 = 0x08 → v.boot.session.isSome = true → (v.get SYS_STAT.MODE ≠ 1 ∧ v.get SYS_STAT.MODE ≠ 2 ∧ v.get SYS_STAT.MODE ≠ 3 ∧ v.get SYS_STAT.MODE ≠ 4) → exec (.activate t (some c)) s = .next (v.finishOp 2)) ∧
  (∀ (s : State) (t : Nat) (c : BitVec 64) (a : Nat) (b : List Byte) (v : State), v = s.at_ t → v.boot.req = some (a, b) → sb b 0 = 0x08 → v.boot.session.isSome = true → (v.get SYS_STAT.MODE = 1 ∨ v.get SYS_STAT.MODE = 2 ∨ v.get SYS_STAT.MODE = 3 ∨ v.get SYS_STAT.MODE = 4) → v.hasRole 2 = false → exec (.activate t (some c)) s = .next (v.finishOp 1)) ∧
  (∀ (s : State) (t : Nat) (c : BitVec 64) (a : Nat) (b : List Byte) (v : State), v = s.at_ t → v.boot.req = some (a, b) → sb b 0 = 0x08 → v.boot.session.isSome = true → (v.get SYS_STAT.MODE = 1 ∨ v.get SYS_STAT.MODE = 2 ∨ v.get SYS_STAT.MODE = 3 ∨ v.get SYS_STAT.MODE = 4) → v.hasRole 2 = true → ((v.table.slot v.otherSlot).state ≠ 1 ∨ v.boot.resetWait ≠ none) → exec (.activate t (some c)) s = .next (v.finishOp 2)) ∧
  (∀ (s : State) (t : Nat) (target : BitVec 32) (v : State), v = s.at_ t → (∀ x ∈ v.boot.req, sb x.2 0 ≠ 0x09) → exec (.announce t .activation target) s = .next (v)) ∧
  (∀ (s : State) (t : Nat) (target : BitVec 32) (a : Nat) (b : List Byte) (v : State), v = s.at_ t → v.boot.req = some (a, b) → sb b 0 = 0x09 → v.boot.session = none → exec (.announce t .activation target) s = .next (v.finishOp 1)) ∧
  (∀ (s : State) (t : Nat) (target : BitVec 32) (a : Nat) (b : List Byte) (v : State), v = s.at_ t → v.boot.req = some (a, b) → sb b 0 = 0x09 → v.boot.session.isSome = true → (v.get SYS_STAT.MODE ≠ 1 ∧ v.get SYS_STAT.MODE ≠ 3) → exec (.announce t .activation target) s = .next (v.finishOp 2)) ∧
  (∀ (s : State) (t : Nat) (target : BitVec 32) (a : Nat) (b : List Byte) (v : State), v = s.at_ t → v.boot.req = some (a, b) → sb b 0 = 0x09 → v.boot.session.isSome = true → (v.get SYS_STAT.MODE = 1 ∨ v.get SYS_STAT.MODE = 3) → v.hasRole 2 = false → exec (.announce t .activation target) s = .next (v.finishOp 1)) ∧
  (∀ (s : State) (t : Nat) (target : BitVec 32) (a : Nat) (b : List Byte) (v : State), v = s.at_ t → v.boot.req = some (a, b) → sb b 0 = 0x09 → v.boot.session.isSome = true → (v.get SYS_STAT.MODE = 1 ∨ v.get SYS_STAT.MODE = 3) → v.hasRole 2 = true → v.amCoord = false → exec (.announce t .activation target) s = .next (v.finishOp 2)) ∧
  (∀ (s : State) (t : Nat) (cid : BitVec 16) (target : BitVec 32) (v : State), v = s.at_ t → (∀ x ∈ v.boot.req, sb x.2 0 ≠ 0x09) → exec (.announce t (.cadence cid) target) s = .next (v)) ∧
  (∀ (s : State) (t : Nat) (cid : BitVec 16) (target : BitVec 32) (a : Nat) (b : List Byte) (v : State), v = s.at_ t → v.boot.req = some (a, b) → sb b 0 = 0x09 → v.boot.session = none → exec (.announce t (.cadence cid) target) s = .next (v.finishOp 1)) ∧
  (∀ (s : State) (t : Nat) (cid : BitVec 16) (target : BitVec 32) (a : Nat) (b : List Byte) (v : State), v = s.at_ t → v.boot.req = some (a, b) → sb b 0 = 0x09 → v.boot.session.isSome = true → (v.get SYS_STAT.MODE ≠ 1 ∧ v.get SYS_STAT.MODE ≠ 3) → exec (.announce t (.cadence cid) target) s = .next (v.finishOp 2)) ∧
  (∀ (s : State) (t : Nat) (cid : BitVec 16) (target : BitVec 32) (a : Nat) (b : List Byte) (v : State), v = s.at_ t → v.boot.req = some (a, b) → sb b 0 = 0x09 → v.boot.session.isSome = true → (v.get SYS_STAT.MODE = 1 ∨ v.get SYS_STAT.MODE = 3) → v.hasRole 1 = false → exec (.announce t (.cadence cid) target) s = .next (v.finishOp 1)) ∧
  (∀ (s : State) (t : Nat) (cid : BitVec 16) (target : BitVec 32) (a : Nat) (b : List Byte) (v : State), v = s.at_ t → v.boot.req = some (a, b) → sb b 0 = 0x09 → v.boot.session.isSome = true → (v.get SYS_STAT.MODE = 1 ∨ v.get SYS_STAT.MODE = 3) → v.hasRole 1 = true → v.amCoord = false → exec (.announce t (.cadence cid) target) s = .next (v.finishOp 2)) ∧
  (∀ (s : State) (t : Nat) (target : BitVec 32) (v : State), v = s.at_ t → (∀ x ∈ v.boot.req, sb x.2 0 ≠ 0x09) → exec (.announce t .cancel target) s = .next (v)) ∧
  (∀ (s : State) (t : Nat) (target : BitVec 32) (a : Nat) (b : List Byte) (v : State), v = s.at_ t → v.boot.req = some (a, b) → sb b 0 = 0x09 → v.boot.session = none → exec (.announce t .cancel target) s = .next (v.finishOp 1)) ∧
  (∀ (s : State) (t : Nat) (target : BitVec 32) (a : Nat) (b : List Byte) (v : State), v = s.at_ t → v.boot.req = some (a, b) → sb b 0 = 0x09 → v.boot.session.isSome = true → (v.get SYS_STAT.MODE ≠ 1 ∧ v.get SYS_STAT.MODE ≠ 3) → exec (.announce t .cancel target) s = .next (v.finishOp 2)) ∧
  (∀ (s : State) (t : Nat) (target : BitVec 32) (a : Nat) (b : List Byte) (v : State), v = s.at_ t → v.boot.req = some (a, b) → sb b 0 = 0x09 → v.boot.session.isSome = true → (v.get SYS_STAT.MODE = 1 ∨ v.get SYS_STAT.MODE = 3) → (v.hasRole (if v.lanes.mode.op = 1 then 1 else 2) = false) → exec (.announce t .cancel target) s = .next (v.finishOp 1)) ∧
  (∀ (s : State) (t : Nat) (target : BitVec 32) (a : Nat) (b : List Byte) (v : State), v = s.at_ t → v.boot.req = some (a, b) → sb b 0 = 0x09 → v.boot.session.isSome = true → (v.get SYS_STAT.MODE = 1 ∨ v.get SYS_STAT.MODE = 3) → (v.hasRole (if v.lanes.mode.op = 1 then 1 else 2) = true) → v.amCoord = false → exec (.announce t .cancel target) s = .next (v.finishOp 2)) ∧
  (∀ (s : State) (t : Nat) (unready : Bool) (v : State), v = s.at_ t → (∀ x ∈ v.boot.req, sb x.2 0 ≠ 0x0A) → exec (.roleSwap t unready) s = .next (v)) ∧
  (∀ (s : State) (t : Nat) (unready : Bool) (a : Nat) (b : List Byte) (v : State), v = s.at_ t → v.boot.req = some (a, b) → sb b 0 = 0x0A → v.boot.session = none → exec (.roleSwap t unready) s = .next (v.finishOp 1)) ∧
  (∀ (s : State) (t : Nat) (unready : Bool) (a : Nat) (b : List Byte) (v : State), v = s.at_ t → v.boot.req = some (a, b) → sb b 0 = 0x0A → v.boot.session.isSome = true → v.get SYS_STAT.MODE ≠ 3 → exec (.roleSwap t unready) s = .next (v.finishOp 2)) ∧
  (∀ (s : State) (t : Nat) (unready : Bool) (a : Nat) (b : List Byte) (v : State), v = s.at_ t → v.boot.req = some (a, b) → sb b 0 = 0x0A → v.boot.session.isSome = true → v.get SYS_STAT.MODE = 3 → v.hasRole 0 = false → exec (.roleSwap t unready) s = .next (v.finishOp 1)) ∧
  (∀ (s : State) (t : Nat) (v : State), v = s.at_ t → (∀ x ∈ v.boot.req, sb x.2 0 ≠ 0x0B) → exec (.lockoutReset t) s = .next (v)) ∧
  (∀ (s : State) (t : Nat) (a : Nat) (b : List Byte) (v : State), v = s.at_ t → v.boot.req = some (a, b) → sb b 0 = 0x0B → v.boot.session = none → exec (.lockoutReset t) s = .next (v.finishOp 1)) ∧
  (∀ (s : State) (t : Nat) (a : Nat) (b : List Byte) (v : State), v = s.at_ t → v.boot.req = some (a, b) → sb b 0 = 0x0B → v.boot.session.isSome = true → v.get SYS_STAT.MODE ≠ 4 → exec (.lockoutReset t) s = .next (v.finishOp 2)) ∧
  (∀ (s : State) (t : Nat) (a : Nat) (b : List Byte) (v : State), v = s.at_ t → v.boot.req = some (a, b) → sb b 0 = 0x0B → v.boot.session.isSome = true → v.get SYS_STAT.MODE = 4 → v.hasRole 4 = false → exec (.lockoutReset t) s = .next (v.finishOp 1)) ∧
  (∀ (s : State) (t : Nat) (a : Nat) (b : List Byte) (v : State), v = s.at_ t → v.boot.req = some (a, b) → sb b 0 = 0x0B → v.boot.session.isSome = true → v.get SYS_STAT.MODE = 4 → v.hasRole 4 = true → v.boot.resetWait ≠ none → exec (.lockoutReset t) s = .next (v.finishOp 2)) ∧
  (∀ (s : State) (t : Nat) (fn : BitVec 5) (v : State), v = s.at_ t → (∀ x ∈ v.boot.req, sb x.2 0 ≠ 0x0C) → exec (.tripRestartOperation t fn) s = .next (v)) ∧
  (∀ (s : State) (t : Nat) (fn : BitVec 5) (a : Nat) (b : List Byte) (v : State), v = s.at_ t → v.boot.req = some (a, b) → sb b 0 = 0x0C → v.boot.session = none → exec (.tripRestartOperation t fn) s = .next (v.finishOp 1)) ∧
  (∀ (s : State) (t : Nat) (fn : BitVec 5) (a : Nat) (b : List Byte) (v : State), v = s.at_ t → v.boot.req = some (a, b) → sb b 0 = 0x0C → v.boot.session.isSome = true → (v.get SYS_STAT.MODE ≠ 1 ∧ v.get SYS_STAT.MODE ≠ 2 ∧ v.get SYS_STAT.MODE ≠ 3) → exec (.tripRestartOperation t fn) s = .next (v.finishOp 2)) ∧
  (∀ (s : State) (t : Nat) (fn : BitVec 5) (a : Nat) (b : List Byte) (v : State), v = s.at_ t → v.boot.req = some (a, b) → sb b 0 = 0x0C → v.boot.session.isSome = true → (v.get SYS_STAT.MODE = 1 ∨ v.get SYS_STAT.MODE = 2 ∨ v.get SYS_STAT.MODE = 3) → v.hasRole 4 = false → exec (.tripRestartOperation t fn) s = .next (v.finishOp 1)) ∧
  (∀ (s : State) (t : Nat) (part : BitVec 8) (v : State), v = s.at_ t → (∀ x ∈ v.boot.req, sb x.2 0 ≠ 0x0D) → exec (.clearOperation t part) s = .next (v)) ∧
  (∀ (s : State) (t : Nat) (part : BitVec 8) (a : Nat) (b : List Byte) (v : State), v = s.at_ t → v.boot.req = some (a, b) → sb b 0 = 0x0D → v.boot.session = none → exec (.clearOperation t part) s = .next (v.finishOp 1)) ∧
  (∀ (s : State) (t : Nat) (part : BitVec 8) (a : Nat) (b : List Byte) (v : State), v = s.at_ t → v.boot.req = some (a, b) → sb b 0 = 0x0D → v.boot.session.isSome = true → (v.get SYS_STAT.MODE ≠ 1 ∧ v.get SYS_STAT.MODE ≠ 2 ∧ v.get SYS_STAT.MODE ≠ 3 ∧ v.get SYS_STAT.MODE ≠ 4) → exec (.clearOperation t part) s = .next (v.finishOp 2)) ∧
  (∀ (s : State) (t : Nat) (part : BitVec 8) (a : Nat) (b : List Byte) (v : State), v = s.at_ t → v.boot.req = some (a, b) → sb b 0 = 0x0D → v.boot.session.isSome = true → (v.get SYS_STAT.MODE = 1 ∨ v.get SYS_STAT.MODE = 2 ∨ v.get SYS_STAT.MODE = 3 ∨ v.get SYS_STAT.MODE = 4) → v.hasRole 3 = false → exec (.clearOperation t part) s = .next (v.finishOp 1)) ∧
  (∀ (s : State) (t : Nat) (v : State), v = s.at_ t → (∀ x ∈ v.boot.req, sb x.2 0 ≠ 0x0E) → exec (.saveEnvelopes t) s = .next (v)) ∧
  (∀ (s : State) (t : Nat) (a : Nat) (b : List Byte) (v : State), v = s.at_ t → v.boot.req = some (a, b) → sb b 0 = 0x0E → v.boot.session = none → exec (.saveEnvelopes t) s = .next (v.finishOp 1)) ∧
  (∀ (s : State) (t : Nat) (a : Nat) (b : List Byte) (v : State), v = s.at_ t → v.boot.req = some (a, b) → sb b 0 = 0x0E → v.boot.session.isSome = true → (v.get SYS_STAT.MODE ≠ 1 ∧ v.get SYS_STAT.MODE ≠ 2 ∧ v.get SYS_STAT.MODE ≠ 3 ∧ v.get SYS_STAT.MODE ≠ 4) → exec (.saveEnvelopes t) s = .next (v.finishOp 2)) ∧
  (∀ (s : State) (t : Nat) (a : Nat) (b : List Byte) (v : State), v = s.at_ t → v.boot.req = some (a, b) → sb b 0 = 0x0E → v.boot.session.isSome = true → (v.get SYS_STAT.MODE = 1 ∨ v.get SYS_STAT.MODE = 2 ∨ v.get SYS_STAT.MODE = 3 ∨ v.get SYS_STAT.MODE = 4) → v.hasRole 0 = false → exec (.saveEnvelopes t) s = .next (v.finishOp 1)) ∧
  (∀ (s : State) (t : Nat) (img : List Byte) (sig : SigCheck) (rsaMask slhMask : BitVec 4) (v : State), v = s.at_ t → (∀ x ∈ v.boot.req, sb x.2 0 ≠ 0x0F) → exec (.revoke t img sig rsaMask slhMask) s = .next (v)) ∧
  (∀ (s : State) (t : Nat) (img : List Byte) (sig : SigCheck) (rsaMask slhMask : BitVec 4) (a : Nat) (b : List Byte) (v : State), v = s.at_ t → v.boot.req = some (a, b) → sb b 0 = 0x0F → v.boot.session = none → exec (.revoke t img sig rsaMask slhMask) s = .next (v.finishOp 1)) ∧
  (∀ (s : State) (t : Nat) (img : List Byte) (sig : SigCheck) (rsaMask slhMask : BitVec 4) (a : Nat) (b : List Byte) (v : State), v = s.at_ t → v.boot.req = some (a, b) → sb b 0 = 0x0F → v.boot.session.isSome = true → (v.get SYS_STAT.MODE ≠ 1 ∧ v.get SYS_STAT.MODE ≠ 4) → exec (.revoke t img sig rsaMask slhMask) s = .next (v.finishOp 2)) ∧
  (∀ (s : State) (t : Nat) (img : List Byte) (sig : SigCheck) (rsaMask slhMask : BitVec 4) (a : Nat) (b : List Byte) (v : State), v = s.at_ t → v.boot.req = some (a, b) → sb b 0 = 0x0F → v.boot.session.isSome = true → (v.get SYS_STAT.MODE = 1 ∨ v.get SYS_STAT.MODE = 4) → v.hasRole 2 = false → exec (.revoke t img sig rsaMask slhMask) s = .next (v.finishOp 1)) ∧
  (∀ (s : State) (t : Nat) (rtc : BitVec 64) (n : Bool) (v : State), v = s.at_ t → (∀ x ∈ v.boot.req, sb x.2 0 ≠ 0x10) → exec (.setRtc t rtc n) s = .next (v)) ∧
  (∀ (s : State) (t : Nat) (rtc : BitVec 64) (n : Bool) (a : Nat) (b : List Byte) (v : State), v = s.at_ t → v.boot.req = some (a, b) → sb b 0 = 0x10 → v.boot.session = none → exec (.setRtc t rtc n) s = .next (v.finishOp 1)) ∧
  (∀ (s : State) (t : Nat) (rtc : BitVec 64) (n : Bool) (a : Nat) (b : List Byte) (v : State), v = s.at_ t → v.boot.req = some (a, b) → sb b 0 = 0x10 → v.boot.session.isSome = true → (v.get SYS_STAT.MODE ≠ 1 ∧ v.get SYS_STAT.MODE ≠ 2 ∧ v.get SYS_STAT.MODE ≠ 3 ∧ v.get SYS_STAT.MODE ≠ 4) → exec (.setRtc t rtc n) s = .next (v.finishOp 2)) ∧
  (∀ (s : State) (t : Nat) (rtc : BitVec 64) (n : Bool) (a : Nat) (b : List Byte) (v : State), v = s.at_ t → v.boot.req = some (a, b) → sb b 0 = 0x10 → v.boot.session.isSome = true → (v.get SYS_STAT.MODE = 1 ∨ v.get SYS_STAT.MODE = 2 ∨ v.get SYS_STAT.MODE = 3 ∨ v.get SYS_STAT.MODE = 4) → v.hasRole 0 = false → exec (.setRtc t rtc n) s = .next (v.finishOp 1)) ∧
  (∀ (s : State) (t : Nat) (img : GraftImage) (base : BitVec 32) (v : State), v = s.at_ t → graftPlace base.toNat (min 0x100000 (imgBody (listImage img.bytes)).length) = false → exec (.graft t img base) s = .next (v)) ∧
  (∀ (s : State) (t : Nat) (a : Nat) (b : List Byte) (v : State), v = s.at_ t → v.boot.req = some (a, b) → sb b 0 = 0x01 → v.boot.session.isSome = true → (v.get SYS_STAT.MODE = 2 ∨ v.get SYS_STAT.MODE = 3) → v.hasRole 0 = true → v.still = true → exec (.enterService t) s = .next ((v.enterMode 1).finishOp 0)) ∧
  (∀ (s : State) (t : Nat) (a : Nat) (b : List Byte) (v : State), v = s.at_ t → v.boot.req = some (a, b) → sb b 0 = 0x02 → v.boot.session.isSome = true → v.get SYS_STAT.MODE = 1 → v.hasRole 0 = true → exec (.leaveService t) s = .next ((v.enterMode (if v.claiming then 3 else 2)).finishOp 0)) ∧
  (∀ (s : State) (t : Nat) (a : Nat) (b : List Byte) (cmd : ProgCmd) (v : State), v = s.at_ t → v.boot.req = some (a, b) → sb b 0 = 0x03 → v.boot.session.isSome = true → (v.get SYS_STAT.MODE = 1 ∨ v.get SYS_STAT.MODE = 3) → v.hasRole v.runRole = true → v.progGuard (progCode cmd) = true → exec (.programStateOperation t cmd) s = .next (({ v with cyc := { v.cyc with cmds := v.cyc.cmds ++ [progCode cmd] } } : State).finishOp 0)) ∧
  (∀ (s : State) (t : Nat) (a : Nat) (b : List Byte) (v : State), v = s.at_ t → v.boot.req = some (a, b) → sb b 0 = 0x04 → v.boot.session.isSome = true → v.get SYS_STAT.MODE = 1 → v.hasRole 1 = true → v.progGuard 3 = true → exec (.holdOperation t) s = .next (({ v with cyc := { v.cyc with cmds := v.cyc.cmds ++ [3] } } : State).finishOp 0)) ∧
  (∀ (s : State) (t : Nat) (a : Nat) (b : List Byte) (entry : BitVec 8) (ctrl : BitVec 32) (ident mask value : BitVec 64) (x : State) (y : State × Bool) (v : State), v = s.at_ t → v.boot.req = some (a, b) → sb b 0 = 0x05 → v.boot.session.isSome = true → (v.get SYS_STAT.MODE = 1 ∨ v.get SYS_STAT.MODE = 3) → v.hasRole v.runRole = true → v.flag (CYC_FORCE.VALID entry.toNat) = false → x = (((v.put (CYC_FORCE.ID entry.toNat) ident.toNat).put (CYC_FORCE.MASK entry.toNat) mask.toNat).put (CYC_FORCE.VALUE entry.toNat) value.toNat) → y = (x.forceCtrl entry.toNat ctrl.toNat).forceBind entry.toNat x.tokenId → y.2 = true → exec (.forceOperation t true entry ctrl ident mask value) s = .next (y.1.finishOp 0)) ∧
  (∀ (s : State) (t : Nat) (a : Nat) (b : List Byte) (entry : BitVec 8) (ctrl : BitVec 32) (ident mask value : BitVec 64) (x : State) (y : State × Bool) (v : State), v = s.at_ t → v.boot.req = some (a, b) → sb b 0 = 0x05 → v.boot.session.isSome = true → (v.get SYS_STAT.MODE = 1 ∨ v.get SYS_STAT.MODE = 3) → v.hasRole v.runRole = true → v.flag (CYC_FORCE.VALID entry.toNat) = false → x = (((v.put (CYC_FORCE.ID entry.toNat) ident.toNat).put (CYC_FORCE.MASK entry.toNat) mask.toNat).put (CYC_FORCE.VALUE entry.toNat) value.toNat) → y = (x.forceCtrl entry.toNat ctrl.toNat).forceBind entry.toNat x.tokenId → y.2 = false → exec (.forceOperation t true entry ctrl ident mask value) s = .next (y.1.finishOp 3)) ∧
  (∀ (s : State) (t : Nat) (a : Nat) (b : List Byte) (entry : BitVec 8) (ctrl : BitVec 32) (ident mask value : BitVec 64) (v : State), v = s.at_ t → v.boot.req = some (a, b) → sb b 0 = 0x05 → v.boot.session.isSome = true → (v.get SYS_STAT.MODE = 1 ∨ v.get SYS_STAT.MODE = 3) → v.hasRole v.runRole = true → v.flag (CYC_FORCE.VALID entry.toNat) = true → exec (.forceOperation t true entry ctrl ident mask value) s = .next (v.finishOp 3)) ∧
  (∀ (s : State) (t : Nat) (a : Nat) (b : List Byte) (entry : BitVec 8) (ctrl : BitVec 32) (ident mask value : BitVec 64) (v : State), v = s.at_ t → v.boot.req = some (a, b) → sb b 0 = 0x05 → v.boot.session.isSome = true → (v.get SYS_STAT.MODE = 1 ∨ v.get SYS_STAT.MODE = 3) → v.hasRole v.runRole = true → exec (.forceOperation t false entry ctrl ident mask value) s = .next ((v.forceRelease entry.toNat v.tokenId).finishOp 0)) ∧
  (∀ (s : State) (t : Nat) (a : Nat) (b : List Byte) (img : GraftImage) (base : BitVec 32) (v : State), v = s.at_ t → v.boot.req = some (a, b) → sb b 0 = 0x06 → v.boot.session.isSome = true → (v.get SYS_STAT.MODE = 1 ∨ v.get SYS_STAT.MODE = 2 ∨ v.get SYS_STAT.MODE = 3) → v.hasRole 1 = true → graftPlace base.toNat (min 0x100000 (imgBody (listImage img.bytes)).length) = true → v.graftCode img = 0 → (imgBody (listImage img.bytes)).length ≤ 0x100000 → v.flag CYC_STAT.ARMED = false → 6 ∉ v.cyc.cmds → exec (.graft t img base) s = .next ((let x := (((v.storeBytes base.toNat (imgBody (listImage img.bytes))).put CYC_GRAFT_BASE.VALUE base.toNat).put CYC_GRAFT_LEN.VALUE (imgBody (listImage img.bytes)).length).put CYC_GRAFT_BASE_ID.ID (imgBaseId (listImage img.bytes)); ({ x with cyc := { v.cyc with graftId := imgProgId (listImage img.bytes), bindings := img.bindings, cmds := v.cyc.cmds ++ [6] }, boot := { x.boot with graftWait := true } } : State).finishOp 0))) ∧
  (∀ (s : State) (t : Nat) (a : Nat) (b : List Byte) (img : GraftImage) (base : BitVec 32) (v : State), v = s.at_ t → v.boot.req = some (a, b) → sb b 0 = 0x06 → v.boot.session.isSome = true → (v.get SYS_STAT.MODE = 1 ∨ v.get SYS_STAT.MODE = 2 ∨ v.get SYS_STAT.MODE = 3) → v.hasRole 1 = true → graftPlace base.toNat (min 0x100000 (imgBody (listImage img.bytes)).length) = true → v.graftCode img = 0 → (imgBody (listImage img.bytes)).length ≤ 0x100000 → (v.flag CYC_STAT.ARMED = true ∨ 6 ∈ v.cyc.cmds) → exec (.graft t img base) s = .next (v.refuseCmd.finishOp 3)) ∧
  (∀ (s : State) (t : Nat) (a : Nat) (b : List Byte) (img : GraftImage) (base : BitVec 32) (v : State), v = s.at_ t → v.boot.req = some (a, b) → sb b 0 = 0x06 → v.boot.session.isSome = true → (v.get SYS_STAT.MODE = 1 ∨ v.get SYS_STAT.MODE = 2 ∨ v.get SYS_STAT.MODE = 3) → v.hasRole 1 = true → graftPlace base.toNat (min 0x100000 (imgBody (listImage img.bytes)).length) = true → (v.graftCode img ≠ 0 ∨ 0x100000 < (imgBody (listImage img.bytes)).length) → exec (.graft t img base) s = .next ((v.refuseImage (if v.graftCode img = 0 then 1 else v.graftCode img) v.runSlot (imgId (listImage img.bytes))).finishOp 4)) ∧
  (∀ (s : State) (img : GraftImage), s.graftCode img = if s.imageValid (listImage img.bytes) 4 img.sig = false then 1 else if imgFmt (listImage img.bytes) ≠ s.get UPD_VER.ORCH_RUN then 2 else if imgBaseId (listImage img.bytes) ≠ s.get CYC_PROG_ID.ID then 10 else 0) ∧
  (∀ (s : State) (m : ImageBytes) (kind : Nat) (sig : SigCheck), s.imageValid m kind sig = true ↔ (headOk m kind = true ∧ s.keysOk (imgNum m 0x2C 1) (imgNum m 0x2D 1) sig = true ∧ sig.rsaOk = true ∧ sig.slhOk = true ∧ sectionsOk m = true ∧ imgId m = sig.digest.toNat ∧ s.get UPD_OTP.SVN ≤ imgSvn m)) ∧
  (∀ (s : State) (t : Nat) (a : Nat) (b : List Byte) (fw orch : Nat) (f g : SigCheck) (v : State), v = s.at_ t → v.boot.req = some (a, b) → sb b 0 = 0x07 → v.boot.session.isSome = true → (v.get SYS_STAT.MODE = 1 ∨ v.get SYS_STAT.MODE = 2 ∨ v.get SYS_STAT.MODE = 3 ∨ v.get SYS_STAT.MODE = 4) → v.hasRole 2 = true → v.flag UPD_STAT.TRIAL = false → (v.imageValid (v.stagedImage fw) 2 f = false ∨ v.imageValid (v.stagedImage orch) 3 g = false) → exec (.stage t fw orch f g) s = .next ((v.refuseImage 1 v.otherSlot (imgId (v.stagedImage orch))).finishOp 4)) ∧
  (∀ (s : State) (t : Nat) (a : Nat) (b : List Byte) (fw orch : Nat) (f g : SigCheck) (x : State) (v : State), v = s.at_ t → v.boot.req = some (a, b) → sb b 0 = 0x07 → v.boot.session.isSome = true → (v.get SYS_STAT.MODE = 1 ∨ v.get SYS_STAT.MODE = 2 ∨ v.get SYS_STAT.MODE = 3 ∨ v.get SYS_STAT.MODE = 4) → v.hasRole 2 = true → v.flag UPD_STAT.TRIAL = false → v.imageValid (v.stagedImage fw) 2 f = true → v.imageValid (v.stagedImage orch) 3 g = true → x = { v with nv := { v.nv with images := SMap.set (SMap.set v.nv.images (2 * v.otherSlot) ((v.stagedImage fw) 0 (imgLen (v.stagedImage fw)))) (2 * v.otherSlot + 1) ((v.stagedImage orch) 0 (imgLen (v.stagedImage orch))) } } → exec (.stage t fw orch f g) s = .next (((x.writeTable (x.table.setSlot v.otherSlot ⟨1, 0, imgId (v.stagedImage fw), imgId (v.stagedImage orch), imgSvn (v.stagedImage orch)⟩)).recordImage 5 v.otherSlot 0 (imgId (v.stagedImage orch))).finishOp 0)) ∧
  (∀ (s : State) (t : Nat) (a : Nat) (b : List Byte) (c : BitVec 64) (v : State), v = s.at_ t → v.boot.req = some (a, b) → sb b 0 = 0x08 → v.boot.session.isSome = true → (v.get SYS_STAT.MODE = 1 ∨ v.get SYS_STAT.MODE = 2 ∨ v.get SYS_STAT.MODE = 3 ∨ v.get SYS_STAT.MODE = 4) → v.hasRole 2 = true → (v.table.slot v.otherSlot).state = 1 → v.boot.resetWait = none → exec (.activate t (some c)) s = .next ((((v.put UPD_STAT.ACT 2).put UPD_ACT_ID.ID (v.table.slot v.otherSlot).orchId).put UPD_ACT_AT.AT c.toNat).finishOp 0)) ∧
  (∀ (s : State) (t : Nat) (a : Nat) (b : List Byte) (x : State) (v : State), v = s.at_ t → v.boot.req = some (a, b) → sb b 0 = 0x08 → v.boot.session.isSome = true → (v.get SYS_STAT.MODE = 1 ∨ v.get SYS_STAT.MODE = 2 ∨ v.get SYS_STAT.MODE = 4) → v.hasRole 2 = true → (v.table.slot v.otherSlot).state = 1 → v.boot.resetWait = none → x = v.put UPD_ACT_ID.ID (v.table.slot v.otherSlot).orchId → x.still = true → exec (.activate t none) s = .next ((x.finishOp 0).activateAt (x.finishOp 0).claiming)) ∧
  (∀ (s : State) (t : Nat) (a : Nat) (b : List Byte) (x : State) (v : State), v = s.at_ t → v.boot.req = some (a, b) → sb b 0 = 0x08 → v.boot.session.isSome = true → (v.get SYS_STAT.MODE = 1 ∨ v.get SYS_STAT.MODE = 2 ∨ v.get SYS_STAT.MODE = 4) → v.hasRole 2 = true → (v.table.slot v.otherSlot).state = 1 → v.boot.resetWait = none → x = v.put UPD_ACT_ID.ID (v.table.slot v.otherSlot).orchId → x.still = false → exec (.activate t none) s = .next (x.cancelActivation.finishOp 2)) ∧
  (∀ (s : State) (t : Nat) (a : Nat) (b : List Byte) (target : BitVec 32) (x : State) (v : State), v = s.at_ t → v.boot.req = some (a, b) → sb b 0 = 0x09 → v.boot.session.isSome = true → (v.get SYS_STAT.MODE = 1 ∨ v.get SYS_STAT.MODE = 3) → v.hasRole 2 = true → v.amCoord = true → x = v.put LANE_MODE_TGT.TGT target.toNat → 8 ≤ serialDiff 32 target.toNat x.macro_ → exec (.announce t .activation target) s = .next ((x.announce 2 0 (x.table.slot x.otherSlot).orchId).finishOp 0)) ∧
  (∀ (s : State) (t : Nat) (a : Nat) (b : List Byte) (target : BitVec 32) (x : State) (v : State), v = s.at_ t → v.boot.req = some (a, b) → sb b 0 = 0x09 → v.boot.session.isSome = true → (v.get SYS_STAT.MODE = 1 ∨ v.get SYS_STAT.MODE = 3) → v.hasRole 2 = true → v.amCoord = true → x = v.put LANE_MODE_TGT.TGT target.toNat → serialDiff 32 target.toNat x.macro_ < 8 → exec (.announce t .activation target) s = .next (x.finishOp 3)) ∧
  (∀ (s : State) (t : Nat) (a : Nat) (b : List Byte) (target : BitVec 32) (x : State) (cid : BitVec 16) (v : State), v = s.at_ t → v.boot.req = some (a, b) → sb b 0 = 0x09 → v.boot.session.isSome = true → (v.get SYS_STAT.MODE = 1 ∨ v.get SYS_STAT.MODE = 3) → v.hasRole 1 = true → v.amCoord = true → x = v.put LANE_MODE_TGT.TGT target.toNat → 8 ≤ serialDiff 32 target.toNat x.macro_ → x.bankCid (1 - x.get (LANE_STAT.BANK 0)) = cid.toNat → exec (.announce t (.cadence cid) target) s = .next ((x.announce 1 cid.toNat 0).finishOp 0)) ∧
  (∀ (s : State) (t : Nat) (a : Nat) (b : List Byte) (target : BitVec 32) (x : State) (cid : BitVec 16) (v : State), v = s.at_ t → v.boot.req = some (a, b) → sb b 0 = 0x09 → v.boot.session.isSome = true → (v.get SYS_STAT.MODE = 1 ∨ v.get SYS_STAT.MODE = 3) → v.hasRole 1 = true → v.amCoord = true → x = v.put LANE_MODE_TGT.TGT target.toNat → (serialDiff 32 target.toNat x.macro_ < 8 ∨ x.bankCid (1 - x.get (LANE_STAT.BANK 0)) ≠ cid.toNat) → exec (.announce t (.cadence cid) target) s = .next (x.finishOp 3)) ∧
  (∀ (s : State) (t : Nat) (a : Nat) (b : List Byte) (target : BitVec 32) (v : State), v = s.at_ t → v.boot.req = some (a, b) → sb b 0 = 0x09 → v.boot.session.isSome = true → (v.get SYS_STAT.MODE = 1 ∨ v.get SYS_STAT.MODE = 3) → (v.hasRole (if v.lanes.mode.op = 1 then 1 else 2) = true) → v.amCoord = true → (v.lanes.mode.op = 1 ∨ v.lanes.mode.op = 2) → 3 < serialDiff 32 v.lanes.mode.m v.macro_ → exec (.announce t .cancel target) s = .next (v.cancelAnnounce.finishOp 0)) ∧
  (∀ (s : State) (t : Nat) (a : Nat) (b : List Byte) (target : BitVec 32) (v : State), v = s.at_ t → v.boot.req = some (a, b) → sb b 0 = 0x09 → v.boot.session.isSome = true → (v.get SYS_STAT.MODE = 1 ∨ v.get SYS_STAT.MODE = 3) → (v.hasRole (if v.lanes.mode.op = 1 then 1 else 2) = true) → v.amCoord = true → ((v.lanes.mode.op ≠ 1 ∧ v.lanes.mode.op ≠ 2) ∨ serialDiff 32 v.lanes.mode.m v.macro_ ≤ 3) → exec (.announce t .cancel target) s = .next (v.finishOp 3)) ∧
  (∀ (s : State) (t : Nat) (a : Nat) (b : List Byte) (unready : Bool) (v : State), v = s.at_ t → v.boot.req = some (a, b) → sb b 0 = 0x0A → v.boot.session.isSome = true → v.get SYS_STAT.MODE = 3 → v.hasRole 0 = true → v.swapOk unready = true → exec (.roleSwap t unready) s = .next ((v.swapTry unready).finishOp 0)) ∧
  (∀ (s : State) (t : Nat) (a : Nat) (b : List Byte) (unready : Bool) (v : State), v = s.at_ t → v.boot.req = some (a, b) → sb b 0 = 0x0A → v.boot.session.isSome = true → v.get SYS_STAT.MODE = 3 → v.hasRole 0 = true → v.swapOk unready = false → exec (.roleSwap t unready) s = .next ((v.swapTry unready).finishOp 3)) ∧
  (∀ (s : State) (t : Nat) (a : Nat) (b : List Byte) (v : State), v = s.at_ t → v.boot.req = some (a, b) → sb b 0 = 0x0B → v.boot.session.isSome = true → v.get SYS_STAT.MODE = 4 → v.hasRole 4 = true → v.boot.resetWait = none → exec (.lockoutReset t) s = .next ((v.finishOp 0).ownReset 1)) ∧
  (∀ (s : State) (t : Nat) (a : Nat) (b : List Byte) (fn : BitVec 5) (v : State), v = s.at_ t → v.boot.req = some (a, b) → sb b 0 = 0x0C → v.boot.session.isSome = true → (v.get SYS_STAT.MODE = 1 ∨ v.get SYS_STAT.MODE = 2 ∨ v.get SYS_STAT.MODE = 3) → v.hasRole 4 = true → (v.tripRestart fn.toNat).2 = true → exec (.tripRestartOperation t fn) s = .next ((v.tripRestart fn.toNat).1.finishOp 0)) ∧
  (∀ (s : State) (t : Nat) (a : Nat) (b : List Byte) (fn : BitVec 5) (v : State), v = s.at_ t → v.boot.req = some (a, b) → sb b 0 = 0x0C → v.boot.session.isSome = true → (v.get SYS_STAT.MODE = 1 ∨ v.get SYS_STAT.MODE = 2 ∨ v.get SYS_STAT.MODE = 3) → v.hasRole 4 = true → (v.tripRestart fn.toNat).2 = false → exec (.tripRestartOperation t fn) s = .next ((v.tripRestart fn.toNat).1.finishOp 3)) ∧
  (∀ (s : State) (t : Nat) (a : Nat) (b : List Byte) (part : BitVec 8) (v : State), v = s.at_ t → v.boot.req = some (a, b) → sb b 0 = 0x0D → v.boot.session.isSome = true → (v.get SYS_STAT.MODE = 1 ∨ v.get SYS_STAT.MODE = 2 ∨ v.get SYS_STAT.MODE = 3 ∨ v.get SYS_STAT.MODE = 4) → v.hasRole 3 = true → (v.put REC_CLEAR_TOK.TOKEN_ID v.tokenId).clearRefused part.toNat = false → exec (.clearOperation t part) s = .next (((v.put REC_CLEAR_TOK.TOKEN_ID v.tokenId).clearStart part.toNat).finishOp 0)) ∧
  (∀ (s : State) (t : Nat) (a : Nat) (b : List Byte) (part : BitVec 8) (v : State), v = s.at_ t → v.boot.req = some (a, b) → sb b 0 = 0x0D → v.boot.session.isSome = true → (v.get SYS_STAT.MODE = 1 ∨ v.get SYS_STAT.MODE = 2 ∨ v.get SYS_STAT.MODE = 3 ∨ v.get SYS_STAT.MODE = 4) → v.hasRole 3 = true → (v.put REC_CLEAR_TOK.TOKEN_ID v.tokenId).clearRefused part.toNat = true → exec (.clearOperation t part) s = .next (((v.put REC_CLEAR_TOK.TOKEN_ID v.tokenId).inc REC_REJ_CNT).finishOp 3)) ∧
  (∀ (s : State) (t : Nat) (a : Nat) (b : List Byte) (v : State), v = s.at_ t → v.boot.req = some (a, b) → sb b 0 = 0x0E → v.boot.session.isSome = true → (v.get SYS_STAT.MODE = 1 ∨ v.get SYS_STAT.MODE = 2 ∨ v.get SYS_STAT.MODE = 3 ∨ v.get SYS_STAT.MODE = 4) → v.hasRole 0 = true → exec (.saveEnvelopes t) s = .next (v.saveEnvelopes.finishOp 0)) ∧
  (∀ (s : State) (t : Nat) (a : Nat) (b : List Byte) (img : List Byte) (sig : SigCheck) (rsaMask slhMask : BitVec 4) (v : State), v = s.at_ t → v.boot.req = some (a, b) → sb b 0 = 0x0F → v.boot.session.isSome = true → (v.get SYS_STAT.MODE = 1 ∨ v.get SYS_STAT.MODE = 4) → v.hasRole 2 = true → v.imageValid (listImage img) 5 sig = true → bitOf rsaMask.toNat (imgNum (listImage img) 0x2C 1) = false → bitOf slhMask.toNat (imgNum (listImage img) 0x2D 1) = false → ((List.range 4).any (fun k => bitOf (v.get UPD_OTP.RSA_PROG) k && !bitOf (v.get UPD_OTP.RSA_REV ||| rsaMask.toNat) k) = true) → ((List.range 4).any (fun k => bitOf (v.get UPD_OTP.SLH_PROG) k && !bitOf (v.get UPD_OTP.SLH_REV ||| slhMask.toNat) k) = true) → exec (.revoke t img sig rsaMask slhMask) s = .next (((v.put UPD_OTP.RSA_REV (v.get UPD_OTP.RSA_REV ||| rsaMask.toNat)).put UPD_OTP.SLH_REV (v.get UPD_OTP.SLH_REV ||| slhMask.toNat)).finishOp 0)) ∧
  (∀ (s : State) (t : Nat) (a : Nat) (b : List Byte) (img : List Byte) (sig : SigCheck) (rsaMask slhMask : BitVec 4) (v : State), v = s.at_ t → v.boot.req = some (a, b) → sb b 0 = 0x0F → v.boot.session.isSome = true → (v.get SYS_STAT.MODE = 1 ∨ v.get SYS_STAT.MODE = 4) → v.hasRole 2 = true → (¬ (v.imageValid (listImage img) 5 sig = true ∧ bitOf rsaMask.toNat (imgNum (listImage img) 0x2C 1) = false ∧ bitOf slhMask.toNat (imgNum (listImage img) 0x2D 1) = false ∧ (List.range 4).any (fun k => bitOf (v.get UPD_OTP.RSA_PROG) k && !bitOf (v.get UPD_OTP.RSA_REV ||| rsaMask.toNat) k) = true ∧ (List.range 4).any (fun k => bitOf (v.get UPD_OTP.SLH_PROG) k && !bitOf (v.get UPD_OTP.SLH_REV ||| slhMask.toNat) k) = true)) → exec (.revoke t img sig rsaMask slhMask) s = .next ((v.refuseImage 1 v.runSlot (imgId (listImage img))).finishOp 4)) ∧
  (∀ (s : State) (t : Nat) (a : Nat) (b : List Byte) (rtc : BitVec 64) (n : Bool) (v : State), v = s.at_ t → v.boot.req = some (a, b) → sb b 0 = 0x10 → v.boot.session.isSome = true → (v.get SYS_STAT.MODE = 1 ∨ v.get SYS_STAT.MODE = 2 ∨ v.get SYS_STAT.MODE = 3 ∨ v.get SYS_STAT.MODE = 4) → v.hasRole 0 = true → exec (.setRtc t rtc n) s = .next (((v.put SYS_RTC.RTC rtc.toNat).putFlag UPD_STAT.NEXT_SERVICE n).finishOp 0)) ∧
  (∀ (s : State) (a res : Nat) (b : List Byte), s.boot.req = some (a, b) → res < 16 → (s.finishOp res).boot.req = none ∧ (s.finishOp res).flag UPD_STAT.REQ_BUSY = false ∧ (s.finishOp res).get UPD_STAT.REQ_RES = res)

/-- The address map is the one the model takes from R23. A write across two regions, at an address of no region, of a wrong shape or without the right traps and changes nothing else. In a memory region a write of 1, 2, 4 or 8 bytes with the right stores its bytes, of the Tricycle each core that executes for itself, in its output image by the image store, without the right faulting that core; but the boot supervisor writing a partition whose core runs is the undefined behaviour of R57, a fault of the model (assumption 133); in a table or rack window it does what such a write does. Of the registers: a guarded one without an unlock counts in REGG_DENY_CNT; with one, or not guarded, the write consumes the unlock of its block; then an _ACT alias or a RO register counts in REGG_ROWR_CNT, but a RO register that its field table states as loaded is set by the boot supervisor in BOOT; a reserved bit with another value than it reads faults (R57, assumption 133); a word kept per core changes nothing else; a register that acts by itself acts; else every word written becomes pending (RW, RWG) or is set at once (RWI), and a write at an address of no register, or of a WO register with no action, does no more. Writes of REGG_UNLOCK and REGG_STROBE are those commands. (R23, R28, R35, R36, R39, R41, R42, R43, R45, R57) -/
def Obligations.RegisterWrites : Prop :=
  (∀ (s : State) (t : Nat) (who : Initiator) (addr : BitVec 64) (size : Nat) (data : BitVec 64) (v : State), v = s.at_ t → v.acts who = true → regionAt addr.toNat size = none → exec (.registerWrite t who addr size data) s = .next (v.trap who true addr.toNat)) ∧
  (∀ (s : State) (t : Nat) (who : Initiator) (addr : BitVec 64) (size : Nat) (data : BitVec 64) (r : Region) (v : State), v = s.at_ t → v.acts who = true → regionAt addr.toNat size = some r → (r ≠ .mmio ∧ r ≠ .table ∧ r ≠ .rack) → who ≠ .tri → (memSize size = false ∨ memRight who none true r = false) → exec (.registerWrite t who addr size data) s = .next (v.trap who true addr.toNat)) ∧
  (∀ (s : State) (t : Nat) (who : Initiator) (addr : BitVec 64) (size : Nat) (data : BitVec 64) (r : Region) (v : State), v = s.at_ t → v.acts who = true → regionAt addr.toNat size = some r → (r ≠ .mmio ∧ r ≠ .table ∧ r ≠ .rack) → who ≠ .tri → memSize size = true → memRight who none true r = true → v.runsOver who r = false → exec (.registerWrite t who addr size data) s = .next (v.memStore who addr.toNat size (data.toNat % 2 ^ (8 * size)))) ∧
  (∀ (s : State) (t : Nat) (who : Initiator) (addr : BitVec 64) (size : Nat) (data : BitVec 64) (r : Region) (v : State), v = s.at_ t → v.acts who = true → regionAt addr.toNat size = some r → (r ≠ .mmio ∧ r ≠ .table ∧ r ≠ .rack) → who ≠ .tri → memSize size = true → memRight who none true r = true → v.runsOver who r = true → exec (.registerWrite t who addr size data) s = .fault .runningCoreMemory) ∧
  (∀ (s : State) (t : Nat) (addr : BitVec 64) (size : Nat) (data : BitVec 64) (r : Region) (v : State), v = s.at_ t → regionAt addr.toNat size = some r → (r ≠ .mmio ∧ r ≠ .table ∧ r ≠ .rack) → exec (.registerWrite t .tri addr size data) s = .next (v.triCores.foldl (fun x k => x.coreStore k r addr.toNat size (data.toNat % 2 ^ (8 * size))) v)) ∧
  (∀ (s : State) (k : Nat) (r : Region) (a n d : Nat), (memSize n = false ∨ memRight .tri (some k) true r = false) → s.coreStore k r a n d = (s.noteTrap .tri true a).coreFault k) ∧
  (∀ (s : State) (k : Nat) (r : Region) (a n d : Nat), memSize n = true → memRight .tri (some k) true r = true → r = .tcmAlias → 0x08070000 ≤ a → s.coreStore k r a n d = s.imageStore k (a - 0x08070000) n d) ∧
  (∀ (s : State) (k : Nat) (r : Region) (a n d : Nat), memSize n = true → memRight .tri (some k) true r = true → (r ≠ .tcmAlias ∨ a < 0x08070000) → s.coreStore k r a n d = s.memStore .tri (coreAddr k a) n d) ∧
  (∀ (s : State) (t : Nat) (who : Initiator) (addr : BitVec 64) (size : Nat) (data : BitVec 64) (v : State), v = s.at_ t → v.acts who = true → regionAt addr.toNat size = some .table → exec (.registerWrite t who addr size data) s = v.writeTableWindow who addr.toNat size (data.toNat % 2 ^ (8 * size))) ∧
  (∀ (s : State) (t : Nat) (who : Initiator) (addr : BitVec 64) (size : Nat) (data : BitVec 64) (v : State), v = s.at_ t → v.acts who = true → regionAt addr.toNat size = some .rack → exec (.registerWrite t who addr size data) s = execRackOutboundAccess.core who v addr.toNat size (some (data.toNat % 2 ^ (8 * size)))) ∧
  (∀ (s : State) (t : Nat) (who : Initiator) (addr : BitVec 64) (size : Nat) (data : BitVec 64) (v : State), v = s.at_ t → v.acts who = true → regionAt addr.toNat size = some .mmio → regShape addr.toNat size = false → exec (.registerWrite t who addr size data) s = .next (v.trap who true addr.toNat)) ∧
  (∀ (s : State) (t : Nat) (who : Initiator) (addr : BitVec 64) (size : Nat) (data : BitVec 64) (v : State), v = s.at_ t → v.acts who = true → regionAt addr.toNat size = some .mmio → regShape addr.toNat size = true → addr.toNat ≠ REGG_UNLOCK.KEY.addr → (mayWrite who (blockOf addr.toNat) = false ∨ regRight who addr.toNat = false) → exec (.registerWrite t who addr size data) s = .next (v.trap who true addr.toNat)) ∧
  (∀ (s : State) (t : Nat) (who : Initiator) (addr : BitVec 64) (size : Nat) (data : BitVec 64) (v : State), v = s.at_ t → v.acts who = true → regionAt addr.toNat size = some .mmio → regShape addr.toNat size = true → addr.toNat ≠ REGG_UNLOCK.KEY.addr → mayWrite who (blockOf addr.toNat) = true → regRight who addr.toNat = true → guarded addr.toNat = true → v.unlocked who (blockOf addr.toNat) = false → exec (.registerWrite t who addr size data) s = .next (v.inc REGG_DENY_CNT)) ∧
  (∀ (s : State) (t : Nat) (who : Initiator) (addr : BitVec 64) (size : Nat) (data : BitVec 64) (v : State), v = s.at_ t → v.acts who = true → regionAt addr.toNat size = some .mmio → regShape addr.toNat size = true → addr.toNat ≠ REGG_UNLOCK.KEY.addr → mayWrite who (blockOf addr.toNat) = true → regRight who addr.toNat = true → (guarded addr.toNat = false ∨ v.unlocked who (blockOf addr.toNat) = true) → isAlias addr.toNat = true → exec (.registerWrite t who addr size data) s = .next ((v.consume who (blockOf addr.toNat)).inc REGG_ROWR_CNT)) ∧
  (∀ (s : State) (t : Nat) (who : Initiator) (addr : BitVec 64) (size : Nat) (data : BitVec 64) (v : State), v = s.at_ t → v.acts who = true → regionAt addr.toNat size = some .mmio → regShape addr.toNat size = true → addr.toNat ≠ REGG_UNLOCK.KEY.addr → mayWrite who (blockOf addr.toNat) = true → regRight who addr.toNat = true → (guarded addr.toNat = false ∨ v.unlocked who (blockOf addr.toNat) = true) → isAlias addr.toNat = false → findRow addr.toNat = none → exec (.registerWrite t who addr size data) s = .next ((v.consume who (blockOf addr.toNat)))) ∧
  (∀ (s : State) (t : Nat) (who : Initiator) (addr : BitVec 64) (size : Nat) (data : BitVec 64) (r : RegRow) (v : State), v = s.at_ t → v.acts who = true → regionAt addr.toNat size = some .mmio → regShape addr.toNat size = true → addr.toNat ≠ REGG_UNLOCK.KEY.addr → mayWrite who (blockOf addr.toNat) = true → regRight who addr.toNat = true → (guarded addr.toNat = false ∨ v.unlocked who (blockOf addr.toNat) = true) → isAlias addr.toNat = false → findRow addr.toNat = some r → r.acc = .ro → (who ≠ .boot ∨ r.stated = false ∨ v.get SYS_STAT.MODE ≠ 0) → exec (.registerWrite t who addr size data) s = .next ((v.consume who (blockOf addr.toNat)).inc REGG_ROWR_CNT)) ∧
  (∀ (s : State) (t : Nat) (who : Initiator) (addr : BitVec 64) (size : Nat) (data : BitVec 64) (r : RegRow) (v : State), v = s.at_ t → v.acts who = true → regionAt addr.toNat size = some .mmio → regShape addr.toNat size = true → addr.toNat ≠ REGG_UNLOCK.KEY.addr → mayWrite who (blockOf addr.toNat) = true → regRight who addr.toNat = true → (guarded addr.toNat = false ∨ v.unlocked who (blockOf addr.toNat) = true) → isAlias addr.toNat = false → findRow addr.toNat = some r → (r.acc ≠ .ro ∨ (r.stated = true ∧ who = .boot ∧ v.get SYS_STAT.MODE = 0)) → ((wordsOf size (data.toNat % 2 ^ (8 * size))).all (fun p => v.reservedKept (addr.toNat + p.1) p.2) = false) → exec (.registerWrite t who addr size data) s = .fault .reservedBitWrite) ∧
  (∀ (s : State) (t : Nat) (who : Initiator) (addr : BitVec 64) (size : Nat) (data : BitVec 64) (r : RegRow) (v : State), v = s.at_ t → v.acts who = true → regionAt addr.toNat size = some .mmio → regShape addr.toNat size = true → addr.toNat ≠ REGG_UNLOCK.KEY.addr → mayWrite who (blockOf addr.toNat) = true → regRight who addr.toNat = true → (guarded addr.toNat = false ∨ v.unlocked who (blockOf addr.toNat) = true) → isAlias addr.toNat = false → findRow addr.toNat = some r → (r.acc ≠ .ro ∨ (r.stated = true ∧ who = .boot ∧ v.get SYS_STAT.MODE = 0)) → ((wordsOf size (data.toNat % 2 ^ (8 * size))).all (fun p => v.reservedKept (addr.toNat + p.1) p.2) = true) → perCore addr.toNat = true → exec (.registerWrite t who addr size data) s = .next ((v.consume who (blockOf addr.toNat)))) ∧
  (∀ (s : State) (t : Nat) (who : Initiator) (addr : BitVec 64) (size : Nat) (data : BitVec 64) (r : RegRow) (out : Result) (v : State), v = s.at_ t → v.acts who = true → regionAt addr.toNat size = some .mmio → regShape addr.toNat size = true → addr.toNat ≠ REGG_UNLOCK.KEY.addr → mayWrite who (blockOf addr.toNat) = true → regRight who addr.toNat = true → (guarded addr.toNat = false ∨ v.unlocked who (blockOf addr.toNat) = true) → isAlias addr.toNat = false → findRow addr.toNat = some r → (r.acc ≠ .ro ∨ (r.stated = true ∧ who = .boot ∧ v.get SYS_STAT.MODE = 0)) → ((wordsOf size (data.toNat % 2 ^ (8 * size))).all (fun p => v.reservedKept (addr.toNat + p.1) p.2) = true) → perCore addr.toNat = false → v.ownWrite t who addr.toNat size (data.toNat % 2 ^ (8 * size)) = some out → exec (.registerWrite t who addr size data) s = out) ∧
  (∀ (s : State) (t : Nat) (who : Initiator) (addr : BitVec 64) (size : Nat) (data : BitVec 64) (r : RegRow) (v : State), v = s.at_ t → v.acts who = true → regionAt addr.toNat size = some .mmio → regShape addr.toNat size = true → addr.toNat ≠ REGG_UNLOCK.KEY.addr → mayWrite who (blockOf addr.toNat) = true → regRight who addr.toNat = true → (guarded addr.toNat = false ∨ v.unlocked who (blockOf addr.toNat) = true) → isAlias addr.toNat = false → findRow addr.toNat = some r → r.acc ≠ .ro → ((wordsOf size (data.toNat % 2 ^ (8 * size))).all (fun p => v.reservedKept (addr.toNat + p.1) p.2) = true) → perCore addr.toNat = false → (v.ownWrite t who addr.toNat size (data.toNat % 2 ^ (8 * size))).isNone = true → exec (.registerWrite t who addr size data) s = .next ((wordsOf size (data.toNat % 2 ^ (8 * size))).foldl (fun (x : State) p => x.classWord r.acc (addr.toNat + p.1) p.2) (v.consume who (blockOf addr.toNat)))) ∧
  (∀ (s : State) (t : Nat) (who : Initiator) (addr : BitVec 64) (size : Nat) (data : BitVec 64) (r : RegRow) (v : State), v = s.at_ t → v.acts who = true → regionAt addr.toNat size = some .mmio → regShape addr.toNat size = true → addr.toNat ≠ REGG_UNLOCK.KEY.addr → mayWrite who (blockOf addr.toNat) = true → regRight who addr.toNat = true → (guarded addr.toNat = false ∨ v.unlocked who (blockOf addr.toNat) = true) → isAlias addr.toNat = false → findRow addr.toNat = some r → (r.acc = .ro ∧ r.stated = true ∧ who = .boot ∧ v.get SYS_STAT.MODE = 0) → ((wordsOf size (data.toNat % 2 ^ (8 * size))).all (fun p => v.reservedKept (addr.toNat + p.1) p.2) = true) → perCore addr.toNat = false → (v.ownWrite t who addr.toNat size (data.toNat % 2 ^ (8 * size))).isNone = true → exec (.registerWrite t who addr size data) s = .next (((wordsOf size (data.toNat % 2 ^ (8 * size))).foldl (fun (x : State) p => x.classWord r.acc (addr.toNat + p.1) p.2) (v.consume who (blockOf addr.toNat))).configChanged)) ∧
  (∀ (s : State) (t : Nat) (who : Initiator) (addr : BitVec 64) (data : BitVec 64) (r : RegRow) (v : State), v = s.at_ t → v.acts who = true → inMmio addr.toNat = true → regShape addr.toNat 4 = true → addr.toNat ≠ REGG_UNLOCK.KEY.addr → mayWrite who (blockOf addr.toNat) = true → regRight who addr.toNat = true → (guarded addr.toNat = false ∨ v.unlocked who (blockOf addr.toNat) = true) → isAlias addr.toNat = false → findRow addr.toNat = some r → (r.acc = .rw ∨ r.acc = .rwg) → v.reservedKept addr.toNat (data.toNat % 2 ^ 32) = true → perCore addr.toNat = false → (v.ownWrite t who addr.toNat 4 (data.toNat % 2 ^ 32)).isNone = true → Completes (.registerWrite t who addr 4 data) s (fun u => u.pendWord addr.toNat = BitVec.ofNat 32 data.toNat ∧ u.word addr.toNat = v.word addr.toNat ∧ (∀ a, a ≠ addr.toNat → a ≠ REGG_STAT.UNLOCK_HELD.addr → u.pendWord a = v.pendWord a) ∧ v.changesOnly u [REGG_STAT.UNLOCK_HELD.addr])) ∧
  (∀ (s : State) (t : Nat) (who : Initiator) (addr : BitVec 64) (data : BitVec 64) (r : RegRow) (v : State), v = s.at_ t → v.acts who = true → inMmio addr.toNat = true → regShape addr.toNat 8 = true → addr.toNat ≠ REGG_UNLOCK.KEY.addr → mayWrite who (blockOf addr.toNat) = true → regRight who addr.toNat = true → (guarded addr.toNat = false ∨ v.unlocked who (blockOf addr.toNat) = true) → isAlias addr.toNat = false → findRow addr.toNat = some r → r.acc = .rwi → v.reservedKept addr.toNat (data.toNat % 2 ^ 32) = true → v.reservedKept (addr.toNat + 4) (data.toNat / 2 ^ 32) = true → perCore addr.toNat = false → (v.ownWrite t who addr.toNat 8 data.toNat).isNone = true → Completes (.registerWrite t who addr 8 data) s (fun u => u.word addr.toNat = BitVec.ofNat 32 data.toNat ∧ u.word (addr.toNat + 4) = BitVec.ofNat 32 (data.toNat / 2 ^ 32) ∧ v.changesOnly u [REGG_STAT.UNLOCK_HELD.addr, addr.toNat, addr.toNat + 4])) ∧
  (∀ (s : State) (t : Nat) (who : Initiator) (addr : BitVec 64) (data : BitVec 64) (r : RegRow) (v : State), v = s.at_ t → v.acts who = true → inMmio addr.toNat = true → regShape addr.toNat 4 = true → addr.toNat ≠ REGG_UNLOCK.KEY.addr → mayWrite who (blockOf addr.toNat) = true → regRight who addr.toNat = true → (guarded addr.toNat = false ∨ v.unlocked who (blockOf addr.toNat) = true) → isAlias addr.toNat = false → findRow addr.toNat = some r → r.acc = .rwi → v.reservedKept addr.toNat (data.toNat % 2 ^ 32) = true → perCore addr.toNat = false → (v.ownWrite t who addr.toNat 4 (data.toNat % 2 ^ 32)).isNone = true → Completes (.registerWrite t who addr 4 data) s (fun u => u.word addr.toNat = BitVec.ofNat 32 data.toNat ∧ v.changesOnly u [REGG_STAT.UNLOCK_HELD.addr, addr.toNat])) ∧
  (∀ (s : State) (t : Nat) (who : Initiator) (addr : BitVec 64) (data : BitVec 64) (r : RegRow) (v : State), v = s.at_ t → v.acts who = true → inMmio addr.toNat = true → regShape addr.toNat 4 = true → addr.toNat ≠ REGG_UNLOCK.KEY.addr → mayWrite who (blockOf addr.toNat) = true → regRight who addr.toNat = true → (guarded addr.toNat = false ∨ v.unlocked who (blockOf addr.toNat) = true) → isAlias addr.toNat = false → findRow addr.toNat = some r → r.acc = .ro → who ≠ .boot → Completes (.registerWrite t who addr 4 data) s (fun u => u.get REGG_ROWR_CNT = (v.get REGG_ROWR_CNT + 1) % 2 ^ 32 ∧ v.changesOnly u [REGG_STAT.UNLOCK_HELD.addr, REGG_ROWR_CNT.addr])) ∧
  (∀ (s : State) (t : Nat) (who : Initiator) (addr : BitVec 64) (data : BitVec 64) (v : State), v = s.at_ t → v.acts who = true → inMmio addr.toNat = true → regShape addr.toNat 4 = true → addr.toNat ≠ REGG_UNLOCK.KEY.addr → mayWrite who (blockOf addr.toNat) = true → regRight who addr.toNat = true → (guarded addr.toNat = false ∨ v.unlocked who (blockOf addr.toNat) = true) → isAlias addr.toNat = true → Completes (.registerWrite t who addr 4 data) s (fun u => u.get REGG_ROWR_CNT = (v.get REGG_ROWR_CNT + 1) % 2 ^ 32 ∧ v.changesOnly u [REGG_STAT.UNLOCK_HELD.addr, REGG_ROWR_CNT.addr])) ∧
  (∀ (s : State) (t : Nat) (who : Initiator) (key : BitVec 16) (block : BitVec 5), s.acts who = true → exec (.registerWrite t who 0x20030000 4 (BitVec.ofNat 64 (key.toNat + 2 ^ 16 * block.toNat))) s = exec (.reggUnlock who key block) (s.at_ t)) ∧
  (∀ (s : State) (t : Nat) (who : Initiator) (data : BitVec 64), s.acts who = true → 2 ^ 21 ≤ data.toNat % 2 ^ 32 → exec (.registerWrite t who 0x20030000 4 data) s = .fault .reservedBitWrite) ∧
  (∀ (s : State) (t : Nat) (who : Initiator) (groups : BitVec 16), s.acts who = true → exec (.registerWrite t who 0x20030004 4 (BitVec.ofNat 64 groups.toNat)) s = exec (.reggStrobe who groups) (s.at_ t))

/-- Where the pending words lie in rising order, applying those of the selected blocks gives each such word its pending value, leaves every other applied word, and leaves what every word reads as pending. With nothing pending before, of two pending values given to one word of a selected block the later is applied, and nothing stays pending. (R39, R40, R43, R44) -/
def Obligations.PendingValues : Prop :=
  (∀ (s : State) (p : Nat → Bool) (a : Nat), (s.pend.Pairwise (fun x y => x.1 < y.1)) → (s.applyPend p).word a = (if p (blockOf a) then s.pendWord a else s.word a) ∧ (s.applyPend p).pendWord a = s.pendWord a) ∧
  (∀ (s : State) (p : Nat → Bool) (a : Nat) (x y : Word), s.pend = [] → p (blockOf a) = true → (((s.setPend a x).setPend a y).applyPend p).word a = y ∧ (((s.setPend a x).setPend a y).applyPend p).pend = [])

/-- A core of the service part or the boot supervisor: a 64-bit read of a wide window pops the oldest entry and returns all of it; a read of the low half pops it, returns its low half and holds the high half for its initiator; a read of the high half pops nothing, returns what is held, or 0, and forgets it; a read of the narrow window of a loop channel pops; a read of an empty window returns 0 and pops nothing. A load at another register gives its word or words, in a table window what the table holds or 0 beside it, in memory with the right its bytes, in the rack window what an outbound access does; a wrong size or alignment, no right, or no region traps. A core of the Tricycle that executes does the same with its own partition and its own words, but a pop window and the rack window trap and fault the core; behind unresolved device stores its device load waits; one that does not execute changes nothing. (R23, R28, R31, R32, R35, R36, R61, R74, R75) -/
def Obligations.PopWindows : Prop :=
  (∀ (s : State) (t : Nat) (who : Initiator) (core : Nat) (win : BitVec 64) (n e : Nat) (l : List Nat) (v : State), v = s.at_ t → v.acts who = true → who ≠ .tri → n < 16 → win.toNat = 0x20080200 + 8 * n → SMap.getD v.time.caps n [] = e :: l → Completes (.popRead64 t who core win) s (fun u => SMap.find u.popped who.idx = some (e) ∧ SMap.getD u.time.caps n [] = l ∧ u.get (TIME_CAP_STAT.LEVEL n) = l.length % 16 ∧ v.changesOnly u [(TIME_CAP_STAT.LEVEL n).addr])) ∧
  (∀ (s : State) (t : Nat) (who : Initiator) (core : Nat) (win : BitVec 64) (n : Nat) (e : Nat × Bool) (l : List (Nat × Bool)) (v : State), v = s.at_ t → v.acts who = true → who ≠ .tri → n < 8 → win.toNat = 0x200A0038 + 64 * n → (v.eng n).fifo = e :: l → Completes (.popRead64 t who core win) s (fun u => SMap.find u.popped who.idx = some (e.1) ∧ (u.eng n).fifo = l ∧ u.get (CRC_STAT.LEVEL n) = l.length % 32 ∧ v.changesOnly u [(CRC_STAT.LEVEL n).addr])) ∧
  (∀ (s : State) (t : Nat) (who : Initiator) (core : Nat) (win : BitVec 64) (e : Nat) (l : List Nat) (v : State), v = s.at_ t → v.acts who = true → who ≠ .tri → win.toNat = 0x20100010 → v.brg.log = e :: l → Completes (.popRead64 t who core win) s (fun u => SMap.find u.popped who.idx = some (e) ∧ u.brg.log = l ∧ u.held = v.held)) ∧
  (∀ (s : State) (t : Nat) (who : Initiator) (core : Nat) (win : BitVec 64) (e : Nat) (l : List Nat) (v : State), v = s.at_ t → v.acts who = true → who ≠ .tri → win.toNat = 0x20100010 → v.brg.log = e :: l → Completes (.popReadLow t who core win) s (fun u => SMap.find u.popped who.idx = some (e % 2 ^ 32) ∧ u.brg.log = l ∧ SMap.find u.held (heldKey 0x20100010 who) = some (e / 2 ^ 32))) ∧
  (∀ (s : State) (t : Nat) (who : Initiator) (core : Nat) (win : BitVec 64) (c e : Nat) (l : List Nat) (v : State), v = s.at_ t → v.acts who = true → who ≠ .tri → c < 4 → win.toNat = 0x200F0118 + 32 * c → (v.loop c).fifo = e :: l → Completes (.popRead32 t who core win) s (fun u => SMap.find u.popped who.idx = some (e) ∧ (u.loop c).fifo = l ∧ u.get (LOOP_CH_STAT.HRX_LEVEL c) = l.length % 1024 ∧ v.changesOnly u [(LOOP_CH_STAT.HRX_LEVEL c).addr])) ∧
  (∀ (s : State) (t : Nat) (who : Initiator) (core : Nat) (win : BitVec 64) (e : Nat) (w : State) (v : State), v = s.at_ t → v.acts who = true → who ≠ .tri → popWide win.toNat = true → win.toNat % 8 = 0 → v.popHead win.toNat = some (e, w) → Completes (.popReadLow t who core win) s (fun u => SMap.find u.popped who.idx = some (e % 2 ^ 32) ∧ SMap.find u.held (heldKey win.toNat who) = some (e / 2 ^ 32) ∧ (∀ k, k ≠ heldKey win.toNat who → SMap.find u.held k = SMap.find w.held k) ∧ u.regs = w.regs ∧ u.mem = w.mem ∧ u.time = w.time ∧ u.safe = w.safe ∧ u.brg = w.brg)) ∧
  (∀ (s : State) (t : Nat) (who : Initiator) (core : Nat) (win : BitVec 64)  (v : State), v = s.at_ t → v.acts who = true → who ≠ .tri → popWide win.toNat = true → win.toNat % 8 = 0 → Completes (.popReadHigh t who core win) s (fun u => SMap.find u.popped who.idx = some (SMap.getD v.held (heldKey win.toNat who) 0) ∧ SMap.find u.held (heldKey win.toNat who) = none ∧ (∀ k, k ≠ heldKey win.toNat who → SMap.find u.held k = SMap.find v.held k) ∧ u.regs = v.regs ∧ u.time = v.time ∧ u.safe = v.safe ∧ u.brg = v.brg ∧ u.mem = v.mem)) ∧
  (∀ (s : State) (t : Nat) (who : Initiator) (core : Nat) (win : BitVec 64)  (v : State), v = s.at_ t → v.acts who = true → who ≠ .tri → popWide win.toNat = true → win.toNat % 8 = 0 → (v.popHead win.toNat).isNone = true → Completes (.popRead64 t who core win) s (fun u => SMap.find u.popped who.idx = some (0) ∧ u.held = v.held ∧ u.regs = v.regs ∧ u.time = v.time ∧ u.safe = v.safe ∧ u.brg = v.brg ∧ u.loops = v.loops)) ∧
  (∀ (s : State) (t : Nat) (who : Initiator) (core : Nat) (win : BitVec 64)  (v : State), v = s.at_ t → v.acts who = true → who ≠ .tri → popWide win.toNat = true → win.toNat % 8 = 0 → (v.popHead win.toNat).isNone = true → Completes (.popReadLow t who core win) s (fun u => SMap.find u.popped who.idx = some (0) ∧ SMap.find u.held (heldKey win.toNat who) = none ∧ u.regs = v.regs ∧ u.time = v.time ∧ u.safe = v.safe ∧ u.brg = v.brg ∧ u.loops = v.loops)) ∧
  (∀ (s : State) (t : Nat) (who : Initiator) (core : Nat) (win : BitVec 64)  (v : State), v = s.at_ t → v.acts who = true → who ≠ .tri → 0x200F0100 ≤ win.toNat → win.toNat < 0x200F0180 → win.toNat % 32 = 0x18 → (v.popHead win.toNat).isNone = true → Completes (.popRead32 t who core win) s (fun u => SMap.find u.popped who.idx = some (0) ∧ u.held = v.held ∧ u.regs = v.regs ∧ u.time = v.time ∧ u.safe = v.safe ∧ u.brg = v.brg ∧ u.loops = v.loops)) ∧
  (∀ (s : State) (t : Nat) (who : Initiator) (core : Nat) (win : BitVec 64)  (v : State), v = s.at_ t → v.acts who = true → (who ≠ .tri ∨ (v.executes core = true ∧ (inDevice win.toNat = false ∨ (v.core core).queue = []))) → regionAt win.toNat 8 = none → exec (.popRead64 t who core win) s = .next (v.loadTrap who core win.toNat)) ∧
  (∀ (s : State) (t : Nat) (who : Initiator) (core : Nat) (win : BitVec 64)  (v : State), v = s.at_ t → v.acts who = true → (who ≠ .tri ∨ (v.executes core = true ∧ (inDevice win.toNat = false ∨ (v.core core).queue = []))) → regionAt win.toNat 8 = some .mmio → (regShape win.toNat 8 = false ∨ (isPop win.toNat = true ∧ who = .tri)) → exec (.popRead64 t who core win) s = .next (v.loadTrap who core win.toNat)) ∧
  (∀ (s : State) (t : Nat) (who : Initiator) (core : Nat) (win : BitVec 64)  (v : State), v = s.at_ t → v.acts who = true → (who ≠ .tri ∨ (v.executes core = true ∧ (inDevice win.toNat = false ∨ (v.core core).queue = []))) → regionAt win.toNat 8 = some .mmio → regShape win.toNat 8 = true → isPop win.toNat = false → exec (.popRead64 t who core win) s = .next (v.gave who ((v.readBy who core win.toNat).toNat + (v.readBy who core (win.toNat + 4)).toNat * 2 ^ 32))) ∧
  (∀ (s : State) (t : Nat) (who : Initiator) (core : Nat) (win : BitVec 64)  (v : State), v = s.at_ t → v.acts who = true → (who ≠ .tri ∨ (v.executes core = true ∧ (inDevice win.toNat = false ∨ (v.core core).queue = []))) → regionAt win.toNat 8 = some .table → exec (.popRead64 t who core win) s = .next (v.tableLoad who core win.toNat 8)) ∧
  (∀ (s : State) (t : Nat) (who : Initiator) (core : Nat) (win : BitVec 64) (v : State), v = s.at_ t → v.acts who = true → who ≠ .tri → regionAt win.toNat 8 = some .rack → exec (.popRead64 t who core win) s = execRackOutboundAccess.core who v win.toNat 8 none) ∧
  (∀ (s : State) (t : Nat) (core : Nat) (win : BitVec 64) (v : State), v = s.at_ t → v.executes core = true → (v.core core).queue = [] → regionAt win.toNat 8 = some .rack → exec (.popRead64 t .tri core win) s = .next (v.loadTrap .tri core win.toNat)) ∧
  (∀ (s : State) (t : Nat) (who : Initiator) (core : Nat) (win : BitVec 64) (r : Region) (v : State), v = s.at_ t → v.acts who = true → (who ≠ .tri ∨ (v.executes core = true ∧ (inDevice win.toNat = false ∨ (v.core core).queue = []))) → regionAt win.toNat 8 = some r → (r ≠ .mmio ∧ r ≠ .table ∧ r ≠ .rack) → memRight who (some core) false r = true → exec (.popRead64 t who core win) s = .next (v.gave who (v.load (if who = .tri then coreAddr core win.toNat else win.toNat) 8))) ∧
  (∀ (s : State) (t : Nat) (who : Initiator) (core : Nat) (win : BitVec 64) (r : Region) (v : State), v = s.at_ t → v.acts who = true → (who ≠ .tri ∨ (v.executes core = true ∧ (inDevice win.toNat = false ∨ (v.core core).queue = []))) → regionAt win.toNat 8 = some r → (r ≠ .mmio ∧ r ≠ .table ∧ r ≠ .rack) → memRight who (some core) false r = false → exec (.popRead64 t who core win) s = .next (v.loadTrap who core win.toNat)) ∧
  (∀ (s : State) (t : Nat) (core : Nat) (win : BitVec 64) (v : State), v = s.at_ t → v.executes core = false → exec (.popRead64 t .tri core win) s = .next (v)) ∧
  (∀ (s : State) (t : Nat) (core : Nat) (win : BitVec 64) (v : State), v = s.at_ t → v.executes core = true → inDevice win.toNat = true → (v.core core).queue ≠ [] → exec (.popRead64 t .tri core win) s = .next (v.setCore core { v.core core with readStall := some (win.toNat, 8) })) ∧
  (∀ (s : State) (t : Nat) (who : Initiator) (core : Nat) (win : BitVec 64)  (v : State), v = s.at_ t → v.acts who = true → (who ≠ .tri ∨ (v.executes core = true ∧ (inDevice win.toNat = false ∨ (v.core core).queue = []))) → regionAt win.toNat 4 = none → exec (.popReadLow t who core win) s = .next (v.loadTrap who core win.toNat)) ∧
  (∀ (s : State) (t : Nat) (who : Initiator) (core : Nat) (win : BitVec 64)  (v : State), v = s.at_ t → v.acts who = true → (who ≠ .tri ∨ (v.executes core = true ∧ (inDevice win.toNat = false ∨ (v.core core).queue = []))) → regionAt win.toNat 4 = some .mmio → (regShape win.toNat 4 = false ∨ (isPop win.toNat = true ∧ who = .tri)) → exec (.popReadLow t who core win) s = .next (v.loadTrap who core win.toNat)) ∧
  (∀ (s : State) (t : Nat) (who : Initiator) (core : Nat) (win : BitVec 64)  (v : State), v = s.at_ t → v.acts who = true → (who ≠ .tri ∨ (v.executes core = true ∧ (inDevice win.toNat = false ∨ (v.core core).queue = []))) → regionAt win.toNat 4 = some .mmio → regShape win.toNat 4 = true → isPop win.toNat = false → exec (.popReadLow t who core win) s = .next (v.gave who (v.readBy who core win.toNat).toNat)) ∧
  (∀ (s : State) (t : Nat) (who : Initiator) (core : Nat) (win : BitVec 64)  (v : State), v = s.at_ t → v.acts who = true → (who ≠ .tri ∨ (v.executes core = true ∧ (inDevice win.toNat = false ∨ (v.core core).queue = []))) → regionAt win.toNat 4 = some .table → exec (.popReadLow t who core win) s = .next (v.tableLoad who core win.toNat 4)) ∧
  (∀ (s : State) (t : Nat) (who : Initiator) (core : Nat) (win : BitVec 64) (v : State), v = s.at_ t → v.acts who = true → who ≠ .tri → regionAt win.toNat 4 = some .rack → exec (.popReadLow t who core win) s = execRackOutboundAccess.core who v win.toNat 4 none) ∧
  (∀ (s : State) (t : Nat) (core : Nat) (win : BitVec 64) (v : State), v = s.at_ t → v.executes core = true → (v.core core).queue = [] → regionAt win.toNat 4 = some .rack → exec (.popReadLow t .tri core win) s = .next (v.loadTrap .tri core win.toNat)) ∧
  (∀ (s : State) (t : Nat) (who : Initiator) (core : Nat) (win : BitVec 64) (r : Region) (v : State), v = s.at_ t → v.acts who = true → (who ≠ .tri ∨ (v.executes core = true ∧ (inDevice win.toNat = false ∨ (v.core core).queue = []))) → regionAt win.toNat 4 = some r → (r ≠ .mmio ∧ r ≠ .table ∧ r ≠ .rack) → memRight who (some core) false r = true → exec (.popReadLow t who core win) s = .next (v.gave who (v.load (if who = .tri then coreAddr core win.toNat else win.toNat) 4))) ∧
  (∀ (s : State) (t : Nat) (who : Initiator) (core : Nat) (win : BitVec 64) (r : Region) (v : State), v = s.at_ t → v.acts who = true → (who ≠ .tri ∨ (v.executes core = true ∧ (inDevice win.toNat = false ∨ (v.core core).queue = []))) → regionAt win.toNat 4 = some r → (r ≠ .mmio ∧ r ≠ .table ∧ r ≠ .rack) → memRight who (some core) false r = false → exec (.popReadLow t who core win) s = .next (v.loadTrap who core win.toNat)) ∧
  (∀ (s : State) (t : Nat) (core : Nat) (win : BitVec 64) (v : State), v = s.at_ t → v.executes core = false → exec (.popReadLow t .tri core win) s = .next (v)) ∧
  (∀ (s : State) (t : Nat) (core : Nat) (win : BitVec 64) (v : State), v = s.at_ t → v.executes core = true → inDevice win.toNat = true → (v.core core).queue ≠ [] → exec (.popReadLow t .tri core win) s = .next (v.setCore core { v.core core with readStall := some (win.toNat, 4) })) ∧
  (∀ (s : State) (t : Nat) (who : Initiator) (core : Nat) (win : BitVec 64)  (v : State), v = s.at_ t → v.acts who = true → (who ≠ .tri ∨ (v.executes core = true ∧ (inDevice (win.toNat + 4) = false ∨ (v.core core).queue = []))) → regionAt (win.toNat + 4) 4 = none → exec (.popReadHigh t who core win) s = .next (v.loadTrap who core (win.toNat + 4))) ∧
  (∀ (s : State) (t : Nat) (who : Initiator) (core : Nat) (win : BitVec 64)  (v : State), v = s.at_ t → v.acts who = true → (who ≠ .tri ∨ (v.executes core = true ∧ (inDevice (win.toNat + 4) = false ∨ (v.core core).queue = []))) → regionAt (win.toNat + 4) 4 = some .mmio → (regShape (win.toNat + 4) 4 = false ∨ (isPop (win.toNat + 4) = true ∧ who = .tri)) → exec (.popReadHigh t who core win) s = .next (v.loadTrap who core (win.toNat + 4))) ∧
  (∀ (s : State) (t : Nat) (who : Initiator) (core : Nat) (win : BitVec 64)  (v : State), v = s.at_ t → v.acts who = true → (who ≠ .tri ∨ (v.executes core = true ∧ (inDevice (win.toNat + 4) = false ∨ (v.core core).queue = []))) → regionAt (win.toNat + 4) 4 = some .mmio → regShape (win.toNat + 4) 4 = true → isPop (win.toNat + 4) = false → exec (.popReadHigh t who core win) s = .next (v.gave who (v.readBy who core (win.toNat + 4)).toNat)) ∧
  (∀ (s : State) (t : Nat) (who : Initiator) (core : Nat) (win : BitVec 64)  (v : State), v = s.at_ t → v.acts who = true → (who ≠ .tri ∨ (v.executes core = true ∧ (inDevice (win.toNat + 4) = false ∨ (v.core core).queue = []))) → regionAt (win.toNat + 4) 4 = some .table → exec (.popReadHigh t who core win) s = .next (v.tableLoad who core (win.toNat + 4) 4)) ∧
  (∀ (s : State) (t : Nat) (who : Initiator) (core : Nat) (win : BitVec 64) (v : State), v = s.at_ t → v.acts who = true → who ≠ .tri → regionAt (win.toNat + 4) 4 = some .rack → exec (.popReadHigh t who core win) s = execRackOutboundAccess.core who v (win.toNat + 4) 4 none) ∧
  (∀ (s : State) (t : Nat) (core : Nat) (win : BitVec 64) (v : State), v = s.at_ t → v.executes core = true → (v.core core).queue = [] → regionAt (win.toNat + 4) 4 = some .rack → exec (.popReadHigh t .tri core win) s = .next (v.loadTrap .tri core (win.toNat + 4))) ∧
  (∀ (s : State) (t : Nat) (who : Initiator) (core : Nat) (win : BitVec 64) (r : Region) (v : State), v = s.at_ t → v.acts who = true → (who ≠ .tri ∨ (v.executes core = true ∧ (inDevice (win.toNat + 4) = false ∨ (v.core core).queue = []))) → regionAt (win.toNat + 4) 4 = some r → (r ≠ .mmio ∧ r ≠ .table ∧ r ≠ .rack) → memRight who (some core) false r = true → exec (.popReadHigh t who core win) s = .next (v.gave who (v.load (if who = .tri then coreAddr core (win.toNat + 4) else (win.toNat + 4)) 4))) ∧
  (∀ (s : State) (t : Nat) (who : Initiator) (core : Nat) (win : BitVec 64) (r : Region) (v : State), v = s.at_ t → v.acts who = true → (who ≠ .tri ∨ (v.executes core = true ∧ (inDevice (win.toNat + 4) = false ∨ (v.core core).queue = []))) → regionAt (win.toNat + 4) 4 = some r → (r ≠ .mmio ∧ r ≠ .table ∧ r ≠ .rack) → memRight who (some core) false r = false → exec (.popReadHigh t who core win) s = .next (v.loadTrap who core (win.toNat + 4))) ∧
  (∀ (s : State) (t : Nat) (core : Nat) (win : BitVec 64) (v : State), v = s.at_ t → v.executes core = false → exec (.popReadHigh t .tri core win) s = .next (v)) ∧
  (∀ (s : State) (t : Nat) (core : Nat) (win : BitVec 64) (v : State), v = s.at_ t → v.executes core = true → inDevice (win.toNat + 4) = true → (v.core core).queue ≠ [] → exec (.popReadHigh t .tri core win) s = .next (v.setCore core { v.core core with readStall := some ((win.toNat + 4), 4) })) ∧
  (∀ (s : State) (t : Nat) (who : Initiator) (core : Nat) (win : BitVec 64)  (v : State), v = s.at_ t → v.acts who = true → (who ≠ .tri ∨ (v.executes core = true ∧ (inDevice win.toNat = false ∨ (v.core core).queue = []))) → regionAt win.toNat 4 = none → exec (.popRead32 t who core win) s = .next (v.loadTrap who core win.toNat)) ∧
  (∀ (s : State) (t : Nat) (who : Initiator) (core : Nat) (win : BitVec 64)  (v : State), v = s.at_ t → v.acts who = true → (who ≠ .tri ∨ (v.executes core = true ∧ (inDevice win.toNat = false ∨ (v.core core).queue = []))) → regionAt win.toNat 4 = some .mmio → (regShape win.toNat 4 = false ∨ (isPop win.toNat = true ∧ who = .tri)) → exec (.popRead32 t who core win) s = .next (v.loadTrap who core win.toNat)) ∧
  (∀ (s : State) (t : Nat) (who : Initiator) (core : Nat) (win : BitVec 64)  (v : State), v = s.at_ t → v.acts who = true → (who ≠ .tri ∨ (v.executes core = true ∧ (inDevice win.toNat = false ∨ (v.core core).queue = []))) → regionAt win.toNat 4 = some .mmio → regShape win.toNat 4 = true → isPop win.toNat = false → exec (.popRead32 t who core win) s = .next (v.gave who (v.readBy who core win.toNat).toNat)) ∧
  (∀ (s : State) (t : Nat) (who : Initiator) (core : Nat) (win : BitVec 64)  (v : State), v = s.at_ t → v.acts who = true → (who ≠ .tri ∨ (v.executes core = true ∧ (inDevice win.toNat = false ∨ (v.core core).queue = []))) → regionAt win.toNat 4 = some .table → exec (.popRead32 t who core win) s = .next (v.tableLoad who core win.toNat 4)) ∧
  (∀ (s : State) (t : Nat) (who : Initiator) (core : Nat) (win : BitVec 64) (v : State), v = s.at_ t → v.acts who = true → who ≠ .tri → regionAt win.toNat 4 = some .rack → exec (.popRead32 t who core win) s = execRackOutboundAccess.core who v win.toNat 4 none) ∧
  (∀ (s : State) (t : Nat) (core : Nat) (win : BitVec 64) (v : State), v = s.at_ t → v.executes core = true → (v.core core).queue = [] → regionAt win.toNat 4 = some .rack → exec (.popRead32 t .tri core win) s = .next (v.loadTrap .tri core win.toNat)) ∧
  (∀ (s : State) (t : Nat) (who : Initiator) (core : Nat) (win : BitVec 64) (r : Region) (v : State), v = s.at_ t → v.acts who = true → (who ≠ .tri ∨ (v.executes core = true ∧ (inDevice win.toNat = false ∨ (v.core core).queue = []))) → regionAt win.toNat 4 = some r → (r ≠ .mmio ∧ r ≠ .table ∧ r ≠ .rack) → memRight who (some core) false r = true → exec (.popRead32 t who core win) s = .next (v.gave who (v.load (if who = .tri then coreAddr core win.toNat else win.toNat) 4))) ∧
  (∀ (s : State) (t : Nat) (who : Initiator) (core : Nat) (win : BitVec 64) (r : Region) (v : State), v = s.at_ t → v.acts who = true → (who ≠ .tri ∨ (v.executes core = true ∧ (inDevice win.toNat = false ∨ (v.core core).queue = []))) → regionAt win.toNat 4 = some r → (r ≠ .mmio ∧ r ≠ .table ∧ r ≠ .rack) → memRight who (some core) false r = false → exec (.popRead32 t who core win) s = .next (v.loadTrap who core win.toNat)) ∧
  (∀ (s : State) (t : Nat) (core : Nat) (win : BitVec 64) (v : State), v = s.at_ t → v.executes core = false → exec (.popRead32 t .tri core win) s = .next (v)) ∧
  (∀ (s : State) (t : Nat) (core : Nat) (win : BitVec 64) (v : State), v = s.at_ t → v.executes core = true → inDevice win.toNat = true → (v.core core).queue ≠ [] → exec (.popRead32 t .tri core win) s = .next (v.setCore core { v.core core with readStall := some (win.toNat, 4) }))

/-- A write of 4 or 8 bytes, aligned, by an initiator with the right, whose first word is in a table and in no bank in use, stores those of its words that are in a table, changes no other byte and no register, reserved bits included (the model's choice, assumption 147); one whose first word is beside every table changes nothing. Without the right or of a wrong size or alignment, or across the end of the windows, it traps. Into the active signal map bank, or a cadence bank in use, it is undefined by R57, a fault of the model (assumption 133). Into the active term bank it counts in TRIP_TWR_CNT and is not performed. At an address outside the windows the command is REGISTER_WRITE there. (R23, R25, R28, R35, R36, R57, R205, R258) -/
def Obligations.TableWindows : Prop :=
  (∀ (s : State) (t : Nat) (who : Initiator) (addr : BitVec 64) (size : Nat) (data : BitVec 64) (v : State), v = s.at_ t → v.acts who = true → regionAt addr.toNat size = some .table → tableShape addr.toNat size = true → tableRight who addr.toNat = true → inTable addr.toNat = true → (size = 8 → inTable (addr.toNat + 4) = true) → (addr.toNat < 0x21100000 → addr.toNat % 0x100000 / 0x60000 ≠ v.get GW_MAP_STAT.ACTIVE) → (0x21100000 ≤ addr.toNat → addr.toNat < 0x21200000 → v.cadInUse (addr.toNat % 0x100000 / 0x40000) = false) → (0x21200000 ≤ addr.toNat → addr.toNat < 0x21300000 → termBank addr.toNat ≠ v.get TRIP_STAT.BANK) → Completes (.tableWindowWrite t who addr size data) s (fun u => (∀ i, i < size → u.byte (addr.toNat + i) = BitVec.ofNat 8 (data.toNat / 256 ^ i)) ∧ (∀ a, a < addr.toNat ∨ addr.toNat + size ≤ a → u.byte a = v.byte a) ∧ u.regs = v.regs)) ∧
  (∀ (s : State) (t : Nat) (who : Initiator) (addr : BitVec 64) (data : BitVec 64) (v : State), v = s.at_ t → v.acts who = true → regionAt addr.toNat 8 = some .table → tableShape addr.toNat 8 = true → tableRight who addr.toNat = true → inTable addr.toNat = true → inTable (addr.toNat + 4) = false → (addr.toNat < 0x21100000 → addr.toNat % 0x100000 / 0x60000 ≠ v.get GW_MAP_STAT.ACTIVE) → (0x21100000 ≤ addr.toNat → addr.toNat < 0x21200000 → v.cadInUse (addr.toNat % 0x100000 / 0x40000) = false) → (0x21200000 ≤ addr.toNat → addr.toNat < 0x21300000 → termBank addr.toNat ≠ v.get TRIP_STAT.BANK) → Completes (.tableWindowWrite t who addr 8 data) s (fun u => (∀ i, i < 4 → u.byte (addr.toNat + i) = BitVec.ofNat 8 (data.toNat / 256 ^ i)) ∧ (∀ a, a < addr.toNat ∨ addr.toNat + 4 ≤ a → u.byte a = v.byte a) ∧ u.regs = v.regs)) ∧
  (∀ (s : State) (t : Nat) (who : Initiator) (addr : BitVec 64) (size : Nat) (data : BitVec 64) (v : State), v = s.at_ t → v.acts who = true → regionAt addr.toNat size = some .table → tableShape addr.toNat size = true → tableRight who addr.toNat = true → inTable addr.toNat = false → exec (.tableWindowWrite t who addr size data) s = .next (v)) ∧
  (∀ (s : State) (t : Nat) (who : Initiator) (addr : BitVec 64) (size : Nat) (data : BitVec 64) (v : State), v = s.at_ t → v.acts who = true → regionAt addr.toNat size = some .table → (tableShape addr.toNat size = false ∨ tableRight who addr.toNat = false) → exec (.tableWindowWrite t who addr size data) s = .next (v.trap who true addr.toNat)) ∧
  (∀ (s : State) (t : Nat) (who : Initiator) (addr : BitVec 64) (size : Nat) (data : BitVec 64) (v : State), v = s.at_ t → v.acts who = true → regionAt addr.toNat size = none → exec (.tableWindowWrite t who addr size data) s = .next (v.trap who true addr.toNat)) ∧
  (∀ (s : State) (t : Nat) (who : Initiator) (addr : BitVec 64) (size : Nat) (data : BitVec 64), s.acts who = true → exec (.tableWindowWrite t who addr size data) s = exec (.registerWrite t who addr size data) s) ∧
  (∀ (s : State) (t : Nat) (who : Initiator) (addr : BitVec 64) (size : Nat) (data : BitVec 64) (v : State), v = s.at_ t → v.acts who = true → regionAt addr.toNat size = some .table → tableShape addr.toNat size = true → tableRight who addr.toNat = true → inTable addr.toNat = true → addr.toNat < 0x21100000 → addr.toNat % 0x100000 / 0x60000 = v.get GW_MAP_STAT.ACTIVE → exec (.tableWindowWrite t who addr size data) s = .fault .activeMapBankWrite) ∧
  (∀ (s : State) (t : Nat) (who : Initiator) (addr : BitVec 64) (size : Nat) (data : BitVec 64) (v : State), v = s.at_ t → v.acts who = true → regionAt addr.toNat size = some .table → tableShape addr.toNat size = true → tableRight who addr.toNat = true → inTable addr.toNat = true → 0x21100000 ≤ addr.toNat → addr.toNat < 0x21200000 → v.cadInUse (addr.toNat % 0x100000 / 0x40000) = true → exec (.tableWindowWrite t who addr size data) s = .fault .cadenceBankInUse) ∧
  (∀ (s : State) (t : Nat) (who : Initiator) (addr : BitVec 64) (size : Nat) (data : BitVec 64) (v : State), v = s.at_ t → v.acts who = true → regionAt addr.toNat size = some .table → tableShape addr.toNat size = true → tableRight who addr.toNat = true → inTable addr.toNat = true → 0x21200000 ≤ addr.toNat → addr.toNat < 0x21300000 → termBank addr.toNat = v.get TRIP_STAT.BANK → Completes (.tableWindowWrite t who addr size data) s (fun u => u.get TRIP_TWR_CNT = (v.get TRIP_TWR_CNT + 1) % 2 ^ 32 ∧ v.changesOnly u [TRIP_TWR_CNT.addr]))

/-- While the recorder is READY and the module not DORMANT, the next queued record leaves the queue and is written whole or broken off; else, or with nothing to write, nothing changes. Each of the writes below consumes the unlock its writer holds for the block. REC_PRG_GO hands over a record of the Tricycle with the bytes of REC_PRG_D, and traps for any other writer. REC_SUBMIT of a running service core counts, and hands over the record at its address where the TYPE there is 0x50 to 0x5F, else counts as rejected; it traps for any other writer, and does nothing where the service part does not run. REC_SNAP fires a software trigger in use. A capture that ends hands over its data records, then its head record, and counts; with none running nothing changes. REC_RD_CMD copies a slot. REC_CLEAR of the boot supervisor starts a clear, or counts as refused, without an unlock counts in REGG_DENY_CNT, and traps for any other writer. The end of a clear zeroes the old slots, hands over the record of the end and counts; with no clear at its end nothing changes. While the trace runs its oldest packet leaves and counts; else nothing changes. (R450, R453, R454, R457, R458, R459, R460, R461, R465, R467, R498) -/
def Obligations.RecorderCommands : Prop :=
  (∀ (s : State) (cut : Option Nat) (k : Nat) (q : QRec) (x : State), s.flag REC_STAT.READY = true → s.pwr.dormant = false → s.nextQueued = some k → s.recd.queue[k]? = some q → x = { s with recd := { s.recd with queue := s.recd.queue.eraseIdx k } } → exec (.recordWritten cut) s = .next (((x.put REC_STAT.QLEVEL x.recd.queue.length).writeRecord q cut).waitLess)) ∧
  (∀ (s : State) (cut : Option Nat), (s.flag REC_STAT.READY = false ∨ s.pwr.dormant = true ∨ s.nextQueued = none) → exec (.recordWritten cut) s = .next (s)) ∧
  (∀ (s : State) (t : Nat) (typ : BitVec 4) (code : BitVec 8) (v : State), v = s.at_ t → exec (.programRecord t .tri typ code) s = .next ((v.consume .tri 0x13).record (0x40 + typ.toNat) code.toNat ((List.range 8).flatMap (fun i => leBytes 4 (v.get (REC_PRG_D.DATA i)))))) ∧
  (∀ (s : State) (t : Nat) (who : Initiator) (typ : BitVec 4) (code : BitVec 8) (v : State), v = s.at_ t → v.acts who = true → who ≠ .tri → exec (.programRecord t who typ code) s = .next (v.trap who true REC_PRG_GO.TYPE.addr)) ∧
  (∀ (s : State) (t : Nat) (who : Initiator) (addr : BitVec 32) (v : State), v = s.at_ t → v.acts who = true → who.isService = false → exec (.softwareRecord t who addr) s = .next (v.trap who true REC_SUBMIT.ADDR.addr)) ∧
  (∀ (s : State) (t : Nat) (who : Initiator) (addr : BitVec 32) (v : State), v = s.at_ t → v.acts who = false → exec (.softwareRecord t who addr) s = .next (v)) ∧
  (∀ (s : State) (t : Nat) (who : Initiator) (addr : BitVec 32) (v : State), v = s.at_ t → v.acts who = true → who.isService = true → s.serviceUp = true → 0x50 ≤ sb (v.bytes (addr.toNat / 64 * 64) 64) 4 → sb (v.bytes (addr.toNat / 64 * 64) 64) 4 ≤ 0x5F → exec (.softwareRecord t who addr) s = .next (((v.consume who 0x13).inc REC_SUB_DONE_CNT).record (sb (v.bytes (addr.toNat / 64 * 64) 64) 4) (sb (v.bytes (addr.toNat / 64 * 64) 64) 6) (((v.bytes (addr.toNat / 64 * 64) 64).drop 0x18).take 32))) ∧
  (∀ (s : State) (t : Nat) (who : Initiator) (addr : BitVec 32) (v : State), v = s.at_ t → v.acts who = true → who.isService = true → s.serviceUp = true → (sb (v.bytes (addr.toNat / 64 * 64) 64) 4 < 0x50 ∨ 0x5F < sb (v.bytes (addr.toNat / 64 * 64) 64) 4) → exec (.softwareRecord t who addr) s = .next (((v.consume who 0x13).inc REC_SUB_DONE_CNT).inc REC_REJ_CNT)) ∧
  (∀ (s : State) (t : Nat) (who : Initiator) (trg : BitVec 5) (v : State), v = s.at_ t → v.acts who = true → (v.consume who 0x13).trigUsed trg.toNat 2 = true → exec (.snapshotTrigger t who trg) s = .next ((v.consume who 0x13).fireTrigger trg.toNat 2 0)) ∧
  (∀ (s : State) (t : Nat) (who : Initiator) (trg : BitVec 5) (v : State), v = s.at_ t → v.acts who = true → (v.consume who 0x13).trigUsed trg.toNat 2 = false → exec (.snapshotTrigger t who trg) s = .next (v.consume who 0x13)) ∧
  (∀ (s : State) (t : Nat) (first span : Nat) (c : Capture) (l : List Nat) (v : State), v = s.at_ t → v.recd.running = some c → l = v.snapList c.trig → exec (.snapshotCaptureDone t first span) s = .next ((let x := ((List.range ((l.length + 4) / 5)).foldl (fun x i => x.handOver ⟨2, x.snapFrame 0x31 c.trig (leBytes 4 0 ++ leBytes 1 (i + 1) ++ leBytes 3 0 ++ ((l.drop (5 * i)).take 5).flatMap v.snapPair), none⟩) v); let y := x.handOver ⟨2, x.snapFrame 0x30 c.trig (leBytes 8 c.lane ++ leBytes 8 c.consist ++ leBytes 8 first ++ leBytes 4 span ++ leBytes 1 l.length ++ leBytes 1 c.kind ++ leBytes 2 0 ++ leBytes 4 c.source), none⟩; ((({ y with recd := { y.recd with running := none } } : State).putFlag REC_STAT.CAPTURE false).inc REC_SNAP_CNT).startCapture))) ∧
  (∀ (s : State) (t : Nat) (first span : Nat) (v : State), v = s.at_ t → v.recd.running = none → exec (.snapshotCaptureDone t first span) s = .next (v)) ∧
  (∀ (s : State) (t : Nat) (who : Initiator) (part : BitVec 3) (slot : BitVec 21) (v : State), v = s.at_ t → v.acts who = true → exec (.slotRead t who part slot) s = .next ((v.consume who 0x13).readSlot part.toNat slot.toNat)) ∧
  (∀ (s : State) (t : Nat) (part : BitVec 2) (v : State), v = s.at_ t → v.unlocked .boot 0x13 = true → (v.dropUnlock .boot).clearRefused part.toNat = false → exec (.clear t .boot part) s = .next ((v.dropUnlock .boot).clearStart part.toNat)) ∧
  (∀ (s : State) (t : Nat) (part : BitVec 2) (v : State), v = s.at_ t → v.unlocked .boot 0x13 = true → (v.dropUnlock .boot).clearRefused part.toNat = true → exec (.clear t .boot part) s = .next ((v.dropUnlock .boot).inc REC_REJ_CNT)) ∧
  (∀ (s : State) (t : Nat) (part : BitVec 2) (v : State), v = s.at_ t → v.unlocked .boot 0x13 = false → exec (.clear t .boot part) s = .next (v.inc REGG_DENY_CNT)) ∧
  (∀ (s : State) (t : Nat) (who : Initiator) (part : BitVec 2) (v : State), v = s.at_ t → v.acts who = true → who ≠ .boot → exec (.clear t who part) s = .next (v.trap who true REC_CLEAR.PART.addr)) ∧
  (∀ (s : State) (t : Nat) (p k : Nat) (data : List Byte) (x : State) (v : State), v = s.at_ t → v.recd.clear = some ⟨p, k, some data⟩ → (x = ((v.usedSlots p).filter (fun i => v.get (REC_PART.COUNT p) ≤ (i + partCap p - v.get (REC_PART.OLDEST p)) % partCap p)).foldl (fun x i => x.zeroSlot p i) v) → exec (.clearDone t) s = .next (((({ x with recd := { x.recd with clear := none } } : State).record 0x70 2 data).inc REC_CLEAR_CNT).putFlag REC_STAT.CLEARING false)) ∧
  (∀ (s : State) (t : Nat) (v : State), v = s.at_ t → (∀ p k data, v.recd.clear ≠ some ⟨p, k, some data⟩) → exec (.clearDone t) s = .next (v)) ∧
  (∀ (s : State), (s.obs.buf = [] ∨ s.flag OBS_TRC_STAT.RUN = false) → exec (.tracePacketSent) s = .next (s)) ∧
  (∀ (s : State) (h : List Byte) (l : List (List Byte)), s.obs.buf = h :: l → s.flag OBS_TRC_STAT.RUN = true → Completes (.tracePacketSent) s (fun u => u.obs.buf = l ∧ u.get OBS_TRC_STAT.LEVEL = traceLevel l % 2 ^ OBS_TRC_STAT.LEVEL.width ∧ u.get OBS_TRC_PKT_CNT = (s.get OBS_TRC_PKT_CNT + 1) % 2 ^ 32 ∧ s.changesOnly u [OBS_TRC_STAT.LEVEL.addr, OBS_TRC_PKT_CNT.addr]))

/-- A slot written whole holds its MARK and a CRC that the check of a slot accepts, and no byte outside the slot changes. The first record of an empty ring of the partitions 0 to 3 becomes its oldest, COUNT becomes 1, NEXT the following slot, and it counts in REC_WR_CNT. A slot read shows the sixteen words of the slot where the partition has it, and zeros where it has not, and counts in REC_RD_CNT. (R450, R453, R465) -/
def Obligations.RecordSlots : Prop :=
  (∀ (s : State) (p i : Nat) (body : List Byte), markOk ((s.writeSlot p i body).slot p i) = true ∧ ∀ a, a < slotAddr p i ∨ slotAddr p i + 64 ≤ a → (s.writeSlot p i body).byte a = s.byte a) ∧
  (∀ (s : State) (p : Nat) (body : List Byte), s.get (REC_PART.COUNT p) = 0 → p < 4 → (s.ringWrite p body).get (REC_PART.COUNT p) = 1 ∧ (s.ringWrite p body).get (REC_PART.OLDEST p) = s.get (REC_PART.NEXT p) ∧ (s.ringWrite p body).get (REC_PART.NEXT p) = nextSlot p (s.get (REC_PART.NEXT p)) ∧ (s.ringWrite p body).get REC_WR_CNT = (s.get REC_WR_CNT + 1) % 2 ^ 32) ∧
  (∀ (s : State) (part i j : Nat), partCap part ≤ i → j < 16 → (s.readSlot part i).get (REC_RD_BUF.DATA j) = 0 ∧ (s.readSlot part i).get REC_RD_CNT = (s.get REC_RD_CNT + 1) % 2 ^ 32) ∧
  (∀ (s : State) (part i j : Nat), i < partCap part → j < 16 → (s.readSlot part i).get (REC_RD_BUF.DATA j) = s.load (slotAddr part i + 4 * j) 4 ∧ (s.readSlot part i).get REC_RD_CNT = (s.get REC_RD_CNT + 1) % 2 ^ 32)

/-- In reset or DORMANT neither comes. Otherwise at a local tick edge LOCAL is the next whole multiple of 62,500 ns, in bypass the first step of 40 ns at or past it, and its work is done in one order: the strobe first, then the TICK packet of the trace, the samples and decisions, and, unless these reset the module, the publication, the latch and the cycle start, the trace packets held back, the copies of cores that were excluded before, the heartbeat; after these, in the model's order (assumption 120), the mailboxes, the MVB sources, the telegram requests, the gPTP messages, the lane tick boundary while LANE was never synchronised, and the stores that wait, where one of them may end in a fault. A lane tick boundary that is due carries the image, shows its offset, takes its number and counts; at a new macrocycle the old one ends; tick 63 sends PDELAY_REQ on both lanes; the spokes come last. One that is not due changes nothing but the time shown. (R12, R13, R14, R15, R16, R43, R95) -/
def Obligations.TickEdges : Prop :=
  (∀ (s : State) (i : EdgeIn), (s.pwr.inReset = true ∨ s.pwr.dormant = true) → exec (.localTickEdge i) s = .next (s)) ∧
  (∀ (s : State) (i : EdgeIn) (x0 : State) (x y : State × List (Nat × List Byte)), s.pwr.inReset = false → s.pwr.dormant = false → x0 = ({ s with time := { s.time with edge := s.nextEdge } } : State).at_ 0 → x = x0.edgeCounts.aside State.strobeEdge → y = x.1.traceRun.traceTick.aside (State.edgeFirst i) → y.1.pwr.inReset = true → exec (.localTickEdge i) s = .next (y.1)) ∧
  (∀ (s : State) (i : EdgeIn) (x0 : State) (x y : State × List (Nat × List Byte)) (z w q : State), s.pwr.inReset = false → s.pwr.dormant = false → x0 = ({ s with time := { s.time with edge := s.nextEdge } } : State).at_ 0 → x = x0.edgeCounts.aside State.strobeEdge → y = x.1.traceRun.traceTick.aside (State.edgeFirst i) → y.1.pwr.inReset = false → (z = ((y.1.edgeCycle.requeue (x.2 ++ y.2)).startCopies ([0, 1, 2].filter (fun n => (x0.core n).st == .excluded))).heartbeatEdge) → w = (((z.mailboxEdge i.unitBad).mvbTick).pdPulls).gptpEdge → (q = (if w.time.laneEver then w else w.boundaryNow).showTime) → q.storeVerdict = none → exec (.localTickEdge i) s = .next (q)) ∧
  (∀ (s : State) (i : EdgeIn) (x0 : State) (x y : State × List (Nat × List Byte)) (z w q : State), s.pwr.inReset = false → s.pwr.dormant = false → x0 = ({ s with time := { s.time with edge := s.nextEdge } } : State).at_ 0 → x = x0.edgeCounts.aside State.strobeEdge → y = x.1.traceRun.traceTick.aside (State.edgeFirst i) → y.1.pwr.inReset = false → (z = ((y.1.edgeCycle.requeue (x.2 ++ y.2)).startCopies ([0, 1, 2].filter (fun n => (x0.core n).st == .excluded))).heartbeatEdge) → w = (((z.mailboxEdge i.unitBad).mvbTick).pdPulls).gptpEdge → (q = (if w.time.laneEver then w else w.boundaryNow).showTime) → exec (.localTickEdge i) s = q.resolveStores 0 64) ∧
  (∀ (s : State), s.flag CLK_STAT.BYPASS = false → s.nextEdge % 62500 = 0 ∧ s.time.edge < s.nextEdge ∧ s.nextEdge ≤ s.time.edge + 62500) ∧
  (∀ (s : State), s.flag CLK_STAT.BYPASS = true → s.clk.phase < 40 → s.nextEdge % 40 = s.clk.phase ∧ s.time.edge < s.nextEdge ∧ s.nextEdge < s.time.edge + 62540 ∧ (∀ n, n % 40 = s.clk.phase → (s.time.edge / 62500 + 1) * 62500 ≤ n → s.nextEdge ≤ n)) ∧
  (∀ (s : State) (t : Nat), (s.pwr.inReset = true ∨ s.pwr.dormant = true) → exec (.laneTickBoundary t) s = .next (s)) ∧
  (∀ (s : State) (t : Nat) (v : State), v = s.at_ t → s.pwr.inReset = false → s.pwr.dormant = false → v.boundaryDue = false → exec (.laneTickBoundary t) s = .next (v)) ∧
  (∀ (s : State) (t : Nat) (x y z w : State) (v : State), v = s.at_ t → s.pwr.inReset = false → s.pwr.dormant = false → v.boundaryDue = true → x = v.carry.put LANE_OFS.OFS (v.carry.ofs % 62500) → y = { x with lanes := { x.lanes with tick := v.laneTick, boundary := x.localNow } } → z = ([0, 1].foldl State.laneBoundary y).boundaryCounts → (w = (if v.lanes.tick / 64 = v.laneTick / 64 then z else ([0, 1].foldl (fun q l => q.traceLane (v.lanes.tick / 64 % 2 ^ 32) l) ([0, 1].foldl State.laneMacro z)).modeBoundary (v.laneTick / 64 % 2 ^ 32))) → exec (.laneTickBoundary t) s = .next ((if v.laneTick % 64 = 63 then [0, 1].foldl State.pdelaySend w else w).spokeTick)) ∧
  (∀ (s : State), s.time.laneEver = false → s.laneTick = s.localNow / 62500) ∧
  (∀ (s : State), s.time.laneEver = true → s.laneTick = s.laneNow / 62500)

/-- For every command c and state with c in front of its queue, the step is exec of c on the state with the rest of the queue; on an empty queue the step leaves the state as it is (the queue is the model's choice, assumption 1). (R16, R57) -/
def Obligations.StepRunsFront : Prop :=
  (∀ (c : Instr) (s : State) (rest : List Instr), s.pending = c :: rest → step s = exec c { s with pending := rest }) ∧
  (∀ (s : State), s.pending = [] → step s = .next s)

/-- Where the address map, the saved envelopes and the staging area are in canonical form (addresses rising, no byte 0 listed) and a step answers a next state, they are in canonical form in that state too. (R6, R415, R450) -/
def Obligations.MemoriesCanonical : Prop :=
  (∀ (s u : State), s.MemOk → step s = .next u → u.MemOk)

/-- Whatever the command, a next state that exec answers holds the same queue (the queue is the model's, assumption 1). (R16, R57) -/
def Obligations.QueueKept : Prop :=
  (∀ (c : Instr) (s u : State), exec c s = .next u → u.pending = s.pending)

/-- After reset every applied and every pending register word reads its Reset column value, every byte of memory reads 0, every byte memory is in canonical form with nothing listed in the address map, no access has trapped and no command waits. (R9, R415) -/
def Obligations.ResetState : Prop :=
  ((∀ a, State.reset.word a = resetWord a ∧ State.reset.pendWord a = resetWord a ∧ State.reset.byte a = 0) ∧ State.reset.MemOk ∧ State.reset.mem = [] ∧ State.reset.traps = [] ∧ State.reset.pending = [])

/-- In BOOT, in reset, dormant or with the supply in stage 2 or above, the service cluster is halted: of the commands that an initiator gives, none given by a core of it changes anything but the time shown, except that DMA accesses of the rack window and the expiry of an unlock go on. (R407, R420) -/
def Obligations.ServiceHalted : Prop :=
  (∀ (s : State) (who : Initiator), s.acts who = false ↔ who.isService = true ∧ (s.get SYS_STAT.MODE = 0 ∨ s.pwr.inReset = true ∨ s.pwr.dormant = true ∨ 2 ≤ s.get PWR_STAT.STAGE)) ∧
  (∀ (s : State) (t : Nat) (who : Initiator) (addr : BitVec 64) (size : Nat) (data : BitVec 64) (v : State), v = s.at_ t → v.acts who = false → exec (.registerWrite t who addr size data) s = .next (v)) ∧
  (∀ (s : State) (t : Nat) (who : Initiator) (core : Nat) (win : BitVec 64) (v : State), v = s.at_ t → v.acts who = false → exec (.popRead64 t who core win) s = .next (v)) ∧
  (∀ (s : State) (t : Nat) (who : Initiator) (core : Nat) (win : BitVec 64) (v : State), v = s.at_ t → v.acts who = false → exec (.popReadLow t who core win) s = .next (v)) ∧
  (∀ (s : State) (t : Nat) (who : Initiator) (core : Nat) (win : BitVec 64) (v : State), v = s.at_ t → v.acts who = false → exec (.popReadHigh t who core win) s = .next (v)) ∧
  (∀ (s : State) (t : Nat) (who : Initiator) (core : Nat) (win : BitVec 64) (v : State), v = s.at_ t → v.acts who = false → exec (.popRead32 t who core win) s = .next (v)) ∧
  (∀ (s : State) (who : Initiator) (key : BitVec 16) (block : BitVec 5), s.acts who = false → exec (.reggUnlock who key block) s = .next (s)) ∧
  (∀ (s : State) (who : Initiator) (groups : BitVec 16), s.acts who = false → exec (.reggStrobe who groups) s = .next (s)) ∧
  (∀ (s : State) (t : Nat) (who : Initiator) (core : Nat) (acc : CsrAcc) (v : State), v = s.at_ t → v.acts who = false → exec (.tchkWrite t who core acc) s = .next (v)) ∧
  (∀ (s : State) (t : Nat) (who : Initiator) (v : State), v = s.at_ t → v.acts who = false → exec (.start t who) s = .next (v)) ∧
  (∀ (s : State) (t : Nat) (who : Initiator) (v : State), v = s.at_ t → v.acts who = false → exec (.stop t who) s = .next (v)) ∧
  (∀ (s : State) (t : Nat) (who : Initiator) (v : State), v = s.at_ t → v.acts who = false → exec (.hold t who) s = .next (v)) ∧
  (∀ (s : State) (t : Nat) (who : Initiator) (v : State), v = s.at_ t → v.acts who = false → exec (.resume t who) s = .next (v)) ∧
  (∀ (s : State) (t : Nat) (who : Initiator) (v : State), v = s.at_ t → v.acts who = false → exec (.step t who) s = .next (v)) ∧
  (∀ (s : State) (t : Nat) (who : Initiator) (id : BitVec 64) (bindings : List Bind) (v : State), v = s.at_ t → v.acts who = false → exec (.arm t who id bindings) s = .next (v)) ∧
  (∀ (s : State) (t : Nat) (who : Initiator) (v : State), v = s.at_ t → v.acts who = false → exec (.disarm t who) s = .next (v)) ∧
  (∀ (s : State) (t : Nat) (who : Initiator) (entry : BitVec 8) (ctrl : BitVec 32) (v : State), v = s.at_ t → v.acts who = false → exec (.forceBind t who entry ctrl) s = .next (v)) ∧
  (∀ (s : State) (t : Nat) (who : Initiator) (entry : BitVec 8) (ctrl : BitVec 32) (v : State), v = s.at_ t → v.acts who = false → exec (.forceRelease t who entry ctrl) s = .next (v)) ∧
  (∀ (s : State) (t : Nat) (who : Initiator) (entry : BitVec 8) (value : BitVec 64) (v : State), v = s.at_ t → v.acts who = false → exec (.forceValueWrite t who entry value) s = .next (v)) ∧
  (∀ (s : State) (t : Nat) (who : Initiator) (bank : Bool) (v : State), v = s.at_ t → v.acts who = false → exec (.tripSwap t who bank) s = .next (v)) ∧
  (∀ (s : State) (t : Nat) (who : Initiator) (fn : BitVec 5) (v : State), v = s.at_ t → v.acts who = false → exec (.tripRestart t who fn) s = .next (v)) ∧
  (∀ (s : State) (t : Nat) (who : Initiator) (n : BitVec 7) (v : State), v = s.at_ t → v.acts who = false → exec (.sessionOpen t who n) s = .next (v)) ∧
  (∀ (s : State) (t : Nat) (who : Initiator) (n : BitVec 7) (v : State), v = s.at_ t → v.acts who = false → exec (.sessionClose t who n) s = .next (v)) ∧
  (∀ (s : State) (who : Initiator) (e : BitVec 3) (data : BitVec 32), s.acts who = false → exec (.crcData who e data) s = .next (s)) ∧
  (∀ (s : State) (who : Initiator) (e : BitVec 3) (data : BitVec 64), s.acts who = false → exec (.crcData64 who e data) s = .next (s)) ∧
  (∀ (s : State) (who : Initiator) (e : BitVec 3), s.acts who = false → exec (.job who e) s = .next (s)) ∧
  (∀ (s : State) (who : Initiator) (e : BitVec 3) (k : BitVec 7), s.acts who = false → exec (.save who e k) s = .next (s)) ∧
  (∀ (s : State) (who : Initiator) (e : BitVec 3) (k : BitVec 7), s.acts who = false → exec (.load who e k) s = .next (s)) ∧
  (∀ (s : State) (who : Initiator) (e : BitVec 3), s.acts who = false → exec (.crcInit who e) s = .next (s)) ∧
  (∀ (s : State) (who : Initiator) (e : BitVec 3) (val : BitVec 64), s.acts who = false → exec (.crcValWrite who e val) s = .next (s)) ∧
  (∀ (s : State) (who : Initiator) (e : BitVec 3) (cfg : BitVec 32) (folded : Nat), s.acts who = false → exec (.crcCfgWrite who e cfg folded) s = .next (s)) ∧
  (∀ (s : State) (t : Nat) (who : Initiator) (cid : BitVec 16) (v : State), v = s.at_ t → v.acts who = false → exec (.announceCadence t who cid) s = .next (v)) ∧
  (∀ (s : State) (t : Nat) (who : Initiator) (cid : BitVec 16) (v : State), v = s.at_ t → v.acts who = false → exec (.announceActivate t who cid) s = .next (v)) ∧
  (∀ (s : State) (t : Nat) (who : Initiator) (v : State), v = s.at_ t → v.acts who = false → exec (.cancel t who) s = .next (v)) ∧
  (∀ (s : State) (t : Nat) (who : Initiator) (ring : Nat) (tail : Nat) (v : State), v = s.at_ t → v.acts who = false → exec (.ecnTailWrite t who ring tail) s = .next (v)) ∧
  (∀ (s : State) (t : Nat) (who : Initiator) (bank : Bool) (v : State), v = s.at_ t → v.acts who = false → exec (.gwMapSwap t who bank) s = .next (v)) ∧
  (∀ (s : State) (t : Nat) (who : Initiator) (mask : BitVec 4) (v : State), v = s.at_ t → v.acts who = false → exec (.loopRetry t who mask) s = .next (v)) ∧
  (∀ (s : State) (t : Nat) (who : Initiator) (c : Nat) (len : Nat) (v : State), v = s.at_ t → v.acts who = false → exec (.hartGo t who c len) s = .next (v)) ∧
  (∀ (s : State) (t : Nat) (who : Initiator) (v : State), v = s.at_ t → v.acts who = false → exec (.swap t who) s = .next (v)) ∧
  (∀ (s : State) (t : Nat) (who : Initiator) (v : State), v = s.at_ t → v.acts who = false → exec (.swapUnready t who) s = .next (v)) ∧
  (∀ (s : State) (t : Nat) (who : Initiator) (a : Nat) (size : Nat) (v : State), v = s.at_ t → v.acts who = false → exec (.rackOutboundAccess t who (.load a size)) s = .next (v)) ∧
  (∀ (s : State) (t : Nat) (who : Initiator) (a : Nat) (size : Nat) (d : Nat) (v : State), v = s.at_ t → v.acts who = false → exec (.rackOutboundAccess t who (.store a size d)) s = .next (v)) ∧
  (∀ (s : State) (t : Nat) (who : Initiator) (addr : Nat) (size : Nat) (acc : LockAcc) (v : State), v = s.at_ t → v.acts who = false → exec (.rackLockedSequence t who addr size acc) s = .next (v)) ∧
  (∀ (s : State) (t : Nat) (who : Initiator) (flush : Bool) (v : State), v = s.at_ t → v.acts who = false → exec (.brgPfFlush t who flush) s = .next (v)) ∧
  (∀ (s : State) (t : Nat) (who : Initiator) (v : State), v = s.at_ t → v.acts who = false → exec (.sys t who) s = .next (v)) ∧
  (∀ (s : State) (t : Nat) (who : Initiator) (target : Nat) (v : State), v = s.at_ t → v.acts who = false → exec (.core t who target) s = .next (v)) ∧
  (∀ (s : State) (t : Nat) (who : Initiator) (target : Nat) (v : State), v = s.at_ t → v.acts who = false → exec (.domain t who target) s = .next (v)) ∧
  (∀ (s : State) (t : Nat) (rco : Nat) (who : Initiator) (key : BitVec 16) (v : State), v = s.at_ t → v.acts who = false → exec (.wdgKick t rco who key) s = .next (v)) ∧
  (∀ (s : State) (t : Nat) (who : Initiator) (tmo : BitVec 8) (win : BitVec 8) (v : State), v = s.at_ t → v.acts who = false → exec (.wdgCfgWrite t who tmo win) s = .next (v)) ∧
  (∀ (s : State) (t : Nat) (who : Initiator) (v : State), v = s.at_ t → v.acts who = false → exec (.vital t who) s = .next (v)) ∧
  (∀ (s : State) (t : Nat) (who : Initiator) (v : State), v = s.at_ t → v.acts who = false → exec (.service t who) s = .next (v)) ∧
  (∀ (s : State) (t : Nat) (who : Initiator) (typ : BitVec 4) (code : BitVec 8) (v : State), v = s.at_ t → v.acts who = false → exec (.programRecord t who typ code) s = .next (v)) ∧
  (∀ (s : State) (t : Nat) (who : Initiator) (trg : BitVec 5) (v : State), v = s.at_ t → v.acts who = false → exec (.snapshotTrigger t who trg) s = .next (v)) ∧
  (∀ (s : State) (t : Nat) (who : Initiator) (part : BitVec 3) (slot : BitVec 21) (v : State), v = s.at_ t → v.acts who = false → exec (.slotRead t who part slot) s = .next (v)) ∧
  (∀ (s : State) (t : Nat) (who : Initiator) (part : BitVec 2) (v : State), v = s.at_ t → v.acts who = false → exec (.clear t who part) s = .next (v)) ∧
  (∀ (s : State) (t : Nat) (who : Initiator) (addr : BitVec 64) (size : Nat) (data : BitVec 64) (v : State), v = s.at_ t → v.acts who = false → exec (.tableWindowWrite t who addr size data) s = .next (v))

/-- At t ns after the latest edge, outside reset, TIME_LOCAL shows LOCAL in steps of 4 ns, of 40 ns in bypass, and TIME_LANE and TIME_CONSIST show their bases; no other register word and no byte of memory changes. In reset LOCAL stands still at the edge. Where no pulse output has a channel, that is all; else the channels of the pulse outputs are brought up to date with it. (R281, R320, R396, R397) -/
def Obligations.TimeShown : Prop :=
  (∀ (s : State) (t : Nat), s.pwr.inReset = false → (s.timeAt t).localNow = s.time.edge + t ∧ (s.timeAt t).get TIME_LOCAL.NS = s.localStep (s.time.edge + t) % 2 ^ 64 ∧ (s.timeAt t).get TIME_LANE.NS = (s.timeAt t).laneNow % 2 ^ 64 ∧ (s.timeAt t).get TIME_CONSIST.NS = (s.timeAt t).consNow % 2 ^ 64 ∧ s.changesOnly (s.timeAt t) timeWords) ∧
  (∀ (s : State) (t : Nat), s.pwr.inReset = true → (s.timeAt t).localNow = s.time.edge ∧ s.timeAt t = s.timeAt 0) ∧
  (∀ (s : State) (t : Nat), (s.timeAt t).stepChans = [] → s.at_ t = s.timeAt t) ∧
  (∀ (s : State) (t : Nat), (s.timeAt t).stepChans ≠ [] → s.at_ t = (s.timeAt t).chansUpdate (s.timeAt t).stepChans) ∧
  (∀ (s : State) (x : Nat), s.flag CLK_STAT.BYPASS = false → s.localStep x = x / 4 * 4) ∧
  (∀ (s : State) (x : Nat), s.flag CLK_STAT.BYPASS = true → s.clk.phase < 40 → 40 ≤ x → s.localStep x % 40 = s.clk.phase ∧ s.localStep x ≤ x ∧ x < s.localStep x + 40)

/-- For every bit of a register word in reach of a reset that the class of its field does not survive: the pending value of the bit is gone, it reads the Reset column value, and applying pending values later leaves it at that value. (R46) -/
def Obligations.PendingDiscarded : Prop :=
  (∀ (s : State) (k : ResetKind) (reach p : Nat → Bool) (a i : Nat), reach a = true → (BitVec.ofNat 32 (keptMask k a)).getLsbD i = false → ((s.resetRegs k reach).pendWord a).getLsbD i = (resetWord a).getLsbD i ∧ (((s.resetRegs k reach).applyPend p).word a).getLsbD i = (resetWord a).getLsbD i)

/-- After REGG_STROBE of a service core, a group waits for its strobe if it waited before, or if its bit was written and none of the blocks TRI, CYC, TRIP, DOOR, MOT, SAFE and DIO is in the group. (R45) -/
def Obligations.ServiceStrobe : Prop :=
  (∀ (s : State) (who : Initiator) (groups : BitVec 16), s.acts who = true → who.isService = true → Completes (.reggStrobe who groups) s (fun u => ∀ g, g < 16 → u.bit REGG_STROBE_PEND.GROUPS g = (s.bit REGG_STROBE_PEND.GROUPS g || (groups.getLsbD g && !([4, 5, 0xB, 0xC, 0xD, 9, 0xE].any (fun b => s.groupOf b == g))))))

/-- A performed write of a buffered register sets its pending value; after two of them in a row the pending value is the later one, and the strobe applies that value only. (R40) -/
def Obligations.LastWriteWins : Prop :=
  (∀ (s : State) (t : Nat) (who : Initiator) (addr : BitVec 64) (data : BitVec 64) (r : RegRow) (v : State), v = s.at_ t → v.acts who = true → inMmio addr.toNat = true → regShape addr.toNat 4 = true → addr.toNat ≠ REGG_UNLOCK.KEY.addr → mayWrite who (blockOf addr.toNat) = true → regRight who addr.toNat = true → (guarded addr.toNat = false ∨ v.unlocked who (blockOf addr.toNat) = true) → isAlias addr.toNat = false → findRow addr.toNat = some r → (r.acc = .rw ∨ r.acc = .rwg) → v.reservedKept addr.toNat (data.toNat % 2 ^ 32) = true → perCore addr.toNat = false → (v.ownWrite t who addr.toNat 4 (data.toNat % 2 ^ 32)).isNone = true → exec (.registerWrite t who addr 4 data) s = .next ((v.consume who (blockOf addr.toNat)).setPend addr.toNat (BitVec.ofNat 32 (data.toNat % 2 ^ 32)))) ∧
  (∀ (s : State) (p : Nat → Bool) (a : Nat) (x y : Word), (s.pend.Pairwise (fun x y => x.1 < y.1)) → p (blockOf a) = true → ((s.setPend a x).setPend a y).pendWord a = y ∧ (((s.setPend a x).setPend a y).applyPend p).word a = y ∧ (((s.setPend a x).setPend a y).applyPend p).pendWord a = y)

/-- Each of the four reads of a pop window, issued by a Tricycle core that executes and has no store unresolved, is a load access fault at that window; in every state, also where the core waits or does not execute, it leaves every FIFO behind the windows, what reads have returned and what is held as it was. (R61) -/
def Obligations.TricyclePop : Prop :=
  (∀ (s : State) (t : Nat) (core : Nat) (win : BitVec 64) (v : State), v = s.at_ t → popWide win.toNat = true → win.toNat % 8 = 0 → v.executes core = true → (v.core core).queue = [] → Completes (.popRead64 t .tri core win) s (fun u => SMap.find u.traps 0 = some ⟨false, win.toNat⟩ ∧ u.time.caps = v.time.caps ∧ u.safe.eng = v.safe.eng ∧ u.brg.log = v.brg.log ∧ (∀ c, (u.loop c).fifo = (v.loop c).fifo) ∧ u.popped = v.popped ∧ u.held = v.held)) ∧
  (∀ (s : State) (t : Nat) (core : Nat) (win : BitVec 64) (v : State), v = s.at_ t → popWide win.toNat = true → win.toNat % 8 = 0 → Completes (.popRead64 t .tri core win) s (fun u => u.time.caps = v.time.caps ∧ u.safe.eng = v.safe.eng ∧ u.brg.log = v.brg.log ∧ (∀ c, (u.loop c).fifo = (v.loop c).fifo) ∧ u.popped = v.popped ∧ u.held = v.held)) ∧
  (∀ (s : State) (t : Nat) (core : Nat) (win : BitVec 64) (v : State), v = s.at_ t → popWide win.toNat = true → win.toNat % 8 = 0 → v.executes core = true → (v.core core).queue = [] → Completes (.popReadLow t .tri core win) s (fun u => SMap.find u.traps 0 = some ⟨false, win.toNat⟩ ∧ u.time.caps = v.time.caps ∧ u.safe.eng = v.safe.eng ∧ u.brg.log = v.brg.log ∧ (∀ c, (u.loop c).fifo = (v.loop c).fifo) ∧ u.popped = v.popped ∧ u.held = v.held)) ∧
  (∀ (s : State) (t : Nat) (core : Nat) (win : BitVec 64) (v : State), v = s.at_ t → popWide win.toNat = true → win.toNat % 8 = 0 → Completes (.popReadLow t .tri core win) s (fun u => u.time.caps = v.time.caps ∧ u.safe.eng = v.safe.eng ∧ u.brg.log = v.brg.log ∧ (∀ c, (u.loop c).fifo = (v.loop c).fifo) ∧ u.popped = v.popped ∧ u.held = v.held)) ∧
  (∀ (s : State) (t : Nat) (core : Nat) (win : BitVec 64) (v : State), v = s.at_ t → popWide win.toNat = true → win.toNat % 8 = 0 → v.executes core = true → (v.core core).queue = [] → Completes (.popReadHigh t .tri core win) s (fun u => SMap.find u.traps 0 = some ⟨false, win.toNat + 4⟩ ∧ u.time.caps = v.time.caps ∧ u.safe.eng = v.safe.eng ∧ u.brg.log = v.brg.log ∧ (∀ c, (u.loop c).fifo = (v.loop c).fifo) ∧ u.popped = v.popped ∧ u.held = v.held)) ∧
  (∀ (s : State) (t : Nat) (core : Nat) (win : BitVec 64) (v : State), v = s.at_ t → popWide win.toNat = true → win.toNat % 8 = 0 → Completes (.popReadHigh t .tri core win) s (fun u => u.time.caps = v.time.caps ∧ u.safe.eng = v.safe.eng ∧ u.brg.log = v.brg.log ∧ (∀ c, (u.loop c).fifo = (v.loop c).fifo) ∧ u.popped = v.popped ∧ u.held = v.held)) ∧
  (∀ (s : State) (t : Nat) (core : Nat) (win : BitVec 64) (v : State), v = s.at_ t → 0x200F0100 ≤ win.toNat → win.toNat < 0x200F0180 → win.toNat % 32 = 0x18 → v.executes core = true → (v.core core).queue = [] → Completes (.popRead32 t .tri core win) s (fun u => SMap.find u.traps 0 = some ⟨false, win.toNat⟩ ∧ u.time.caps = v.time.caps ∧ u.safe.eng = v.safe.eng ∧ u.brg.log = v.brg.log ∧ (∀ c, (u.loop c).fifo = (v.loop c).fifo) ∧ u.popped = v.popped ∧ u.held = v.held)) ∧
  (∀ (s : State) (t : Nat) (core : Nat) (win : BitVec 64) (v : State), v = s.at_ t → 0x200F0100 ≤ win.toNat → win.toNat < 0x200F0180 → win.toNat % 32 = 0x18 → Completes (.popRead32 t .tri core win) s (fun u => u.time.caps = v.time.caps ∧ u.safe.eng = v.safe.eng ∧ u.brg.log = v.brg.log ∧ (∀ c, (u.loop c).fifo = (v.loop c).fifo) ∧ u.popped = v.popped ∧ u.held = v.held))

/-- Each of these 119 commands, from LANE_TICK_BOUNDARY to GROUP_OV_CLEAR in the order of the table, answers a next state in every state and with every operand: none of them ends in a fault or a refusal. They are the commands through which none of the undefined cases of R57 can run; "Every other use of the device described in this manual is defined." The 17 commands left out are the register, table, pop and rack accesses, the writes of check engine configurations, the scheduled frames, and the commands that resolve device stores. (R57) -/
def Obligations.DefinedUses1 : Prop :=
  (∀ (t : Nat) (s : State), ∃ u, exec (.laneTickBoundary t) s = .next u) ∧
  (∀ (m : Nat) (s : State), ∃ u, exec (.streamAgeStale m) s = .next u) ∧
  (∀ (who : Initiator) (key : BitVec 16) (block : BitVec 5) (s : State), ∃ u, exec (.reggUnlock who key block) s = .next u) ∧
  (∀ (who : Initiator) (s : State), ∃ u, exec (.unlockExpiry who) s = .next u) ∧
  (∀ (who : Initiator) (groups : BitVec 16) (s : State), ∃ u, exec (.reggStrobe who groups) s = .next u) ∧
  (∀ (t : Nat) (s : State), ∃ u, exec (.cfgPassEnd t) s = .next u) ∧
  (∀ (t : Nat) (s : State), ∃ u, exec (.cfgGraceEnd t) s = .next u) ∧
  (∀ (t : Nat) (core : Nat) (off : Nat) (size : Nat) (data : BitVec 64) (s : State), ∃ u, exec (.outputImageStore t core off size data) s = .next u) ∧
  (∀ (t : Nat) (who : Initiator) (core : Nat) (acc : CsrAcc) (s : State), ∃ u, exec (.tchkWrite t who core acc) s = .next u) ∧
  (∀ (t : Nat) (core : Nat) (value : BitVec 32) (s : State), ∃ u, exec (.cycDoneWrite t core value) s = .next u) ∧
  (∀ (t : Nat) (core : Nat) (s : State), ∃ u, exec (.coreFaultHalt t core) s = .next u) ∧
  (∀ (s : State), ∃ u, exec (.eccCorrected) s = .next u) ∧
  (∀ (t : Nat) (s : State), ∃ u, exec (.windowTimeout t) s = .next u) ∧
  (∀ (t : Nat) (fa : BitVec 3) (fb : BitVec 3) (s : State), ∃ u, exec (.voterTestDue t fa fb) s = .next u) ∧
  (∀ (t : Nat) (core : Nat) (ok : Bool) (s : State), ∃ u, exec (.stateCopyComplete t core ok) s = .next u) ∧
  (∀ (t : Nat) (s : State), ∃ u, exec (.publicationComplete t) s = .next u) ∧
  (∀ (t : Nat) (s : State), ∃ u, exec (.cycleOverrun t) s = .next u) ∧
  (∀ (t : Nat) (s : State), ∃ u, exec (.cycleHang t) s = .next u) ∧
  (∀ (t : Nat) (who : Consumer) (s : State), ∃ u, exec (.refreshTimeout t who) s = .next u) ∧
  (∀ (t : Nat) (who : Initiator) (s : State), ∃ u, exec (.start t who) s = .next u) ∧
  (∀ (t : Nat) (who : Initiator) (s : State), ∃ u, exec (.stop t who) s = .next u) ∧
  (∀ (t : Nat) (who : Initiator) (s : State), ∃ u, exec (.hold t who) s = .next u) ∧
  (∀ (t : Nat) (who : Initiator) (s : State), ∃ u, exec (.resume t who) s = .next u) ∧
  (∀ (t : Nat) (who : Initiator) (s : State), ∃ u, exec (.step t who) s = .next u) ∧
  (∀ (t : Nat) (who : Initiator) (id : BitVec 64) (bindings : List Bind) (s : State), ∃ u, exec (.arm t who id bindings) s = .next u) ∧
  (∀ (t : Nat) (who : Initiator) (s : State), ∃ u, exec (.disarm t who) s = .next u) ∧
  (∀ (t : Nat) (who : Initiator) (entry : BitVec 8) (ctrl : BitVec 32) (s : State), ∃ u, exec (.forceBind t who entry ctrl) s = .next u) ∧
  (∀ (t : Nat) (who : Initiator) (entry : BitVec 8) (ctrl : BitVec 32) (s : State), ∃ u, exec (.forceRelease t who entry ctrl) s = .next u) ∧
  (∀ (t : Nat) (who : Initiator) (entry : BitVec 8) (value : BitVec 64) (s : State), ∃ u, exec (.forceValueWrite t who entry value) s = .next u) ∧
  (∀ (t : Nat) (mismatch : Bool) (dur : Nat) (plan : Nat) (s : State), ∃ u, exec (.feedbackDeadline t mismatch dur plan) s = .next u) ∧
  (∀ (t : Nat) (n : Nat) (s : State), ∃ u, exec (.feedbackFaultTimeout t n) s = .next u) ∧
  (∀ (t : Nat) (n : Nat) (s : State), ∃ u, exec (.lockTimeout t n) s = .next u) ∧
  (∀ (t : Nat) (n : Nat) (s : State), ∃ u, exec (.reopenDwellEnd t n) s = .next u) ∧
  (∀ (t : Nat) (n : Nat) (s : State), ∃ u, exec (.accWinEnd t n) s = .next u) ∧
  (∀ (t : Nat) (n : Nat) (s : State), ∃ u, exec (.envelopeUpdate t n) s = .next u) ∧
  (∀ (t : Nat) (n : Nat) (s : State), ∃ u, exec (.holdMsEnd t n) s = .next u) ∧
  (∀ (t : Nat) (slot : Nat) (s : State), ∃ u, exec (.move t slot) s = .next u) ∧
  (∀ (t : Nat) (slot : Nat) (s : State), ∃ u, exec (.replace t slot) s = .next u) ∧
  (∀ (t : Nat) (slot : Nat) (s : State), ∃ u, exec (.gstart t slot) s = .next u) ∧
  (∀ (t : Nat) (slot : Nat) (s : State), ∃ u, exec (.gstartInterp t slot) s = .next u) ∧
  (∀ (t : Nat) (slot : Nat) (s : State), ∃ u, exec (.home t slot) s = .next u) ∧
  (∀ (t : Nat) (slot : Nat) (s : State), ∃ u, exec (.motionStop t slot) s = .next u) ∧
  (∀ (t : Nat) (slot : Nat) (s : State), ∃ u, exec (.take t slot) s = .next u) ∧
  (∀ (t : Nat) (slot : Nat) (s : State), ∃ u, exec (.give t slot) s = .next u) ∧
  (∀ (t : Nat) (n : Nat) (s : State), ∃ u, exec (.limitTrip t n) s = .next u) ∧
  (∀ (t : Nat) (n : Nat) (s : State), ∃ u, exec (.homeEdgeQualified t n) s = .next u) ∧
  (∀ (t : Nat) (n : Nat) (s : State), ∃ u, exec (.homingTimeout t n) s = .next u) ∧
  (∀ (t : Nat) (f0 : BitVec 512) (f1 : BitVec 512) (f2 : BitVec 512) (xfail : Bool) (s : State), ∃ u, exec (.tripEvaluation t f0 f1 f2 xfail) s = .next u) ∧
  (∀ (t : Nat) (f0 : BitVec 512) (f1 : BitVec 512) (f2 : BitVec 512) (xfail : Bool) (s : State), ∃ u, exec (.tripVoterTest t f0 f1 f2 xfail) s = .next u) ∧
  (∀ (t : Nat) (who : Initiator) (bank : Bool) (s : State), ∃ u, exec (.tripSwap t who bank) s = .next u) ∧
  (∀ (t : Nat) (s : State), ∃ u, exec (.eventSpoke t) s = .next u) ∧
  (∀ (t : Nat) (lane : Nat) (frame : List Byte) (fcs : Bool) (s : State), ∃ u, exec (.spokeRx t lane frame fcs) s = .next u) ∧
  (∀ (t : Nat) (src : Nat) (s : State), ∃ u, exec (.sourceLoss t src) s = .next u) ∧
  (∀ (t : Nat) (fn : Nat) (s : State), ∃ u, exec (.resetRelease t fn) s = .next u) ∧
  (∀ (t : Nat) (fn : Nat) (s : State), ∃ u, exec (.resetHighTooLong t fn) s = .next u) ∧
  (∀ (t : Nat) (who : Initiator) (fn : BitVec 5) (s : State), ∃ u, exec (.tripRestart t who fn) s = .next u) ∧
  (∀ (t : Nat) (n : Nat) (unit : Bool) (s : State), ∃ u, exec (.safeTxBuild t n unit) s = .next u) ∧
  (∀ (t : Nat) (n : Nat) (telegram : List Byte) (unit : Bool) (s : State), ∃ u, exec (.safeTelegramRx t n telegram unit) s = .next u) ∧
  (∀ (t : Nat) (n : Nat) (s : State), ∃ u, exec (.safeRxTimeout t n) s = .next u) ∧
  (∀ (t : Nat) (who : Initiator) (n : BitVec 7) (s : State), ∃ u, exec (.sessionOpen t who n) s = .next u) ∧
  (∀ (t : Nat) (who : Initiator) (n : BitVec 7) (s : State), ∃ u, exec (.sessionClose t who n) s = .next u) ∧
  (∀ (who : Initiator) (e : BitVec 3) (data : BitVec 32) (s : State), ∃ u, exec (.crcData who e data) s = .next u) ∧
  (∀ (who : Initiator) (e : BitVec 3) (data : BitVec 64) (s : State), ∃ u, exec (.crcData64 who e data) s = .next u) ∧
  (∀ (who : Initiator) (e : BitVec 3) (s : State), ∃ u, exec (.job who e) s = .next u) ∧
  (∀ (e : BitVec 3) (s : State), ∃ u, exec (.crcJobDone e) s = .next u) ∧
  (∀ (who : Initiator) (e : BitVec 3) (k : BitVec 7) (s : State), ∃ u, exec (.save who e k) s = .next u) ∧
  (∀ (who : Initiator) (e : BitVec 3) (k : BitVec 7) (s : State), ∃ u, exec (.load who e k) s = .next u) ∧
  (∀ (who : Initiator) (e : BitVec 3) (s : State), ∃ u, exec (.crcInit who e) s = .next u) ∧
  (∀ (who : Initiator) (e : BitVec 3) (val : BitVec 64) (s : State), ∃ u, exec (.crcValWrite who e val) s = .next u) ∧
  (∀ (e : BitVec 3) (key : BitVec 16) (data : List Byte) (addr : BitVec 64) (fcs : Bool) (s : State), ∃ u, exec (.snoopFrameEnd e key data addr fcs) s = .next u) ∧
  (∀ (t : Nat) (lane : Nat) (fromDn : Bool) (frame : List Byte) (residence : Nat) (fcs : Bool) (s : State), ∃ u, exec (.frameForward t lane fromDn frame residence fcs) s = .next u) ∧
  (∀ (t : Nat) (lane : Nat) (dn : Nat) (s : State), ∃ u, exec (.laneLinkUp t lane dn) s = .next u) ∧
  (∀ (t : Nat) (lane : Nat) (dn : Nat) (s : State), ∃ u, exec (.laneLinkDown t lane dn) s = .next u) ∧
  (∀ (t : Nat) (lane : Nat) (dn : Nat) (ok : Bool) (s : State), ∃ u, exec (.preemptVerifyDone t lane dn ok) s = .next u) ∧
  (∀ (t : Nat) (lane : Nat) (dn : Nat) (frame : List Byte) (fcs : Bool) (s : State), ∃ u, exec (.syncRx t lane dn frame fcs) s = .next u) ∧
  (∀ (t : Nat) (lane : Nat) (dn : Nat) (frame : List Byte) (fcs : Bool) (s : State), ∃ u, exec (.coldstartRx t lane dn frame fcs) s = .next u) ∧
  (∀ (t : Nat) (lane : Nat) (dn : Nat) (frame : List Byte) (fcs : Bool) (turn : Nat) (s : State), ∃ u, exec (.pdelayReq t lane dn frame fcs turn) s = .next u) ∧
  (∀ (t : Nat) (lane : Nat) (dn : Nat) (t1 : Nat) (t4 : Nat) (frame : List Byte) (fcs : Bool) (s : State), ∃ u, exec (.pdelayResp t lane dn t1 t4 frame fcs) s = .next u) ∧
  (∀ (t : Nat) (lane : Nat) (frame : List Byte) (fcs : Bool) (s : State), ∃ u, exec (.statusRx t lane frame fcs) s = .next u) ∧
  (∀ (t : Nat) (lane : Nat) (frame : List Byte) (fcs : Bool) (s : State), ∃ u, exec (.dataRx t lane frame fcs) s = .next u) ∧
  (∀ (t : Nat) (lane : Nat) (frame : List Byte) (fcs : Bool) (s : State), ∃ u, exec (.feedbackRx t lane frame fcs) s = .next u) ∧
  (∀ (t : Nat) (lane : Nat) (s : State), ∃ u, exec (.listenEnd t lane) s = .next u) ∧
  (∀ (t : Nat) (lane : Nat) (s : State), ∃ u, exec (.contestWindowEnd t lane) s = .next u) ∧
  (∀ (t : Nat) (lane : Nat) (s : State), ∃ u, exec (.syncLoss t lane) s = .next u) ∧
  (∀ (t : Nat) (lane : Nat) (s : State), ∃ u, exec (.masterSilent t lane) s = .next u) ∧
  (∀ (t : Nat) (who : Initiator) (cid : BitVec 16) (s : State), ∃ u, exec (.announceCadence t who cid) s = .next u) ∧
  (∀ (t : Nat) (who : Initiator) (cid : BitVec 16) (s : State), ∃ u, exec (.announceActivate t who cid) s = .next u) ∧
  (∀ (t : Nat) (who : Initiator) (s : State), ∃ u, exec (.cancel t who) s = .next u) ∧
  (∀ (t : Nat) (s : State), ∃ u, exec (.modeChangeDecision t) s = .next u) ∧
  (∀ (t : Nat) (s : State), ∃ u, exec (.bankSwitch t) s = .next u) ∧
  (∀ (t : Nat) (s : State), ∃ u, exec (.laneFreewheel t) s = .next u) ∧
  (∀ (t : Nat) (port : Nat) (domain : BitVec 8) (gm : Nat) (s : State), ∃ u, exec (.ptpSyncRx t port domain gm) s = .next u) ∧
  (∀ (t : Nat) (port : Nat) (ann : PtpAnnounce) (s : State), ∃ u, exec (.ptpAnnounceRx t port ann) s = .next u) ∧
  (∀ (t : Nat) (port : Nat) (s : State), ∃ u, exec (.ptpReceiptTimeout t port) s = .next u) ∧
  (∀ (t : Nat) (s : State), ∃ u, exec (.consistHoldoverExpiry t) s = .next u) ∧
  (∀ (t : Nat) (port : Nat) (speed : Nat) (asCapable : Bool) (role : Nat) (s : State), ∃ u, exec (.ecnLinkChange t port speed asCapable role) s = .next u) ∧
  (∀ (t : Nat) (port : Nat) (frame : List Byte) (fcs : Bool) (s : State), ∃ u, exec (.ecnFrameRx t port frame fcs) s = .next u) ∧
  (∀ (t : Nat) (who : Initiator) (ring : Nat) (tail : Nat) (s : State), ∃ u, exec (.ecnTailWrite t who ring tail) s = .next u) ∧
  (∀ (t : Nat) (port : Nat) (q : Nat) (s : State), ∃ u, exec (.ecnLaunch t port q) s = .next u) ∧
  (∀ (t : Nat) (n : Nat) (s : State), ∃ u, exec (.pdPublish t n) s = .next u) ∧
  (∀ (t : Nat) (comId : Nat) (s : State), ∃ u, exec (.pdPullRequest t comId) s = .next u) ∧
  (∀ (t : Nat) (n : Nat) (src : Nat) (msg : Nat) (comId : Nat) (seq : Nat) (etb : Nat) (optrn : Nat) (major : Nat) (fcs : Bool) (dataset : List Byte) (s : State), ∃ u, exec (.pdTelegramRx t n src msg comId seq etb optrn major fcs dataset) s = .next u) ∧
  (∀ (t : Nat) (n : Nat) (s : State), ∃ u, exec (.pdSubscriberTimeout t n) s = .next u) ∧
  (∀ (t : Nat) (n : Nat) (s : State), ∃ u, exec (.captureEdge t n) s = .next u) ∧
  (∀ (t : Nat) (n : Nat) (data : List Byte) (okA : Bool) (okB : Bool) (s : State), ∃ u, exec (.mvbSinkFrame t n data okA okB) s = .next u) ∧
  (∀ (t : Nat) (n : Nat) (s : State), ∃ u, exec (.mvbMasterFrame t n) s = .next u) ∧
  (∀ (t : Nat) (s : State), ∃ u, exec (.mvbStatusRequest t) s = .next u) ∧
  (∀ (n : Nat) (s : State), ∃ u, exec (.mvbSinkStale n) s = .next u) ∧
  (∀ (toB : Bool) (s : State), ∃ u, exec (.mvbLineSwitch toB) s = .next u) ∧
  (∀ (t : Nat) (who : Initiator) (bank : Bool) (s : State), ∃ u, exec (.gwMapSwap t who bank) s = .next u) ∧
  (∀ (t : Nat) (s : State), ∃ u, exec (.mapScanDone t) s = .next u) ∧
  (∀ (t : Nat) (e : Nat) (s : State), ∃ u, exec (.gwEntryStale t e) s = .next u) ∧
  (∀ (t : Nat) (ch : Nat) (level : Bool) (s : State), ∃ u, exec (.inputFilteredEdge t ch level) s = .next u) ∧
  (∀ (t : Nat) (ch : Nat) (s : State), ∃ u, exec (.wettingEnd t ch) s = .next u) ∧
  (∀ (t : Nat) (ch : Nat) (s : State), ∃ u, exec (.outputShort t ch) s = .next u) ∧
  (∀ (t : Nat) (g : Nat) (s : State), ∃ u, exec (.groupUvSet t g) s = .next u) ∧
  (∀ (t : Nat) (g : Nat) (s : State), ∃ u, exec (.groupUvClear t g) s = .next u) ∧
  (∀ (t : Nat) (g : Nat) (s : State), ∃ u, exec (.groupOvSet t g) s = .next u) ∧
  (∀ (t : Nat) (g : Nat) (s : State), ∃ u, exec (.groupOvClear t g) s = .next u)

/-- Each of these 119 commands, from GROUP_OVC_SET to MAC_ENTRY_AGEING in the order of the table, answers a next state in every state and with every operand: none of them ends in a fault or a refusal. They are the commands through which none of the undefined cases of R57 can run; "Every other use of the device described in this manual is defined." The 17 commands left out are the register, table, pop and rack accesses, the writes of check engine configurations, the scheduled frames, and the commands that resolve device stores. (R57) -/
def Obligations.DefinedUses2 : Prop :=
  (∀ (t : Nat) (g : Nat) (s : State), ∃ u, exec (.groupOvcSet t g) s = .next u) ∧
  (∀ (t : Nat) (g : Nat) (s : State), ∃ u, exec (.groupOvcEnd t g) s = .next u) ∧
  (∀ (t : Nat) (ch : Nat) (level : Bool) (s : State), ∃ u, exec (.readbackMismatch t ch level) s = .next u) ∧
  (∀ (t : Nat) (g : Nat) (fell : Bool) (s : State), ∃ u, exec (.groupSwitchTest t g fell) s = .next u) ∧
  (∀ (t : Nat) (s : State), ∃ u, exec (.tripSilence t) s = .next u) ∧
  (∀ (t : Nat) (target : OutStage) (s : State), ∃ u, exec (.driverRefreshLoss t target) s = .next u) ∧
  (∀ (t : Nat) (ch : Nat) (s : State), ∃ u, exec (.darkTestStart t ch) s = .next u) ∧
  (∀ (t : Nat) (ch : Nat) (s : State), ∃ u, exec (.lightTestStart t ch) s = .next u) ∧
  (∀ (t : Nat) (ch : Nat) (a : Bool) (b : Bool) (s : State), ∃ u, exec (.testPulseEnd t ch a b) s = .next u) ∧
  (∀ (t : Nat) (ch : Nat) (s : State), ∃ u, exec (.channelFaultClear t ch) s = .next u) ∧
  (∀ (t : Nat) (c : Nat) (s : State), ∃ u, exec (.loopFault t c) s = .next u) ∧
  (∀ (t : Nat) (who : Initiator) (mask : BitVec 4) (s : State), ∃ u, exec (.loopRetry t who mask) s = .next u) ∧
  (∀ (t : Nat) (c : Nat) (s : State), ∃ u, exec (.loopAutoRetry t c) s = .next u) ∧
  (∀ (c : Nat) (sat : Bool) (s : State), ∃ u, exec (.loopCompliance c sat) s = .next u) ∧
  (∀ (t : Nat) (who : Initiator) (c : Nat) (len : Nat) (s : State), ∃ u, exec (.hartGo t who c len) s = .next u) ∧
  (∀ (t : Nat) (c : Nat) (frame : List (Byte × Bool)) (burst : Bool) (s : State), ∃ u, exec (.hartFrameRx t c frame burst) s = .next u) ∧
  (∀ (t : Nat) (c : Nat) (s : State), ∃ u, exec (.hartTimeout t c) s = .next u) ∧
  (∀ (t : Nat) (s : State), ∃ u, exec (.twinLinkUp t) s = .next u) ∧
  (∀ (t : Nat) (s : State), ∃ u, exec (.twinLinkDown t) s = .next u) ∧
  (∀ (t : Nat) (s : State), ∃ u, exec (.helloTx t) s = .next u) ∧
  (∀ (t : Nat) (frame : List Byte) (crc : Bool) (s : State), ∃ u, exec (.hello t frame crc) s = .next u) ∧
  (∀ (t : Nat) (frame : List Byte) (crc : Bool) (s : State), ∃ u, exec (.heartbeat t frame crc) s = .next u) ∧
  (∀ (t : Nat) (s : State), ∃ u, exec (.claimExpiry t) s = .next u) ∧
  (∀ (t : Nat) (s : State), ∃ u, exec (.claimWindowEnd t) s = .next u) ∧
  (∀ (t : Nat) (s : State), ∃ u, exec (.takeover t) s = .next u) ∧
  (∀ (t : Nat) (s : State), ∃ u, exec (.yield t) s = .next u) ∧
  (∀ (t : Nat) (frame : List Byte) (crc : Bool) (s : State), ∃ u, exec (.pannier t frame crc) s = .next u) ∧
  (∀ (t : Nat) (frame : List Byte) (crc : Bool) (s : State), ∃ u, exec (.image t frame crc) s = .next u) ∧
  (∀ (t : Nat) (who : Initiator) (s : State), ∃ u, exec (.swap t who) s = .next u) ∧
  (∀ (t : Nat) (who : Initiator) (s : State), ∃ u, exec (.swapUnready t who) s = .next u) ∧
  (∀ (t : Nat) (s : State), ∃ u, exec (.swapTimeout t) s = .next u) ∧
  (∀ (t : Nat) (win : Nat) (status : RackStatus) (reqs : BitVec 8) (s : State), ∃ u, exec (.rackStatusCycle t win status reqs) s = .next u) ∧
  (∀ (t : Nat) (win : Nat) (s : State), ∃ u, exec (.rackRetryReissue t win) s = .next u) ∧
  (∀ (t : Nat) (card : Nat) (pos : Nat) (tag : Nat) (err : Bool) (par : Bool) (beats : List (BitVec 32)) (reqs : BitVec 8) (s : State), ∃ u, exec (.rackResponse t card pos tag err par beats reqs) s = .next u) ∧
  (∀ (t : Nat) (tag : Nat) (s : State), ∃ u, exec (.rackResponseTimeout t tag) s = .next u) ∧
  (∀ (t : Nat) (pos : Nat) (tag : Nat) (reqs : BitVec 8) (s : State), ∃ u, exec (.rackInboundComplete t pos tag reqs) s = .next u) ∧
  (∀ (t : Nat) (s : State), ∃ u, exec (.rackLockTimeout t) s = .next u) ∧
  (∀ (t : Nat) (s : State), ∃ u, exec (.prefetchExpiry t) s = .next u) ∧
  (∀ (t : Nat) (who : Initiator) (flush : Bool) (s : State), ∃ u, exec (.brgPfFlush t who flush) s = .next u) ∧
  (∀ (t : Nat) (ab : Option Int) (ar : Option Int) (br : Option Int) (s : State), ∃ u, exec (.clockMonitorWindow t ab ar br) s = .next u) ∧
  (∀ (t : Nat) (src : Nat) (s : State), ∃ u, exec (.clockSourceDead t src) s = .next u) ∧
  (∀ (t : Nat) (src : Nat) (s : State), ∃ u, exec (.qualifyTimeout t src) s = .next u) ∧
  (∀ (t : Nat) (s : State), ∃ u, exec (.doubtTimeout t) s = .next u) ∧
  (∀ (t : Nat) (s : State), ∃ u, exec (.xobProofStart t) s = .next u) ∧
  (∀ (t : Nat) (src : Nat) (s : State), ∃ u, exec (.crystalRestart t src) s = .next u) ∧
  (∀ (t : Nat) (s : State), ∃ u, exec (.pllLossOfLock t) s = .next u) ∧
  (∀ (t : Nat) (dom : Nat) (s : State), ∃ u, exec (.domainSwitchForced t dom) s = .next u) ∧
  (∀ (t : Nat) (svc : Bool) (s : State), ∃ u, exec (.gearChangeDone t svc) s = .next u) ∧
  (∀ (t : Nat) (svc : Bool) (s : State), ∃ u, exec (.gearChangeAbandon t svc) s = .next u) ∧
  (∀ (t : Nat) (sup : Nat) (s : State), ∃ u, exec (.holdupEntry t sup) s = .next u) ∧
  (∀ (t : Nat) (sup : Nat) (s : State), ∃ u, exec (.holdupExit t sup) s = .next u) ∧
  (∀ (t : Nat) (sup : Nat) (s : State), ∃ u, exec (.stage1Entry t sup) s = .next u) ∧
  (∀ (t : Nat) (sup : Nat) (s : State), ∃ u, exec (.stage2Entry t sup) s = .next u) ∧
  (∀ (t : Nat) (hold : Nat) (s : State), ∃ u, exec (.stage3Entry t hold) s = .next u) ∧
  (∀ (t : Nat) (hold : Nat) (s : State), ∃ u, exec (.stage4Entry t hold) s = .next u) ∧
  (∀ (t : Nat) (sup : Nat) (hold : Nat) (s : State), ∃ u, exec (.stageLeave t sup hold) s = .next u) ∧
  (∀ (t : Nat) (s : State), ∃ u, exec (.flushDeadline t) s = .next u) ∧
  (∀ (s : State), ∃ u, exec (.dormantExit) s = .next u) ∧
  (∀ (t : Nat) (s : State), ∃ u, exec (.railFault t) s = .next u) ∧
  (∀ (s : State), ∃ u, exec (.powerOnReset) s = .next u) ∧
  (∀ (s : State), ∃ u, exec (.brownOutReset) s = .next u) ∧
  (∀ (t : Nat) (s : State), ∃ u, exec (.extReset t) s = .next u) ∧
  (∀ (t : Nat) (rco : Nat) (s : State), ∃ u, exec (.watchdogExpiry t rco) s = .next u) ∧
  (∀ (t : Nat) (who : Initiator) (s : State), ∃ u, exec (.sys t who) s = .next u) ∧
  (∀ (t : Nat) (who : Initiator) (target : Nat) (s : State), ∃ u, exec (.core t who target) s = .next u) ∧
  (∀ (t : Nat) (who : Initiator) (target : Nat) (s : State), ∃ u, exec (.domain t who target) s = .next u) ∧
  (∀ (ok : BitVec 3) (rco : Nat) (s : State), ∃ u, exec (.resetSequence ok rco) s = .next u) ∧
  (∀ (t : Nat) (rco : Nat) (who : Initiator) (key : BitVec 16) (s : State), ∃ u, exec (.wdgKick t rco who key) s = .next u) ∧
  (∀ (t : Nat) (who : Initiator) (tmo : BitVec 8) (win : BitVec 8) (s : State), ∃ u, exec (.wdgCfgWrite t who tmo win) s = .next u) ∧
  (∀ (ticks : Nat) (s : State), ∃ u, exec (.tamperOpening ticks) s = .next u) ∧
  (∀ (t : Nat) (fw0 : SigCheck) (fw1 : SigCheck) (imgA : SlotImage) (imgB : SlotImage) (sup : Nat) (r0 : BitVec 4) (r1 : BitVec 4) (r2 : BitVec 4) (s : State), ∃ u, exec (.bootChain t fw0 fw1 imgA imgB sup r0 r1 r2) s = .next u) ∧
  (∀ (t : Nat) (r0 : BitVec 4) (r1 : BitVec 4) (r2 : BitVec 4) (s : State), ∃ u, exec (.slotIdRetry t r0 r1 r2) s = .next u) ∧
  (∀ (t : Nat) (s : State), ∃ u, exec (.startScanDone t) s = .next u) ∧
  (∀ (t : Nat) (s : State), ∃ u, exec (.lampTestEnd t) s = .next u) ∧
  (∀ (t : Nat) (s : State), ∃ u, exec (.lockoutEdgeRelease t) s = .next u) ∧
  (∀ (t : Nat) (s : State), ∃ u, exec (.envelopeSaveDue t) s = .next u) ∧
  (∀ (t : Nat) (s : State), ∃ u, exec (.consistActivation t) s = .next u) ∧
  (∀ (t : Nat) (s : State), ∃ u, exec (.deferTimeout t) s = .next u) ∧
  (∀ (t : Nat) (who : Initiator) (s : State), ∃ u, exec (.vital t who) s = .next u) ∧
  (∀ (t : Nat) (who : Initiator) (s : State), ∃ u, exec (.service t who) s = .next u) ∧
  (∀ (t : Nat) (s : State), ∃ u, exec (.confirmWindowEnd t) s = .next u) ∧
  (∀ (t : Nat) (s : State), ∃ u, exec (.info t) s = .next u) ∧
  (∀ (t : Nat) (s : State), ∃ u, exec (.challenge t) s = .next u) ∧
  (∀ (t : Nat) (tok : List Byte) (len : Nat) (rsaBy : Nat) (slhBy : Nat) (addr : BitVec 32) (port : BitVec 16) (s : State), ∃ u, exec (.login t tok len rsaBy slhBy addr port) s = .next u) ∧
  (∀ (t : Nat) (addr : BitVec 32) (port : BitVec 16) (offset : BitVec 32) (data : List Byte) (s : State), ∃ u, exec (.download t addr port offset data) s = .next u) ∧
  (∀ (t : Nat) (part : BitVec 8) (first : BitVec 32) (count : BitVec 8) (s : State), ∃ u, exec (.read t part first count) s = .next u) ∧
  (∀ (t : Nat) (addr : BitVec 32) (port : BitVec 16) (s : State), ∃ u, exec (.logout t addr port) s = .next u) ∧
  (∀ (t : Nat) (s : State), ∃ u, exec (.sessionExpiry t) s = .next u) ∧
  (∀ (t : Nat) (s : State), ∃ u, exec (.enterService t) s = .next u) ∧
  (∀ (t : Nat) (s : State), ∃ u, exec (.leaveService t) s = .next u) ∧
  (∀ (t : Nat) (cmd : ProgCmd) (s : State), ∃ u, exec (.programStateOperation t cmd) s = .next u) ∧
  (∀ (t : Nat) (s : State), ∃ u, exec (.holdOperation t) s = .next u) ∧
  (∀ (t : Nat) (bind : Bool) (entry : BitVec 8) (ctrl : BitVec 32) (ident : BitVec 64) (mask : BitVec 64) (value : BitVec 64) (s : State), ∃ u, exec (.forceOperation t bind entry ctrl ident mask value) s = .next u) ∧
  (∀ (t : Nat) (img : GraftImage) (base : BitVec 32) (s : State), ∃ u, exec (.graft t img base) s = .next u) ∧
  (∀ (t : Nat) (fw : Nat) (orch : Nat) (fwSig : SigCheck) (orchSig : SigCheck) (s : State), ∃ u, exec (.stage t fw orch fwSig orchSig) s = .next u) ∧
  (∀ (t : Nat) (consist : Option (BitVec 64)) (s : State), ∃ u, exec (.activate t consist) s = .next u) ∧
  (∀ (t : Nat) (op : AnnOp) (target : BitVec 32) (s : State), ∃ u, exec (.announce t op target) s = .next u) ∧
  (∀ (t : Nat) (unready : Bool) (s : State), ∃ u, exec (.roleSwap t unready) s = .next u) ∧
  (∀ (t : Nat) (s : State), ∃ u, exec (.lockoutReset t) s = .next u) ∧
  (∀ (t : Nat) (fn : BitVec 5) (s : State), ∃ u, exec (.tripRestartOperation t fn) s = .next u) ∧
  (∀ (t : Nat) (part : BitVec 8) (s : State), ∃ u, exec (.clearOperation t part) s = .next u) ∧
  (∀ (t : Nat) (s : State), ∃ u, exec (.saveEnvelopes t) s = .next u) ∧
  (∀ (t : Nat) (img : List Byte) (sig : SigCheck) (rsaMask : BitVec 4) (slhMask : BitVec 4) (s : State), ∃ u, exec (.revoke t img sig rsaMask slhMask) s = .next u) ∧
  (∀ (t : Nat) (rtc : BitVec 64) (nextService : Bool) (s : State), ∃ u, exec (.setRtc t rtc nextService) s = .next u) ∧
  (∀ (t : Nat) (who : Initiator) (addr : BitVec 32) (src : BitVec 32) (port : BitVec 16) (s : State), ∃ u, exec (.updReqWrite t who addr src port) s = .next u) ∧
  (∀ (cut : Option Nat) (s : State), ∃ u, exec (.recordWritten cut) s = .next u) ∧
  (∀ (t : Nat) (who : Initiator) (typ : BitVec 4) (code : BitVec 8) (s : State), ∃ u, exec (.programRecord t who typ code) s = .next u) ∧
  (∀ (t : Nat) (who : Initiator) (addr : BitVec 32) (s : State), ∃ u, exec (.softwareRecord t who addr) s = .next u) ∧
  (∀ (t : Nat) (who : Initiator) (trg : BitVec 5) (s : State), ∃ u, exec (.snapshotTrigger t who trg) s = .next u) ∧
  (∀ (t : Nat) (first : Nat) (span : Nat) (s : State), ∃ u, exec (.snapshotCaptureDone t first span) s = .next u) ∧
  (∀ (t : Nat) (who : Initiator) (part : BitVec 3) (slot : BitVec 21) (s : State), ∃ u, exec (.slotRead t who part slot) s = .next u) ∧
  (∀ (t : Nat) (who : Initiator) (part : BitVec 2) (s : State), ∃ u, exec (.clear t who part) s = .next u) ∧
  (∀ (t : Nat) (s : State), ∃ u, exec (.clearDone t) s = .next u) ∧
  (∀ (s : State), ∃ u, exec (.backupDomainLoss) s = .next u) ∧
  (∀ (s : State), ∃ u, exec (.tamperLoopClosed) s = .next u) ∧
  (∀ (t : Nat) (tag : Nat) (s : State), ∃ u, exec (.retiredTagRelease t tag) s = .next u) ∧
  (∀ (t : Nat) (s : State), ∃ u, exec (.pannierSent t) s = .next u) ∧
  (∀ (s : State), ∃ u, exec (.tracePacketSent) s = .next u) ∧
  (∀ (t : Nat) (mac : Nat) (s : State), ∃ u, exec (.macEntryAgeing t mac) s = .next u)
end

