-- ==== Sys2Proof/Laws/Mem.lean ====
section
/-! SUPPORT. Laws/Mem.lean: the canonical form of a byte memory, that every memory operation keeps it, and what a byte reads as
after one. -/
namespace Sys2Proof.Machine

/-- The canonical form, said of the list as a whole: addresses strictly rising, no byte 0. -/
theorem Mem.sortedFrom_iff (lo : Option Nat) (m : List Host.Cell) :
    Mem.sortedFrom lo m = true ↔ m.Pairwise (fun c d => c.1 < d.1) ∧ (∀ c ∈ m, c.2 ≠ 0) ∧ ∀ l, lo = some l → ∀ c ∈ m, l < c.1 := by
  induction m generalizing lo with
  | nil => simp [Mem.sortedFrom]
  | cons c t ih =>
    obtain ⟨a, b⟩ := c
    simp only [Mem.sortedFrom, Bool.and_eq_true, ih, List.pairwise_cons, List.mem_cons, forall_eq_or_imp]
    constructor
    · rintro ⟨⟨h1, h2⟩, h3, h4, h5⟩
      refine ⟨⟨fun d hd => h5 a rfl d hd, h3⟩, ⟨by simpa using h2, h4⟩, ?_⟩
      intro l hl
      subst hl
      have ha : l < a := by simpa using h1
      exact ⟨ha, fun d hd => ha.trans (h5 a rfl d hd)⟩
    · rintro ⟨⟨h1, h3⟩, ⟨h2, h4⟩, h5⟩
      refine ⟨⟨?_, by simpa using h2⟩, h3, h4, ?_⟩
      · cases lo with
        | none => rfl
        | some l => simpa using (h5 l rfl).1
      · intro l hl d hd
        cases hl
        exact h1 d hd

theorem Mem.wf_iff (m : List Host.Cell) : Mem.wf m = true ↔ m.Pairwise (fun c d => c.1 < d.1) ∧ ∀ c ∈ m, c.2 ≠ 0 := by
  simp [Mem.wf, Mem.sortedFrom_iff]

theorem Mem.wf_filter {m : List Host.Cell} (p : Host.Cell → Bool) (h : Mem.wf m = true) : Mem.wf (m.filter p) = true := by
  rw [Mem.wf_iff] at h ⊢
  exact ⟨h.1.filter p, fun c hc => h.2 c (List.mem_of_mem_filter hc)⟩

theorem Mem.wf_zero {m : List Host.Cell} (a n : Nat) (h : Mem.wf m = true) : Mem.wf (Mem.zero m a n) = true := Mem.wf_filter _ h

theorem Mem.mem_insert {m : List Host.Cell} {a : Nat} {b : Byte} {c : Host.Cell} (h : c ∈ Mem.insert m a b) :
    c = (a, b) ∨ c ∈ m := by
  induction m with
  | nil => simpa [Mem.insert] using h
  | cons d t ih =>
    simp only [Mem.insert] at h
    split at h
    · rcases List.mem_cons.1 h with h | h
      · exact .inl h
      · exact .inr (List.mem_cons_of_mem _ h)
    · split at h
      · rcases List.mem_cons.1 h with h | h
        · exact .inl h
        · exact .inr h
      · rcases List.mem_cons.1 h with h | h
        · exact .inr (h ▸ List.mem_cons_self ..)
        · rcases ih h with h | h
          · exact .inl h
          · exact .inr (List.mem_cons_of_mem _ h)

theorem Mem.wf_insert {m : List Host.Cell} (a : Nat) {b : Byte} (hb : b ≠ 0) (h : Mem.wf m = true) :
    Mem.wf (Mem.insert m a b) = true := by
  rw [Mem.wf_iff] at h ⊢
  refine ⟨?_, fun c hc => ?_⟩
  · have hp := h.1
    clear h
    induction m with
    | nil => simp [Mem.insert]
    | cons d t ih =>
      obtain ⟨h1, h2⟩ := List.pairwise_cons.1 hp
      simp only [Mem.insert]
      split
      · rename_i e
        subst e
        exact List.pairwise_cons.2 ⟨h1, h2⟩
      · split
        · rename_i l
          refine List.pairwise_cons.2 ⟨fun c hc => ?_, hp⟩
          rcases List.mem_cons.1 hc with hc | hc
          · subst hc
            exact l
          · exact l.trans (h1 c hc)
        · rename_i e l
          refine List.pairwise_cons.2 ⟨fun c hc => ?_, ih h2⟩
          rcases Mem.mem_insert hc with hc | hc
          · subst hc
            show d.1 < a
            omega
          · exact h1 c hc
  · rcases Mem.mem_insert hc with hc | hc
    · subst hc
      exact hb
    · exact h.2 c hc

theorem Mem.wf_write {m : List Host.Cell} (a : Nat) (b : Byte) (h : Mem.wf m = true) : Mem.wf (Mem.write m a b) = true := by
  unfold Mem.write
  split
  · exact Mem.wf_filter _ h
  · rename_i hb
    exact Mem.wf_insert a hb h

theorem Mem.wf_writeBytes {m : List Host.Cell} (a : Nat) (bs : List Byte) (h : Mem.wf m = true) :
    Mem.wf (Mem.writeBytes m a bs) = true := by
  induction bs generalizing m a with
  | nil => exact h
  | cons b t ih => exact ih (a + 1) (Mem.wf_write a b h)

theorem Mem.wf_slice {m : List Host.Cell} (a n dst : Nat) (h : Mem.wf m = true) : Mem.wf (Mem.slice m a n dst) = true := by
  rw [Mem.wf_iff] at h ⊢
  unfold Mem.slice
  constructor
  · rw [List.pairwise_map]
    refine (h.1.filter _).imp_of_mem ?_
    intro c d hc hd l
    have hc' := List.of_mem_filter hc
    simp only [Bool.and_eq_true, decide_eq_true_eq] at hc'
    show c.1 - a + dst < d.1 - a + dst
    omega
  · intro c hc
    obtain ⟨d, hd, rfl⟩ := List.mem_map.1 hc
    exact h.2 d (List.mem_of_mem_filter hd)

/-- A copy keeps the canonical form where the source memory has it. -/
theorem Mem.wf_copyFrom {f m : List Host.Cell} (src dst n : Nat) (hf : Mem.wf f = true) (h : Mem.wf m = true) :
    Mem.wf (Mem.copyFrom f m src dst n) = true := by
  have hs := Mem.wf_slice src n dst hf
  have bs : ∀ c ∈ Mem.slice f src n dst, dst ≤ c.1 ∧ c.1 < dst + n := by
    intro c hc
    obtain ⟨d, hd, rfl⟩ := List.mem_map.1 hc
    have := List.of_mem_filter hd
    simp only [Bool.and_eq_true, decide_eq_true_eq] at this
    show dst ≤ d.1 - src + dst ∧ d.1 - src + dst < dst + n
    omega
  rw [Mem.wf_iff] at h hs ⊢
  unfold Mem.copyFrom
  constructor
  · rw [List.pairwise_append, List.pairwise_append]
    refine ⟨⟨h.1.filter _, hs.1, ?_⟩, h.1.filter _, ?_⟩
    · intro c hc d hd
      have := List.of_mem_filter hc
      have hd' := bs d hd
      simp only [decide_eq_true_eq] at this
      omega
    · intro c hc d hd
      have hd' := List.of_mem_filter hd
      simp only [decide_eq_true_eq] at hd'
      rcases List.mem_append.1 hc with hc | hc
      · have := List.of_mem_filter hc
        simp only [decide_eq_true_eq] at this
        omega
      · have := bs c hc
        omega
  · intro c hc
    rcases List.mem_append.1 hc with hc | hc
    · rcases List.mem_append.1 hc with hc | hc
      · exact h.2 c (List.mem_of_mem_filter hc)
      · exact hs.2 c hc
    · exact h.2 c (List.mem_of_mem_filter hc)

theorem Mem.wf_copy {m : List Host.Cell} (src dst n : Nat) (h : Mem.wf m = true) : Mem.wf (Mem.copy m src dst n) = true :=
  Mem.wf_copyFrom src dst n h h

/-! ### What a byte reads as -/

theorem Mem.read_insert_same (m : List Host.Cell) (a : Nat) (b : Byte) : Mem.read (Mem.insert m a b) a = b := by
  induction m with
  | nil => simp [Mem.insert, Mem.read]
  | cons c t ih =>
    simp only [Mem.insert]
    split
    · simp [Mem.read]
    · rename_i h
      split
      · simp [Mem.read]
      · simp [Mem.read, h, ih]

theorem Mem.read_insert_ne (m : List Host.Cell) {a x : Nat} (b : Byte) (h : x ≠ a) :
    Mem.read (Mem.insert m a b) x = Mem.read m x := by
  induction m with
  | nil => simp [Mem.insert, Mem.read, h]
  | cons c t ih =>
    simp only [Mem.insert]
    split
    · rename_i e
      subst e
      simp [Mem.read, h]
    · split
      · simp [Mem.read, h]
      · simp [Mem.read, ih]

theorem Mem.read_filter (m : List Host.Cell) (p : Nat → Bool) (x : Nat) :
    Mem.read (m.filter (fun c => p c.1)) x = if p x then Mem.read m x else 0 := by
  induction m with
  | nil => simp [Mem.read]
  | cons c t ih =>
    by_cases hp : p c.1
    · by_cases e : x = c.1
      · subst e
        simp [hp, Mem.read]
      · simp [hp, Mem.read, e, ih]
    · by_cases e : x = c.1
      · subst e
        simp [hp, ih]
      · simp [hp, Mem.read, e, ih]

/-- A byte reads as it was written. -/
theorem Mem.read_write_same (m : List Host.Cell) (a : Nat) (b : Byte) : Mem.read (Mem.write m a b) a = b := by
  unfold Mem.write
  split
  · rename_i h
    have := Mem.read_filter m (fun x => decide (x ≠ a)) a
    simp only [ne_eq, not_true_eq_false, decide_false, Bool.false_eq_true, if_false] at this
    rw [h]
    exact this
  · exact Mem.read_insert_same m a b

/-- A write leaves every other byte alone. -/
theorem Mem.read_write_ne (m : List Host.Cell) {a x : Nat} (b : Byte) (h : x ≠ a) :
    Mem.read (Mem.write m a b) x = Mem.read m x := by
  unfold Mem.write
  split
  · have := Mem.read_filter m (fun y => decide (y ≠ a)) x
    simp only [ne_eq, h, not_false_eq_true, decide_true, if_true] at this
    exact this
  · exact Mem.read_insert_ne m b h

/-- A store leaves every byte outside it alone. -/
theorem Mem.read_writeBytes_out (m : List Host.Cell) (a : Nat) (bs : List Byte) (x : Nat) (h : x < a ∨ a + bs.length ≤ x) :
    Mem.read (Mem.writeBytes m a bs) x = Mem.read m x := by
  induction bs generalizing m a with
  | nil => rfl
  | cons b t ih =>
    simp only [Mem.writeBytes]
    rw [ih _ _ (by simp only [List.length_cons] at h; omega), Mem.read_write_ne _ _ (by simp only [List.length_cons] at h; omega)]

/-- A store's bytes read as stored. -/
theorem Mem.read_writeBytes_in (m : List Host.Cell) (a : Nat) (bs : List Byte) (i : Nat) (h : i < bs.length) :
    Mem.read (Mem.writeBytes m a bs) (a + i) = bs[i] := by
  induction bs generalizing m a i with
  | nil => simp at h
  | cons b t ih =>
    cases i with
    | zero =>
      simp only [Mem.writeBytes, Nat.add_zero, List.getElem_cons_zero]
      rw [Mem.read_writeBytes_out _ _ _ _ (by omega), Mem.read_write_same]
    | succ i =>
      simp only [Mem.writeBytes, List.getElem_cons_succ]
      rw [← ih (Mem.write m a b) (a + 1) i (by simpa using h)]
      congr 1
      omega

/-- Zeroed bytes read as 0, the others as before. -/
theorem Mem.read_zero (m : List Host.Cell) (a n x : Nat) :
    Mem.read (Mem.zero m a n) x = if x < a ∨ a + n ≤ x then Mem.read m x else 0 := by
  unfold Mem.zero
  rw [Mem.read_filter m (fun y => decide (y < a) || decide (a + n ≤ y))]
  simp

end Sys2Proof.Machine
end

