-- ==== Sys2Proof/Laws/State.lean ====
section
/-! SUPPORT. Laws/State.lean: what each named update of Machine/Ops.lean leaves alone, one lemma per field. Each holds by rfl; `id rfl` keeps simp from checking an instance of it by evaluating the update. -/
namespace Sys2Proof.Machine

variable (s : State)

@[simp] theorem State.setWord_pending (a : Nat) (v : Word) : (s.setWord a v).pending = s.pending := id rfl
@[simp] theorem State.setWord_pend (a : Nat) (v : Word) : (s.setWord a v).pend = s.pend := id rfl
@[simp] theorem State.setWord_mem (a : Nat) (v : Word) : (s.setWord a v).mem = s.mem := id rfl
@[simp] theorem State.setWord_ofs (a : Nat) (v : Word) : (s.setWord a v).ofs = s.ofs := id rfl
@[simp] theorem State.setWord_freeN (a : Nat) (v : Word) : (s.setWord a v).freeN = s.freeN := id rfl
@[simp] theorem State.setWord_traps (a : Nat) (v : Word) : (s.setWord a v).traps = s.traps := id rfl
@[simp] theorem State.setWord_held (a : Nat) (v : Word) : (s.setWord a v).held = s.held := id rfl
@[simp] theorem State.setWord_popped (a : Nat) (v : Word) : (s.setWord a v).popped = s.popped := id rfl
@[simp] theorem State.setWord_csrTraps (a : Nat) (v : Word) : (s.setWord a v).csrTraps = s.csrTraps := id rfl
@[simp] theorem State.setWord_resv (a : Nat) (v : Word) : (s.setWord a v).resv = s.resv := id rfl
@[simp] theorem State.setWord_regg (a : Nat) (v : Word) : (s.setWord a v).regg = s.regg := id rfl
@[simp] theorem State.setWord_recd (a : Nat) (v : Word) : (s.setWord a v).recd = s.recd := id rfl
@[simp] theorem State.setWord_obs (a : Nat) (v : Word) : (s.setWord a v).obs = s.obs := id rfl
@[simp] theorem State.setWord_tri (a : Nat) (v : Word) : (s.setWord a v).tri = s.tri := id rfl
@[simp] theorem State.setWord_cyc (a : Nat) (v : Word) : (s.setWord a v).cyc = s.cyc := id rfl
@[simp] theorem State.setWord_door (a : Nat) (v : Word) : (s.setWord a v).door = s.door := id rfl
@[simp] theorem State.setWord_trip (a : Nat) (v : Word) : (s.setWord a v).trip = s.trip := id rfl
@[simp] theorem State.setWord_safe (a : Nat) (v : Word) : (s.setWord a v).safe = s.safe := id rfl
@[simp] theorem State.setWord_lanes (a : Nat) (v : Word) : (s.setWord a v).lanes = s.lanes := id rfl
@[simp] theorem State.setWord_time (a : Nat) (v : Word) : (s.setWord a v).time = s.time := id rfl
@[simp] theorem State.setWord_wire (a : Nat) (v : Word) : (s.setWord a v).wire = s.wire := id rfl
@[simp] theorem State.setWord_ecn (a : Nat) (v : Word) : (s.setWord a v).ecn = s.ecn := id rfl
@[simp] theorem State.setWord_gw (a : Nat) (v : Word) : (s.setWord a v).gw = s.gw := id rfl
@[simp] theorem State.setWord_dio (a : Nat) (v : Word) : (s.setWord a v).dio = s.dio := id rfl
@[simp] theorem State.setWord_loops (a : Nat) (v : Word) : (s.setWord a v).loops = s.loops := id rfl
@[simp] theorem State.setWord_loopPrg (a : Nat) (v : Word) : (s.setWord a v).loopPrg = s.loopPrg := id rfl
@[simp] theorem State.setWord_twin (a : Nat) (v : Word) : (s.setWord a v).twin = s.twin := id rfl
@[simp] theorem State.setWord_brg (a : Nat) (v : Word) : (s.setWord a v).brg = s.brg := id rfl
@[simp] theorem State.setWord_clk (a : Nat) (v : Word) : (s.setWord a v).clk = s.clk := id rfl
@[simp] theorem State.setWord_pwr (a : Nat) (v : Word) : (s.setWord a v).pwr = s.pwr := id rfl
@[simp] theorem State.setWord_nv (a : Nat) (v : Word) : (s.setWord a v).nv = s.nv := id rfl
@[simp] theorem State.setWord_boot (a : Nat) (v : Word) : (s.setWord a v).boot = s.boot := id rfl

@[simp] theorem State.setPend_pending (a : Nat) (v : Word) : (s.setPend a v).pending = s.pending := id rfl
@[simp] theorem State.setPend_regs (a : Nat) (v : Word) : (s.setPend a v).regs = s.regs := id rfl
@[simp] theorem State.setPend_mem (a : Nat) (v : Word) : (s.setPend a v).mem = s.mem := id rfl
@[simp] theorem State.setPend_ofs (a : Nat) (v : Word) : (s.setPend a v).ofs = s.ofs := id rfl
@[simp] theorem State.setPend_freeN (a : Nat) (v : Word) : (s.setPend a v).freeN = s.freeN := id rfl
@[simp] theorem State.setPend_traps (a : Nat) (v : Word) : (s.setPend a v).traps = s.traps := id rfl
@[simp] theorem State.setPend_held (a : Nat) (v : Word) : (s.setPend a v).held = s.held := id rfl
@[simp] theorem State.setPend_popped (a : Nat) (v : Word) : (s.setPend a v).popped = s.popped := id rfl
@[simp] theorem State.setPend_csrTraps (a : Nat) (v : Word) : (s.setPend a v).csrTraps = s.csrTraps := id rfl
@[simp] theorem State.setPend_resv (a : Nat) (v : Word) : (s.setPend a v).resv = s.resv := id rfl
@[simp] theorem State.setPend_regg (a : Nat) (v : Word) : (s.setPend a v).regg = s.regg := id rfl
@[simp] theorem State.setPend_recd (a : Nat) (v : Word) : (s.setPend a v).recd = s.recd := id rfl
@[simp] theorem State.setPend_obs (a : Nat) (v : Word) : (s.setPend a v).obs = s.obs := id rfl
@[simp] theorem State.setPend_tri (a : Nat) (v : Word) : (s.setPend a v).tri = s.tri := id rfl
@[simp] theorem State.setPend_cyc (a : Nat) (v : Word) : (s.setPend a v).cyc = s.cyc := id rfl
@[simp] theorem State.setPend_door (a : Nat) (v : Word) : (s.setPend a v).door = s.door := id rfl
@[simp] theorem State.setPend_trip (a : Nat) (v : Word) : (s.setPend a v).trip = s.trip := id rfl
@[simp] theorem State.setPend_safe (a : Nat) (v : Word) : (s.setPend a v).safe = s.safe := id rfl
@[simp] theorem State.setPend_lanes (a : Nat) (v : Word) : (s.setPend a v).lanes = s.lanes := id rfl
@[simp] theorem State.setPend_time (a : Nat) (v : Word) : (s.setPend a v).time = s.time := id rfl
@[simp] theorem State.setPend_wire (a : Nat) (v : Word) : (s.setPend a v).wire = s.wire := id rfl
@[simp] theorem State.setPend_ecn (a : Nat) (v : Word) : (s.setPend a v).ecn = s.ecn := id rfl
@[simp] theorem State.setPend_gw (a : Nat) (v : Word) : (s.setPend a v).gw = s.gw := id rfl
@[simp] theorem State.setPend_dio (a : Nat) (v : Word) : (s.setPend a v).dio = s.dio := id rfl
@[simp] theorem State.setPend_loops (a : Nat) (v : Word) : (s.setPend a v).loops = s.loops := id rfl
@[simp] theorem State.setPend_loopPrg (a : Nat) (v : Word) : (s.setPend a v).loopPrg = s.loopPrg := id rfl
@[simp] theorem State.setPend_twin (a : Nat) (v : Word) : (s.setPend a v).twin = s.twin := id rfl
@[simp] theorem State.setPend_brg (a : Nat) (v : Word) : (s.setPend a v).brg = s.brg := id rfl
@[simp] theorem State.setPend_clk (a : Nat) (v : Word) : (s.setPend a v).clk = s.clk := id rfl
@[simp] theorem State.setPend_pwr (a : Nat) (v : Word) : (s.setPend a v).pwr = s.pwr := id rfl
@[simp] theorem State.setPend_nv (a : Nat) (v : Word) : (s.setPend a v).nv = s.nv := id rfl
@[simp] theorem State.setPend_boot (a : Nat) (v : Word) : (s.setPend a v).boot = s.boot := id rfl

@[simp] theorem State.put_pending (f : Fld) (v : Nat) : (s.put f v).pending = s.pending := id rfl
@[simp] theorem State.put_pend (f : Fld) (v : Nat) : (s.put f v).pend = s.pend := id rfl
@[simp] theorem State.put_mem (f : Fld) (v : Nat) : (s.put f v).mem = s.mem := id rfl
@[simp] theorem State.put_ofs (f : Fld) (v : Nat) : (s.put f v).ofs = s.ofs := id rfl
@[simp] theorem State.put_freeN (f : Fld) (v : Nat) : (s.put f v).freeN = s.freeN := id rfl
@[simp] theorem State.put_traps (f : Fld) (v : Nat) : (s.put f v).traps = s.traps := id rfl
@[simp] theorem State.put_held (f : Fld) (v : Nat) : (s.put f v).held = s.held := id rfl
@[simp] theorem State.put_popped (f : Fld) (v : Nat) : (s.put f v).popped = s.popped := id rfl
@[simp] theorem State.put_csrTraps (f : Fld) (v : Nat) : (s.put f v).csrTraps = s.csrTraps := id rfl
@[simp] theorem State.put_resv (f : Fld) (v : Nat) : (s.put f v).resv = s.resv := id rfl
@[simp] theorem State.put_regg (f : Fld) (v : Nat) : (s.put f v).regg = s.regg := id rfl
@[simp] theorem State.put_recd (f : Fld) (v : Nat) : (s.put f v).recd = s.recd := id rfl
@[simp] theorem State.put_obs (f : Fld) (v : Nat) : (s.put f v).obs = s.obs := id rfl
@[simp] theorem State.put_tri (f : Fld) (v : Nat) : (s.put f v).tri = s.tri := id rfl
@[simp] theorem State.put_cyc (f : Fld) (v : Nat) : (s.put f v).cyc = s.cyc := id rfl
@[simp] theorem State.put_door (f : Fld) (v : Nat) : (s.put f v).door = s.door := id rfl
@[simp] theorem State.put_trip (f : Fld) (v : Nat) : (s.put f v).trip = s.trip := id rfl
@[simp] theorem State.put_safe (f : Fld) (v : Nat) : (s.put f v).safe = s.safe := id rfl
@[simp] theorem State.put_lanes (f : Fld) (v : Nat) : (s.put f v).lanes = s.lanes := id rfl
@[simp] theorem State.put_time (f : Fld) (v : Nat) : (s.put f v).time = s.time := id rfl
@[simp] theorem State.put_wire (f : Fld) (v : Nat) : (s.put f v).wire = s.wire := id rfl
@[simp] theorem State.put_ecn (f : Fld) (v : Nat) : (s.put f v).ecn = s.ecn := id rfl
@[simp] theorem State.put_gw (f : Fld) (v : Nat) : (s.put f v).gw = s.gw := id rfl
@[simp] theorem State.put_dio (f : Fld) (v : Nat) : (s.put f v).dio = s.dio := id rfl
@[simp] theorem State.put_loops (f : Fld) (v : Nat) : (s.put f v).loops = s.loops := id rfl
@[simp] theorem State.put_loopPrg (f : Fld) (v : Nat) : (s.put f v).loopPrg = s.loopPrg := id rfl
@[simp] theorem State.put_twin (f : Fld) (v : Nat) : (s.put f v).twin = s.twin := id rfl
@[simp] theorem State.put_brg (f : Fld) (v : Nat) : (s.put f v).brg = s.brg := id rfl
@[simp] theorem State.put_clk (f : Fld) (v : Nat) : (s.put f v).clk = s.clk := id rfl
@[simp] theorem State.put_pwr (f : Fld) (v : Nat) : (s.put f v).pwr = s.pwr := id rfl
@[simp] theorem State.put_nv (f : Fld) (v : Nat) : (s.put f v).nv = s.nv := id rfl
@[simp] theorem State.put_boot (f : Fld) (v : Nat) : (s.put f v).boot = s.boot := id rfl

@[simp] theorem State.putIf_pending (f : Fld) (v : Nat) : (s.putIf f v).pending = s.pending := id rfl
@[simp] theorem State.putIf_pend (f : Fld) (v : Nat) : (s.putIf f v).pend = s.pend := id rfl
@[simp] theorem State.putIf_mem (f : Fld) (v : Nat) : (s.putIf f v).mem = s.mem := id rfl
@[simp] theorem State.putIf_ofs (f : Fld) (v : Nat) : (s.putIf f v).ofs = s.ofs := id rfl
@[simp] theorem State.putIf_freeN (f : Fld) (v : Nat) : (s.putIf f v).freeN = s.freeN := id rfl
@[simp] theorem State.putIf_traps (f : Fld) (v : Nat) : (s.putIf f v).traps = s.traps := id rfl
@[simp] theorem State.putIf_held (f : Fld) (v : Nat) : (s.putIf f v).held = s.held := id rfl
@[simp] theorem State.putIf_popped (f : Fld) (v : Nat) : (s.putIf f v).popped = s.popped := id rfl
@[simp] theorem State.putIf_csrTraps (f : Fld) (v : Nat) : (s.putIf f v).csrTraps = s.csrTraps := id rfl
@[simp] theorem State.putIf_resv (f : Fld) (v : Nat) : (s.putIf f v).resv = s.resv := id rfl
@[simp] theorem State.putIf_regg (f : Fld) (v : Nat) : (s.putIf f v).regg = s.regg := id rfl
@[simp] theorem State.putIf_recd (f : Fld) (v : Nat) : (s.putIf f v).recd = s.recd := id rfl
@[simp] theorem State.putIf_obs (f : Fld) (v : Nat) : (s.putIf f v).obs = s.obs := id rfl
@[simp] theorem State.putIf_tri (f : Fld) (v : Nat) : (s.putIf f v).tri = s.tri := id rfl
@[simp] theorem State.putIf_cyc (f : Fld) (v : Nat) : (s.putIf f v).cyc = s.cyc := id rfl
@[simp] theorem State.putIf_door (f : Fld) (v : Nat) : (s.putIf f v).door = s.door := id rfl
@[simp] theorem State.putIf_trip (f : Fld) (v : Nat) : (s.putIf f v).trip = s.trip := id rfl
@[simp] theorem State.putIf_safe (f : Fld) (v : Nat) : (s.putIf f v).safe = s.safe := id rfl
@[simp] theorem State.putIf_lanes (f : Fld) (v : Nat) : (s.putIf f v).lanes = s.lanes := id rfl
@[simp] theorem State.putIf_time (f : Fld) (v : Nat) : (s.putIf f v).time = s.time := id rfl
@[simp] theorem State.putIf_wire (f : Fld) (v : Nat) : (s.putIf f v).wire = s.wire := id rfl
@[simp] theorem State.putIf_ecn (f : Fld) (v : Nat) : (s.putIf f v).ecn = s.ecn := id rfl
@[simp] theorem State.putIf_gw (f : Fld) (v : Nat) : (s.putIf f v).gw = s.gw := id rfl
@[simp] theorem State.putIf_dio (f : Fld) (v : Nat) : (s.putIf f v).dio = s.dio := id rfl
@[simp] theorem State.putIf_loops (f : Fld) (v : Nat) : (s.putIf f v).loops = s.loops := id rfl
@[simp] theorem State.putIf_loopPrg (f : Fld) (v : Nat) : (s.putIf f v).loopPrg = s.loopPrg := id rfl
@[simp] theorem State.putIf_twin (f : Fld) (v : Nat) : (s.putIf f v).twin = s.twin := id rfl
@[simp] theorem State.putIf_brg (f : Fld) (v : Nat) : (s.putIf f v).brg = s.brg := id rfl
@[simp] theorem State.putIf_clk (f : Fld) (v : Nat) : (s.putIf f v).clk = s.clk := id rfl
@[simp] theorem State.putIf_pwr (f : Fld) (v : Nat) : (s.putIf f v).pwr = s.pwr := id rfl
@[simp] theorem State.putIf_nv (f : Fld) (v : Nat) : (s.putIf f v).nv = s.nv := id rfl
@[simp] theorem State.putIf_boot (f : Fld) (v : Nat) : (s.putIf f v).boot = s.boot := id rfl

@[simp] theorem State.putFlag_pending (f : Fld) (b : Bool) : (s.putFlag f b).pending = s.pending := id rfl
@[simp] theorem State.putFlag_pend (f : Fld) (b : Bool) : (s.putFlag f b).pend = s.pend := id rfl
@[simp] theorem State.putFlag_mem (f : Fld) (b : Bool) : (s.putFlag f b).mem = s.mem := id rfl
@[simp] theorem State.putFlag_ofs (f : Fld) (b : Bool) : (s.putFlag f b).ofs = s.ofs := id rfl
@[simp] theorem State.putFlag_freeN (f : Fld) (b : Bool) : (s.putFlag f b).freeN = s.freeN := id rfl
@[simp] theorem State.putFlag_traps (f : Fld) (b : Bool) : (s.putFlag f b).traps = s.traps := id rfl
@[simp] theorem State.putFlag_held (f : Fld) (b : Bool) : (s.putFlag f b).held = s.held := id rfl
@[simp] theorem State.putFlag_popped (f : Fld) (b : Bool) : (s.putFlag f b).popped = s.popped := id rfl
@[simp] theorem State.putFlag_csrTraps (f : Fld) (b : Bool) : (s.putFlag f b).csrTraps = s.csrTraps := id rfl
@[simp] theorem State.putFlag_resv (f : Fld) (b : Bool) : (s.putFlag f b).resv = s.resv := id rfl
@[simp] theorem State.putFlag_regg (f : Fld) (b : Bool) : (s.putFlag f b).regg = s.regg := id rfl
@[simp] theorem State.putFlag_recd (f : Fld) (b : Bool) : (s.putFlag f b).recd = s.recd := id rfl
@[simp] theorem State.putFlag_obs (f : Fld) (b : Bool) : (s.putFlag f b).obs = s.obs := id rfl
@[simp] theorem State.putFlag_tri (f : Fld) (b : Bool) : (s.putFlag f b).tri = s.tri := id rfl
@[simp] theorem State.putFlag_cyc (f : Fld) (b : Bool) : (s.putFlag f b).cyc = s.cyc := id rfl
@[simp] theorem State.putFlag_door (f : Fld) (b : Bool) : (s.putFlag f b).door = s.door := id rfl
@[simp] theorem State.putFlag_trip (f : Fld) (b : Bool) : (s.putFlag f b).trip = s.trip := id rfl
@[simp] theorem State.putFlag_safe (f : Fld) (b : Bool) : (s.putFlag f b).safe = s.safe := id rfl
@[simp] theorem State.putFlag_lanes (f : Fld) (b : Bool) : (s.putFlag f b).lanes = s.lanes := id rfl
@[simp] theorem State.putFlag_time (f : Fld) (b : Bool) : (s.putFlag f b).time = s.time := id rfl
@[simp] theorem State.putFlag_wire (f : Fld) (b : Bool) : (s.putFlag f b).wire = s.wire := id rfl
@[simp] theorem State.putFlag_ecn (f : Fld) (b : Bool) : (s.putFlag f b).ecn = s.ecn := id rfl
@[simp] theorem State.putFlag_gw (f : Fld) (b : Bool) : (s.putFlag f b).gw = s.gw := id rfl
@[simp] theorem State.putFlag_dio (f : Fld) (b : Bool) : (s.putFlag f b).dio = s.dio := id rfl
@[simp] theorem State.putFlag_loops (f : Fld) (b : Bool) : (s.putFlag f b).loops = s.loops := id rfl
@[simp] theorem State.putFlag_loopPrg (f : Fld) (b : Bool) : (s.putFlag f b).loopPrg = s.loopPrg := id rfl
@[simp] theorem State.putFlag_twin (f : Fld) (b : Bool) : (s.putFlag f b).twin = s.twin := id rfl
@[simp] theorem State.putFlag_brg (f : Fld) (b : Bool) : (s.putFlag f b).brg = s.brg := id rfl
@[simp] theorem State.putFlag_clk (f : Fld) (b : Bool) : (s.putFlag f b).clk = s.clk := id rfl
@[simp] theorem State.putFlag_pwr (f : Fld) (b : Bool) : (s.putFlag f b).pwr = s.pwr := id rfl
@[simp] theorem State.putFlag_nv (f : Fld) (b : Bool) : (s.putFlag f b).nv = s.nv := id rfl
@[simp] theorem State.putFlag_boot (f : Fld) (b : Bool) : (s.putFlag f b).boot = s.boot := id rfl

@[simp] theorem State.add_pending (f : Fld) (n : Nat) : (s.add f n).pending = s.pending := id rfl
@[simp] theorem State.add_pend (f : Fld) (n : Nat) : (s.add f n).pend = s.pend := id rfl
@[simp] theorem State.add_mem (f : Fld) (n : Nat) : (s.add f n).mem = s.mem := id rfl
@[simp] theorem State.add_ofs (f : Fld) (n : Nat) : (s.add f n).ofs = s.ofs := id rfl
@[simp] theorem State.add_freeN (f : Fld) (n : Nat) : (s.add f n).freeN = s.freeN := id rfl
@[simp] theorem State.add_traps (f : Fld) (n : Nat) : (s.add f n).traps = s.traps := id rfl
@[simp] theorem State.add_held (f : Fld) (n : Nat) : (s.add f n).held = s.held := id rfl
@[simp] theorem State.add_popped (f : Fld) (n : Nat) : (s.add f n).popped = s.popped := id rfl
@[simp] theorem State.add_csrTraps (f : Fld) (n : Nat) : (s.add f n).csrTraps = s.csrTraps := id rfl
@[simp] theorem State.add_resv (f : Fld) (n : Nat) : (s.add f n).resv = s.resv := id rfl
@[simp] theorem State.add_regg (f : Fld) (n : Nat) : (s.add f n).regg = s.regg := id rfl
@[simp] theorem State.add_recd (f : Fld) (n : Nat) : (s.add f n).recd = s.recd := id rfl
@[simp] theorem State.add_obs (f : Fld) (n : Nat) : (s.add f n).obs = s.obs := id rfl
@[simp] theorem State.add_tri (f : Fld) (n : Nat) : (s.add f n).tri = s.tri := id rfl
@[simp] theorem State.add_cyc (f : Fld) (n : Nat) : (s.add f n).cyc = s.cyc := id rfl
@[simp] theorem State.add_door (f : Fld) (n : Nat) : (s.add f n).door = s.door := id rfl
@[simp] theorem State.add_trip (f : Fld) (n : Nat) : (s.add f n).trip = s.trip := id rfl
@[simp] theorem State.add_safe (f : Fld) (n : Nat) : (s.add f n).safe = s.safe := id rfl
@[simp] theorem State.add_lanes (f : Fld) (n : Nat) : (s.add f n).lanes = s.lanes := id rfl
@[simp] theorem State.add_time (f : Fld) (n : Nat) : (s.add f n).time = s.time := id rfl
@[simp] theorem State.add_wire (f : Fld) (n : Nat) : (s.add f n).wire = s.wire := id rfl
@[simp] theorem State.add_ecn (f : Fld) (n : Nat) : (s.add f n).ecn = s.ecn := id rfl
@[simp] theorem State.add_gw (f : Fld) (n : Nat) : (s.add f n).gw = s.gw := id rfl
@[simp] theorem State.add_dio (f : Fld) (n : Nat) : (s.add f n).dio = s.dio := id rfl
@[simp] theorem State.add_loops (f : Fld) (n : Nat) : (s.add f n).loops = s.loops := id rfl
@[simp] theorem State.add_loopPrg (f : Fld) (n : Nat) : (s.add f n).loopPrg = s.loopPrg := id rfl
@[simp] theorem State.add_twin (f : Fld) (n : Nat) : (s.add f n).twin = s.twin := id rfl
@[simp] theorem State.add_brg (f : Fld) (n : Nat) : (s.add f n).brg = s.brg := id rfl
@[simp] theorem State.add_clk (f : Fld) (n : Nat) : (s.add f n).clk = s.clk := id rfl
@[simp] theorem State.add_pwr (f : Fld) (n : Nat) : (s.add f n).pwr = s.pwr := id rfl
@[simp] theorem State.add_nv (f : Fld) (n : Nat) : (s.add f n).nv = s.nv := id rfl
@[simp] theorem State.add_boot (f : Fld) (n : Nat) : (s.add f n).boot = s.boot := id rfl

@[simp] theorem State.inc_pending (f : Fld) : (s.inc f).pending = s.pending := id rfl
@[simp] theorem State.inc_pend (f : Fld) : (s.inc f).pend = s.pend := id rfl
@[simp] theorem State.inc_mem (f : Fld) : (s.inc f).mem = s.mem := id rfl
@[simp] theorem State.inc_ofs (f : Fld) : (s.inc f).ofs = s.ofs := id rfl
@[simp] theorem State.inc_freeN (f : Fld) : (s.inc f).freeN = s.freeN := id rfl
@[simp] theorem State.inc_traps (f : Fld) : (s.inc f).traps = s.traps := id rfl
@[simp] theorem State.inc_held (f : Fld) : (s.inc f).held = s.held := id rfl
@[simp] theorem State.inc_popped (f : Fld) : (s.inc f).popped = s.popped := id rfl
@[simp] theorem State.inc_csrTraps (f : Fld) : (s.inc f).csrTraps = s.csrTraps := id rfl
@[simp] theorem State.inc_resv (f : Fld) : (s.inc f).resv = s.resv := id rfl
@[simp] theorem State.inc_regg (f : Fld) : (s.inc f).regg = s.regg := id rfl
@[simp] theorem State.inc_recd (f : Fld) : (s.inc f).recd = s.recd := id rfl
@[simp] theorem State.inc_obs (f : Fld) : (s.inc f).obs = s.obs := id rfl
@[simp] theorem State.inc_tri (f : Fld) : (s.inc f).tri = s.tri := id rfl
@[simp] theorem State.inc_cyc (f : Fld) : (s.inc f).cyc = s.cyc := id rfl
@[simp] theorem State.inc_door (f : Fld) : (s.inc f).door = s.door := id rfl
@[simp] theorem State.inc_trip (f : Fld) : (s.inc f).trip = s.trip := id rfl
@[simp] theorem State.inc_safe (f : Fld) : (s.inc f).safe = s.safe := id rfl
@[simp] theorem State.inc_lanes (f : Fld) : (s.inc f).lanes = s.lanes := id rfl
@[simp] theorem State.inc_time (f : Fld) : (s.inc f).time = s.time := id rfl
@[simp] theorem State.inc_wire (f : Fld) : (s.inc f).wire = s.wire := id rfl
@[simp] theorem State.inc_ecn (f : Fld) : (s.inc f).ecn = s.ecn := id rfl
@[simp] theorem State.inc_gw (f : Fld) : (s.inc f).gw = s.gw := id rfl
@[simp] theorem State.inc_dio (f : Fld) : (s.inc f).dio = s.dio := id rfl
@[simp] theorem State.inc_loops (f : Fld) : (s.inc f).loops = s.loops := id rfl
@[simp] theorem State.inc_loopPrg (f : Fld) : (s.inc f).loopPrg = s.loopPrg := id rfl
@[simp] theorem State.inc_twin (f : Fld) : (s.inc f).twin = s.twin := id rfl
@[simp] theorem State.inc_brg (f : Fld) : (s.inc f).brg = s.brg := id rfl
@[simp] theorem State.inc_clk (f : Fld) : (s.inc f).clk = s.clk := id rfl
@[simp] theorem State.inc_pwr (f : Fld) : (s.inc f).pwr = s.pwr := id rfl
@[simp] theorem State.inc_nv (f : Fld) : (s.inc f).nv = s.nv := id rfl
@[simp] theorem State.inc_boot (f : Fld) : (s.inc f).boot = s.boot := id rfl

@[simp] theorem State.addSat_pending (f : Fld) (n : Nat) : (s.addSat f n).pending = s.pending := id rfl
@[simp] theorem State.addSat_pend (f : Fld) (n : Nat) : (s.addSat f n).pend = s.pend := id rfl
@[simp] theorem State.addSat_mem (f : Fld) (n : Nat) : (s.addSat f n).mem = s.mem := id rfl
@[simp] theorem State.addSat_ofs (f : Fld) (n : Nat) : (s.addSat f n).ofs = s.ofs := id rfl
@[simp] theorem State.addSat_freeN (f : Fld) (n : Nat) : (s.addSat f n).freeN = s.freeN := id rfl
@[simp] theorem State.addSat_traps (f : Fld) (n : Nat) : (s.addSat f n).traps = s.traps := id rfl
@[simp] theorem State.addSat_held (f : Fld) (n : Nat) : (s.addSat f n).held = s.held := id rfl
@[simp] theorem State.addSat_popped (f : Fld) (n : Nat) : (s.addSat f n).popped = s.popped := id rfl
@[simp] theorem State.addSat_csrTraps (f : Fld) (n : Nat) : (s.addSat f n).csrTraps = s.csrTraps := id rfl
@[simp] theorem State.addSat_resv (f : Fld) (n : Nat) : (s.addSat f n).resv = s.resv := id rfl
@[simp] theorem State.addSat_regg (f : Fld) (n : Nat) : (s.addSat f n).regg = s.regg := id rfl
@[simp] theorem State.addSat_recd (f : Fld) (n : Nat) : (s.addSat f n).recd = s.recd := id rfl
@[simp] theorem State.addSat_obs (f : Fld) (n : Nat) : (s.addSat f n).obs = s.obs := id rfl
@[simp] theorem State.addSat_tri (f : Fld) (n : Nat) : (s.addSat f n).tri = s.tri := id rfl
@[simp] theorem State.addSat_cyc (f : Fld) (n : Nat) : (s.addSat f n).cyc = s.cyc := id rfl
@[simp] theorem State.addSat_door (f : Fld) (n : Nat) : (s.addSat f n).door = s.door := id rfl
@[simp] theorem State.addSat_trip (f : Fld) (n : Nat) : (s.addSat f n).trip = s.trip := id rfl
@[simp] theorem State.addSat_safe (f : Fld) (n : Nat) : (s.addSat f n).safe = s.safe := id rfl
@[simp] theorem State.addSat_lanes (f : Fld) (n : Nat) : (s.addSat f n).lanes = s.lanes := id rfl
@[simp] theorem State.addSat_time (f : Fld) (n : Nat) : (s.addSat f n).time = s.time := id rfl
@[simp] theorem State.addSat_wire (f : Fld) (n : Nat) : (s.addSat f n).wire = s.wire := id rfl
@[simp] theorem State.addSat_ecn (f : Fld) (n : Nat) : (s.addSat f n).ecn = s.ecn := id rfl
@[simp] theorem State.addSat_gw (f : Fld) (n : Nat) : (s.addSat f n).gw = s.gw := id rfl
@[simp] theorem State.addSat_dio (f : Fld) (n : Nat) : (s.addSat f n).dio = s.dio := id rfl
@[simp] theorem State.addSat_loops (f : Fld) (n : Nat) : (s.addSat f n).loops = s.loops := id rfl
@[simp] theorem State.addSat_loopPrg (f : Fld) (n : Nat) : (s.addSat f n).loopPrg = s.loopPrg := id rfl
@[simp] theorem State.addSat_twin (f : Fld) (n : Nat) : (s.addSat f n).twin = s.twin := id rfl
@[simp] theorem State.addSat_brg (f : Fld) (n : Nat) : (s.addSat f n).brg = s.brg := id rfl
@[simp] theorem State.addSat_clk (f : Fld) (n : Nat) : (s.addSat f n).clk = s.clk := id rfl
@[simp] theorem State.addSat_pwr (f : Fld) (n : Nat) : (s.addSat f n).pwr = s.pwr := id rfl
@[simp] theorem State.addSat_nv (f : Fld) (n : Nat) : (s.addSat f n).nv = s.nv := id rfl
@[simp] theorem State.addSat_boot (f : Fld) (n : Nat) : (s.addSat f n).boot = s.boot := id rfl

@[simp] theorem State.putS_pending (f : Fld) (v : Int) : (s.putS f v).pending = s.pending := id rfl
@[simp] theorem State.putS_pend (f : Fld) (v : Int) : (s.putS f v).pend = s.pend := id rfl
@[simp] theorem State.putS_mem (f : Fld) (v : Int) : (s.putS f v).mem = s.mem := id rfl
@[simp] theorem State.putS_ofs (f : Fld) (v : Int) : (s.putS f v).ofs = s.ofs := id rfl
@[simp] theorem State.putS_freeN (f : Fld) (v : Int) : (s.putS f v).freeN = s.freeN := id rfl
@[simp] theorem State.putS_traps (f : Fld) (v : Int) : (s.putS f v).traps = s.traps := id rfl
@[simp] theorem State.putS_held (f : Fld) (v : Int) : (s.putS f v).held = s.held := id rfl
@[simp] theorem State.putS_popped (f : Fld) (v : Int) : (s.putS f v).popped = s.popped := id rfl
@[simp] theorem State.putS_csrTraps (f : Fld) (v : Int) : (s.putS f v).csrTraps = s.csrTraps := id rfl
@[simp] theorem State.putS_resv (f : Fld) (v : Int) : (s.putS f v).resv = s.resv := id rfl
@[simp] theorem State.putS_regg (f : Fld) (v : Int) : (s.putS f v).regg = s.regg := id rfl
@[simp] theorem State.putS_recd (f : Fld) (v : Int) : (s.putS f v).recd = s.recd := id rfl
@[simp] theorem State.putS_obs (f : Fld) (v : Int) : (s.putS f v).obs = s.obs := id rfl
@[simp] theorem State.putS_tri (f : Fld) (v : Int) : (s.putS f v).tri = s.tri := id rfl
@[simp] theorem State.putS_cyc (f : Fld) (v : Int) : (s.putS f v).cyc = s.cyc := id rfl
@[simp] theorem State.putS_door (f : Fld) (v : Int) : (s.putS f v).door = s.door := id rfl
@[simp] theorem State.putS_trip (f : Fld) (v : Int) : (s.putS f v).trip = s.trip := id rfl
@[simp] theorem State.putS_safe (f : Fld) (v : Int) : (s.putS f v).safe = s.safe := id rfl
@[simp] theorem State.putS_lanes (f : Fld) (v : Int) : (s.putS f v).lanes = s.lanes := id rfl
@[simp] theorem State.putS_time (f : Fld) (v : Int) : (s.putS f v).time = s.time := id rfl
@[simp] theorem State.putS_wire (f : Fld) (v : Int) : (s.putS f v).wire = s.wire := id rfl
@[simp] theorem State.putS_ecn (f : Fld) (v : Int) : (s.putS f v).ecn = s.ecn := id rfl
@[simp] theorem State.putS_gw (f : Fld) (v : Int) : (s.putS f v).gw = s.gw := id rfl
@[simp] theorem State.putS_dio (f : Fld) (v : Int) : (s.putS f v).dio = s.dio := id rfl
@[simp] theorem State.putS_loops (f : Fld) (v : Int) : (s.putS f v).loops = s.loops := id rfl
@[simp] theorem State.putS_loopPrg (f : Fld) (v : Int) : (s.putS f v).loopPrg = s.loopPrg := id rfl
@[simp] theorem State.putS_twin (f : Fld) (v : Int) : (s.putS f v).twin = s.twin := id rfl
@[simp] theorem State.putS_brg (f : Fld) (v : Int) : (s.putS f v).brg = s.brg := id rfl
@[simp] theorem State.putS_clk (f : Fld) (v : Int) : (s.putS f v).clk = s.clk := id rfl
@[simp] theorem State.putS_pwr (f : Fld) (v : Int) : (s.putS f v).pwr = s.pwr := id rfl
@[simp] theorem State.putS_nv (f : Fld) (v : Int) : (s.putS f v).nv = s.nv := id rfl
@[simp] theorem State.putS_boot (f : Fld) (v : Int) : (s.putS f v).boot = s.boot := id rfl

@[simp] theorem State.putBit_pending (f : Fld) (i : Nat) (b : Bool) : (s.putBit f i b).pending = s.pending := id rfl
@[simp] theorem State.putBit_pend (f : Fld) (i : Nat) (b : Bool) : (s.putBit f i b).pend = s.pend := id rfl
@[simp] theorem State.putBit_mem (f : Fld) (i : Nat) (b : Bool) : (s.putBit f i b).mem = s.mem := id rfl
@[simp] theorem State.putBit_ofs (f : Fld) (i : Nat) (b : Bool) : (s.putBit f i b).ofs = s.ofs := id rfl
@[simp] theorem State.putBit_freeN (f : Fld) (i : Nat) (b : Bool) : (s.putBit f i b).freeN = s.freeN := id rfl
@[simp] theorem State.putBit_traps (f : Fld) (i : Nat) (b : Bool) : (s.putBit f i b).traps = s.traps := id rfl
@[simp] theorem State.putBit_held (f : Fld) (i : Nat) (b : Bool) : (s.putBit f i b).held = s.held := id rfl
@[simp] theorem State.putBit_popped (f : Fld) (i : Nat) (b : Bool) : (s.putBit f i b).popped = s.popped := id rfl
@[simp] theorem State.putBit_csrTraps (f : Fld) (i : Nat) (b : Bool) : (s.putBit f i b).csrTraps = s.csrTraps := id rfl
@[simp] theorem State.putBit_resv (f : Fld) (i : Nat) (b : Bool) : (s.putBit f i b).resv = s.resv := id rfl
@[simp] theorem State.putBit_regg (f : Fld) (i : Nat) (b : Bool) : (s.putBit f i b).regg = s.regg := id rfl
@[simp] theorem State.putBit_recd (f : Fld) (i : Nat) (b : Bool) : (s.putBit f i b).recd = s.recd := id rfl
@[simp] theorem State.putBit_obs (f : Fld) (i : Nat) (b : Bool) : (s.putBit f i b).obs = s.obs := id rfl
@[simp] theorem State.putBit_tri (f : Fld) (i : Nat) (b : Bool) : (s.putBit f i b).tri = s.tri := id rfl
@[simp] theorem State.putBit_cyc (f : Fld) (i : Nat) (b : Bool) : (s.putBit f i b).cyc = s.cyc := id rfl
@[simp] theorem State.putBit_door (f : Fld) (i : Nat) (b : Bool) : (s.putBit f i b).door = s.door := id rfl
@[simp] theorem State.putBit_trip (f : Fld) (i : Nat) (b : Bool) : (s.putBit f i b).trip = s.trip := id rfl
@[simp] theorem State.putBit_safe (f : Fld) (i : Nat) (b : Bool) : (s.putBit f i b).safe = s.safe := id rfl
@[simp] theorem State.putBit_lanes (f : Fld) (i : Nat) (b : Bool) : (s.putBit f i b).lanes = s.lanes := id rfl
@[simp] theorem State.putBit_time (f : Fld) (i : Nat) (b : Bool) : (s.putBit f i b).time = s.time := id rfl
@[simp] theorem State.putBit_wire (f : Fld) (i : Nat) (b : Bool) : (s.putBit f i b).wire = s.wire := id rfl
@[simp] theorem State.putBit_ecn (f : Fld) (i : Nat) (b : Bool) : (s.putBit f i b).ecn = s.ecn := id rfl
@[simp] theorem State.putBit_gw (f : Fld) (i : Nat) (b : Bool) : (s.putBit f i b).gw = s.gw := id rfl
@[simp] theorem State.putBit_dio (f : Fld) (i : Nat) (b : Bool) : (s.putBit f i b).dio = s.dio := id rfl
@[simp] theorem State.putBit_loops (f : Fld) (i : Nat) (b : Bool) : (s.putBit f i b).loops = s.loops := id rfl
@[simp] theorem State.putBit_loopPrg (f : Fld) (i : Nat) (b : Bool) : (s.putBit f i b).loopPrg = s.loopPrg := id rfl
@[simp] theorem State.putBit_twin (f : Fld) (i : Nat) (b : Bool) : (s.putBit f i b).twin = s.twin := id rfl
@[simp] theorem State.putBit_brg (f : Fld) (i : Nat) (b : Bool) : (s.putBit f i b).brg = s.brg := id rfl
@[simp] theorem State.putBit_clk (f : Fld) (i : Nat) (b : Bool) : (s.putBit f i b).clk = s.clk := id rfl
@[simp] theorem State.putBit_pwr (f : Fld) (i : Nat) (b : Bool) : (s.putBit f i b).pwr = s.pwr := id rfl
@[simp] theorem State.putBit_nv (f : Fld) (i : Nat) (b : Bool) : (s.putBit f i b).nv = s.nv := id rfl
@[simp] theorem State.putBit_boot (f : Fld) (i : Nat) (b : Bool) : (s.putBit f i b).boot = s.boot := id rfl

@[simp] theorem State.storeBytes_pending (a : Nat) (bs : List Byte) : (s.storeBytes a bs).pending = s.pending := id rfl
@[simp] theorem State.storeBytes_regs (a : Nat) (bs : List Byte) : (s.storeBytes a bs).regs = s.regs := id rfl
@[simp] theorem State.storeBytes_pend (a : Nat) (bs : List Byte) : (s.storeBytes a bs).pend = s.pend := id rfl
@[simp] theorem State.storeBytes_ofs (a : Nat) (bs : List Byte) : (s.storeBytes a bs).ofs = s.ofs := id rfl
@[simp] theorem State.storeBytes_freeN (a : Nat) (bs : List Byte) : (s.storeBytes a bs).freeN = s.freeN := id rfl
@[simp] theorem State.storeBytes_traps (a : Nat) (bs : List Byte) : (s.storeBytes a bs).traps = s.traps := id rfl
@[simp] theorem State.storeBytes_held (a : Nat) (bs : List Byte) : (s.storeBytes a bs).held = s.held := id rfl
@[simp] theorem State.storeBytes_popped (a : Nat) (bs : List Byte) : (s.storeBytes a bs).popped = s.popped := id rfl
@[simp] theorem State.storeBytes_csrTraps (a : Nat) (bs : List Byte) : (s.storeBytes a bs).csrTraps = s.csrTraps := id rfl
@[simp] theorem State.storeBytes_resv (a : Nat) (bs : List Byte) : (s.storeBytes a bs).resv = s.resv := id rfl
@[simp] theorem State.storeBytes_regg (a : Nat) (bs : List Byte) : (s.storeBytes a bs).regg = s.regg := id rfl
@[simp] theorem State.storeBytes_recd (a : Nat) (bs : List Byte) : (s.storeBytes a bs).recd = s.recd := id rfl
@[simp] theorem State.storeBytes_obs (a : Nat) (bs : List Byte) : (s.storeBytes a bs).obs = s.obs := id rfl
@[simp] theorem State.storeBytes_tri (a : Nat) (bs : List Byte) : (s.storeBytes a bs).tri = s.tri := id rfl
@[simp] theorem State.storeBytes_cyc (a : Nat) (bs : List Byte) : (s.storeBytes a bs).cyc = s.cyc := id rfl
@[simp] theorem State.storeBytes_door (a : Nat) (bs : List Byte) : (s.storeBytes a bs).door = s.door := id rfl
@[simp] theorem State.storeBytes_trip (a : Nat) (bs : List Byte) : (s.storeBytes a bs).trip = s.trip := id rfl
@[simp] theorem State.storeBytes_safe (a : Nat) (bs : List Byte) : (s.storeBytes a bs).safe = s.safe := id rfl
@[simp] theorem State.storeBytes_lanes (a : Nat) (bs : List Byte) : (s.storeBytes a bs).lanes = s.lanes := id rfl
@[simp] theorem State.storeBytes_time (a : Nat) (bs : List Byte) : (s.storeBytes a bs).time = s.time := id rfl
@[simp] theorem State.storeBytes_wire (a : Nat) (bs : List Byte) : (s.storeBytes a bs).wire = s.wire := id rfl
@[simp] theorem State.storeBytes_ecn (a : Nat) (bs : List Byte) : (s.storeBytes a bs).ecn = s.ecn := id rfl
@[simp] theorem State.storeBytes_gw (a : Nat) (bs : List Byte) : (s.storeBytes a bs).gw = s.gw := id rfl
@[simp] theorem State.storeBytes_dio (a : Nat) (bs : List Byte) : (s.storeBytes a bs).dio = s.dio := id rfl
@[simp] theorem State.storeBytes_loops (a : Nat) (bs : List Byte) : (s.storeBytes a bs).loops = s.loops := id rfl
@[simp] theorem State.storeBytes_loopPrg (a : Nat) (bs : List Byte) : (s.storeBytes a bs).loopPrg = s.loopPrg := id rfl
@[simp] theorem State.storeBytes_twin (a : Nat) (bs : List Byte) : (s.storeBytes a bs).twin = s.twin := id rfl
@[simp] theorem State.storeBytes_brg (a : Nat) (bs : List Byte) : (s.storeBytes a bs).brg = s.brg := id rfl
@[simp] theorem State.storeBytes_clk (a : Nat) (bs : List Byte) : (s.storeBytes a bs).clk = s.clk := id rfl
@[simp] theorem State.storeBytes_pwr (a : Nat) (bs : List Byte) : (s.storeBytes a bs).pwr = s.pwr := id rfl
@[simp] theorem State.storeBytes_nv (a : Nat) (bs : List Byte) : (s.storeBytes a bs).nv = s.nv := id rfl
@[simp] theorem State.storeBytes_boot (a : Nat) (bs : List Byte) : (s.storeBytes a bs).boot = s.boot := id rfl

@[simp] theorem State.store_pending (a n v : Nat) : (s.store a n v).pending = s.pending := id rfl
@[simp] theorem State.store_regs (a n v : Nat) : (s.store a n v).regs = s.regs := id rfl
@[simp] theorem State.store_pend (a n v : Nat) : (s.store a n v).pend = s.pend := id rfl
@[simp] theorem State.store_ofs (a n v : Nat) : (s.store a n v).ofs = s.ofs := id rfl
@[simp] theorem State.store_freeN (a n v : Nat) : (s.store a n v).freeN = s.freeN := id rfl
@[simp] theorem State.store_traps (a n v : Nat) : (s.store a n v).traps = s.traps := id rfl
@[simp] theorem State.store_held (a n v : Nat) : (s.store a n v).held = s.held := id rfl
@[simp] theorem State.store_popped (a n v : Nat) : (s.store a n v).popped = s.popped := id rfl
@[simp] theorem State.store_csrTraps (a n v : Nat) : (s.store a n v).csrTraps = s.csrTraps := id rfl
@[simp] theorem State.store_resv (a n v : Nat) : (s.store a n v).resv = s.resv := id rfl
@[simp] theorem State.store_regg (a n v : Nat) : (s.store a n v).regg = s.regg := id rfl
@[simp] theorem State.store_recd (a n v : Nat) : (s.store a n v).recd = s.recd := id rfl
@[simp] theorem State.store_obs (a n v : Nat) : (s.store a n v).obs = s.obs := id rfl
@[simp] theorem State.store_tri (a n v : Nat) : (s.store a n v).tri = s.tri := id rfl
@[simp] theorem State.store_cyc (a n v : Nat) : (s.store a n v).cyc = s.cyc := id rfl
@[simp] theorem State.store_door (a n v : Nat) : (s.store a n v).door = s.door := id rfl
@[simp] theorem State.store_trip (a n v : Nat) : (s.store a n v).trip = s.trip := id rfl
@[simp] theorem State.store_safe (a n v : Nat) : (s.store a n v).safe = s.safe := id rfl
@[simp] theorem State.store_lanes (a n v : Nat) : (s.store a n v).lanes = s.lanes := id rfl
@[simp] theorem State.store_time (a n v : Nat) : (s.store a n v).time = s.time := id rfl
@[simp] theorem State.store_wire (a n v : Nat) : (s.store a n v).wire = s.wire := id rfl
@[simp] theorem State.store_ecn (a n v : Nat) : (s.store a n v).ecn = s.ecn := id rfl
@[simp] theorem State.store_gw (a n v : Nat) : (s.store a n v).gw = s.gw := id rfl
@[simp] theorem State.store_dio (a n v : Nat) : (s.store a n v).dio = s.dio := id rfl
@[simp] theorem State.store_loops (a n v : Nat) : (s.store a n v).loops = s.loops := id rfl
@[simp] theorem State.store_loopPrg (a n v : Nat) : (s.store a n v).loopPrg = s.loopPrg := id rfl
@[simp] theorem State.store_twin (a n v : Nat) : (s.store a n v).twin = s.twin := id rfl
@[simp] theorem State.store_brg (a n v : Nat) : (s.store a n v).brg = s.brg := id rfl
@[simp] theorem State.store_clk (a n v : Nat) : (s.store a n v).clk = s.clk := id rfl
@[simp] theorem State.store_pwr (a n v : Nat) : (s.store a n v).pwr = s.pwr := id rfl
@[simp] theorem State.store_nv (a n v : Nat) : (s.store a n v).nv = s.nv := id rfl
@[simp] theorem State.store_boot (a n v : Nat) : (s.store a n v).boot = s.boot := id rfl

@[simp] theorem State.copy_pending (a b n : Nat) : (s.copy a b n).pending = s.pending := id rfl
@[simp] theorem State.copy_regs (a b n : Nat) : (s.copy a b n).regs = s.regs := id rfl
@[simp] theorem State.copy_pend (a b n : Nat) : (s.copy a b n).pend = s.pend := id rfl
@[simp] theorem State.copy_ofs (a b n : Nat) : (s.copy a b n).ofs = s.ofs := id rfl
@[simp] theorem State.copy_freeN (a b n : Nat) : (s.copy a b n).freeN = s.freeN := id rfl
@[simp] theorem State.copy_traps (a b n : Nat) : (s.copy a b n).traps = s.traps := id rfl
@[simp] theorem State.copy_held (a b n : Nat) : (s.copy a b n).held = s.held := id rfl
@[simp] theorem State.copy_popped (a b n : Nat) : (s.copy a b n).popped = s.popped := id rfl
@[simp] theorem State.copy_csrTraps (a b n : Nat) : (s.copy a b n).csrTraps = s.csrTraps := id rfl
@[simp] theorem State.copy_resv (a b n : Nat) : (s.copy a b n).resv = s.resv := id rfl
@[simp] theorem State.copy_regg (a b n : Nat) : (s.copy a b n).regg = s.regg := id rfl
@[simp] theorem State.copy_recd (a b n : Nat) : (s.copy a b n).recd = s.recd := id rfl
@[simp] theorem State.copy_obs (a b n : Nat) : (s.copy a b n).obs = s.obs := id rfl
@[simp] theorem State.copy_tri (a b n : Nat) : (s.copy a b n).tri = s.tri := id rfl
@[simp] theorem State.copy_cyc (a b n : Nat) : (s.copy a b n).cyc = s.cyc := id rfl
@[simp] theorem State.copy_door (a b n : Nat) : (s.copy a b n).door = s.door := id rfl
@[simp] theorem State.copy_trip (a b n : Nat) : (s.copy a b n).trip = s.trip := id rfl
@[simp] theorem State.copy_safe (a b n : Nat) : (s.copy a b n).safe = s.safe := id rfl
@[simp] theorem State.copy_lanes (a b n : Nat) : (s.copy a b n).lanes = s.lanes := id rfl
@[simp] theorem State.copy_time (a b n : Nat) : (s.copy a b n).time = s.time := id rfl
@[simp] theorem State.copy_wire (a b n : Nat) : (s.copy a b n).wire = s.wire := id rfl
@[simp] theorem State.copy_ecn (a b n : Nat) : (s.copy a b n).ecn = s.ecn := id rfl
@[simp] theorem State.copy_gw (a b n : Nat) : (s.copy a b n).gw = s.gw := id rfl
@[simp] theorem State.copy_dio (a b n : Nat) : (s.copy a b n).dio = s.dio := id rfl
@[simp] theorem State.copy_loops (a b n : Nat) : (s.copy a b n).loops = s.loops := id rfl
@[simp] theorem State.copy_loopPrg (a b n : Nat) : (s.copy a b n).loopPrg = s.loopPrg := id rfl
@[simp] theorem State.copy_twin (a b n : Nat) : (s.copy a b n).twin = s.twin := id rfl
@[simp] theorem State.copy_brg (a b n : Nat) : (s.copy a b n).brg = s.brg := id rfl
@[simp] theorem State.copy_clk (a b n : Nat) : (s.copy a b n).clk = s.clk := id rfl
@[simp] theorem State.copy_pwr (a b n : Nat) : (s.copy a b n).pwr = s.pwr := id rfl
@[simp] theorem State.copy_nv (a b n : Nat) : (s.copy a b n).nv = s.nv := id rfl
@[simp] theorem State.copy_boot (a b n : Nat) : (s.copy a b n).boot = s.boot := id rfl

@[simp] theorem State.zero_pending (a n : Nat) : (s.zero a n).pending = s.pending := id rfl
@[simp] theorem State.zero_regs (a n : Nat) : (s.zero a n).regs = s.regs := id rfl
@[simp] theorem State.zero_pend (a n : Nat) : (s.zero a n).pend = s.pend := id rfl
@[simp] theorem State.zero_ofs (a n : Nat) : (s.zero a n).ofs = s.ofs := id rfl
@[simp] theorem State.zero_freeN (a n : Nat) : (s.zero a n).freeN = s.freeN := id rfl
@[simp] theorem State.zero_traps (a n : Nat) : (s.zero a n).traps = s.traps := id rfl
@[simp] theorem State.zero_held (a n : Nat) : (s.zero a n).held = s.held := id rfl
@[simp] theorem State.zero_popped (a n : Nat) : (s.zero a n).popped = s.popped := id rfl
@[simp] theorem State.zero_csrTraps (a n : Nat) : (s.zero a n).csrTraps = s.csrTraps := id rfl
@[simp] theorem State.zero_resv (a n : Nat) : (s.zero a n).resv = s.resv := id rfl
@[simp] theorem State.zero_regg (a n : Nat) : (s.zero a n).regg = s.regg := id rfl
@[simp] theorem State.zero_recd (a n : Nat) : (s.zero a n).recd = s.recd := id rfl
@[simp] theorem State.zero_obs (a n : Nat) : (s.zero a n).obs = s.obs := id rfl
@[simp] theorem State.zero_tri (a n : Nat) : (s.zero a n).tri = s.tri := id rfl
@[simp] theorem State.zero_cyc (a n : Nat) : (s.zero a n).cyc = s.cyc := id rfl
@[simp] theorem State.zero_door (a n : Nat) : (s.zero a n).door = s.door := id rfl
@[simp] theorem State.zero_trip (a n : Nat) : (s.zero a n).trip = s.trip := id rfl
@[simp] theorem State.zero_safe (a n : Nat) : (s.zero a n).safe = s.safe := id rfl
@[simp] theorem State.zero_lanes (a n : Nat) : (s.zero a n).lanes = s.lanes := id rfl
@[simp] theorem State.zero_time (a n : Nat) : (s.zero a n).time = s.time := id rfl
@[simp] theorem State.zero_wire (a n : Nat) : (s.zero a n).wire = s.wire := id rfl
@[simp] theorem State.zero_ecn (a n : Nat) : (s.zero a n).ecn = s.ecn := id rfl
@[simp] theorem State.zero_gw (a n : Nat) : (s.zero a n).gw = s.gw := id rfl
@[simp] theorem State.zero_dio (a n : Nat) : (s.zero a n).dio = s.dio := id rfl
@[simp] theorem State.zero_loops (a n : Nat) : (s.zero a n).loops = s.loops := id rfl
@[simp] theorem State.zero_loopPrg (a n : Nat) : (s.zero a n).loopPrg = s.loopPrg := id rfl
@[simp] theorem State.zero_twin (a n : Nat) : (s.zero a n).twin = s.twin := id rfl
@[simp] theorem State.zero_brg (a n : Nat) : (s.zero a n).brg = s.brg := id rfl
@[simp] theorem State.zero_clk (a n : Nat) : (s.zero a n).clk = s.clk := id rfl
@[simp] theorem State.zero_pwr (a n : Nat) : (s.zero a n).pwr = s.pwr := id rfl
@[simp] theorem State.zero_nv (a n : Nat) : (s.zero a n).nv = s.nv := id rfl
@[simp] theorem State.zero_boot (a n : Nat) : (s.zero a n).boot = s.boot := id rfl

@[simp] theorem State.resetRegs_pending (k : ResetKind) (r : Nat → Bool) : (s.resetRegs k r).pending = s.pending := id rfl
@[simp] theorem State.resetRegs_mem (k : ResetKind) (r : Nat → Bool) : (s.resetRegs k r).mem = s.mem := id rfl
@[simp] theorem State.resetRegs_ofs (k : ResetKind) (r : Nat → Bool) : (s.resetRegs k r).ofs = s.ofs := id rfl
@[simp] theorem State.resetRegs_freeN (k : ResetKind) (r : Nat → Bool) : (s.resetRegs k r).freeN = s.freeN := id rfl
@[simp] theorem State.resetRegs_traps (k : ResetKind) (r : Nat → Bool) : (s.resetRegs k r).traps = s.traps := id rfl
@[simp] theorem State.resetRegs_held (k : ResetKind) (r : Nat → Bool) : (s.resetRegs k r).held = s.held := id rfl
@[simp] theorem State.resetRegs_popped (k : ResetKind) (r : Nat → Bool) : (s.resetRegs k r).popped = s.popped := id rfl
@[simp] theorem State.resetRegs_csrTraps (k : ResetKind) (r : Nat → Bool) : (s.resetRegs k r).csrTraps = s.csrTraps := id rfl
@[simp] theorem State.resetRegs_resv (k : ResetKind) (r : Nat → Bool) : (s.resetRegs k r).resv = s.resv := id rfl
@[simp] theorem State.resetRegs_regg (k : ResetKind) (r : Nat → Bool) : (s.resetRegs k r).regg = s.regg := id rfl
@[simp] theorem State.resetRegs_recd (k : ResetKind) (r : Nat → Bool) : (s.resetRegs k r).recd = s.recd := id rfl
@[simp] theorem State.resetRegs_obs (k : ResetKind) (r : Nat → Bool) : (s.resetRegs k r).obs = s.obs := id rfl
@[simp] theorem State.resetRegs_tri (k : ResetKind) (r : Nat → Bool) : (s.resetRegs k r).tri = s.tri := id rfl
@[simp] theorem State.resetRegs_cyc (k : ResetKind) (r : Nat → Bool) : (s.resetRegs k r).cyc = s.cyc := id rfl
@[simp] theorem State.resetRegs_door (k : ResetKind) (r : Nat → Bool) : (s.resetRegs k r).door = s.door := id rfl
@[simp] theorem State.resetRegs_trip (k : ResetKind) (r : Nat → Bool) : (s.resetRegs k r).trip = s.trip := id rfl
@[simp] theorem State.resetRegs_safe (k : ResetKind) (r : Nat → Bool) : (s.resetRegs k r).safe = s.safe := id rfl
@[simp] theorem State.resetRegs_lanes (k : ResetKind) (r : Nat → Bool) : (s.resetRegs k r).lanes = s.lanes := id rfl
@[simp] theorem State.resetRegs_time (k : ResetKind) (r : Nat → Bool) : (s.resetRegs k r).time = s.time := id rfl
@[simp] theorem State.resetRegs_wire (k : ResetKind) (r : Nat → Bool) : (s.resetRegs k r).wire = s.wire := id rfl
@[simp] theorem State.resetRegs_ecn (k : ResetKind) (r : Nat → Bool) : (s.resetRegs k r).ecn = s.ecn := id rfl
@[simp] theorem State.resetRegs_gw (k : ResetKind) (r : Nat → Bool) : (s.resetRegs k r).gw = s.gw := id rfl
@[simp] theorem State.resetRegs_dio (k : ResetKind) (r : Nat → Bool) : (s.resetRegs k r).dio = s.dio := id rfl
@[simp] theorem State.resetRegs_loops (k : ResetKind) (r : Nat → Bool) : (s.resetRegs k r).loops = s.loops := id rfl
@[simp] theorem State.resetRegs_loopPrg (k : ResetKind) (r : Nat → Bool) : (s.resetRegs k r).loopPrg = s.loopPrg := id rfl
@[simp] theorem State.resetRegs_twin (k : ResetKind) (r : Nat → Bool) : (s.resetRegs k r).twin = s.twin := id rfl
@[simp] theorem State.resetRegs_brg (k : ResetKind) (r : Nat → Bool) : (s.resetRegs k r).brg = s.brg := id rfl
@[simp] theorem State.resetRegs_clk (k : ResetKind) (r : Nat → Bool) : (s.resetRegs k r).clk = s.clk := id rfl
@[simp] theorem State.resetRegs_pwr (k : ResetKind) (r : Nat → Bool) : (s.resetRegs k r).pwr = s.pwr := id rfl
@[simp] theorem State.resetRegs_nv (k : ResetKind) (r : Nat → Bool) : (s.resetRegs k r).nv = s.nv := id rfl
@[simp] theorem State.resetRegs_boot (k : ResetKind) (r : Nat → Bool) : (s.resetRegs k r).boot = s.boot := id rfl

@[simp] theorem State.showTime_pending : (s.showTime).pending = s.pending := by simp [State.showTime]
@[simp] theorem State.showTime_pend : (s.showTime).pend = s.pend := by simp [State.showTime]
@[simp] theorem State.showTime_mem : (s.showTime).mem = s.mem := by simp [State.showTime]
@[simp] theorem State.showTime_ofs : (s.showTime).ofs = s.ofs := by simp [State.showTime]
@[simp] theorem State.showTime_freeN : (s.showTime).freeN = s.freeN := by simp [State.showTime]
@[simp] theorem State.showTime_traps : (s.showTime).traps = s.traps := by simp [State.showTime]
@[simp] theorem State.showTime_held : (s.showTime).held = s.held := by simp [State.showTime]
@[simp] theorem State.showTime_popped : (s.showTime).popped = s.popped := by simp [State.showTime]
@[simp] theorem State.showTime_csrTraps : (s.showTime).csrTraps = s.csrTraps := by simp [State.showTime]
@[simp] theorem State.showTime_resv : (s.showTime).resv = s.resv := by simp [State.showTime]
@[simp] theorem State.showTime_regg : (s.showTime).regg = s.regg := by simp [State.showTime]
@[simp] theorem State.showTime_recd : (s.showTime).recd = s.recd := by simp [State.showTime]
@[simp] theorem State.showTime_obs : (s.showTime).obs = s.obs := by simp [State.showTime]
@[simp] theorem State.showTime_tri : (s.showTime).tri = s.tri := by simp [State.showTime]
@[simp] theorem State.showTime_cyc : (s.showTime).cyc = s.cyc := by simp [State.showTime]
@[simp] theorem State.showTime_door : (s.showTime).door = s.door := by simp [State.showTime]
@[simp] theorem State.showTime_trip : (s.showTime).trip = s.trip := by simp [State.showTime]
@[simp] theorem State.showTime_safe : (s.showTime).safe = s.safe := by simp [State.showTime]
@[simp] theorem State.showTime_lanes : (s.showTime).lanes = s.lanes := by simp [State.showTime]
@[simp] theorem State.showTime_time : (s.showTime).time = s.time := by simp [State.showTime]
@[simp] theorem State.showTime_wire : (s.showTime).wire = s.wire := by simp [State.showTime]
@[simp] theorem State.showTime_ecn : (s.showTime).ecn = s.ecn := by simp [State.showTime]
@[simp] theorem State.showTime_gw : (s.showTime).gw = s.gw := by simp [State.showTime]
@[simp] theorem State.showTime_dio : (s.showTime).dio = s.dio := by simp [State.showTime]
@[simp] theorem State.showTime_loops : (s.showTime).loops = s.loops := by simp [State.showTime]
@[simp] theorem State.showTime_loopPrg : (s.showTime).loopPrg = s.loopPrg := by simp [State.showTime]
@[simp] theorem State.showTime_twin : (s.showTime).twin = s.twin := by simp [State.showTime]
@[simp] theorem State.showTime_brg : (s.showTime).brg = s.brg := by simp [State.showTime]
@[simp] theorem State.showTime_clk : (s.showTime).clk = s.clk := by simp [State.showTime]
@[simp] theorem State.showTime_pwr : (s.showTime).pwr = s.pwr := by simp [State.showTime]
@[simp] theorem State.showTime_nv : (s.showTime).nv = s.nv := by simp [State.showTime]
@[simp] theorem State.showTime_boot : (s.showTime).boot = s.boot := by simp [State.showTime]



end Sys2Proof.Machine
end

