-- ==== Sys2Proof/Laws/Quiet.lean ====
section
/-! SUPPORT. Laws/Quiet.lean: what every operation leaves alone. `s.fixed` is the queue of waiting commands, every byte of memory,
the saved envelopes and the staging area. Most operations leave all of it as it is, and the files of Laws/ that follow say so,
operation by operation (`…_fixed`); the others keep the queue (`…_queue`) and the canonical form of every memory (`…_ok`). -/
namespace Sys2Proof.Machine

/-- The queue, memory, the saved envelopes and the staging area. -/
def State.fixed (s : State) : List Instr × List Host.Cell × Option EnvCopy × Option EnvCopy × List Host.Cell :=
  (s.pending, s.mem, s.nv.env0, s.nv.env1, s.nv.staging)

/-- The next state, where a meaning answers one, has these parts. -/
def Result.rests (k : List Instr × List Host.Cell × Option EnvCopy × Option EnvCopy × List Host.Cell) : Result → Prop
  | .next u => u.fixed = k
  | _ => True

/-- Memories in canonical form, of the fixed parts. -/
def FixedOk (k : List Instr × List Host.Cell × Option EnvCopy × Option EnvCopy × List Host.Cell) : Prop :=
  Mem.wf k.2.1 = true ∧ (∀ c, k.2.2.1 = some c → Mem.wf c.cells = true) ∧ (∀ c, k.2.2.2.1 = some c → Mem.wf c.cells = true)
    ∧ Mem.wf k.2.2.2.2 = true

/-- The next state, where a meaning answers one, has this queue and memories in canonical form. -/
def Result.keeps (q : List Instr) : Result → Prop
  | .next u => u.fixed.1 = q ∧ FixedOk u.fixed
  | _ => True

theorem State.fixed_eq {s u : State} (h : u.fixed = s.fixed) :
    u.pending = s.pending ∧ u.mem = s.mem ∧ u.nv.env0 = s.nv.env0 ∧ u.nv.env1 = s.nv.env1 ∧ u.nv.staging = s.nv.staging := by
  simpa [State.fixed] using h

theorem State.memOk_iff (s : State) : s.MemOk ↔ FixedOk s.fixed :=
  ⟨fun h => ⟨h.1, h.2, h.3, h.4⟩, fun h => ⟨h.1, h.2.1, h.2.2.1, h.2.2.2⟩⟩

/-- What leaves the fixed parts alone keeps memories in canonical form. -/
theorem State.MemOk.of_fixed {s u : State} (h : u.fixed = s.fixed) (w : s.MemOk) : u.MemOk := by
  rw [State.memOk_iff] at w ⊢
  rw [h]
  exact w

theorem State.pending_of_fixed {s u : State} (h : u.fixed = s.fixed) : u.pending = s.pending := (State.fixed_eq h).1

theorem State.mem_of_fixed {s u : State} (h : u.fixed = s.fixed) : u.mem = s.mem := (State.fixed_eq h).2.1

/-! ### Rules for the shapes of a meaning -/

@[simp ↓] theorem State.fixed_update (s : State)
    {regs pend ofs freeN traps held popped csrTraps resv regg recd obs tri cyc door trip safe lanes time wire ecn gw dio loops loopPrg twin brg
      clk pwr boot} :
    State.fixed ⟨s.pending, regs, pend, s.mem, ofs, freeN, traps, held, popped, csrTraps, resv, regg, recd, obs, tri, cyc, door, trip, safe, lanes,
      time, wire, ecn, gw, dio, loops, loopPrg, twin, brg, clk, pwr, s.nv, boot⟩ = s.fixed := id rfl

@[simp ↓] theorem State.fixed_updateNv (s : State) {t0 t1 : SlotTable} {im : SMap (List Byte)} {rh sh : List (BitVec 384)} {ts : Nat} {bl : Bool}
    {regs pend ofs freeN traps held popped csrTraps resv regg recd obs tri cyc door trip safe lanes time wire ecn gw dio loops loopPrg twin brg
      clk pwr boot} :
    State.fixed ⟨s.pending, regs, pend, s.mem, ofs, freeN, traps, held, popped, csrTraps, resv, regg, recd, obs, tri, cyc, door, trip, safe, lanes,
      time, wire, ecn, gw, dio, loops, loopPrg, twin, brg, clk, pwr, ⟨t0, t1, s.nv.env0, s.nv.env1, s.nv.staging, im, rh, sh, ts, bl⟩, boot⟩
      = s.fixed := id rfl

@[simp ↓] theorem State.fixed_ite (c : Prop) [Decidable c] (a b : State) :
    (if c then a else b).fixed = if c then a.fixed else b.fixed := apply_ite _ _ _ _

@[simp ↓] theorem Result.rests_next (k) (u : State) : Result.rests k (.next u) ↔ u.fixed = k := Iff.rfl
@[simp ↓] theorem Result.rests_fault (k) (r : Fault) : Result.rests k (.fault r) ↔ True := Iff.rfl
@[simp ↓] theorem Result.rests_ite (k) (c : Prop) [Decidable c] (a b : Result) :
    Result.rests k (if c then a else b) ↔ if c then Result.rests k a else Result.rests k b := by split <;> rfl
@[simp ↓] theorem Result.keeps_next (q) (u : State) : Result.keeps q (.next u) ↔ u.fixed.1 = q ∧ FixedOk u.fixed := Iff.rfl
@[simp ↓] theorem Result.keeps_fault (q) (r : Fault) : Result.keeps q (.fault r) ↔ True := Iff.rfl

@[simp ↓] theorem Result.keeps_ite (q) (c : Prop) [Decidable c] (a b : Result) :
    Result.keeps q (if c then a else b) ↔ if c then Result.keeps q a else Result.keeps q b := by split <;> rfl

theorem Result.rests.keeps {q} {s : State} {r : Result} (h : Result.rests s.fixed r) (hq : s.fixed.1 = q) (w : FixedOk s.fixed) :
    Result.keeps q r := by
  subst hq
  cases r with
  | next u => exact ⟨State.pending_of_fixed h, (show u.fixed = s.fixed from h) ▸ w⟩
  | _ => trivial

theorem FixedOk.foldl {α : Type} (l : List α) (f : State → α → State) (h : ∀ s x, FixedOk s.fixed → FixedOk (f s x).fixed)
    (s : State) (w : FixedOk s.fixed) : FixedOk (l.foldl f s).fixed := by
  induction l generalizing s with
  | nil => exact w
  | cons x t ih => exact ih _ (h _ _ w)

theorem State.queue_foldl {α : Type} (l : List α) (f : State → α → State) (h : ∀ s x, (f s x).fixed.1 = s.fixed.1) (s : State) :
    (l.foldl f s).fixed.1 = s.fixed.1 := by
  induction l generalizing s with
  | nil => rfl
  | cons x t ih => rw [List.foldl_cons, ih, h]

@[simp ↓] theorem State.queue_ite {α β : Type} (c : Prop) [Decidable c] (a b : α × β) :
    (if c then a else b).1 = if c then a.1 else b.1 := apply_ite _ _ _ _

@[simp ↓] theorem FixedOk_ite (c : Prop) [Decidable c] (a b) : FixedOk (if c then a else b) ↔ if c then FixedOk a else FixedOk b := by
  split <;> rfl

theorem FixedOk.ite {c : Prop} [Decidable c] {a b : State} (ha : FixedOk a.fixed) (hb : FixedOk b.fixed) :
    FixedOk (if c then a else b).fixed := by split <;> assumption

theorem State.fixed_foldl {α : Type} (l : List α) (f : State → α → State) (h : ∀ s x, (f s x).fixed = s.fixed) (s : State) :
    (l.foldl f s).fixed = s.fixed := by
  induction l generalizing s with
  | nil => rfl
  | cons x t ih => rw [List.foldl_cons, ih, h]

/-- A property that every round of a fold keeps holds of its result. -/
theorem foldl_keeps {α β : Type} (P : β → Prop) (l : List α) (f : β → α → β) (h : ∀ b a, P b → P (f b a)) (b : β) (hb : P b) :
    P (l.foldl f b) := by
  induction l generalizing b with
  | nil => exact hb
  | cons x t ih => exact ih _ (h _ _ hb)

/-! ### The operations of Machine/Ops.lean -/

@[simp ↓] theorem State.setWord_fixed (s : State) (a : Nat) (v : Word) : (s.setWord a v).fixed = s.fixed := id rfl
@[simp ↓] theorem State.setPend_fixed (s : State) (a : Nat) (v : Word) : (s.setPend a v).fixed = s.fixed := id rfl
@[simp ↓] theorem State.put_fixed (s : State) (f : Fld) (v : Nat) : (s.put f v).fixed = s.fixed := by simp [State.fixed]
@[simp ↓] theorem State.putIf_fixed (s : State) (f : Fld) (v : Nat) : (s.putIf f v).fixed = s.fixed := by simp [State.fixed]
@[simp ↓] theorem State.putFlag_fixed (s : State) (f : Fld) (b : Bool) : (s.putFlag f b).fixed = s.fixed := by simp [State.fixed]
@[simp ↓] theorem State.add_fixed (s : State) (f : Fld) (n : Nat) : (s.add f n).fixed = s.fixed := by simp [State.fixed]
@[simp ↓] theorem State.inc_fixed (s : State) (f : Fld) : (s.inc f).fixed = s.fixed := by simp [State.fixed]
@[simp ↓] theorem State.addSat_fixed (s : State) (f : Fld) (n : Nat) : (s.addSat f n).fixed = s.fixed := by simp [State.fixed]
@[simp ↓] theorem State.putS_fixed (s : State) (f : Fld) (v : Int) : (s.putS f v).fixed = s.fixed := by simp [State.fixed]
@[simp ↓] theorem State.putBit_fixed (s : State) (f : Fld) (i : Nat) (b : Bool) : (s.putBit f i b).fixed = s.fixed := by
  simp [State.fixed]
@[simp ↓] theorem State.resetRegs_fixed (s : State) (k : ResetKind) (r : Nat → Bool) : (s.resetRegs k r).fixed = s.fixed := id rfl
@[simp ↓] theorem State.stampEvent_fixed (s : State) (k : Nat) : (s.stampEvent k).fixed = s.fixed := id rfl
@[simp ↓] theorem State.showTime_fixed (s : State) : s.showTime.fixed = s.fixed := by simp [State.fixed]

@[simp ↓] theorem State.svcReply_fixed (s : State) (com : Nat) (vals : List Nat) : (s.svcReply com vals).fixed = s.fixed := id rfl
@[simp ↓] theorem State.endSession_fixed (s : State) : s.endSession.fixed = s.fixed := id rfl
@[simp ↓] theorem State.graftReply_fixed (s : State) (res : Nat) : (s.graftReply res).fixed = s.fixed := by
  unfold State.graftReply
  split <;> simp

@[simp ↓] theorem State.storeBytes_queue (s : State) (a : Nat) (bs : List Byte) : (s.storeBytes a bs).fixed.1 = s.fixed.1 := id rfl
@[simp ↓] theorem State.store_queue (s : State) (a n v : Nat) : (s.store a n v).fixed.1 = s.fixed.1 := id rfl
@[simp ↓] theorem State.copy_queue (s : State) (a b n : Nat) : (s.copy a b n).fixed.1 = s.fixed.1 := id rfl
@[simp ↓] theorem State.zero_queue (s : State) (a n : Nat) : (s.zero a n).fixed.1 = s.fixed.1 := id rfl
@[simp ↓] theorem State.storeBytes_ok {s : State} (w : FixedOk s.fixed) (a : Nat) (bs : List Byte) :
    FixedOk (s.storeBytes a bs).fixed := ⟨Mem.wf_writeBytes a bs w.1, w.2⟩
@[simp ↓] theorem State.store_ok {s : State} (w : FixedOk s.fixed) (a n v : Nat) : FixedOk (s.store a n v).fixed :=
  State.storeBytes_ok w a _
@[simp ↓] theorem State.copy_ok {s : State} (w : FixedOk s.fixed) (a b n : Nat) : FixedOk (s.copy a b n).fixed :=
  ⟨Mem.wf_copy a b n w.1, w.2⟩
@[simp ↓] theorem State.zero_ok {s : State} (w : FixedOk s.fixed) (a n : Nat) : FixedOk (s.zero a n).fixed :=
  ⟨Mem.wf_zero a n w.1, w.2⟩

end Sys2Proof.Machine
end

