-- ==== Sys2Proof/Laws/Trace.lean ====
section
/-! SUPPORT. Laws/Trace.lean: what the operations of Machine/Trace.lean leave alone. -/
set_option linter.all false
namespace Sys2Proof.Machine

@[simp ↓] theorem State.pushPacket_fixed (s : State) (typ : Nat) (payload : List Byte) : (s.pushPacket typ payload).fixed = s.fixed := by
  unfold State.pushPacket
  repeat' (first | (extract_lets +onlyGivenNames x; (try (have hx : x.fixed = s.fixed := by (simp only [x]; (repeat' split) <;> simp [*, State.fixed_foldl]))); try clear_value x) | (split) | (simp [*, State.fixed_foldl]; done))

@[simp ↓] theorem State.queuePacket_fixed (s : State) (typ : Nat) (payload : List Byte) : (s.queuePacket typ payload).fixed = s.fixed := by
  unfold State.queuePacket
  repeat' (first | (extract_lets +onlyGivenNames x; (try (have hx : x.fixed = s.fixed := by (simp only [x]; (repeat' split) <;> simp [*, State.fixed_foldl]))); try clear_value x) | (split) | (simp [*, State.fixed_foldl]; done))

@[simp ↓] theorem State.trace_fixed (s : State) (typ : Nat) (payload : List Byte) : (s.trace typ payload).fixed = s.fixed := by
  simp [State.trace, State.fixed_foldl]

@[simp ↓] theorem State.traceCycle_fixed (s : State) (cycle : Nat) (kind : Nat) (event : Nat) : (s.traceCycle cycle kind event).fixed = s.fixed := by
  simp [State.traceCycle, State.fixed_foldl]

@[simp ↓] theorem State.traceOff_fixed (s : State) : (s.traceOff).fixed = s.fixed := by
  simp [State.traceOff, State.fixed_foldl]

@[simp ↓] theorem State.hist_fixed (s : State) (bins : Nat → Fld) (k : Nat) : (s.hist bins k).fixed = s.fixed := by
  simp [State.hist, State.fixed_foldl]

@[simp ↓] theorem execTracePacketSent_rests {fx} (s : State) (h : s.fixed = fx) : Result.rests fx (execTracePacketSent s) := by
  subst h
  unfold execTracePacketSent
  repeat' (first | (extract_lets +onlyGivenNames x; (try (have hx : x.fixed = s.fixed := by (simp only [x]; (repeat' split) <;> simp [*, State.fixed_foldl]))); try clear_value x) | (split) | (simp [*, State.fixed_foldl]; done))

end Sys2Proof.Machine
end

