-- ==== Sys2Proof/Laws/Records.lean ====
section
/-! SUPPORT. Laws/Records.lean: what the operations of Machine/Records.lean leave alone. -/
set_option linter.all false
namespace Sys2Proof.Machine

@[simp ↓] theorem State.startCapture_fixed (s : State) : (s.startCapture).fixed = s.fixed := by
  unfold State.startCapture
  repeat' (first | (extract_lets +onlyGivenNames x; (try (have hx : x.fixed = s.fixed := by (simp only [x]; (repeat' split) <;> simp [*, State.fixed_foldl]))); try clear_value x) | (split) | (simp [*, State.fixed_foldl]; done) | (refine (State.fixed_foldl _ _ ?_ _).trans ?_) | (refine congrArg Prod.fst ((State.fixed_foldl _ _ ?_ _).trans ?_)) | (refine (State.queue_foldl _ _ ?_ _).trans ?_) | (intro s x) | simp [*])

@[simp ↓] theorem State.fireTrigger_fixed (s : State) (k : Nat) (kind : Nat) (source : Nat) : (s.fireTrigger k kind source).fixed = s.fixed := by
  unfold State.fireTrigger
  repeat' (first | (extract_lets +onlyGivenNames x; (try (have hx : x.fixed = s.fixed := by (simp only [x]; (repeat' split) <;> simp [*, State.fixed_foldl]))); try clear_value x) | (split) | (simp [*, State.fixed_foldl]; done))

@[simp ↓] theorem State.recordTriggers_fixed (s : State) (typ : Nat) (code : Nat) (seq : Nat) : (s.recordTriggers typ code seq).fixed = s.fixed := by
  simp [State.recordTriggers, State.fixed_foldl]

@[simp ↓] theorem State.handOver_fixed (s : State) (q : QRec) : (s.handOver q).fixed = s.fixed := by
  unfold State.handOver
  repeat' (first | (extract_lets +onlyGivenNames x; (try (have hx : x.fixed = s.fixed := by (simp only [x]; (repeat' split) <;> simp [*, State.fixed_foldl]))); try clear_value x) | (split) | (simp [*, State.fixed_foldl]; done))

@[simp ↓] theorem State.record_fixed (s : State) (typ : Nat) (code : Nat) (data : List Byte) : (s.record typ code data).fixed = s.fixed := by
  simp [State.record, State.fixed_foldl]

@[simp ↓] theorem State.recordMode_fixed (s : State) (old : Nat) : (s.recordMode old).fixed = s.fixed := by
  simp [State.recordMode, State.fixed_foldl]

@[simp ↓] theorem State.recordCycle_fixed (s : State) (code : Nat) (cycle : Nat) : (s.recordCycle code cycle).fixed = s.fixed := by
  simp [State.recordCycle, State.fixed_foldl]

@[simp ↓] theorem State.recordClock_fixed (s : State) (code : Nat) : (s.recordClock code).fixed = s.fixed := by
  simp [State.recordClock, State.fixed_foldl]

@[simp ↓] theorem State.recordChannel_fixed (s : State) (code : Nat) (ch : Nat) (cause : Nat) (val : Nat) : (s.recordChannel code ch cause val).fixed = s.fixed := by
  simp [State.recordChannel, State.fixed_foldl]

@[simp ↓] theorem State.recordTrip_fixed (s : State) (code : Nat) (fn : Nat) (cause : Nat) (token : Nat) : (s.recordTrip code fn cause token).fixed = s.fixed := by
  simp [State.recordTrip, State.fixed_foldl]

@[simp ↓] theorem State.recordTwin_fixed (s : State) (code : Nat) : (s.recordTwin code).fixed = s.fixed := by
  simp [State.recordTwin, State.fixed_foldl]

@[simp ↓] theorem State.recordForce_fixed (s : State) (code : Nat) (n : Nat) (token : Nat) : (s.recordForce code n token).fixed = s.fixed := by
  simp [State.recordForce, State.fixed_foldl]

@[simp ↓] theorem State.recordImage_fixed (s : State) (code : Nat) (slot : Nat) (refusal : Nat) (imgId : Nat) : (s.recordImage code slot refusal imgId).fixed = s.fixed := by
  simp [State.recordImage, State.fixed_foldl]

end Sys2Proof.Machine
end

