-- ==== Sys2Proof/Laws/Image.lean ====
section
/-! SUPPORT. Laws/Image.lean: what the operations of Machine/Image.lean leave alone. -/
set_option linter.all false
namespace Sys2Proof.Machine

@[simp ↓] theorem State.showCores_fixed (s : State) : (s.showCores).fixed = s.fixed := by
  unfold State.showCores
  repeat' (first | (extract_lets +onlyGivenNames x; (try (have hx : x.fixed = s.fixed := by (simp only [x]; (repeat' split) <;> simp [*, State.fixed_foldl]))); try clear_value x) | (split) | (simp [*, State.fixed_foldl]; done))

@[simp ↓] theorem State.setCore_fixed (s : State) (n : Nat) (c : TriCore) : (s.setCore n c).fixed = s.fixed := by
  simp [State.setCore, State.fixed_foldl]

@[simp ↓] theorem State.graceByReset_fixed (s : State) : (s.graceByReset).fixed = s.fixed := by
  simp [State.graceByReset, State.fixed_foldl]

@[simp ↓] theorem State.fold_fixed (s : State) (n : Nat) (typ : Nat) (size : Nat) (addr : Nat) (data : Nat) : (s.fold n typ size addr data).fixed = s.fixed := by
  unfold State.fold
  repeat' (first | (extract_lets +onlyGivenNames x; (try (have hx : x.fixed = s.fixed := by (simp only [x]; (repeat' split) <;> simp [*, State.fixed_foldl]))); try clear_value x) | (split) | (simp [*, State.fixed_foldl]; done))

@[simp ↓] theorem State.lateFold_fixed (s : State) (n : Nat) : (s.lateFold n).fixed = s.fixed := by
  unfold State.lateFold
  repeat' (first | (extract_lets +onlyGivenNames x; (try (have hx : x.fixed = s.fixed := by (simp only [x]; (repeat' split) <;> simp [*, State.fixed_foldl]))); try clear_value x) | (split) | (simp [*, State.fixed_foldl]; done))

@[simp ↓] theorem State.coreFault_fixed (s : State) (n : Nat) : (s.coreFault n).fixed = s.fixed := by
  unfold State.coreFault
  repeat' (first | (extract_lets +onlyGivenNames x; (try (have hx : x.fixed = s.fixed := by (simp only [x]; (repeat' split) <;> simp [*, State.fixed_foldl]))); try clear_value x) | (split) | (simp [*, State.fixed_foldl]; done))

@[simp ↓] theorem State.noteTrap_fixed (s : State) (who : Initiator) (store : Bool) (addr : Nat) : (s.noteTrap who store addr).fixed = s.fixed := by
  simp [State.noteTrap, State.fixed_foldl]

@[simp ↓] theorem State.coreTrap_fixed (s : State) (n : Nat) (store : Bool) (addr : Nat) : (s.coreTrap n store addr).fixed = s.fixed := by
  simp [State.coreTrap, State.fixed_foldl]

@[simp ↓] theorem State.trap_fixed (s : State) (who : Initiator) (store : Bool) (addr : Nat) : (s.trap who store addr).fixed = s.fixed := by
  simp [State.trap, State.fixed_foldl]

@[simp ↓] theorem State.exclude_fixed (s : State) (n : Nat) (cause : Nat) : (s.exclude n cause).fixed = s.fixed := by
  unfold State.exclude
  repeat' (first | (extract_lets +onlyGivenNames x; (try (have hx : x.fixed = s.fixed := by (simp only [x]; (repeat' split) <;> simp [*, State.fixed_foldl]))); try clear_value x) | (split) | (simp [*, State.fixed_foldl]; done))

@[simp ↓] theorem State.imageStore_queue (s : State) (n : Nat) (off : Nat) (size : Nat) (v : Nat) : (s.imageStore n off size v).fixed.1 = s.fixed.1 := by
  simp [State.imageStore, State.fixed_foldl, State.queue_foldl]

@[simp ↓] theorem State.imageStore_ok {s : State} (hw : FixedOk s.fixed) (n : Nat) (off : Nat) (size : Nat) (v : Nat) : FixedOk (s.imageStore n off size v).fixed := by
  unfold State.imageStore
  repeat' (first | (extract_lets +onlyGivenNames x; (try (have hx : FixedOk x.fixed := by (simp only [x]; repeat' (first | with_reducible assumption | (intro s x hw) | with_reducible apply FixedOk.foldl | with_reducible apply State.store_ok | split | (simp [*, State.fixed_foldl, State.queue_foldl]; done) | split | simp only [State.fixed_foldl, State.fixed_update] | with_reducible refine (Result.keeps_next _ _).2 ⟨?_, ?_⟩)))); (try (have hq : x.fixed.1 = s.fixed.1 := by (simp only [x]; (repeat' split) <;> simp [*, State.fixed_foldl, State.queue_foldl]))); try clear_value x) | with_reducible assumption | (intro s x hw) | with_reducible apply FixedOk.foldl | with_reducible apply State.store_ok | (split) | (simp [*, State.fixed_foldl, State.queue_foldl]; done) | split | simp only [State.fixed_foldl, State.fixed_update] | with_reducible refine (Result.keeps_next _ _).2 ⟨?_, ?_⟩)

@[simp ↓] theorem State.liveStore_queue (s : State) (off : Nat) (bs : List Byte) : (s.liveStore off bs).fixed.1 = s.fixed.1 := by
  simp [State.liveStore, State.fixed_foldl, State.queue_foldl]

@[simp ↓] theorem State.liveStore_ok {s : State} (hw : FixedOk s.fixed) (off : Nat) (bs : List Byte) : FixedOk (s.liveStore off bs).fixed := by
  unfold State.liveStore
  repeat' (first | (extract_lets +onlyGivenNames x; (try (have hx : FixedOk x.fixed := by (simp only [x]; repeat' (first | with_reducible assumption | (intro s x hw) | with_reducible apply FixedOk.foldl | with_reducible apply State.storeBytes_ok | split | (simp [*, State.fixed_foldl, State.queue_foldl]; done) | split | simp only [State.fixed_foldl, State.fixed_update] | with_reducible refine (Result.keeps_next _ _).2 ⟨?_, ?_⟩)))); (try (have hq : x.fixed.1 = s.fixed.1 := by (simp only [x]; (repeat' split) <;> simp [*, State.fixed_foldl, State.queue_foldl]))); try clear_value x) | with_reducible assumption | (intro s x hw) | with_reducible apply FixedOk.foldl | with_reducible apply State.storeBytes_ok | (split) | (simp [*, State.fixed_foldl, State.queue_foldl]; done) | split | simp only [State.fixed_foldl, State.fixed_update] | with_reducible refine (Result.keeps_next _ _).2 ⟨?_, ?_⟩)

@[simp ↓] theorem State.arriveWord_queue (s : State) (w : Nat) (v : Nat) : (s.arriveWord w v).fixed.1 = s.fixed.1 := by
  unfold State.arriveWord
  repeat' (first | (extract_lets +onlyGivenNames x; (try (have hx : x.fixed.1 = s.fixed.1 := by (simp only [x]; (repeat' split) <;> simp [*, State.fixed_foldl, State.queue_foldl]))); try clear_value x) | (split) | (simp [*, State.fixed_foldl, State.queue_foldl]; done))

@[simp ↓] theorem State.arriveWord_ok {s : State} (hw : FixedOk s.fixed) (w : Nat) (v : Nat) : FixedOk (s.arriveWord w v).fixed := by
  unfold State.arriveWord
  repeat' (first | (extract_lets +onlyGivenNames x; (try (have hx : FixedOk x.fixed := by (simp only [x]; repeat' (first | with_reducible assumption | (intro s x hw) | with_reducible apply FixedOk.foldl | with_reducible apply State.liveStore_ok | split | (simp [*, State.fixed_foldl, State.queue_foldl]; done) | split | simp only [State.fixed_foldl, State.fixed_update] | with_reducible refine (Result.keeps_next _ _).2 ⟨?_, ?_⟩)))); (try (have hq : x.fixed.1 = s.fixed.1 := by (simp only [x]; (repeat' split) <;> simp [*, State.fixed_foldl, State.queue_foldl]))); try clear_value x) | with_reducible assumption | (intro s x hw) | with_reducible apply FixedOk.foldl | with_reducible apply State.liveStore_ok | (split) | (simp [*, State.fixed_foldl, State.queue_foldl]; done) | split | simp only [State.fixed_foldl, State.fixed_update] | with_reducible refine (Result.keeps_next _ _).2 ⟨?_, ?_⟩)

@[simp ↓] theorem State.liveWrite_queue (s : State) (off : Nat) (bs : List Byte) : (s.liveWrite off bs).fixed.1 = s.fixed.1 := by
  simp [State.liveWrite, State.queue_foldl]

@[simp ↓] theorem State.liveWrite_ok {s : State} (hw : FixedOk s.fixed) (off : Nat) (bs : List Byte) :
    FixedOk (s.liveWrite off bs).fixed := by
  unfold State.liveWrite
  split
  · exact State.liveStore_ok hw _ _
  · extract_lets w0 nw
    apply FixedOk.foldl
    · intro s x hw
      exact State.arriveWord_ok hw _ _
    · exact hw

@[simp ↓] theorem State.showForced_fixed (s : State) : (s.showForced).fixed = s.fixed := by
  unfold State.showForced
  repeat' (first | (extract_lets +onlyGivenNames x; (try (have hx : x.fixed = s.fixed := by (simp only [x]; (repeat' split) <;> simp [*, State.fixed_foldl]))); try clear_value x) | (split) | (simp [*, State.fixed_foldl]; done))

@[simp ↓] theorem State.bindForce_queue (s : State) (n : Nat) : (s.bindForce n).fixed.1 = s.fixed.1 := by
  unfold State.bindForce
  repeat' (first | (extract_lets +onlyGivenNames x; (try (have hx : x.fixed.1 = s.fixed.1 := by (simp only [x]; (repeat' split) <;> simp [*, State.fixed_foldl, State.queue_foldl]))); try clear_value x) | (split) | (simp [*, State.fixed_foldl, State.queue_foldl]; done))

@[simp ↓] theorem State.bindForce_ok {s : State} (hw : FixedOk s.fixed) (n : Nat) : FixedOk (s.bindForce n).fixed := by
  unfold State.bindForce
  repeat' (first | (extract_lets +onlyGivenNames x; (try (have hx : FixedOk x.fixed := by (simp only [x]; repeat' (first | with_reducible assumption | (intro s x hw) | with_reducible apply FixedOk.foldl | with_reducible apply State.liveStore_ok | split | (simp [*, State.fixed_foldl, State.queue_foldl]; done) | split | simp only [State.fixed_foldl, State.fixed_update] | with_reducible refine (Result.keeps_next _ _).2 ⟨?_, ?_⟩)))); (try (have hq : x.fixed.1 = s.fixed.1 := by (simp only [x]; (repeat' split) <;> simp [*, State.fixed_foldl, State.queue_foldl]))); try clear_value x) | with_reducible assumption | (intro s x hw) | with_reducible apply FixedOk.foldl | with_reducible apply State.liveStore_ok | (split) | (simp [*, State.fixed_foldl, State.queue_foldl]; done) | split | simp only [State.fixed_foldl, State.fixed_update] | with_reducible refine (Result.keeps_next _ _).2 ⟨?_, ?_⟩)

@[simp ↓] theorem State.releaseForce_queue (s : State) (n : Nat) : (s.releaseForce n).fixed.1 = s.fixed.1 := by
  unfold State.releaseForce
  repeat' (first | (extract_lets +onlyGivenNames x; (try (have hx : x.fixed.1 = s.fixed.1 := by (simp only [x]; (repeat' split) <;> simp [*, State.fixed_foldl, State.queue_foldl]))); try clear_value x) | (split) | (simp [*, State.fixed_foldl, State.queue_foldl]; done))

@[simp ↓] theorem State.releaseForce_ok {s : State} (hw : FixedOk s.fixed) (n : Nat) : FixedOk (s.releaseForce n).fixed := by
  unfold State.releaseForce
  repeat' (first | (extract_lets +onlyGivenNames x; (try (have hx : FixedOk x.fixed := by (simp only [x]; repeat' (first | with_reducible assumption | (intro s x hw) | with_reducible apply FixedOk.foldl | with_reducible apply State.liveStore_ok | split | (simp [*, State.fixed_foldl, State.queue_foldl]; done) | split | simp only [State.fixed_foldl, State.fixed_update] | with_reducible refine (Result.keeps_next _ _).2 ⟨?_, ?_⟩)))); (try (have hq : x.fixed.1 = s.fixed.1 := by (simp only [x]; (repeat' split) <;> simp [*, State.fixed_foldl, State.queue_foldl]))); try clear_value x) | with_reducible assumption | (intro s x hw) | with_reducible apply FixedOk.foldl | with_reducible apply State.liveStore_ok | (split) | (simp [*, State.fixed_foldl, State.queue_foldl]; done) | split | simp only [State.fixed_foldl, State.fixed_update] | with_reducible refine (Result.keeps_next _ _).2 ⟨?_, ?_⟩)

@[simp ↓] theorem State.dropForce_queue (s : State) (n : Nat) (token : Nat) : (s.dropForce n token).fixed.1 = s.fixed.1 := by
  simp [State.dropForce, State.fixed_foldl, State.queue_foldl]

@[simp ↓] theorem State.dropForce_ok {s : State} (hw : FixedOk s.fixed) (n : Nat) (token : Nat) : FixedOk (s.dropForce n token).fixed := by
  unfold State.dropForce
  repeat' (first | (extract_lets +onlyGivenNames x; (try (have hx : FixedOk x.fixed := by (simp only [x]; repeat' (first | with_reducible assumption | (intro s x hw) | with_reducible apply FixedOk.foldl | with_reducible apply State.releaseForce_ok | split | (simp [*, State.fixed_foldl, State.queue_foldl]; done) | split | simp only [State.fixed_foldl, State.fixed_update] | with_reducible refine (Result.keeps_next _ _).2 ⟨?_, ?_⟩)))); (try (have hq : x.fixed.1 = s.fixed.1 := by (simp only [x]; (repeat' split) <;> simp [*, State.fixed_foldl, State.queue_foldl]))); try clear_value x) | with_reducible assumption | (intro s x hw) | with_reducible apply FixedOk.foldl | with_reducible apply State.releaseForce_ok | (split) | (simp [*, State.fixed_foldl, State.queue_foldl]; done) | split | simp only [State.fixed_foldl, State.fixed_update] | with_reducible refine (Result.keeps_next _ _).2 ⟨?_, ?_⟩)

@[simp ↓] theorem State.dropForces_queue (s : State) : (s.dropForces).fixed.1 = s.fixed.1 := by
  unfold State.dropForces
  repeat' (first | (extract_lets +onlyGivenNames x; (try (have hx : x.fixed.1 = s.fixed.1 := by (simp only [x]; (repeat' split) <;> simp [*, State.fixed_foldl, State.queue_foldl]))); try clear_value x) | (split) | (simp [*, State.fixed_foldl, State.queue_foldl]; done))

@[simp ↓] theorem State.dropForces_ok {s : State} (hw : FixedOk s.fixed) : FixedOk (s.dropForces).fixed := by
  unfold State.dropForces
  repeat' (first | (extract_lets +onlyGivenNames x; (try (have hx : FixedOk x.fixed := by (simp only [x]; repeat' (first | with_reducible assumption | (intro s x hw) | with_reducible apply FixedOk.foldl | with_reducible apply State.dropForce_ok | split | (simp [*, State.fixed_foldl, State.queue_foldl]; done) | split | simp only [State.fixed_foldl, State.fixed_update] | with_reducible refine (Result.keeps_next _ _).2 ⟨?_, ?_⟩)))); (try (have hq : x.fixed.1 = s.fixed.1 := by (simp only [x]; (repeat' split) <;> simp [*, State.fixed_foldl, State.queue_foldl]))); try clear_value x) | with_reducible assumption | (intro s x hw) | with_reducible apply FixedOk.foldl | with_reducible apply State.dropForce_ok | (split) | (simp [*, State.fixed_foldl, State.queue_foldl]; done) | split | simp only [State.fixed_foldl, State.fixed_update] | with_reducible refine (Result.keeps_next _ _).2 ⟨?_, ?_⟩)

end Sys2Proof.Machine
end

