-- ==== Sys2Proof/Laws/RegGuard.lean ====
section
/-! SUPPORT. Laws/RegGuard.lean: what the operations of Machine/RegGuard.lean leave alone. -/
set_option linter.all false
namespace Sys2Proof.Machine

@[simp ↓] theorem State.dropUnlock_fixed (s : State) (who : Initiator) : (s.dropUnlock who).fixed = s.fixed := by
  simp [State.dropUnlock, State.fixed_foldl]

@[simp ↓] theorem State.consume_fixed (s : State) (who : Initiator) (b : Nat) : (s.consume who b).fixed = s.fixed := by
  simp [State.consume, State.fixed_foldl]

@[simp ↓] theorem State.gate_fixed (s : State) (who : Initiator) (addr : Nat) (guarded right : Bool) :
    (s.gate who addr guarded right).1.fixed = s.fixed := by
  unfold State.gate
  extract_lets b
  repeat' split
  all_goals simp

theorem State.gate_of {s u : State} {who : Initiator} {addr : Nat} {guarded right b : Bool}
    (e : s.gate who addr guarded right = (u, b)) : u.fixed = s.fixed := by
  have h := State.gate_fixed s who addr guarded right
  rw [e] at h
  exact h

@[simp ↓] theorem execReggUnlock_rests {fx} (s : State) (who : Initiator) (key : BitVec 16) (block : BitVec 5) (h : s.fixed = fx) : Result.rests fx (execReggUnlock who key block s) := by
  subst h
  unfold execReggUnlock
  repeat' (first | (extract_lets +onlyGivenNames x; (try (have hx : x.fixed = s.fixed := by (simp only [x]; (repeat' split) <;> simp [*, State.fixed_foldl]))); try clear_value x) | (split) | (simp [*, State.fixed_foldl]; done))

@[simp ↓] theorem execUnlockExpiry_rests {fx} (s : State) (who : Initiator) (h : s.fixed = fx) : Result.rests fx (execUnlockExpiry who s) := by
  subst h
  unfold execUnlockExpiry
  repeat' (first | (extract_lets +onlyGivenNames x; (try (have hx : x.fixed = s.fixed := by (simp only [x]; (repeat' split) <;> simp [*, State.fixed_foldl]))); try clear_value x) | (split) | (simp [*, State.fixed_foldl]; done) | (refine (State.fixed_foldl _ _ ?_ _).trans ?_) | (refine congrArg Prod.fst ((State.fixed_foldl _ _ ?_ _).trans ?_)) | (refine (State.queue_foldl _ _ ?_ _).trans ?_) | (intro s x) | simp [*])

@[simp ↓] theorem execReggStrobe_rests {fx} (s : State) (who : Initiator) (groups : BitVec 16) (h : s.fixed = fx) : Result.rests fx (execReggStrobe who groups s) := by
  subst h
  unfold execReggStrobe
  repeat' (first | (extract_lets +onlyGivenNames x; (try (have hx : x.fixed = s.fixed := by (simp only [x]; (repeat' split) <;> simp [*, State.fixed_foldl]))); try clear_value x) | (split) | (simp [*, State.fixed_foldl]; done))

end Sys2Proof.Machine
end

