-- ==== Sys2Proof/Laws/Access.lean ====
section
/-! SUPPORT. Laws/Access.lean: what the operations of Machine/Access.lean leave alone. -/
set_option linter.all false
namespace Sys2Proof.Machine

@[simp ↓] theorem State.gave_fixed (s : State) (who : Initiator) (v : Nat) : (s.gave who v).fixed = s.fixed := by
  simp [State.gave, State.fixed_foldl]

@[simp ↓] theorem State.dropResv_fixed (s : State) (who : Option Initiator) (a : Nat) (n : Nat) : (s.dropResv who a n).fixed = s.fixed := by
  simp [State.dropResv, State.fixed_foldl]

@[simp ↓] theorem State.memStore_queue (s : State) (who : Initiator) (a : Nat) (n : Nat) (v : Nat) : (s.memStore who a n v).fixed.1 = s.fixed.1 := by
  simp [State.memStore, State.fixed_foldl, State.queue_foldl]

@[simp ↓] theorem State.memStore_ok {s : State} (hw : FixedOk s.fixed) (who : Initiator) (a : Nat) (n : Nat) (v : Nat) : FixedOk (s.memStore who a n v).fixed := by
  unfold State.memStore
  repeat' (first | (extract_lets +onlyGivenNames x; (try (have hx : FixedOk x.fixed := by (simp only [x]; repeat' (first | with_reducible assumption | (intro s x hw) | with_reducible apply FixedOk.foldl | with_reducible apply State.store_ok | split | (simp [*, State.fixed_foldl, State.queue_foldl]; done) | split | simp only [State.fixed_foldl, State.fixed_update] | with_reducible refine (Result.keeps_next _ _).2 ⟨?_, ?_⟩)))); (try (have hq : x.fixed.1 = s.fixed.1 := by (simp only [x]; (repeat' split) <;> simp [*, State.fixed_foldl, State.queue_foldl]))); try clear_value x) | with_reducible assumption | (intro s x hw) | with_reducible apply FixedOk.foldl | with_reducible apply State.store_ok | (split) | (simp [*, State.fixed_foldl, State.queue_foldl]; done) | split | simp only [State.fixed_foldl, State.fixed_update] | with_reducible refine (Result.keeps_next _ _).2 ⟨?_, ?_⟩)

@[simp ↓] theorem State.coreStore_queue (s : State) (k : Nat) (r : Region) (a : Nat) (n : Nat) (v : Nat) : (s.coreStore k r a n v).fixed.1 = s.fixed.1 := by
  simp [State.coreStore, State.fixed_foldl, State.queue_foldl]

@[simp ↓] theorem State.coreStore_ok {s : State} (hw : FixedOk s.fixed) (k : Nat) (r : Region) (a : Nat) (n : Nat) (v : Nat) : FixedOk (s.coreStore k r a n v).fixed := by
  unfold State.coreStore
  repeat' (first | (extract_lets +onlyGivenNames x; (try (have hx : FixedOk x.fixed := by (simp only [x]; repeat' (first | with_reducible assumption | (intro s x hw) | with_reducible apply FixedOk.foldl | with_reducible apply State.imageStore_ok | with_reducible apply State.memStore_ok | split | (simp [*, State.fixed_foldl, State.queue_foldl]; done) | split | simp only [State.fixed_foldl, State.fixed_update] | with_reducible refine (Result.keeps_next _ _).2 ⟨?_, ?_⟩)))); (try (have hq : x.fixed.1 = s.fixed.1 := by (simp only [x]; (repeat' split) <;> simp [*, State.fixed_foldl, State.queue_foldl]))); try clear_value x) | with_reducible assumption | (intro s x hw) | with_reducible apply FixedOk.foldl | with_reducible apply State.imageStore_ok | with_reducible apply State.memStore_ok | (split) | (simp [*, State.fixed_foldl, State.queue_foldl]; done) | split | simp only [State.fixed_foldl, State.fixed_update] | with_reducible refine (Result.keeps_next _ _).2 ⟨?_, ?_⟩)

@[simp ↓] theorem State.storeAt_keeps {q} {s : State} (hq : s.fixed.1 = q) (hw : FixedOk s.fixed) (who : Initiator) (r : Region) (a : Nat) (n : Nat) (v : Nat) : Result.keeps q (s.storeAt who r a n v) := by
  unfold State.storeAt
  repeat' (first | (extract_lets +onlyGivenNames x; (try (have hx : FixedOk x.fixed := by (simp only [x]; repeat' (first | with_reducible assumption | (intro s x hw) | with_reducible apply FixedOk.foldl | with_reducible apply State.memStore_ok | with_reducible apply State.coreStore_ok | split | (simp [*, State.fixed_foldl, State.queue_foldl]; done) | split | simp only [State.fixed_foldl, State.fixed_update] | with_reducible refine (Result.keeps_next _ _).2 ⟨?_, ?_⟩)))); (try (have hq : x.fixed.1 = s.fixed.1 := by (simp only [x]; (repeat' split) <;> simp [*, State.fixed_foldl, State.queue_foldl]))); try clear_value x) | with_reducible assumption | (intro s x hw) | with_reducible apply FixedOk.foldl | with_reducible apply State.memStore_ok | with_reducible apply State.coreStore_ok | (split) | (simp [*, State.fixed_foldl, State.queue_foldl]; done) | split | simp only [State.fixed_foldl, State.fixed_update] | with_reducible refine (Result.keeps_next _ _).2 ⟨?_, ?_⟩)

@[simp ↓] theorem State.accDone_fixed (s : State) (who : Initiator) (r : RackRes) : (s.accDone who r).fixed = s.fixed := by
  simp [State.accDone, State.fixed_foldl]

@[simp ↓] theorem State.reserve_fixed (s : State) (who : Initiator) (a : Nat) : (s.reserve who a).fixed = s.fixed := by
  simp [State.reserve, State.fixed_foldl]

theorem State.lockPerform_queue (s : State) (who : Initiator) (a n : Nat) (acc : LockAcc) {put : (Nat → Nat) → State → State}
    (hp : ∀ f s, (put f s).fixed.1 = s.fixed.1) : (s.lockPerform who a n acc put).fixed.1 = s.fixed.1 := by
  unfold State.lockPerform
  split
  · simp
  · rw [State.accDone_fixed]
    exact hp _ _
  · extract_lets t
    have ht : t.fixed = s.fixed := rfl
    clear_value t
    split
    · rw [State.accDone_fixed]
      exact (hp _ _).trans (congrArg Prod.fst ht)
    · rw [State.accDone_fixed, ht]

theorem State.lockPerform_ok {s : State} (hw : FixedOk s.fixed) (who : Initiator) (a n : Nat) (acc : LockAcc) {put : (Nat → Nat) → State → State}
    (hp : ∀ f s, FixedOk s.fixed → FixedOk (put f s).fixed) : FixedOk (s.lockPerform who a n acc put).fixed := by
  unfold State.lockPerform
  split
  · simpa using hw
  · rw [State.accDone_fixed]
    exact hp _ _ hw
  · extract_lets t
    have ht : FixedOk t.fixed := hw
    clear_value t
    split
    · rw [State.accDone_fixed]
      exact hp _ _ ht
    · rwa [State.accDone_fixed]

theorem State.lockAt_keeps {q} {s : State} (hq : s.fixed.1 = q) (hw : FixedOk s.fixed) (who : Initiator) (r : Region) (a n : Nat)
    (acc : LockAcc) : Result.keeps q (s.lockAt who r a n acc) := by
  unfold State.lockAt
  extract_lets store ok u
  have hu : u.fixed = s.fixed := State.fixed_foldl _ _ (by simp) _
  clear_value u
  split
  · simp [hq, hw]
  · split
    · split
      · simp [hu, hq, hw]
      · refine (Result.keeps_next _ _).2 ⟨?_, ?_⟩
        · rw [State.lockPerform_queue _ _ _ _ _ (fun f s => State.queue_foldl _ _ (by simp) _), hu, hq]
        · exact State.lockPerform_ok (by rw [hu]; exact hw) _ _ _ _ (fun f s h => FixedOk.foldl _ _ (fun s x h => State.coreStore_ok h _ _ _ _ _) _ h)
    · split
      · simp [hq, hw]
      · split
        · trivial
        · refine (Result.keeps_next _ _).2 ⟨?_, ?_⟩
          · rw [State.lockPerform_queue _ _ _ _ _ (fun f s => by simp), hq]
          · exact State.lockPerform_ok hw _ _ _ _ (fun f s h => State.memStore_ok h _ _ _ _)

end Sys2Proof.Machine
end

