-- ==== Sys2Proof/Laws/TripOps.lean ====
section
/-! SUPPORT. Laws/TripOps.lean: what the operations of Machine/TripOps.lean leave alone. -/
set_option linter.all false
namespace Sys2Proof.Machine

@[simp ↓] theorem State.showPresent_fixed (s : State) : (s.showPresent).fixed = s.fixed := by
  simp [State.showPresent, State.fixed_foldl]

@[simp ↓] theorem State.tripArea_queue (s : State) : (s.tripArea).fixed.1 = s.fixed.1 := by
  unfold State.tripArea
  repeat' (first | (extract_lets +onlyGivenNames x; (try (have hx : x.fixed.1 = s.fixed.1 := by (simp only [x]; (repeat' split) <;> simp [*, State.fixed_foldl, State.queue_foldl]))); try clear_value x) | (split) | (simp [*, State.fixed_foldl, State.queue_foldl]; done))

@[simp ↓] theorem State.tripArea_ok {s : State} (hw : FixedOk s.fixed) : FixedOk (s.tripArea).fixed := by
  unfold State.tripArea
  repeat' (first | (extract_lets +onlyGivenNames x; (try (have hx : FixedOk x.fixed := by (simp only [x]; repeat' (first | with_reducible assumption | (intro s x hw) | with_reducible apply FixedOk.foldl | with_reducible apply State.liveWrite_ok | split | (simp [*, State.fixed_foldl, State.queue_foldl]; done) | split | simp only [State.fixed_foldl, State.fixed_update] | with_reducible refine (Result.keeps_next _ _).2 ⟨?_, ?_⟩)))); (try (have hq : x.fixed.1 = s.fixed.1 := by (simp only [x]; (repeat' split) <;> simp [*, State.fixed_foldl, State.queue_foldl]))); try clear_value x) | with_reducible assumption | (intro s x hw) | with_reducible apply FixedOk.foldl | with_reducible apply State.liveWrite_ok | (split) | (simp [*, State.fixed_foldl, State.queue_foldl]; done) | split | simp only [State.fixed_foldl, State.fixed_update] | with_reducible refine (Result.keeps_next _ _).2 ⟨?_, ?_⟩)

@[simp ↓] theorem State.fnLatch_fixed (s : State) (n : Nat) (cause : Nat) : (s.fnLatch n cause).fixed = s.fixed := by
  unfold State.fnLatch
  repeat' (first | (extract_lets +onlyGivenNames x; (try (have hx : x.fixed = s.fixed := by (simp only [x]; (repeat' split) <;> simp [*, State.fixed_foldl]))); try clear_value x) | (split) | (simp [*, State.fixed_foldl]; done))

@[simp ↓] theorem State.faultFns_queue (s : State) (cat : Nat) (hit : Nat → Bool) : (s.faultFns cat hit).fixed.1 = s.fixed.1 := by
  simp [State.faultFns, State.fixed_foldl, State.queue_foldl]

@[simp ↓] theorem State.faultFns_ok {s : State} (hw : FixedOk s.fixed) (cat : Nat) (hit : Nat → Bool) : FixedOk (s.faultFns cat hit).fixed := by
  unfold State.faultFns
  repeat' (first | (extract_lets +onlyGivenNames x; (try (have hx : FixedOk x.fixed := by (simp only [x]; repeat' (first | with_reducible assumption | (intro s x hw) | with_reducible apply FixedOk.foldl | with_reducible apply State.tripArea_ok | split | (simp [*, State.fixed_foldl, State.queue_foldl]; done) | split | simp only [State.fixed_foldl, State.fixed_update] | with_reducible refine (Result.keeps_next _ _).2 ⟨?_, ?_⟩)))); (try (have hq : x.fixed.1 = s.fixed.1 := by (simp only [x]; (repeat' split) <;> simp [*, State.fixed_foldl, State.queue_foldl]))); try clear_value x) | with_reducible assumption | (intro s x hw) | with_reducible apply FixedOk.foldl | with_reducible apply State.tripArea_ok | (split) | (simp [*, State.fixed_foldl, State.queue_foldl]; done) | split | simp only [State.fixed_foldl, State.fixed_update] | with_reducible refine (Result.keeps_next _ _).2 ⟨?_, ?_⟩)

@[simp ↓] theorem State.latchAll_queue (s : State) : (s.latchAll).fixed.1 = s.fixed.1 := by
  simp [State.latchAll, State.fixed_foldl, State.queue_foldl]

@[simp ↓] theorem State.latchAll_ok {s : State} (hw : FixedOk s.fixed) : FixedOk (s.latchAll).fixed := by
  unfold State.latchAll
  repeat' (first | (extract_lets +onlyGivenNames x; (try (have hx : FixedOk x.fixed := by (simp only [x]; repeat' (first | with_reducible assumption | (intro s x hw) | with_reducible apply FixedOk.foldl | with_reducible apply State.tripArea_ok | split | (simp [*, State.fixed_foldl, State.queue_foldl]; done) | split | simp only [State.fixed_foldl, State.fixed_update] | with_reducible refine (Result.keeps_next _ _).2 ⟨?_, ?_⟩)))); (try (have hq : x.fixed.1 = s.fixed.1 := by (simp only [x]; (repeat' split) <;> simp [*, State.fixed_foldl, State.queue_foldl]))); try clear_value x) | with_reducible assumption | (intro s x hw) | with_reducible apply FixedOk.foldl | with_reducible apply State.tripArea_ok | (split) | (simp [*, State.fixed_foldl, State.queue_foldl]; done) | split | simp only [State.fixed_foldl, State.fixed_update] | with_reducible refine (Result.keeps_next _ _).2 ⟨?_, ?_⟩)

@[simp ↓] theorem State.fnOpen_queue (s : State) (n : Nat) (code : Nat) (token : Nat) : (s.fnOpen n code token).fixed.1 = s.fixed.1 := by
  unfold State.fnOpen
  repeat' (first | (extract_lets +onlyGivenNames x; (try (have hx : x.fixed.1 = s.fixed.1 := by (simp only [x]; (repeat' split) <;> simp [*, State.fixed_foldl, State.queue_foldl]))); try clear_value x) | (split) | (simp [*, State.fixed_foldl, State.queue_foldl]; done))

@[simp ↓] theorem State.fnOpen_ok {s : State} (hw : FixedOk s.fixed) (n : Nat) (code : Nat) (token : Nat) : FixedOk (s.fnOpen n code token).fixed := by
  unfold State.fnOpen
  repeat' (first | (extract_lets +onlyGivenNames x; (try (have hx : FixedOk x.fixed := by (simp only [x]; repeat' (first | with_reducible assumption | (intro s x hw) | with_reducible apply FixedOk.foldl | with_reducible apply State.tripArea_ok | split | (simp [*, State.fixed_foldl, State.queue_foldl]; done) | split | simp only [State.fixed_foldl, State.fixed_update] | with_reducible refine (Result.keeps_next _ _).2 ⟨?_, ?_⟩)))); (try (have hq : x.fixed.1 = s.fixed.1 := by (simp only [x]; (repeat' split) <;> simp [*, State.fixed_foldl, State.queue_foldl]))); try clear_value x) | with_reducible assumption | (intro s x hw) | with_reducible apply FixedOk.foldl | with_reducible apply State.tripArea_ok | (split) | (simp [*, State.fixed_foldl, State.queue_foldl]; done) | split | simp only [State.fixed_foldl, State.fixed_update] | with_reducible refine (Result.keeps_next _ _).2 ⟨?_, ?_⟩)

@[simp ↓] theorem State.loseSource_queue (s : State) (i : Nat) : (s.loseSource i).fixed.1 = s.fixed.1 := by
  unfold State.loseSource
  repeat' (first | (extract_lets +onlyGivenNames x; (try (have hx : x.fixed.1 = s.fixed.1 := by (simp only [x]; (repeat' split) <;> simp [*, State.fixed_foldl, State.queue_foldl]))); try clear_value x) | (split) | (simp [*, State.fixed_foldl, State.queue_foldl]; done))

@[simp ↓] theorem State.loseSource_ok {s : State} (hw : FixedOk s.fixed) (i : Nat) : FixedOk (s.loseSource i).fixed := by
  unfold State.loseSource
  repeat' (first | (extract_lets +onlyGivenNames x; (try (have hx : FixedOk x.fixed := by (simp only [x]; repeat' (first | with_reducible assumption | (intro s x hw) | with_reducible apply FixedOk.foldl | with_reducible apply State.faultFns_ok | split | (simp [*, State.fixed_foldl, State.queue_foldl]; done) | split | simp only [State.fixed_foldl, State.fixed_update] | with_reducible refine (Result.keeps_next _ _).2 ⟨?_, ?_⟩)))); (try (have hq : x.fixed.1 = s.fixed.1 := by (simp only [x]; (repeat' split) <;> simp [*, State.fixed_foldl, State.queue_foldl]))); try clear_value x) | with_reducible assumption | (intro s x hw) | with_reducible apply FixedOk.foldl | with_reducible apply State.faultFns_ok | (split) | (simp [*, State.fixed_foldl, State.queue_foldl]; done) | split | simp only [State.fixed_foldl, State.fixed_update] | with_reducible refine (Result.keeps_next _ _).2 ⟨?_, ?_⟩)

@[simp ↓] theorem State.loseSources_queue (s : State) : (s.loseSources).fixed.1 = s.fixed.1 := by
  unfold State.loseSources
  repeat' (first | (extract_lets +onlyGivenNames x; (try (have hx : x.fixed.1 = s.fixed.1 := by (simp only [x]; (repeat' split) <;> simp [*, State.fixed_foldl, State.queue_foldl]))); try clear_value x) | (split) | (simp [*, State.fixed_foldl, State.queue_foldl]; done))

@[simp ↓] theorem State.loseSources_ok {s : State} (hw : FixedOk s.fixed) : FixedOk (s.loseSources).fixed := by
  unfold State.loseSources
  repeat' (first | (extract_lets +onlyGivenNames x; (try (have hx : FixedOk x.fixed := by (simp only [x]; repeat' (first | with_reducible assumption | (intro s x hw) | with_reducible apply FixedOk.foldl | with_reducible apply State.loseSource_ok | split | (simp [*, State.fixed_foldl, State.queue_foldl]; done) | split | simp only [State.fixed_foldl, State.fixed_update] | with_reducible refine (Result.keeps_next _ _).2 ⟨?_, ?_⟩)))); (try (have hq : x.fixed.1 = s.fixed.1 := by (simp only [x]; (repeat' split) <;> simp [*, State.fixed_foldl, State.queue_foldl]))); try clear_value x) | with_reducible assumption | (intro s x hw) | with_reducible apply FixedOk.foldl | with_reducible apply State.loseSource_ok | (split) | (simp [*, State.fixed_foldl, State.queue_foldl]; done) | split | simp only [State.fixed_foldl, State.fixed_update] | with_reducible refine (Result.keeps_next _ _).2 ⟨?_, ?_⟩)

@[simp ↓] theorem State.tripStart_queue (s : State) : (s.tripStart).fixed.1 = s.fixed.1 := by
  unfold State.tripStart
  repeat' (first | (extract_lets +onlyGivenNames x; (try (have hx : x.fixed.1 = s.fixed.1 := by (simp only [x]; (repeat' split) <;> simp [*, State.fixed_foldl, State.queue_foldl]))); try clear_value x) | (split) | (simp [*, State.fixed_foldl, State.queue_foldl]; done))

@[simp ↓] theorem State.tripStart_ok {s : State} (hw : FixedOk s.fixed) : FixedOk (s.tripStart).fixed := by
  unfold State.tripStart
  repeat' (first | (extract_lets +onlyGivenNames x; (try (have hx : FixedOk x.fixed := by (simp only [x]; repeat' (first | with_reducible assumption | (intro s x hw) | with_reducible apply FixedOk.foldl | with_reducible apply State.tripArea_ok | split | (simp [*, State.fixed_foldl, State.queue_foldl]; done) | split | simp only [State.fixed_foldl, State.fixed_update] | with_reducible refine (Result.keeps_next _ _).2 ⟨?_, ?_⟩)))); (try (have hq : x.fixed.1 = s.fixed.1 := by (simp only [x]; (repeat' split) <;> simp [*, State.fixed_foldl, State.queue_foldl]))); try clear_value x) | with_reducible assumption | (intro s x hw) | with_reducible apply FixedOk.foldl | with_reducible apply State.tripArea_ok | (split) | (simp [*, State.fixed_foldl, State.queue_foldl]; done) | split | simp only [State.fixed_foldl, State.fixed_update] | with_reducible refine (Result.keeps_next _ _).2 ⟨?_, ?_⟩)

@[simp ↓] theorem State.prgKick_queue (s : State) : (s.prgKick).fixed.1 = s.fixed.1 := by
  unfold State.prgKick
  repeat' (first | (extract_lets +onlyGivenNames x; (try (have hx : x.fixed.1 = s.fixed.1 := by (simp only [x]; (repeat' split) <;> simp [*, State.fixed_foldl, State.queue_foldl]))); try clear_value x) | (split) | (simp [*, State.fixed_foldl, State.queue_foldl]; done))

@[simp ↓] theorem State.prgKick_ok {s : State} (hw : FixedOk s.fixed) : FixedOk (s.prgKick).fixed := by
  unfold State.prgKick
  repeat' (first | (extract_lets +onlyGivenNames x; (try (have hx : FixedOk x.fixed := by (simp only [x]; repeat' (first | with_reducible assumption | (intro s x hw) | with_reducible apply FixedOk.foldl | with_reducible apply State.faultFns_ok | split | (simp [*, State.fixed_foldl, State.queue_foldl]; done) | split | simp only [State.fixed_foldl, State.fixed_update] | with_reducible refine (Result.keeps_next _ _).2 ⟨?_, ?_⟩)))); (try (have hq : x.fixed.1 = s.fixed.1 := by (simp only [x]; (repeat' split) <;> simp [*, State.fixed_foldl, State.queue_foldl]))); try clear_value x) | with_reducible assumption | (intro s x hw) | with_reducible apply FixedOk.foldl | with_reducible apply State.faultFns_ok | (split) | (simp [*, State.fixed_foldl, State.queue_foldl]; done) | split | simp only [State.fixed_foldl, State.fixed_update] | with_reducible refine (Result.keeps_next _ _).2 ⟨?_, ?_⟩)

end Sys2Proof.Machine
end

