-- ==== Sys2Proof/Laws/Dio.lean ====
section
/-! SUPPORT. Laws/Dio.lean: what the operations of Machine/Dio.lean leave alone. -/
set_option linter.all false
namespace Sys2Proof.Machine

@[simp ↓] theorem State.setChan_fixed (s : State) (n : Nat) (c : Chan) : (s.setChan n c).fixed = s.fixed := by
  simp [State.setChan, State.fixed_foldl]

@[simp ↓] theorem State.dioImage_queue (s : State) : (s.dioImage).fixed.1 = s.fixed.1 := by
  simp [State.dioImage, State.fixed_foldl, State.queue_foldl]

@[simp ↓] theorem State.dioImage_ok {s : State} (hw : FixedOk s.fixed) : FixedOk (s.dioImage).fixed := by
  unfold State.dioImage
  repeat' (first | (extract_lets +onlyGivenNames x; (try (have hx : FixedOk x.fixed := by (simp only [x]; repeat' (first | with_reducible assumption | (intro s x hw) | with_reducible apply FixedOk.foldl | with_reducible apply State.liveWrite_ok | split | (simp [*, State.fixed_foldl, State.queue_foldl]; done) | split | simp only [State.fixed_foldl, State.fixed_update] | with_reducible refine (Result.keeps_next _ _).2 ⟨?_, ?_⟩)))); (try (have hq : x.fixed.1 = s.fixed.1 := by (simp only [x]; (repeat' split) <;> simp [*, State.fixed_foldl, State.queue_foldl]))); try clear_value x) | with_reducible assumption | (intro s x hw) | with_reducible apply FixedOk.foldl | with_reducible apply State.liveWrite_ok | (split) | (simp [*, State.fixed_foldl, State.queue_foldl]; done) | split | simp only [State.fixed_foldl, State.fixed_update] | with_reducible refine (Result.keeps_next _ _).2 ⟨?_, ?_⟩)

@[simp ↓] theorem State.setPin_fixed (s : State) (n : Nat) (b : Bool) : (s.setPin n b).fixed = s.fixed := by
  simp [State.setPin, State.fixed_foldl]

@[simp ↓] theorem State.chanUpdate_fixed (s : State) (n : Nat) : (s.chanUpdate n).fixed = s.fixed := by
  unfold State.chanUpdate
  repeat' (first | (extract_lets +onlyGivenNames x; (try (have hx : x.fixed = s.fixed := by (simp only [x]; (repeat' split) <;> simp [*, State.fixed_foldl]))); try clear_value x) | (split) | (simp [*, State.fixed_foldl]; done))

@[simp ↓] theorem State.chansUpdate_queue (s : State) (l : List Nat) : (s.chansUpdate l).fixed.1 = s.fixed.1 := by
  unfold State.chansUpdate
  repeat' (first | (extract_lets +onlyGivenNames x; (try (have hx : x.fixed.1 = s.fixed.1 := by (simp only [x]; (repeat' split) <;> simp [*, State.fixed_foldl, State.queue_foldl]))); try clear_value x) | (split) | (simp [*, State.fixed_foldl, State.queue_foldl]; done))

@[simp ↓] theorem State.chansUpdate_ok {s : State} (hw : FixedOk s.fixed) (l : List Nat) : FixedOk (s.chansUpdate l).fixed := by
  unfold State.chansUpdate
  repeat' (first | (extract_lets +onlyGivenNames x; (try (have hx : FixedOk x.fixed := by (simp only [x]; repeat' (first | with_reducible assumption | (intro s x hw) | with_reducible apply FixedOk.foldl | with_reducible apply State.dioImage_ok | split | (simp [*, State.fixed_foldl, State.queue_foldl]; done) | split | simp only [State.fixed_foldl, State.fixed_update] | with_reducible refine (Result.keeps_next _ _).2 ⟨?_, ?_⟩)))); (try (have hq : x.fixed.1 = s.fixed.1 := by (simp only [x]; (repeat' split) <;> simp [*, State.fixed_foldl, State.queue_foldl]))); try clear_value x) | with_reducible assumption | (intro s x hw) | with_reducible apply FixedOk.foldl | with_reducible apply State.dioImage_ok | (split) | (simp [*, State.fixed_foldl, State.queue_foldl]; done) | split | simp only [State.fixed_foldl, State.fixed_update] | with_reducible refine (Result.keeps_next _ _).2 ⟨?_, ?_⟩)

@[simp ↓] theorem State.dioRefresh_queue (s : State) : (s.dioRefresh).fixed.1 = s.fixed.1 := by
  simp [State.dioRefresh, State.fixed_foldl, State.queue_foldl]

@[simp ↓] theorem State.dioRefresh_ok {s : State} (hw : FixedOk s.fixed) : FixedOk (s.dioRefresh).fixed := by
  unfold State.dioRefresh
  repeat' (first | (extract_lets +onlyGivenNames x; (try (have hx : FixedOk x.fixed := by (simp only [x]; repeat' (first | with_reducible assumption | (intro s x hw) | with_reducible apply FixedOk.foldl | with_reducible apply State.chansUpdate_ok | split | (simp [*, State.fixed_foldl, State.queue_foldl]; done) | split | simp only [State.fixed_foldl, State.fixed_update] | with_reducible refine (Result.keeps_next _ _).2 ⟨?_, ?_⟩)))); (try (have hq : x.fixed.1 = s.fixed.1 := by (simp only [x]; (repeat' split) <;> simp [*, State.fixed_foldl, State.queue_foldl]))); try clear_value x) | with_reducible assumption | (intro s x hw) | with_reducible apply FixedOk.foldl | with_reducible apply State.chansUpdate_ok | (split) | (simp [*, State.fixed_foldl, State.queue_foldl]; done) | split | simp only [State.fixed_foldl, State.fixed_update] | with_reducible refine (Result.keeps_next _ _).2 ⟨?_, ?_⟩)

@[simp ↓] theorem State.timeAt_fixed (s : State) (t : Nat) : (s.timeAt t).fixed = s.fixed := by
  simp [State.timeAt, State.fixed_foldl]

/-- A moment at which no channel carries a STEP entry's pulses moves the time bases alone. -/
theorem State.at_idle {s : State} {t : Nat} (h : (s.timeAt t).stepChans = []) : s.at_ t = s.timeAt t := by
  unfold State.at_
  simp [h]

@[simp ↓] theorem State.at_queue (s : State) (t : Nat) : (s.at_ t).fixed.1 = s.fixed.1 := by
  unfold State.at_
  extract_lets u
  have h : u.fixed.1 = s.fixed.1 := by simp [u]
  clear_value u
  split <;> simp [h]

@[simp ↓] theorem State.at_ok {s : State} (hw : FixedOk s.fixed) (t : Nat) : FixedOk (s.at_ t).fixed := by
  unfold State.at_
  extract_lets u
  have h : FixedOk u.fixed := by simp [u, hw]
  clear_value u
  split
  · exact h
  · exact State.chansUpdate_ok h _

@[simp ↓] theorem State.chanFault_queue (s : State) (n : Nat) (cause : Nat) : (s.chanFault n cause).fixed.1 = s.fixed.1 := by
  unfold State.chanFault
  repeat' (first | (extract_lets +onlyGivenNames x; (try (have hx : x.fixed.1 = s.fixed.1 := by (simp only [x]; (repeat' split) <;> simp [*, State.fixed_foldl, State.queue_foldl]))); try clear_value x) | (split) | (simp [*, State.fixed_foldl, State.queue_foldl]; done))

@[simp ↓] theorem State.chanFault_ok {s : State} (hw : FixedOk s.fixed) (n : Nat) (cause : Nat) : FixedOk (s.chanFault n cause).fixed := by
  unfold State.chanFault
  repeat' (first | (extract_lets +onlyGivenNames x; (try (have hx : FixedOk x.fixed := by (simp only [x]; repeat' (first | with_reducible assumption | (intro s x hw) | with_reducible apply FixedOk.foldl | with_reducible apply State.faultFns_ok | split | (simp [*, State.fixed_foldl, State.queue_foldl]; done) | split | simp only [State.fixed_foldl, State.fixed_update] | with_reducible refine (Result.keeps_next _ _).2 ⟨?_, ?_⟩)))); (try (have hq : x.fixed.1 = s.fixed.1 := by (simp only [x]; (repeat' split) <;> simp [*, State.fixed_foldl, State.queue_foldl]))); try clear_value x) | with_reducible assumption | (intro s x hw) | with_reducible apply FixedOk.foldl | with_reducible apply State.faultFns_ok | (split) | (simp [*, State.fixed_foldl, State.queue_foldl]; done) | split | simp only [State.fixed_foldl, State.fixed_update] | with_reducible refine (Result.keeps_next _ _).2 ⟨?_, ?_⟩)

@[simp ↓] theorem State.grpFault_queue (s : State) (g : Nat) (cause : Nat) (skip : Nat) : (s.grpFault g cause skip).fixed.1 = s.fixed.1 := by
  simp [State.grpFault, State.fixed_foldl, State.queue_foldl]

@[simp ↓] theorem State.grpFault_ok {s : State} (hw : FixedOk s.fixed) (g : Nat) (cause : Nat) (skip : Nat) : FixedOk (s.grpFault g cause skip).fixed := by
  unfold State.grpFault
  repeat' (first | (extract_lets +onlyGivenNames x; (try (have hx : FixedOk x.fixed := by (simp only [x]; repeat' (first | with_reducible assumption | (intro s x hw) | with_reducible apply FixedOk.foldl | with_reducible apply State.chanFault_ok | split | (simp [*, State.fixed_foldl, State.queue_foldl]; done) | split | simp only [State.fixed_foldl, State.fixed_update] | with_reducible refine (Result.keeps_next _ _).2 ⟨?_, ?_⟩)))); (try (have hq : x.fixed.1 = s.fixed.1 := by (simp only [x]; (repeat' split) <;> simp [*, State.fixed_foldl, State.queue_foldl]))); try clear_value x) | with_reducible assumption | (intro s x hw) | with_reducible apply FixedOk.foldl | with_reducible apply State.chanFault_ok | (split) | (simp [*, State.fixed_foldl, State.queue_foldl]; done) | split | simp only [State.fixed_foldl, State.fixed_update] | with_reducible refine (Result.keeps_next _ _).2 ⟨?_, ?_⟩)

@[simp ↓] theorem State.chanHeal_fixed (s : State) (n : Nat) : (s.chanHeal n).fixed = s.fixed := by
  unfold State.chanHeal
  repeat' (first | (extract_lets +onlyGivenNames x; (try (have hx : x.fixed = s.fixed := by (simp only [x]; (repeat' split) <;> simp [*, State.fixed_foldl]))); try clear_value x) | (split) | (simp [*, State.fixed_foldl]; done))

@[simp ↓] theorem State.stuck_queue (s : State) (n : Nat) (on : Bool) : (s.stuck n on).fixed.1 = s.fixed.1 := by
  unfold State.stuck
  repeat' (first | (extract_lets +onlyGivenNames x; (try (have hx : x.fixed.1 = s.fixed.1 := by (simp only [x]; (repeat' split) <;> simp [*, State.fixed_foldl, State.queue_foldl]))); try clear_value x) | (split) | (simp [*, State.fixed_foldl, State.queue_foldl]; done))

@[simp ↓] theorem State.stuck_ok {s : State} (hw : FixedOk s.fixed) (n : Nat) (on : Bool) : FixedOk (s.stuck n on).fixed := by
  unfold State.stuck
  repeat' (first | (extract_lets +onlyGivenNames x; (try (have hx : FixedOk x.fixed := by (simp only [x]; repeat' (first | with_reducible assumption | (intro s x hw) | with_reducible apply FixedOk.foldl | with_reducible apply State.chanFault_ok | with_reducible apply State.grpFault_ok | split | (simp [*, State.fixed_foldl, State.queue_foldl]; done) | split | simp only [State.fixed_foldl, State.fixed_update] | with_reducible refine (Result.keeps_next _ _).2 ⟨?_, ?_⟩)))); (try (have hq : x.fixed.1 = s.fixed.1 := by (simp only [x]; (repeat' split) <;> simp [*, State.fixed_foldl, State.queue_foldl]))); try clear_value x) | with_reducible assumption | (intro s x hw) | with_reducible apply FixedOk.foldl | with_reducible apply State.chanFault_ok | with_reducible apply State.grpFault_ok | (split) | (simp [*, State.fixed_foldl, State.queue_foldl]; done) | split | simp only [State.fixed_foldl, State.fixed_update] | with_reducible refine (Result.keeps_next _ _).2 ⟨?_, ?_⟩)

@[simp ↓] theorem State.breakClear_fixed (s : State) (n : Nat) : (s.breakClear n).fixed = s.fixed := by
  simp [State.breakClear, State.fixed_foldl]

@[simp ↓] theorem State.chanTick_fixed (s : State) (n : Nat) : (s.chanTick n).fixed = s.fixed := by
  unfold State.chanTick
  repeat' (first | (extract_lets +onlyGivenNames x; (try (have hx : x.fixed = s.fixed := by (simp only [x]; (repeat' split) <;> simp [*, State.fixed_foldl]))); try clear_value x) | (split) | (simp [*, State.fixed_foldl]; done))

@[simp ↓] theorem State.voltTick_fixed (s : State) (g : Nat) : (s.voltTick g).fixed = s.fixed := by
  unfold State.voltTick
  repeat' (first | (extract_lets +onlyGivenNames x; (try (have hx : x.fixed = s.fixed := by (simp only [x]; (repeat' split) <;> simp [*, State.fixed_foldl]))); try clear_value x) | (split) | (simp [*, State.fixed_foldl]; done))

@[simp ↓] theorem State.dioTick_queue (s : State) : (s.dioTick).fixed.1 = s.fixed.1 := by
  unfold State.dioTick
  repeat' (first | (extract_lets +onlyGivenNames x; (try (have hx : x.fixed.1 = s.fixed.1 := by (simp only [x]; (repeat' split) <;> simp [*, State.fixed_foldl, State.queue_foldl]))); try clear_value x) | (split) | (simp [*, State.fixed_foldl, State.queue_foldl]; done))

@[simp ↓] theorem State.dioTick_ok {s : State} (hw : FixedOk s.fixed) : FixedOk (s.dioTick).fixed := by
  unfold State.dioTick
  repeat' (first | (extract_lets +onlyGivenNames x; (try (have hx : FixedOk x.fixed := by (simp only [x]; repeat' (first | with_reducible assumption | (intro s x hw) | with_reducible apply FixedOk.foldl | with_reducible apply State.dioRefresh_ok | split | (simp [*, State.fixed_foldl, State.queue_foldl]; done) | split | simp only [State.fixed_foldl, State.fixed_update] | with_reducible refine (Result.keeps_next _ _).2 ⟨?_, ?_⟩)))); (try (have hq : x.fixed.1 = s.fixed.1 := by (simp only [x]; (repeat' split) <;> simp [*, State.fixed_foldl, State.queue_foldl]))); try clear_value x) | with_reducible assumption | (intro s x hw) | with_reducible apply FixedOk.foldl | with_reducible apply State.dioRefresh_ok | (split) | (simp [*, State.fixed_foldl, State.queue_foldl]; done) | split | simp only [State.fixed_foldl, State.fixed_update] | with_reducible refine (Result.keeps_next _ _).2 ⟨?_, ?_⟩)

@[simp ↓] theorem State.homeCapture_fixed (s : State) (n : Nat) : (s.homeCapture n).fixed = s.fixed := by
  unfold State.homeCapture
  repeat' (first | (extract_lets +onlyGivenNames x; (try (have hx : x.fixed = s.fixed := by (simp only [x]; (repeat' split) <;> simp [*, State.fixed_foldl]))); try clear_value x) | (split) | (simp [*, State.fixed_foldl]; done))

@[simp ↓] theorem execInputFilteredEdge_keeps {q} {s : State} (hq : s.fixed.1 = q) (hw : FixedOk s.fixed) (t : Nat) (ch : Nat) (level : Bool) : Result.keeps q (execInputFilteredEdge t ch level s) := by
  unfold execInputFilteredEdge
  repeat' (first | (extract_lets +onlyGivenNames x; (try (have hx : FixedOk x.fixed := by (simp only [x]; repeat' (first | with_reducible assumption | (intro s x hw) | with_reducible apply FixedOk.foldl | with_reducible apply State.dioImage_ok | with_reducible apply State.at_ok | split | (simp [*, State.fixed_foldl, State.queue_foldl]; done) | split | simp only [State.fixed_foldl, State.fixed_update] | with_reducible refine (Result.keeps_next _ _).2 ⟨?_, ?_⟩)))); (try (have hq : x.fixed.1 = s.fixed.1 := by (simp only [x]; (repeat' split) <;> simp [*, State.fixed_foldl, State.queue_foldl]))); try clear_value x) | with_reducible assumption | (intro s x hw) | with_reducible apply FixedOk.foldl | with_reducible apply State.dioImage_ok | with_reducible apply State.at_ok | (split) | (simp [*, State.fixed_foldl, State.queue_foldl]; done) | split | simp only [State.fixed_foldl, State.fixed_update] | with_reducible refine (Result.keeps_next _ _).2 ⟨?_, ?_⟩)

@[simp ↓] theorem execWettingEnd_keeps {q} {s : State} (hq : s.fixed.1 = q) (hw : FixedOk s.fixed) (t : Nat) (ch : Nat) : Result.keeps q (execWettingEnd t ch s) := by
  unfold execWettingEnd
  repeat' (first | (extract_lets +onlyGivenNames x; (try (have hx : FixedOk x.fixed := by (simp only [x]; repeat' (first | with_reducible assumption | (intro s x hw) | with_reducible apply FixedOk.foldl | with_reducible apply State.at_ok | split | (simp [*, State.fixed_foldl, State.queue_foldl]; done) | split | simp only [State.fixed_foldl, State.fixed_update] | with_reducible refine (Result.keeps_next _ _).2 ⟨?_, ?_⟩)))); (try (have hq : x.fixed.1 = s.fixed.1 := by (simp only [x]; (repeat' split) <;> simp [*, State.fixed_foldl, State.queue_foldl]))); try clear_value x) | with_reducible assumption | (intro s x hw) | with_reducible apply FixedOk.foldl | with_reducible apply State.at_ok | (split) | (simp [*, State.fixed_foldl, State.queue_foldl]; done) | split | simp only [State.fixed_foldl, State.fixed_update] | with_reducible refine (Result.keeps_next _ _).2 ⟨?_, ?_⟩)

@[simp ↓] theorem execOutputShort_keeps {q} {s : State} (hq : s.fixed.1 = q) (hw : FixedOk s.fixed) (t : Nat) (ch : Nat) : Result.keeps q (execOutputShort t ch s) := by
  unfold execOutputShort
  repeat' (first | (extract_lets +onlyGivenNames x; (try (have hx : FixedOk x.fixed := by (simp only [x]; repeat' (first | with_reducible assumption | (intro s x hw) | with_reducible apply FixedOk.foldl | with_reducible apply State.dioImage_ok | with_reducible apply State.dioRefresh_ok | with_reducible apply State.at_ok | with_reducible apply State.chanFault_ok | split | (simp [*, State.fixed_foldl, State.queue_foldl]; done) | split | simp only [State.fixed_foldl, State.fixed_update] | with_reducible refine (Result.keeps_next _ _).2 ⟨?_, ?_⟩)))); (try (have hq : x.fixed.1 = s.fixed.1 := by (simp only [x]; (repeat' split) <;> simp [*, State.fixed_foldl, State.queue_foldl]))); try clear_value x) | with_reducible assumption | (intro s x hw) | with_reducible apply FixedOk.foldl | with_reducible apply State.dioImage_ok | with_reducible apply State.dioRefresh_ok | with_reducible apply State.at_ok | with_reducible apply State.chanFault_ok | (split) | (simp [*, State.fixed_foldl, State.queue_foldl]; done) | split | simp only [State.fixed_foldl, State.fixed_update] | with_reducible refine (Result.keeps_next _ _).2 ⟨?_, ?_⟩)

@[simp ↓] theorem State.grpEnter_queue (s : State) (g : Nat) (f : Fld) (cause : Nat) : (s.grpEnter g f cause).fixed.1 = s.fixed.1 := by
  simp [State.grpEnter, State.fixed_foldl, State.queue_foldl]

@[simp ↓] theorem State.grpEnter_ok {s : State} (hw : FixedOk s.fixed) (g : Nat) (f : Fld) (cause : Nat) : FixedOk (s.grpEnter g f cause).fixed := by
  unfold State.grpEnter
  repeat' (first | (extract_lets +onlyGivenNames x; (try (have hx : FixedOk x.fixed := by (simp only [x]; repeat' (first | with_reducible assumption | (intro s x hw) | with_reducible apply FixedOk.foldl | with_reducible apply State.dioImage_ok | with_reducible apply State.dioRefresh_ok | with_reducible apply State.grpFault_ok | split | (simp [*, State.fixed_foldl, State.queue_foldl]; done) | split | simp only [State.fixed_foldl, State.fixed_update] | with_reducible refine (Result.keeps_next _ _).2 ⟨?_, ?_⟩)))); (try (have hq : x.fixed.1 = s.fixed.1 := by (simp only [x]; (repeat' split) <;> simp [*, State.fixed_foldl, State.queue_foldl]))); try clear_value x) | with_reducible assumption | (intro s x hw) | with_reducible apply FixedOk.foldl | with_reducible apply State.dioImage_ok | with_reducible apply State.dioRefresh_ok | with_reducible apply State.grpFault_ok | (split) | (simp [*, State.fixed_foldl, State.queue_foldl]; done) | split | simp only [State.fixed_foldl, State.fixed_update] | with_reducible refine (Result.keeps_next _ _).2 ⟨?_, ?_⟩)

@[simp ↓] theorem State.grpLeave_queue (s : State) (f : Fld) : (s.grpLeave f).fixed.1 = s.fixed.1 := by
  simp [State.grpLeave, State.fixed_foldl, State.queue_foldl]

@[simp ↓] theorem State.grpLeave_ok {s : State} (hw : FixedOk s.fixed) (f : Fld) : FixedOk (s.grpLeave f).fixed := by
  unfold State.grpLeave
  repeat' (first | (extract_lets +onlyGivenNames x; (try (have hx : FixedOk x.fixed := by (simp only [x]; repeat' (first | with_reducible assumption | (intro s x hw) | with_reducible apply FixedOk.foldl | with_reducible apply State.dioImage_ok | with_reducible apply State.dioRefresh_ok | split | (simp [*, State.fixed_foldl, State.queue_foldl]; done) | split | simp only [State.fixed_foldl, State.fixed_update] | with_reducible refine (Result.keeps_next _ _).2 ⟨?_, ?_⟩)))); (try (have hq : x.fixed.1 = s.fixed.1 := by (simp only [x]; (repeat' split) <;> simp [*, State.fixed_foldl, State.queue_foldl]))); try clear_value x) | with_reducible assumption | (intro s x hw) | with_reducible apply FixedOk.foldl | with_reducible apply State.dioImage_ok | with_reducible apply State.dioRefresh_ok | (split) | (simp [*, State.fixed_foldl, State.queue_foldl]; done) | split | simp only [State.fixed_foldl, State.fixed_update] | with_reducible refine (Result.keeps_next _ _).2 ⟨?_, ?_⟩)

@[simp ↓] theorem execGroupUvSet_keeps {q} {s : State} (hq : s.fixed.1 = q) (hw : FixedOk s.fixed) (t : Nat) (g : Nat) : Result.keeps q (execGroupUvSet t g s) := by
  unfold execGroupUvSet
  repeat' (first | (extract_lets +onlyGivenNames x; (try (have hx : FixedOk x.fixed := by (simp only [x]; repeat' (first | with_reducible assumption | (intro s x hw) | with_reducible apply FixedOk.foldl | with_reducible apply State.at_ok | with_reducible apply State.grpEnter_ok | split | (simp [*, State.fixed_foldl, State.queue_foldl]; done) | split | simp only [State.fixed_foldl, State.fixed_update] | with_reducible refine (Result.keeps_next _ _).2 ⟨?_, ?_⟩)))); (try (have hq : x.fixed.1 = s.fixed.1 := by (simp only [x]; (repeat' split) <;> simp [*, State.fixed_foldl, State.queue_foldl]))); try clear_value x) | with_reducible assumption | (intro s x hw) | with_reducible apply FixedOk.foldl | with_reducible apply State.at_ok | with_reducible apply State.grpEnter_ok | (split) | (simp [*, State.fixed_foldl, State.queue_foldl]; done) | split | simp only [State.fixed_foldl, State.fixed_update] | with_reducible refine (Result.keeps_next _ _).2 ⟨?_, ?_⟩)

@[simp ↓] theorem execGroupUvClear_keeps {q} {s : State} (hq : s.fixed.1 = q) (hw : FixedOk s.fixed) (t : Nat) (g : Nat) : Result.keeps q (execGroupUvClear t g s) := by
  unfold execGroupUvClear
  repeat' (first | (extract_lets +onlyGivenNames x; (try (have hx : FixedOk x.fixed := by (simp only [x]; repeat' (first | with_reducible assumption | (intro s x hw) | with_reducible apply FixedOk.foldl | with_reducible apply State.at_ok | with_reducible apply State.grpLeave_ok | split | (simp [*, State.fixed_foldl, State.queue_foldl]; done) | split | simp only [State.fixed_foldl, State.fixed_update] | with_reducible refine (Result.keeps_next _ _).2 ⟨?_, ?_⟩)))); (try (have hq : x.fixed.1 = s.fixed.1 := by (simp only [x]; (repeat' split) <;> simp [*, State.fixed_foldl, State.queue_foldl]))); try clear_value x) | with_reducible assumption | (intro s x hw) | with_reducible apply FixedOk.foldl | with_reducible apply State.at_ok | with_reducible apply State.grpLeave_ok | (split) | (simp [*, State.fixed_foldl, State.queue_foldl]; done) | split | simp only [State.fixed_foldl, State.fixed_update] | with_reducible refine (Result.keeps_next _ _).2 ⟨?_, ?_⟩)

@[simp ↓] theorem execGroupOvSet_keeps {q} {s : State} (hq : s.fixed.1 = q) (hw : FixedOk s.fixed) (t : Nat) (g : Nat) : Result.keeps q (execGroupOvSet t g s) := by
  unfold execGroupOvSet
  repeat' (first | (extract_lets +onlyGivenNames x; (try (have hx : FixedOk x.fixed := by (simp only [x]; repeat' (first | with_reducible assumption | (intro s x hw) | with_reducible apply FixedOk.foldl | with_reducible apply State.at_ok | with_reducible apply State.grpEnter_ok | split | (simp [*, State.fixed_foldl, State.queue_foldl]; done) | split | simp only [State.fixed_foldl, State.fixed_update] | with_reducible refine (Result.keeps_next _ _).2 ⟨?_, ?_⟩)))); (try (have hq : x.fixed.1 = s.fixed.1 := by (simp only [x]; (repeat' split) <;> simp [*, State.fixed_foldl, State.queue_foldl]))); try clear_value x) | with_reducible assumption | (intro s x hw) | with_reducible apply FixedOk.foldl | with_reducible apply State.at_ok | with_reducible apply State.grpEnter_ok | (split) | (simp [*, State.fixed_foldl, State.queue_foldl]; done) | split | simp only [State.fixed_foldl, State.fixed_update] | with_reducible refine (Result.keeps_next _ _).2 ⟨?_, ?_⟩)

@[simp ↓] theorem execGroupOvClear_keeps {q} {s : State} (hq : s.fixed.1 = q) (hw : FixedOk s.fixed) (t : Nat) (g : Nat) : Result.keeps q (execGroupOvClear t g s) := by
  unfold execGroupOvClear
  repeat' (first | (extract_lets +onlyGivenNames x; (try (have hx : FixedOk x.fixed := by (simp only [x]; repeat' (first | with_reducible assumption | (intro s x hw) | with_reducible apply FixedOk.foldl | with_reducible apply State.at_ok | with_reducible apply State.grpLeave_ok | split | (simp [*, State.fixed_foldl, State.queue_foldl]; done) | split | simp only [State.fixed_foldl, State.fixed_update] | with_reducible refine (Result.keeps_next _ _).2 ⟨?_, ?_⟩)))); (try (have hq : x.fixed.1 = s.fixed.1 := by (simp only [x]; (repeat' split) <;> simp [*, State.fixed_foldl, State.queue_foldl]))); try clear_value x) | with_reducible assumption | (intro s x hw) | with_reducible apply FixedOk.foldl | with_reducible apply State.at_ok | with_reducible apply State.grpLeave_ok | (split) | (simp [*, State.fixed_foldl, State.queue_foldl]; done) | split | simp only [State.fixed_foldl, State.fixed_update] | with_reducible refine (Result.keeps_next _ _).2 ⟨?_, ?_⟩)

@[simp ↓] theorem execGroupOvcSet_keeps {q} {s : State} (hq : s.fixed.1 = q) (hw : FixedOk s.fixed) (t : Nat) (g : Nat) : Result.keeps q (execGroupOvcSet t g s) := by
  unfold execGroupOvcSet
  repeat' (first | (extract_lets +onlyGivenNames x; (try (have hx : FixedOk x.fixed := by (simp only [x]; repeat' (first | with_reducible assumption | (intro s x hw) | with_reducible apply FixedOk.foldl | with_reducible apply State.at_ok | with_reducible apply State.grpEnter_ok | split | (simp [*, State.fixed_foldl, State.queue_foldl]; done) | split | simp only [State.fixed_foldl, State.fixed_update] | with_reducible refine (Result.keeps_next _ _).2 ⟨?_, ?_⟩)))); (try (have hq : x.fixed.1 = s.fixed.1 := by (simp only [x]; (repeat' split) <;> simp [*, State.fixed_foldl, State.queue_foldl]))); try clear_value x) | with_reducible assumption | (intro s x hw) | with_reducible apply FixedOk.foldl | with_reducible apply State.at_ok | with_reducible apply State.grpEnter_ok | (split) | (simp [*, State.fixed_foldl, State.queue_foldl]; done) | split | simp only [State.fixed_foldl, State.fixed_update] | with_reducible refine (Result.keeps_next _ _).2 ⟨?_, ?_⟩)

@[simp ↓] theorem execGroupOvcEnd_keeps {q} {s : State} (hq : s.fixed.1 = q) (hw : FixedOk s.fixed) (t : Nat) (g : Nat) : Result.keeps q (execGroupOvcEnd t g s) := by
  unfold execGroupOvcEnd
  repeat' (first | (extract_lets +onlyGivenNames x; (try (have hx : FixedOk x.fixed := by (simp only [x]; repeat' (first | with_reducible assumption | (intro s x hw) | with_reducible apply FixedOk.foldl | with_reducible apply State.at_ok | with_reducible apply State.grpLeave_ok | split | (simp [*, State.fixed_foldl, State.queue_foldl]; done) | split | simp only [State.fixed_foldl, State.fixed_update] | with_reducible refine (Result.keeps_next _ _).2 ⟨?_, ?_⟩)))); (try (have hq : x.fixed.1 = s.fixed.1 := by (simp only [x]; (repeat' split) <;> simp [*, State.fixed_foldl, State.queue_foldl]))); try clear_value x) | with_reducible assumption | (intro s x hw) | with_reducible apply FixedOk.foldl | with_reducible apply State.at_ok | with_reducible apply State.grpLeave_ok | (split) | (simp [*, State.fixed_foldl, State.queue_foldl]; done) | split | simp only [State.fixed_foldl, State.fixed_update] | with_reducible refine (Result.keeps_next _ _).2 ⟨?_, ?_⟩)

@[simp ↓] theorem execReadbackMismatch_keeps {q} {s : State} (hq : s.fixed.1 = q) (hw : FixedOk s.fixed) (t : Nat) (ch : Nat) (level : Bool) : Result.keeps q (execReadbackMismatch t ch level s) := by
  unfold execReadbackMismatch
  repeat' (first | (extract_lets +onlyGivenNames x; (try (have hx : FixedOk x.fixed := by (simp only [x]; repeat' (first | with_reducible assumption | (intro s x hw) | with_reducible apply FixedOk.foldl | with_reducible apply State.dioImage_ok | with_reducible apply State.dioRefresh_ok | with_reducible apply State.at_ok | with_reducible apply State.stuck_ok | split | (simp [*, State.fixed_foldl, State.queue_foldl]; done) | split | simp only [State.fixed_foldl, State.fixed_update] | with_reducible refine (Result.keeps_next _ _).2 ⟨?_, ?_⟩)))); (try (have hq : x.fixed.1 = s.fixed.1 := by (simp only [x]; (repeat' split) <;> simp [*, State.fixed_foldl, State.queue_foldl]))); try clear_value x) | with_reducible assumption | (intro s x hw) | with_reducible apply FixedOk.foldl | with_reducible apply State.dioImage_ok | with_reducible apply State.dioRefresh_ok | with_reducible apply State.at_ok | with_reducible apply State.stuck_ok | (split) | (simp [*, State.fixed_foldl, State.queue_foldl]; done) | split | simp only [State.fixed_foldl, State.fixed_update] | with_reducible refine (Result.keeps_next _ _).2 ⟨?_, ?_⟩)

@[simp ↓] theorem execGroupSwitchTest_keeps {q} {s : State} (hq : s.fixed.1 = q) (hw : FixedOk s.fixed) (t : Nat) (g : Nat) (fell : Bool) : Result.keeps q (execGroupSwitchTest t g fell s) := by
  unfold execGroupSwitchTest
  repeat' (first | (extract_lets +onlyGivenNames x; (try (have hx : FixedOk x.fixed := by (simp only [x]; repeat' (first | with_reducible assumption | (intro s x hw) | with_reducible apply FixedOk.foldl | with_reducible apply State.dioImage_ok | with_reducible apply State.dioRefresh_ok | with_reducible apply State.at_ok | with_reducible apply State.grpFault_ok | split | (simp [*, State.fixed_foldl, State.queue_foldl]; done) | split | simp only [State.fixed_foldl, State.fixed_update] | with_reducible refine (Result.keeps_next _ _).2 ⟨?_, ?_⟩)))); (try (have hq : x.fixed.1 = s.fixed.1 := by (simp only [x]; (repeat' split) <;> simp [*, State.fixed_foldl, State.queue_foldl]))); try clear_value x) | with_reducible assumption | (intro s x hw) | with_reducible apply FixedOk.foldl | with_reducible apply State.dioImage_ok | with_reducible apply State.dioRefresh_ok | with_reducible apply State.at_ok | with_reducible apply State.grpFault_ok | (split) | (simp [*, State.fixed_foldl, State.queue_foldl]; done) | split | simp only [State.fixed_foldl, State.fixed_update] | with_reducible refine (Result.keeps_next _ _).2 ⟨?_, ?_⟩)

@[simp ↓] theorem execTripSilence_keeps {q} {s : State} (hq : s.fixed.1 = q) (hw : FixedOk s.fixed) (t : Nat) : Result.keeps q (execTripSilence t s) := by
  unfold execTripSilence
  repeat' (first | (extract_lets +onlyGivenNames x; (try (have hx : FixedOk x.fixed := by (simp only [x]; repeat' (first | with_reducible assumption | (intro s x hw) | with_reducible apply FixedOk.foldl | with_reducible apply State.dioRefresh_ok | with_reducible apply State.at_ok | split | (simp [*, State.fixed_foldl, State.queue_foldl]; done) | split | simp only [State.fixed_foldl, State.fixed_update] | with_reducible refine (Result.keeps_next _ _).2 ⟨?_, ?_⟩)))); (try (have hq : x.fixed.1 = s.fixed.1 := by (simp only [x]; (repeat' split) <;> simp [*, State.fixed_foldl, State.queue_foldl]))); try clear_value x) | with_reducible assumption | (intro s x hw) | with_reducible apply FixedOk.foldl | with_reducible apply State.dioRefresh_ok | with_reducible apply State.at_ok | (split) | (simp [*, State.fixed_foldl, State.queue_foldl]; done) | split | simp only [State.fixed_foldl, State.fixed_update] | with_reducible refine (Result.keeps_next _ _).2 ⟨?_, ?_⟩)

@[simp ↓] theorem execDarkTestStart_keeps {q} {s : State} (hq : s.fixed.1 = q) (hw : FixedOk s.fixed) (t : Nat) (ch : Nat) : Result.keeps q (execDarkTestStart t ch s) := by
  unfold execDarkTestStart
  repeat' (first | (extract_lets +onlyGivenNames x; (try (have hx : FixedOk x.fixed := by (simp only [x]; repeat' (first | with_reducible assumption | (intro s x hw) | with_reducible apply FixedOk.foldl | with_reducible apply State.dioRefresh_ok | with_reducible apply State.at_ok | split | (simp [*, State.fixed_foldl, State.queue_foldl]; done) | split | simp only [State.fixed_foldl, State.fixed_update] | with_reducible refine (Result.keeps_next _ _).2 ⟨?_, ?_⟩)))); (try (have hq : x.fixed.1 = s.fixed.1 := by (simp only [x]; (repeat' split) <;> simp [*, State.fixed_foldl, State.queue_foldl]))); try clear_value x) | with_reducible assumption | (intro s x hw) | with_reducible apply FixedOk.foldl | with_reducible apply State.dioRefresh_ok | with_reducible apply State.at_ok | (split) | (simp [*, State.fixed_foldl, State.queue_foldl]; done) | split | simp only [State.fixed_foldl, State.fixed_update] | with_reducible refine (Result.keeps_next _ _).2 ⟨?_, ?_⟩)

@[simp ↓] theorem execLightTestStart_keeps {q} {s : State} (hq : s.fixed.1 = q) (hw : FixedOk s.fixed) (t : Nat) (ch : Nat) : Result.keeps q (execLightTestStart t ch s) := by
  unfold execLightTestStart
  repeat' (first | (extract_lets +onlyGivenNames x; (try (have hx : FixedOk x.fixed := by (simp only [x]; repeat' (first | with_reducible assumption | (intro s x hw) | with_reducible apply FixedOk.foldl | with_reducible apply State.dioRefresh_ok | with_reducible apply State.at_ok | split | (simp [*, State.fixed_foldl, State.queue_foldl]; done) | split | simp only [State.fixed_foldl, State.fixed_update] | with_reducible refine (Result.keeps_next _ _).2 ⟨?_, ?_⟩)))); (try (have hq : x.fixed.1 = s.fixed.1 := by (simp only [x]; (repeat' split) <;> simp [*, State.fixed_foldl, State.queue_foldl]))); try clear_value x) | with_reducible assumption | (intro s x hw) | with_reducible apply FixedOk.foldl | with_reducible apply State.dioRefresh_ok | with_reducible apply State.at_ok | (split) | (simp [*, State.fixed_foldl, State.queue_foldl]; done) | split | simp only [State.fixed_foldl, State.fixed_update] | with_reducible refine (Result.keeps_next _ _).2 ⟨?_, ?_⟩)

@[simp ↓] theorem execTestPulseEnd_keeps {q} {s : State} (hq : s.fixed.1 = q) (hw : FixedOk s.fixed) (t : Nat) (ch : Nat) (a : Bool) (b : Bool) : Result.keeps q (execTestPulseEnd t ch a b s) := by
  unfold execTestPulseEnd
  repeat' (first | (extract_lets +onlyGivenNames x; (try (have hx : FixedOk x.fixed := by (simp only [x]; repeat' (first | with_reducible assumption | (intro s x hw) | with_reducible apply FixedOk.foldl | with_reducible apply State.dioImage_ok | with_reducible apply State.dioRefresh_ok | with_reducible apply State.at_ok | with_reducible apply State.chanFault_ok | split | (simp [*, State.fixed_foldl, State.queue_foldl]; done) | split | simp only [State.fixed_foldl, State.fixed_update] | with_reducible refine (Result.keeps_next _ _).2 ⟨?_, ?_⟩)))); (try (have hq : x.fixed.1 = s.fixed.1 := by (simp only [x]; (repeat' split) <;> simp [*, State.fixed_foldl, State.queue_foldl]))); try clear_value x) | with_reducible assumption | (intro s x hw) | with_reducible apply FixedOk.foldl | with_reducible apply State.dioImage_ok | with_reducible apply State.dioRefresh_ok | with_reducible apply State.at_ok | with_reducible apply State.chanFault_ok | (split) | (simp [*, State.fixed_foldl, State.queue_foldl]; done) | split | simp only [State.fixed_foldl, State.fixed_update] | with_reducible refine (Result.keeps_next _ _).2 ⟨?_, ?_⟩)

@[simp ↓] theorem execChannelFaultClear_keeps {q} {s : State} (hq : s.fixed.1 = q) (hw : FixedOk s.fixed) (t : Nat) (ch : Nat) : Result.keeps q (execChannelFaultClear t ch s) := by
  unfold execChannelFaultClear
  repeat' (first | (extract_lets +onlyGivenNames x; (try (have hx : FixedOk x.fixed := by (simp only [x]; repeat' (first | with_reducible assumption | (intro s x hw) | with_reducible apply FixedOk.foldl | with_reducible apply State.dioImage_ok | with_reducible apply State.dioRefresh_ok | with_reducible apply State.at_ok | with_reducible apply State.chanFault_ok | with_reducible apply State.stuck_ok | split | (simp [*, State.fixed_foldl, State.queue_foldl]; done) | split | simp only [State.fixed_foldl, State.fixed_update] | with_reducible refine (Result.keeps_next _ _).2 ⟨?_, ?_⟩)))); (try (have hq : x.fixed.1 = s.fixed.1 := by (simp only [x]; (repeat' split) <;> simp [*, State.fixed_foldl, State.queue_foldl]))); try clear_value x) | with_reducible assumption | (intro s x hw) | with_reducible apply FixedOk.foldl | with_reducible apply State.dioImage_ok | with_reducible apply State.dioRefresh_ok | with_reducible apply State.at_ok | with_reducible apply State.chanFault_ok | with_reducible apply State.stuck_ok | (split) | (simp [*, State.fixed_foldl, State.queue_foldl]; done) | split | simp only [State.fixed_foldl, State.fixed_update] | with_reducible refine (Result.keeps_next _ _).2 ⟨?_, ?_⟩)

end Sys2Proof.Machine
end

