-- ==== Sys2Proof/Laws/CrcEngines.lean ====
section
/-! SUPPORT. Laws/CrcEngines.lean: what the operations of Machine/CrcEngines.lean leave alone. -/
set_option linter.all false
namespace Sys2Proof.Machine

@[simp ↓] theorem State.setEng_fixed (s : State) (e : Nat) (x : CrcEng) : (s.setEng e x).fixed = s.fixed := by
  unfold State.setEng
  repeat' (first | (extract_lets +onlyGivenNames x; (try (have hx : x.fixed = s.fixed := by (simp only [x]; (repeat' split) <;> simp [*, State.fixed_foldl]))); try clear_value x) | (split) | (simp [*, State.fixed_foldl]; done))

@[simp ↓] theorem State.setVal_fixed (s : State) (e : Nat) (v : Nat) : (s.setVal e v).fixed = s.fixed := by
  unfold State.setVal
  repeat' (first | (extract_lets +onlyGivenNames x; (try (have hx : x.fixed = s.fixed := by (simp only [x]; (repeat' split) <;> simp [*, State.fixed_foldl]))); try clear_value x) | (split) | (simp [*, State.fixed_foldl]; done))

@[simp ↓] theorem State.foldVal_fixed (s : State) (e : Nat) (bs : List Byte) : (s.foldVal e bs).fixed = s.fixed := by
  simp [State.foldVal, State.fixed_foldl]

theorem State.crcGate_fixed {s : State} {who : Initiator} {e : Nat} {f : State → State} (h : ∀ s, (f s).fixed = s.fixed) :
    (s.crcGate who e f).fixed = s.fixed := by
  have g := State.gate_fixed s who (Reg.CRC_CFG.POLY e).addr false true
  unfold State.crcGate
  split
  · rename_i e1
    rw [e1] at g
    exact g
  · rename_i e1
    rw [e1] at g
    rw [h]
    exact g

@[simp ↓] theorem State.crcFeed_fixed (s : State) (e : Nat) (bs : List Byte) : (s.crcFeed e bs).fixed = s.fixed := by
  simp [State.crcFeed, State.fixed_foldl]

@[simp ↓] theorem State.crcSetVal_fixed (s : State) (e : Nat) (v : Nat) : (s.crcSetVal e v).fixed = s.fixed := by
  simp [State.crcSetVal, State.fixed_foldl]

@[simp ↓] theorem State.crcInit_fixed (s : State) (e : Nat) : (s.crcInit e).fixed = s.fixed := by
  simp [State.crcInit, State.fixed_foldl]

@[simp ↓] theorem State.crcJob_fixed (s : State) (e : Nat) : (s.crcJob e).fixed = s.fixed := by
  unfold State.crcJob
  repeat' (first | (extract_lets +onlyGivenNames x; (try (have hx : x.fixed = s.fixed := by (simp only [x]; (repeat' split) <;> simp [*, State.fixed_foldl]))); try clear_value x) | (split) | (simp [*, State.fixed_foldl]; done))

@[simp ↓] theorem State.crcSave_fixed (s : State) (e : Nat) (k : Nat) : (s.crcSave e k).fixed = s.fixed := by
  unfold State.crcSave
  repeat' (first | (extract_lets +onlyGivenNames x; (try (have hx : x.fixed = s.fixed := by (simp only [x]; (repeat' split) <;> simp [*, State.fixed_foldl]))); try clear_value x) | (split) | (simp [*, State.fixed_foldl]; done))

@[simp ↓] theorem State.crcLoad_fixed (s : State) (e : Nat) (k : Nat) : (s.crcLoad e k).fixed = s.fixed := by
  unfold State.crcLoad
  repeat' (first | (extract_lets +onlyGivenNames x; (try (have hx : x.fixed = s.fixed := by (simp only [x]; (repeat' split) <;> simp [*, State.fixed_foldl]))); try clear_value x) | (split) | (simp [*, State.fixed_foldl]; done))

@[simp ↓] theorem State.crcConfig_fixed (s : State) (e : Nat) (cfg : Nat) (folded : Nat) : (s.crcConfig e cfg folded).fixed = s.fixed := by
  unfold State.crcConfig
  repeat' (first | (extract_lets +onlyGivenNames x; (try (have hx : x.fixed = s.fixed := by (simp only [x]; (repeat' split) <;> simp [*, State.fixed_foldl]))); try clear_value x) | (split) | (simp [*, State.fixed_foldl]; done))

@[simp ↓] theorem State.crcPush_fixed (s : State) (e : Nat) (res : Nat) (mark : Bool) : (s.crcPush e res mark).fixed = s.fixed := by
  unfold State.crcPush
  repeat' (first | (extract_lets +onlyGivenNames x; (try (have hx : x.fixed = s.fixed := by (simp only [x]; (repeat' split) <;> simp [*, State.fixed_foldl]))); try clear_value x) | (split) | (simp [*, State.fixed_foldl]; done))

@[simp ↓] theorem execCrcData_rests {fx} (s : State) (who : Initiator) (e : BitVec 3) (data : BitVec 32) (h : s.fixed = fx) : Result.rests fx (execCrcData who e data s) := by
  subst h
  simp [execCrcData, State.fixed_foldl, State.crcGate_fixed]

@[simp ↓] theorem execCrcData64_rests {fx} (s : State) (who : Initiator) (e : BitVec 3) (data : BitVec 64) (h : s.fixed = fx) : Result.rests fx (execCrcData64 who e data s) := by
  subst h
  simp [execCrcData64, State.fixed_foldl, State.crcGate_fixed]

@[simp ↓] theorem execJob_rests {fx} (s : State) (who : Initiator) (e : BitVec 3) (h : s.fixed = fx) : Result.rests fx (execJob who e s) := by
  subst h
  simp [execJob, State.fixed_foldl, State.crcGate_fixed]

@[simp ↓] theorem execCrcJobDone_rests {fx} (s : State) (e : BitVec 3) (h : s.fixed = fx) : Result.rests fx (execCrcJobDone e s) := by
  subst h
  unfold execCrcJobDone
  repeat' (first | (extract_lets +onlyGivenNames x; (try (have hx : x.fixed = s.fixed := by (simp only [x]; (repeat' split) <;> simp [*, State.fixed_foldl]))); try clear_value x) | (split) | (simp [*, State.fixed_foldl]; done))

@[simp ↓] theorem execSave_rests {fx} (s : State) (who : Initiator) (e : BitVec 3) (k : BitVec 7) (h : s.fixed = fx) : Result.rests fx (execSave who e k s) := by
  subst h
  simp [execSave, State.fixed_foldl, State.crcGate_fixed]

@[simp ↓] theorem execLoad_rests {fx} (s : State) (who : Initiator) (e : BitVec 3) (k : BitVec 7) (h : s.fixed = fx) : Result.rests fx (execLoad who e k s) := by
  subst h
  simp [execLoad, State.fixed_foldl, State.crcGate_fixed]

@[simp ↓] theorem execCrcInit_rests {fx} (s : State) (who : Initiator) (e : BitVec 3) (h : s.fixed = fx) : Result.rests fx (execCrcInit who e s) := by
  subst h
  simp [execCrcInit, State.fixed_foldl, State.crcGate_fixed]

@[simp ↓] theorem execCrcValWrite_rests {fx} (s : State) (who : Initiator) (e : BitVec 3) (val : BitVec 64) (h : s.fixed = fx) : Result.rests fx (execCrcValWrite who e val s) := by
  subst h
  simp [execCrcValWrite, State.fixed_foldl, State.crcGate_fixed]

@[simp ↓] theorem execCrcCfgWrite_rests {fx} (s : State) (who : Initiator) (e : BitVec 3) (cfg : BitVec 32) (folded : Nat) (h : s.fixed = fx) : Result.rests fx (execCrcCfgWrite who e cfg folded s) := by
  subst h
  unfold execCrcCfgWrite
  repeat' (first | (extract_lets +onlyGivenNames x; (try (have hx : x.fixed = s.fixed := by (simp only [x]; (repeat' split) <;> simp [*, State.fixed_foldl, State.crcGate_fixed]))); try clear_value x) | (split) | (simp [*, State.fixed_foldl, State.crcGate_fixed]; done))

@[simp ↓] theorem State.crcFrameEnd_fixed (s : State) (e : Nat) (mark : Bool) : (s.crcFrameEnd e mark).fixed = s.fixed := by
  unfold State.crcFrameEnd
  repeat' (first | (extract_lets +onlyGivenNames x; (try (have hx : x.fixed = s.fixed := by (simp only [x]; (repeat' split) <;> simp [*, State.fixed_foldl]))); try clear_value x) | (split) | (simp [*, State.fixed_foldl]; done))

@[simp ↓] theorem State.crcFrame_fixed (s : State) (e : Nat) (data : List Byte) (addr : Option Nat) : (s.crcFrame e data addr).fixed = s.fixed := by
  unfold State.crcFrame
  repeat' (first | (extract_lets +onlyGivenNames x; (try (have hx : x.fixed = s.fixed := by (simp only [x]; (repeat' split) <;> simp [*, State.fixed_foldl]))); try clear_value x) | (split) | (simp [*, State.fixed_foldl]; done))

@[simp ↓] theorem State.streamFrame_fixed (s : State) (src : Nat) (key : Nat) (data : List Byte) (addr : Option Nat) : (s.streamFrame src key data addr).fixed = s.fixed := by
  simp [State.streamFrame, State.fixed_foldl]

@[simp ↓] theorem execSnoopFrameEnd_rests {fx} (s : State) (e : BitVec 3) (key : BitVec 16) (data : List Byte) (addr : BitVec 64) (fcs : Bool) (h : s.fixed = fx) : Result.rests fx (execSnoopFrameEnd e key data addr fcs s) := by
  subst h
  unfold execSnoopFrameEnd
  repeat' (first | (extract_lets +onlyGivenNames x; (try (have hx : x.fixed = s.fixed := by (simp only [x]; (repeat' split) <;> simp [*, State.fixed_foldl]))); try clear_value x) | (split) | (simp [*, State.fixed_foldl]; done))

end Sys2Proof.Machine
end

