-- ==== Sys2Proof/Laws/Ports.lean ====
section
/-! SUPPORT. Laws/Ports.lean: what the operations of Machine/Ports.lean leave alone. -/
set_option linter.all false
namespace Sys2Proof.Machine

@[simp ↓] theorem State.send_fixed (s : State) (port : Nat) (frame : List Byte) : (s.send port frame).fixed = s.fixed := by
  simp [State.send, State.fixed_foldl]

@[simp ↓] theorem State.setPort_fixed (s : State) (k : Nat) (q : List OutFrame) : (s.setPort k q).fixed = s.fixed := by
  unfold State.setPort
  repeat' (first | (extract_lets +onlyGivenNames x; (try (have hx : x.fixed = s.fixed := by (simp only [x]; (repeat' split) <;> simp [*, State.fixed_foldl]))); try clear_value x) | (split) | (simp [*, State.fixed_foldl]; done))

@[simp ↓] theorem State.expressOut_fixed (s : State) (l : Nat) (dn : Nat) (own : Bool) (bytes : List Byte) : (s.expressOut l dn own bytes).fixed = s.fixed := by
  unfold State.expressOut
  repeat' (first | (extract_lets +onlyGivenNames x; (try (have hx : x.fixed = s.fixed := by (simp only [x]; (repeat' split) <;> simp [*, State.fixed_foldl]))); try clear_value x) | (split) | (simp [*, State.fixed_foldl]; done))

@[simp ↓] theorem State.ownOut_fixed (s : State) (l : Nat) (dn : Nat) (at_ : Nat) (bytes : List Byte) : (s.ownOut l dn at_ bytes).fixed = s.fixed := by
  unfold State.ownOut
  repeat' (first | (extract_lets +onlyGivenNames x; (try (have hx : x.fixed = s.fixed := by (simp only [x]; (repeat' split) <;> simp [*, State.fixed_foldl]))); try clear_value x) | (split) | (simp [*, State.fixed_foldl]; done))

@[simp ↓] theorem State.forwardOut_fixed (s : State) (l : Nat) (dn : Nat) (bytes : List Byte) : (s.forwardOut l dn bytes).fixed = s.fixed := by
  unfold State.forwardOut
  repeat' (first | (extract_lets +onlyGivenNames x; (try (have hx : x.fixed = s.fixed := by (simp only [x]; (repeat' split) <;> simp [*, State.fixed_foldl]))); try clear_value x) | (split) | (simp [*, State.fixed_foldl]; done))

@[simp ↓] theorem State.laneOutOn_fixed (s : State) (l : Nat) (dn : Nat) (at_ : Nat) (stream : Nat) (frame : List Byte) : (s.laneOutOn l dn at_ stream frame).fixed = s.fixed := by
  simp [State.laneOutOn, State.fixed_foldl]

@[simp ↓] theorem State.laneOut_fixed (s : State) (l : Nat) (stream : Nat) (frame : List Byte) : (s.laneOut l stream frame).fixed = s.fixed := by
  unfold State.laneOut
  repeat' (first | (extract_lets +onlyGivenNames x; (try (have hx : x.fixed = s.fixed := by (simp only [x]; (repeat' split) <;> simp [*, State.fixed_foldl]))); try clear_value x) | (split) | (simp [*, State.fixed_foldl]; done))

@[simp ↓] theorem State.spokeOut_fixed (s : State) (l : Nat) (frame : List Byte) : (s.spokeOut l frame).fixed = s.fixed := by
  unfold State.spokeOut
  repeat' (first | (extract_lets +onlyGivenNames x; (try (have hx : x.fixed = s.fixed := by (simp only [x]; (repeat' split) <;> simp [*, State.fixed_foldl]))); try clear_value x) | (split) | (simp [*, State.fixed_foldl]; done))

end Sys2Proof.Machine
end

