-- ==== Sys2Proof/Laws/LoopOps.lean ====
section
/-! SUPPORT. Laws/LoopOps.lean: what the operations of Machine/LoopOps.lean leave alone. -/
set_option linter.all false
namespace Sys2Proof.Machine

@[simp ↓] theorem State.setLoop_fixed (s : State) (c : Nat) (l : Loop) : (s.setLoop c l).fixed = s.fixed := by
  simp [State.setLoop, State.fixed_foldl]

@[simp ↓] theorem State.loopUpdate_fixed (s : State) (c : Nat) : (s.loopUpdate c).fixed = s.fixed := by
  unfold State.loopUpdate
  repeat' (first | (extract_lets +onlyGivenNames x; (try (have hx : x.fixed = s.fixed := by (simp only [x]; (repeat' split) <;> simp [*, State.fixed_foldl]))); try clear_value x) | (split) | (simp [*, State.fixed_foldl]; done))

@[simp ↓] theorem State.loopRefresh_fixed (s : State) : (s.loopRefresh).fixed = s.fixed := by
  simp [State.loopRefresh, State.fixed_foldl]

@[simp ↓] theorem State.loopImage_queue (s : State) : (s.loopImage).fixed.1 = s.fixed.1 := by
  simp [State.loopImage, State.fixed_foldl, State.queue_foldl]

@[simp ↓] theorem State.loopImage_ok {s : State} (hw : FixedOk s.fixed) : FixedOk (s.loopImage).fixed := by
  unfold State.loopImage
  repeat' (first | (extract_lets +onlyGivenNames x; (try (have hx : FixedOk x.fixed := by (simp only [x]; repeat' (first | with_reducible assumption | (intro s x hw) | with_reducible apply FixedOk.foldl | with_reducible apply State.liveWrite_ok | split | (simp [*, State.fixed_foldl, State.queue_foldl]; done) | split | simp only [State.fixed_foldl, State.fixed_update] | with_reducible refine (Result.keeps_next _ _).2 ⟨?_, ?_⟩)))); (try (have hq : x.fixed.1 = s.fixed.1 := by (simp only [x]; (repeat' split) <;> simp [*, State.fixed_foldl, State.queue_foldl]))); try clear_value x) | with_reducible assumption | (intro s x hw) | with_reducible apply FixedOk.foldl | with_reducible apply State.liveWrite_ok | (split) | (simp [*, State.fixed_foldl, State.queue_foldl]; done) | split | simp only [State.fixed_foldl, State.fixed_update] | with_reducible refine (Result.keeps_next _ _).2 ⟨?_, ?_⟩)

@[simp ↓] theorem State.outputsRefresh_queue (s : State) : (s.outputsRefresh).fixed.1 = s.fixed.1 := by
  simp [State.outputsRefresh, State.fixed_foldl, State.queue_foldl]

@[simp ↓] theorem State.outputsRefresh_ok {s : State} (hw : FixedOk s.fixed) : FixedOk (s.outputsRefresh).fixed := by
  unfold State.outputsRefresh
  repeat' (first | (extract_lets +onlyGivenNames x; (try (have hx : FixedOk x.fixed := by (simp only [x]; repeat' (first | with_reducible assumption | (intro s x hw) | with_reducible apply FixedOk.foldl | with_reducible apply State.dioRefresh_ok | split | (simp [*, State.fixed_foldl, State.queue_foldl]; done) | split | simp only [State.fixed_foldl, State.fixed_update] | with_reducible refine (Result.keeps_next _ _).2 ⟨?_, ?_⟩)))); (try (have hq : x.fixed.1 = s.fixed.1 := by (simp only [x]; (repeat' split) <;> simp [*, State.fixed_foldl, State.queue_foldl]))); try clear_value x) | with_reducible assumption | (intro s x hw) | with_reducible apply FixedOk.foldl | with_reducible apply State.dioRefresh_ok | (split) | (simp [*, State.fixed_foldl, State.queue_foldl]; done) | split | simp only [State.fixed_foldl, State.fixed_update] | with_reducible refine (Result.keeps_next _ _).2 ⟨?_, ?_⟩)

@[simp ↓] theorem State.loopTake_fixed (s : State) (img : Nat → Byte) : (s.loopTake img).fixed = s.fixed := by
  unfold State.loopTake
  repeat' (first | (extract_lets +onlyGivenNames x; (try (have hx : x.fixed = s.fixed := by (simp only [x]; (repeat' split) <;> simp [*, State.fixed_foldl]))); try clear_value x) | (split) | (simp [*, State.fixed_foldl]; done))

@[simp ↓] theorem State.loopEdge_fixed (s : State) (c : Nat) (r : Nat) : (s.loopEdge c r).fixed = s.fixed := by
  unfold State.loopEdge
  repeat' (first | (extract_lets +onlyGivenNames x; (try (have hx : x.fixed = s.fixed := by (simp only [x]; (repeat' split) <;> simp [*, State.fixed_foldl]))); try clear_value x) | (split) | (simp [*, State.fixed_foldl]; done))

@[simp ↓] theorem State.loopTick_queue (s : State) (reads : List Nat) : (s.loopTick reads).fixed.1 = s.fixed.1 := by
  simp [State.loopTick, State.fixed_foldl, State.queue_foldl]

@[simp ↓] theorem State.loopTick_ok {s : State} (hw : FixedOk s.fixed) (reads : List Nat) : FixedOk (s.loopTick reads).fixed := by
  unfold State.loopTick
  repeat' (first | (extract_lets +onlyGivenNames x; (try (have hx : FixedOk x.fixed := by (simp only [x]; repeat' (first | with_reducible assumption | (intro s x hw) | with_reducible apply FixedOk.foldl | with_reducible apply State.loopImage_ok | split | (simp [*, State.fixed_foldl, State.queue_foldl]; done) | split | simp only [State.fixed_foldl, State.fixed_update] | with_reducible refine (Result.keeps_next _ _).2 ⟨?_, ?_⟩)))); (try (have hq : x.fixed.1 = s.fixed.1 := by (simp only [x]; (repeat' split) <;> simp [*, State.fixed_foldl, State.queue_foldl]))); try clear_value x) | with_reducible assumption | (intro s x hw) | with_reducible apply FixedOk.foldl | with_reducible apply State.loopImage_ok | (split) | (simp [*, State.fixed_foldl, State.queue_foldl]; done) | split | simp only [State.fixed_foldl, State.fixed_update] | with_reducible refine (Result.keeps_next _ _).2 ⟨?_, ?_⟩)

@[simp ↓] theorem State.loopHeal_fixed (s : State) (c : Nat) : (s.loopHeal c).fixed = s.fixed := by
  unfold State.loopHeal
  repeat' (first | (extract_lets +onlyGivenNames x; (try (have hx : x.fixed = s.fixed := by (simp only [x]; (repeat' split) <;> simp [*, State.fixed_foldl]))); try clear_value x) | (split) | (simp [*, State.fixed_foldl]; done))

@[simp ↓] theorem execLoopFault_keeps {q} {s : State} (hq : s.fixed.1 = q) (hw : FixedOk s.fixed) (t : Nat) (c : Nat) : Result.keeps q (execLoopFault t c s) := by
  unfold execLoopFault
  repeat' (first | (extract_lets +onlyGivenNames x; (try (have hx : FixedOk x.fixed := by (simp only [x]; repeat' (first | with_reducible assumption | (intro s x hw) | with_reducible apply FixedOk.foldl | with_reducible apply State.at_ok | split | (simp [*, State.fixed_foldl, State.queue_foldl]; done) | split | simp only [State.fixed_foldl, State.fixed_update] | with_reducible refine (Result.keeps_next _ _).2 ⟨?_, ?_⟩)))); (try (have hq : x.fixed.1 = s.fixed.1 := by (simp only [x]; (repeat' split) <;> simp [*, State.fixed_foldl, State.queue_foldl]))); try clear_value x) | with_reducible assumption | (intro s x hw) | with_reducible apply FixedOk.foldl | with_reducible apply State.at_ok | (split) | (simp [*, State.fixed_foldl, State.queue_foldl]; done) | split | simp only [State.fixed_foldl, State.fixed_update] | with_reducible refine (Result.keeps_next _ _).2 ⟨?_, ?_⟩)

@[simp ↓] theorem execLoopRetry_keeps {q} {s : State} (hq : s.fixed.1 = q) (hw : FixedOk s.fixed) (t : Nat) (who : Initiator) (mask : BitVec 4) : Result.keeps q (execLoopRetry t who mask s) := by
  unfold execLoopRetry
  repeat' (first | (extract_lets +onlyGivenNames x; (try (have hx : FixedOk x.fixed := by (simp only [x]; repeat' (first | with_reducible assumption | (intro s x hw) | with_reducible apply FixedOk.foldl | with_reducible apply State.at_ok | split | (simp [*, State.fixed_foldl, State.queue_foldl]; done) | split | simp only [State.fixed_foldl, State.fixed_update] | with_reducible refine (Result.keeps_next _ _).2 ⟨?_, ?_⟩)))); (try (have hq : x.fixed.1 = s.fixed.1 := by (simp only [x]; (repeat' split) <;> simp [*, State.fixed_foldl, State.queue_foldl]))); try clear_value x) | with_reducible assumption | (intro s x hw) | with_reducible apply FixedOk.foldl | with_reducible apply State.at_ok | (split <;> (try (have e1 := (congrArg (fun p => State.fixed (Prod.fst p)) ‹_ = ((_ : State), _)›).symm; simp [*] at e1)) <;> (try (have e1 := (congrArg (fun p => State.fixed (Prod.snd p)) ‹_ = (_, (_ : State))›).symm; simp [*] at e1))) | (simp [*, State.fixed_foldl, State.queue_foldl]; done) | split | simp only [State.fixed_foldl, State.fixed_update] | with_reducible refine (Result.keeps_next _ _).2 ⟨?_, ?_⟩)

@[simp ↓] theorem execLoopAutoRetry_keeps {q} {s : State} (hq : s.fixed.1 = q) (hw : FixedOk s.fixed) (t : Nat) (c : Nat) : Result.keeps q (execLoopAutoRetry t c s) := by
  unfold execLoopAutoRetry
  repeat' (first | (extract_lets +onlyGivenNames x; (try (have hx : FixedOk x.fixed := by (simp only [x]; repeat' (first | with_reducible assumption | (intro s x hw) | with_reducible apply FixedOk.foldl | with_reducible apply State.at_ok | split | (simp [*, State.fixed_foldl, State.queue_foldl]; done) | split | simp only [State.fixed_foldl, State.fixed_update] | with_reducible refine (Result.keeps_next _ _).2 ⟨?_, ?_⟩)))); (try (have hq : x.fixed.1 = s.fixed.1 := by (simp only [x]; (repeat' split) <;> simp [*, State.fixed_foldl, State.queue_foldl]))); try clear_value x) | with_reducible assumption | (intro s x hw) | with_reducible apply FixedOk.foldl | with_reducible apply State.at_ok | (split) | (simp [*, State.fixed_foldl, State.queue_foldl]; done) | split | simp only [State.fixed_foldl, State.fixed_update] | with_reducible refine (Result.keeps_next _ _).2 ⟨?_, ?_⟩)

@[simp ↓] theorem execLoopCompliance_rests {fx} (s : State) (c : Nat) (sat : Bool) (h : s.fixed = fx) : Result.rests fx (execLoopCompliance c sat s) := by
  subst h
  unfold execLoopCompliance
  repeat' (first | (extract_lets +onlyGivenNames x; (try (have hx : x.fixed = s.fixed := by (simp only [x]; (repeat' split) <;> simp [*, State.fixed_foldl]))); try clear_value x) | (split) | (simp [*, State.fixed_foldl]; done))

@[simp ↓] theorem execHartGo_keeps {q} {s : State} (hq : s.fixed.1 = q) (hw : FixedOk s.fixed) (t : Nat) (who : Initiator) (c : Nat) (len : Nat) : Result.keeps q (execHartGo t who c len s) := by
  unfold execHartGo
  repeat' (first | (extract_lets +onlyGivenNames x; (try (have hx : FixedOk x.fixed := by (simp only [x]; repeat' (first | with_reducible assumption | (intro s x hw) | with_reducible apply FixedOk.foldl | with_reducible apply State.at_ok | split | (simp [*, State.fixed_foldl, State.queue_foldl]; done) | split | simp only [State.fixed_foldl, State.fixed_update] | with_reducible refine (Result.keeps_next _ _).2 ⟨?_, ?_⟩)))); (try (have hq : x.fixed.1 = s.fixed.1 := by (simp only [x]; (repeat' split) <;> simp [*, State.fixed_foldl, State.queue_foldl]))); try clear_value x) | with_reducible assumption | (intro s x hw) | with_reducible apply FixedOk.foldl | with_reducible apply State.at_ok | (split <;> (try (have e1 := (congrArg (fun p => State.fixed (Prod.fst p)) ‹_ = ((_ : State), _)›).symm; simp [*] at e1)) <;> (try (have e1 := (congrArg (fun p => State.fixed (Prod.snd p)) ‹_ = (_, (_ : State))›).symm; simp [*] at e1))) | (simp [*, State.fixed_foldl, State.queue_foldl]; done) | split | simp only [State.fixed_foldl, State.fixed_update] | with_reducible refine (Result.keeps_next _ _).2 ⟨?_, ?_⟩)

@[simp ↓] theorem State.hartPush_fixed (s : State) (c : Nat) (e : HartByte) : (s.hartPush c e).fixed = s.fixed := by
  unfold State.hartPush
  repeat' (first | (extract_lets +onlyGivenNames x; (try (have hx : x.fixed = s.fixed := by (simp only [x]; (repeat' split) <;> simp [*, State.fixed_foldl]))); try clear_value x) | (split) | (simp [*, State.fixed_foldl]; done))

@[simp ↓] theorem execHartFrameRx_keeps {q} {s : State} (hq : s.fixed.1 = q) (hw : FixedOk s.fixed) (t : Nat) (c : Nat) (frame : List (Byte × Bool)) (burst : Bool) : Result.keeps q (execHartFrameRx t c frame burst s) := by
  unfold execHartFrameRx
  repeat' (first | (extract_lets +onlyGivenNames x; (try (have hx : FixedOk x.fixed := by (simp only [x]; repeat' (first | with_reducible assumption | (intro s x hw) | with_reducible apply FixedOk.foldl | with_reducible apply State.at_ok | split | (simp [*, State.fixed_foldl, State.queue_foldl]; done) | split | simp only [State.fixed_foldl, State.fixed_update] | with_reducible refine (Result.keeps_next _ _).2 ⟨?_, ?_⟩)))); (try (have hq : x.fixed.1 = s.fixed.1 := by (simp only [x]; (repeat' split) <;> simp [*, State.fixed_foldl, State.queue_foldl]))); try clear_value x) | with_reducible assumption | (intro s x hw) | with_reducible apply FixedOk.foldl | with_reducible apply State.at_ok | (split) | (simp [*, State.fixed_foldl, State.queue_foldl]; done) | split | simp only [State.fixed_foldl, State.fixed_update] | with_reducible refine (Result.keeps_next _ _).2 ⟨?_, ?_⟩)

@[simp ↓] theorem execHartTimeout_keeps {q} {s : State} (hq : s.fixed.1 = q) (hw : FixedOk s.fixed) (t : Nat) (c : Nat) : Result.keeps q (execHartTimeout t c s) := by
  unfold execHartTimeout
  repeat' (first | (extract_lets +onlyGivenNames x; (try (have hx : FixedOk x.fixed := by (simp only [x]; repeat' (first | with_reducible assumption | (intro s x hw) | with_reducible apply FixedOk.foldl | with_reducible apply State.at_ok | split | (simp [*, State.fixed_foldl, State.queue_foldl]; done) | split | simp only [State.fixed_foldl, State.fixed_update] | with_reducible refine (Result.keeps_next _ _).2 ⟨?_, ?_⟩)))); (try (have hq : x.fixed.1 = s.fixed.1 := by (simp only [x]; (repeat' split) <;> simp [*, State.fixed_foldl, State.queue_foldl]))); try clear_value x) | with_reducible assumption | (intro s x hw) | with_reducible apply FixedOk.foldl | with_reducible apply State.at_ok | (split) | (simp [*, State.fixed_foldl, State.queue_foldl]; done) | split | simp only [State.fixed_foldl, State.fixed_update] | with_reducible refine (Result.keeps_next _ _).2 ⟨?_, ?_⟩)

@[simp ↓] theorem execDriverRefreshLoss_keeps {q} {s : State} (hq : s.fixed.1 = q) (hw : FixedOk s.fixed) (t : Nat) (target : OutStage) : Result.keeps q (execDriverRefreshLoss t target s) := by
  unfold execDriverRefreshLoss
  repeat' (first | (extract_lets +onlyGivenNames x; (try (have hx : FixedOk x.fixed := by (simp only [x]; repeat' (first | with_reducible assumption | (intro s x hw) | with_reducible apply FixedOk.foldl | with_reducible apply State.dioRefresh_ok | with_reducible apply State.at_ok | split | (simp [*, State.fixed_foldl, State.queue_foldl]; done) | split | simp only [State.fixed_foldl, State.fixed_update] | with_reducible refine (Result.keeps_next _ _).2 ⟨?_, ?_⟩)))); (try (have hq : x.fixed.1 = s.fixed.1 := by (simp only [x]; (repeat' split) <;> simp [*, State.fixed_foldl, State.queue_foldl]))); try clear_value x) | with_reducible assumption | (intro s x hw) | with_reducible apply FixedOk.foldl | with_reducible apply State.dioRefresh_ok | with_reducible apply State.at_ok | (split) | (simp [*, State.fixed_foldl, State.queue_foldl]; done) | split | simp only [State.fixed_foldl, State.fixed_update] | with_reducible refine (Result.keeps_next _ _).2 ⟨?_, ?_⟩)

end Sys2Proof.Machine
end

