-- ==== Sys2Proof/Laws/ResetOps.lean ====
section
/-! SUPPORT. Laws/ResetOps.lean: what the operations of Machine/ResetOps.lean leave alone. -/
set_option linter.all false
namespace Sys2Proof.Machine

@[simp ↓] theorem State.cleared_queue (s : State) (k : ResetKind) : (s.cleared k).fixed.1 = s.fixed.1 := id rfl

/-- A reset keeps or drops whole bytes, so the canonical form stays. -/
@[simp ↓] theorem State.cleared_ok {s : State} (hw : FixedOk s.fixed) (k : ResetKind) : FixedOk (s.cleared k).fixed := by
  have e : ∀ n : Nv, (if k == .por then { n with tamperSeen := 0, bkupLost := false } else n).env0 = n.env0
      ∧ (if k == .por then { n with tamperSeen := 0, bkupLost := false } else n).env1 = n.env1
      ∧ (if k == .por then { n with tamperSeen := 0, bkupLost := false } else n).staging = n.staging := by
    intro n
    split <;> simp
  obtain ⟨e0, e1, e2⟩ := e s.nv
  unfold State.cleared
  exact ⟨Mem.wf_filter _ hw.1, fun c h => hw.2.1 c (e0.symm.trans h), fun c h => hw.2.2.1 c (e1.symm.trans h),
    (congrArg Mem.wf e2).trans hw.2.2.2⟩

@[simp ↓] theorem State.lastActs_queue (s : State) (old : Nat) : (s.lastActs old).fixed.1 = s.fixed.1 := by
  unfold State.lastActs
  repeat' (first | (extract_lets +onlyGivenNames x; (try (have hx : x.fixed.1 = s.fixed.1 := by (simp only [x]; (repeat' split) <;> simp [*, State.fixed_foldl, State.queue_foldl]))); try clear_value x) | (split) | (simp [*, State.fixed_foldl, State.queue_foldl]; done))

@[simp ↓] theorem State.lastActs_ok {s : State} (hw : FixedOk s.fixed) (old : Nat) : FixedOk (s.lastActs old).fixed := by
  unfold State.lastActs
  repeat' (first | (extract_lets +onlyGivenNames x; (try (have hx : FixedOk x.fixed := by (simp only [x]; repeat' (first | with_reducible assumption | (intro s x hw) | with_reducible apply FixedOk.foldl | with_reducible apply State.dropForces_ok | split | (simp [*, State.fixed_foldl, State.queue_foldl]; done) | split | simp only [State.fixed_foldl, State.fixed_update] | with_reducible refine (Result.keeps_next _ _).2 ⟨?_, ?_⟩)))); (try (have hq : x.fixed.1 = s.fixed.1 := by (simp only [x]; (repeat' split) <;> simp [*, State.fixed_foldl, State.queue_foldl]))); try clear_value x) | with_reducible assumption | (intro s x hw) | with_reducible apply FixedOk.foldl | with_reducible apply State.dropForces_ok | (split) | (simp [*, State.fixed_foldl, State.queue_foldl]; done) | split | simp only [State.fixed_foldl, State.fixed_update] | with_reducible refine (Result.keeps_next _ _).2 ⟨?_, ?_⟩)

@[simp ↓] theorem State.hardReset_queue (s : State) (k : ResetKind) (kind : Nat) (sub : Nat) : (s.hardReset k kind sub).fixed.1 = s.fixed.1 := by
  unfold State.hardReset
  repeat' (first | (extract_lets +onlyGivenNames x; (try (have hx : x.fixed.1 = s.fixed.1 := by (simp only [x]; (repeat' split) <;> simp [*, State.fixed_foldl, State.queue_foldl]))); try clear_value x) | (split) | (simp [*, State.fixed_foldl, State.queue_foldl]; done))

@[simp ↓] theorem State.hardReset_ok {s : State} (hw : FixedOk s.fixed) (k : ResetKind) (kind : Nat) (sub : Nat) : FixedOk (s.hardReset k kind sub).fixed := by
  unfold State.hardReset
  repeat' (first | (extract_lets +onlyGivenNames x; (try (have hx : FixedOk x.fixed := by (simp only [x]; repeat' (first | with_reducible assumption | (intro s x hw) | with_reducible apply FixedOk.foldl | with_reducible apply State.cleared_ok | with_reducible apply State.lastActs_ok | split | (simp [*, State.fixed_foldl, State.queue_foldl]; done) | split | simp only [State.fixed_foldl, State.fixed_update] | with_reducible refine (Result.keeps_next _ _).2 ⟨?_, ?_⟩)))); (try (have hq : x.fixed.1 = s.fixed.1 := by (simp only [x]; (repeat' split) <;> simp [*, State.fixed_foldl, State.queue_foldl]))); try clear_value x) | with_reducible assumption | (intro s x hw) | with_reducible apply FixedOk.foldl | with_reducible apply State.cleared_ok | with_reducible apply State.lastActs_ok | (split) | (simp [*, State.fixed_foldl, State.queue_foldl]; done) | split | simp only [State.fixed_foldl, State.fixed_update] | with_reducible refine (Result.keeps_next _ _).2 ⟨?_, ?_⟩)

@[simp ↓] theorem State.sysReset_queue (s : State) (sub : Nat) : (s.sysReset sub).fixed.1 = s.fixed.1 := by
  simp [State.sysReset, State.fixed_foldl, State.queue_foldl]

@[simp ↓] theorem State.sysReset_ok {s : State} (hw : FixedOk s.fixed) (sub : Nat) : FixedOk (s.sysReset sub).fixed := by
  unfold State.sysReset
  repeat' (first | (extract_lets +onlyGivenNames x; (try (have hx : FixedOk x.fixed := by (simp only [x]; repeat' (first | with_reducible assumption | (intro s x hw) | with_reducible apply FixedOk.foldl | with_reducible apply State.hardReset_ok | split | (simp [*, State.fixed_foldl, State.queue_foldl]; done) | split | simp only [State.fixed_foldl, State.fixed_update] | with_reducible refine (Result.keeps_next _ _).2 ⟨?_, ?_⟩)))); (try (have hq : x.fixed.1 = s.fixed.1 := by (simp only [x]; (repeat' split) <;> simp [*, State.fixed_foldl, State.queue_foldl]))); try clear_value x) | with_reducible assumption | (intro s x hw) | with_reducible apply FixedOk.foldl | with_reducible apply State.hardReset_ok | (split) | (simp [*, State.fixed_foldl, State.queue_foldl]; done) | split | simp only [State.fixed_foldl, State.fixed_update] | with_reducible refine (Result.keeps_next _ _).2 ⟨?_, ?_⟩)

@[simp ↓] theorem State.ownReset_queue (s : State) (sub : Nat) : (s.ownReset sub).fixed.1 = s.fixed.1 := by
  simp [State.ownReset, State.fixed_foldl, State.queue_foldl]

@[simp ↓] theorem State.ownReset_ok {s : State} (hw : FixedOk s.fixed) (sub : Nat) : FixedOk (s.ownReset sub).fixed := by
  unfold State.ownReset
  repeat' (first | (extract_lets +onlyGivenNames x; (try (have hx : FixedOk x.fixed := by (simp only [x]; repeat' (first | with_reducible assumption | (intro s x hw) | with_reducible apply FixedOk.foldl | with_reducible apply State.sysReset_ok | split | (simp [*, State.fixed_foldl, State.queue_foldl]; done) | split | simp only [State.fixed_foldl, State.fixed_update] | with_reducible refine (Result.keeps_next _ _).2 ⟨?_, ?_⟩)))); (try (have hq : x.fixed.1 = s.fixed.1 := by (simp only [x]; (repeat' split) <;> simp [*, State.fixed_foldl, State.queue_foldl]))); try clear_value x) | with_reducible assumption | (intro s x hw) | with_reducible apply FixedOk.foldl | with_reducible apply State.sysReset_ok | (split) | (simp [*, State.fixed_foldl, State.queue_foldl]; done) | split | simp only [State.fixed_foldl, State.fixed_update] | with_reducible refine (Result.keeps_next _ _).2 ⟨?_, ?_⟩)

@[simp ↓] theorem State.waitingReset_queue (s : State) : (s.waitingReset).fixed.1 = s.fixed.1 := by
  unfold State.waitingReset
  repeat' (first | (extract_lets +onlyGivenNames x; (try (have hx : x.fixed.1 = s.fixed.1 := by (simp only [x]; (repeat' split) <;> simp [*, State.fixed_foldl, State.queue_foldl]))); try clear_value x) | (split) | (simp [*, State.fixed_foldl, State.queue_foldl]; done) | (refine (State.fixed_foldl _ _ ?_ _).trans ?_) | (refine congrArg Prod.fst ((State.fixed_foldl _ _ ?_ _).trans ?_)) | (refine (State.queue_foldl _ _ ?_ _).trans ?_) | (intro s x) | simp [*])

@[simp ↓] theorem State.waitingReset_ok {s : State} (hw : FixedOk s.fixed) : FixedOk (s.waitingReset).fixed := by
  unfold State.waitingReset
  repeat' (first | (extract_lets +onlyGivenNames x; (try (have hx : FixedOk x.fixed := by (simp only [x]; repeat' (first | with_reducible assumption | (intro s x hw) | with_reducible apply FixedOk.foldl | with_reducible apply State.sysReset_ok | split | (simp [*, State.fixed_foldl, State.queue_foldl]; done) | split | simp only [State.fixed_foldl, State.fixed_update] | with_reducible refine (Result.keeps_next _ _).2 ⟨?_, ?_⟩)))); (try (have hq : x.fixed.1 = s.fixed.1 := by (simp only [x]; (repeat' split) <;> simp [*, State.fixed_foldl, State.queue_foldl]))); try clear_value x) | with_reducible assumption | (intro s x hw) | with_reducible apply FixedOk.foldl | with_reducible apply State.sysReset_ok | (split) | (simp [*, State.fixed_foldl, State.queue_foldl]; done) | split | simp only [State.fixed_foldl, State.fixed_update] | with_reducible refine (Result.keeps_next _ _).2 ⟨?_, ?_⟩)

end Sys2Proof.Machine
end

