-- ==== Sys2Proof/Laws/SafeOps.lean ====
section
/-! SUPPORT. Laws/SafeOps.lean: what the operations of Machine/SafeOps.lean leave alone. -/
set_option linter.all false
namespace Sys2Proof.Machine

@[simp ↓] theorem State.setSess_fixed (s : State) (n : Nat) (x : Sess) : (s.setSess n x).fixed = s.fixed := by
  simp [State.setSess, State.fixed_foldl]

@[simp ↓] theorem State.safeCount_fixed (s : State) : (s.safeCount).fixed = s.fixed := by
  unfold State.safeCount
  repeat' (first | (extract_lets +onlyGivenNames x; (try (have hx : x.fixed = s.fixed := by (simp only [x]; (repeat' split) <;> simp [*, State.fixed_foldl]))); try clear_value x) | (split) | (simp [*, State.fixed_foldl]; done))

@[simp ↓] theorem State.safeDeliver_queue (s : State) (n : Nat) : (s.safeDeliver n).fixed.1 = s.fixed.1 := by
  unfold State.safeDeliver
  repeat' (first | (extract_lets +onlyGivenNames x; (try (have hx : x.fixed.1 = s.fixed.1 := by (simp only [x]; (repeat' split) <;> simp [*, State.fixed_foldl, State.queue_foldl]))); try clear_value x) | (split) | (simp [*, State.fixed_foldl, State.queue_foldl]; done))

@[simp ↓] theorem State.safeDeliver_ok {s : State} (hw : FixedOk s.fixed) (n : Nat) : FixedOk (s.safeDeliver n).fixed := by
  unfold State.safeDeliver
  repeat' (first | (extract_lets +onlyGivenNames x; (try (have hx : FixedOk x.fixed := by (simp only [x]; repeat' (first | with_reducible assumption | (intro s x hw) | with_reducible apply FixedOk.foldl | with_reducible apply State.liveWrite_ok | split | (simp [*, State.fixed_foldl, State.queue_foldl]; done) | split | simp only [State.fixed_foldl, State.fixed_update] | with_reducible refine (Result.keeps_next _ _).2 ⟨?_, ?_⟩)))); (try (have hq : x.fixed.1 = s.fixed.1 := by (simp only [x]; (repeat' split) <;> simp [*, State.fixed_foldl, State.queue_foldl]))); try clear_value x) | with_reducible assumption | (intro s x hw) | with_reducible apply FixedOk.foldl | with_reducible apply State.liveWrite_ok | (split) | (simp [*, State.fixed_foldl, State.queue_foldl]; done) | split | simp only [State.fixed_foldl, State.fixed_update] | with_reducible refine (Result.keeps_next _ _).2 ⟨?_, ?_⟩)

@[simp ↓] theorem State.openSess_queue (s : State) (n : Nat) : (s.openSess n).fixed.1 = s.fixed.1 := by
  unfold State.openSess
  repeat' (first | (extract_lets +onlyGivenNames x; (try (have hx : x.fixed.1 = s.fixed.1 := by (simp only [x]; (repeat' split) <;> simp [*, State.fixed_foldl, State.queue_foldl]))); try clear_value x) | (split) | (simp [*, State.fixed_foldl, State.queue_foldl]; done))

@[simp ↓] theorem State.openSess_ok {s : State} (hw : FixedOk s.fixed) (n : Nat) : FixedOk (s.openSess n).fixed := by
  unfold State.openSess
  repeat' (first | (extract_lets +onlyGivenNames x; (try (have hx : FixedOk x.fixed := by (simp only [x]; repeat' (first | with_reducible assumption | (intro s x hw) | with_reducible apply FixedOk.foldl | with_reducible apply State.safeDeliver_ok | split | (simp [*, State.fixed_foldl, State.queue_foldl]; done) | split | simp only [State.fixed_foldl, State.fixed_update] | with_reducible refine (Result.keeps_next _ _).2 ⟨?_, ?_⟩)))); (try (have hq : x.fixed.1 = s.fixed.1 := by (simp only [x]; (repeat' split) <;> simp [*, State.fixed_foldl, State.queue_foldl]))); try clear_value x) | with_reducible assumption | (intro s x hw) | with_reducible apply FixedOk.foldl | with_reducible apply State.safeDeliver_ok | (split) | (simp [*, State.fixed_foldl, State.queue_foldl]; done) | split | simp only [State.fixed_foldl, State.fixed_update] | with_reducible refine (Result.keeps_next _ _).2 ⟨?_, ?_⟩)

@[simp ↓] theorem State.closeSess_queue (s : State) (n : Nat) : (s.closeSess n).fixed.1 = s.fixed.1 := by
  unfold State.closeSess
  repeat' (first | (extract_lets +onlyGivenNames x; (try (have hx : x.fixed.1 = s.fixed.1 := by (simp only [x]; (repeat' split) <;> simp [*, State.fixed_foldl, State.queue_foldl]))); try clear_value x) | (split) | (simp [*, State.fixed_foldl, State.queue_foldl]; done))

@[simp ↓] theorem State.closeSess_ok {s : State} (hw : FixedOk s.fixed) (n : Nat) : FixedOk (s.closeSess n).fixed := by
  unfold State.closeSess
  repeat' (first | (extract_lets +onlyGivenNames x; (try (have hx : FixedOk x.fixed := by (simp only [x]; repeat' (first | with_reducible assumption | (intro s x hw) | with_reducible apply FixedOk.foldl | with_reducible apply State.safeDeliver_ok | split | (simp [*, State.fixed_foldl, State.queue_foldl]; done) | split | simp only [State.fixed_foldl, State.fixed_update] | with_reducible refine (Result.keeps_next _ _).2 ⟨?_, ?_⟩)))); (try (have hq : x.fixed.1 = s.fixed.1 := by (simp only [x]; (repeat' split) <;> simp [*, State.fixed_foldl, State.queue_foldl]))); try clear_value x) | with_reducible assumption | (intro s x hw) | with_reducible apply FixedOk.foldl | with_reducible apply State.safeDeliver_ok | (split) | (simp [*, State.fixed_foldl, State.queue_foldl]; done) | split | simp only [State.fixed_foldl, State.fixed_update] | with_reducible refine (Result.keeps_next _ _).2 ⟨?_, ?_⟩)

@[simp ↓] theorem State.closeAll_queue (s : State) : s.closeAll.fixed.1 = s.fixed.1 := by
  simp [State.closeAll, State.queue_foldl]

@[simp ↓] theorem State.closeAll_ok {s : State} (hw : FixedOk s.fixed) : FixedOk s.closeAll.fixed := by
  have h : FixedOk ((List.range 128).foldl State.closeSess s).fixed := FixedOk.foldl _ _ (fun s x hw => State.closeSess_ok hw x) s hw
  simpa [State.closeAll] using h

end Sys2Proof.Machine
end

