-- ==== Sys2Proof/Laws/TwinOps.lean ====
section
/-! SUPPORT. Laws/TwinOps.lean: what the operations of Machine/TwinOps.lean leave alone. -/
set_option linter.all false
namespace Sys2Proof.Machine

@[simp ↓] theorem State.obey_fixed (s : State) (c : Nat) : (s.obey c).1.fixed = s.fixed := by
  unfold State.obey
  repeat' (first | (extract_lets +onlyGivenNames x; (try (have hx : x.fixed = s.fixed := by (simp only [x]; (repeat' split) <;> simp [*, State.fixed_foldl]))); try clear_value x) | (split <;> (try (have e1 := (congrArg (fun p => State.fixed (Prod.fst p)) ‹_ = ((_ : State), _)›).symm; simp [*] at e1)) <;> (try (have e1 := (congrArg (fun p => State.fixed (Prod.snd p)) ‹_ = (_, (_ : State))›).symm; simp [*] at e1))) | (simp [*, State.fixed_foldl]; done))

@[simp ↓] theorem State.demote_queue (s : State) : (s.demote).fixed.1 = s.fixed.1 := by
  unfold State.demote
  repeat' (first | (extract_lets +onlyGivenNames x; (try (have hx : x.fixed.1 = s.fixed.1 := by (simp only [x]; (repeat' split) <;> simp [*, State.fixed_foldl, State.queue_foldl]))); try clear_value x) | (split) | (simp [*, State.fixed_foldl, State.queue_foldl]; done))

@[simp ↓] theorem State.demote_ok {s : State} (hw : FixedOk s.fixed) : FixedOk (s.demote).fixed := by
  unfold State.demote
  repeat' (first | (extract_lets +onlyGivenNames x; (try (have hx : FixedOk x.fixed := by (simp only [x]; repeat' (first | with_reducible assumption | (intro s x hw) | with_reducible apply FixedOk.foldl | with_reducible apply State.enterMode_ok | split | (simp [*, State.fixed_foldl, State.queue_foldl]; done) | split | simp only [State.fixed_foldl, State.fixed_update] | with_reducible refine (Result.keeps_next _ _).2 ⟨?_, ?_⟩)))); (try (have hq : x.fixed.1 = s.fixed.1 := by (simp only [x]; (repeat' split) <;> simp [*, State.fixed_foldl, State.queue_foldl]))); try clear_value x) | with_reducible assumption | (intro s x hw) | with_reducible apply FixedOk.foldl | with_reducible apply State.enterMode_ok | (split) | (simp [*, State.fixed_foldl, State.queue_foldl]; done) | split | simp only [State.fixed_foldl, State.fixed_update] | with_reducible refine (Result.keeps_next _ _).2 ⟨?_, ?_⟩)

@[simp ↓] theorem State.seeClaim_queue (s : State) (c : Nat) : (s.seeClaim c).fixed.1 = s.fixed.1 := by
  unfold State.seeClaim
  repeat' (first | (extract_lets +onlyGivenNames x; (try (have hx : x.fixed.1 = s.fixed.1 := by (simp only [x]; (repeat' split) <;> simp [*, State.fixed_foldl, State.queue_foldl]))); try clear_value x) | (split) | (simp [*, State.fixed_foldl, State.queue_foldl]; done))

@[simp ↓] theorem State.seeClaim_ok {s : State} (hw : FixedOk s.fixed) (c : Nat) : FixedOk (s.seeClaim c).fixed := by
  unfold State.seeClaim
  repeat' (first | (extract_lets +onlyGivenNames x; (try (have hx : FixedOk x.fixed := by (simp only [x]; repeat' (first | with_reducible assumption | (intro s x hw) | with_reducible apply FixedOk.foldl | with_reducible apply State.demote_ok | split | (simp [*, State.fixed_foldl, State.queue_foldl]; done) | split | simp only [State.fixed_foldl, State.fixed_update] | with_reducible refine (Result.keeps_next _ _).2 ⟨?_, ?_⟩)))); (try (have hq : x.fixed.1 = s.fixed.1 := by (simp only [x]; (repeat' split) <;> simp [*, State.fixed_foldl, State.queue_foldl]))); try clear_value x) | with_reducible assumption | (intro s x hw) | with_reducible apply FixedOk.foldl | with_reducible apply State.demote_ok | (split) | (simp [*, State.fixed_foldl, State.queue_foldl]; done) | split | simp only [State.fixed_foldl, State.fixed_update] | with_reducible refine (Result.keeps_next _ _).2 ⟨?_, ?_⟩)

@[simp ↓] theorem State.ownSeen_fixed (s : State) (c : Nat) : (s.ownSeen c).fixed = s.fixed := by
  unfold State.ownSeen
  repeat' (first | (extract_lets +onlyGivenNames x; (try (have hx : x.fixed = s.fixed := by (simp only [x]; (repeat' split) <;> simp [*, State.fixed_foldl]))); try clear_value x) | (split) | (simp [*, State.fixed_foldl]; done))

@[simp ↓] theorem State.raiseClaim_fixed (s : State) : (s.raiseClaim).fixed = s.fixed := by
  unfold State.raiseClaim
  repeat' (first | (extract_lets +onlyGivenNames x; (try (have hx : x.fixed = s.fixed := by (simp only [x]; (repeat' split) <;> simp [*, State.fixed_foldl]))); try clear_value x) | (split) | (simp [*, State.fixed_foldl]; done))

@[simp ↓] theorem State.laneClaim_queue (s : State) (c : Nat) : (s.laneClaim c).fixed.1 = s.fixed.1 := by
  unfold State.laneClaim
  repeat' (first | (extract_lets +onlyGivenNames x; (try (have hx : x.fixed.1 = s.fixed.1 := by (simp only [x]; (repeat' split) <;> simp [*, State.fixed_foldl, State.queue_foldl]))); try clear_value x) | (split) | (simp [*, State.fixed_foldl, State.queue_foldl]; done))

@[simp ↓] theorem State.laneClaim_ok {s : State} (hw : FixedOk s.fixed) (c : Nat) : FixedOk (s.laneClaim c).fixed := by
  unfold State.laneClaim
  repeat' (first | (extract_lets +onlyGivenNames x; (try (have hx : FixedOk x.fixed := by (simp only [x]; repeat' (first | with_reducible assumption | (intro s x hw) | with_reducible apply FixedOk.foldl | with_reducible apply State.seeClaim_ok | split | (simp [*, State.fixed_foldl, State.queue_foldl]; done) | split | simp only [State.fixed_foldl, State.fixed_update] | with_reducible refine (Result.keeps_next _ _).2 ⟨?_, ?_⟩)))); (try (have hq : x.fixed.1 = s.fixed.1 := by (simp only [x]; (repeat' split) <;> simp [*, State.fixed_foldl, State.queue_foldl]))); try clear_value x) | with_reducible assumption | (intro s x hw) | with_reducible apply FixedOk.foldl | with_reducible apply State.seeClaim_ok | (split) | (simp [*, State.fixed_foldl, State.queue_foldl]; done) | split | simp only [State.fixed_foldl, State.fixed_update] | with_reducible refine (Result.keeps_next _ _).2 ⟨?_, ?_⟩)

@[simp ↓] theorem State.swapTry_fixed (s : State) (unready : Bool) : (s.swapTry unready).fixed = s.fixed := by
  simp [State.swapTry, State.fixed_foldl]

@[simp ↓] theorem State.partnerOwn_fixed (s : State) (own : Nat) : (s.partnerOwn own).fixed = s.fixed := by
  simp [State.partnerOwn, State.fixed_foldl]

end Sys2Proof.Machine
end

