-- ==== Sys2Proof/Laws/GwOps.lean ====
section
/-! SUPPORT. Laws/GwOps.lean: what the operations of Machine/GwOps.lean leave alone. -/
set_option linter.all false
namespace Sys2Proof.Machine

@[simp ↓] theorem State.setPd_fixed (s : State) (n : Nat) (x : Pd) : (s.setPd n x).fixed = s.fixed := by
  simp [State.setPd, State.fixed_foldl]

@[simp ↓] theorem State.setMvb_fixed (s : State) (n : Nat) (x : Mvb) : (s.setMvb n x).fixed = s.fixed := by
  simp [State.setMvb, State.fixed_foldl]

@[simp ↓] theorem State.gwAssemble_fixed (s : State) (kind idx len : Nat) (lane : Bool) :
    (s.gwAssemble kind idx len lane).2.fixed = s.fixed := by
  unfold State.gwAssemble
  refine foldl_keeps (fun (b : List Byte × State) => b.2.fixed = s.fixed) _ _ ?_ _ rfl
  intro b p hb
  refine foldl_keeps (fun (b : List Byte × State) => b.2.fixed = s.fixed) _ _ ?_ _ hb
  intro b d hb
  rcases e : s.gwValue p.2 lane with ⟨v, sat⟩
  simp only
  split
  · rw [State.inc_fixed]
    exact hb
  · exact hb

@[simp ↓] theorem State.gwField_queue (s : State) (e : GwEntry) (d : GwDest) : (s.gwField e d).1.fixed.1 = s.fixed.1 := by
  unfold State.gwField
  repeat' (first | (extract_lets +onlyGivenNames x; (try (have hx : x.fixed.1 = s.fixed.1 := by (simp only [x]; (repeat' split) <;> simp [*, State.fixed_foldl, State.queue_foldl]))); try clear_value x) | (split) | (simp [*, State.fixed_foldl, State.queue_foldl]; done))

@[simp ↓] theorem State.gwField_ok {s : State} (hw : FixedOk s.fixed) (e : GwEntry) (d : GwDest) : FixedOk (s.gwField e d).1.fixed := by
  unfold State.gwField
  repeat' (first | (extract_lets +onlyGivenNames x; (try (have hx : FixedOk x.fixed := by (simp only [x]; repeat' (first | with_reducible assumption | (intro s x hw) | with_reducible apply FixedOk.foldl | with_reducible apply State.liveWrite_ok | split | (simp [*, State.fixed_foldl, State.queue_foldl]; done) | split | simp only [State.fixed_foldl, State.fixed_update] | with_reducible refine (Result.keeps_next _ _).2 ⟨?_, ?_⟩)))); (try (have hq : x.fixed.1 = s.fixed.1 := by (simp only [x]; (repeat' split) <;> simp [*, State.fixed_foldl, State.queue_foldl]))); try clear_value x) | with_reducible assumption | (intro s x hw) | with_reducible apply FixedOk.foldl | with_reducible apply State.liveWrite_ok | (split) | (simp [*, State.fixed_foldl, State.queue_foldl]; done) | split | simp only [State.fixed_foldl, State.fixed_update] | with_reducible refine (Result.keeps_next _ _).2 ⟨?_, ?_⟩)

@[simp ↓] theorem State.gwToImage_queue (s : State) (n : Nat) (e : GwEntry) : (s.gwToImage n e).fixed.1 = s.fixed.1 := by
  unfold State.gwToImage
  extract_lets first
  have hf : first.1.fixed.1 = s.fixed.1 := by
    refine foldl_keeps (fun (acc : State × List (Nat × Nat)) => acc.1.fixed.1 = s.fixed.1) _ _ (fun acc d h => ?_) _ rfl
    have g := State.gwField_queue acc.1 e d
    rcases k : acc.1.gwField e d with ⟨s1, sat⟩
    rw [k] at g
    dsimp only at g ⊢
    split <;> simpa [h] using g
  clear_value first
  refine foldl_keeps (fun (acc : State × List (Nat × Nat)) => acc.1.fixed.1 = s.fixed.1) _ _ (fun acc p h => ?_) _ hf
  refine foldl_keeps (fun (acc : State × List (Nat × Nat)) => acc.1.fixed.1 = s.fixed.1) _ _ (fun acc x h => ?_) _ h
  split
  · simpa [h] using State.gwField_queue acc.1 p.2 x
  · exact h

@[simp ↓] theorem State.gwToImage_ok {s : State} (hw : FixedOk s.fixed) (n : Nat) (e : GwEntry) : FixedOk (s.gwToImage n e).fixed := by
  unfold State.gwToImage
  extract_lets first
  have hf : FixedOk first.1.fixed := by
    refine foldl_keeps (fun (acc : State × List (Nat × Nat)) => FixedOk acc.1.fixed) _ _ (fun acc d h => ?_) _ hw
    have g := State.gwField_ok h e d
    rcases k : acc.1.gwField e d with ⟨s1, sat⟩
    rw [k] at g
    dsimp only at g ⊢
    split <;> simpa using g
  clear_value first
  refine foldl_keeps (fun (acc : State × List (Nat × Nat)) => FixedOk acc.1.fixed) _ _ (fun acc p h => ?_) _ hf
  refine foldl_keeps (fun (acc : State × List (Nat × Nat)) => FixedOk acc.1.fixed) _ _ (fun acc x h => ?_) _ h
  split
  · exact State.gwField_ok h p.2 x
  · exact h

@[simp ↓] theorem State.gwArrived_queue (s : State) (kind : Nat) (idx : Nat) : (s.gwArrived kind idx).fixed.1 = s.fixed.1 := by
  simp [State.gwArrived, State.fixed_foldl, State.queue_foldl]

@[simp ↓] theorem State.gwArrived_ok {s : State} (hw : FixedOk s.fixed) (kind : Nat) (idx : Nat) : FixedOk (s.gwArrived kind idx).fixed := by
  unfold State.gwArrived
  repeat' (first | (extract_lets +onlyGivenNames x; (try (have hx : FixedOk x.fixed := by (simp only [x]; repeat' (first | with_reducible assumption | (intro s x hw) | with_reducible apply FixedOk.foldl | with_reducible apply State.gwToImage_ok | split | (simp [*, State.fixed_foldl, State.queue_foldl]; done) | split | simp only [State.fixed_foldl, State.fixed_update] | with_reducible refine (Result.keeps_next _ _).2 ⟨?_, ?_⟩)))); (try (have hq : x.fixed.1 = s.fixed.1 := by (simp only [x]; (repeat' split) <;> simp [*, State.fixed_foldl, State.queue_foldl]))); try clear_value x) | with_reducible assumption | (intro s x hw) | with_reducible apply FixedOk.foldl | with_reducible apply State.gwToImage_ok | (split) | (simp [*, State.fixed_foldl, State.queue_foldl]; done) | split | simp only [State.fixed_foldl, State.fixed_update] | with_reducible refine (Result.keeps_next _ _).2 ⟨?_, ?_⟩)

@[simp ↓] theorem State.gwMark_queue (s : State) (n : Nat) (e : GwEntry) : (s.gwMark n e).fixed.1 = s.fixed.1 := by
  unfold State.gwMark
  repeat' (first | (extract_lets +onlyGivenNames x; (try (have hx : x.fixed.1 = s.fixed.1 := by (simp only [x]; (repeat' split) <;> simp [*, State.fixed_foldl, State.queue_foldl]))); try clear_value x) | (split) | (simp [*, State.fixed_foldl, State.queue_foldl]; done))

@[simp ↓] theorem State.gwMark_ok {s : State} (hw : FixedOk s.fixed) (n : Nat) (e : GwEntry) : FixedOk (s.gwMark n e).fixed := by
  unfold State.gwMark
  repeat' (first | (extract_lets +onlyGivenNames x; (try (have hx : FixedOk x.fixed := by (simp only [x]; repeat' (first | with_reducible assumption | (intro s x hw) | with_reducible apply FixedOk.foldl | with_reducible apply State.gwToImage_ok | split | (simp [*, State.fixed_foldl, State.queue_foldl]; done) | split | simp only [State.fixed_foldl, State.fixed_update] | with_reducible refine (Result.keeps_next _ _).2 ⟨?_, ?_⟩)))); (try (have hq : x.fixed.1 = s.fixed.1 := by (simp only [x]; (repeat' split) <;> simp [*, State.fixed_foldl, State.queue_foldl]))); try clear_value x) | with_reducible assumption | (intro s x hw) | with_reducible apply FixedOk.foldl | with_reducible apply State.gwToImage_ok | (split) | (simp [*, State.fixed_foldl, State.queue_foldl]; done) | split | simp only [State.fixed_foldl, State.fixed_update] | with_reducible refine (Result.keeps_next _ _).2 ⟨?_, ?_⟩)

@[simp ↓] theorem State.gwTick_queue (s : State) : (s.gwTick).fixed.1 = s.fixed.1 := by
  unfold State.gwTick
  repeat' (first | (extract_lets +onlyGivenNames x; (try (have hx : x.fixed.1 = s.fixed.1 := by (simp only [x]; (repeat' split) <;> simp [*, State.fixed_foldl, State.queue_foldl]))); try clear_value x) | (split) | (simp [*, State.fixed_foldl, State.queue_foldl]; done))

@[simp ↓] theorem State.gwTick_ok {s : State} (hw : FixedOk s.fixed) : FixedOk (s.gwTick).fixed := by
  unfold State.gwTick
  repeat' (first | (extract_lets +onlyGivenNames x; (try (have hx : FixedOk x.fixed := by (simp only [x]; repeat' (first | with_reducible assumption | (intro s x hw) | with_reducible apply FixedOk.foldl | with_reducible apply State.liveWrite_ok | with_reducible apply State.gwMark_ok | split | (simp [*, State.fixed_foldl, State.queue_foldl]; done) | split | simp only [State.fixed_foldl, State.fixed_update] | with_reducible refine (Result.keeps_next _ _).2 ⟨?_, ?_⟩)))); (try (have hq : x.fixed.1 = s.fixed.1 := by (simp only [x]; (repeat' split) <;> simp [*, State.fixed_foldl, State.queue_foldl]))); try clear_value x) | with_reducible assumption | (intro s x hw) | with_reducible apply FixedOk.foldl | with_reducible apply State.liveWrite_ok | with_reducible apply State.gwMark_ok | (split) | (simp [*, State.fixed_foldl, State.queue_foldl]; done) | split | simp only [State.fixed_foldl, State.fixed_update] | with_reducible refine (Result.keeps_next _ _).2 ⟨?_, ?_⟩)

end Sys2Proof.Machine
end

