-- ==== Sys2Proof/Laws/Voter.lean ====
section
/-! SUPPORT. Laws/Voter.lean: what the operations of Machine/Voter.lean leave alone. -/
set_option linter.all false
namespace Sys2Proof.Machine

@[simp ↓] theorem State.loadTset_fixed (s : State) : (s.loadTset).fixed = s.fixed := by
  unfold State.loadTset
  repeat' (first | (extract_lets +onlyGivenNames x; (try (have hx : x.fixed = s.fixed := by (simp only [x]; (repeat' split) <;> simp [*, State.fixed_foldl]))); try clear_value x) | (split) | (simp [*, State.fixed_foldl]; done))

@[simp ↓] theorem State.deliver_fixed (s : State) (n : Nat) (last : Bool) : (s.deliver n last).fixed = s.fixed := by
  unfold State.deliver
  repeat' (first | (extract_lets +onlyGivenNames x; (try (have hx : x.fixed = s.fixed := by (simp only [x]; (repeat' split) <;> simp [*, State.fixed_foldl]))); try clear_value x) | (split) | (simp [*, State.fixed_foldl]; done))

@[simp ↓] theorem State.closeWindow_fixed (s : State) (n : Nat) (last : Bool) (value : Nat) : (s.closeWindow n last value).fixed = s.fixed := by
  unfold State.closeWindow
  repeat' (first | (extract_lets +onlyGivenNames x; (try (have hx : x.fixed = s.fixed := by (simp only [x]; (repeat' split) <;> simp [*, State.fixed_foldl]))); try clear_value x) | (split) | (simp [*, State.fixed_foldl]; done))

@[simp ↓] theorem State.unstall_fixed (s : State) (n : Nat) : (s.unstall n).fixed = s.fixed := by
  unfold State.unstall
  repeat' (first | (extract_lets +onlyGivenNames x; (try (have hx : x.fixed = s.fixed := by (simp only [x]; (repeat' split) <;> simp [*, State.fixed_foldl]))); try clear_value x) | (split) | (simp [*, State.fixed_foldl]; done))

@[simp ↓] theorem State.startCheck_queue (s : State) : (s.startCheck).fixed.1 = s.fixed.1 := by
  unfold State.startCheck
  repeat' (first | (extract_lets +onlyGivenNames x; (try (have hx : x.fixed.1 = s.fixed.1 := by (simp only [x]; (repeat' split) <;> simp [*, State.fixed_foldl, State.queue_foldl]))); try clear_value x) | (split) | (simp [*, State.fixed_foldl, State.queue_foldl]; done))

@[simp ↓] theorem State.startCheck_ok {s : State} (hw : FixedOk s.fixed) : FixedOk (s.startCheck).fixed := by
  unfold State.startCheck
  repeat' (first | (extract_lets +onlyGivenNames x; (try (have hx : FixedOk x.fixed := by (simp only [x]; repeat' (first | with_reducible assumption | (intro s x hw) | with_reducible apply FixedOk.foldl | with_reducible apply State.enterLockout_ok | split | (simp [*, State.fixed_foldl, State.queue_foldl]; done) | split | simp only [State.fixed_foldl, State.fixed_update] | with_reducible refine (Result.keeps_next _ _).2 ⟨?_, ?_⟩)))); (try (have hq : x.fixed.1 = s.fixed.1 := by (simp only [x]; (repeat' split) <;> simp [*, State.fixed_foldl, State.queue_foldl]))); try clear_value x) | with_reducible assumption | (intro s x hw) | with_reducible apply FixedOk.foldl | with_reducible apply State.enterLockout_ok | (split) | (simp [*, State.fixed_foldl, State.queue_foldl]; done) | split | simp only [State.fixed_foldl, State.fixed_update] | with_reducible refine (Result.keeps_next _ _).2 ⟨?_, ?_⟩)

@[simp ↓] theorem execOutputImageStore_keeps {q} {s : State} (hq : s.fixed.1 = q) (hw : FixedOk s.fixed) (t : Nat) (core : Nat) (off : Nat) (size : Nat) (data : BitVec 64) : Result.keeps q (execOutputImageStore t core off size data s) := by
  unfold execOutputImageStore
  repeat' (first | (extract_lets +onlyGivenNames x; (try (have hx : FixedOk x.fixed := by (simp only [x]; repeat' (first | with_reducible assumption | (intro s x hw) | with_reducible apply FixedOk.foldl | with_reducible apply State.imageStore_ok | with_reducible apply State.at_ok | split | (simp [*, State.fixed_foldl, State.queue_foldl]; done) | split | simp only [State.fixed_foldl, State.fixed_update] | with_reducible refine (Result.keeps_next _ _).2 ⟨?_, ?_⟩)))); (try (have hq : x.fixed.1 = s.fixed.1 := by (simp only [x]; (repeat' split) <;> simp [*, State.fixed_foldl, State.queue_foldl]))); try clear_value x) | with_reducible assumption | (intro s x hw) | with_reducible apply FixedOk.foldl | with_reducible apply State.imageStore_ok | with_reducible apply State.at_ok | (split) | (simp [*, State.fixed_foldl, State.queue_foldl]; done) | split | simp only [State.fixed_foldl, State.fixed_update] | with_reducible refine (Result.keeps_next _ _).2 ⟨?_, ?_⟩)

@[simp ↓] theorem execTchkWrite_keeps {q} {s : State} (hq : s.fixed.1 = q) (hw : FixedOk s.fixed) (t : Nat) (who : Initiator) (core : Nat) (acc : CsrAcc) : Result.keeps q (execTchkWrite t who core acc s) := by
  unfold execTchkWrite
  repeat' (first | (extract_lets +onlyGivenNames x; (try (have hx : FixedOk x.fixed := by (simp only [x]; repeat' (first | with_reducible assumption | (intro s x hw) | with_reducible apply FixedOk.foldl | with_reducible apply State.at_ok | split | (simp [*, State.fixed_foldl, State.queue_foldl]; done) | split | simp only [State.fixed_foldl, State.fixed_update] | with_reducible refine (Result.keeps_next _ _).2 ⟨?_, ?_⟩)))); (try (have hq : x.fixed.1 = s.fixed.1 := by (simp only [x]; (repeat' split) <;> simp [*, State.fixed_foldl, State.queue_foldl]))); try clear_value x) | with_reducible assumption | (intro s x hw) | with_reducible apply FixedOk.foldl | with_reducible apply State.at_ok | (split) | (simp [*, State.fixed_foldl, State.queue_foldl]; done) | split | simp only [State.fixed_foldl, State.fixed_update] | with_reducible refine (Result.keeps_next _ _).2 ⟨?_, ?_⟩)

@[simp ↓] theorem execCycDoneWrite_keeps {q} {s : State} (hq : s.fixed.1 = q) (hw : FixedOk s.fixed) (t : Nat) (core : Nat) (value : BitVec 32) : Result.keeps q (execCycDoneWrite t core value s) := by
  unfold execCycDoneWrite
  repeat' (first | (extract_lets +onlyGivenNames x; (try (have hx : FixedOk x.fixed := by (simp only [x]; repeat' (first | with_reducible assumption | (intro s x hw) | with_reducible apply FixedOk.foldl | with_reducible apply State.at_ok | split | (simp [*, State.fixed_foldl, State.queue_foldl]; done) | split | simp only [State.fixed_foldl, State.fixed_update] | with_reducible refine (Result.keeps_next _ _).2 ⟨?_, ?_⟩)))); (try (have hq : x.fixed.1 = s.fixed.1 := by (simp only [x]; (repeat' split) <;> simp [*, State.fixed_foldl, State.queue_foldl]))); try clear_value x) | with_reducible assumption | (intro s x hw) | with_reducible apply FixedOk.foldl | with_reducible apply State.at_ok | (split) | (simp [*, State.fixed_foldl, State.queue_foldl]; done) | split | simp only [State.fixed_foldl, State.fixed_update] | with_reducible refine (Result.keeps_next _ _).2 ⟨?_, ?_⟩)

@[simp ↓] theorem execCoreFaultHalt_keeps {q} {s : State} (hq : s.fixed.1 = q) (hw : FixedOk s.fixed) (t : Nat) (core : Nat) : Result.keeps q (execCoreFaultHalt t core s) := by
  unfold execCoreFaultHalt
  repeat' (first | (extract_lets +onlyGivenNames x; (try (have hx : FixedOk x.fixed := by (simp only [x]; repeat' (first | with_reducible assumption | (intro s x hw) | with_reducible apply FixedOk.foldl | with_reducible apply State.at_ok | split | (simp [*, State.fixed_foldl, State.queue_foldl]; done) | split | simp only [State.fixed_foldl, State.fixed_update] | with_reducible refine (Result.keeps_next _ _).2 ⟨?_, ?_⟩)))); (try (have hq : x.fixed.1 = s.fixed.1 := by (simp only [x]; (repeat' split) <;> simp [*, State.fixed_foldl, State.queue_foldl]))); try clear_value x) | with_reducible assumption | (intro s x hw) | with_reducible apply FixedOk.foldl | with_reducible apply State.at_ok | (split) | (simp [*, State.fixed_foldl, State.queue_foldl]; done) | split | simp only [State.fixed_foldl, State.fixed_update] | with_reducible refine (Result.keeps_next _ _).2 ⟨?_, ?_⟩)

@[simp ↓] theorem execEccCorrected_rests {fx} (s : State) (h : s.fixed = fx) : Result.rests fx (execEccCorrected s) := by
  subst h
  simp [execEccCorrected, State.fixed_foldl]

@[simp ↓] theorem State.rebind_queue (s : State) : s.rebind.1.fixed.1 = s.fixed.1 := by
  unfold State.rebind
  refine foldl_keeps (fun (b : State × Nat) => b.1.fixed.1 = s.fixed.1) _ _ ?_ _ rfl
  intro b n hb
  simp only
  split
  · exact hb
  · split
    · rw [State.dropForce_queue]
      exact hb
    · rw [State.bindForce_queue, State.put_fixed, State.put_fixed, State.releaseForce_queue]
      exact hb

@[simp ↓] theorem State.rebind_ok {s : State} (hw : FixedOk s.fixed) : FixedOk s.rebind.1.fixed := by
  unfold State.rebind
  refine foldl_keeps (fun (b : State × Nat) => FixedOk b.1.fixed) _ _ ?_ _ hw
  intro b n hb
  simp only
  split
  · exact hb
  · split
    · exact State.dropForce_ok hb _ _
    · apply State.bindForce_ok
      rw [State.put_fixed, State.put_fixed]
      exact State.releaseForce_ok hb _

@[simp ↓] theorem State.recordGraft_fixed (s : State) (code : Nat) (old : Nat) (new : Nat) (dropped : Nat) : (s.recordGraft code old new dropped).fixed = s.fixed := by
  simp [State.recordGraft, State.fixed_foldl]

@[simp ↓] theorem State.verdict_fixed (s : State) (ok : Bool) : (s.verdict ok).fixed = s.fixed := by
  unfold State.verdict
  repeat' (first | (extract_lets +onlyGivenNames x; (try (have hx : x.fixed = s.fixed := by (simp only [x]; (repeat' split) <;> simp [*, State.fixed_foldl]))); try clear_value x) | (split) | (simp [*, State.fixed_foldl]; done))

@[simp ↓] theorem State.graftDone_queue (s : State) : s.graftDone.fixed.1 = s.fixed.1 := by
  unfold State.graftDone
  extract_lets old s1 c s2 r
  have h2 : s2.fixed = s.fixed := by simp [s2, s1]
  have h3 : r.1.fixed.1 = s2.fixed.1 := State.rebind_queue s2
  clear_value r s2
  simp [h3, h2]

@[simp ↓] theorem State.graftDone_ok {s : State} (hw : FixedOk s.fixed) : FixedOk s.graftDone.fixed := by
  unfold State.graftDone
  extract_lets old s1 c s2 r
  have h2 : s2.fixed = s.fixed := by simp [s2, s1]
  have h3 : FixedOk r.1.fixed := State.rebind_ok (h2 ▸ hw)
  clear_value r s2
  simpa using h3

@[simp ↓] theorem State.clean_fixed (s : State) : (s.clean).fixed = s.fixed := by
  simp [State.clean, State.fixed_foldl]

@[simp ↓] theorem State.finish_queue (s : State) (core : Nat) : (s.finish core).fixed.1 = s.fixed.1 := by
  unfold State.finish
  repeat' (first | (extract_lets +onlyGivenNames x; (try (have hx : x.fixed.1 = s.fixed.1 := by (simp only [x]; (repeat' split) <;> simp [*, State.fixed_foldl, State.queue_foldl]))); try clear_value x) | (split) | (simp [*, State.fixed_foldl, State.queue_foldl]; done))

@[simp ↓] theorem State.finish_ok {s : State} (hw : FixedOk s.fixed) (core : Nat) : FixedOk (s.finish core).fixed := by
  unfold State.finish
  repeat' (first | (extract_lets +onlyGivenNames x; (try (have hx : FixedOk x.fixed := by (simp only [x]; repeat' (first | with_reducible assumption | (intro s x hw) | with_reducible apply FixedOk.foldl | with_reducible apply State.panFinish_ok | with_reducible apply State.graftDone_ok | split | (simp [*, State.fixed_foldl, State.queue_foldl]; done) | split | simp only [State.fixed_foldl, State.fixed_update] | with_reducible refine (Result.keeps_next _ _).2 ⟨?_, ?_⟩)))); (try (have hq : x.fixed.1 = s.fixed.1 := by (simp only [x]; (repeat' split) <;> simp [*, State.fixed_foldl, State.queue_foldl]))); try clear_value x) | with_reducible assumption | (intro s x hw) | with_reducible apply FixedOk.foldl | with_reducible apply State.panFinish_ok | with_reducible apply State.graftDone_ok | (split) | (simp [*, State.fixed_foldl, State.queue_foldl]; done) | split | simp only [State.fixed_foldl, State.fixed_update] | with_reducible refine (Result.keeps_next _ _).2 ⟨?_, ?_⟩)

@[simp ↓] theorem State.voterTest_queue (s : State) (fa : BitVec 3) (fb : BitVec 3) : (s.voterTest fa fb).fixed.1 = s.fixed.1 := by
  unfold State.voterTest
  repeat' (first | (extract_lets +onlyGivenNames x; (try (have hx : x.fixed.1 = s.fixed.1 := by (simp only [x]; (repeat' split) <;> simp [*, State.fixed_foldl, State.queue_foldl]))); try clear_value x) | (split) | (simp [*, State.fixed_foldl, State.queue_foldl]; done))

@[simp ↓] theorem State.voterTest_ok {s : State} (hw : FixedOk s.fixed) (fa : BitVec 3) (fb : BitVec 3) : FixedOk (s.voterTest fa fb).fixed := by
  unfold State.voterTest
  repeat' (first | (extract_lets +onlyGivenNames x; (try (have hx : FixedOk x.fixed := by (simp only [x]; repeat' (first | with_reducible assumption | (intro s x hw) | with_reducible apply FixedOk.foldl | with_reducible apply State.enterLockout_ok | split | (simp [*, State.fixed_foldl, State.queue_foldl]; done) | split | simp only [State.fixed_foldl, State.fixed_update] | with_reducible refine (Result.keeps_next _ _).2 ⟨?_, ?_⟩)))); (try (have hq : x.fixed.1 = s.fixed.1 := by (simp only [x]; (repeat' split) <;> simp [*, State.fixed_foldl, State.queue_foldl]))); try clear_value x) | with_reducible assumption | (intro s x hw) | with_reducible apply FixedOk.foldl | with_reducible apply State.enterLockout_ok | (split) | (simp [*, State.fixed_foldl, State.queue_foldl]; done) | split | simp only [State.fixed_foldl, State.fixed_update] | with_reducible refine (Result.keeps_next _ _).2 ⟨?_, ?_⟩)

@[simp ↓] theorem State.traceWindow_fixed (s : State) (sig : Nat → Option DWord) : (s.traceWindow sig).fixed = s.fixed := by
  unfold State.traceWindow
  repeat' (first | (extract_lets +onlyGivenNames x; (try (have hx : x.fixed = s.fixed := by (simp only [x]; (repeat' split) <;> simp [*, State.fixed_foldl]))); try clear_value x) | (split) | (simp [*, State.fixed_foldl]; done))

@[simp ↓] theorem State.showVote_fixed (s : State) (v : Verdict) (missing : Nat) (invalid : Nat) (select : Option Nat) : (s.showVote v missing invalid select).fixed = s.fixed := by
  unfold State.showVote
  repeat' (first | (extract_lets +onlyGivenNames x; (try (have hx : x.fixed = s.fixed := by (simp only [x]; (repeat' split) <;> simp [*, State.fixed_foldl]))); try clear_value x) | (split) | (simp [*, State.fixed_foldl]; done))

@[simp ↓] theorem State.dropHeads_fixed (s : State) : (s.dropHeads).fixed = s.fixed := by
  unfold State.dropHeads
  repeat' (first | (extract_lets +onlyGivenNames x; (try (have hx : x.fixed = s.fixed := by (simp only [x]; (repeat' split) <;> simp [*, State.fixed_foldl]))); try clear_value x) | (split) | (simp [*, State.fixed_foldl]; done))

@[simp ↓] theorem State.testAfter_queue (s : State) (agreed : Bool) (fa : BitVec 3) (fb : BitVec 3) : (s.testAfter agreed fa fb).fixed.1 = s.fixed.1 := by
  unfold State.testAfter
  repeat' (first | (extract_lets +onlyGivenNames x; (try (have hx : x.fixed.1 = s.fixed.1 := by (simp only [x]; (repeat' split) <;> simp [*, State.fixed_foldl, State.queue_foldl]))); try clear_value x) | (split) | (simp [*, State.fixed_foldl, State.queue_foldl]; done))

@[simp ↓] theorem State.testAfter_ok {s : State} (hw : FixedOk s.fixed) (agreed : Bool) (fa : BitVec 3) (fb : BitVec 3) : FixedOk (s.testAfter agreed fa fb).fixed := by
  unfold State.testAfter
  repeat' (first | (extract_lets +onlyGivenNames x; (try (have hx : FixedOk x.fixed := by (simp only [x]; repeat' (first | with_reducible assumption | (intro s x hw) | with_reducible apply FixedOk.foldl | with_reducible apply State.voterTest_ok | split | (simp [*, State.fixed_foldl, State.queue_foldl]; done) | split | simp only [State.fixed_foldl, State.fixed_update] | with_reducible refine (Result.keeps_next _ _).2 ⟨?_, ?_⟩)))); (try (have hq : x.fixed.1 = s.fixed.1 := by (simp only [x]; (repeat' split) <;> simp [*, State.fixed_foldl, State.queue_foldl]))); try clear_value x) | with_reducible assumption | (intro s x hw) | with_reducible apply FixedOk.foldl | with_reducible apply State.voterTest_ok | (split) | (simp [*, State.fixed_foldl, State.queue_foldl]; done) | split | simp only [State.fixed_foldl, State.fixed_update] | with_reducible refine (Result.keeps_next _ _).2 ⟨?_, ?_⟩)

@[simp ↓] theorem State.decide_queue (s : State) (fa : BitVec 3) (fb : BitVec 3) : (s.decide_ fa fb).fixed.1 = s.fixed.1 := by
  unfold State.decide_
  repeat' (first | (extract_lets +onlyGivenNames x; (try (have hx : x.fixed.1 = s.fixed.1 := by (simp only [x]; (repeat' split) <;> simp [*, State.fixed_foldl, State.queue_foldl]))); try clear_value x) | (split) | (simp [*, State.fixed_foldl, State.queue_foldl]; done))

@[simp ↓] theorem State.decide_ok {s : State} (hw : FixedOk s.fixed) (fa : BitVec 3) (fb : BitVec 3) : FixedOk (s.decide_ fa fb).fixed := by
  unfold State.decide_
  repeat' (first | (extract_lets +onlyGivenNames x; (try (have hx : FixedOk x.fixed := by (simp only [x]; repeat' (first | with_reducible assumption | (intro s x hw) | with_reducible apply FixedOk.foldl | with_reducible apply State.enterLockout_ok | with_reducible apply State.finish_ok | with_reducible apply State.testAfter_ok | split | (simp [*, State.fixed_foldl, State.queue_foldl]; done) | split | simp only [State.fixed_foldl, State.fixed_update] | with_reducible refine (Result.keeps_next _ _).2 ⟨?_, ?_⟩)))); (try (have hq : x.fixed.1 = s.fixed.1 := by (simp only [x]; (repeat' split) <;> simp [*, State.fixed_foldl, State.queue_foldl]))); try clear_value x) | with_reducible assumption | (intro s x hw) | with_reducible apply FixedOk.foldl | with_reducible apply State.enterLockout_ok | with_reducible apply State.finish_ok | with_reducible apply State.testAfter_ok | (split) | (simp [*, State.fixed_foldl, State.queue_foldl]; done) | split | simp only [State.fixed_foldl, State.fixed_update] | with_reducible refine (Result.keeps_next _ _).2 ⟨?_, ?_⟩)

@[simp ↓] theorem execWindowTimeout_keeps {q} {s : State} (hq : s.fixed.1 = q) (hw : FixedOk s.fixed) (t : Nat) : Result.keeps q (execWindowTimeout t s) := by
  unfold execWindowTimeout
  repeat' (first | (extract_lets +onlyGivenNames x; (try (have hx : FixedOk x.fixed := by (simp only [x]; repeat' (first | with_reducible assumption | (intro s x hw) | with_reducible apply FixedOk.foldl | with_reducible apply State.at_ok | split | (simp [*, State.fixed_foldl, State.queue_foldl]; done) | split | simp only [State.fixed_foldl, State.fixed_update] | with_reducible refine (Result.keeps_next _ _).2 ⟨?_, ?_⟩)))); (try (have hq : x.fixed.1 = s.fixed.1 := by (simp only [x]; (repeat' split) <;> simp [*, State.fixed_foldl, State.queue_foldl]))); try clear_value x) | with_reducible assumption | (intro s x hw) | with_reducible apply FixedOk.foldl | with_reducible apply State.at_ok | (split) | (simp [*, State.fixed_foldl, State.queue_foldl]; done) | split | simp only [State.fixed_foldl, State.fixed_update] | with_reducible refine (Result.keeps_next _ _).2 ⟨?_, ?_⟩)

@[simp ↓] theorem execVoterTestDue_keeps {q} {s : State} (hq : s.fixed.1 = q) (hw : FixedOk s.fixed) (t : Nat) (fa : BitVec 3) (fb : BitVec 3) : Result.keeps q (execVoterTestDue t fa fb s) := by
  unfold execVoterTestDue
  repeat' (first | (extract_lets +onlyGivenNames x; (try (have hx : FixedOk x.fixed := by (simp only [x]; repeat' (first | with_reducible assumption | (intro s x hw) | with_reducible apply FixedOk.foldl | with_reducible apply State.at_ok | with_reducible apply State.voterTest_ok | split | (simp [*, State.fixed_foldl, State.queue_foldl]; done) | split | simp only [State.fixed_foldl, State.fixed_update] | with_reducible refine (Result.keeps_next _ _).2 ⟨?_, ?_⟩)))); (try (have hq : x.fixed.1 = s.fixed.1 := by (simp only [x]; (repeat' split) <;> simp [*, State.fixed_foldl, State.queue_foldl]))); try clear_value x) | with_reducible assumption | (intro s x hw) | with_reducible apply FixedOk.foldl | with_reducible apply State.at_ok | with_reducible apply State.voterTest_ok | (split) | (simp [*, State.fixed_foldl, State.queue_foldl]; done) | split | simp only [State.fixed_foldl, State.fixed_update] | with_reducible refine (Result.keeps_next _ _).2 ⟨?_, ?_⟩)

@[simp ↓] theorem State.tsetCheck_queue (s : State) : (s.tsetCheck).fixed.1 = s.fixed.1 := by
  unfold State.tsetCheck
  repeat' (first | (extract_lets +onlyGivenNames x; (try (have hx : x.fixed.1 = s.fixed.1 := by (simp only [x]; (repeat' split) <;> simp [*, State.fixed_foldl, State.queue_foldl]))); try clear_value x) | (split) | (simp [*, State.fixed_foldl, State.queue_foldl]; done))

@[simp ↓] theorem State.tsetCheck_ok {s : State} (hw : FixedOk s.fixed) : FixedOk (s.tsetCheck).fixed := by
  unfold State.tsetCheck
  repeat' (first | (extract_lets +onlyGivenNames x; (try (have hx : FixedOk x.fixed := by (simp only [x]; repeat' (first | with_reducible assumption | (intro s x hw) | with_reducible apply FixedOk.foldl | with_reducible apply State.enterLockout_ok | split | (simp [*, State.fixed_foldl, State.queue_foldl]; done) | split | simp only [State.fixed_foldl, State.fixed_update] | with_reducible refine (Result.keeps_next _ _).2 ⟨?_, ?_⟩)))); (try (have hq : x.fixed.1 = s.fixed.1 := by (simp only [x]; (repeat' split) <;> simp [*, State.fixed_foldl, State.queue_foldl]))); try clear_value x) | with_reducible assumption | (intro s x hw) | with_reducible apply FixedOk.foldl | with_reducible apply State.enterLockout_ok | (split) | (simp [*, State.fixed_foldl, State.queue_foldl]; done) | split | simp only [State.fixed_foldl, State.fixed_update] | with_reducible refine (Result.keeps_next _ _).2 ⟨?_, ?_⟩)

@[simp ↓] theorem State.startCopies_fixed (s : State) (ns : List Nat) : (s.startCopies ns).fixed = s.fixed := by
  unfold State.startCopies
  split
  · exact State.fixed_foldl _ _ (fun s x => by split <;> simp) s
  · rfl

@[simp ↓] theorem execStateCopyComplete_keeps {q} {s : State} (hq : s.fixed.1 = q) (hw : FixedOk s.fixed) (t : Nat) (core : Nat) (ok : Bool) : Result.keeps q (execStateCopyComplete t core ok s) := by
  unfold execStateCopyComplete
  repeat' (first | (extract_lets +onlyGivenNames x; (try (have hx : FixedOk x.fixed := by (simp only [x]; repeat' (first | with_reducible assumption | (intro s x hw) | with_reducible apply FixedOk.foldl | with_reducible apply State.copy_ok | with_reducible apply State.at_ok | split | (simp [*, State.fixed_foldl, State.queue_foldl]; done) | split | simp only [State.fixed_foldl, State.fixed_update] | with_reducible refine (Result.keeps_next _ _).2 ⟨?_, ?_⟩)))); (try (have hq : x.fixed.1 = s.fixed.1 := by (simp only [x]; (repeat' split) <;> simp [*, State.fixed_foldl, State.queue_foldl]))); try clear_value x) | with_reducible assumption | (intro s x hw) | with_reducible apply FixedOk.foldl | with_reducible apply State.copy_ok | with_reducible apply State.at_ok | (split) | (simp [*, State.fixed_foldl, State.queue_foldl]; done) | split | simp only [State.fixed_foldl, State.fixed_update] | with_reducible refine (Result.keeps_next _ _).2 ⟨?_, ?_⟩)

@[simp ↓] theorem State.rejoin_fixed (s : State) : (s.rejoin).fixed = s.fixed := by
  unfold State.rejoin
  repeat' (first | (extract_lets +onlyGivenNames x; (try (have hx : x.fixed = s.fixed := by (simp only [x]; (repeat' split) <;> simp [*, State.fixed_foldl]))); try clear_value x) | (split) | (simp [*, State.fixed_foldl]; done))

@[simp ↓] theorem State.releaseCores_fixed (s : State) : (s.releaseCores).fixed = s.fixed := by
  unfold State.releaseCores
  repeat' (first | (extract_lets +onlyGivenNames x; (try (have hx : x.fixed = s.fixed := by (simp only [x]; (repeat' split) <;> simp [*, State.fixed_foldl]))); try clear_value x) | (split) | (simp [*, State.fixed_foldl]; done))

end Sys2Proof.Machine
end

