-- ==== Sys2Proof/Laws/LaneOps.lean ====
section
/-! SUPPORT. Laws/LaneOps.lean: what the operations of Machine/LaneOps.lean leave alone. -/
set_option linter.all false
namespace Sys2Proof.Machine

@[simp ↓] theorem State.setLn_fixed (s : State) (l : Nat) (x : LaneSt) : (s.setLn l x).fixed = s.fixed := by
  simp [State.setLn, State.fixed_foldl]

@[simp ↓] theorem State.putCid_fixed (s : State) (l : Nat) (v : Nat) : (s.putCid l v).fixed = s.fixed := by
  simp [State.putCid, State.fixed_foldl]

@[simp ↓] theorem State.showPreempt_fixed (s : State) (l : Nat) : (s.showPreempt l).fixed = s.fixed := by
  simp [State.showPreempt, State.fixed_foldl]

@[simp ↓] theorem State.showLaneSrc_fixed (s : State) : (s.showLaneSrc).fixed = s.fixed := by
  unfold State.showLaneSrc
  repeat' (first | (extract_lets +onlyGivenNames x; (try (have hx : x.fixed = s.fixed := by (simp only [x]; (repeat' split) <;> simp [*, State.fixed_foldl]))); try clear_value x) | (split) | (simp [*, State.fixed_foldl]; done) | (refine (State.fixed_foldl _ _ ?_ _).trans ?_) | (refine congrArg Prod.fst ((State.fixed_foldl _ _ ?_ _).trans ?_)) | (refine (State.queue_foldl _ _ ?_ _).trans ?_) | (intro s x) | simp [*])

@[simp ↓] theorem State.showLaneSync_queue (s : State) : (s.showLaneSync).fixed.1 = s.fixed.1 := by
  simp [State.showLaneSync, State.fixed_foldl, State.queue_foldl]

@[simp ↓] theorem State.showLaneSync_ok {s : State} (hw : FixedOk s.fixed) : FixedOk (s.showLaneSync).fixed := by
  unfold State.showLaneSync
  repeat' (first | (extract_lets +onlyGivenNames x; (try (have hx : FixedOk x.fixed := by (simp only [x]; repeat' (first | with_reducible assumption | (intro s x hw) | with_reducible apply FixedOk.foldl | with_reducible apply State.loseSources_ok | split | (simp [*, State.fixed_foldl, State.queue_foldl]; done) | split | simp only [State.fixed_foldl, State.fixed_update] | with_reducible refine (Result.keeps_next _ _).2 ⟨?_, ?_⟩)))); (try (have hq : x.fixed.1 = s.fixed.1 := by (simp only [x]; (repeat' split) <;> simp [*, State.fixed_foldl, State.queue_foldl]))); try clear_value x) | with_reducible assumption | (intro s x hw) | with_reducible apply FixedOk.foldl | with_reducible apply State.loseSources_ok | (split) | (simp [*, State.fixed_foldl, State.queue_foldl]; done) | split | simp only [State.fixed_foldl, State.fixed_update] | with_reducible refine (Result.keeps_next _ _).2 ⟨?_, ?_⟩)

@[simp ↓] theorem State.laneFwEnd_fixed (s : State) : (s.laneFwEnd).fixed = s.fixed := by
  unfold State.laneFwEnd
  repeat' (first | (extract_lets +onlyGivenNames x; (try (have hx : x.fixed = s.fixed := by (simp only [x]; (repeat' split) <;> simp [*, State.fixed_foldl]))); try clear_value x) | (split) | (simp [*, State.fixed_foldl]; done))

@[simp ↓] theorem State.setLane_fixed (s : State) (v : Int) (fresh : Bool) : (s.setLane v fresh).fixed = s.fixed := by
  unfold State.setLane
  repeat' (first | (extract_lets +onlyGivenNames x; (try (have hx : x.fixed = s.fixed := by (simp only [x]; (repeat' split) <;> simp [*, State.fixed_foldl]))); try clear_value x) | (split) | (simp [*, State.fixed_foldl]; done))

@[simp ↓] theorem State.laneGoto_queue (s : State) (l : Nat) (st : Nat) : (s.laneGoto l st).fixed.1 = s.fixed.1 := by
  unfold State.laneGoto
  repeat' (first | (extract_lets +onlyGivenNames x; (try (have hx : x.fixed.1 = s.fixed.1 := by (simp only [x]; (repeat' split) <;> simp [*, State.fixed_foldl, State.queue_foldl]))); try clear_value x) | (split) | (simp [*, State.fixed_foldl, State.queue_foldl]; done))

@[simp ↓] theorem State.laneGoto_ok {s : State} (hw : FixedOk s.fixed) (l : Nat) (st : Nat) : FixedOk (s.laneGoto l st).fixed := by
  unfold State.laneGoto
  repeat' (first | (extract_lets +onlyGivenNames x; (try (have hx : FixedOk x.fixed := by (simp only [x]; repeat' (first | with_reducible assumption | (intro s x hw) | with_reducible apply FixedOk.foldl | with_reducible apply State.showLaneSync_ok | split | (simp [*, State.fixed_foldl, State.queue_foldl]; done) | split | simp only [State.fixed_foldl, State.fixed_update] | with_reducible refine (Result.keeps_next _ _).2 ⟨?_, ?_⟩)))); (try (have hq : x.fixed.1 = s.fixed.1 := by (simp only [x]; (repeat' split) <;> simp [*, State.fixed_foldl, State.queue_foldl]))); try clear_value x) | with_reducible assumption | (intro s x hw) | with_reducible apply FixedOk.foldl | with_reducible apply State.showLaneSync_ok | (split) | (simp [*, State.fixed_foldl, State.queue_foldl]; done) | split | simp only [State.fixed_foldl, State.fixed_update] | with_reducible refine (Result.keeps_next _ _).2 ⟨?_, ?_⟩)

@[simp ↓] theorem State.laneFault_queue (s : State) (l : Nat) (cause : Nat) : (s.laneFault l cause).fixed.1 = s.fixed.1 := by
  unfold State.laneFault
  repeat' (first | (extract_lets +onlyGivenNames x; (try (have hx : x.fixed.1 = s.fixed.1 := by (simp only [x]; (repeat' split) <;> simp [*, State.fixed_foldl, State.queue_foldl]))); try clear_value x) | (split) | (simp [*, State.fixed_foldl, State.queue_foldl]; done))

@[simp ↓] theorem State.laneFault_ok {s : State} (hw : FixedOk s.fixed) (l : Nat) (cause : Nat) : FixedOk (s.laneFault l cause).fixed := by
  unfold State.laneFault
  repeat' (first | (extract_lets +onlyGivenNames x; (try (have hx : FixedOk x.fixed := by (simp only [x]; repeat' (first | with_reducible assumption | (intro s x hw) | with_reducible apply FixedOk.foldl | with_reducible apply State.laneGoto_ok | split | (simp [*, State.fixed_foldl, State.queue_foldl]; done) | split | simp only [State.fixed_foldl, State.fixed_update] | with_reducible refine (Result.keeps_next _ _).2 ⟨?_, ?_⟩)))); (try (have hq : x.fixed.1 = s.fixed.1 := by (simp only [x]; (repeat' split) <;> simp [*, State.fixed_foldl, State.queue_foldl]))); try clear_value x) | with_reducible assumption | (intro s x hw) | with_reducible apply FixedOk.foldl | with_reducible apply State.laneGoto_ok | (split) | (simp [*, State.fixed_foldl, State.queue_foldl]; done) | split | simp only [State.fixed_foldl, State.fixed_update] | with_reducible refine (Result.keeps_next _ _).2 ⟨?_, ?_⟩)

@[simp ↓] theorem State.laneCheck_queue (s : State) (l : Nat) : (s.laneCheck l).fixed.1 = s.fixed.1 := by
  simp [State.laneCheck, State.fixed_foldl, State.queue_foldl]

@[simp ↓] theorem State.laneCheck_ok {s : State} (hw : FixedOk s.fixed) (l : Nat) : FixedOk (s.laneCheck l).fixed := by
  unfold State.laneCheck
  repeat' (first | (extract_lets +onlyGivenNames x; (try (have hx : FixedOk x.fixed := by (simp only [x]; repeat' (first | with_reducible assumption | (intro s x hw) | with_reducible apply FixedOk.foldl | with_reducible apply State.laneGoto_ok | with_reducible apply State.laneFault_ok | split | (simp [*, State.fixed_foldl, State.queue_foldl]; done) | split | simp only [State.fixed_foldl, State.fixed_update] | with_reducible refine (Result.keeps_next _ _).2 ⟨?_, ?_⟩)))); (try (have hq : x.fixed.1 = s.fixed.1 := by (simp only [x]; (repeat' split) <;> simp [*, State.fixed_foldl, State.queue_foldl]))); try clear_value x) | with_reducible assumption | (intro s x hw) | with_reducible apply FixedOk.foldl | with_reducible apply State.laneGoto_ok | with_reducible apply State.laneFault_ok | (split) | (simp [*, State.fixed_foldl, State.queue_foldl]; done) | split | simp only [State.fixed_foldl, State.fixed_update] | with_reducible refine (Result.keeps_next _ _).2 ⟨?_, ?_⟩)

@[simp ↓] theorem State.lanesCheck_queue (s : State) : (s.lanesCheck).fixed.1 = s.fixed.1 := by
  simp [State.lanesCheck, State.fixed_foldl, State.queue_foldl]

@[simp ↓] theorem State.lanesCheck_ok {s : State} (hw : FixedOk s.fixed) : FixedOk (s.lanesCheck).fixed := by
  unfold State.lanesCheck
  repeat' (first | (extract_lets +onlyGivenNames x; (try (have hx : FixedOk x.fixed := by (simp only [x]; repeat' (first | with_reducible assumption | (intro s x hw) | with_reducible apply FixedOk.foldl | with_reducible apply State.laneCheck_ok | split | (simp [*, State.fixed_foldl, State.queue_foldl]; done) | split | simp only [State.fixed_foldl, State.fixed_update] | with_reducible refine (Result.keeps_next _ _).2 ⟨?_, ?_⟩)))); (try (have hq : x.fixed.1 = s.fixed.1 := by (simp only [x]; (repeat' split) <;> simp [*, State.fixed_foldl, State.queue_foldl]))); try clear_value x) | with_reducible assumption | (intro s x hw) | with_reducible apply FixedOk.foldl | with_reducible apply State.laneCheck_ok | (split) | (simp [*, State.fixed_foldl, State.queue_foldl]; done) | split | simp only [State.fixed_foldl, State.fixed_update] | with_reducible refine (Result.keeps_next _ _).2 ⟨?_, ?_⟩)

@[simp ↓] theorem State.newMaster_fixed (s : State) (l : Nat) (id : Nat) : (s.newMaster l id).fixed = s.fixed := by
  simp [State.newMaster, State.fixed_foldl]

@[simp ↓] theorem State.laneRejoin_queue (s : State) (l : Nat) : (s.laneRejoin l).fixed.1 = s.fixed.1 := by
  simp [State.laneRejoin, State.fixed_foldl, State.queue_foldl]

@[simp ↓] theorem State.laneRejoin_ok {s : State} (hw : FixedOk s.fixed) (l : Nat) : FixedOk (s.laneRejoin l).fixed := by
  unfold State.laneRejoin
  repeat' (first | (extract_lets +onlyGivenNames x; (try (have hx : FixedOk x.fixed := by (simp only [x]; repeat' (first | with_reducible assumption | (intro s x hw) | with_reducible apply FixedOk.foldl | with_reducible apply State.laneGoto_ok | split | (simp [*, State.fixed_foldl, State.queue_foldl]; done) | split | simp only [State.fixed_foldl, State.fixed_update] | with_reducible refine (Result.keeps_next _ _).2 ⟨?_, ?_⟩)))); (try (have hq : x.fixed.1 = s.fixed.1 := by (simp only [x]; (repeat' split) <;> simp [*, State.fixed_foldl, State.queue_foldl]))); try clear_value x) | with_reducible assumption | (intro s x hw) | with_reducible apply FixedOk.foldl | with_reducible apply State.laneGoto_ok | (split) | (simp [*, State.fixed_foldl, State.queue_foldl]; done) | split | simp only [State.fixed_foldl, State.fixed_update] | with_reducible refine (Result.keeps_next _ _).2 ⟨?_, ?_⟩)

@[simp ↓] theorem State.laneFormat_fixed (s : State) (l : Nat) (f : List Byte) (fcs : Bool) : (s.laneFormat l f fcs).1.fixed = s.fixed := by
  unfold State.laneFormat
  repeat' (first | (extract_lets +onlyGivenNames x; (try (have hx : x.fixed = s.fixed := by (simp only [x]; (repeat' split) <;> simp [*, State.fixed_foldl]))); try clear_value x) | (split <;> (try (have e1 := (congrArg (fun p => State.fixed (Prod.fst p)) ‹_ = ((_ : State), _)›).symm; simp [*] at e1)) <;> (try (have e1 := (congrArg (fun p => State.fixed (Prod.snd p)) ‹_ = (_, (_ : State))›).symm; simp [*] at e1))) | (simp [*, State.fixed_foldl]; done))

@[simp ↓] theorem State.integrate_queue (s : State) (l : Nat) (h : LHdr) (v : Int) : (s.integrate l h v).fixed.1 = s.fixed.1 := by
  unfold State.integrate
  repeat' (first | (extract_lets +onlyGivenNames x; (try (have hx : x.fixed.1 = s.fixed.1 := by (simp only [x]; (repeat' split) <;> simp [*, State.fixed_foldl, State.queue_foldl]))); try clear_value x) | (split) | (simp [*, State.fixed_foldl, State.queue_foldl]; done))

@[simp ↓] theorem State.integrate_ok {s : State} (hw : FixedOk s.fixed) (l : Nat) (h : LHdr) (v : Int) : FixedOk (s.integrate l h v).fixed := by
  unfold State.integrate
  repeat' (first | (extract_lets +onlyGivenNames x; (try (have hx : FixedOk x.fixed := by (simp only [x]; repeat' (first | with_reducible assumption | (intro s x hw) | with_reducible apply FixedOk.foldl | with_reducible apply State.laneGoto_ok | with_reducible apply State.laneFault_ok | split | (simp [*, State.fixed_foldl, State.queue_foldl]; done) | split | simp only [State.fixed_foldl, State.fixed_update] | with_reducible refine (Result.keeps_next _ _).2 ⟨?_, ?_⟩)))); (try (have hq : x.fixed.1 = s.fixed.1 := by (simp only [x]; (repeat' split) <;> simp [*, State.fixed_foldl, State.queue_foldl]))); try clear_value x) | with_reducible assumption | (intro s x hw) | with_reducible apply FixedOk.foldl | with_reducible apply State.laneGoto_ok | with_reducible apply State.laneFault_ok | (split) | (simp [*, State.fixed_foldl, State.queue_foldl]; done) | split | simp only [State.fixed_foldl, State.fixed_update] | with_reducible refine (Result.keeps_next _ _).2 ⟨?_, ?_⟩)

@[simp ↓] theorem State.followSync_queue (s : State) (l : Nat) (h : LHdr) (v : Int) : (s.followSync l h v).fixed.1 = s.fixed.1 := by
  unfold State.followSync
  repeat' (first | (extract_lets +onlyGivenNames x; (try (have hx : x.fixed.1 = s.fixed.1 := by (simp only [x]; (repeat' split) <;> simp [*, State.fixed_foldl, State.queue_foldl]))); try clear_value x) | (split) | (simp [*, State.fixed_foldl, State.queue_foldl]; done))

@[simp ↓] theorem State.followSync_ok {s : State} (hw : FixedOk s.fixed) (l : Nat) (h : LHdr) (v : Int) : FixedOk (s.followSync l h v).fixed := by
  unfold State.followSync
  repeat' (first | (extract_lets +onlyGivenNames x; (try (have hx : FixedOk x.fixed := by (simp only [x]; repeat' (first | with_reducible assumption | (intro s x hw) | with_reducible apply FixedOk.foldl | with_reducible apply State.laneFault_ok | with_reducible apply State.laneRejoin_ok | split | (simp [*, State.fixed_foldl, State.queue_foldl]; done) | split | simp only [State.fixed_foldl, State.fixed_update] | with_reducible refine (Result.keeps_next _ _).2 ⟨?_, ?_⟩)))); (try (have hq : x.fixed.1 = s.fixed.1 := by (simp only [x]; (repeat' split) <;> simp [*, State.fixed_foldl, State.queue_foldl]))); try clear_value x) | with_reducible assumption | (intro s x hw) | with_reducible apply FixedOk.foldl | with_reducible apply State.laneFault_ok | with_reducible apply State.laneRejoin_ok | (split) | (simp [*, State.fixed_foldl, State.queue_foldl]; done) | split | simp only [State.fixed_foldl, State.fixed_update] | with_reducible refine (Result.keeps_next _ _).2 ⟨?_, ?_⟩)

@[simp ↓] theorem State.takeSync_queue (s : State) (l : Nat) (h : LHdr) (v : Int) : (s.takeSync l h v).fixed.1 = s.fixed.1 := by
  unfold State.takeSync
  repeat' (first | (extract_lets +onlyGivenNames x; (try (have hx : x.fixed.1 = s.fixed.1 := by (simp only [x]; (repeat' split) <;> simp [*, State.fixed_foldl, State.queue_foldl]))); try clear_value x) | (split) | (simp [*, State.fixed_foldl, State.queue_foldl]; done))

@[simp ↓] theorem State.takeSync_ok {s : State} (hw : FixedOk s.fixed) (l : Nat) (h : LHdr) (v : Int) : FixedOk (s.takeSync l h v).fixed := by
  unfold State.takeSync
  repeat' (first | (extract_lets +onlyGivenNames x; (try (have hx : FixedOk x.fixed := by (simp only [x]; repeat' (first | with_reducible assumption | (intro s x hw) | with_reducible apply FixedOk.foldl | with_reducible apply State.laneRejoin_ok | with_reducible apply State.integrate_ok | with_reducible apply State.followSync_ok | split | (simp [*, State.fixed_foldl, State.queue_foldl]; done) | split | simp only [State.fixed_foldl, State.fixed_update] | with_reducible refine (Result.keeps_next _ _).2 ⟨?_, ?_⟩)))); (try (have hq : x.fixed.1 = s.fixed.1 := by (simp only [x]; (repeat' split) <;> simp [*, State.fixed_foldl, State.queue_foldl]))); try clear_value x) | with_reducible assumption | (intro s x hw) | with_reducible apply FixedOk.foldl | with_reducible apply State.laneRejoin_ok | with_reducible apply State.integrate_ok | with_reducible apply State.followSync_ok | (split) | (simp [*, State.fixed_foldl, State.queue_foldl]; done) | split | simp only [State.fixed_foldl, State.fixed_update] | with_reducible refine (Result.keeps_next _ _).2 ⟨?_, ?_⟩)

@[simp ↓] theorem State.takeCopy_fixed (s : State) (k : Nat) (at_ : Nat) : (s.takeCopy k at_).fixed = s.fixed := by
  simp [State.takeCopy, State.fixed_foldl]

@[simp ↓] theorem State.admitFrame_fixed (s : State) (l : Nat) (h : LHdr) (kind : Nat) : (s.admitFrame l h kind).1.fixed = s.fixed := by
  unfold State.admitFrame
  repeat' (first | (extract_lets +onlyGivenNames x; (try (have hx : x.fixed = s.fixed := by (simp only [x]; (repeat' split) <;> simp [*, State.fixed_foldl]))); try clear_value x) | (split <;> (try (have e1 := (congrArg (fun p => State.fixed (Prod.fst p)) ‹_ = ((_ : State), _)›).symm; simp [*] at e1)) <;> (try (have e1 := (congrArg (fun p => State.fixed (Prod.snd p)) ‹_ = (_, (_ : State))›).symm; simp [*] at e1))) | (simp [*, State.fixed_foldl]; done))

@[simp ↓] theorem State.nodeRestart_fixed (s : State) (n : Nat) (restart : Nat) : (s.nodeRestart n restart).fixed = s.fixed := by
  unfold State.nodeRestart
  repeat' (first | (extract_lets +onlyGivenNames x; (try (have hx : x.fixed = s.fixed := by (simp only [x]; (repeat' split) <;> simp [*, State.fixed_foldl]))); try clear_value x) | (split) | (simp [*, State.fixed_foldl]; done))

end Sys2Proof.Machine
end

