-- ==== Sys2Proof/Laws/Lanes.lean ====
section
/-! SUPPORT. Laws/Lanes.lean: what the operations of Machine/Lanes.lean leave alone. -/
set_option linter.all false
namespace Sys2Proof.Machine

@[simp ↓] theorem State.heed_queue (s : State) (claim : Nat) : (s.heed claim).fixed.1 = s.fixed.1 := by
  simp [State.heed, State.fixed_foldl, State.queue_foldl]

@[simp ↓] theorem State.heed_ok {s : State} (hw : FixedOk s.fixed) (claim : Nat) : FixedOk (s.heed claim).fixed := by
  unfold State.heed
  repeat' (first | (extract_lets +onlyGivenNames x; (try (have hx : FixedOk x.fixed := by (simp only [x]; repeat' (first | with_reducible assumption | (intro s x hw) | with_reducible apply FixedOk.foldl | with_reducible apply State.laneClaim_ok | split | (simp [*, State.fixed_foldl, State.queue_foldl]; done) | split | simp only [State.fixed_foldl, State.fixed_update] | with_reducible refine (Result.keeps_next _ _).2 ⟨?_, ?_⟩)))); (try (have hq : x.fixed.1 = s.fixed.1 := by (simp only [x]; (repeat' split) <;> simp [*, State.fixed_foldl, State.queue_foldl]))); try clear_value x) | with_reducible assumption | (intro s x hw) | with_reducible apply FixedOk.foldl | with_reducible apply State.laneClaim_ok | (split) | (simp [*, State.fixed_foldl, State.queue_foldl]; done) | split | simp only [State.fixed_foldl, State.fixed_update] | with_reducible refine (Result.keeps_next _ _).2 ⟨?_, ?_⟩)

@[simp ↓] theorem State.heedFrame_queue (s : State) (l : Nat) (f : List Byte) (fcs : Bool) : (s.heedFrame l f fcs).fixed.1 = s.fixed.1 := by
  simp [State.heedFrame, State.fixed_foldl, State.queue_foldl]

@[simp ↓] theorem State.heedFrame_ok {s : State} (hw : FixedOk s.fixed) (l : Nat) (f : List Byte) (fcs : Bool) : FixedOk (s.heedFrame l f fcs).fixed := by
  unfold State.heedFrame
  repeat' (first | (extract_lets +onlyGivenNames x; (try (have hx : FixedOk x.fixed := by (simp only [x]; repeat' (first | with_reducible assumption | (intro s x hw) | with_reducible apply FixedOk.foldl | with_reducible apply State.heed_ok | split | (simp [*, State.fixed_foldl, State.queue_foldl]; done) | split | simp only [State.fixed_foldl, State.fixed_update] | with_reducible refine (Result.keeps_next _ _).2 ⟨?_, ?_⟩)))); (try (have hq : x.fixed.1 = s.fixed.1 := by (simp only [x]; (repeat' split) <;> simp [*, State.fixed_foldl, State.queue_foldl]))); try clear_value x) | with_reducible assumption | (intro s x hw) | with_reducible apply FixedOk.foldl | with_reducible apply State.heed_ok | (split) | (simp [*, State.fixed_foldl, State.queue_foldl]; done) | split | simp only [State.fixed_foldl, State.fixed_update] | with_reducible refine (Result.keeps_next _ _).2 ⟨?_, ?_⟩)

@[simp ↓] theorem execFrameForward_keeps {q} {s : State} (hq : s.fixed.1 = q) (hw : FixedOk s.fixed) (t : Nat) (lane : Nat) (fromDn : Bool) (frame : List Byte) (residence : Nat) (fcs : Bool) : Result.keeps q (execFrameForward t lane fromDn frame residence fcs s) := by
  unfold execFrameForward
  repeat' (first | (extract_lets +onlyGivenNames x; (try (have hx : FixedOk x.fixed := by (simp only [x]; repeat' (first | with_reducible assumption | (intro s x hw) | with_reducible apply FixedOk.foldl | with_reducible apply State.at_ok | with_reducible apply State.heedFrame_ok | split | (simp [*, State.fixed_foldl, State.queue_foldl]; done) | split | simp only [State.fixed_foldl, State.fixed_update] | with_reducible refine (Result.keeps_next _ _).2 ⟨?_, ?_⟩)))); (try (have hq : x.fixed.1 = s.fixed.1 := by (simp only [x]; (repeat' split) <;> simp [*, State.fixed_foldl, State.queue_foldl]))); try clear_value x) | with_reducible assumption | (intro s x hw) | with_reducible apply FixedOk.foldl | with_reducible apply State.at_ok | with_reducible apply State.heedFrame_ok | (split) | (simp [*, State.fixed_foldl, State.queue_foldl]; done) | split | simp only [State.fixed_foldl, State.fixed_update] | with_reducible refine (Result.keeps_next _ _).2 ⟨?_, ?_⟩)

@[simp ↓] theorem execLaneLinkUp_keeps {q} {s : State} (hq : s.fixed.1 = q) (hw : FixedOk s.fixed) (t : Nat) (lane : Nat) (dn : Nat) : Result.keeps q (execLaneLinkUp t lane dn s) := by
  unfold execLaneLinkUp
  repeat' (first | (extract_lets +onlyGivenNames x; (try (have hx : FixedOk x.fixed := by (simp only [x]; repeat' (first | with_reducible assumption | (intro s x hw) | with_reducible apply FixedOk.foldl | with_reducible apply State.at_ok | with_reducible apply State.laneCheck_ok | split | (simp [*, State.fixed_foldl, State.queue_foldl]; done) | split | simp only [State.fixed_foldl, State.fixed_update] | with_reducible refine (Result.keeps_next _ _).2 ⟨?_, ?_⟩)))); (try (have hq : x.fixed.1 = s.fixed.1 := by (simp only [x]; (repeat' split) <;> simp [*, State.fixed_foldl, State.queue_foldl]))); try clear_value x) | with_reducible assumption | (intro s x hw) | with_reducible apply FixedOk.foldl | with_reducible apply State.at_ok | with_reducible apply State.laneCheck_ok | (split) | (simp [*, State.fixed_foldl, State.queue_foldl]; done) | split | simp only [State.fixed_foldl, State.fixed_update] | with_reducible refine (Result.keeps_next _ _).2 ⟨?_, ?_⟩)

@[simp ↓] theorem execLaneLinkDown_keeps {q} {s : State} (hq : s.fixed.1 = q) (hw : FixedOk s.fixed) (t : Nat) (lane : Nat) (dn : Nat) : Result.keeps q (execLaneLinkDown t lane dn s) := by
  unfold execLaneLinkDown
  repeat' (first | (extract_lets +onlyGivenNames x; (try (have hx : FixedOk x.fixed := by (simp only [x]; repeat' (first | with_reducible assumption | (intro s x hw) | with_reducible apply FixedOk.foldl | with_reducible apply State.at_ok | with_reducible apply State.laneCheck_ok | split | (simp [*, State.fixed_foldl, State.queue_foldl]; done) | split | simp only [State.fixed_foldl, State.fixed_update] | with_reducible refine (Result.keeps_next _ _).2 ⟨?_, ?_⟩)))); (try (have hq : x.fixed.1 = s.fixed.1 := by (simp only [x]; (repeat' split) <;> simp [*, State.fixed_foldl, State.queue_foldl]))); try clear_value x) | with_reducible assumption | (intro s x hw) | with_reducible apply FixedOk.foldl | with_reducible apply State.at_ok | with_reducible apply State.laneCheck_ok | (split) | (simp [*, State.fixed_foldl, State.queue_foldl]; done) | split | simp only [State.fixed_foldl, State.fixed_update] | with_reducible refine (Result.keeps_next _ _).2 ⟨?_, ?_⟩)

@[simp ↓] theorem execPreemptVerifyDone_keeps {q} {s : State} (hq : s.fixed.1 = q) (hw : FixedOk s.fixed) (t : Nat) (lane : Nat) (dn : Nat) (ok : Bool) : Result.keeps q (execPreemptVerifyDone t lane dn ok s) := by
  unfold execPreemptVerifyDone
  repeat' (first | (extract_lets +onlyGivenNames x; (try (have hx : FixedOk x.fixed := by (simp only [x]; repeat' (first | with_reducible assumption | (intro s x hw) | with_reducible apply FixedOk.foldl | with_reducible apply State.at_ok | with_reducible apply State.laneGoto_ok | with_reducible apply State.laneFault_ok | split | (simp [*, State.fixed_foldl, State.queue_foldl]; done) | split | simp only [State.fixed_foldl, State.fixed_update] | with_reducible refine (Result.keeps_next _ _).2 ⟨?_, ?_⟩)))); (try (have hq : x.fixed.1 = s.fixed.1 := by (simp only [x]; (repeat' split) <;> simp [*, State.fixed_foldl, State.queue_foldl]))); try clear_value x) | with_reducible assumption | (intro s x hw) | with_reducible apply FixedOk.foldl | with_reducible apply State.at_ok | with_reducible apply State.laneGoto_ok | with_reducible apply State.laneFault_ok | (split) | (simp [*, State.fixed_foldl, State.queue_foldl]; done) | split | simp only [State.fixed_foldl, State.fixed_update] | with_reducible refine (Result.keeps_next _ _).2 ⟨?_, ?_⟩)

@[simp ↓] theorem execSyncRx_keeps {q} {s : State} (hq : s.fixed.1 = q) (hw : FixedOk s.fixed) (t : Nat) (lane : Nat) (dn : Nat) (frame : List Byte) (fcs : Bool) : Result.keeps q (execSyncRx t lane dn frame fcs s) := by
  unfold execSyncRx
  repeat' (first | (extract_lets +onlyGivenNames x; (try (have hx : FixedOk x.fixed := by (simp only [x]; repeat' (first | with_reducible assumption | (intro s x hw) | with_reducible apply FixedOk.foldl | with_reducible apply State.at_ok | with_reducible apply State.laneGoto_ok | with_reducible apply State.laneFault_ok | with_reducible apply State.integrate_ok | with_reducible apply State.takeSync_ok | with_reducible apply State.heed_ok | split | (simp [*, State.fixed_foldl, State.queue_foldl]; done) | split | simp only [State.fixed_foldl, State.fixed_update] | with_reducible refine (Result.keeps_next _ _).2 ⟨?_, ?_⟩)))); (try (have hq : x.fixed.1 = s.fixed.1 := by (simp only [x]; (repeat' split) <;> simp [*, State.fixed_foldl, State.queue_foldl]))); try clear_value x) | with_reducible assumption | (intro s x hw) | with_reducible apply FixedOk.foldl | with_reducible apply State.at_ok | with_reducible apply State.laneGoto_ok | with_reducible apply State.laneFault_ok | with_reducible apply State.integrate_ok | with_reducible apply State.takeSync_ok | with_reducible apply State.heed_ok | (split <;> (try (have e1 := (congrArg (fun p => State.fixed (Prod.fst p)) ‹_ = ((_ : State), _)›).symm; simp [*] at e1)) <;> (try (have e1 := (congrArg (fun p => State.fixed (Prod.snd p)) ‹_ = (_, (_ : State))›).symm; simp [*] at e1))) | (simp [*, State.fixed_foldl, State.queue_foldl]; done) | split | simp only [State.fixed_foldl, State.fixed_update] | with_reducible refine (Result.keeps_next _ _).2 ⟨?_, ?_⟩)

@[simp ↓] theorem execColdstartRx_keeps {q} {s : State} (hq : s.fixed.1 = q) (hw : FixedOk s.fixed) (t : Nat) (lane : Nat) (dn : Nat) (frame : List Byte) (fcs : Bool) : Result.keeps q (execColdstartRx t lane dn frame fcs s) := by
  unfold execColdstartRx
  repeat' (first | (extract_lets +onlyGivenNames x; (try (have hx : FixedOk x.fixed := by (simp only [x]; repeat' (first | with_reducible assumption | (intro s x hw) | with_reducible apply FixedOk.foldl | with_reducible apply State.at_ok | with_reducible apply State.laneGoto_ok | with_reducible apply State.laneFault_ok | with_reducible apply State.integrate_ok | with_reducible apply State.heed_ok | split | (simp [*, State.fixed_foldl, State.queue_foldl]; done) | split | simp only [State.fixed_foldl, State.fixed_update] | with_reducible refine (Result.keeps_next _ _).2 ⟨?_, ?_⟩)))); (try (have hq : x.fixed.1 = s.fixed.1 := by (simp only [x]; (repeat' split) <;> simp [*, State.fixed_foldl, State.queue_foldl]))); try clear_value x) | with_reducible assumption | (intro s x hw) | with_reducible apply FixedOk.foldl | with_reducible apply State.at_ok | with_reducible apply State.laneGoto_ok | with_reducible apply State.laneFault_ok | with_reducible apply State.integrate_ok | with_reducible apply State.heed_ok | (split <;> (try (have e1 := (congrArg (fun p => State.fixed (Prod.fst p)) ‹_ = ((_ : State), _)›).symm; simp [*] at e1)) <;> (try (have e1 := (congrArg (fun p => State.fixed (Prod.snd p)) ‹_ = (_, (_ : State))›).symm; simp [*] at e1))) | (simp [*, State.fixed_foldl, State.queue_foldl]; done) | split | simp only [State.fixed_foldl, State.fixed_update] | with_reducible refine (Result.keeps_next _ _).2 ⟨?_, ?_⟩)

@[simp ↓] theorem execListenEnd_keeps {q} {s : State} (hq : s.fixed.1 = q) (hw : FixedOk s.fixed) (t : Nat) (lane : Nat) : Result.keeps q (execListenEnd t lane s) := by
  unfold execListenEnd
  repeat' (first | (extract_lets +onlyGivenNames x; (try (have hx : FixedOk x.fixed := by (simp only [x]; repeat' (first | with_reducible assumption | (intro s x hw) | with_reducible apply FixedOk.foldl | with_reducible apply State.at_ok | split | (simp [*, State.fixed_foldl, State.queue_foldl]; done) | split | simp only [State.fixed_foldl, State.fixed_update] | with_reducible refine (Result.keeps_next _ _).2 ⟨?_, ?_⟩)))); (try (have hq : x.fixed.1 = s.fixed.1 := by (simp only [x]; (repeat' split) <;> simp [*, State.fixed_foldl, State.queue_foldl]))); try clear_value x) | with_reducible assumption | (intro s x hw) | with_reducible apply FixedOk.foldl | with_reducible apply State.at_ok | (split) | (simp [*, State.fixed_foldl, State.queue_foldl]; done) | split | simp only [State.fixed_foldl, State.fixed_update] | with_reducible refine (Result.keeps_next _ _).2 ⟨?_, ?_⟩)

@[simp ↓] theorem State.becomeMaster_fixed (s : State) (l : Nat) : (s.becomeMaster l).fixed = s.fixed := by
  unfold State.becomeMaster
  repeat' (first | (extract_lets +onlyGivenNames x; (try (have hx : x.fixed = s.fixed := by (simp only [x]; (repeat' split) <;> simp [*, State.fixed_foldl]))); try clear_value x) | (split) | (simp [*, State.fixed_foldl]; done))

@[simp ↓] theorem execContestWindowEnd_keeps {q} {s : State} (hq : s.fixed.1 = q) (hw : FixedOk s.fixed) (t : Nat) (lane : Nat) : Result.keeps q (execContestWindowEnd t lane s) := by
  unfold execContestWindowEnd
  repeat' (first | (extract_lets +onlyGivenNames x; (try (have hx : FixedOk x.fixed := by (simp only [x]; repeat' (first | with_reducible assumption | (intro s x hw) | with_reducible apply FixedOk.foldl | with_reducible apply State.at_ok | with_reducible apply State.laneGoto_ok | split | (simp [*, State.fixed_foldl, State.queue_foldl]; done) | split | simp only [State.fixed_foldl, State.fixed_update] | with_reducible refine (Result.keeps_next _ _).2 ⟨?_, ?_⟩)))); (try (have hq : x.fixed.1 = s.fixed.1 := by (simp only [x]; (repeat' split) <;> simp [*, State.fixed_foldl, State.queue_foldl]))); try clear_value x) | with_reducible assumption | (intro s x hw) | with_reducible apply FixedOk.foldl | with_reducible apply State.at_ok | with_reducible apply State.laneGoto_ok | (split) | (simp [*, State.fixed_foldl, State.queue_foldl]; done) | split | simp only [State.fixed_foldl, State.fixed_update] | with_reducible refine (Result.keeps_next _ _).2 ⟨?_, ?_⟩)

@[simp ↓] theorem execSyncLoss_keeps {q} {s : State} (hq : s.fixed.1 = q) (hw : FixedOk s.fixed) (t : Nat) (lane : Nat) : Result.keeps q (execSyncLoss t lane s) := by
  unfold execSyncLoss
  repeat' (first | (extract_lets +onlyGivenNames x; (try (have hx : FixedOk x.fixed := by (simp only [x]; repeat' (first | with_reducible assumption | (intro s x hw) | with_reducible apply FixedOk.foldl | with_reducible apply State.at_ok | with_reducible apply State.laneGoto_ok | split | (simp [*, State.fixed_foldl, State.queue_foldl]; done) | split | simp only [State.fixed_foldl, State.fixed_update] | with_reducible refine (Result.keeps_next _ _).2 ⟨?_, ?_⟩)))); (try (have hq : x.fixed.1 = s.fixed.1 := by (simp only [x]; (repeat' split) <;> simp [*, State.fixed_foldl, State.queue_foldl]))); try clear_value x) | with_reducible assumption | (intro s x hw) | with_reducible apply FixedOk.foldl | with_reducible apply State.at_ok | with_reducible apply State.laneGoto_ok | (split) | (simp [*, State.fixed_foldl, State.queue_foldl]; done) | split | simp only [State.fixed_foldl, State.fixed_update] | with_reducible refine (Result.keeps_next _ _).2 ⟨?_, ?_⟩)

@[simp ↓] theorem execMasterSilent_keeps {q} {s : State} (hq : s.fixed.1 = q) (hw : FixedOk s.fixed) (t : Nat) (lane : Nat) : Result.keeps q (execMasterSilent t lane s) := by
  unfold execMasterSilent
  repeat' (first | (extract_lets +onlyGivenNames x; (try (have hx : FixedOk x.fixed := by (simp only [x]; repeat' (first | with_reducible assumption | (intro s x hw) | with_reducible apply FixedOk.foldl | with_reducible apply State.at_ok | split | (simp [*, State.fixed_foldl, State.queue_foldl]; done) | split | simp only [State.fixed_foldl, State.fixed_update] | with_reducible refine (Result.keeps_next _ _).2 ⟨?_, ?_⟩)))); (try (have hq : x.fixed.1 = s.fixed.1 := by (simp only [x]; (repeat' split) <;> simp [*, State.fixed_foldl, State.queue_foldl]))); try clear_value x) | with_reducible assumption | (intro s x hw) | with_reducible apply FixedOk.foldl | with_reducible apply State.at_ok | (split) | (simp [*, State.fixed_foldl, State.queue_foldl]; done) | split | simp only [State.fixed_foldl, State.fixed_update] | with_reducible refine (Result.keeps_next _ _).2 ⟨?_, ?_⟩)

@[simp ↓] theorem execLaneFreewheel_keeps {q} {s : State} (hq : s.fixed.1 = q) (hw : FixedOk s.fixed) (t : Nat) :
    Result.keeps q (execLaneFreewheel t s) := by
  unfold execLaneFreewheel
  extract_lets s1 quiet s2
  have q1 : s1.fixed.1 = q := by simp [s1, hq]
  have w1 : FixedOk s1.fixed := by simp [s1, hw]
  have h2 : s2.fixed = s1.fixed := by simp [s2]
  clear_value s1 s2
  split
  · have e := State.fixed_foldl [0, 1] (fun (s : State) (l : Nat) => if s.laneSynced l then s.putFlag (Reg.LANE_STAT.FREEWHEEL l) true else s)
      (fun s x => by split <;> simp) s2
    exact ⟨by rw [e, h2, q1], by rw [e, h2]; exact w1⟩
  · exact ⟨q1, w1⟩

@[simp ↓] theorem execPdelayReq_keeps {q} {s : State} (hq : s.fixed.1 = q) (hw : FixedOk s.fixed) (t : Nat) (lane : Nat) (dn : Nat) (frame : List Byte) (fcs : Bool) (turn : Nat) : Result.keeps q (execPdelayReq t lane dn frame fcs turn s) := by
  unfold execPdelayReq
  repeat' (first | (extract_lets +onlyGivenNames x; (try (have hx : FixedOk x.fixed := by (simp only [x]; repeat' (first | with_reducible assumption | (intro s x hw) | with_reducible apply FixedOk.foldl | with_reducible apply State.at_ok | with_reducible apply State.laneFault_ok | with_reducible apply State.heed_ok | split | (simp [*, State.fixed_foldl, State.queue_foldl]; done) | split | simp only [State.fixed_foldl, State.fixed_update] | with_reducible refine (Result.keeps_next _ _).2 ⟨?_, ?_⟩)))); (try (have hq : x.fixed.1 = s.fixed.1 := by (simp only [x]; (repeat' split) <;> simp [*, State.fixed_foldl, State.queue_foldl]))); try clear_value x) | with_reducible assumption | (intro s x hw) | with_reducible apply FixedOk.foldl | with_reducible apply State.at_ok | with_reducible apply State.laneFault_ok | with_reducible apply State.heed_ok | (split <;> (try (have e1 := (congrArg (fun p => State.fixed (Prod.fst p)) ‹_ = ((_ : State), _)›).symm; simp [*] at e1)) <;> (try (have e1 := (congrArg (fun p => State.fixed (Prod.snd p)) ‹_ = (_, (_ : State))›).symm; simp [*] at e1))) | (simp [*, State.fixed_foldl, State.queue_foldl]; done) | split | simp only [State.fixed_foldl, State.fixed_update] | with_reducible refine (Result.keeps_next _ _).2 ⟨?_, ?_⟩)

@[simp ↓] theorem execPdelayResp_keeps {q} {s : State} (hq : s.fixed.1 = q) (hw : FixedOk s.fixed) (t : Nat) (lane : Nat) (dn : Nat) (t1 : Nat) (t4 : Nat) (frame : List Byte) (fcs : Bool) : Result.keeps q (execPdelayResp t lane dn t1 t4 frame fcs s) := by
  unfold execPdelayResp
  repeat' (first | (extract_lets +onlyGivenNames x; (try (have hx : FixedOk x.fixed := by (simp only [x]; repeat' (first | with_reducible assumption | (intro s x hw) | with_reducible apply FixedOk.foldl | with_reducible apply State.at_ok | with_reducible apply State.laneFault_ok | with_reducible apply State.heed_ok | split | (simp [*, State.fixed_foldl, State.queue_foldl]; done) | split | simp only [State.fixed_foldl, State.fixed_update] | with_reducible refine (Result.keeps_next _ _).2 ⟨?_, ?_⟩)))); (try (have hq : x.fixed.1 = s.fixed.1 := by (simp only [x]; (repeat' split) <;> simp [*, State.fixed_foldl, State.queue_foldl]))); try clear_value x) | with_reducible assumption | (intro s x hw) | with_reducible apply FixedOk.foldl | with_reducible apply State.at_ok | with_reducible apply State.laneFault_ok | with_reducible apply State.heed_ok | (split <;> (try (have e1 := (congrArg (fun p => State.fixed (Prod.fst p)) ‹_ = ((_ : State), _)›).symm; simp [*] at e1)) <;> (try (have e1 := (congrArg (fun p => State.fixed (Prod.snd p)) ‹_ = (_, (_ : State))›).symm; simp [*] at e1))) | (simp [*, State.fixed_foldl, State.queue_foldl]; done) | split | simp only [State.fixed_foldl, State.fixed_update] | with_reducible refine (Result.keeps_next _ _).2 ⟨?_, ?_⟩)

@[simp ↓] theorem State.takeAnnounce_fixed (s : State) (op : Nat) (cid : Nat) (m : Nat) (actId : Nat) : (s.takeAnnounce op cid m actId).fixed = s.fixed := by
  unfold State.takeAnnounce
  repeat' (first | (extract_lets +onlyGivenNames x; (try (have hx : x.fixed = s.fixed := by (simp only [x]; (repeat' split) <;> simp [*, State.fixed_foldl]))); try clear_value x) | (split) | (simp [*, State.fixed_foldl]; done))

@[simp ↓] theorem State.endMode_fixed (s : State) : (s.endMode).fixed = s.fixed := by
  unfold State.endMode
  repeat' (first | (extract_lets +onlyGivenNames x; (try (have hx : x.fixed = s.fixed := by (simp only [x]; (repeat' split) <;> simp [*, State.fixed_foldl]))); try clear_value x) | (split) | (simp [*, State.fixed_foldl]; done))

@[simp ↓] theorem State.endLaneAct_fixed (s : State) : (s.endLaneAct).fixed = s.fixed := by
  simp [State.endLaneAct, State.fixed_foldl]

@[simp ↓] theorem State.takeDecision_fixed (s : State) (op : Nat) (m : Nat) : (s.takeDecision op m).fixed = s.fixed := by
  unfold State.takeDecision
  repeat' (first | (extract_lets +onlyGivenNames x; (try (have hx : x.fixed = s.fixed := by (simp only [x]; (repeat' split) <;> simp [*, State.fixed_foldl]))); try clear_value x) | (split) | (simp [*, State.fixed_foldl]; done))

@[simp ↓] theorem State.negotiate_fixed (s : State) (l : Nat) : (s.negotiate l).fixed = s.fixed := by
  unfold State.negotiate
  repeat' (first | (extract_lets +onlyGivenNames x; (try (have hx : x.fixed = s.fixed := by (simp only [x]; (repeat' split) <;> simp [*, State.fixed_foldl]))); try clear_value x) | (split) | (simp [*, State.fixed_foldl]; done))

@[simp ↓] theorem execStatusRx_keeps {q} {s : State} (hq : s.fixed.1 = q) (hw : FixedOk s.fixed) (t : Nat) (lane : Nat) (frame : List Byte) (fcs : Bool) : Result.keeps q (execStatusRx t lane frame fcs s) := by
  unfold execStatusRx
  repeat' (first | (extract_lets +onlyGivenNames x; (try (have hx : FixedOk x.fixed := by (simp only [x]; repeat' (first | with_reducible assumption | (intro s x hw) | with_reducible apply FixedOk.foldl | with_reducible apply State.at_ok | with_reducible apply State.laneFault_ok | with_reducible apply State.heed_ok | split | (simp [*, State.fixed_foldl, State.queue_foldl]; done) | split | simp only [State.fixed_foldl, State.fixed_update] | with_reducible refine (Result.keeps_next _ _).2 ⟨?_, ?_⟩)))); (try (have hq : x.fixed.1 = s.fixed.1 := by (simp only [x]; (repeat' split) <;> simp [*, State.fixed_foldl, State.queue_foldl]))); try clear_value x) | with_reducible assumption | (intro s x hw) | with_reducible apply FixedOk.foldl | with_reducible apply State.at_ok | with_reducible apply State.laneFault_ok | with_reducible apply State.heed_ok | (split <;> (try (have e1 := (congrArg (fun p => State.fixed (Prod.fst p)) ‹_ = ((_ : State), _)›).symm; simp [*] at e1)) <;> (try (have e1 := (congrArg (fun p => State.fixed (Prod.snd p)) ‹_ = (_, (_ : State))›).symm; simp [*] at e1))) | (simp [*, State.fixed_foldl, State.queue_foldl]; done) | split | simp only [State.fixed_foldl, State.fixed_update] | with_reducible refine (Result.keeps_next _ _).2 ⟨?_, ?_⟩)

@[simp ↓] theorem execDataRx_keeps {q} {s : State} (hq : s.fixed.1 = q) (hw : FixedOk s.fixed) (t : Nat) (lane : Nat) (frame : List Byte) (fcs : Bool) : Result.keeps q (execDataRx t lane frame fcs s) := by
  unfold execDataRx
  repeat' (first | (extract_lets +onlyGivenNames x; (try (have hx : FixedOk x.fixed := by (simp only [x]; repeat' (first | with_reducible assumption | (intro s x hw) | with_reducible apply FixedOk.foldl | with_reducible apply State.at_ok | with_reducible apply State.laneClaim_ok | with_reducible apply State.gwArrived_ok | with_reducible apply State.laneFault_ok | with_reducible apply State.heed_ok | split | (simp [*, State.fixed_foldl, State.queue_foldl]; done) | split | simp only [State.fixed_foldl, State.fixed_update] | with_reducible refine (Result.keeps_next _ _).2 ⟨?_, ?_⟩)))); (try (have hq : x.fixed.1 = s.fixed.1 := by (simp only [x]; (repeat' split) <;> simp [*, State.fixed_foldl, State.queue_foldl]))); try clear_value x) | with_reducible assumption | (intro s x hw) | with_reducible apply FixedOk.foldl | with_reducible apply State.at_ok | with_reducible apply State.laneClaim_ok | with_reducible apply State.gwArrived_ok | with_reducible apply State.laneFault_ok | with_reducible apply State.heed_ok | (split <;> (try (have e1 := (congrArg (fun p => State.fixed (Prod.fst p)) ‹_ = ((_ : State), _)›).symm; simp [*] at e1)) <;> (try (have e1 := (congrArg (fun p => State.fixed (Prod.snd p)) ‹_ = (_, (_ : State))›).symm; simp [*] at e1))) | (simp [*, State.fixed_foldl, State.queue_foldl]; done) | split | simp only [State.fixed_foldl, State.fixed_update] | with_reducible refine (Result.keeps_next _ _).2 ⟨?_, ?_⟩)

@[simp ↓] theorem State.holdFeedback_fixed (s : State) (node : Nat) (age : Nat) (r : List Byte) : (s.holdFeedback node age r).fixed = s.fixed := by
  unfold State.holdFeedback
  repeat' (first | (extract_lets +onlyGivenNames x; (try (have hx : x.fixed = s.fixed := by (simp only [x]; (repeat' split) <;> simp [*, State.fixed_foldl]))); try clear_value x) | (split) | (simp [*, State.fixed_foldl]; done))

@[simp ↓] theorem execFeedbackRx_keeps {q} {s : State} (hq : s.fixed.1 = q) (hw : FixedOk s.fixed) (t : Nat) (lane : Nat) (frame : List Byte) (fcs : Bool) : Result.keeps q (execFeedbackRx t lane frame fcs s) := by
  unfold execFeedbackRx
  repeat' (first | (extract_lets +onlyGivenNames x; (try (have hx : FixedOk x.fixed := by (simp only [x]; repeat' (first | with_reducible assumption | (intro s x hw) | with_reducible apply FixedOk.foldl | with_reducible apply State.at_ok | with_reducible apply State.laneClaim_ok | with_reducible apply State.laneFault_ok | split | (simp [*, State.fixed_foldl, State.queue_foldl]; done) | split | simp only [State.fixed_foldl, State.fixed_update] | with_reducible refine (Result.keeps_next _ _).2 ⟨?_, ?_⟩)))); (try (have hq : x.fixed.1 = s.fixed.1 := by (simp only [x]; (repeat' split) <;> simp [*, State.fixed_foldl, State.queue_foldl]))); try clear_value x) | with_reducible assumption | (intro s x hw) | with_reducible apply FixedOk.foldl | with_reducible apply State.at_ok | with_reducible apply State.laneClaim_ok | with_reducible apply State.laneFault_ok | (split <;> (try (have e1 := (congrArg (fun p => State.fixed (Prod.fst p)) ‹_ = ((_ : State), _)›).symm; simp [*] at e1)) <;> (try (have e1 := (congrArg (fun p => State.fixed (Prod.snd p)) ‹_ = (_, (_ : State))›).symm; simp [*] at e1))) | (simp [*, State.fixed_foldl, State.queue_foldl]; done) | split | simp only [State.fixed_foldl, State.fixed_update] | with_reducible refine (Result.keeps_next _ _).2 ⟨?_, ?_⟩)

@[simp ↓] theorem execStreamAgeStale_rests {fx} (s : State) (m : Nat) (h : s.fixed = fx) : Result.rests fx (execStreamAgeStale m s) := by
  subst h
  unfold execStreamAgeStale
  repeat' (first | (extract_lets +onlyGivenNames x; (try (have hx : x.fixed = s.fixed := by (simp only [x]; (repeat' split) <;> simp [*, State.fixed_foldl]))); try clear_value x) | (split) | (simp [*, State.fixed_foldl]; done) | (refine (State.fixed_foldl _ _ ?_ _).trans ?_) | (refine congrArg Prod.fst ((State.fixed_foldl _ _ ?_ _).trans ?_)) | (refine (State.queue_foldl _ _ ?_ _).trans ?_) | (intro s x) | simp [*])

@[simp ↓] theorem State.announce_fixed (s : State) (op : Nat) (cid : Nat) (actId : Nat) : (s.announce op cid actId).fixed = s.fixed := by
  unfold State.announce
  repeat' (first | (extract_lets +onlyGivenNames x; (try (have hx : x.fixed = s.fixed := by (simp only [x]; (repeat' split) <;> simp [*, State.fixed_foldl]))); try clear_value x) | (split) | (simp [*, State.fixed_foldl]; done))

@[simp ↓] theorem execAnnounceCadence_keeps {q} {s : State} (hq : s.fixed.1 = q) (hw : FixedOk s.fixed) (t : Nat) (who : Initiator) (cid : BitVec 16) : Result.keeps q (execAnnounceCadence t who cid s) := by
  unfold execAnnounceCadence
  repeat' (first | (extract_lets +onlyGivenNames x; (try (have hx : FixedOk x.fixed := by (simp only [x]; repeat' (first | with_reducible assumption | (intro s x hw) | with_reducible apply FixedOk.foldl | with_reducible apply State.at_ok | split | (simp [*, State.fixed_foldl, State.queue_foldl]; done) | split | simp only [State.fixed_foldl, State.fixed_update] | with_reducible refine (Result.keeps_next _ _).2 ⟨?_, ?_⟩)))); (try (have hq : x.fixed.1 = s.fixed.1 := by (simp only [x]; (repeat' split) <;> simp [*, State.fixed_foldl, State.queue_foldl]))); try clear_value x) | with_reducible assumption | (intro s x hw) | with_reducible apply FixedOk.foldl | with_reducible apply State.at_ok | (split <;> (try (have e1 := (congrArg (fun p => State.fixed (Prod.fst p)) ‹_ = ((_ : State), _)›).symm; simp [*] at e1)) <;> (try (have e1 := (congrArg (fun p => State.fixed (Prod.snd p)) ‹_ = (_, (_ : State))›).symm; simp [*] at e1))) | (simp [*, State.fixed_foldl, State.queue_foldl]; done) | split | simp only [State.fixed_foldl, State.fixed_update] | with_reducible refine (Result.keeps_next _ _).2 ⟨?_, ?_⟩)

@[simp ↓] theorem execAnnounceActivate_keeps {q} {s : State} (hq : s.fixed.1 = q) (hw : FixedOk s.fixed) (t : Nat) (who : Initiator) (cid : BitVec 16) : Result.keeps q (execAnnounceActivate t who cid s) := by
  unfold execAnnounceActivate
  repeat' (first | (extract_lets +onlyGivenNames x; (try (have hx : FixedOk x.fixed := by (simp only [x]; repeat' (first | with_reducible assumption | (intro s x hw) | with_reducible apply FixedOk.foldl | with_reducible apply State.at_ok | split | (simp [*, State.fixed_foldl, State.queue_foldl]; done) | split | simp only [State.fixed_foldl, State.fixed_update] | with_reducible refine (Result.keeps_next _ _).2 ⟨?_, ?_⟩)))); (try (have hq : x.fixed.1 = s.fixed.1 := by (simp only [x]; (repeat' split) <;> simp [*, State.fixed_foldl, State.queue_foldl]))); try clear_value x) | with_reducible assumption | (intro s x hw) | with_reducible apply FixedOk.foldl | with_reducible apply State.at_ok | (split <;> (try (have e1 := (congrArg (fun p => State.fixed (Prod.fst p)) ‹_ = ((_ : State), _)›).symm; simp [*] at e1)) <;> (try (have e1 := (congrArg (fun p => State.fixed (Prod.snd p)) ‹_ = (_, (_ : State))›).symm; simp [*] at e1))) | (simp [*, State.fixed_foldl, State.queue_foldl]; done) | split | simp only [State.fixed_foldl, State.fixed_update] | with_reducible refine (Result.keeps_next _ _).2 ⟨?_, ?_⟩)

@[simp ↓] theorem State.cancelAnnounce_fixed (s : State) : (s.cancelAnnounce).fixed = s.fixed := by
  unfold State.cancelAnnounce
  repeat' (first | (extract_lets +onlyGivenNames x; (try (have hx : x.fixed = s.fixed := by (simp only [x]; (repeat' split) <;> simp [*, State.fixed_foldl]))); try clear_value x) | (split) | (simp [*, State.fixed_foldl]; done))

@[simp ↓] theorem execCancel_keeps {q} {s : State} (hq : s.fixed.1 = q) (hw : FixedOk s.fixed) (t : Nat) (who : Initiator) : Result.keeps q (execCancel t who s) := by
  unfold execCancel
  repeat' (first | (extract_lets +onlyGivenNames x; (try (have hx : FixedOk x.fixed := by (simp only [x]; repeat' (first | with_reducible assumption | (intro s x hw) | with_reducible apply FixedOk.foldl | with_reducible apply State.at_ok | split | (simp [*, State.fixed_foldl, State.queue_foldl]; done) | split | simp only [State.fixed_foldl, State.fixed_update] | with_reducible refine (Result.keeps_next _ _).2 ⟨?_, ?_⟩)))); (try (have hq : x.fixed.1 = s.fixed.1 := by (simp only [x]; (repeat' split) <;> simp [*, State.fixed_foldl, State.queue_foldl]))); try clear_value x) | with_reducible assumption | (intro s x hw) | with_reducible apply FixedOk.foldl | with_reducible apply State.at_ok | (split <;> (try (have e1 := (congrArg (fun p => State.fixed (Prod.fst p)) ‹_ = ((_ : State), _)›).symm; simp [*] at e1)) <;> (try (have e1 := (congrArg (fun p => State.fixed (Prod.snd p)) ‹_ = (_, (_ : State))›).symm; simp [*] at e1))) | (simp [*, State.fixed_foldl, State.queue_foldl]; done) | split | simp only [State.fixed_foldl, State.fixed_update] | with_reducible refine (Result.keeps_next _ _).2 ⟨?_, ?_⟩)

@[simp ↓] theorem execModeChangeDecision_keeps {q} {s : State} (hq : s.fixed.1 = q) (hw : FixedOk s.fixed) (t : Nat) : Result.keeps q (execModeChangeDecision t s) := by
  unfold execModeChangeDecision
  repeat' (first | (extract_lets +onlyGivenNames x; (try (have hx : FixedOk x.fixed := by (simp only [x]; repeat' (first | with_reducible assumption | (intro s x hw) | with_reducible apply FixedOk.foldl | with_reducible apply State.at_ok | split | (simp [*, State.fixed_foldl, State.queue_foldl]; done) | split | simp only [State.fixed_foldl, State.fixed_update] | with_reducible refine (Result.keeps_next _ _).2 ⟨?_, ?_⟩)))); (try (have hq : x.fixed.1 = s.fixed.1 := by (simp only [x]; (repeat' split) <;> simp [*, State.fixed_foldl, State.queue_foldl]))); try clear_value x) | with_reducible assumption | (intro s x hw) | with_reducible apply FixedOk.foldl | with_reducible apply State.at_ok | (split) | (simp [*, State.fixed_foldl, State.queue_foldl]; done) | split | simp only [State.fixed_foldl, State.fixed_update] | with_reducible refine (Result.keeps_next _ _).2 ⟨?_, ?_⟩)

end Sys2Proof.Machine
end

