-- ==== Sys2Proof/Laws/DoorRec.lean ====
section
/-! SUPPORT. Laws/DoorRec.lean: what the operations of Machine/DoorRec.lean leave alone. -/
set_option linter.all false
namespace Sys2Proof.Machine

@[simp ↓] theorem State.setDax_fixed (s : State) (n : Nat) (x : DAxis) : (s.setDax n x).fixed = s.fixed := by
  simp [State.setDax, State.fixed_foldl]

@[simp ↓] theorem State.setMx_fixed (s : State) (n : Nat) (x : MAxis) : (s.setMx n x).fixed = s.fixed := by
  simp [State.setMx, State.fixed_foldl]

@[simp ↓] theorem State.openCycle_fixed (s : State) (n : Nat) : (s.openCycle n).fixed = s.fixed := by
  unfold State.openCycle
  repeat' (first | (extract_lets +onlyGivenNames x; (try (have hx : x.fixed = s.fixed := by (simp only [x]; (repeat' split) <;> simp [*, State.fixed_foldl]))); try clear_value x) | (split) | (simp [*, State.fixed_foldl]; done))

@[simp ↓] theorem State.endCycle_fixed (s : State) (n : Nat) (end_ : Nat) : (s.endCycle n end_).fixed = s.fixed := by
  unfold State.endCycle
  repeat' (first | (extract_lets +onlyGivenNames x; (try (have hx : x.fixed = s.fixed := by (simp only [x]; (repeat' split) <;> simp [*, State.fixed_foldl]))); try clear_value x) | (split) | (simp [*, State.fixed_foldl]; done))

@[simp ↓] theorem State.shedCycles_fixed (s : State) : (s.shedCycles).fixed = s.fixed := by
  simp [State.shedCycles, State.fixed_foldl]

end Sys2Proof.Machine
end

