-- ==== Sys2Proof/Laws/MotOps.lean ====
section
/-! SUPPORT. Laws/MotOps.lean: what the operations of Machine/MotOps.lean leave alone. -/
set_option linter.all false
namespace Sys2Proof.Machine

@[simp ↓] theorem State.showQueue_fixed (s : State) (n : Nat) : (s.showQueue n).fixed = s.fixed := by
  simp [State.showQueue, State.fixed_foldl]

@[simp ↓] theorem State.standstill_fixed (s : State) (n : Nat) (r : Nat) : (s.standstill n r).fixed = s.fixed := by
  unfold State.standstill
  repeat' (first | (extract_lets +onlyGivenNames x; (try (have hx : x.fixed = s.fixed := by (simp only [x]; (repeat' split) <;> simp [*, State.fixed_foldl]))); try clear_value x) | (split) | (simp [*, State.fixed_foldl]; done))

@[simp ↓] theorem State.stopOne_fixed (s : State) (n : Nat) (r : Nat) : (s.stopOne n r).fixed = s.fixed := by
  unfold State.stopOne
  repeat' (first | (extract_lets +onlyGivenNames x; (try (have hx : x.fixed = s.fixed := by (simp only [x]; (repeat' split) <;> simp [*, State.fixed_foldl]))); try clear_value x) | (split) | (simp [*, State.fixed_foldl]; done))

@[simp ↓] theorem State.stopAxis_fixed (s : State) (n : Nat) (r : Nat) : (s.stopAxis n r).fixed = s.fixed := by
  simp [State.stopAxis, State.fixed_foldl]

@[simp ↓] theorem State.acted_fixed (s : State) (n : Nat) : (s.acted n).fixed = s.fixed := by
  simp [State.acted, State.fixed_foldl]

@[simp ↓] theorem State.clampMove_fixed (s : State) (n : Nat) (m : Move) : (s.clampMove n m).1.fixed = s.fixed := by
  unfold State.clampMove
  repeat' (first | (extract_lets +onlyGivenNames x; (try (have hx : x.fixed = s.fixed := by (simp only [x]; (repeat' split) <;> simp [*, State.fixed_foldl]))); try clear_value x) | (split) | (simp [*, State.fixed_foldl]; done))

@[simp ↓] theorem State.clampMoves_fixed (s : State) (n : Nat) (l : List Move) : (s.clampMoves n l).1.fixed = s.fixed := by
  induction l generalizing s with
  | nil => rfl
  | cons m t ih =>
    simp only [State.clampMoves]
    rw [ih, State.clampMove_fixed]

@[simp ↓] theorem State.showSlowed_fixed (s : State) (n : Nat) : (s.showSlowed n).fixed = s.fixed := by
  unfold State.showSlowed
  split <;> simp

@[simp ↓] theorem State.moveStarts_fixed (s : State) (n : Nat) : (s.moveStarts n).fixed = s.fixed := by
  unfold State.moveStarts
  repeat' (first | (extract_lets +onlyGivenNames x; (try (have hx : x.fixed = s.fixed := by (simp only [x]; (repeat' split) <;> simp [*, State.fixed_foldl]))); try clear_value x) | (split) | (simp [*, State.fixed_foldl]; done))

@[simp ↓] theorem State.accWindow_fixed (s : State) (n : Nat) : (s.accWindow n).fixed = s.fixed := by
  simp [State.accWindow, State.fixed_foldl]

@[simp ↓] theorem State.planAxis_fixed (s : State) (n : Nat) (queue : List Move) (stop : Nat) (force : Bool) : (s.planAxis n queue stop force).fixed = s.fixed := by
  unfold State.planAxis
  repeat' (first | (extract_lets +onlyGivenNames x; (try (have hx : x.fixed = s.fixed := by (simp only [x]; (repeat' split) <;> simp [*, State.fixed_foldl]))); try clear_value x) | (split) | (simp [*, State.fixed_foldl]; done))

@[simp ↓] theorem State.startMoves_fixed (s : State) (n : Nat) (moves : List Move) (stop : Nat) (force : Bool) :
    (s.startMoves n moves stop force).fixed = s.fixed := by
  have g := State.clampMoves_fixed s n moves
  rcases e : s.clampMoves n moves with ⟨s1, m1⟩
  rw [e] at g
  simp only [State.startMoves, e]
  cases m1 with
  | nil => exact g
  | cons a b =>
    show (if s1.limitRefuses n (s1.mx n).st.p a.target = true then s1 else s1.planAxis n (a :: b) stop force).fixed = s.fixed
    split
    · exact g
    · rw [State.planAxis_fixed]
      exact g

@[simp ↓] theorem State.completeMove_fixed (s : State) (n : Nat) : (s.completeMove n).fixed = s.fixed := by
  unfold State.completeMove
  repeat' (first | (extract_lets +onlyGivenNames x; (try (have hx : x.fixed = s.fixed := by (simp only [x]; (repeat' split) <;> simp [*, State.fixed_foldl]))); try clear_value x) | (split) | (simp [*, State.fixed_foldl]; done))

@[simp ↓] theorem State.pathEnd_fixed (s : State) (n : Nat) : (s.pathEnd n).fixed = s.fixed := by
  unfold State.pathEnd
  repeat' (first | (extract_lets +onlyGivenNames x; (try (have hx : x.fixed = s.fixed := by (simp only [x]; (repeat' split) <;> simp [*, State.fixed_foldl]))); try clear_value x) | (split) | (simp [*, State.fixed_foldl]; done) | (refine (State.fixed_foldl _ _ ?_ _).trans ?_) | (refine congrArg Prod.fst ((State.fixed_foldl _ _ ?_ _).trans ?_)) | (refine (State.queue_foldl _ _ ?_ _).trans ?_) | (intro s x) | simp [*])

@[simp ↓] theorem State.runAxis_fixed (s : State) (n : Nat) : (s.runAxis n).fixed = s.fixed := by
  unfold State.runAxis
  repeat' (first | (extract_lets +onlyGivenNames x; (try (have hx : x.fixed = s.fixed := by (simp only [x]; (repeat' split) <;> simp [*, State.fixed_foldl]))); try clear_value x) | (split) | (simp [*, State.fixed_foldl]; done))

@[simp ↓] theorem State.takeSample_fixed (s : State) (n : Nat) : (s.takeSample n).fixed = s.fixed := by
  unfold State.takeSample
  repeat' (first | (extract_lets +onlyGivenNames x; (try (have hx : x.fixed = s.fixed := by (simp only [x]; (repeat' split) <;> simp [*, State.fixed_foldl]))); try clear_value x) | (split) | (simp [*, State.fixed_foldl]; done))

@[simp ↓] theorem State.followFb_fixed (s : State) (n : Nat) : (s.followFb n).fixed = s.fixed := by
  unfold State.followFb
  repeat' (first | (extract_lets +onlyGivenNames x; (try (have hx : x.fixed = s.fixed := by (simp only [x]; (repeat' split) <;> simp [*, State.fixed_foldl]))); try clear_value x) | (split) | (simp [*, State.fixed_foldl]; done))

@[simp ↓] theorem State.stateFromFb_fixed (s : State) (n : Nat) : (s.stateFromFb n).fixed = s.fixed := by
  unfold State.stateFromFb
  repeat' (first | (extract_lets +onlyGivenNames x; (try (have hx : x.fixed = s.fixed := by (simp only [x]; (repeat' split) <;> simp [*, State.fixed_foldl]))); try clear_value x) | (split) | (simp [*, State.fixed_foldl]; done))

@[simp ↓] theorem State.replanQueue_fixed (s : State) (n : Nat) : (s.replanQueue n).fixed = s.fixed := by
  unfold State.replanQueue
  repeat' (first | (extract_lets +onlyGivenNames x; (try (have hx : x.fixed = s.fixed := by (simp only [x]; (repeat' split) <;> simp [*, State.fixed_foldl]))); try clear_value x) | (split) | (simp [*, State.fixed_foldl]; done))

@[simp ↓] theorem State.restFirst_fixed (s : State) (n : Nat) : (s.restFirst n).fixed = s.fixed := by
  unfold State.restFirst
  repeat' (first | (extract_lets +onlyGivenNames x; (try (have hx : x.fixed = s.fixed := by (simp only [x]; (repeat' split) <;> simp [*, State.fixed_foldl]))); try clear_value x) | (split) | (simp [*, State.fixed_foldl]; done))

@[simp ↓] theorem State.advanceAxis_fixed (s : State) (n : Nat) : (s.advanceAxis n).fixed = s.fixed := by
  unfold State.advanceAxis
  repeat' (first | (extract_lets +onlyGivenNames x; (try (have hx : x.fixed = s.fixed := by (simp only [x]; (repeat' split) <;> simp [*, State.fixed_foldl]))); try clear_value x) | (split) | (simp [*, State.fixed_foldl]; done))

@[simp ↓] theorem State.sampleLocal_fixed (s : State) (n : Nat) : (s.sampleLocal n).fixed = s.fixed := by
  unfold State.sampleLocal
  repeat' (first | (extract_lets +onlyGivenNames x; (try (have hx : x.fixed = s.fixed := by (simp only [x]; (repeat' split) <;> simp [*, State.fixed_foldl]))); try clear_value x) | (split) | (simp [*, State.fixed_foldl]; done) | (refine (State.fixed_foldl _ _ ?_ _).trans ?_) | (refine congrArg Prod.fst ((State.fixed_foldl _ _ ?_ _).trans ?_)) | (refine (State.queue_foldl _ _ ?_ _).trans ?_) | (intro s x) | simp [*])

@[simp ↓] theorem State.pulseLevel_fixed (s : State) (ch : Nat) (b : Bool) : (s.pulseLevel ch b).fixed = s.fixed := by
  simp [State.pulseLevel, State.fixed_foldl]

@[simp ↓] theorem State.driveLocal_queue (s : State) (n : Nat) : (s.driveLocal n).fixed.1 = s.fixed.1 := by
  unfold State.driveLocal
  repeat' (first | (extract_lets +onlyGivenNames x; (try (have hx : x.fixed.1 = s.fixed.1 := by (simp only [x]; (repeat' split) <;> simp [*, State.fixed_foldl, State.queue_foldl]))); try clear_value x) | (split) | (simp [*, State.fixed_foldl, State.queue_foldl]; done))

@[simp ↓] theorem State.driveLocal_ok {s : State} (hw : FixedOk s.fixed) (n : Nat) : FixedOk (s.driveLocal n).fixed := by
  unfold State.driveLocal
  repeat' (first | (extract_lets +onlyGivenNames x; (try (have hx : FixedOk x.fixed := by (simp only [x]; repeat' (first | with_reducible assumption | (intro s x hw) | with_reducible apply FixedOk.foldl | with_reducible apply State.chansUpdate_ok | split | (simp [*, State.fixed_foldl, State.queue_foldl]; done) | split | simp only [State.fixed_foldl, State.fixed_update] | with_reducible refine (Result.keeps_next _ _).2 ⟨?_, ?_⟩)))); (try (have hq : x.fixed.1 = s.fixed.1 := by (simp only [x]; (repeat' split) <;> simp [*, State.fixed_foldl, State.queue_foldl]))); try clear_value x) | with_reducible assumption | (intro s x hw) | with_reducible apply FixedOk.foldl | with_reducible apply State.chansUpdate_ok | (split) | (simp [*, State.fixed_foldl, State.queue_foldl]; done) | split | simp only [State.fixed_foldl, State.fixed_update] | with_reducible refine (Result.keeps_next _ _).2 ⟨?_, ?_⟩)

@[simp ↓] theorem State.showMotion_queue (s : State) : (s.showMotion).fixed.1 = s.fixed.1 := by
  unfold State.showMotion
  repeat' (first | (extract_lets +onlyGivenNames x; (try (have hx : x.fixed.1 = s.fixed.1 := by (simp only [x]; (repeat' split) <;> simp [*, State.fixed_foldl, State.queue_foldl]))); try clear_value x) | (split) | (simp [*, State.fixed_foldl, State.queue_foldl]; done))

@[simp ↓] theorem State.showMotion_ok {s : State} (hw : FixedOk s.fixed) : FixedOk (s.showMotion).fixed := by
  unfold State.showMotion
  repeat' (first | (extract_lets +onlyGivenNames x; (try (have hx : FixedOk x.fixed := by (simp only [x]; repeat' (first | with_reducible assumption | (intro s x hw) | with_reducible apply FixedOk.foldl | with_reducible apply State.liveWrite_ok | split | (simp [*, State.fixed_foldl, State.queue_foldl]; done) | split | simp only [State.fixed_foldl, State.fixed_update] | with_reducible refine (Result.keeps_next _ _).2 ⟨?_, ?_⟩)))); (try (have hq : x.fixed.1 = s.fixed.1 := by (simp only [x]; (repeat' split) <;> simp [*, State.fixed_foldl, State.queue_foldl]))); try clear_value x) | with_reducible assumption | (intro s x hw) | with_reducible apply FixedOk.foldl | with_reducible apply State.liveWrite_ok | (split) | (simp [*, State.fixed_foldl, State.queue_foldl]; done) | split | simp only [State.fixed_foldl, State.fixed_update] | with_reducible refine (Result.keeps_next _ _).2 ⟨?_, ?_⟩)

end Sys2Proof.Machine
end

