-- ==== Sys2Proof/Laws/LaneTx.lean ====
section
/-! SUPPORT. Laws/LaneTx.lean: what the operations of Machine/LaneTx.lean leave alone. -/
set_option linter.all false
namespace Sys2Proof.Machine

@[simp ↓] theorem State.showSent_fixed (s : State) (d : Nat) : (s.showSent d).fixed = s.fixed := by
  simp [State.showSent, State.fixed_foldl]

@[simp ↓] theorem State.laneSend_fixed (s : State) (l : Nat) (stream : Nat) (frame : List Byte) : (s.laneSend l stream frame).fixed = s.fixed := by
  unfold State.laneSend
  repeat' (first | (extract_lets +onlyGivenNames x; (try (have hx : x.fixed = s.fixed := by (simp only [x]; (repeat' split) <;> simp [*, State.fixed_foldl]))); try clear_value x) | (split) | (simp [*, State.fixed_foldl]; done))

@[simp ↓] theorem State.laneContent_fixed (s : State) (l : Nat) (e : Nat) (kind : Nat) : (s.laneContent l e kind).2.fixed = s.fixed := by
  unfold State.laneContent
  repeat' (first | (extract_lets +onlyGivenNames x; (try (have hx : x.fixed = s.fixed := by (simp only [x]; (repeat' split) <;> simp [*, State.fixed_foldl]))); try clear_value x) | (split <;> (try (have e1 := (congrArg (fun p => State.fixed (Prod.fst p)) ‹_ = ((_ : State), _)›).symm; simp [*] at e1)) <;> (try (have e1 := (congrArg (fun p => State.fixed (Prod.snd p)) ‹_ = (_, (_ : State))›).symm; simp [*] at e1))) | (simp [*, State.fixed_foldl]; done))

@[simp ↓] theorem execScheduledFrameTx_keeps {q} {s : State} (hq : s.fixed.1 = q) (hw : FixedOk s.fixed) (t : Nat) (lane : Nat) (entry : Nat) : Result.keeps q (execScheduledFrameTx t lane entry s) := by
  unfold execScheduledFrameTx
  repeat' (first | (extract_lets +onlyGivenNames x; (try (have hx : FixedOk x.fixed := by (simp only [x]; repeat' (first | with_reducible assumption | (intro s x hw) | with_reducible apply FixedOk.foldl | with_reducible apply State.at_ok | split | (simp [*, State.fixed_foldl, State.queue_foldl]; done) | split | simp only [State.fixed_foldl, State.fixed_update] | with_reducible refine (Result.keeps_next _ _).2 ⟨?_, ?_⟩)))); (try (have hq : x.fixed.1 = s.fixed.1 := by (simp only [x]; (repeat' split) <;> simp [*, State.fixed_foldl, State.queue_foldl]))); try clear_value x) | with_reducible assumption | (intro s x hw) | with_reducible apply FixedOk.foldl | with_reducible apply State.at_ok | (split <;> (try (have e1 := (congrArg (fun p => State.fixed (Prod.fst p)) ‹_ = ((_ : State), _)›).symm; simp [*] at e1)) <;> (try (have e1 := (congrArg (fun p => State.fixed (Prod.snd p)) ‹_ = (_, (_ : State))›).symm; simp [*] at e1))) | (simp [*, State.fixed_foldl, State.queue_foldl]; done) | split | simp only [State.fixed_foldl, State.fixed_update] | with_reducible refine (Result.keeps_next _ _).2 ⟨?_, ?_⟩)

@[simp ↓] theorem execBankSwitch_keeps {q} {s : State} (hq : s.fixed.1 = q) (hw : FixedOk s.fixed) (t : Nat) :
    Result.keeps q (execBankSwitch t s) := by
  unfold execBankSwitch
  extract_lets s1 md go s2 s3
  have q1 : s1.fixed.1 = q := by simp [s1, hq]
  have w1 : FixedOk s1.fixed := by simp [s1, hw]
  have h2 : s2.fixed = s1.fixed := by simp [s2]
  have h3 : s3.fixed = s1.fixed := by
    refine State.fixed_foldl _ _ (fun s x => ?_) _
    split <;> simp
  have w2 : FixedOk s2.fixed := h2 ▸ w1
  clear_value s1 s2 s3
  split
  · simp [q1, w1]
  · split
    · split
      · exact ⟨by simp [h2, q1], State.activateAt_ok w2 _⟩
      · simp [h2, q1, w1]
    · simp [h3, q1, w1]

end Sys2Proof.Machine
end

