-- ==== Sys2Proof/Laws/Bridge.lean ====
section
/-! SUPPORT. Laws/Bridge.lean: what the operations of Machine/Bridge.lean leave alone. -/
set_option linter.all false
namespace Sys2Proof.Machine

@[simp ↓] theorem State.showBrg_fixed (s : State) : (s.showBrg).fixed = s.fixed := by
  unfold State.showBrg
  repeat' (first | (extract_lets +onlyGivenNames x; (try (have hx : x.fixed = s.fixed := by (simp only [x]; (repeat' split) <;> simp [*, State.fixed_foldl]))); try clear_value x) | (split) | (simp [*, State.fixed_foldl]; done))

@[simp ↓] theorem State.rackStream_fixed (s : State) (r : RackReq) (vs : List Nat) : (s.rackStream r vs).fixed = s.fixed := by
  unfold State.rackStream
  repeat' (first | (extract_lets +onlyGivenNames x; (try (have hx : x.fixed = s.fixed := by (simp only [x]; (repeat' split) <;> simp [*, State.fixed_foldl]))); try clear_value x) | (split) | (simp [*, State.fixed_foldl]; done))

@[simp ↓] theorem State.grantTo_fixed (s : State) (p : Nat) : (s.grantTo p).fixed = s.fixed := by
  unfold State.grantTo
  repeat' (first | (extract_lets +onlyGivenNames x; (try (have hx : x.fixed = s.fixed := by (simp only [x]; (repeat' split) <;> simp [*, State.fixed_foldl]))); try clear_value x) | (split) | (simp [*, State.fixed_foldl]; done))

@[simp ↓] theorem State.arbitrate_fixed (s : State) (reqs : BitVec 8) : (s.arbitrate reqs).fixed = s.fixed := by
  unfold State.arbitrate
  repeat' (first | (extract_lets +onlyGivenNames x; (try (have hx : x.fixed = s.fixed := by (simp only [x]; (repeat' split) <;> simp [*, State.fixed_foldl]))); try clear_value x) | (split) | (simp [*, State.fixed_foldl]; done) | (refine (State.fixed_foldl _ _ ?_ _).trans ?_) | (refine congrArg Prod.fst ((State.fixed_foldl _ _ ?_ _).trans ?_)) | (refine (State.queue_foldl _ _ ?_ _).trans ?_) | (intro s x) | simp [*])

@[simp ↓] theorem State.rackTurn_fixed (s : State) (p : Nat) : (s.rackTurn p).fixed = s.fixed := by
  unfold State.rackTurn
  repeat' (first | (extract_lets +onlyGivenNames x; (try (have hx : x.fixed = s.fixed := by (simp only [x]; (repeat' split) <;> simp [*, State.fixed_foldl]))); try clear_value x) | (split) | (simp [*, State.fixed_foldl]; done))

@[simp ↓] theorem State.rackDone_fixed (s : State) (who : Option Initiator) (r : RackRes) : (s.rackDone who r).fixed = s.fixed := by
  unfold State.rackDone
  repeat' (first | (extract_lets +onlyGivenNames x; (try (have hx : x.fixed = s.fixed := by (simp only [x]; (repeat' split) <;> simp [*, State.fixed_foldl]))); try clear_value x) | (split) | (simp [*, State.fixed_foldl]; done) | (refine (State.fixed_foldl _ _ ?_ _).trans ?_) | (refine congrArg Prod.fst ((State.fixed_foldl _ _ ?_ _).trans ?_)) | (refine (State.queue_foldl _ _ ?_ _).trans ?_) | (intro s x) | simp [*])

@[simp ↓] theorem State.rackSet_fixed (s : State) (r : RackReq) (r' : RackReq) : (s.rackSet r r').fixed = s.fixed := by
  simp [State.rackSet, State.fixed_foldl]

@[simp ↓] theorem State.takePosted_fixed (s : State) : s.takePosted.fixed = s.fixed := by
  unfold State.takePosted
  split
  · split
    · rw [State.rackDone_fixed, State.rackSet_fixed]
    · rfl
  · rfl

@[simp ↓] theorem State.rackDrop_fixed (s : State) (r : RackReq) : (s.rackDrop r).fixed = s.fixed := by
  simp [State.rackDrop, State.fixed_foldl]

@[simp ↓] theorem State.unlock_fixed (s : State) : (s.unlock).fixed = s.fixed := by
  simp [State.unlock, State.fixed_foldl]

@[simp ↓] theorem State.rackError_fixed (s : State) (r : RackReq) : (s.rackError r).fixed = s.fixed := by
  unfold State.rackError
  repeat' (first | (extract_lets +onlyGivenNames x; (try (have hx : x.fixed = s.fixed := by (simp only [x]; (repeat' split) <;> simp [*, State.fixed_foldl]))); try clear_value x) | (split) | (simp [*, State.fixed_foldl]; done))

@[simp ↓] theorem State.postedError_fixed (s : State) (r : RackReq) (cause : Nat) : (s.postedError r cause).fixed = s.fixed := by
  unfold State.postedError
  repeat' (first | (extract_lets +onlyGivenNames x; (try (have hx : x.fixed = s.fixed := by (simp only [x]; (repeat' split) <;> simp [*, State.fixed_foldl]))); try clear_value x) | (split) | (simp [*, State.fixed_foldl]; done))

@[simp ↓] theorem State.rackFail_fixed (s : State) (r : RackReq) (cause : Nat) : (s.rackFail r cause).fixed = s.fixed := by
  simp [State.rackFail, State.fixed_foldl]

@[simp ↓] theorem State.rackResetCheck_fixed (s : State) : (s.rackResetCheck).fixed = s.fixed := by
  unfold State.rackResetCheck
  repeat' (first | (extract_lets +onlyGivenNames x; (try (have hx : x.fixed = s.fixed := by (simp only [x]; (repeat' split) <;> simp [*, State.fixed_foldl]))); try clear_value x) | (split) | (simp [*, State.fixed_foldl]; done))

@[simp ↓] theorem State.giveTags_fixed (s : State) : (s.giveTags).fixed = s.fixed := by
  unfold State.giveTags
  repeat' (first | (extract_lets +onlyGivenNames x; (try (have hx : x.fixed = s.fixed := by (simp only [x]; (repeat' split) <;> simp [*, State.fixed_foldl]))); try clear_value x) | (split) | (simp [*, State.fixed_foldl]; done) | (refine (State.fixed_foldl _ _ ?_ _).trans ?_) | (refine congrArg Prod.fst ((State.fixed_foldl _ _ ?_ _).trans ?_)) | (refine (State.queue_foldl _ _ ?_ _).trans ?_) | (intro s x) | simp [*])

@[simp ↓] theorem State.pfDrop_fixed (s : State) (b : PfBuf) : (s.pfDrop b).fixed = s.fixed := by
  unfold State.pfDrop
  repeat' (first | (extract_lets +onlyGivenNames x; (try (have hx : x.fixed = s.fixed := by (simp only [x]; (repeat' split) <;> simp [*, State.fixed_foldl]))); try clear_value x) | (split) | (simp [*, State.fixed_foldl]; done))

@[simp ↓] theorem State.pfDiscard_fixed (s : State) (p : PfBuf → Bool) : (s.pfDiscard p).fixed = s.fixed := by
  simp [State.pfDiscard, State.fixed_foldl]

@[simp ↓] theorem State.pfForget_fixed (s : State) (p : Nat → Bool) : (s.pfForget p).fixed = s.fixed := by
  unfold State.pfForget
  repeat' (first | (extract_lets +onlyGivenNames x; (try (have hx : x.fixed = s.fixed := by (simp only [x]; (repeat' split) <;> simp [*, State.fixed_foldl]))); try clear_value x) | (split) | (simp [*, State.fixed_foldl]; done))

@[simp ↓] theorem State.pfServe_fixed (s : State) (who : Option Initiator) (b : PfBuf) (a : Nat) (size : Nat) : (s.pfServe who b a size).fixed = s.fixed := by
  unfold State.pfServe
  repeat' (first | (extract_lets +onlyGivenNames x; (try (have hx : x.fixed = s.fixed := by (simp only [x]; (repeat' split) <;> simp [*, State.fixed_foldl]))); try clear_value x) | (split) | (simp [*, State.fixed_foldl]; done))

@[simp ↓] theorem State.pfFill_fixed (s : State) (w : Nat) (block : Nat) (big : Bool) (data : List Nat) : (s.pfFill w block big data).fixed = s.fixed := by
  unfold State.pfFill
  repeat' (first | (extract_lets +onlyGivenNames x; (try (have hx : x.fixed = s.fixed := by (simp only [x]; (repeat' split) <;> simp [*, State.fixed_foldl]))); try clear_value x) | (split) | (simp [*, State.fixed_foldl]; done))

@[simp ↓] theorem State.rackQueue_fixed (s : State) (r : RackReq) : (s.rackQueue r).fixed = s.fixed := by
  simp [State.rackQueue, State.fixed_foldl]

@[simp ↓] theorem State.lockBreak_fixed (s : State) (who : Initiator) : (s.lockBreak who).fixed = s.fixed := by
  unfold State.lockBreak
  repeat' (first | (extract_lets +onlyGivenNames x; (try (have hx : x.fixed = s.fixed := by (simp only [x]; (repeat' split) <;> simp [*, State.fixed_foldl]))); try clear_value x) | (split) | (simp [*, State.fixed_foldl]; done) | (refine (State.fixed_foldl _ _ ?_ _).trans ?_) | (refine congrArg Prod.fst ((State.fixed_foldl _ _ ?_ _).trans ?_)) | (refine (State.queue_foldl _ _ ?_ _).trans ?_) | (intro s x) | simp [*])

@[simp ↓] theorem State.rackCore_fixed (s : State) (who : Initiator) (w : Nat) (a : Nat) (size : Nat) (data : Option Nat) : (s.rackCore who w a size data).fixed = s.fixed := by
  unfold State.rackCore
  repeat' (first | (extract_lets +onlyGivenNames x; (try (have hx : x.fixed = s.fixed := by (simp only [x]; (repeat' split) <;> simp [*, State.fixed_foldl]))); try clear_value x) | (split) | (simp [*, State.fixed_foldl]; done))

@[simp ↓] theorem State.rackDma_fixed (s : State) (w : Nat) (a : Nat) (n : Nat) (data : Option (List Nat)) : (s.rackDma w a n data).fixed = s.fixed := by
  unfold State.rackDma
  repeat' (first | (extract_lets +onlyGivenNames x; (try (have hx : x.fixed = s.fixed := by (simp only [x]; (repeat' split) <;> simp [*, State.fixed_foldl]))); try clear_value x) | (split) | (simp [*, State.fixed_foldl]; done))

@[simp ↓] theorem State.rackTrap_fixed (s : State) (who : Initiator) (store : Bool) (a : Nat) : (s.rackTrap who store a).fixed = s.fixed := by
  simp [State.rackTrap, State.fixed_foldl]

theorem execRackOutboundAccess.core_rests {fx} (who : Initiator) (s : State) (a size : Nat) (data : Option Nat)
    (h : s.fixed = fx) : Result.rests fx (execRackOutboundAccess.core who s a size data) := by
  subst h
  unfold execRackOutboundAccess.core
  split
  · simp
  · split
    · simp
    · extract_lets s1
      have h1 : s1.fixed = s.fixed := by simp [s1]
      clear_value s1
      split
      · simp [h1]
      · split <;> simp [h1]
      · simp

theorem execRackOutboundAccess.dma_rests {fx} (s : State) (a n : Nat) (data : Option (List Nat))
    (h : s.fixed = fx) : Result.rests fx (execRackOutboundAccess.dma s a n data) := by
  subst h
  unfold execRackOutboundAccess.dma
  split
  · split <;> simp
  · simp
  · simp

@[simp ↓] theorem execRackOutboundAccess_keeps {q} {s : State} (hq : s.fixed.1 = q) (hw : FixedOk s.fixed) (t : Nat) (who : Initiator)
    (acc : RackAcc) : Result.keeps q (execRackOutboundAccess t who acc s) := by
  have hq1 : (s.at_ t).fixed.1 = q := by simp [hq]
  have hw1 : FixedOk (s.at_ t).fixed := by simp [hw]
  cases acc
  · exact (execRackOutboundAccess.core_rests who _ _ _ _ rfl).keeps hq1 hw1
  · exact (execRackOutboundAccess.core_rests who _ _ _ _ rfl).keeps hq1 hw1
  · exact (execRackOutboundAccess.dma_rests _ _ _ _ rfl).keeps hq1 hw1
  · exact (execRackOutboundAccess.dma_rests _ _ _ _ rfl).keeps hq1 hw1

@[simp ↓] theorem State.lockPhase_fixed (s : State) (r : RackReq) : (s.lockPhase r).fixed = s.fixed := by
  unfold State.lockPhase
  repeat' (first | (extract_lets +onlyGivenNames x; (try (have hx : x.fixed = s.fixed := by (simp only [x]; (repeat' split) <;> simp [*, State.fixed_foldl]))); try clear_value x) | (split) | (simp [*, State.fixed_foldl]; done) | (refine (State.fixed_foldl _ _ ?_ _).trans ?_) | (refine congrArg Prod.fst ((State.fixed_foldl _ _ ?_ _).trans ?_)) | (refine (State.queue_foldl _ _ ?_ _).trans ?_) | (intro s x) | simp [*])

@[simp ↓] theorem State.rackStatus_fixed (s : State) (r : RackReq) (st : RackStatus) : (s.rackStatus r st).fixed = s.fixed := by
  cases st <;> simp [State.rackStatus]

@[simp ↓] theorem execRackStatusCycle_keeps {q} {s : State} (hq : s.fixed.1 = q) (hw : FixedOk s.fixed) (t : Nat) (win : Nat) (status : RackStatus) (reqs : BitVec 8) : Result.keeps q (execRackStatusCycle t win status reqs s) := by
  unfold execRackStatusCycle
  repeat' (first | (extract_lets +onlyGivenNames x; (try (have hx : FixedOk x.fixed := by (simp only [x]; repeat' (first | with_reducible assumption | (intro s x hw) | with_reducible apply FixedOk.foldl | with_reducible apply State.at_ok | split | (simp [*, State.fixed_foldl, State.queue_foldl]; done) | split | simp only [State.fixed_foldl, State.fixed_update] | with_reducible refine (Result.keeps_next _ _).2 ⟨?_, ?_⟩)))); (try (have hq : x.fixed.1 = s.fixed.1 := by (simp only [x]; (repeat' split) <;> simp [*, State.fixed_foldl, State.queue_foldl]))); try clear_value x) | with_reducible assumption | (intro s x hw) | with_reducible apply FixedOk.foldl | with_reducible apply State.at_ok | (split) | (simp [*, State.fixed_foldl, State.queue_foldl]; done) | split | simp only [State.fixed_foldl, State.fixed_update] | with_reducible refine (Result.keeps_next _ _).2 ⟨?_, ?_⟩)

@[simp ↓] theorem execRackRetryReissue_keeps {q} {s : State} (hq : s.fixed.1 = q) (hw : FixedOk s.fixed) (t : Nat) (win : Nat) : Result.keeps q (execRackRetryReissue t win s) := by
  unfold execRackRetryReissue
  repeat' (first | (extract_lets +onlyGivenNames x; (try (have hx : FixedOk x.fixed := by (simp only [x]; repeat' (first | with_reducible assumption | (intro s x hw) | with_reducible apply FixedOk.foldl | with_reducible apply State.at_ok | split | (simp [*, State.fixed_foldl, State.queue_foldl]; done) | split | simp only [State.fixed_foldl, State.fixed_update] | with_reducible refine (Result.keeps_next _ _).2 ⟨?_, ?_⟩)))); (try (have hq : x.fixed.1 = s.fixed.1 := by (simp only [x]; (repeat' split) <;> simp [*, State.fixed_foldl, State.queue_foldl]))); try clear_value x) | with_reducible assumption | (intro s x hw) | with_reducible apply FixedOk.foldl | with_reducible apply State.at_ok | (split) | (simp [*, State.fixed_foldl, State.queue_foldl]; done) | split | simp only [State.fixed_foldl, State.fixed_update] | with_reducible refine (Result.keeps_next _ _).2 ⟨?_, ?_⟩)

@[simp ↓] theorem State.lockWrite_fixed (s : State) (l : RackLock) (r : RackReq) (v : Nat) : (s.lockWrite l r v).fixed = s.fixed := by
  simp [State.lockWrite, State.fixed_foldl]

@[simp ↓] theorem execRackLockedSequence.begin_rests {fx} (who : Initiator) (addr : Nat) (s : State) (w : Nat)
    (amo : Option (AmoOp × BitVec 64)) (h : s.fixed = fx) : Result.rests fx (execRackLockedSequence.begin_ who addr s w amo) := by
  subst h
  unfold execRackLockedSequence.begin_
  extract_lets s1 src s2
  have h1 : s1.fixed = s.fixed := by simp [s1]
  have h2 : s2.fixed = s.fixed := by simp [s2, h1]
  split <;> simp [h1, h2]

@[simp ↓] theorem execRackLockedSequence.rack_rests {fx} (s : State) (who : Initiator) (addr size : Nat) (acc : LockAcc)
    (h : s.fixed = fx) : Result.rests fx (execRackLockedSequence.rack who addr size acc s) := by
  subst h
  unfold execRackLockedSequence.rack
  extract_lets store
  repeat' split
  all_goals first | (simp; done) | exact execRackLockedSequence.begin_rests _ _ _ _ _ rfl

@[simp ↓] theorem execRackLockedSequence_keeps {q} {s : State} (hq : s.fixed.1 = q) (hw : FixedOk s.fixed) (t : Nat) (who : Initiator)
    (addr size : Nat) (acc : LockAcc) : Result.keeps q (execRackLockedSequence t who addr size acc s) := by
  unfold execRackLockedSequence
  extract_lets s1
  have q1 : s1.fixed.1 = q := by simp [s1, hq]
  have w1 : FixedOk s1.fixed := by simp [s1, hw]
  clear_value s1
  have hl : ∀ u : State, u.fixed = s1.fixed → ∀ r, Result.keeps q (u.lockAt who r addr size acc) := by
    intro u e r
    exact State.lockAt_keeps (by rw [e]; exact q1) (by rw [e]; exact w1) _ _ _ _ _
  repeat' split
  all_goals first
    | exact (execRackLockedSequence.rack_rests s1 who addr size acc rfl).keeps q1 w1
    | exact hl _ (by simp) _
    | simp [q1, w1]

@[simp ↓] theorem execRackLockTimeout_keeps {q} {s : State} (hq : s.fixed.1 = q) (hw : FixedOk s.fixed) (t : Nat) : Result.keeps q (execRackLockTimeout t s) := by
  unfold execRackLockTimeout
  repeat' (first | (extract_lets +onlyGivenNames x; (try (have hx : FixedOk x.fixed := by (simp only [x]; repeat' (first | with_reducible assumption | (intro s x hw) | with_reducible apply FixedOk.foldl | with_reducible apply State.at_ok | split | (simp [*, State.fixed_foldl, State.queue_foldl]; done) | split | simp only [State.fixed_foldl, State.fixed_update] | with_reducible refine (Result.keeps_next _ _).2 ⟨?_, ?_⟩)))); (try (have hq : x.fixed.1 = s.fixed.1 := by (simp only [x]; (repeat' split) <;> simp [*, State.fixed_foldl, State.queue_foldl]))); try clear_value x) | with_reducible assumption | (intro s x hw) | with_reducible apply FixedOk.foldl | with_reducible apply State.at_ok | (split) | (simp [*, State.fixed_foldl, State.queue_foldl]; done) | split | simp only [State.fixed_foldl, State.fixed_update] | with_reducible refine (Result.keeps_next _ _).2 ⟨?_, ?_⟩)

@[simp ↓] theorem State.rackOk_fixed (s : State) (r : RackReq) (beats : List Nat) : (s.rackOk r beats).fixed = s.fixed := by
  unfold State.rackOk
  repeat' (first | (extract_lets +onlyGivenNames x; (try (have hx : x.fixed = s.fixed := by (simp only [x]; (repeat' split) <;> simp [*, State.fixed_foldl]))); try clear_value x) | (split) | (simp [*, State.fixed_foldl]; done))

@[simp ↓] theorem State.rackAnswer_fixed (s : State) (tag : Nat) (err : Bool) (par : Bool) (beats : List (BitVec 32)) : (s.rackAnswer tag err par beats).fixed = s.fixed := by
  unfold State.rackAnswer
  repeat' (first | (extract_lets +onlyGivenNames x; (try (have hx : x.fixed = s.fixed := by (simp only [x]; (repeat' split) <;> simp [*, State.fixed_foldl]))); try clear_value x) | (split) | (simp [*, State.fixed_foldl]; done))

@[simp ↓] theorem execRackResponse_keeps {q} {s : State} (hq : s.fixed.1 = q) (hw : FixedOk s.fixed) (t : Nat) (card : Nat) (pos : Nat) (tag : Nat) (err : Bool) (par : Bool) (beats : List (BitVec 32)) (reqs : BitVec 8) : Result.keeps q (execRackResponse t card pos tag err par beats reqs s) := by
  unfold execRackResponse
  repeat' (first | (extract_lets +onlyGivenNames x; (try (have hx : FixedOk x.fixed := by (simp only [x]; repeat' (first | with_reducible assumption | (intro s x hw) | with_reducible apply FixedOk.foldl | with_reducible apply State.at_ok | split | (simp [*, State.fixed_foldl, State.queue_foldl]; done) | split | simp only [State.fixed_foldl, State.fixed_update] | with_reducible refine (Result.keeps_next _ _).2 ⟨?_, ?_⟩)))); (try (have hq : x.fixed.1 = s.fixed.1 := by (simp only [x]; (repeat' split) <;> simp [*, State.fixed_foldl, State.queue_foldl]))); try clear_value x) | with_reducible assumption | (intro s x hw) | with_reducible apply FixedOk.foldl | with_reducible apply State.at_ok | (split) | (simp [*, State.fixed_foldl, State.queue_foldl]; done) | split | simp only [State.fixed_foldl, State.fixed_update] | with_reducible refine (Result.keeps_next _ _).2 ⟨?_, ?_⟩)

@[simp ↓] theorem execRackResponseTimeout_keeps {q} {s : State} (hq : s.fixed.1 = q) (hw : FixedOk s.fixed) (t : Nat) (tag : Nat) : Result.keeps q (execRackResponseTimeout t tag s) := by
  unfold execRackResponseTimeout
  repeat' (first | (extract_lets +onlyGivenNames x; (try (have hx : FixedOk x.fixed := by (simp only [x]; repeat' (first | with_reducible assumption | (intro s x hw) | with_reducible apply FixedOk.foldl | with_reducible apply State.at_ok | split | (simp [*, State.fixed_foldl, State.queue_foldl]; done) | split | simp only [State.fixed_foldl, State.fixed_update] | with_reducible refine (Result.keeps_next _ _).2 ⟨?_, ?_⟩)))); (try (have hq : x.fixed.1 = s.fixed.1 := by (simp only [x]; (repeat' split) <;> simp [*, State.fixed_foldl, State.queue_foldl]))); try clear_value x) | with_reducible assumption | (intro s x hw) | with_reducible apply FixedOk.foldl | with_reducible apply State.at_ok | (split) | (simp [*, State.fixed_foldl, State.queue_foldl]; done) | split | simp only [State.fixed_foldl, State.fixed_update] | with_reducible refine (Result.keeps_next _ _).2 ⟨?_, ?_⟩)

@[simp ↓] theorem execRetiredTagRelease_keeps {q} {s : State} (hq : s.fixed.1 = q) (hw : FixedOk s.fixed) (t : Nat) (tag : Nat) : Result.keeps q (execRetiredTagRelease t tag s) := by
  unfold execRetiredTagRelease
  repeat' (first | (extract_lets +onlyGivenNames x; (try (have hx : FixedOk x.fixed := by (simp only [x]; repeat' (first | with_reducible assumption | (intro s x hw) | with_reducible apply FixedOk.foldl | with_reducible apply State.at_ok | split | (simp [*, State.fixed_foldl, State.queue_foldl]; done) | split | simp only [State.fixed_foldl, State.fixed_update] | with_reducible refine (Result.keeps_next _ _).2 ⟨?_, ?_⟩)))); (try (have hq : x.fixed.1 = s.fixed.1 := by (simp only [x]; (repeat' split) <;> simp [*, State.fixed_foldl, State.queue_foldl]))); try clear_value x) | with_reducible assumption | (intro s x hw) | with_reducible apply FixedOk.foldl | with_reducible apply State.at_ok | (split) | (simp [*, State.fixed_foldl, State.queue_foldl]; done) | split | simp only [State.fixed_foldl, State.fixed_update] | with_reducible refine (Result.keeps_next _ _).2 ⟨?_, ?_⟩)

@[simp ↓] theorem State.crossing_fixed (s : State) (w : RackReq) (pos : Nat) : (s.crossing w pos).fixed = s.fixed := by
  unfold State.crossing
  repeat' (first | (extract_lets +onlyGivenNames x; (try (have hx : x.fixed = s.fixed := by (simp only [x]; (repeat' split) <;> simp [*, State.fixed_foldl]))); try clear_value x) | (split) | (simp [*, State.fixed_foldl]; done))

@[simp ↓] theorem State.answer_fixed (s : State) (st : RackStatus) : (s.answer st).fixed = s.fixed := by
  simp [State.answer, State.fixed_foldl]

@[simp ↓] theorem execRackInboundRequest_keeps {q} {s : State} (hq : s.fixed.1 = q) (hw : FixedOk s.fixed) (t : Nat) (pos : Nat) (tag : Nat) (cmd : Nat) (addr : Nat) (be : Nat) (data : List (BitVec 32)) (par : Bool) (reqs : BitVec 8) : Result.keeps q (execRackInboundRequest t pos tag cmd addr be data par reqs s) := by
  unfold execRackInboundRequest
  repeat' (first | (extract_lets +onlyGivenNames x; (try (have hx : FixedOk x.fixed := by (simp only [x]; repeat' (first | with_reducible assumption | (intro s x hw) | with_reducible apply FixedOk.foldl | with_reducible apply State.at_ok | split | (simp [*, State.fixed_foldl, State.queue_foldl]; done) | split | simp only [State.fixed_foldl, State.fixed_update] | with_reducible refine (Result.keeps_next _ _).2 ⟨?_, ?_⟩)))); (try (have hq : x.fixed.1 = s.fixed.1 := by (simp only [x]; (repeat' split) <;> simp [*, State.fixed_foldl, State.queue_foldl]))); try clear_value x) | with_reducible assumption | (intro s x hw) | with_reducible apply FixedOk.foldl | with_reducible apply State.at_ok | (split) | (simp [*, State.fixed_foldl, State.queue_foldl]; done) | split | simp only [State.fixed_foldl, State.fixed_update] | with_reducible refine (Result.keeps_next _ _).2 ⟨?_, ?_⟩)

@[simp ↓] theorem State.inWrite_queue (s : State) (r : RackIn) : (s.inWrite r).fixed.1 = s.fixed.1 := by
  simp [State.inWrite, State.fixed_foldl, State.queue_foldl]

@[simp ↓] theorem State.inWrite_ok {s : State} (hw : FixedOk s.fixed) (r : RackIn) : FixedOk (s.inWrite r).fixed := by
  unfold State.inWrite
  repeat' (first | (extract_lets +onlyGivenNames x; (try (have hx : FixedOk x.fixed := by (simp only [x]; repeat' (first | with_reducible assumption | (intro s x hw) | with_reducible apply FixedOk.foldl | with_reducible apply State.store_ok | split | (simp [*, State.fixed_foldl, State.queue_foldl]; done) | split | simp only [State.fixed_foldl, State.fixed_update] | with_reducible refine (Result.keeps_next _ _).2 ⟨?_, ?_⟩)))); (try (have hq : x.fixed.1 = s.fixed.1 := by (simp only [x]; (repeat' split) <;> simp [*, State.fixed_foldl, State.queue_foldl]))); try clear_value x) | with_reducible assumption | (intro s x hw) | with_reducible apply FixedOk.foldl | with_reducible apply State.store_ok | (split) | (simp [*, State.fixed_foldl, State.queue_foldl]; done) | split | simp only [State.fixed_foldl, State.fixed_update] | with_reducible refine (Result.keeps_next _ _).2 ⟨?_, ?_⟩)

@[simp ↓] theorem State.inPerform_queue (s : State) (r : RackIn) : (s.inPerform r).fixed.1 = s.fixed.1 := by
  unfold State.inPerform
  repeat' (first | (extract_lets +onlyGivenNames x; (try (have hx : x.fixed.1 = s.fixed.1 := by (simp only [x]; (repeat' split) <;> simp [*, State.fixed_foldl, State.queue_foldl]))); try clear_value x) | (split) | (simp [*, State.fixed_foldl, State.queue_foldl]; done))

@[simp ↓] theorem State.inPerform_ok {s : State} (hw : FixedOk s.fixed) (r : RackIn) : FixedOk (s.inPerform r).fixed := by
  unfold State.inPerform
  repeat' (first | (extract_lets +onlyGivenNames x; (try (have hx : FixedOk x.fixed := by (simp only [x]; repeat' (first | with_reducible assumption | (intro s x hw) | with_reducible apply FixedOk.foldl | with_reducible apply State.inWrite_ok | split | (simp [*, State.fixed_foldl, State.queue_foldl]; done) | split | simp only [State.fixed_foldl, State.fixed_update] | with_reducible refine (Result.keeps_next _ _).2 ⟨?_, ?_⟩)))); (try (have hq : x.fixed.1 = s.fixed.1 := by (simp only [x]; (repeat' split) <;> simp [*, State.fixed_foldl, State.queue_foldl]))); try clear_value x) | with_reducible assumption | (intro s x hw) | with_reducible apply FixedOk.foldl | with_reducible apply State.inWrite_ok | (split) | (simp [*, State.fixed_foldl, State.queue_foldl]; done) | split | simp only [State.fixed_foldl, State.fixed_update] | with_reducible refine (Result.keeps_next _ _).2 ⟨?_, ?_⟩)

@[simp ↓] theorem State.inAnswer_fixed (s : State) (r : RackIn) (reqs : BitVec 8) : (s.inAnswer r reqs).fixed = s.fixed := by
  unfold State.inAnswer
  repeat' (first | (extract_lets +onlyGivenNames x; (try (have hx : x.fixed = s.fixed := by (simp only [x]; (repeat' split) <;> simp [*, State.fixed_foldl]))); try clear_value x) | (split) | (simp [*, State.fixed_foldl]; done))

@[simp ↓] theorem execRackInboundComplete_keeps {q} {s : State} (hq : s.fixed.1 = q) (hw : FixedOk s.fixed) (t : Nat) (pos : Nat) (tag : Nat) (reqs : BitVec 8) : Result.keeps q (execRackInboundComplete t pos tag reqs s) := by
  unfold execRackInboundComplete
  repeat' (first | (extract_lets +onlyGivenNames x; (try (have hx : FixedOk x.fixed := by (simp only [x]; repeat' (first | with_reducible assumption | (intro s x hw) | with_reducible apply FixedOk.foldl | with_reducible apply State.at_ok | with_reducible apply State.inPerform_ok | split | (simp [*, State.fixed_foldl, State.queue_foldl]; done) | split | simp only [State.fixed_foldl, State.fixed_update] | with_reducible refine (Result.keeps_next _ _).2 ⟨?_, ?_⟩)))); (try (have hq : x.fixed.1 = s.fixed.1 := by (simp only [x]; (repeat' split) <;> simp [*, State.fixed_foldl, State.queue_foldl]))); try clear_value x) | with_reducible assumption | (intro s x hw) | with_reducible apply FixedOk.foldl | with_reducible apply State.at_ok | with_reducible apply State.inPerform_ok | (split) | (simp [*, State.fixed_foldl, State.queue_foldl]; done) | split | simp only [State.fixed_foldl, State.fixed_update] | with_reducible refine (Result.keeps_next _ _).2 ⟨?_, ?_⟩)

@[simp ↓] theorem execPrefetchExpiry_keeps {q} {s : State} (hq : s.fixed.1 = q) (hw : FixedOk s.fixed) (t : Nat) : Result.keeps q (execPrefetchExpiry t s) := by
  unfold execPrefetchExpiry
  repeat' (first | (extract_lets +onlyGivenNames x; (try (have hx : FixedOk x.fixed := by (simp only [x]; repeat' (first | with_reducible assumption | (intro s x hw) | with_reducible apply FixedOk.foldl | with_reducible apply State.at_ok | split | (simp [*, State.fixed_foldl, State.queue_foldl]; done) | split | simp only [State.fixed_foldl, State.fixed_update] | with_reducible refine (Result.keeps_next _ _).2 ⟨?_, ?_⟩)))); (try (have hq : x.fixed.1 = s.fixed.1 := by (simp only [x]; (repeat' split) <;> simp [*, State.fixed_foldl, State.queue_foldl]))); try clear_value x) | with_reducible assumption | (intro s x hw) | with_reducible apply FixedOk.foldl | with_reducible apply State.at_ok | (split) | (simp [*, State.fixed_foldl, State.queue_foldl]; done) | split | simp only [State.fixed_foldl, State.fixed_update] | with_reducible refine (Result.keeps_next _ _).2 ⟨?_, ?_⟩)

@[simp ↓] theorem execBrgPfFlush_keeps {q} {s : State} (hq : s.fixed.1 = q) (hw : FixedOk s.fixed) (t : Nat) (who : Initiator) (flush : Bool) : Result.keeps q (execBrgPfFlush t who flush s) := by
  unfold execBrgPfFlush
  repeat' (first | (extract_lets +onlyGivenNames x; (try (have hx : FixedOk x.fixed := by (simp only [x]; repeat' (first | with_reducible assumption | (intro s x hw) | with_reducible apply FixedOk.foldl | with_reducible apply State.at_ok | split | (simp [*, State.fixed_foldl, State.queue_foldl]; done) | split | simp only [State.fixed_foldl, State.fixed_update] | with_reducible refine (Result.keeps_next _ _).2 ⟨?_, ?_⟩)))); (try (have hq : x.fixed.1 = s.fixed.1 := by (simp only [x]; (repeat' split) <;> simp [*, State.fixed_foldl, State.queue_foldl]))); try clear_value x) | with_reducible assumption | (intro s x hw) | with_reducible apply FixedOk.foldl | with_reducible apply State.at_ok | (split <;> (try (have e1 := (congrArg (fun p => State.fixed (Prod.fst p)) ‹_ = ((_ : State), _)›).symm; simp [*] at e1)) <;> (try (have e1 := (congrArg (fun p => State.fixed (Prod.snd p)) ‹_ = (_, (_ : State))›).symm; simp [*] at e1))) | (simp [*, State.fixed_foldl, State.queue_foldl]; done) | split | simp only [State.fixed_foldl, State.fixed_update] | with_reducible refine (Result.keeps_next _ _).2 ⟨?_, ?_⟩)

end Sys2Proof.Machine
end

