-- ==== Sys2Proof/Laws/Boot.lean ====
section
/-! SUPPORT. Laws/Boot.lean: what the operations of Machine/Boot.lean leave alone. -/
set_option linter.all false
namespace Sys2Proof.Machine

@[simp ↓] theorem State.configChanged_queue (s : State) : (s.configChanged).fixed.1 = s.fixed.1 := by
  unfold State.configChanged
  repeat' (first | (extract_lets +onlyGivenNames x; (try (have hx : x.fixed.1 = s.fixed.1 := by (simp only [x]; (repeat' split) <;> simp [*, State.fixed_foldl, State.queue_foldl]))); try clear_value x) | (split) | (simp [*, State.fixed_foldl, State.queue_foldl]; done))

@[simp ↓] theorem State.configChanged_ok {s : State} (hw : FixedOk s.fixed) : FixedOk (s.configChanged).fixed := by
  unfold State.configChanged
  repeat' (first | (extract_lets +onlyGivenNames x; (try (have hx : FixedOk x.fixed := by (simp only [x]; repeat' (first | with_reducible assumption | (intro s x hw) | with_reducible apply FixedOk.foldl | with_reducible apply State.outputsRefresh_ok | with_reducible apply State.lanesCheck_ok | split | (simp [*, State.fixed_foldl, State.queue_foldl]; done) | split | simp only [State.fixed_foldl, State.fixed_update] | with_reducible refine (Result.keeps_next _ _).2 ⟨?_, ?_⟩)))); (try (have hq : x.fixed.1 = s.fixed.1 := by (simp only [x]; (repeat' split) <;> simp [*, State.fixed_foldl, State.queue_foldl]))); try clear_value x) | with_reducible assumption | (intro s x hw) | with_reducible apply FixedOk.foldl | with_reducible apply State.outputsRefresh_ok | with_reducible apply State.lanesCheck_ok | (split) | (simp [*, State.fixed_foldl, State.queue_foldl]; done) | split | simp only [State.fixed_foldl, State.fixed_update] | with_reducible refine (Result.keeps_next _ _).2 ⟨?_, ?_⟩)

@[simp ↓] theorem State.loadWord_fixed (s : State) (a : Nat) (v : Word) : (s.loadWord a v).fixed = s.fixed := by
  unfold State.loadWord
  repeat' (first | (extract_lets +onlyGivenNames x; (try (have hx : x.fixed = s.fixed := by (simp only [x]; (repeat' split) <;> simp [*, State.fixed_foldl]))); try clear_value x) | (split) | (simp [*, State.fixed_foldl]; done))

@[simp ↓] theorem State.loadWords_fixed (s : State) (l : List (Nat × BitVec 32)) : (s.loadWords l).fixed = s.fixed := by
  simp [State.loadWords, State.fixed_foldl]

@[simp ↓] theorem State.loadImage_queue (s : State) (n : Nat) (img : SlotImage) : (s.loadImage n img).fixed.1 = s.fixed.1 := by
  unfold State.loadImage
  repeat' (first | (extract_lets +onlyGivenNames x; (try (have hx : x.fixed.1 = s.fixed.1 := by (simp only [x]; (repeat' split) <;> simp [*, State.fixed_foldl, State.queue_foldl]))); try clear_value x) | (split) | (simp [*, State.fixed_foldl, State.queue_foldl]; done))

@[simp ↓] theorem State.loadImage_ok {s : State} (hw : FixedOk s.fixed) (n : Nat) (img : SlotImage) : FixedOk (s.loadImage n img).fixed := by
  unfold State.loadImage
  repeat' (first | (extract_lets +onlyGivenNames x; (try (have hx : FixedOk x.fixed := by (simp only [x]; repeat' (first | with_reducible assumption | (intro s x hw) | with_reducible apply FixedOk.foldl | with_reducible apply State.storeBytes_ok | split | (simp [*, State.fixed_foldl, State.queue_foldl]; done) | split | simp only [State.fixed_foldl, State.fixed_update] | with_reducible refine (Result.keeps_next _ _).2 ⟨?_, ?_⟩)))); (try (have hq : x.fixed.1 = s.fixed.1 := by (simp only [x]; (repeat' split) <;> simp [*, State.fixed_foldl, State.queue_foldl]))); try clear_value x) | with_reducible assumption | (intro s x hw) | with_reducible apply FixedOk.foldl | with_reducible apply State.storeBytes_ok | (split) | (simp [*, State.fixed_foldl, State.queue_foldl]; done) | split | simp only [State.fixed_foldl, State.fixed_update] | with_reducible refine (Result.keeps_next _ _).2 ⟨?_, ?_⟩)

@[simp ↓] theorem State.loadEnvelopes_queue (s : State) : s.loadEnvelopes.fixed.1 = s.fixed.1 := by
  unfold State.loadEnvelopes
  split
  · rfl
  · extract_lets crc
    split <;> rfl

theorem State.envCopies_wf {s : State} (hw : FixedOk s.fixed) : ∀ c ∈ s.envCopies, Mem.wf c.cells = true := by
  obtain ⟨-, h0, h1, -⟩ := hw
  unfold State.envCopies
  intro c hc
  split at hc
  · rename_i a b ha hb
    have : c = a ∨ c = b := by split at hc <;> simp at hc <;> tauto
    rcases this with rfl | rfl
    · exact h0 _ ha
    · exact h1 _ hb
  · rename_i a ha _
    simp at hc
    exact hc ▸ h0 _ ha
  · rename_i b _ hb
    simp at hc
    exact hc ▸ h1 _ hb
  · simp at hc

@[simp ↓] theorem State.loadEnvelopes_ok {s : State} (hw : FixedOk s.fixed) : FixedOk s.loadEnvelopes.fixed := by
  have hc := State.envCopies_wf hw
  unfold State.loadEnvelopes
  split
  · exact hw
  · rename_i l _
    extract_lets crc
    split
    · rename_i c e
      exact ⟨Mem.wf_copyFrom _ _ _ (hc c (List.mem_of_find?_eq_some e)) hw.1, hw.2⟩
    · exact hw

@[simp ↓] theorem State.saveEnvelopes_queue (s : State) : s.saveEnvelopes.fixed.1 = s.fixed.1 := by
  unfold State.saveEnvelopes
  split
  · rfl
  · extract_lets
    simp only [State.inc_fixed]
    rfl

@[simp ↓] theorem State.saveEnvelopes_ok {s : State} (hw : FixedOk s.fixed) : FixedOk s.saveEnvelopes.fixed := by
  unfold State.saveEnvelopes
  split
  · exact hw
  · extract_lets gen c0 c src nv
    simp only [State.inc_fixed]
    have hc : Mem.wf c.cells = true := Mem.wf_slice _ _ _ hw.1
    clear_value c
    obtain ⟨h, h0, h1, h2⟩ := hw
    have hs : ∀ d, some c = some d → Mem.wf d.cells = true := fun d e => by cases e; exact hc
    refine ⟨h, ?_⟩
    show (∀ d, nv.env0 = some d → _) ∧ (∀ d, nv.env1 = some d → _) ∧ Mem.wf nv.staging = true
    simp only [nv]
    split
    · split
      · exact ⟨hs, h1, h2⟩
      · exact ⟨h0, hs, h2⟩
    · exact ⟨h0, hs, h2⟩
    · exact ⟨hs, h1, h2⟩

@[simp ↓] theorem State.startLatches_fixed (s : State) : (s.startLatches).fixed = s.fixed := by
  unfold State.startLatches
  repeat' (first | (extract_lets +onlyGivenNames x; (try (have hx : x.fixed = s.fixed := by (simp only [x]; (repeat' split) <;> simp [*, State.fixed_foldl]))); try clear_value x) | (split) | (simp [*, State.fixed_foldl]; done))

@[simp ↓] theorem State.autorun_fixed (s : State) : (s.autorun).fixed = s.fixed := by
  simp [State.autorun, State.fixed_foldl]

@[simp ↓] theorem State.autoOpen_queue (s : State) : s.autoOpen.fixed.1 = s.fixed.1 := by
  unfold State.autoOpen
  rw [State.safeCount_fixed]
  exact State.queue_foldl _ _ (fun s n => by split <;> simp) s

@[simp ↓] theorem State.autoOpen_ok {s : State} (hw : FixedOk s.fixed) : FixedOk s.autoOpen.fixed := by
  unfold State.autoOpen
  rw [State.safeCount_fixed]
  exact FixedOk.foldl _ _ (fun s n h => by split; exacts [State.openSess_ok h _, h]) s hw

@[simp ↓] theorem State.openWindow_fixed (s : State) : (s.openWindow).fixed = s.fixed := by
  simp [State.openWindow, State.fixed_foldl]

@[simp ↓] theorem State.leaveBoot_queue (s : State) : s.leaveBoot.fixed.1 = s.fixed.1 := by
  unfold State.leaveBoot
  extract_lets b0 s1 s2 s3 s4
  have h4 : s4.fixed = s.fixed := by
    have h3 : s3.fixed = s.fixed := by
      simp only [s3]; split <;> simp [s2, s1]
    simp only [s4, State.bootRecords_fixed, h3]
  clear_value s4
  split
  · rw [State.lockout_queue]; exact congrArg Prod.fst h4
  · split
    · rw [State.autoOpen_queue, State.autorun_fixed, State.enterMode_queue, State.putFlag_fixed, h4]
    · rw [State.openWindow_fixed, State.autoOpen_queue, State.autorun_fixed, State.enterMode_queue, h4]

@[simp ↓] theorem State.leaveBoot_ok {s : State} (hw : FixedOk s.fixed) : FixedOk s.leaveBoot.fixed := by
  unfold State.leaveBoot
  extract_lets b0 s1 s2 s3 s4
  have h4 : s4.fixed = s.fixed := by
    have h3 : s3.fixed = s.fixed := by
      simp only [s3]; split <;> simp [s2, s1]
    simp only [s4, State.bootRecords_fixed, h3]
  clear_value s4
  have w4 : FixedOk s4.fixed := by rw [h4]; exact hw
  split
  · exact State.lockout_ok (s := { s4 with boot := { s4.boot with kept := none } }) w4 _ _
  · split
    · apply State.autoOpen_ok
      rw [State.autorun_fixed]
      apply State.enterMode_ok
      rw [State.putFlag_fixed]
      exact w4
    · rw [State.openWindow_fixed]
      apply State.autoOpen_ok
      rw [State.autorun_fixed]
      exact State.enterMode_ok w4 _

@[simp ↓] theorem State.completeBoot_queue (s : State) (words : List (Nat × BitVec 32)) : (s.completeBoot words).fixed.1 = s.fixed.1 := by
  unfold State.completeBoot
  extract_lets s1 s2 s3 s4
  have h1 : s1.fixed.1 = s.fixed.1 := by
    simp only [s1, State.configChanged_queue, State.localUnhome_fixed, State.startLatches_fixed, State.loadEnvelopes_queue, State.loadTset_fixed, State.loadWords_fixed]
  have h2 : s2.fixed = s1.fixed := State.fixed_foldl _ _ (fun s n => by split <;> simp) s1
  have h3 : s3.fixed.1 = s2.fixed.1 := State.queue_foldl _ _ (fun s n => State.ringRun_queue s n) s2
  have h4 : s4.fixed = s3.fixed := State.loadWord_fixed _ _ _
  rw [State.traceShed_fixed, State.leaveBoot_queue, State.releaseCores_fixed, State.tripStart_queue, h4, h3, h2, h1]

@[simp ↓] theorem State.completeBoot_ok {s : State} (hw : FixedOk s.fixed) (words : List (Nat × BitVec 32)) : FixedOk (s.completeBoot words).fixed := by
  unfold State.completeBoot
  extract_lets s1 s2 s3 s4
  have h1 : FixedOk s1.fixed := by
    apply State.configChanged_ok
    rw [State.localUnhome_fixed, State.startLatches_fixed]
    apply State.loadEnvelopes_ok
    rw [State.loadTset_fixed, State.loadWords_fixed]
    exact hw
  have h2 : s2.fixed = s1.fixed := State.fixed_foldl _ _ (fun s n => by split <;> simp) s1
  have h3 : FixedOk s3.fixed := FixedOk.foldl _ _ (fun s n h => State.ringRun_ok h n) s2 (by rw [h2]; exact h1)
  have h4 : s4.fixed = s3.fixed := State.loadWord_fixed _ _ _
  clear_value s4
  rw [State.traceShed_fixed]
  apply State.leaveBoot_ok
  rw [State.releaseCores_fixed]
  apply State.tripStart_ok
  rw [h4]
  exact h3

@[simp ↓] theorem State.refuseImage_fixed (s : State) (code : Nat) (slot : Nat) (imgId : Nat) : (s.refuseImage code slot imgId).fixed = s.fixed := by
  simp [State.refuseImage, State.fixed_foldl]

@[simp ↓] theorem State.bootOk_queue (s : State) (n : Nat) (img : SlotImage) (sup : Nat) : (s.bootOk n img sup).1.fixed.1 = s.fixed.1 := by
  unfold State.bootOk
  repeat' (first | (extract_lets +onlyGivenNames x; (try (have hx : x.fixed.1 = s.fixed.1 := by (simp only [x]; (repeat' split) <;> simp [*, State.fixed_foldl, State.queue_foldl]))); try clear_value x) | (split) | (simp [*, State.fixed_foldl, State.queue_foldl]; done))

@[simp ↓] theorem State.bootOk_ok {s : State} (hw : FixedOk s.fixed) (n : Nat) (img : SlotImage) (sup : Nat) : FixedOk (s.bootOk n img sup).1.fixed := by
  unfold State.bootOk
  repeat' (first | (extract_lets +onlyGivenNames x; (try (have hx : FixedOk x.fixed := by (simp only [x]; repeat' (first | with_reducible assumption | (intro s x hw) | with_reducible apply FixedOk.foldl | with_reducible apply State.loadImage_ok | split | (simp [*, State.fixed_foldl, State.queue_foldl]; done) | split | simp only [State.fixed_foldl, State.fixed_update] | with_reducible refine (Result.keeps_next _ _).2 ⟨?_, ?_⟩)))); (try (have hq : x.fixed.1 = s.fixed.1 := by (simp only [x]; (repeat' split) <;> simp [*, State.fixed_foldl, State.queue_foldl]))); try clear_value x) | with_reducible assumption | (intro s x hw) | with_reducible apply FixedOk.foldl | with_reducible apply State.loadImage_ok | (split) | (simp [*, State.fixed_foldl, State.queue_foldl]; done) | split | simp only [State.fixed_foldl, State.fixed_update] | with_reducible refine (Result.keeps_next _ _).2 ⟨?_, ?_⟩)

@[simp ↓] theorem State.runImage_fixed (s : State) (n : Nat) (img : SlotImage) (trial : Bool) : (s.runImage n img trial).fixed = s.fixed := by
  unfold State.runImage
  repeat' (first | (extract_lets +onlyGivenNames x; (try (have hx : x.fixed = s.fixed := by (simp only [x]; (repeat' split) <;> simp [*, State.fixed_foldl]))); try clear_value x) | (split) | (simp [*, State.fixed_foldl]; done))

theorem State.bootOk_of_queue {s u : State} {n : Nat} {img : SlotImage} {sup : Nat} {b : Bool} (e : s.bootOk n img sup = (u, b)) :
    u.fixed.1 = s.fixed.1 := by
  have h := State.bootOk_queue s n img sup
  rw [e] at h
  exact h

theorem State.bootOk_of_ok {s u : State} {n : Nat} {img : SlotImage} {sup : Nat} {b : Bool} (e : s.bootOk n img sup = (u, b))
    (hw : FixedOk s.fixed) : FixedOk u.fixed := by
  have h := State.bootOk_ok hw n img sup
  rw [e] at h
  exact h

@[simp ↓] theorem State.trySlot_queue (s : State) (o : Nat) (img : SlotImage) (sup : Nat) : (s.trySlot o img sup).1.fixed.1 = s.fixed.1 := by
  unfold State.trySlot
  extract_lets r
  split
  · rfl
  · split
    · split
      · rename_i e
        rw [State.runImage_fixed, State.bootOk_of_queue e, State.writeTable_fixed]
      · rename_i e
        rw [State.fallback_fixed, State.bootOk_of_queue e, State.writeTable_fixed]
    · rw [State.fallback_fixed]

@[simp ↓] theorem State.trySlot_ok {s : State} (hw : FixedOk s.fixed) (o : Nat) (img : SlotImage) (sup : Nat) :
    FixedOk (s.trySlot o img sup).1.fixed := by
  unfold State.trySlot
  extract_lets r
  split
  · exact hw
  · split
    · split
      · rename_i e
        rw [State.runImage_fixed]
        exact State.bootOk_of_ok e (by rw [State.writeTable_fixed]; exact hw)
      · rename_i e
        rw [State.fallback_fixed]
        exact State.bootOk_of_ok e (by rw [State.writeTable_fixed]; exact hw)
    · rw [State.fallback_fixed]
      exact hw

@[simp ↓] theorem State.goodSlot_queue (s : State) (o : Nat) (img : SlotImage) (sup : Nat) : (s.goodSlot o img sup).1.fixed.1 = s.fixed.1 := by
  unfold State.goodSlot
  split
  · rfl
  · split
    · rename_i e
      rw [State.runImage_fixed, State.bootOk_of_queue e]
    · rename_i e
      exact State.bootOk_of_queue e

@[simp ↓] theorem State.goodSlot_ok {s : State} (hw : FixedOk s.fixed) (o : Nat) (img : SlotImage) (sup : Nat) :
    FixedOk (s.goodSlot o img sup).1.fixed := by
  unfold State.goodSlot
  split
  · exact hw
  · split
    · rename_i e
      rw [State.runImage_fixed]
      exact State.bootOk_of_ok e hw
    · rename_i e
      exact State.bootOk_of_ok e hw

theorem State.goodSlot_of_queue {s u : State} {n : Nat} {img : SlotImage} {sup : Nat} {b : Bool} (e : s.goodSlot n img sup = (u, b)) :
    u.fixed.1 = s.fixed.1 := by
  have h := State.goodSlot_queue s n img sup
  rw [e] at h
  exact h

theorem State.goodSlot_of_ok {s u : State} {n : Nat} {img : SlotImage} {sup : Nat} {b : Bool} (e : s.goodSlot n img sup = (u, b))
    (hw : FixedOk s.fixed) : FixedOk u.fixed := by
  have h := State.goodSlot_ok hw n img sup
  rw [e] at h
  exact h

theorem State.trySlot_of_queue {s u : State} {n : Nat} {img : SlotImage} {sup : Nat} {b : Bool} (e : s.trySlot n img sup = (u, b)) :
    u.fixed.1 = s.fixed.1 := by
  have h := State.trySlot_queue s n img sup
  rw [e] at h
  exact h

theorem State.trySlot_of_ok {s u : State} {n : Nat} {img : SlotImage} {sup : Nat} {b : Bool} (e : s.trySlot n img sup = (u, b))
    (hw : FixedOk s.fixed) : FixedOk u.fixed := by
  have h := State.trySlot_ok hw n img sup
  rw [e] at h
  exact h

@[simp ↓] theorem State.selectSlot_queue (s : State) (img : Nat → SlotImage) (sup : Nat) : (s.selectSlot img sup).1.fixed.1 = s.fixed.1 := by
  unfold State.selectSlot
  extract_lets p o
  split
  · rename_i e
    exact State.trySlot_of_queue e
  · rename_i e
    split
    · rename_i e2
      exact (State.goodSlot_of_queue e2).trans (State.trySlot_of_queue e)
    · rename_i e2
      split
      · rename_i e3
        rw [State.writeTable_fixed]
        exact (State.goodSlot_of_queue e3).trans ((State.goodSlot_of_queue e2).trans (State.trySlot_of_queue e))
      · rename_i e3
        rw [State.enterLockout_queue]
        exact (State.goodSlot_of_queue e3).trans ((State.goodSlot_of_queue e2).trans (State.trySlot_of_queue e))

@[simp ↓] theorem State.selectSlot_ok {s : State} (hw : FixedOk s.fixed) (img : Nat → SlotImage) (sup : Nat) :
    FixedOk (s.selectSlot img sup).1.fixed := by
  unfold State.selectSlot
  extract_lets p o
  split
  · rename_i e
    exact State.trySlot_of_ok e hw
  · rename_i e
    split
    · rename_i e2
      exact State.goodSlot_of_ok e2 (State.trySlot_of_ok e hw)
    · rename_i e2
      split
      · rename_i e3
        rw [State.writeTable_fixed]
        exact State.goodSlot_of_ok e3 (State.goodSlot_of_ok e2 (State.trySlot_of_ok e hw))
      · rename_i e3
        exact State.enterLockout_ok (State.goodSlot_of_ok e3 (State.goodSlot_of_ok e2 (State.trySlot_of_ok e hw))) _ _

@[simp ↓] theorem State.readSlots_queue (s : State) (r0 r1 r2 : BitVec 4) : (s.readSlots r0 r1 r2).fixed.1 = s.fixed.1 := by
  unfold State.readSlots
  split
  · exact State.completeBoot_queue _ _
  · rfl

@[simp ↓] theorem State.readSlots_ok {s : State} (hw : FixedOk s.fixed) (r0 r1 r2 : BitVec 4) : FixedOk (s.readSlots r0 r1 r2).fixed := by
  unfold State.readSlots
  split
  · exact State.completeBoot_ok hw _
  · exact hw

theorem execBootChain_keeps {q} {s : State} (hq : s.fixed.1 = q) (hw : FixedOk s.fixed) (t : Nat) (fw0 fw1 : SigCheck) (imgA imgB : SlotImage) (sup : Nat) (r0 r1 r2 : BitVec 4) :
    Result.keeps q (execBootChain t fw0 fw1 imgA imgB sup r0 r1 r2 s) := by
  unfold execBootChain
  extract_lets s1 b0 s2
  have q1 : s1.fixed.1 = q := by simp [s1, hq]
  have w1 : FixedOk s1.fixed := by simp [s1, hw]
  clear_value s1
  have e2 : s2.fixed = s1.fixed := rfl
  clear_value s2
  split
  · exact ⟨q1, w1⟩
  · split
    · exact ⟨q1, w1⟩
    · have hs := State.selectSlot_queue s2 (fun n => if n = 0 then imgA else imgB) sup
      have hk := State.selectSlot_ok (by rw [e2]; exact w1) (fun n => if n = 0 then imgA else imgB) sup
      split
      · rename_i e
        rw [e] at hs hk
        refine ⟨?_, State.readSlots_ok hk _ _ _⟩
        rw [State.readSlots_queue]
        exact hs.trans (by rw [e2]; exact q1)
      · rename_i e
        rw [e] at hs hk
        exact ⟨hs.trans (by rw [e2]; exact q1), hk⟩

theorem execSlotIdRetry_keeps {q} {s : State} (hq : s.fixed.1 = q) (hw : FixedOk s.fixed) (t : Nat) (r0 r1 r2 : BitVec 4) :
    Result.keeps q (execSlotIdRetry t r0 r1 r2 s) := by
  unfold execSlotIdRetry
  extract_lets s1
  have q1 : s1.fixed.1 = q := by simp [s1, hq]
  have w1 : FixedOk s1.fixed := by simp [s1, hw]
  clear_value s1
  clear hq hw
  rename' q1 => hq, w1 => hw
  split
  · split
    · exact ⟨(State.readSlots_queue _ _ _ _).trans hq, State.readSlots_ok hw _ _ _⟩
    · exact ⟨hq, hw⟩
  · exact ⟨hq, hw⟩

@[simp ↓] theorem execLampTestEnd_keeps {q} {s : State} (hq : s.fixed.1 = q) (hw : FixedOk s.fixed) (t : Nat) : Result.keeps q (execLampTestEnd t s) := by
  unfold execLampTestEnd
  repeat' (first | (extract_lets +onlyGivenNames x; (try (have hx : FixedOk x.fixed := by (simp only [x]; repeat' (first | with_reducible assumption | (intro s x hw) | with_reducible apply FixedOk.foldl | with_reducible apply State.at_ok | split | (simp [*, State.fixed_foldl, State.queue_foldl]; done) | split | simp only [State.fixed_foldl, State.fixed_update] | with_reducible refine (Result.keeps_next _ _).2 ⟨?_, ?_⟩)))); (try (have hq : x.fixed.1 = s.fixed.1 := by (simp only [x]; (repeat' split) <;> simp [*, State.fixed_foldl, State.queue_foldl]))); try clear_value x) | with_reducible assumption | (intro s x hw) | with_reducible apply FixedOk.foldl | with_reducible apply State.at_ok | (split) | (simp [*, State.fixed_foldl, State.queue_foldl]; done) | split | simp only [State.fixed_foldl, State.fixed_update] | with_reducible refine (Result.keeps_next _ _).2 ⟨?_, ?_⟩)

end Sys2Proof.Machine
end

