-- ==== Sys2Proof/Laws/DoorOps.lean ====
section
/-! SUPPORT. Laws/DoorOps.lean: what the operations of Machine/DoorOps.lean leave alone. -/
set_option linter.all false
namespace Sys2Proof.Machine

@[simp ↓] theorem State.cyc_fixed (s : State) (n : Nat) (f : Cycle → Cycle) : (s.cyc_ n f).fixed = s.fixed := by
  unfold State.cyc_
  repeat' (first | (extract_lets +onlyGivenNames x; (try (have hx : x.fixed = s.fixed := by (simp only [x]; (repeat' split) <;> simp [*, State.fixed_foldl]))); try clear_value x) | (split) | (simp [*, State.fixed_foldl]; done))

@[simp ↓] theorem State.lifeAdd_fixed (s : State) (n : Nat) (k : Nat) : (s.lifeAdd n k).fixed = s.fixed := by
  unfold State.lifeAdd
  repeat' (first | (extract_lets +onlyGivenNames x; (try (have hx : x.fixed = s.fixed := by (simp only [x]; (repeat' split) <;> simp [*, State.fixed_foldl]))); try clear_value x) | (split) | (simp [*, State.fixed_foldl]; done))

@[simp ↓] theorem State.clearDetect_fixed (s : State) (n : Nat) : (s.clearDetect n).fixed = s.fixed := by
  simp [State.clearDetect, State.fixed_foldl]

@[simp ↓] theorem State.startStroke_fixed (s : State) (n : Nat) (kind : Nat) (um : Int) (force : Bool) : (s.startStroke n kind um force).fixed = s.fixed := by
  unfold State.startStroke
  repeat' (first | (extract_lets +onlyGivenNames x; (try (have hx : x.fixed = s.fixed := by (simp only [x]; (repeat' split) <;> simp [*, State.fixed_foldl]))); try clear_value x) | (split) | (simp [*, State.fixed_foldl]; done))

@[simp ↓] theorem State.noLearn_fixed (s : State) (n : Nat) : (s.noLearn n).fixed = s.fixed := by
  simp [State.noLearn, State.fixed_foldl]

@[simp ↓] theorem State.restart_fixed (s : State) (n : Nat) : (s.restart n).fixed = s.fixed := by
  unfold State.restart
  repeat' (first | (extract_lets +onlyGivenNames x; (try (have hx : x.fixed = s.fixed := by (simp only [x]; (repeat' split) <;> simp [*, State.fixed_foldl]))); try clear_value x) | (split) | (simp [*, State.fixed_foldl]; done) | (refine (State.fixed_foldl _ _ ?_ _).trans ?_) | (refine congrArg Prod.fst ((State.fixed_foldl _ _ ?_ _).trans ?_)) | (refine (State.queue_foldl _ _ ?_ _).trans ?_) | (intro s x) | simp [*])

@[simp ↓] theorem State.enter_fixed (s : State) (n : Nat) (k : Nat) : (s.enter n k).fixed = s.fixed := by
  unfold State.enter
  repeat' (first | (extract_lets +onlyGivenNames x; (try (have hx : x.fixed = s.fixed := by (simp only [x]; (repeat' split) <;> simp [*, State.fixed_foldl]))); try clear_value x) | (split) | (simp [*, State.fixed_foldl]; done))

@[simp ↓] theorem State.derive_fixed (s : State) (n : Nat) : (s.derive n).fixed = s.fixed := by
  unfold State.derive
  repeat' (first | (extract_lets +onlyGivenNames x; (try (have hx : x.fixed = s.fixed := by (simp only [x]; (repeat' split) <;> simp [*, State.fixed_foldl]))); try clear_value x) | (split) | (simp [*, State.fixed_foldl]; done))

@[simp ↓] theorem State.enterFault_fixed (s : State) (n : Nat) (cause : Nat) : (s.enterFault n cause).fixed = s.fixed := by
  unfold State.enterFault
  repeat' (first | (extract_lets +onlyGivenNames x; (try (have hx : x.fixed = s.fixed := by (simp only [x]; (repeat' split) <;> simp [*, State.fixed_foldl]))); try clear_value x) | (split) | (simp [*, State.fixed_foldl]; done))

@[simp ↓] theorem State.enterEgress_fixed (s : State) (n : Nat) : (s.enterEgress n).fixed = s.fixed := by
  unfold State.enterEgress
  repeat' (first | (extract_lets +onlyGivenNames x; (try (have hx : x.fixed = s.fixed := by (simp only [x]; (repeat' split) <;> simp [*, State.fixed_foldl]))); try clear_value x) | (split) | (simp [*, State.fixed_foldl]; done))

@[simp ↓] theorem State.enterIsolated_fixed (s : State) (n : Nat) : (s.enterIsolated n).fixed = s.fixed := by
  unfold State.enterIsolated
  repeat' (first | (extract_lets +onlyGivenNames x; (try (have hx : x.fixed = s.fixed := by (simp only [x]; (repeat' split) <;> simp [*, State.fixed_foldl]))); try clear_value x) | (split) | (simp [*, State.fixed_foldl]; done))

@[simp ↓] theorem State.openFully_fixed (s : State) (n : Nat) : (s.openFully n).fixed = s.fixed := by
  unfold State.openFully
  repeat' (first | (extract_lets +onlyGivenNames x; (try (have hx : x.fixed = s.fixed := by (simp only [x]; (repeat' split) <;> simp [*, State.fixed_foldl]))); try clear_value x) | (split) | (simp [*, State.fixed_foldl]; done))

@[simp ↓] theorem State.startClose_fixed (s : State) (n : Nat) : (s.startClose n).fixed = s.fixed := by
  simp [State.startClose, State.fixed_foldl]

@[simp ↓] theorem State.closeFully_fixed (s : State) (n : Nat) : (s.closeFully n).fixed = s.fixed := by
  simp [State.closeFully, State.fixed_foldl]

@[simp ↓] theorem State.reopen_fixed (s : State) (n : Nat) (force : Bool) : (s.reopen n force).fixed = s.fixed := by
  simp [State.reopen, State.fixed_foldl]

@[simp ↓] theorem State.endStroke_fixed (s : State) (n : Nat) : (s.endStroke n).fixed = s.fixed := by
  unfold State.endStroke
  repeat' (first | (extract_lets +onlyGivenNames x; (try (have hx : x.fixed = s.fixed := by (simp only [x]; (repeat' split) <;> simp [*, State.fixed_foldl]))); try clear_value x) | (split) | (simp [*, State.fixed_foldl]; done))

@[simp ↓] theorem State.cycleStats_fixed (s : State) (n : Nat) (f : Fb) (force : Nat) (ex : Int) : (s.cycleStats n f force ex).fixed = s.fixed := by
  unfold State.cycleStats
  repeat' (first | (extract_lets +onlyGivenNames x; (try (have hx : x.fixed = s.fixed := by (simp only [x]; (repeat' split) <;> simp [*, State.fixed_foldl]))); try clear_value x) | (split) | (simp [*, State.fixed_foldl]; done))

@[simp ↓] theorem State.showFb_fixed (s : State) (n : Nat) (f : Fb) : (s.showFb n f).fixed = s.fixed := by
  unfold State.showFb
  repeat' (first | (extract_lets +onlyGivenNames x; (try (have hx : x.fixed = s.fixed := by (simp only [x]; (repeat' split) <;> simp [*, State.fixed_foldl]))); try clear_value x) | (split) | (simp [*, State.fixed_foldl]; done))

@[simp ↓] theorem State.takeFresh_fixed (s : State) (n : Nat) (f : Fb) : (s.takeFresh n f).fixed = s.fixed := by
  unfold State.takeFresh
  repeat' (first | (extract_lets +onlyGivenNames x; (try (have hx : x.fixed = s.fixed := by (simp only [x]; (repeat' split) <;> simp [*, State.fixed_foldl]))); try clear_value x) | (split) | (simp [*, State.fixed_foldl]; done))

@[simp ↓] theorem State.takeStale_fixed (s : State) (n : Nat) (f : Fb) : (s.takeStale n f).fixed = s.fixed := by
  unfold State.takeStale
  repeat' (first | (extract_lets +onlyGivenNames x; (try (have hx : x.fixed = s.fixed := by (simp only [x]; (repeat' split) <;> simp [*, State.fixed_foldl]))); try clear_value x) | (split) | (simp [*, State.fixed_foldl]; done))

@[simp ↓] theorem State.takeFb_fixed (s : State) (n : Nat) : (s.takeFb n).fixed = s.fixed := by
  unfold State.takeFb
  repeat' (first | (extract_lets +onlyGivenNames x; (try (have hx : x.fixed = s.fixed := by (simp only [x]; (repeat' split) <;> simp [*, State.fixed_foldl]))); try clear_value x) | (split) | (simp [*, State.fixed_foldl]; done) | (refine (State.fixed_foldl _ _ ?_ _).trans ?_) | (refine congrArg Prod.fst ((State.fixed_foldl _ _ ?_ _).trans ?_)) | (refine (State.queue_foldl _ _ ?_ _).trans ?_) | (intro s x) | simp [*])

@[simp ↓] theorem State.lockCounts_fixed (s : State) (n : Nat) : (s.lockCounts n).fixed = s.fixed := by
  unfold State.lockCounts
  repeat' (first | (extract_lets +onlyGivenNames x; (try (have hx : x.fixed = s.fixed := by (simp only [x]; (repeat' split) <;> simp [*, State.fixed_foldl]))); try clear_value x) | (split) | (simp [*, State.fixed_foldl]; done))

@[simp ↓] theorem State.axisTicks_fixed (s : State) (n : Nat) : (s.axisTicks n).fixed = s.fixed := by
  unfold State.axisTicks
  repeat' (first | (extract_lets +onlyGivenNames x; (try (have hx : x.fixed = s.fixed := by (simp only [x]; (repeat' split) <;> simp [*, State.fixed_foldl]))); try clear_value x) | (split) | (simp [*, State.fixed_foldl]; done))

@[simp ↓] theorem State.noteObst_fixed (s : State) (n : Nat) (bits : Nat) : (s.noteObst n bits).fixed = s.fixed := by
  unfold State.noteObst
  repeat' (first | (extract_lets +onlyGivenNames x; (try (have hx : x.fixed = s.fixed := by (simp only [x]; (repeat' split) <;> simp [*, State.fixed_foldl]))); try clear_value x) | (split) | (simp [*, State.fixed_foldl]; done))

@[simp ↓] theorem State.addRetry_fixed (s : State) (n : Nat) (used : Nat) : (s.addRetry n used).fixed = s.fixed := by
  simp [State.addRetry, State.fixed_foldl]

@[simp ↓] theorem State.clearRetry_fixed (s : State) (n : Nat) : (s.clearRetry n).fixed = s.fixed := by
  simp [State.clearRetry, State.fixed_foldl]

@[simp ↓] theorem State.obstacle_fixed (s : State) (n : Nat) (bits : Nat) (used : Nat) (most : Nat) : (s.obstacle n bits used most).fixed = s.fixed := by
  unfold State.obstacle
  repeat' (first | (extract_lets +onlyGivenNames x; (try (have hx : x.fixed = s.fixed := by (simp only [x]; (repeat' split) <;> simp [*, State.fixed_foldl]))); try clear_value x) | (split) | (simp [*, State.fixed_foldl]; done))

end Sys2Proof.Machine
end

