-- ==== Sys2Proof/Laws/Door.lean ====
section
/-! SUPPORT. Laws/Door.lean: what the operations of Machine/Door.lean leave alone. -/
set_option linter.all false
namespace Sys2Proof.Machine

@[simp ↓] theorem State.doEvent_fixed (s : State) (n : Nat) (e : Event) : (s.doEvent n e).fixed = s.fixed := by
  cases e <;> simp [State.doEvent]

@[simp ↓] theorem State.enterClosed_fixed (s : State) (n : Nat) : (s.enterClosed n).fixed = s.fixed := by
  simp [State.enterClosed, State.fixed_foldl]

@[simp ↓] theorem State.enterLocked_fixed (s : State) (n : Nat) : (s.enterLocked n).fixed = s.fixed := by
  unfold State.enterLocked
  repeat' (first | (extract_lets +onlyGivenNames x; (try (have hx : x.fixed = s.fixed := by (simp only [x]; (repeat' split) <;> simp [*, State.fixed_foldl]))); try clear_value x) | (split) | (simp [*, State.fixed_foldl]; done))

@[simp ↓] theorem State.enterOpen_fixed (s : State) (n : Nat) : (s.enterOpen n).fixed = s.fixed := by
  simp [State.enterOpen, State.fixed_foldl]

@[simp ↓] theorem State.lowerEvents_fixed (s : State) (n : Nat) : (s.lowerEvents n).fixed = s.fixed := by
  unfold State.lowerEvents
  repeat' (first | (extract_lets +onlyGivenNames x; (try (have hx : x.fixed = s.fixed := by (simp only [x]; (repeat' split) <;> simp [*, State.fixed_foldl]))); try clear_value x) | (split) | (simp [*, State.fixed_foldl]; done))

@[simp ↓] theorem State.directCheck_fixed (s : State) (n : Nat) : (s.directCheck n).fixed = s.fixed := by
  unfold State.directCheck
  repeat' (first | (extract_lets +onlyGivenNames x; (try (have hx : x.fixed = s.fixed := by (simp only [x]; (repeat' split) <;> simp [*, State.fixed_foldl]))); try clear_value x) | (split) | (simp [*, State.fixed_foldl]; done))

@[simp ↓] theorem State.immediate_fixed (s0 s : State) (n : Nat) : (s0.immediate s n).fixed = s.fixed := by
  unfold State.immediate
  repeat' split
  all_goals simp

@[simp ↓] theorem State.supervise_fixed (s0 s1 s : State) (n : Nat) : (s0.supervise s1 s n).fixed = s.fixed := by
  unfold State.supervise
  split
  · rfl
  · extract_lets s2 s3
    have h2 : s2.fixed = s.fixed := by simp [s2]
    have h3 : s3.fixed = s.fixed := by simp [s3, h2]
    clear_value s3 s2
    split
    · simp [h2]
    · repeat' split
      all_goals simp [h2, h3]

@[simp ↓] theorem State.lockStroke_fixed (s : State) (n : Nat) : (s.lockStroke n).fixed = s.fixed := by
  unfold State.lockStroke
  repeat' (first | (extract_lets +onlyGivenNames x; (try (have hx : x.fixed = s.fixed := by (simp only [x]; (repeat' split) <;> simp [*, State.fixed_foldl]))); try clear_value x) | (split) | (simp [*, State.fixed_foldl]; done))

@[simp ↓] theorem State.shedHold_fixed (s : State) (n : Nat) : (s.shedHold n).fixed = s.fixed := by
  unfold State.shedHold
  repeat' (first | (extract_lets +onlyGivenNames x; (try (have hx : x.fixed = s.fixed := by (simp only [x]; (repeat' split) <;> simp [*, State.fixed_foldl]))); try clear_value x) | (split) | (simp [*, State.fixed_foldl]; done))

@[simp ↓] theorem State.kickAxis_fixed (s : State) (n : Nat) : (s.kickAxis n).fixed = s.fixed := by
  unfold State.kickAxis
  repeat' (first | (extract_lets +onlyGivenNames x; (try (have hx : x.fixed = s.fixed := by (simp only [x]; (repeat' split) <;> simp [*, State.fixed_foldl]))); try clear_value x) | (split) | (simp [*, State.fixed_foldl]; done))

@[simp ↓] theorem State.showDoor_queue (s : State) : (s.showDoor).fixed.1 = s.fixed.1 := by
  unfold State.showDoor
  repeat' (first | (extract_lets +onlyGivenNames x; (try (have hx : x.fixed.1 = s.fixed.1 := by (simp only [x]; (repeat' split) <;> simp [*, State.fixed_foldl, State.queue_foldl]))); try clear_value x) | (split) | (simp [*, State.fixed_foldl, State.queue_foldl]; done))

@[simp ↓] theorem State.showDoor_ok {s : State} (hw : FixedOk s.fixed) : FixedOk (s.showDoor).fixed := by
  unfold State.showDoor
  repeat' (first | (extract_lets +onlyGivenNames x; (try (have hx : FixedOk x.fixed := by (simp only [x]; repeat' (first | with_reducible assumption | (intro s x hw) | with_reducible apply FixedOk.foldl | with_reducible apply State.liveWrite_ok | split | (simp [*, State.fixed_foldl, State.queue_foldl]; done) | split | simp only [State.fixed_foldl, State.fixed_update] | with_reducible refine (Result.keeps_next _ _).2 ⟨?_, ?_⟩)))); (try (have hq : x.fixed.1 = s.fixed.1 := by (simp only [x]; (repeat' split) <;> simp [*, State.fixed_foldl, State.queue_foldl]))); try clear_value x) | with_reducible assumption | (intro s x hw) | with_reducible apply FixedOk.foldl | with_reducible apply State.liveWrite_ok | (split) | (simp [*, State.fixed_foldl, State.queue_foldl]; done) | split | simp only [State.fixed_foldl, State.fixed_update] | with_reducible refine (Result.keeps_next _ _).2 ⟨?_, ?_⟩)

@[simp ↓] theorem State.releasePass_fixed (s : State) : (s.releasePass).fixed = s.fixed := by
  unfold State.releasePass
  repeat' (first | (extract_lets +onlyGivenNames x; (try (have hx : x.fixed = s.fixed := by (simp only [x]; (repeat' split) <;> simp [*, State.fixed_foldl]))); try clear_value x) | (split) | (simp [*, State.fixed_foldl]; done))

@[simp ↓] theorem State.takeImage_queue (s : State) : (s.takeImage).fixed.1 = s.fixed.1 := by
  unfold State.takeImage
  repeat' (first | (extract_lets +onlyGivenNames x; (try (have hx : x.fixed.1 = s.fixed.1 := by (simp only [x]; (repeat' split) <;> simp [*, State.fixed_foldl, State.queue_foldl]))); try clear_value x) | (split) | (simp [*, State.fixed_foldl, State.queue_foldl]; done))

@[simp ↓] theorem State.takeImage_ok {s : State} (hw : FixedOk s.fixed) : FixedOk (s.takeImage).fixed := by
  unfold State.takeImage
  repeat' (first | (extract_lets +onlyGivenNames x; (try (have hx : FixedOk x.fixed := by (simp only [x]; repeat' (first | with_reducible assumption | (intro s x hw) | with_reducible apply FixedOk.foldl | with_reducible apply State.fnOpen_ok | split | (simp [*, State.fixed_foldl, State.queue_foldl]; done) | split | simp only [State.fixed_foldl, State.fixed_update] | with_reducible refine (Result.keeps_next _ _).2 ⟨?_, ?_⟩)))); (try (have hq : x.fixed.1 = s.fixed.1 := by (simp only [x]; (repeat' split) <;> simp [*, State.fixed_foldl, State.queue_foldl]))); try clear_value x) | with_reducible assumption | (intro s x hw) | with_reducible apply FixedOk.foldl | with_reducible apply State.fnOpen_ok | (split) | (simp [*, State.fixed_foldl, State.queue_foldl]; done) | split | simp only [State.fixed_foldl, State.fixed_update] | with_reducible refine (Result.keeps_next _ _).2 ⟨?_, ?_⟩)

@[simp ↓] theorem State.backAxis_fixed (s : State) (n : Nat) : (s.backAxis n).fixed = s.fixed := by
  unfold State.backAxis
  repeat' (first | (extract_lets +onlyGivenNames x; (try (have hx : x.fixed = s.fixed := by (simp only [x]; (repeat' split) <;> simp [*, State.fixed_foldl]))); try clear_value x) | (split) | (simp [*, State.fixed_foldl]; done))

@[simp ↓] theorem State.laneBack_fixed (s : State) : (s.laneBack).fixed = s.fixed := by
  unfold State.laneBack
  repeat' (first | (extract_lets +onlyGivenNames x; (try (have hx : x.fixed = s.fixed := by (simp only [x]; (repeat' split) <;> simp [*, State.fixed_foldl]))); try clear_value x) | (split) | (simp [*, State.fixed_foldl]; done))

@[simp ↓] theorem State.autoHome_fixed (s : State) (n : Nat) : (s.autoHome n).fixed = s.fixed := by
  unfold State.autoHome
  repeat' (first | (extract_lets +onlyGivenNames x; (try (have hx : x.fixed = s.fixed := by (simp only [x]; (repeat' split) <;> simp [*, State.fixed_foldl]))); try clear_value x) | (split) | (simp [*, State.fixed_foldl]; done))

@[simp ↓] theorem State.badSlots_fixed (s : State) : (s.badSlots).fixed = s.fixed := by
  unfold State.badSlots
  repeat' (first | (extract_lets +onlyGivenNames x; (try (have hx : x.fixed = s.fixed := by (simp only [x]; (repeat' split) <;> simp [*, State.fixed_foldl]))); try clear_value x) | (split) | (simp [*, State.fixed_foldl]; done))

@[simp ↓] theorem State.doorPass_queue (s : State) : s.doorPass.fixed.1 = s.fixed.1 := by
  unfold State.doorPass
  extract_lets l s1 s2 s3 s4 s5 s6 s7 s8 s9 s10 first s11 s12 s13 s14 r s15
  have h1 : s1.fixed.1 = s.fixed.1 := State.queue_foldl _ _ (fun s x => by simp) _
  have h2 : s2.fixed.1 = s.fixed.1 := ((State.queue_foldl _ _ (fun s x => by simp) _).trans (State.queue_foldl _ _ (fun s x => by simp) _)).trans h1
  have h3 : s3.fixed.1 = s.fixed.1 := ((State.queue_foldl _ _ (fun s x => by simp) _).trans (by simp)).trans h2
  have h4 : s4.fixed.1 = s.fixed.1 := (State.queue_foldl _ _ (fun s x => by simp) _).trans h3
  have h5 : s5.fixed.1 = s.fixed.1 := by simp [s5, h4]
  have h6 : s6.fixed.1 = s.fixed.1 := (State.queue_foldl _ _ (fun s x => by simp) _).trans h5
  have h7 : s7.fixed.1 = s.fixed.1 := (State.queue_foldl _ _ (fun s x => by simp) _).trans h6
  have h8 : s8.fixed.1 = s.fixed.1 := (State.queue_foldl _ _ (fun s x => by split <;> simp) _).trans h7
  have h9 : s9.fixed.1 = s.fixed.1 := ((State.queue_foldl _ _ (fun s x => by simp) _).trans (State.queue_foldl _ _ (fun s x => by simp) _)).trans h8
  have h10 : s10.fixed.1 = s.fixed.1 := ((State.queue_foldl _ _ (fun s x => by simp) _).trans (State.queue_foldl _ _ (fun s x => by simp) _)).trans h9
  have h11 : s11.fixed.1 = s.fixed.1 := by simp [s11, h10]
  have h12 : s12.fixed.1 = s.fixed.1 := (State.queue_foldl _ _ (fun s x => by simp) _).trans h11
  have h13 : s13.fixed.1 = s.fixed.1 := (State.queue_foldl _ _ (fun s x => by simp) _).trans h12
  have h14 : s14.fixed.1 = s.fixed.1 := (State.queue_foldl _ _ (fun s x => by simp) _).trans h13
  have h15 : s15.fixed.1 = s.fixed.1 := h14
  clear_value s15
  simp [h15]

@[simp ↓] theorem State.doorPass_ok {s : State} (hw : FixedOk s.fixed) : FixedOk s.doorPass.fixed := by
  unfold State.doorPass
  extract_lets l s1 s2 s3 s4 s5 s6 s7 s8 s9 s10 first s11 s12 s13 s14 r s15
  have h1 : FixedOk s1.fixed := FixedOk.foldl _ _ (fun s x h => by simp [h]) _ hw
  have h2 : FixedOk s2.fixed := FixedOk.foldl _ _ (fun s x h => by simp [h]) _ (FixedOk.foldl _ _ (fun s x h => by simp [h]) _ h1)
  have h3 : FixedOk s3.fixed := FixedOk.foldl _ _ (fun s x h => by simp [h]) _ (by simp [h2])
  have h4 : FixedOk s4.fixed := FixedOk.foldl _ _ (fun s x h => by simp [h]) _ h3
  have h5 : FixedOk s5.fixed := by simp [s5, h4]
  have h6 : FixedOk s6.fixed := FixedOk.foldl _ _ (fun s x h => by simp [h]) _ h5
  have h7 : FixedOk s7.fixed := FixedOk.foldl _ _ (fun s x h => by simp [h]) _ h6
  have h8 : FixedOk s8.fixed := FixedOk.foldl _ _ (fun s x h => by split <;> simp [h]) _ h7
  have h9 : FixedOk s9.fixed := FixedOk.foldl _ _ (fun s x h => by simp [h]) _ (FixedOk.foldl _ _ (fun s x h => by simp [h]) _ h8)
  have h10 : FixedOk s10.fixed := FixedOk.foldl _ _ (fun s x h => by simp [h]) _ (FixedOk.foldl _ _ (fun s x h => by simp [h]) _ h9)
  have h11 : FixedOk s11.fixed := by simp [s11, h10]
  have h12 : FixedOk s12.fixed := FixedOk.foldl _ _ (fun s x h => by simp [h]) _ h11
  have h13 : FixedOk s13.fixed := FixedOk.foldl _ _ (fun s x h => by simp [h]) _ h12
  have h14 : FixedOk s14.fixed := FixedOk.foldl _ _ (fun s x h => by simp [h]) _ h13
  have h15 : FixedOk s15.fixed := h14
  clear_value s15
  apply State.showMotion_ok
  apply State.showDoor_ok
  simpa using h15

@[simp ↓] theorem execFeedbackDeadline_keeps {q} {s : State} (hq : s.fixed.1 = q) (hw : FixedOk s.fixed) (t : Nat) (mismatch : Bool) (dur : Nat) (plan : Nat) : Result.keeps q (execFeedbackDeadline t mismatch dur plan s) := by
  unfold execFeedbackDeadline
  repeat' (first | (extract_lets +onlyGivenNames x; (try (have hx : FixedOk x.fixed := by (simp only [x]; repeat' (first | with_reducible assumption | (intro s x hw) | with_reducible apply FixedOk.foldl | with_reducible apply State.at_ok | with_reducible apply State.enterLockout_ok | with_reducible apply State.doorPass_ok | split | (simp [*, State.fixed_foldl, State.queue_foldl]; done) | split | simp only [State.fixed_foldl, State.fixed_update] | with_reducible refine (Result.keeps_next _ _).2 ⟨?_, ?_⟩)))); (try (have hq : x.fixed.1 = s.fixed.1 := by (simp only [x]; (repeat' split) <;> simp [*, State.fixed_foldl, State.queue_foldl]))); try clear_value x) | with_reducible assumption | (intro s x hw) | with_reducible apply FixedOk.foldl | with_reducible apply State.at_ok | with_reducible apply State.enterLockout_ok | with_reducible apply State.doorPass_ok | (split) | (simp [*, State.fixed_foldl, State.queue_foldl]; done) | split | simp only [State.fixed_foldl, State.fixed_update] | with_reducible refine (Result.keeps_next _ _).2 ⟨?_, ?_⟩)

@[simp ↓] theorem execFeedbackFaultTimeout_keeps {q} {s : State} (hq : s.fixed.1 = q) (hw : FixedOk s.fixed) (t : Nat) (n : Nat) : Result.keeps q (execFeedbackFaultTimeout t n s) := by
  unfold execFeedbackFaultTimeout
  repeat' (first | (extract_lets +onlyGivenNames x; (try (have hx : FixedOk x.fixed := by (simp only [x]; repeat' (first | with_reducible assumption | (intro s x hw) | with_reducible apply FixedOk.foldl | with_reducible apply State.at_ok | with_reducible apply State.showMotion_ok | with_reducible apply State.showDoor_ok | split | (simp [*, State.fixed_foldl, State.queue_foldl]; done) | split | simp only [State.fixed_foldl, State.fixed_update] | with_reducible refine (Result.keeps_next _ _).2 ⟨?_, ?_⟩)))); (try (have hq : x.fixed.1 = s.fixed.1 := by (simp only [x]; (repeat' split) <;> simp [*, State.fixed_foldl, State.queue_foldl]))); try clear_value x) | with_reducible assumption | (intro s x hw) | with_reducible apply FixedOk.foldl | with_reducible apply State.at_ok | with_reducible apply State.showMotion_ok | with_reducible apply State.showDoor_ok | (split) | (simp [*, State.fixed_foldl, State.queue_foldl]; done) | split | simp only [State.fixed_foldl, State.fixed_update] | with_reducible refine (Result.keeps_next _ _).2 ⟨?_, ?_⟩)

@[simp ↓] theorem State.lockRetry_fixed (s : State) (used : Nat) (n : Nat) : (State.lockRetry used s n).fixed = s.fixed := by
  unfold State.lockRetry
  repeat' (first | (extract_lets +onlyGivenNames x; (try (have hx : x.fixed = s.fixed := by (simp only [x]; (repeat' split) <;> simp [*, State.fixed_foldl]))); try clear_value x) | (split) | (simp [*, State.fixed_foldl]; done))

@[simp ↓] theorem execLockTimeout_keeps {q} {s : State} (hq : s.fixed.1 = q) (hw : FixedOk s.fixed) (t : Nat) (n : Nat) : Result.keeps q (execLockTimeout t n s) := by
  unfold execLockTimeout
  repeat' (first | (extract_lets +onlyGivenNames x; (try (have hx : FixedOk x.fixed := by (simp only [x]; repeat' (first | with_reducible assumption | (intro s x hw) | with_reducible apply FixedOk.foldl | with_reducible apply State.at_ok | with_reducible apply State.showMotion_ok | with_reducible apply State.showDoor_ok | split | (simp [*, State.fixed_foldl, State.queue_foldl]; done) | split | simp only [State.fixed_foldl, State.fixed_update] | with_reducible refine (Result.keeps_next _ _).2 ⟨?_, ?_⟩)))); (try (have hq : x.fixed.1 = s.fixed.1 := by (simp only [x]; (repeat' split) <;> simp [*, State.fixed_foldl, State.queue_foldl]))); try clear_value x) | with_reducible assumption | (intro s x hw) | with_reducible apply FixedOk.foldl | with_reducible apply State.at_ok | with_reducible apply State.showMotion_ok | with_reducible apply State.showDoor_ok | (split) | (simp [*, State.fixed_foldl, State.queue_foldl]; done) | split | simp only [State.fixed_foldl, State.fixed_update] | with_reducible refine (Result.keeps_next _ _).2 ⟨?_, ?_⟩)

@[simp ↓] theorem State.dwellNext_fixed (s : State) (re : Bool) (n : Nat) : (State.dwellNext re s n).fixed = s.fixed := by
  simp [State.dwellNext, State.fixed_foldl]

@[simp ↓] theorem execReopenDwellEnd_keeps {q} {s : State} (hq : s.fixed.1 = q) (hw : FixedOk s.fixed) (t : Nat) (n : Nat) : Result.keeps q (execReopenDwellEnd t n s) := by
  unfold execReopenDwellEnd
  repeat' (first | (extract_lets +onlyGivenNames x; (try (have hx : FixedOk x.fixed := by (simp only [x]; repeat' (first | with_reducible assumption | (intro s x hw) | with_reducible apply FixedOk.foldl | with_reducible apply State.at_ok | with_reducible apply State.showMotion_ok | with_reducible apply State.showDoor_ok | split | (simp [*, State.fixed_foldl, State.queue_foldl]; done) | split | simp only [State.fixed_foldl, State.fixed_update] | with_reducible refine (Result.keeps_next _ _).2 ⟨?_, ?_⟩)))); (try (have hq : x.fixed.1 = s.fixed.1 := by (simp only [x]; (repeat' split) <;> simp [*, State.fixed_foldl, State.queue_foldl]))); try clear_value x) | with_reducible assumption | (intro s x hw) | with_reducible apply FixedOk.foldl | with_reducible apply State.at_ok | with_reducible apply State.showMotion_ok | with_reducible apply State.showDoor_ok | (split) | (simp [*, State.fixed_foldl, State.queue_foldl]; done) | split | simp only [State.fixed_foldl, State.fixed_update] | with_reducible refine (Result.keeps_next _ _).2 ⟨?_, ?_⟩)

@[simp ↓] theorem execAccWinEnd_keeps {q} {s : State} (hq : s.fixed.1 = q) (hw : FixedOk s.fixed) (t : Nat) (n : Nat) : Result.keeps q (execAccWinEnd t n s) := by
  unfold execAccWinEnd
  repeat' (first | (extract_lets +onlyGivenNames x; (try (have hx : FixedOk x.fixed := by (simp only [x]; repeat' (first | with_reducible assumption | (intro s x hw) | with_reducible apply FixedOk.foldl | with_reducible apply State.at_ok | split | (simp [*, State.fixed_foldl, State.queue_foldl]; done) | split | simp only [State.fixed_foldl, State.fixed_update] | with_reducible refine (Result.keeps_next _ _).2 ⟨?_, ?_⟩)))); (try (have hq : x.fixed.1 = s.fixed.1 := by (simp only [x]; (repeat' split) <;> simp [*, State.fixed_foldl, State.queue_foldl]))); try clear_value x) | with_reducible assumption | (intro s x hw) | with_reducible apply FixedOk.foldl | with_reducible apply State.at_ok | (split) | (simp [*, State.fixed_foldl, State.queue_foldl]; done) | split | simp only [State.fixed_foldl, State.fixed_update] | with_reducible refine (Result.keeps_next _ _).2 ⟨?_, ?_⟩)

@[simp ↓] theorem State.learnPoint_queue (s : State) (n : Nat) (d : Nat) (x : Nat × Nat) : (s.learnPoint n d x).fixed.1 = s.fixed.1 := by
  unfold State.learnPoint
  repeat' (first | (extract_lets +onlyGivenNames x; (try (have hx : x.fixed.1 = s.fixed.1 := by (simp only [x]; (repeat' split) <;> simp [*, State.fixed_foldl, State.queue_foldl]))); try clear_value x) | (split) | (simp [*, State.fixed_foldl, State.queue_foldl]; done))

@[simp ↓] theorem State.learnPoint_ok {s : State} (hw : FixedOk s.fixed) (n : Nat) (d : Nat) (x : Nat × Nat) : FixedOk (s.learnPoint n d x).fixed := by
  unfold State.learnPoint
  repeat' (first | (extract_lets +onlyGivenNames x; (try (have hx : FixedOk x.fixed := by (simp only [x]; repeat' (first | with_reducible assumption | (intro s x hw) | with_reducible apply FixedOk.foldl | with_reducible apply State.store_ok | split | (simp [*, State.fixed_foldl, State.queue_foldl]; done) | split | simp only [State.fixed_foldl, State.fixed_update] | with_reducible refine (Result.keeps_next _ _).2 ⟨?_, ?_⟩)))); (try (have hq : x.fixed.1 = s.fixed.1 := by (simp only [x]; (repeat' split) <;> simp [*, State.fixed_foldl, State.queue_foldl]))); try clear_value x) | with_reducible assumption | (intro s x hw) | with_reducible apply FixedOk.foldl | with_reducible apply State.store_ok | (split) | (simp [*, State.fixed_foldl, State.queue_foldl]; done) | split | simp only [State.fixed_foldl, State.fixed_update] | with_reducible refine (Result.keeps_next _ _).2 ⟨?_, ?_⟩)

theorem execEnvelopeUpdate_keeps {q} {s : State} (hq : s.fixed.1 = q) (hw : FixedOk s.fixed) (t : Nat) (n : Nat) : Result.keeps q (execEnvelopeUpdate t n s) := by
  unfold execEnvelopeUpdate
  have h1 : ∀ (l : List (Nat × Nat)) (d : Nat) (s : State), (l.foldl (fun s x => s.learnPoint n d x) s).fixed.1 = s.fixed.1 :=
    fun l d s => State.queue_foldl _ _ (fun s x => State.learnPoint_queue s n d x) s
  have h2 : ∀ (l : List (Nat × Nat)) (d : Nat) {s : State}, FixedOk s.fixed → FixedOk (l.foldl (fun s x => s.learnPoint n d x) s).fixed :=
    fun l d s hs => FixedOk.foldl _ _ (fun s x h => State.learnPoint_ok h n d x) s hs
  dsimp only
  split
  · rename_i st _
    simp only [Result.keeps_next, State.putIf_fixed, State.lifeAdd_fixed]
    have e : ∀ u : State, (u.setDax n { (s.at_ t).dax n with learn := none }).fixed = u.fixed := fun u => by simp
    simp only [e, State.inc_fixed]
    exact ⟨(h1 _ _ _).trans (by simpa using hq), h2 _ _ (State.at_ok hw t)⟩
  · simp [hq, hw]

@[simp ↓] theorem execHoldMsEnd_keeps {q} {s : State} (hq : s.fixed.1 = q) (hw : FixedOk s.fixed) (t : Nat) (n : Nat) : Result.keeps q (execHoldMsEnd t n s) := by
  unfold execHoldMsEnd
  repeat' (first | (extract_lets +onlyGivenNames x; (try (have hx : FixedOk x.fixed := by (simp only [x]; repeat' (first | with_reducible assumption | (intro s x hw) | with_reducible apply FixedOk.foldl | with_reducible apply State.at_ok | with_reducible apply State.showMotion_ok | split | (simp [*, State.fixed_foldl, State.queue_foldl]; done) | split | simp only [State.fixed_foldl, State.fixed_update] | with_reducible refine (Result.keeps_next _ _).2 ⟨?_, ?_⟩)))); (try (have hq : x.fixed.1 = s.fixed.1 := by (simp only [x]; (repeat' split) <;> simp [*, State.fixed_foldl, State.queue_foldl]))); try clear_value x) | with_reducible assumption | (intro s x hw) | with_reducible apply FixedOk.foldl | with_reducible apply State.at_ok | with_reducible apply State.showMotion_ok | (split) | (simp [*, State.fixed_foldl, State.queue_foldl]; done) | split | simp only [State.fixed_foldl, State.fixed_update] | with_reducible refine (Result.keeps_next _ _).2 ⟨?_, ?_⟩)

end Sys2Proof.Machine
end

