-- ==== Sys2Proof/Laws/Recorder.lean ====
section
/-! SUPPORT. Laws/Recorder.lean: what the operations of Machine/Recorder.lean leave alone. -/
set_option linter.all false
namespace Sys2Proof.Machine

@[simp ↓] theorem State.writeSlot_queue (s : State) (p : Nat) (i : Nat) (body : List Byte) : (s.writeSlot p i body).fixed.1 = s.fixed.1 := by
  unfold State.writeSlot
  repeat' (first | (extract_lets +onlyGivenNames x; (try (have hx : x.fixed.1 = s.fixed.1 := by (simp only [x]; (repeat' split) <;> simp [*, State.fixed_foldl, State.queue_foldl]))); try clear_value x) | (split) | (simp [*, State.fixed_foldl, State.queue_foldl]; done))

@[simp ↓] theorem State.writeSlot_ok {s : State} (hw : FixedOk s.fixed) (p : Nat) (i : Nat) (body : List Byte) : FixedOk (s.writeSlot p i body).fixed := by
  unfold State.writeSlot
  repeat' (first | (extract_lets +onlyGivenNames x; (try (have hx : FixedOk x.fixed := by (simp only [x]; repeat' (first | with_reducible assumption | (intro s x hw) | with_reducible apply FixedOk.foldl | with_reducible apply State.storeBytes_ok | split | (simp [*, State.fixed_foldl, State.queue_foldl]; done) | split | simp only [State.fixed_foldl, State.fixed_update] | with_reducible refine (Result.keeps_next _ _).2 ⟨?_, ?_⟩)))); (try (have hq : x.fixed.1 = s.fixed.1 := by (simp only [x]; (repeat' split) <;> simp [*, State.fixed_foldl, State.queue_foldl]))); try clear_value x) | with_reducible assumption | (intro s x hw) | with_reducible apply FixedOk.foldl | with_reducible apply State.storeBytes_ok | (split) | (simp [*, State.fixed_foldl, State.queue_foldl]; done) | split | simp only [State.fixed_foldl, State.fixed_update] | with_reducible refine (Result.keeps_next _ _).2 ⟨?_, ?_⟩)

@[simp ↓] theorem State.cutSlot_queue (s : State) (p : Nat) (i : Nat) (n : Nat) (body : List Byte) : (s.cutSlot p i n body).fixed.1 = s.fixed.1 := by
  unfold State.cutSlot
  repeat' (first | (extract_lets +onlyGivenNames x; (try (have hx : x.fixed.1 = s.fixed.1 := by (simp only [x]; (repeat' split) <;> simp [*, State.fixed_foldl, State.queue_foldl]))); try clear_value x) | (split) | (simp [*, State.fixed_foldl, State.queue_foldl]; done))

@[simp ↓] theorem State.cutSlot_ok {s : State} (hw : FixedOk s.fixed) (p : Nat) (i : Nat) (n : Nat) (body : List Byte) : FixedOk (s.cutSlot p i n body).fixed := by
  unfold State.cutSlot
  repeat' (first | (extract_lets +onlyGivenNames x; (try (have hx : FixedOk x.fixed := by (simp only [x]; repeat' (first | with_reducible assumption | (intro s x hw) | with_reducible apply FixedOk.foldl | with_reducible apply State.storeBytes_ok | with_reducible apply State.store_ok | split | (simp [*, State.fixed_foldl, State.queue_foldl]; done) | split | simp only [State.fixed_foldl, State.fixed_update] | with_reducible refine (Result.keeps_next _ _).2 ⟨?_, ?_⟩)))); (try (have hq : x.fixed.1 = s.fixed.1 := by (simp only [x]; (repeat' split) <;> simp [*, State.fixed_foldl, State.queue_foldl]))); try clear_value x) | with_reducible assumption | (intro s x hw) | with_reducible apply FixedOk.foldl | with_reducible apply State.storeBytes_ok | with_reducible apply State.store_ok | (split) | (simp [*, State.fixed_foldl, State.queue_foldl]; done) | split | simp only [State.fixed_foldl, State.fixed_update] | with_reducible refine (Result.keeps_next _ _).2 ⟨?_, ?_⟩)

@[simp ↓] theorem State.makeRoom_fixed (s : State) (p : Nat) : (s.makeRoom p).fixed = s.fixed := by
  unfold State.makeRoom
  repeat' (first | (extract_lets +onlyGivenNames x; (try (have hx : x.fixed = s.fixed := by (simp only [x]; (repeat' split) <;> simp [*, State.fixed_foldl]))); try clear_value x) | (split) | (simp [*, State.fixed_foldl]; done))

@[simp ↓] theorem State.ringWrite_queue (s : State) (p : Nat) (body : List Byte) : (s.ringWrite p body).fixed.1 = s.fixed.1 := by
  unfold State.ringWrite
  repeat' (first | (extract_lets +onlyGivenNames x; (try (have hx : x.fixed.1 = s.fixed.1 := by (simp only [x]; (repeat' split) <;> simp [*, State.fixed_foldl, State.queue_foldl]))); try clear_value x) | (split) | (simp [*, State.fixed_foldl, State.queue_foldl]; done))

@[simp ↓] theorem State.ringWrite_ok {s : State} (hw : FixedOk s.fixed) (p : Nat) (body : List Byte) : FixedOk (s.ringWrite p body).fixed := by
  unfold State.ringWrite
  repeat' (first | (extract_lets +onlyGivenNames x; (try (have hx : FixedOk x.fixed := by (simp only [x]; repeat' (first | with_reducible assumption | (intro s x hw) | with_reducible apply FixedOk.foldl | with_reducible apply State.writeSlot_ok | split | (simp [*, State.fixed_foldl, State.queue_foldl]; done) | split | simp only [State.fixed_foldl, State.fixed_update] | with_reducible refine (Result.keeps_next _ _).2 ⟨?_, ?_⟩)))); (try (have hq : x.fixed.1 = s.fixed.1 := by (simp only [x]; (repeat' split) <;> simp [*, State.fixed_foldl, State.queue_foldl]))); try clear_value x) | with_reducible assumption | (intro s x hw) | with_reducible apply FixedOk.foldl | with_reducible apply State.writeSlot_ok | (split) | (simp [*, State.fixed_foldl, State.queue_foldl]; done) | split | simp only [State.fixed_foldl, State.fixed_update] | with_reducible refine (Result.keeps_next _ _).2 ⟨?_, ?_⟩)

@[simp ↓] theorem State.takeSeq_fixed (s : State) (q : QRec) : (s.takeSeq q).1.fixed = s.fixed := by
  unfold State.takeSeq
  extract_lets typ next
  repeat' split
  all_goals simp

theorem State.takeSeq_of {s u : State} {q : QRec} {n : Nat} (e : s.takeSeq q = (u, n)) : u.fixed = s.fixed := by
  have h := State.takeSeq_fixed s q
  rw [e] at h
  exact h

@[simp ↓] theorem State.clearBegun_fixed (s : State) (q : QRec) (body : List Byte) : (s.clearBegun q body).fixed = s.fixed := by
  unfold State.clearBegun
  repeat' (first | (extract_lets +onlyGivenNames x; (try (have hx : x.fixed = s.fixed := by (simp only [x]; (repeat' split) <;> simp [*, State.fixed_foldl]))); try clear_value x) | (split) | (simp [*, State.fixed_foldl]; done))

@[simp ↓] theorem State.writeRecord_queue (s : State) (q : QRec) (cut : Option Nat) : (s.writeRecord q cut).fixed.1 = s.fixed.1 := by
  rcases e : s.takeSeq q with ⟨s1, seq⟩
  have g := State.takeSeq_of e
  simp only [State.writeRecord, e]
  split
  · split <;> simp [g]
  · split <;> simp [g]
  · simp [g]

/-- A record's write keeps the canonical form, broken off or not. -/
@[simp ↓] theorem State.writeRecord_ok {s : State} (hw : FixedOk s.fixed) (q : QRec) (cut : Option Nat) :
    FixedOk (s.writeRecord q cut).fixed := by
  rcases e : s.takeSeq q with ⟨s1, seq⟩
  have g : FixedOk s1.fixed := (State.takeSeq_of e) ▸ hw
  simp only [State.writeRecord, e]
  split
  · rw [State.clearBegun_fixed]
    apply State.ringWrite_ok
    split
    · exact State.writeSlot_ok g _ _ _
    · exact g
  · split
    · exact State.cutSlot_ok g _ _ _ _
    · exact State.cutSlot_ok (State.writeSlot_ok g _ _ _) _ _ _ _
  · exact State.cutSlot_ok g _ _ _ _

@[simp ↓] theorem State.waitLess_queue (s : State) : (s.waitLess).fixed.1 = s.fixed.1 := by
  unfold State.waitLess
  repeat' (first | (extract_lets +onlyGivenNames x; (try (have hx : x.fixed.1 = s.fixed.1 := by (simp only [x]; (repeat' split) <;> simp [*, State.fixed_foldl, State.queue_foldl]))); try clear_value x) | (split) | (simp [*, State.fixed_foldl, State.queue_foldl]; done) | (refine (State.fixed_foldl _ _ ?_ _).trans ?_) | (refine congrArg Prod.fst ((State.fixed_foldl _ _ ?_ _).trans ?_)) | (refine (State.queue_foldl _ _ ?_ _).trans ?_) | (intro s x) | simp [*])

@[simp ↓] theorem State.waitLess_ok {s : State} (hw : FixedOk s.fixed) : FixedOk (s.waitLess).fixed := by
  unfold State.waitLess
  repeat' (first | (extract_lets +onlyGivenNames x; (try (have hx : FixedOk x.fixed := by (simp only [x]; repeat' (first | with_reducible assumption | (intro s x hw) | with_reducible apply FixedOk.foldl | with_reducible apply State.waitingReset_ok | split | (simp [*, State.fixed_foldl, State.queue_foldl]; done) | split | simp only [State.fixed_foldl, State.fixed_update] | with_reducible refine (Result.keeps_next _ _).2 ⟨?_, ?_⟩)))); (try (have hq : x.fixed.1 = s.fixed.1 := by (simp only [x]; (repeat' split) <;> simp [*, State.fixed_foldl, State.queue_foldl]))); try clear_value x) | with_reducible assumption | (intro s x hw) | with_reducible apply FixedOk.foldl | with_reducible apply State.waitingReset_ok | (split) | (simp [*, State.fixed_foldl, State.queue_foldl]; done) | split | simp only [State.fixed_foldl, State.fixed_update] | with_reducible refine (Result.keeps_next _ _).2 ⟨?_, ?_⟩)

@[simp ↓] theorem execRecordWritten_keeps {q} {s : State} (hq : s.fixed.1 = q) (hw : FixedOk s.fixed) (cut : Option Nat) : Result.keeps q (execRecordWritten cut s) := by
  unfold execRecordWritten
  repeat' (first | (extract_lets +onlyGivenNames x; (try (have hx : FixedOk x.fixed := by (simp only [x]; repeat' (first | with_reducible assumption | (intro s x hw) | with_reducible apply FixedOk.foldl | with_reducible apply State.writeRecord_ok | with_reducible apply State.waitLess_ok | split | (simp [*, State.fixed_foldl, State.queue_foldl]; done) | split | simp only [State.fixed_foldl, State.fixed_update] | with_reducible refine (Result.keeps_next _ _).2 ⟨?_, ?_⟩)))); (try (have hq : x.fixed.1 = s.fixed.1 := by (simp only [x]; (repeat' split) <;> simp [*, State.fixed_foldl, State.queue_foldl]))); try clear_value x) | with_reducible assumption | (intro s x hw) | with_reducible apply FixedOk.foldl | with_reducible apply State.writeRecord_ok | with_reducible apply State.waitLess_ok | (split) | (simp [*, State.fixed_foldl, State.queue_foldl]; done) | split | simp only [State.fixed_foldl, State.fixed_update] | with_reducible refine (Result.keeps_next _ _).2 ⟨?_, ?_⟩)

@[simp ↓] theorem execProgramRecord_keeps {q} {s : State} (hq : s.fixed.1 = q) (hw : FixedOk s.fixed) (t : Nat) (who : Initiator) (typ : BitVec 4) (code : BitVec 8) : Result.keeps q (execProgramRecord t who typ code s) := by
  unfold execProgramRecord
  repeat' (first | (extract_lets +onlyGivenNames x; (try (have hx : FixedOk x.fixed := by (simp only [x]; repeat' (first | with_reducible assumption | (intro s x hw) | with_reducible apply FixedOk.foldl | with_reducible apply State.at_ok | split | (simp [*, State.fixed_foldl, State.queue_foldl]; done) | split | simp only [State.fixed_foldl, State.fixed_update] | with_reducible refine (Result.keeps_next _ _).2 ⟨?_, ?_⟩)))); (try (have hq : x.fixed.1 = s.fixed.1 := by (simp only [x]; (repeat' split) <;> simp [*, State.fixed_foldl, State.queue_foldl]))); try clear_value x) | with_reducible assumption | (intro s x hw) | with_reducible apply FixedOk.foldl | with_reducible apply State.at_ok | (split <;> (try (have e1 := (congrArg (fun p => State.fixed (Prod.fst p)) ‹_ = ((_ : State), _)›).symm; simp [*] at e1)) <;> (try (have e1 := (congrArg (fun p => State.fixed (Prod.snd p)) ‹_ = (_, (_ : State))›).symm; simp [*] at e1))) | (simp [*, State.fixed_foldl, State.queue_foldl]; done) | split | simp only [State.fixed_foldl, State.fixed_update] | with_reducible refine (Result.keeps_next _ _).2 ⟨?_, ?_⟩)

@[simp ↓] theorem execSoftwareRecord_keeps {q} {s : State} (hq : s.fixed.1 = q) (hw : FixedOk s.fixed) (t : Nat) (who : Initiator)
    (addr : BitVec 32) : Result.keeps q (execSoftwareRecord t who addr s) := by
  unfold execSoftwareRecord
  split
  · rename_i e
    have e1 := State.gate_of e
    simp [e1, hq, hw]
  · rename_i e
    have e1 := State.gate_of e
    extract_lets b s2
    have h2 : s2.fixed = (s.at_ t).fixed := by simp [s2, e1]
    split
    · simp [h2, hq, hw]
    · simp [h2, hq, hw]

@[simp ↓] theorem execSnapshotTrigger_keeps {q} {s : State} (hq : s.fixed.1 = q) (hw : FixedOk s.fixed) (t : Nat) (who : Initiator) (trg : BitVec 5) : Result.keeps q (execSnapshotTrigger t who trg s) := by
  unfold execSnapshotTrigger
  repeat' (first | (extract_lets +onlyGivenNames x; (try (have hx : FixedOk x.fixed := by (simp only [x]; repeat' (first | with_reducible assumption | (intro s x hw) | with_reducible apply FixedOk.foldl | with_reducible apply State.at_ok | split | (simp [*, State.fixed_foldl, State.queue_foldl]; done) | split | simp only [State.fixed_foldl, State.fixed_update] | with_reducible refine (Result.keeps_next _ _).2 ⟨?_, ?_⟩)))); (try (have hq : x.fixed.1 = s.fixed.1 := by (simp only [x]; (repeat' split) <;> simp [*, State.fixed_foldl, State.queue_foldl]))); try clear_value x) | with_reducible assumption | (intro s x hw) | with_reducible apply FixedOk.foldl | with_reducible apply State.at_ok | (split <;> (try (have e1 := (congrArg (fun p => State.fixed (Prod.fst p)) ‹_ = ((_ : State), _)›).symm; simp [*] at e1)) <;> (try (have e1 := (congrArg (fun p => State.fixed (Prod.snd p)) ‹_ = (_, (_ : State))›).symm; simp [*] at e1))) | (simp [*, State.fixed_foldl, State.queue_foldl]; done) | split | simp only [State.fixed_foldl, State.fixed_update] | with_reducible refine (Result.keeps_next _ _).2 ⟨?_, ?_⟩)

@[simp ↓] theorem execSnapshotCaptureDone_keeps {q} {s : State} (hq : s.fixed.1 = q) (hw : FixedOk s.fixed) (t : Nat) (first : Nat) (span : Nat) : Result.keeps q (execSnapshotCaptureDone t first span s) := by
  unfold execSnapshotCaptureDone
  repeat' (first | (extract_lets +onlyGivenNames x; (try (have hx : FixedOk x.fixed := by (simp only [x]; repeat' (first | with_reducible assumption | (intro s x hw) | with_reducible apply FixedOk.foldl | with_reducible apply State.at_ok | split | (simp [*, State.fixed_foldl, State.queue_foldl]; done) | split | simp only [State.fixed_foldl, State.fixed_update] | with_reducible refine (Result.keeps_next _ _).2 ⟨?_, ?_⟩)))); (try (have hq : x.fixed.1 = s.fixed.1 := by (simp only [x]; (repeat' split) <;> simp [*, State.fixed_foldl, State.queue_foldl]))); try clear_value x) | with_reducible assumption | (intro s x hw) | with_reducible apply FixedOk.foldl | with_reducible apply State.at_ok | (split) | (simp [*, State.fixed_foldl, State.queue_foldl]; done) | split | simp only [State.fixed_foldl, State.fixed_update] | with_reducible refine (Result.keeps_next _ _).2 ⟨?_, ?_⟩)

@[simp ↓] theorem State.readSlot_fixed (s : State) (part : Nat) (i : Nat) : (s.readSlot part i).fixed = s.fixed := by
  unfold State.readSlot
  repeat' (first | (extract_lets +onlyGivenNames x; (try (have hx : x.fixed = s.fixed := by (simp only [x]; (repeat' split) <;> simp [*, State.fixed_foldl]))); try clear_value x) | (split) | (simp [*, State.fixed_foldl]; done))

@[simp ↓] theorem execSlotRead_keeps {q} {s : State} (hq : s.fixed.1 = q) (hw : FixedOk s.fixed) (t : Nat) (who : Initiator) (part : BitVec 3) (slot : BitVec 21) : Result.keeps q (execSlotRead t who part slot s) := by
  unfold execSlotRead
  repeat' (first | (extract_lets +onlyGivenNames x; (try (have hx : FixedOk x.fixed := by (simp only [x]; repeat' (first | with_reducible assumption | (intro s x hw) | with_reducible apply FixedOk.foldl | with_reducible apply State.at_ok | split | (simp [*, State.fixed_foldl, State.queue_foldl]; done) | split | simp only [State.fixed_foldl, State.fixed_update] | with_reducible refine (Result.keeps_next _ _).2 ⟨?_, ?_⟩)))); (try (have hq : x.fixed.1 = s.fixed.1 := by (simp only [x]; (repeat' split) <;> simp [*, State.fixed_foldl, State.queue_foldl]))); try clear_value x) | with_reducible assumption | (intro s x hw) | with_reducible apply FixedOk.foldl | with_reducible apply State.at_ok | (split <;> (try (have e1 := (congrArg (fun p => State.fixed (Prod.fst p)) ‹_ = ((_ : State), _)›).symm; simp [*] at e1)) <;> (try (have e1 := (congrArg (fun p => State.fixed (Prod.snd p)) ‹_ = (_, (_ : State))›).symm; simp [*] at e1))) | (simp [*, State.fixed_foldl, State.queue_foldl]; done) | split | simp only [State.fixed_foldl, State.fixed_update] | with_reducible refine (Result.keeps_next _ _).2 ⟨?_, ?_⟩)

@[simp ↓] theorem State.clearStart_fixed (s : State) (part : Nat) : (s.clearStart part).fixed = s.fixed := by
  unfold State.clearStart
  repeat' (first | (extract_lets +onlyGivenNames x; (try (have hx : x.fixed = s.fixed := by (simp only [x]; (repeat' split) <;> simp [*, State.fixed_foldl]))); try clear_value x) | (split) | (simp [*, State.fixed_foldl]; done))

@[simp ↓] theorem execClear_keeps {q} {s : State} (hq : s.fixed.1 = q) (hw : FixedOk s.fixed) (t : Nat) (who : Initiator) (part : BitVec 2) : Result.keeps q (execClear t who part s) := by
  unfold execClear
  repeat' (first | (extract_lets +onlyGivenNames x; (try (have hx : FixedOk x.fixed := by (simp only [x]; repeat' (first | with_reducible assumption | (intro s x hw) | with_reducible apply FixedOk.foldl | with_reducible apply State.at_ok | split | (simp [*, State.fixed_foldl, State.queue_foldl]; done) | split | simp only [State.fixed_foldl, State.fixed_update] | with_reducible refine (Result.keeps_next _ _).2 ⟨?_, ?_⟩)))); (try (have hq : x.fixed.1 = s.fixed.1 := by (simp only [x]; (repeat' split) <;> simp [*, State.fixed_foldl, State.queue_foldl]))); try clear_value x) | with_reducible assumption | (intro s x hw) | with_reducible apply FixedOk.foldl | with_reducible apply State.at_ok | (split <;> (try (have e1 := (congrArg (fun p => State.fixed (Prod.fst p)) ‹_ = ((_ : State), _)›).symm; simp [*] at e1)) <;> (try (have e1 := (congrArg (fun p => State.fixed (Prod.snd p)) ‹_ = (_, (_ : State))›).symm; simp [*] at e1))) | (simp [*, State.fixed_foldl, State.queue_foldl]; done) | split | simp only [State.fixed_foldl, State.fixed_update] | with_reducible refine (Result.keeps_next _ _).2 ⟨?_, ?_⟩)

@[simp ↓] theorem State.zeroSlot_queue (s : State) (p : Nat) (i : Nat) : (s.zeroSlot p i).fixed.1 = s.fixed.1 := by
  simp [State.zeroSlot, State.fixed_foldl, State.queue_foldl]

@[simp ↓] theorem State.zeroSlot_ok {s : State} (hw : FixedOk s.fixed) (p : Nat) (i : Nat) : FixedOk (s.zeroSlot p i).fixed := by
  unfold State.zeroSlot
  repeat' (first | (extract_lets +onlyGivenNames x; (try (have hx : FixedOk x.fixed := by (simp only [x]; repeat' (first | with_reducible assumption | (intro s x hw) | with_reducible apply FixedOk.foldl | with_reducible apply State.zero_ok | split | (simp [*, State.fixed_foldl, State.queue_foldl]; done) | split | simp only [State.fixed_foldl, State.fixed_update] | with_reducible refine (Result.keeps_next _ _).2 ⟨?_, ?_⟩)))); (try (have hq : x.fixed.1 = s.fixed.1 := by (simp only [x]; (repeat' split) <;> simp [*, State.fixed_foldl, State.queue_foldl]))); try clear_value x) | with_reducible assumption | (intro s x hw) | with_reducible apply FixedOk.foldl | with_reducible apply State.zero_ok | (split) | (simp [*, State.fixed_foldl, State.queue_foldl]; done) | split | simp only [State.fixed_foldl, State.fixed_update] | with_reducible refine (Result.keeps_next _ _).2 ⟨?_, ?_⟩)

@[simp ↓] theorem execClearDone_keeps {q} {s : State} (hq : s.fixed.1 = q) (hw : FixedOk s.fixed) (t : Nat) : Result.keeps q (execClearDone t s) := by
  unfold execClearDone
  repeat' (first | (extract_lets +onlyGivenNames x; (try (have hx : FixedOk x.fixed := by (simp only [x]; repeat' (first | with_reducible assumption | (intro s x hw) | with_reducible apply FixedOk.foldl | with_reducible apply State.at_ok | with_reducible apply State.zeroSlot_ok | split | (simp [*, State.fixed_foldl, State.queue_foldl]; done) | split | simp only [State.fixed_foldl, State.fixed_update] | with_reducible refine (Result.keeps_next _ _).2 ⟨?_, ?_⟩)))); (try (have hq : x.fixed.1 = s.fixed.1 := by (simp only [x]; (repeat' split) <;> simp [*, State.fixed_foldl, State.queue_foldl]))); try clear_value x) | with_reducible assumption | (intro s x hw) | with_reducible apply FixedOk.foldl | with_reducible apply State.at_ok | with_reducible apply State.zeroSlot_ok | (split) | (simp [*, State.fixed_foldl, State.queue_foldl]; done) | split | simp only [State.fixed_foldl, State.fixed_update] | with_reducible refine (Result.keeps_next _ _).2 ⟨?_, ?_⟩)

@[simp ↓] theorem State.scanRing_queue (s : State) (p : Nat) : (s.scanRing p).fixed.1 = s.fixed.1 := by
  simp [State.scanRing, State.fixed_foldl, State.queue_foldl]

@[simp ↓] theorem State.scanRing_ok {s : State} (hw : FixedOk s.fixed) (p : Nat) : FixedOk (s.scanRing p).fixed := by
  unfold State.scanRing
  repeat' (first | (extract_lets +onlyGivenNames x; (try (have hx : FixedOk x.fixed := by (simp only [x]; repeat' (first | with_reducible assumption | (intro s x hw) | with_reducible apply FixedOk.foldl | with_reducible apply State.zeroSlot_ok | split | (simp [*, State.fixed_foldl, State.queue_foldl]; done) | split | simp only [State.fixed_foldl, State.fixed_update] | with_reducible refine (Result.keeps_next _ _).2 ⟨?_, ?_⟩)))); (try (have hq : x.fixed.1 = s.fixed.1 := by (simp only [x]; (repeat' split) <;> simp [*, State.fixed_foldl, State.queue_foldl]))); try clear_value x) | with_reducible assumption | (intro s x hw) | with_reducible apply FixedOk.foldl | with_reducible apply State.zeroSlot_ok | (split) | (simp [*, State.fixed_foldl, State.queue_foldl]; done) | split | simp only [State.fixed_foldl, State.fixed_update] | with_reducible refine (Result.keeps_next _ _).2 ⟨?_, ?_⟩)

@[simp ↓] theorem State.ringPlace_fixed (s : State) (p : Nat) : (s.ringPlace p).fixed = s.fixed := by
  unfold State.ringPlace
  repeat' (first | (extract_lets +onlyGivenNames x; (try (have hx : x.fixed = s.fixed := by (simp only [x]; (repeat' split) <;> simp [*, State.fixed_foldl]))); try clear_value x) | (split) | (simp [*, State.fixed_foldl]; done))

@[simp ↓] theorem State.scanClear_queue (s : State) (data : List Byte) : (s.scanClear data).fixed.1 = s.fixed.1 := by
  unfold State.scanClear
  extract_lets p s1 q
  have h1 : s1.fixed.1 = s.fixed.1 := by
    refine State.queue_foldl _ _ (fun s x => ?_) _
    split <;> simp
  rw [State.writeRecord_queue, h1]

@[simp ↓] theorem State.scanClear_ok {s : State} (hw : FixedOk s.fixed) (data : List Byte) : FixedOk (s.scanClear data).fixed := by
  unfold State.scanClear
  extract_lets p s1 q
  refine State.writeRecord_ok (FixedOk.foldl _ _ (fun s x hw => ?_) _ hw) _ _
  split
  · exact State.zeroSlot_ok hw _ _
  · exact hw

@[simp ↓] theorem State.scanSnapshots_queue (s : State) : (s.scanSnapshots).fixed.1 = s.fixed.1 := by
  unfold State.scanSnapshots
  repeat' (first | (extract_lets +onlyGivenNames x; (try (have hx : x.fixed.1 = s.fixed.1 := by (simp only [x]; (repeat' split) <;> simp [*, State.fixed_foldl, State.queue_foldl]))); try clear_value x) | (split) | (simp [*, State.fixed_foldl, State.queue_foldl]; done))

@[simp ↓] theorem State.scanSnapshots_ok {s : State} (hw : FixedOk s.fixed) : FixedOk (s.scanSnapshots).fixed := by
  unfold State.scanSnapshots
  repeat' (first | (extract_lets +onlyGivenNames x; (try (have hx : FixedOk x.fixed := by (simp only [x]; repeat' (first | with_reducible assumption | (intro s x hw) | with_reducible apply FixedOk.foldl | with_reducible apply State.zeroSlot_ok | split | (simp [*, State.fixed_foldl, State.queue_foldl]; done) | split | simp only [State.fixed_foldl, State.fixed_update] | with_reducible refine (Result.keeps_next _ _).2 ⟨?_, ?_⟩)))); (try (have hq : x.fixed.1 = s.fixed.1 := by (simp only [x]; (repeat' split) <;> simp [*, State.fixed_foldl, State.queue_foldl]))); try clear_value x) | with_reducible assumption | (intro s x hw) | with_reducible apply FixedOk.foldl | with_reducible apply State.zeroSlot_ok | (split) | (simp [*, State.fixed_foldl, State.queue_foldl]; done) | split | simp only [State.fixed_foldl, State.fixed_update] | with_reducible refine (Result.keeps_next _ _).2 ⟨?_, ?_⟩)

@[simp ↓] theorem State.scanLife_queue (s : State) (door : List Nat) (clears : List Nat) (a : Nat) : (s.scanLife door clears a).fixed.1 = s.fixed.1 := by
  unfold State.scanLife
  repeat' (first | (extract_lets +onlyGivenNames x; (try (have hx : x.fixed.1 = s.fixed.1 := by (simp only [x]; (repeat' split) <;> simp [*, State.fixed_foldl, State.queue_foldl]))); try clear_value x) | (split) | (simp [*, State.fixed_foldl, State.queue_foldl]; done))

@[simp ↓] theorem State.scanLife_ok {s : State} (hw : FixedOk s.fixed) (door : List Nat) (clears : List Nat) (a : Nat) : FixedOk (s.scanLife door clears a).fixed := by
  unfold State.scanLife
  repeat' (first | (extract_lets +onlyGivenNames x; (try (have hx : FixedOk x.fixed := by (simp only [x]; repeat' (first | with_reducible assumption | (intro s x hw) | with_reducible apply FixedOk.foldl | with_reducible apply State.store_ok | split | (simp [*, State.fixed_foldl, State.queue_foldl]; done) | split | simp only [State.fixed_foldl, State.fixed_update] | with_reducible refine (Result.keeps_next _ _).2 ⟨?_, ?_⟩)))); (try (have hq : x.fixed.1 = s.fixed.1 := by (simp only [x]; (repeat' split) <;> simp [*, State.fixed_foldl, State.queue_foldl]))); try clear_value x) | with_reducible assumption | (intro s x hw) | with_reducible apply FixedOk.foldl | with_reducible apply State.store_ok | (split) | (simp [*, State.fixed_foldl, State.queue_foldl]; done) | split | simp only [State.fixed_foldl, State.fixed_update] | with_reducible refine (Result.keeps_next _ _).2 ⟨?_, ?_⟩)

@[simp ↓] theorem State.startScan_queue (s : State) : s.startScan.fixed.1 = s.fixed.1 := by
  unfold State.startScan
  extract_lets s1 s2 logSeqs r s3 opens s4 seqs s5 door clears s6
  have h1 : s1.fixed.1 = s.fixed.1 := State.queue_foldl _ _ (fun s x => State.scanRing_queue s x) _
  have h2 : s2.fixed.1 = s.fixed.1 := by simp [s2, h1]
  have h3 : s3.fixed.1 = s.fixed.1 := by simp [s3, h2]
  have h4 : s4.fixed.1 = s.fixed.1 := by
    rw [show s4.fixed.1 = _ from State.scanSnapshots_queue _, State.queue_foldl _ _ (fun s x => State.scanClear_queue s x), h3]
  have h5 : s5.fixed.1 = s.fixed.1 := by simp [s5, h4]
  have h6 : s6.fixed.1 = s.fixed.1 := (State.queue_foldl _ _ (fun s x => State.scanLife_queue s _ _ x) _).trans h5
  rw [State.putFlag_fixed, State.fixed_foldl _ _ (fun s x => State.ringPlace_fixed s x), h6]

@[simp ↓] theorem State.startScan_ok {s : State} (hw : FixedOk s.fixed) : FixedOk s.startScan.fixed := by
  unfold State.startScan
  extract_lets s1 s2 logSeqs r s3 opens s4 seqs s5 door clears s6
  have h1 : FixedOk s1.fixed := FixedOk.foldl _ _ (fun s x hw => State.scanRing_ok hw x) _ hw
  have h2 : FixedOk s2.fixed := by simpa [s2] using h1
  have h3 : FixedOk s3.fixed := by simpa [s3] using h2
  have h4 : FixedOk s4.fixed := State.scanSnapshots_ok (FixedOk.foldl _ _ (fun s x hw => State.scanClear_ok hw x) _ h3)
  have h5 : FixedOk s5.fixed := by simpa [s5] using h4
  have h6 : FixedOk s6.fixed := FixedOk.foldl _ _ (fun s x hw => State.scanLife_ok hw _ _ x) _ h5
  rw [State.putFlag_fixed, State.fixed_foldl _ _ (fun s x => State.ringPlace_fixed s x)]
  exact h6

@[simp ↓] theorem execStartScanDone_keeps {q} {s : State} (hq : s.fixed.1 = q) (hw : FixedOk s.fixed) (t : Nat) : Result.keeps q (execStartScanDone t s) := by
  unfold execStartScanDone
  repeat' (first | (extract_lets +onlyGivenNames x; (try (have hx : FixedOk x.fixed := by (simp only [x]; repeat' (first | with_reducible assumption | (intro s x hw) | with_reducible apply FixedOk.foldl | with_reducible apply State.at_ok | with_reducible apply State.waitingReset_ok | with_reducible apply State.startScan_ok | split | (simp [*, State.fixed_foldl, State.queue_foldl]; done) | split | simp only [State.fixed_foldl, State.fixed_update] | with_reducible refine (Result.keeps_next _ _).2 ⟨?_, ?_⟩)))); (try (have hq : x.fixed.1 = s.fixed.1 := by (simp only [x]; (repeat' split) <;> simp [*, State.fixed_foldl, State.queue_foldl]))); try clear_value x) | with_reducible assumption | (intro s x hw) | with_reducible apply FixedOk.foldl | with_reducible apply State.at_ok | with_reducible apply State.waitingReset_ok | with_reducible apply State.startScan_ok | (split) | (simp [*, State.fixed_foldl, State.queue_foldl]; done) | split | simp only [State.fixed_foldl, State.fixed_update] | with_reducible refine (Result.keeps_next _ _).2 ⟨?_, ?_⟩)

end Sys2Proof.Machine
end

