-- ==== Sys2Proof/Laws/Service.lean ====
section
/-! SUPPORT. Laws/Service.lean: what the operations of Machine/Service.lean leave alone. -/
set_option linter.all false
namespace Sys2Proof.Machine

@[simp ↓] theorem State.touch_fixed (s : State) : (s.touch).fixed = s.fixed := by
  simp [State.touch, State.fixed_foldl]

@[simp ↓] theorem execInfo_keeps {q} {s : State} (hq : s.fixed.1 = q) (hw : FixedOk s.fixed) (t : Nat) : Result.keeps q (execInfo t s) := by
  unfold execInfo
  repeat' (first | (extract_lets +onlyGivenNames x; (try (have hx : FixedOk x.fixed := by (simp only [x]; repeat' (first | with_reducible assumption | (intro s x hw) | with_reducible apply FixedOk.foldl | with_reducible apply State.at_ok | split | (simp [*, State.fixed_foldl, State.queue_foldl]; done) | split | simp only [State.fixed_foldl, State.fixed_update] | with_reducible refine (Result.keeps_next _ _).2 ⟨?_, ?_⟩)))); (try (have hq : x.fixed.1 = s.fixed.1 := by (simp only [x]; (repeat' split) <;> simp [*, State.fixed_foldl, State.queue_foldl]))); try clear_value x) | with_reducible assumption | (intro s x hw) | with_reducible apply FixedOk.foldl | with_reducible apply State.at_ok | (split) | (simp [*, State.fixed_foldl, State.queue_foldl]; done) | split | simp only [State.fixed_foldl, State.fixed_update] | with_reducible refine (Result.keeps_next _ _).2 ⟨?_, ?_⟩)

@[simp ↓] theorem execChallenge_keeps {q} {s : State} (hq : s.fixed.1 = q) (hw : FixedOk s.fixed) (t : Nat) : Result.keeps q (execChallenge t s) := by
  unfold execChallenge
  repeat' (first | (extract_lets +onlyGivenNames x; (try (have hx : FixedOk x.fixed := by (simp only [x]; repeat' (first | with_reducible assumption | (intro s x hw) | with_reducible apply FixedOk.foldl | with_reducible apply State.at_ok | split | (simp [*, State.fixed_foldl, State.queue_foldl]; done) | split | simp only [State.fixed_foldl, State.fixed_update] | with_reducible refine (Result.keeps_next _ _).2 ⟨?_, ?_⟩)))); (try (have hq : x.fixed.1 = s.fixed.1 := by (simp only [x]; (repeat' split) <;> simp [*, State.fixed_foldl, State.queue_foldl]))); try clear_value x) | with_reducible assumption | (intro s x hw) | with_reducible apply FixedOk.foldl | with_reducible apply State.at_ok | (split) | (simp [*, State.fixed_foldl, State.queue_foldl]; done) | split | simp only [State.fixed_foldl, State.fixed_update] | with_reducible refine (Result.keeps_next _ _).2 ⟨?_, ?_⟩)

@[simp ↓] theorem execLogin_keeps {q} {s : State} (hq : s.fixed.1 = q) (hw : FixedOk s.fixed) (t : Nat) (tok : List Byte) (len : Nat) (rsaBy : Nat) (slhBy : Nat) (addr : BitVec 32) (port : BitVec 16) : Result.keeps q (execLogin t tok len rsaBy slhBy addr port s) := by
  unfold execLogin
  repeat' (first | (extract_lets +onlyGivenNames x; (try (have hx : FixedOk x.fixed := by (simp only [x]; repeat' (first | with_reducible assumption | (intro s x hw) | with_reducible apply FixedOk.foldl | with_reducible apply State.at_ok | split | (simp [*, State.fixed_foldl, State.queue_foldl]; done) | split | simp only [State.fixed_foldl, State.fixed_update] | with_reducible refine (Result.keeps_next _ _).2 ⟨?_, ?_⟩)))); (try (have hq : x.fixed.1 = s.fixed.1 := by (simp only [x]; (repeat' split) <;> simp [*, State.fixed_foldl, State.queue_foldl]))); try clear_value x) | with_reducible assumption | (intro s x hw) | with_reducible apply FixedOk.foldl | with_reducible apply State.at_ok | (split) | (simp [*, State.fixed_foldl, State.queue_foldl]; done) | split | simp only [State.fixed_foldl, State.fixed_update] | with_reducible refine (Result.keeps_next _ _).2 ⟨?_, ?_⟩)

@[simp ↓] theorem execRead_keeps {q} {s : State} (hq : s.fixed.1 = q) (hw : FixedOk s.fixed) (t : Nat) (part : BitVec 8) (first : BitVec 32) (count : BitVec 8) : Result.keeps q (execRead t part first count s) := by
  unfold execRead
  repeat' (first | (extract_lets +onlyGivenNames x; (try (have hx : FixedOk x.fixed := by (simp only [x]; repeat' (first | with_reducible assumption | (intro s x hw) | with_reducible apply FixedOk.foldl | with_reducible apply State.at_ok | split | (simp [*, State.fixed_foldl, State.queue_foldl]; done) | split | simp only [State.fixed_foldl, State.fixed_update] | with_reducible refine (Result.keeps_next _ _).2 ⟨?_, ?_⟩)))); (try (have hq : x.fixed.1 = s.fixed.1 := by (simp only [x]; (repeat' split) <;> simp [*, State.fixed_foldl, State.queue_foldl]))); try clear_value x) | with_reducible assumption | (intro s x hw) | with_reducible apply FixedOk.foldl | with_reducible apply State.at_ok | (split) | (simp [*, State.fixed_foldl, State.queue_foldl]; done) | split | simp only [State.fixed_foldl, State.fixed_update] | with_reducible refine (Result.keeps_next _ _).2 ⟨?_, ?_⟩)

theorem execDownload_keeps {q} {s : State} (hq : s.fixed.1 = q) (hw : FixedOk s.fixed) (t : Nat) (addr : BitVec 32) (port : BitVec 16) (offset : BitVec 32)
    (data : List Byte) : Result.keeps q (execDownload t addr port offset data s) := by
  have hq1 : (s.at_ t).fixed.1 = q := by simp [hq]
  have hw1 : FixedOk (s.at_ t).fixed := by simp [hw]
  unfold execDownload
  dsimp only
  generalize s.at_ t = u at hq1 hw1 ⊢
  clear hq hw
  rename' hq1 => hq, hw1 => hw
  split
  · exact ⟨hq, hw⟩
  · split
    · simp [hq, hw]
    · refine ⟨?_, ?_⟩
      · rw [State.svcReply_fixed, State.touch_fixed]
        exact hq
      · rw [State.svcReply_fixed, State.touch_fixed]
        exact ⟨hw.1, hw.2.1, hw.2.2.1, Mem.wf_writeBytes _ _ hw.2.2.2⟩

@[simp ↓] theorem execLogout_keeps {q} {s : State} (hq : s.fixed.1 = q) (hw : FixedOk s.fixed) (t : Nat) (addr : BitVec 32) (port : BitVec 16) : Result.keeps q (execLogout t addr port s) := by
  unfold execLogout
  repeat' (first | (extract_lets +onlyGivenNames x; (try (have hx : FixedOk x.fixed := by (simp only [x]; repeat' (first | with_reducible assumption | (intro s x hw) | with_reducible apply FixedOk.foldl | with_reducible apply State.at_ok | split | (simp [*, State.fixed_foldl, State.queue_foldl]; done) | split | simp only [State.fixed_foldl, State.fixed_update] | with_reducible refine (Result.keeps_next _ _).2 ⟨?_, ?_⟩)))); (try (have hq : x.fixed.1 = s.fixed.1 := by (simp only [x]; (repeat' split) <;> simp [*, State.fixed_foldl, State.queue_foldl]))); try clear_value x) | with_reducible assumption | (intro s x hw) | with_reducible apply FixedOk.foldl | with_reducible apply State.at_ok | (split) | (simp [*, State.fixed_foldl, State.queue_foldl]; done) | split | simp only [State.fixed_foldl, State.fixed_update] | with_reducible refine (Result.keeps_next _ _).2 ⟨?_, ?_⟩)

@[simp ↓] theorem execSessionExpiry_keeps {q} {s : State} (hq : s.fixed.1 = q) (hw : FixedOk s.fixed) (t : Nat) : Result.keeps q (execSessionExpiry t s) := by
  unfold execSessionExpiry
  repeat' (first | (extract_lets +onlyGivenNames x; (try (have hx : FixedOk x.fixed := by (simp only [x]; repeat' (first | with_reducible assumption | (intro s x hw) | with_reducible apply FixedOk.foldl | with_reducible apply State.at_ok | split | (simp [*, State.fixed_foldl, State.queue_foldl]; done) | split | simp only [State.fixed_foldl, State.fixed_update] | with_reducible refine (Result.keeps_next _ _).2 ⟨?_, ?_⟩)))); (try (have hq : x.fixed.1 = s.fixed.1 := by (simp only [x]; (repeat' split) <;> simp [*, State.fixed_foldl, State.queue_foldl]))); try clear_value x) | with_reducible assumption | (intro s x hw) | with_reducible apply FixedOk.foldl | with_reducible apply State.at_ok | (split) | (simp [*, State.fixed_foldl, State.queue_foldl]; done) | split | simp only [State.fixed_foldl, State.fixed_update] | with_reducible refine (Result.keeps_next _ _).2 ⟨?_, ?_⟩)

@[simp ↓] theorem State.finishOp_queue (s : State) (res : Nat) : (s.finishOp res).fixed.1 = s.fixed.1 := by
  unfold State.finishOp
  repeat' (first | (extract_lets +onlyGivenNames x; (try (have hx : x.fixed.1 = s.fixed.1 := by (simp only [x]; (repeat' split) <;> simp [*, State.fixed_foldl, State.queue_foldl]))); try clear_value x) | (split) | (simp [*, State.fixed_foldl, State.queue_foldl]; done))

@[simp ↓] theorem State.finishOp_ok {s : State} (hw : FixedOk s.fixed) (res : Nat) : FixedOk (s.finishOp res).fixed := by
  unfold State.finishOp
  repeat' (first | (extract_lets +onlyGivenNames x; (try (have hx : FixedOk x.fixed := by (simp only [x]; repeat' (first | with_reducible assumption | (intro s x hw) | with_reducible apply FixedOk.foldl | with_reducible apply State.store_ok | split | (simp [*, State.fixed_foldl, State.queue_foldl]; done) | split | simp only [State.fixed_foldl, State.fixed_update] | with_reducible refine (Result.keeps_next _ _).2 ⟨?_, ?_⟩)))); (try (have hq : x.fixed.1 = s.fixed.1 := by (simp only [x]; (repeat' split) <;> simp [*, State.fixed_foldl, State.queue_foldl]))); try clear_value x) | with_reducible assumption | (intro s x hw) | with_reducible apply FixedOk.foldl | with_reducible apply State.store_ok | (split) | (simp [*, State.fixed_foldl, State.queue_foldl]; done) | split | simp only [State.fixed_foldl, State.fixed_update] | with_reducible refine (Result.keeps_next _ _).2 ⟨?_, ?_⟩)

theorem State.serviceOp_queue {s : State} {code : Nat} {modes : List Nat} {role : Nat} {guard : Bool} {act : State → State × Nat}
    {after : State → State} (ha : ∀ s, (act s).1.fixed.1 = s.fixed.1) (hb : ∀ s, (after s).fixed.1 = s.fixed.1) :
    (s.serviceOp code modes role guard act after).fixed.1 = s.fixed.1 := by
  unfold State.serviceOp
  split
  · rfl
  · split
    · rfl
    · split
      · exact State.finishOp_queue _ _
      · split
        · exact State.finishOp_queue _ _
        · split
          · exact State.finishOp_queue _ _
          · split
            · exact State.finishOp_queue _ _
            · extract_lets r s1
              have h : s1.fixed.1 = s.fixed.1 := (State.finishOp_queue _ _).trans (ha s)
              clear_value s1
              split
              · exact (hb _).trans h
              · exact h

theorem State.serviceOp_ok {s : State} {code : Nat} {modes : List Nat} {role : Nat} {guard : Bool} {act : State → State × Nat}
    {after : State → State} (hw : FixedOk s.fixed) (ha : ∀ s, FixedOk s.fixed → FixedOk (act s).1.fixed)
    (hb : ∀ s, FixedOk s.fixed → FixedOk (after s).fixed) : FixedOk (s.serviceOp code modes role guard act after).fixed := by
  unfold State.serviceOp
  split
  · exact hw
  · split
    · exact hw
    · split
      · exact State.finishOp_ok hw _
      · split
        · exact State.finishOp_ok hw _
        · split
          · exact State.finishOp_ok hw _
          · split
            · exact State.finishOp_ok hw _
            · extract_lets r s1
              have h : FixedOk s1.fixed := State.finishOp_ok (ha s hw) _
              clear_value s1
              split
              · exact hb _ h
              · exact h

theorem plainOp_keeps {q} {s : State} {t code : Nat} {modes : List Nat} {role : Nat} {guard : Bool} {act : State → State × Nat}
    (hq : s.fixed.1 = q) (hw : FixedOk s.fixed) (ha : ∀ s, (act s).1.fixed.1 = s.fixed.1)
    (hk : ∀ s, FixedOk s.fixed → FixedOk (act s).1.fixed) :
    Result.keeps q (.next ((s.at_ t).plainOp code modes role guard act)) := by
  have hq1 : (s.at_ t).fixed.1 = q := by simp [hq]
  have hw1 : FixedOk (s.at_ t).fixed := by simp [hw]
  generalize s.at_ t = u at hq1 hw1 ⊢
  clear hq hw
  rename' hq1 => hq, hw1 => hw
  exact ⟨(State.serviceOp_queue ha (fun _ => rfl)).trans hq, State.serviceOp_ok hw hk (fun _ h => h)⟩



@[simp ↓] theorem execUpdReqWrite_keeps {q} {s : State} (hq : s.fixed.1 = q) (hw : FixedOk s.fixed) (t : Nat) (who : Initiator) (addr : BitVec 32) (src : BitVec 32) (port : BitVec 16) : Result.keeps q (execUpdReqWrite t who addr src port s) := by
  unfold execUpdReqWrite
  repeat' (first | (extract_lets +onlyGivenNames x; (try (have hx : FixedOk x.fixed := by (simp only [x]; repeat' (first | with_reducible assumption | (intro s x hw) | with_reducible apply FixedOk.foldl | with_reducible apply State.at_ok | with_reducible apply State.finishOp_ok | split | (simp [*, State.fixed_foldl, State.queue_foldl]; done) | split | simp only [State.fixed_foldl, State.fixed_update] | with_reducible refine (Result.keeps_next _ _).2 ⟨?_, ?_⟩)))); (try (have hq : x.fixed.1 = s.fixed.1 := by (simp only [x]; (repeat' split) <;> simp [*, State.fixed_foldl, State.queue_foldl]))); try clear_value x) | with_reducible assumption | (intro s x hw) | with_reducible apply FixedOk.foldl | with_reducible apply State.at_ok | with_reducible apply State.finishOp_ok | (split <;> (try (have e1 := (congrArg (fun p => State.fixed (Prod.fst p)) ‹_ = ((_ : State), _)›).symm; simp [*] at e1)) <;> (try (have e1 := (congrArg (fun p => State.fixed (Prod.snd p)) ‹_ = (_, (_ : State))›).symm; simp [*] at e1))) | (simp [*, State.fixed_foldl, State.queue_foldl]; done) | split | simp only [State.fixed_foldl, State.fixed_update] | with_reducible refine (Result.keeps_next _ _).2 ⟨?_, ?_⟩)

theorem execEnterService_keeps {q} {s : State} (hq : s.fixed.1 = q) (hw : FixedOk s.fixed) (t : Nat) : Result.keeps q (execEnterService t s) := by
  unfold execEnterService
  exact plainOp_keeps hq hw (fun s => State.enterMode_queue s _) (fun s hw => State.enterMode_ok hw _)

theorem execLeaveService_keeps {q} {s : State} (hq : s.fixed.1 = q) (hw : FixedOk s.fixed) (t : Nat) : Result.keeps q (execLeaveService t s) := by
  unfold execLeaveService
  exact plainOp_keeps hq hw (fun s => State.enterMode_queue s _) (fun s hw => State.enterMode_ok hw _)

@[simp ↓] theorem State.issue_fixed (s : State) (code : Nat) : (s.issue code).fixed = s.fixed := by
  simp [State.issue, State.fixed_foldl]

theorem execProgramStateOperation_keeps {q} {s : State} (hq : s.fixed.1 = q) (hw : FixedOk s.fixed) (t : Nat) (cmd : ProgCmd) : Result.keeps q (execProgramStateOperation t cmd s) := by
  unfold execProgramStateOperation
  exact plainOp_keeps hq hw (fun s => rfl) (fun s hw => hw)

theorem execHoldOperation_keeps {q} {s : State} (hq : s.fixed.1 = q) (hw : FixedOk s.fixed) (t : Nat) : Result.keeps q (execHoldOperation t s) := by
  unfold execHoldOperation
  exact plainOp_keeps hq hw (fun s => rfl) (fun s hw => hw)

theorem execForceOperation_keeps {q} {s : State} (hq : s.fixed.1 = q) (hw : FixedOk s.fixed) (t : Nat) (bind : Bool) (entry : BitVec 8)
    (ctrl : BitVec 32) (ident mask value : BitVec 64) :
    Result.keeps q (execForceOperation t bind entry ctrl ident mask value s) := by
  unfold execForceOperation
  refine plainOp_keeps hq hw (fun s => ?_) (fun s hw => ?_)
  · dsimp only
    split
    · exact State.forceRelease_queue s _ _
    · split
      · rfl
      · split <;> (rename_i e; have h := congrArg (fun x => x.1.fixed.1) e; rw [State.forceBind_queue] at h; simpa using h.symm)
  · dsimp only
    split
    · exact State.forceRelease_ok hw _ _
    · split
      · exact hw
      · split <;> (rename_i e; have h := congrArg (fun x => x.1) e; dsimp only at h ⊢; rw [← h]; apply State.forceBind_ok; simpa using hw)

theorem execGraft_keeps {q} {s : State} (hq : s.fixed.1 = q) (hw : FixedOk s.fixed) (t : Nat) (img : GraftImage) (base : BitVec 32) :
    Result.keeps q (execGraft t img base s) := by
  unfold execGraft
  dsimp only
  split
  · simp [hq, hw]
  refine plainOp_keeps hq hw (fun s => ?_) (fun s hw => ?_)
  · split
    · simp
    · split
      · simp
      · simp only [State.issue_fixed, State.fixed_update, State.put_fixed]
        exact State.storeBytes_queue _ _ _
  · split
    · simpa using hw
    · split
      · simpa using hw
      · simp only [State.issue_fixed, State.fixed_update, State.put_fixed]
        exact State.storeBytes_ok hw _ _

theorem execStage_keeps {q} {s : State} (hq : s.fixed.1 = q) (hw : FixedOk s.fixed) (t : Nat) (fw orch : Nat) (fwSig orchSig : SigCheck) :
    Result.keeps q (execStage t fw orch fwSig orchSig s) := by
  unfold execStage
  refine plainOp_keeps hq hw (fun s => ?_) (fun s hw => ?_)
  · extract_lets n f o images src s1
    have h1 : s1.fixed = s.fixed := rfl
    clear_value s1
    split
    · simp
    · show (State.recordImage _ _ _ _ _).fixed.1 = _
      simp [h1]
  · extract_lets n f o images src s1
    have h1 : s1.fixed = s.fixed := rfl
    clear_value s1
    split
    · simpa using hw
    · show FixedOk (State.recordImage _ _ _ _ _).fixed
      simpa [h1] using hw

theorem execActivate_keeps {q} {s : State} (hq : s.fixed.1 = q) (hw : FixedOk s.fixed) (t : Nat) (consist : Option (BitVec 64)) :
    Result.keeps q (execActivate t consist s) := by
  unfold execActivate
  dsimp only
  cases consist with
  | none =>
    have hq1 : (s.at_ t).fixed.1 = q := by simp [hq]
    have hw1 : FixedOk (s.at_ t).fixed := by simp [hw]
    generalize s.at_ t = u at hq1 hw1 ⊢
    clear hq hw
    rename' hq1 => hq, hw1 => hw
    refine ⟨(State.serviceOp_queue (fun s => ?_) (fun s => ?_)).trans hq, State.serviceOp_ok hw (fun s hw => ?_) (fun s hw => ?_)⟩
    · split <;> simp
    · simp
    · split <;> simpa using hw
    · first | exact State.activateAt_ok hw _ | simpa using hw
  | some v => exact plainOp_keeps hq hw (fun s => by simp) (fun s hw => by simpa using hw)

theorem execAnnounce_keeps {q} {s : State} (hq : s.fixed.1 = q) (hw : FixedOk s.fixed) (t : Nat) (op : AnnOp) (target : BitVec 32) :
    Result.keeps q (execAnnounce t op target s) := by
  unfold execAnnounce
  refine plainOp_keeps hq hw (fun s => ?_) (fun s hw => ?_)
  · cases op <;> (dsimp only; split <;> simp)
  · cases op <;> (dsimp only; split <;> simpa using hw)

theorem execRoleSwap_keeps {q} {s : State} (hq : s.fixed.1 = q) (hw : FixedOk s.fixed) (t : Nat) (unready : Bool) : Result.keeps q (execRoleSwap t unready s) := by
  unfold execRoleSwap
  exact plainOp_keeps hq hw (fun s => by first | exact State.swapTry_queue s _ | simp) (fun s hw => by first | exact State.swapTry_ok hw _ | simpa using hw)

theorem execLockoutReset_keeps {q} {s : State} (hq : s.fixed.1 = q) (hw : FixedOk s.fixed) (t : Nat) : Result.keeps q (execLockoutReset t s) := by
  unfold execLockoutReset
  have hq1 : (s.at_ t).fixed.1 = q := by simp [hq]
  have hw1 : FixedOk (s.at_ t).fixed := by simp [hw]
  dsimp only
  generalize s.at_ t = u at hq1 hw1 ⊢
  clear hq hw
  rename' hq1 => hq, hw1 => hw
  refine ⟨(State.serviceOp_queue (fun s => rfl) (fun s => ?_)).trans hq, State.serviceOp_ok hw (fun s hw => hw) (fun s hw => ?_)⟩
  · simp
  · first | exact State.ownReset_ok hw _ | simpa using hw

theorem execTripRestartOperation_keeps {q} {s : State} (hq : s.fixed.1 = q) (hw : FixedOk s.fixed) (t : Nat) (fn : BitVec 5) :
    Result.keeps q (execTripRestartOperation t fn s) := by
  unfold execTripRestartOperation
  refine plainOp_keeps hq hw (fun s => ?_) (fun s hw => ?_)
  · split <;> (rename_i e; have h := congrArg (fun x => x.1.fixed.1) e; dsimp only at h ⊢; rw [← h]; first | exact State.tripRestart_queue _ _ | simp)
  · split <;> (rename_i e; have h := congrArg (fun x => x.1) e; dsimp only at h ⊢; rw [← h]; first | exact State.tripRestart_ok hw _ | simpa using hw)

theorem execClearOperation_keeps {q} {s : State} (hq : s.fixed.1 = q) (hw : FixedOk s.fixed) (t : Nat) (part : BitVec 8) :
    Result.keeps q (execClearOperation t part s) := by
  unfold execClearOperation
  refine plainOp_keeps hq hw (fun s => ?_) (fun s hw => ?_)
  · dsimp only
    split <;> simp
  · dsimp only
    split <;> simpa using hw

theorem execSaveEnvelopes_keeps {q} {s : State} (hq : s.fixed.1 = q) (hw : FixedOk s.fixed) (t : Nat) : Result.keeps q (execSaveEnvelopes t s) := by
  unfold execSaveEnvelopes
  exact plainOp_keeps hq hw (fun s => State.saveEnvelopes_queue s) (fun s hw => State.saveEnvelopes_ok hw)

theorem execRevoke_keeps {q} {s : State} (hq : s.fixed.1 = q) (hw : FixedOk s.fixed) (t : Nat) (img : List Byte) (sig : SigCheck)
    (rsaMask slhMask : BitVec 4) : Result.keeps q (execRevoke t img sig rsaMask slhMask s) := by
  unfold execRevoke
  refine plainOp_keeps hq hw (fun s => ?_) (fun s hw => ?_)
  · extract_lets
    split <;> simp
  · extract_lets
    split <;> simpa using hw

theorem execSetRtc_keeps {q} {s : State} (hq : s.fixed.1 = q) (hw : FixedOk s.fixed) (t : Nat) (rtc : BitVec 64) (nextService : Bool) : Result.keeps q (execSetRtc t rtc nextService s) := by
  unfold execSetRtc
  exact plainOp_keeps hq hw (fun s => by simp) (fun s hw => by simpa using hw)

end Sys2Proof.Machine
end

