-- ==== Sys2Proof/Laws/RegisterWrite.lean ====
section
/-! SUPPORT. Laws/RegisterWrite.lean: what the operations of Machine/RegisterWrite.lean leave alone. -/
set_option linter.all false
namespace Sys2Proof.Machine

@[simp ↓] theorem State.forceWord_keeps {q} {s : State} (hq : s.fixed.1 = q) (hw : FixedOk s.fixed) (t : Nat) (n : Nat) (ofs : Nat) (size : Nat) (v : Nat) : Result.keeps q (s.forceWord t n ofs size v) := by
  unfold State.forceWord
  repeat' (first | (extract_lets +onlyGivenNames x; (try (have hx : FixedOk x.fixed := by (simp only [x]; repeat' (first | with_reducible assumption | (intro s x hw) | with_reducible apply FixedOk.foldl | with_reducible apply execForceBind_keeps | with_reducible apply execForceRelease_keeps | with_reducible apply execForceValueWrite_keeps | split | (simp [*, State.fixed_foldl, State.queue_foldl]; done) | split | simp only [State.fixed_foldl, State.fixed_update] | with_reducible refine (Result.keeps_next _ _).2 ⟨?_, ?_⟩)))); (try (have hq : x.fixed.1 = s.fixed.1 := by (simp only [x]; (repeat' split) <;> simp [*, State.fixed_foldl, State.queue_foldl]))); try clear_value x) | with_reducible assumption | (intro s x hw) | with_reducible apply FixedOk.foldl | with_reducible apply execForceBind_keeps | with_reducible apply execForceRelease_keeps | with_reducible apply execForceValueWrite_keeps | (split) | (simp [*, State.fixed_foldl, State.queue_foldl]; done) | split | simp only [State.fixed_foldl, State.fixed_update] | with_reducible refine (Result.keeps_next _ _).2 ⟨?_, ?_⟩)

theorem State.crcWord_rests {s : State} {who : Initiator} {e ofs size v : Nat} {r : Result} (h : s.crcWord who e ofs size v = some r) :
    Result.rests s.fixed r := by
  unfold State.crcWord at h
  dsimp only at h
  split at h
  · cases h; exact execCrcCfgWrite_rests _ _ _ _ _ (State.fixed_update _)
  · split at h
    · cases h; exact execCrcValWrite_rests _ _ _ _ rfl
    · split at h
      · cases h
        split
        · exact execCrcInit_rests _ _ _ rfl
        · exact execJob_rests _ _ _ rfl
        · exact execSave_rests _ _ _ _ rfl
        · exact execLoad_rests _ _ _ _ rfl
      · split at h
        · cases h; exact execCrcData_rests _ _ _ _ rfl
        · split at h
          · cases h
            split
            · exact execCrcData64_rests _ _ _ _ rfl
            · exact execCrcData_rests _ _ _ _ rfl
          · cases h

theorem Result.all_ite {P : Result → Prop} {c : Prop} [Decidable c] {a b : Option Result} (ha : ∀ r, a = some r → P r)
    (hb : ∀ r, b = some r → P r) : ∀ r, (if c then a else b) = some r → P r := by
  split <;> assumption

theorem Result.all_some {P : Result → Prop} {x : Result} (h : P x) : ∀ r, some x = some r → P r := fun _ e => Option.some.inj e ▸ h

theorem State.writeOpen_keeps {q} {s : State} (hq : s.fixed.1 = q) (hw : FixedOk s.fixed) (who : Initiator) (m v : Nat) :
    Result.keeps q (.next (s.writeOpen who m v)) := by
  refine (Result.keeps_next _ _).2 ⟨?_, State.writeOpen_ok hw _ _ _⟩
  simp [hq]

theorem Result.all_none {P : Result → Prop} : ∀ r, (none : Option Result) = some r → P r := fun _ h => nomatch h

theorem State.ownWrite_keeps {q} {s : State} (hq : s.fixed.1 = q) (hw : FixedOk s.fixed) (t : Nat) (who : Initiator) (a size v : Nat) :
    ∀ r, s.ownWrite t who a size v = some r → Result.keeps q r := by
  unfold State.ownWrite
  dsimp only
  repeat' (first | with_reducible refine Result.all_none | with_reducible refine Result.all_some ?_ | with_reducible refine Result.all_ite ?_ ?_)
  all_goals first
    | with_reducible exact fun r h => (State.crcWord_rests h).keeps hq hw
    | skip
  all_goals first
    | with_reducible exact State.forceWord_keeps hq hw _ _ _ _ _
    | (refine Result.rests.keeps ?_ hq hw; simp; done)
    | (simp [hq, hw]; done)
    | exact State.writeOpen_keeps hq hw _ _ _
    | (split <;> first
        | (refine Result.rests.keeps ?_ hq hw; simp; done)
        | (simp [hq, hw]; done))

@[simp ↓] theorem State.classWord_fixed (s : State) (c : Acc) (a : Nat) (v : Nat) : (s.classWord c a v).fixed = s.fixed := by
  unfold State.classWord
  repeat' (first | (extract_lets +onlyGivenNames x; (try (have hx : x.fixed = s.fixed := by (simp only [x]; (repeat' split) <;> simp [*, State.fixed_foldl]))); try clear_value x) | (split) | (simp [*, State.fixed_foldl]; done) | (refine (State.fixed_foldl _ _ ?_ _).trans ?_) | (refine congrArg Prod.fst ((State.fixed_foldl _ _ ?_ _).trans ?_)) | (refine (State.queue_foldl _ _ ?_ _).trans ?_) | (intro s x) | simp [*])

@[simp ↓] theorem State.writeReg_keeps {q} {s : State} (hq : s.fixed.1 = q) (hw : FixedOk s.fixed) (t : Nat) (who : Initiator)
    (a size v : Nat) : Result.keeps q (s.writeReg t who a size v) := by
  unfold State.writeReg
  split
  · simp [hq, hw]
  split
  · split
    · trivial
    · exact (execReggUnlock_rests s who _ _ rfl).keeps hq hw
  split
  · have e := State.gate_of ‹_›
    simp [e, hq, hw]
  · have e := State.gate_of ‹_›
    split
    · simp [e, hq, hw]
    · split
      · simp [e, hq, hw]
      · split
        · simp [e, hq, hw]
        · split
          · trivial
          · split
            · simp [e, hq, hw]
            · split
              · exact State.ownWrite_keeps hq hw _ _ _ _ _ _ ‹_›
              · extract_lets +onlyGivenNames u
                have hu : u.fixed = s.fixed := by
                  rw [← e]
                  exact State.fixed_foldl _ _ (fun s p => State.classWord_fixed _ _ _ _) _
                clear_value u
                split
                · exact ⟨by simp [hu, hq], State.configChanged_ok (by rw [hu]; exact hw)⟩
                · simp [hu, hq, hw]

@[simp ↓] theorem State.tableWord_queue (s : State) (a : Nat) (v : Nat) : (s.tableWord a v).fixed.1 = s.fixed.1 := by
  simp [State.tableWord, State.fixed_foldl, State.queue_foldl]

@[simp ↓] theorem State.tableWord_ok {s : State} (hw : FixedOk s.fixed) (a : Nat) (v : Nat) : FixedOk (s.tableWord a v).fixed := by
  unfold State.tableWord
  repeat' (first | (extract_lets +onlyGivenNames x; (try (have hx : FixedOk x.fixed := by (simp only [x]; repeat' (first | with_reducible assumption | (intro s x hw) | with_reducible apply FixedOk.foldl | with_reducible apply State.store_ok | split | (simp [*, State.fixed_foldl, State.queue_foldl]; done) | split | simp only [State.fixed_foldl, State.fixed_update] | with_reducible refine (Result.keeps_next _ _).2 ⟨?_, ?_⟩)))); (try (have hq : x.fixed.1 = s.fixed.1 := by (simp only [x]; (repeat' split) <;> simp [*, State.fixed_foldl, State.queue_foldl]))); try clear_value x) | with_reducible assumption | (intro s x hw) | with_reducible apply FixedOk.foldl | with_reducible apply State.store_ok | (split) | (simp [*, State.fixed_foldl, State.queue_foldl]; done) | split | simp only [State.fixed_foldl, State.fixed_update] | with_reducible refine (Result.keeps_next _ _).2 ⟨?_, ?_⟩)

@[simp ↓] theorem State.writeTableWindow_keeps {q} {s : State} (hq : s.fixed.1 = q) (hw : FixedOk s.fixed) (who : Initiator) (a : Nat) (size : Nat) (v : Nat) : Result.keeps q (s.writeTableWindow who a size v) := by
  unfold State.writeTableWindow
  repeat' (first | (extract_lets +onlyGivenNames x; (try (have hx : FixedOk x.fixed := by (simp only [x]; repeat' (first | with_reducible assumption | (intro s x hw) | with_reducible apply FixedOk.foldl | with_reducible apply State.tableWord_ok | split | (simp [*, State.fixed_foldl, State.queue_foldl]; done) | split | simp only [State.fixed_foldl, State.fixed_update] | with_reducible refine (Result.keeps_next _ _).2 ⟨?_, ?_⟩)))); (try (have hq : x.fixed.1 = s.fixed.1 := by (simp only [x]; (repeat' split) <;> simp [*, State.fixed_foldl, State.queue_foldl]))); try clear_value x) | with_reducible assumption | (intro s x hw) | with_reducible apply FixedOk.foldl | with_reducible apply State.tableWord_ok | (split) | (simp [*, State.fixed_foldl, State.queue_foldl]; done) | split | simp only [State.fixed_foldl, State.fixed_update] | with_reducible refine (Result.keeps_next _ _).2 ⟨?_, ?_⟩)

@[simp ↓] theorem State.writeAt_keeps {q} {s : State} (hq : s.fixed.1 = q) (hw : FixedOk s.fixed) (t : Nat) (who : Initiator)
    (a size v : Nat) : Result.keeps q (s.writeAt t who a size v) := by
  unfold State.writeAt
  split
  · simp [hq, hw]
  · split
    · simp [hq, hw]
    · exact State.writeReg_keeps hq hw _ _ _ _ _
    · exact State.writeTableWindow_keeps hq hw _ _ _ _
    · exact (execRackOutboundAccess.core_rests who s a size _ rfl).keeps hq hw
    · exact State.storeAt_keeps hq hw _ _ _ _ _

@[simp ↓] theorem execRegisterWrite_keeps {q} {s : State} (hq : s.fixed.1 = q) (hw : FixedOk s.fixed) (t : Nat) (who : Initiator) (addr : BitVec 64) (size : Nat) (data : BitVec 64) : Result.keeps q (execRegisterWrite t who addr size data s) := by
  unfold execRegisterWrite
  repeat' (first | (extract_lets +onlyGivenNames x; (try (have hx : FixedOk x.fixed := by (simp only [x]; repeat' (first | with_reducible assumption | (intro s x hw) | with_reducible apply FixedOk.foldl | with_reducible apply State.at_ok | with_reducible apply State.writeAt_keeps | split | (simp [*, State.fixed_foldl, State.queue_foldl]; done) | split | simp only [State.fixed_foldl, State.fixed_update] | with_reducible refine (Result.keeps_next _ _).2 ⟨?_, ?_⟩)))); (try (have hq : x.fixed.1 = s.fixed.1 := by (simp only [x]; (repeat' split) <;> simp [*, State.fixed_foldl, State.queue_foldl]))); try clear_value x) | with_reducible assumption | (intro s x hw) | with_reducible apply FixedOk.foldl | with_reducible apply State.at_ok | with_reducible apply State.writeAt_keeps | (split) | (simp [*, State.fixed_foldl, State.queue_foldl]; done) | split | simp only [State.fixed_foldl, State.fixed_update] | with_reducible refine (Result.keeps_next _ _).2 ⟨?_, ?_⟩)

@[simp ↓] theorem execTableWindowWrite_keeps {q} {s : State} (hq : s.fixed.1 = q) (hw : FixedOk s.fixed) (t : Nat) (who : Initiator) (addr : BitVec 64) (size : Nat) (data : BitVec 64) : Result.keeps q (execTableWindowWrite t who addr size data s) := by
  unfold execTableWindowWrite
  repeat' (first | (extract_lets +onlyGivenNames x; (try (have hx : FixedOk x.fixed := by (simp only [x]; repeat' (first | with_reducible assumption | (intro s x hw) | with_reducible apply FixedOk.foldl | with_reducible apply State.at_ok | with_reducible apply State.writeAt_keeps | split | (simp [*, State.fixed_foldl, State.queue_foldl]; done) | split | simp only [State.fixed_foldl, State.fixed_update] | with_reducible refine (Result.keeps_next _ _).2 ⟨?_, ?_⟩)))); (try (have hq : x.fixed.1 = s.fixed.1 := by (simp only [x]; (repeat' split) <;> simp [*, State.fixed_foldl, State.queue_foldl]))); try clear_value x) | with_reducible assumption | (intro s x hw) | with_reducible apply FixedOk.foldl | with_reducible apply State.at_ok | with_reducible apply State.writeAt_keeps | (split) | (simp [*, State.fixed_foldl, State.queue_foldl]; done) | split | simp only [State.fixed_foldl, State.fixed_update] | with_reducible refine (Result.keeps_next _ _).2 ⟨?_, ?_⟩)

@[simp ↓] theorem State.loadTrap_fixed (s : State) (who : Initiator) (core : Nat) (a : Nat) : (s.loadTrap who core a).fixed = s.fixed := by
  simp [State.loadTrap, State.fixed_foldl]

theorem State.popHead_fixed {s u : State} {a v : Nat} (h : s.popHead a = some (v, u)) : u.fixed = s.fixed := by
  unfold State.popHead at h
  split at h
  · dsimp only at h
    split at h
    · cases h
    · cases h; simp
  · split at h
    · dsimp only at h
      split at h
      · cases h
      · cases h; simp
    · split at h
      · split at h
        · cases h
        · cases h; simp
      · split at h
        · dsimp only at h
          split at h
          · cases h
          · cases h; simp
        · cases h

@[simp ↓] theorem State.popLoad_fixed (s : State) (who : Initiator) (a size : Nat) : (s.popLoad who a size).fixed = s.fixed := by
  unfold State.popLoad
  dsimp only
  split
  · simp
  · split
    · have h := State.popHead_fixed ‹_›
      split <;> simp [h]
    · split <;> simp

@[simp ↓] theorem State.mmioLoad_fixed (s : State) (who : Initiator) (core : Nat) (a : Nat) (size : Nat) : (s.mmioLoad who core a size).fixed = s.fixed := by
  simp [State.mmioLoad, State.fixed_foldl]

@[simp ↓] theorem State.tableLoad_fixed (s : State) (who : Initiator) (core : Nat) (a : Nat) (size : Nat) : (s.tableLoad who core a size).fixed = s.fixed := by
  unfold State.tableLoad
  repeat' (first | (extract_lets +onlyGivenNames x; (try (have hx : x.fixed = s.fixed := by (simp only [x]; (repeat' split) <;> simp [*, State.fixed_foldl]))); try clear_value x) | (split) | (simp [*, State.fixed_foldl]; done))

@[simp ↓] theorem State.loadAt_rests {fx} (s : State) (who : Initiator) (core a size : Nat) (h : s.fixed = fx) :
    Result.rests fx (s.loadAt who core a size) := by
  subst h
  unfold State.loadAt
  repeat' split
  all_goals first
    | (simp; done)
    | exact execRackOutboundAccess.core_rests who s a size none rfl

@[simp ↓] theorem State.loadAt_keeps {q} {s : State} (hq : s.fixed.1 = q) (hw : FixedOk s.fixed) (who : Initiator) (core a size : Nat) :
    Result.keeps q (s.loadAt who core a size) :=
  (State.loadAt_rests s who core a size rfl).keeps hq hw

@[simp ↓] theorem State.issueLoad_keeps {q} {s : State} (hq : s.fixed.1 = q) (hw : FixedOk s.fixed) (who : Initiator) (core : Nat) (a : Nat) (size : Nat) : Result.keeps q (s.issueLoad who core a size) := by
  unfold State.issueLoad
  repeat' (first | (extract_lets +onlyGivenNames x; (try (have hx : FixedOk x.fixed := by (simp only [x]; repeat' (first | with_reducible assumption | (intro s x hw) | with_reducible apply FixedOk.foldl | with_reducible apply State.loadAt_keeps | split | (simp [*, State.fixed_foldl, State.queue_foldl]; done) | split | simp only [State.fixed_foldl, State.fixed_update] | with_reducible refine (Result.keeps_next _ _).2 ⟨?_, ?_⟩)))); (try (have hq : x.fixed.1 = s.fixed.1 := by (simp only [x]; (repeat' split) <;> simp [*, State.fixed_foldl, State.queue_foldl]))); try clear_value x) | with_reducible assumption | (intro s x hw) | with_reducible apply FixedOk.foldl | with_reducible apply State.loadAt_keeps | (split) | (simp [*, State.fixed_foldl, State.queue_foldl]; done) | split | simp only [State.fixed_foldl, State.fixed_update] | with_reducible refine (Result.keeps_next _ _).2 ⟨?_, ?_⟩)

@[simp ↓] theorem execPopRead64_keeps {q} {s : State} (hq : s.fixed.1 = q) (hw : FixedOk s.fixed) (t : Nat) (who : Initiator) (core : Nat) (win : BitVec 64) : Result.keeps q (execPopRead64 t who core win s) := by
  unfold execPopRead64
  repeat' (first | (extract_lets +onlyGivenNames x; (try (have hx : FixedOk x.fixed := by (simp only [x]; repeat' (first | with_reducible assumption | (intro s x hw) | with_reducible apply FixedOk.foldl | with_reducible apply State.at_ok | with_reducible apply State.issueLoad_keeps | split | (simp [*, State.fixed_foldl, State.queue_foldl]; done) | split | simp only [State.fixed_foldl, State.fixed_update] | with_reducible refine (Result.keeps_next _ _).2 ⟨?_, ?_⟩)))); (try (have hq : x.fixed.1 = s.fixed.1 := by (simp only [x]; (repeat' split) <;> simp [*, State.fixed_foldl, State.queue_foldl]))); try clear_value x) | with_reducible assumption | (intro s x hw) | with_reducible apply FixedOk.foldl | with_reducible apply State.at_ok | with_reducible apply State.issueLoad_keeps | (split) | (simp [*, State.fixed_foldl, State.queue_foldl]; done) | split | simp only [State.fixed_foldl, State.fixed_update] | with_reducible refine (Result.keeps_next _ _).2 ⟨?_, ?_⟩)

@[simp ↓] theorem execPopReadLow_keeps {q} {s : State} (hq : s.fixed.1 = q) (hw : FixedOk s.fixed) (t : Nat) (who : Initiator) (core : Nat) (win : BitVec 64) : Result.keeps q (execPopReadLow t who core win s) := by
  unfold execPopReadLow
  repeat' (first | (extract_lets +onlyGivenNames x; (try (have hx : FixedOk x.fixed := by (simp only [x]; repeat' (first | with_reducible assumption | (intro s x hw) | with_reducible apply FixedOk.foldl | with_reducible apply State.at_ok | with_reducible apply State.issueLoad_keeps | split | (simp [*, State.fixed_foldl, State.queue_foldl]; done) | split | simp only [State.fixed_foldl, State.fixed_update] | with_reducible refine (Result.keeps_next _ _).2 ⟨?_, ?_⟩)))); (try (have hq : x.fixed.1 = s.fixed.1 := by (simp only [x]; (repeat' split) <;> simp [*, State.fixed_foldl, State.queue_foldl]))); try clear_value x) | with_reducible assumption | (intro s x hw) | with_reducible apply FixedOk.foldl | with_reducible apply State.at_ok | with_reducible apply State.issueLoad_keeps | (split) | (simp [*, State.fixed_foldl, State.queue_foldl]; done) | split | simp only [State.fixed_foldl, State.fixed_update] | with_reducible refine (Result.keeps_next _ _).2 ⟨?_, ?_⟩)

@[simp ↓] theorem execPopReadHigh_keeps {q} {s : State} (hq : s.fixed.1 = q) (hw : FixedOk s.fixed) (t : Nat) (who : Initiator) (core : Nat) (win : BitVec 64) : Result.keeps q (execPopReadHigh t who core win s) := by
  unfold execPopReadHigh
  repeat' (first | (extract_lets +onlyGivenNames x; (try (have hx : FixedOk x.fixed := by (simp only [x]; repeat' (first | with_reducible assumption | (intro s x hw) | with_reducible apply FixedOk.foldl | with_reducible apply State.at_ok | with_reducible apply State.issueLoad_keeps | split | (simp [*, State.fixed_foldl, State.queue_foldl]; done) | split | simp only [State.fixed_foldl, State.fixed_update] | with_reducible refine (Result.keeps_next _ _).2 ⟨?_, ?_⟩)))); (try (have hq : x.fixed.1 = s.fixed.1 := by (simp only [x]; (repeat' split) <;> simp [*, State.fixed_foldl, State.queue_foldl]))); try clear_value x) | with_reducible assumption | (intro s x hw) | with_reducible apply FixedOk.foldl | with_reducible apply State.at_ok | with_reducible apply State.issueLoad_keeps | (split) | (simp [*, State.fixed_foldl, State.queue_foldl]; done) | split | simp only [State.fixed_foldl, State.fixed_update] | with_reducible refine (Result.keeps_next _ _).2 ⟨?_, ?_⟩)

@[simp ↓] theorem execPopRead32_keeps {q} {s : State} (hq : s.fixed.1 = q) (hw : FixedOk s.fixed) (t : Nat) (who : Initiator) (core : Nat) (win : BitVec 64) : Result.keeps q (execPopRead32 t who core win s) := by
  unfold execPopRead32
  repeat' (first | (extract_lets +onlyGivenNames x; (try (have hx : FixedOk x.fixed := by (simp only [x]; repeat' (first | with_reducible assumption | (intro s x hw) | with_reducible apply FixedOk.foldl | with_reducible apply State.at_ok | with_reducible apply State.issueLoad_keeps | split | (simp [*, State.fixed_foldl, State.queue_foldl]; done) | split | simp only [State.fixed_foldl, State.fixed_update] | with_reducible refine (Result.keeps_next _ _).2 ⟨?_, ?_⟩)))); (try (have hq : x.fixed.1 = s.fixed.1 := by (simp only [x]; (repeat' split) <;> simp [*, State.fixed_foldl, State.queue_foldl]))); try clear_value x) | with_reducible assumption | (intro s x hw) | with_reducible apply FixedOk.foldl | with_reducible apply State.at_ok | with_reducible apply State.issueLoad_keeps | (split) | (simp [*, State.fixed_foldl, State.queue_foldl]; done) | split | simp only [State.fixed_foldl, State.fixed_update] | with_reducible refine (Result.keeps_next _ _).2 ⟨?_, ?_⟩)

end Sys2Proof.Machine
end

