-- ==== Sys2Proof/Laws/TriStore.lean ====
section
/-! SUPPORT. Laws/TriStore.lean: what the operations of Machine/TriStore.lean leave alone. -/
set_option linter.all false
namespace Sys2Proof.Machine

@[simp ↓] theorem State.settle_fixed (s : State) (x : DStore) : (s.settle x).fixed = s.fixed := by
  unfold State.settle
  repeat' (first | (extract_lets +onlyGivenNames x; (try (have hx : x.fixed = s.fixed := by (simp only [x]; (repeat' split) <;> simp [*, State.fixed_foldl]))); try clear_value x) | (split) | (simp [*, State.fixed_foldl]; done))

@[simp ↓] theorem State.resolveStores_keeps {q} {s : State} (hq : s.fixed.1 = q) (hw : FixedOk s.fixed) (t n : Nat) :
    Result.keeps q (State.resolveStores t n s) := by
  induction n generalizing s with
  | zero => exact ⟨hq, hw⟩
  | succ n ih =>
    unfold State.resolveStores
    split
    · exact ⟨hq, hw⟩
    · rename_i x _
      have h := State.writeReg_keeps (s := s.settle x) (q := q) (by simp [hq]) (by simpa using hw) t .tri x.addr x.size x.data
      split
      · rename_i u e
        rw [e] at h
        exact ih (by simpa using h.1) (by simpa using h.2)
      · exact h
    · exact ih (by simp [hq]) (by simpa using hw)

@[simp ↓] theorem State.enqueueStore_fixed (s : State) (n : Nat) (addr : Nat) (size : Nat) (data : Nat) : (s.enqueueStore n addr size data).fixed = s.fixed := by
  unfold State.enqueueStore
  repeat' (first | (extract_lets +onlyGivenNames x; (try (have hx : x.fixed = s.fixed := by (simp only [x]; (repeat' split) <;> simp [*, State.fixed_foldl]))); try clear_value x) | (split) | (simp [*, State.fixed_foldl]; done))

@[simp ↓] theorem State.issueStore_keeps {q} {s : State} (hq : s.fixed.1 = q) (hw : FixedOk s.fixed) (t n addr size data : Nat) :
    Result.keeps q (s.issueStore t n addr size data) := by
  unfold State.issueStore
  repeat' split
  all_goals first
    | (with_reducible apply State.resolveStores_keeps <;> simp [hq, hw]; done)
    | (simp [hq, hw]; done)

@[simp ↓] theorem execTriDeviceStore_keeps {q} {s : State} (hq : s.fixed.1 = q) (hw : FixedOk s.fixed) (t core : Nat) (addr : BitVec 64)
    (size : Nat) (data : BitVec 64) : Result.keeps q (execTriDeviceStore t core addr size data s) := by
  unfold execTriDeviceStore
  dsimp only
  have q1 : (s.at_ t).fixed.1 = q := by simp [hq]
  have w1 : FixedOk (s.at_ t).fixed := by simp [hw]
  split
  · exact ⟨q1, w1⟩
  · split
    · simp [hq, hw]
    · split
      · simp [hq, hw]
      · exact State.issueStore_keeps q1 w1 _ _ _ _ _

@[simp ↓] theorem State.timeOutStores_fixed (s : State) (n : Nat) : (State.timeOutStores n s).fixed = s.fixed := by
  induction n generalizing s with
  | zero => rfl
  | succ n ih =>
    unfold State.timeOutStores
    split
    · rfl
    · rw [ih]; simp

@[simp ↓] theorem execDeviceStoreTimeout_keeps {q} {s : State} (hq : s.fixed.1 = q) (hw : FixedOk s.fixed) (t : Nat) :
    Result.keeps q (execDeviceStoreTimeout t s) := by
  unfold execDeviceStoreTimeout
  with_reducible apply State.resolveStores_keeps <;> simp [hq, hw]

@[simp ↓] theorem execStoreQueueResume_keeps {q} {s : State} (hq : s.fixed.1 = q) (hw : FixedOk s.fixed) (t core : Nat) :
    Result.keeps q (execStoreQueueResume t core s) := by
  unfold execStoreQueueResume
  dsimp only
  repeat' split
  all_goals first
    | (with_reducible apply State.resolveStores_keeps <;> simp [hq, hw]; done)
    | (refine Result.rests.keeps (State.loadAt_rests _ _ _ _ _ rfl) ?_ ?_ <;> simp [hq, hw]; done)
    | (simp [hq, hw]; done)

@[simp ↓] theorem execCycleStartInterrupt_keeps {q} {s : State} (hq : s.fixed.1 = q) (hw : FixedOk s.fixed) (t core : Nat) :
    Result.keeps q (execCycleStartInterrupt t core s) := by
  unfold execCycleStartInterrupt
  dsimp only
  split
  · simp [hq, hw]
  · exact State.resolveStores_keeps (by simp [hq]) (State.startCheck_ok (by simp [hw])) _ _

@[simp ↓] theorem execVoterDecision_keeps {q} {s : State} (hq : s.fixed.1 = q) (hw : FixedOk s.fixed) (t : Nat) (fa fb : BitVec 3) :
    Result.keeps q (execVoterDecision t fa fb s) := by
  unfold execVoterDecision
  dsimp only
  split
  · simp [hq, hw]
  · have w : FixedOk (s.at_ t).fixed := by simp [hw]
    exact State.resolveStores_keeps (by simp [hq]) (State.decide_ok w _ _) _ _

end Sys2Proof.Machine
end

