-- ==== Sys2Proof/Laws/Edge.lean ====
section
/-! SUPPORT. Laws/Edge.lean: what the operations of Machine/Edge.lean leave alone. -/
set_option linter.all false
namespace Sys2Proof.Machine

@[simp ↓] theorem State.applyPend_fixed (s : State) (p : Nat → Bool) : (s.applyPend p).fixed = s.fixed := by
  simp [State.applyPend, State.fixed_foldl]

@[simp ↓] theorem State.strobeEdge_queue (s : State) : (s.strobeEdge).fixed.1 = s.fixed.1 := by
  unfold State.strobeEdge
  repeat' (first | (extract_lets +onlyGivenNames x; (try (have hx : x.fixed.1 = s.fixed.1 := by (simp only [x]; (repeat' split) <;> simp [*, State.fixed_foldl, State.queue_foldl]))); try clear_value x) | (split) | (simp [*, State.fixed_foldl, State.queue_foldl]; done))

@[simp ↓] theorem State.strobeEdge_ok {s : State} (hw : FixedOk s.fixed) : FixedOk (s.strobeEdge).fixed := by
  unfold State.strobeEdge
  repeat' (first | (extract_lets +onlyGivenNames x; (try (have hx : FixedOk x.fixed := by (simp only [x]; repeat' (first | with_reducible assumption | (intro s x hw) | with_reducible apply FixedOk.foldl | with_reducible apply State.configChanged_ok | split | (simp [*, State.fixed_foldl, State.queue_foldl]; done) | split | simp only [State.fixed_foldl, State.fixed_update] | with_reducible refine (Result.keeps_next _ _).2 ⟨?_, ?_⟩)))); (try (have hq : x.fixed.1 = s.fixed.1 := by (simp only [x]; (repeat' split) <;> simp [*, State.fixed_foldl, State.queue_foldl]))); try clear_value x) | with_reducible assumption | (intro s x hw) | with_reducible apply FixedOk.foldl | with_reducible apply State.configChanged_ok | (split) | (simp [*, State.fixed_foldl, State.queue_foldl]; done) | split | simp only [State.fixed_foldl, State.fixed_update] | with_reducible refine (Result.keeps_next _ _).2 ⟨?_, ?_⟩)

@[simp ↓] theorem State.traceRun_fixed (s : State) : (s.traceRun).fixed = s.fixed := by
  unfold State.traceRun
  repeat' (first | (extract_lets +onlyGivenNames x; (try (have hx : x.fixed = s.fixed := by (simp only [x]; (repeat' split) <;> simp [*, State.fixed_foldl]))); try clear_value x) | (split) | (simp [*, State.fixed_foldl]; done))

@[simp ↓] theorem State.traceTick_fixed (s : State) : (s.traceTick).fixed = s.fixed := by
  simp [State.traceTick, State.fixed_foldl]

theorem State.aside_fixed (s : State) (f : State → State) :
    (s.aside f).1.fixed = (f { s with obs := { s.obs with buf := [], lost := 0 } }).fixed := by
  unfold State.aside
  extract_lets o u ps buf
  split
  · rfl
  · simp only [State.putIf_fixed, State.fixed_update]
    rfl

theorem State.aside_queue {s u : State} {f : State → State} {ps} (e : s.aside f = (u, ps)) (h : ∀ s, (f s).fixed.1 = s.fixed.1) :
    u.fixed.1 = s.fixed.1 := by
  have h1 := State.aside_fixed s f
  rw [e] at h1
  rw [show u.fixed = _ from h1, h]
  rfl

theorem State.aside_ok {s u : State} {f : State → State} {ps} (e : s.aside f = (u, ps)) (hw : FixedOk s.fixed)
    (h : ∀ s, FixedOk s.fixed → FixedOk (f s).fixed) : FixedOk u.fixed := by
  have h1 := State.aside_fixed s f
  rw [e] at h1
  rw [show u.fixed = _ from h1]
  exact h _ hw

@[simp ↓] theorem State.requeue_fixed (s : State) (ps : List (Nat × List Byte)) : (s.requeue ps).fixed = s.fixed := by
  simp [State.requeue, State.fixed_foldl]

@[simp ↓] theorem State.proposeLane_fixed (s : State) : (s.proposeLane).fixed = s.fixed := by
  simp [State.proposeLane, State.fixed_foldl]

@[simp ↓] theorem State.laneEdge_queue (s : State) (l : Nat) : (s.laneEdge l).fixed.1 = s.fixed.1 := by
  unfold State.laneEdge
  repeat' (first | (extract_lets +onlyGivenNames x; (try (have hx : x.fixed.1 = s.fixed.1 := by (simp only [x]; (repeat' split) <;> simp [*, State.fixed_foldl, State.queue_foldl]))); try clear_value x) | (split) | (simp [*, State.fixed_foldl, State.queue_foldl]; done))

@[simp ↓] theorem State.laneEdge_ok {s : State} (hw : FixedOk s.fixed) (l : Nat) : FixedOk (s.laneEdge l).fixed := by
  unfold State.laneEdge
  repeat' (first | (extract_lets +onlyGivenNames x; (try (have hx : FixedOk x.fixed := by (simp only [x]; repeat' (first | with_reducible assumption | (intro s x hw) | with_reducible apply FixedOk.foldl | with_reducible apply State.laneGoto_ok | split | (simp [*, State.fixed_foldl, State.queue_foldl]; done) | split | simp only [State.fixed_foldl, State.fixed_update] | with_reducible refine (Result.keeps_next _ _).2 ⟨?_, ?_⟩)))); (try (have hq : x.fixed.1 = s.fixed.1 := by (simp only [x]; (repeat' split) <;> simp [*, State.fixed_foldl, State.queue_foldl]))); try clear_value x) | with_reducible assumption | (intro s x hw) | with_reducible apply FixedOk.foldl | with_reducible apply State.laneGoto_ok | (split) | (simp [*, State.fixed_foldl, State.queue_foldl]; done) | split | simp only [State.fixed_foldl, State.fixed_update] | with_reducible refine (Result.keeps_next _ _).2 ⟨?_, ?_⟩)

@[simp ↓] theorem State.claimEdge_fixed (s : State) : (s.claimEdge).fixed = s.fixed := by
  unfold State.claimEdge
  repeat' (first | (extract_lets +onlyGivenNames x; (try (have hx : x.fixed = s.fixed := by (simp only [x]; (repeat' split) <;> simp [*, State.fixed_foldl]))); try clear_value x) | (split) | (simp [*, State.fixed_foldl]; done))

@[simp ↓] theorem State.quietEdge_fixed (s : State) : (s.quietEdge).fixed = s.fixed := by
  simp [State.quietEdge, State.fixed_foldl]

@[simp ↓] theorem State.yieldStop_queue (s : State) : (s.yieldStop).fixed.1 = s.fixed.1 := by
  unfold State.yieldStop
  repeat' (first | (extract_lets +onlyGivenNames x; (try (have hx : x.fixed.1 = s.fixed.1 := by (simp only [x]; (repeat' split) <;> simp [*, State.fixed_foldl, State.queue_foldl]))); try clear_value x) | (split) | (simp [*, State.fixed_foldl, State.queue_foldl]; done) | (refine (State.fixed_foldl _ _ ?_ _).trans ?_) | (refine congrArg Prod.fst ((State.fixed_foldl _ _ ?_ _).trans ?_)) | (refine (State.queue_foldl _ _ ?_ _).trans ?_) | (intro s x) | simp [*])

@[simp ↓] theorem State.yieldStop_ok {s : State} (hw : FixedOk s.fixed) : FixedOk (s.yieldStop).fixed := by
  unfold State.yieldStop
  repeat' (first | (extract_lets +onlyGivenNames x; (try (have hx : FixedOk x.fixed := by (simp only [x]; repeat' (first | with_reducible assumption | (intro s x hw) | with_reducible apply FixedOk.foldl | with_reducible apply State.demote_ok | split | (simp [*, State.fixed_foldl, State.queue_foldl]; done) | split | simp only [State.fixed_foldl, State.fixed_update] | with_reducible refine (Result.keeps_next _ _).2 ⟨?_, ?_⟩)))); (try (have hq : x.fixed.1 = s.fixed.1 := by (simp only [x]; (repeat' split) <;> simp [*, State.fixed_foldl, State.queue_foldl]))); try clear_value x) | with_reducible assumption | (intro s x hw) | with_reducible apply FixedOk.foldl | with_reducible apply State.demote_ok | (split) | (simp [*, State.fixed_foldl, State.queue_foldl]; done) | split | simp only [State.fixed_foldl, State.fixed_update] | with_reducible refine (Result.keeps_next _ _).2 ⟨?_, ?_⟩)

@[simp ↓] theorem State.twinEdge_queue (s : State) : (s.twinEdge).fixed.1 = s.fixed.1 := by
  unfold State.twinEdge
  repeat' (first | (extract_lets +onlyGivenNames x; (try (have hx : x.fixed.1 = s.fixed.1 := by (simp only [x]; (repeat' split) <;> simp [*, State.fixed_foldl, State.queue_foldl]))); try clear_value x) | (split) | (simp [*, State.fixed_foldl, State.queue_foldl]; done))

@[simp ↓] theorem State.twinEdge_ok {s : State} (hw : FixedOk s.fixed) : FixedOk (s.twinEdge).fixed := by
  unfold State.twinEdge
  repeat' (first | (extract_lets +onlyGivenNames x; (try (have hx : FixedOk x.fixed := by (simp only [x]; repeat' (first | with_reducible assumption | (intro s x hw) | with_reducible apply FixedOk.foldl | with_reducible apply State.startDecision_ok | with_reducible apply State.yieldStop_ok | split | (simp [*, State.fixed_foldl, State.queue_foldl]; done) | split | simp only [State.fixed_foldl, State.fixed_update] | with_reducible refine (Result.keeps_next _ _).2 ⟨?_, ?_⟩)))); (try (have hq : x.fixed.1 = s.fixed.1 := by (simp only [x]; (repeat' split) <;> simp [*, State.fixed_foldl, State.queue_foldl]))); try clear_value x) | with_reducible assumption | (intro s x hw) | with_reducible apply FixedOk.foldl | with_reducible apply State.startDecision_ok | with_reducible apply State.yieldStop_ok | (split) | (simp [*, State.fixed_foldl, State.queue_foldl]; done) | split | simp only [State.fixed_foldl, State.fixed_update] | with_reducible refine (Result.keeps_next _ _).2 ⟨?_, ?_⟩)

@[simp ↓] theorem State.heartbeatEdge_fixed (s : State) : (s.heartbeatEdge).fixed = s.fixed := by
  simp [State.heartbeatEdge, State.fixed_foldl]

@[simp ↓] theorem State.edgeCounts_fixed (s : State) : (s.edgeCounts).fixed = s.fixed := by
  unfold State.edgeCounts
  repeat' (first | (extract_lets +onlyGivenNames x; (try (have hx : x.fixed = s.fixed := by (simp only [x]; (repeat' split) <;> simp [*, State.fixed_foldl]))); try clear_value x) | (split) | (simp [*, State.fixed_foldl]; done))

@[simp ↓] theorem State.edgeShow_fixed (s : State) (i : EdgeIn) : (s.edgeShow i).fixed = s.fixed := by
  unfold State.edgeShow
  repeat' (first | (extract_lets +onlyGivenNames x; (try (have hx : x.fixed = s.fixed := by (simp only [x]; (repeat' split) <;> simp [*, State.fixed_foldl]))); try clear_value x) | (split) | (simp [*, State.fixed_foldl]; done))

@[simp ↓] theorem State.tripSwapEdge_fixed (s : State) : (s.tripSwapEdge).fixed = s.fixed := by
  simp [State.tripSwapEdge, State.fixed_foldl]

@[simp ↓] theorem State.deferEdge_queue (s : State) : (s.deferEdge).fixed.1 = s.fixed.1 := by
  simp [State.deferEdge, State.fixed_foldl, State.queue_foldl]

@[simp ↓] theorem State.deferEdge_ok {s : State} (hw : FixedOk s.fixed) : FixedOk (s.deferEdge).fixed := by
  unfold State.deferEdge
  repeat' (first | (extract_lets +onlyGivenNames x; (try (have hx : FixedOk x.fixed := by (simp only [x]; repeat' (first | with_reducible assumption | (intro s x hw) | with_reducible apply FixedOk.foldl | with_reducible apply State.activate_ok | split | (simp [*, State.fixed_foldl, State.queue_foldl]; done) | split | simp only [State.fixed_foldl, State.fixed_update] | with_reducible refine (Result.keeps_next _ _).2 ⟨?_, ?_⟩)))); (try (have hq : x.fixed.1 = s.fixed.1 := by (simp only [x]; (repeat' split) <;> simp [*, State.fixed_foldl, State.queue_foldl]))); try clear_value x) | with_reducible assumption | (intro s x hw) | with_reducible apply FixedOk.foldl | with_reducible apply State.activate_ok | (split) | (simp [*, State.fixed_foldl, State.queue_foldl]; done) | split | simp only [State.fixed_foldl, State.fixed_update] | with_reducible refine (Result.keeps_next _ _).2 ⟨?_, ?_⟩)

@[simp ↓] theorem State.edgeFirst_queue (s : State) (i : EdgeIn) : (State.edgeFirst i s).fixed.1 = s.fixed.1 := by
  unfold State.edgeFirst
  repeat' (first | (extract_lets +onlyGivenNames x; (try (have hx : x.fixed.1 = s.fixed.1 := by (simp only [x]; (repeat' split) <;> simp [*, State.fixed_foldl, State.queue_foldl]))); try clear_value x) | (split) | (simp [*, State.fixed_foldl, State.queue_foldl]; done))

@[simp ↓] theorem State.edgeFirst_ok {s : State} (hw : FixedOk s.fixed) (i : EdgeIn) : FixedOk (State.edgeFirst i s).fixed := by
  unfold State.edgeFirst
  repeat' (first | (extract_lets +onlyGivenNames x; (try (have hx : FixedOk x.fixed := by (simp only [x]; repeat' (first | with_reducible assumption | (intro s x hw) | with_reducible apply FixedOk.foldl | with_reducible apply State.dioTick_ok | with_reducible apply State.loopTick_ok | with_reducible apply State.stopEdge_ok | with_reducible apply State.gwTick_ok | with_reducible apply State.gwSwap_ok | with_reducible apply State.twinAreaTick_ok | with_reducible apply State.tsetCheck_ok | with_reducible apply State.cycCommands_ok | with_reducible apply State.holdCheck_ok | with_reducible apply State.safeEdge_ok | with_reducible apply State.laneEdge_ok | with_reducible apply State.twinEdge_ok | with_reducible apply State.deferEdge_ok | split | (simp [*, State.fixed_foldl, State.queue_foldl]; done) | split | simp only [State.fixed_foldl, State.fixed_update] | with_reducible refine (Result.keeps_next _ _).2 ⟨?_, ?_⟩)))); (try (have hq : x.fixed.1 = s.fixed.1 := by (simp only [x]; (repeat' split) <;> simp [*, State.fixed_foldl, State.queue_foldl]))); try clear_value x) | with_reducible assumption | (intro s x hw) | with_reducible apply FixedOk.foldl | with_reducible apply State.dioTick_ok | with_reducible apply State.loopTick_ok | with_reducible apply State.stopEdge_ok | with_reducible apply State.gwTick_ok | with_reducible apply State.gwSwap_ok | with_reducible apply State.twinAreaTick_ok | with_reducible apply State.tsetCheck_ok | with_reducible apply State.cycCommands_ok | with_reducible apply State.holdCheck_ok | with_reducible apply State.safeEdge_ok | with_reducible apply State.laneEdge_ok | with_reducible apply State.twinEdge_ok | with_reducible apply State.deferEdge_ok | (split) | (simp [*, State.fixed_foldl, State.queue_foldl]; done) | split | simp only [State.fixed_foldl, State.fixed_update] | with_reducible refine (Result.keeps_next _ _).2 ⟨?_, ?_⟩)

@[simp ↓] theorem State.edgeCycle_queue (s : State) : (s.edgeCycle).fixed.1 = s.fixed.1 := by
  unfold State.edgeCycle
  repeat' (first | (extract_lets +onlyGivenNames x; (try (have hx : x.fixed.1 = s.fixed.1 := by (simp only [x]; (repeat' split) <;> simp [*, State.fixed_foldl, State.queue_foldl]))); try clear_value x) | (split) | (simp [*, State.fixed_foldl, State.queue_foldl]; done))

@[simp ↓] theorem State.edgeCycle_ok {s : State} (hw : FixedOk s.fixed) : FixedOk (s.edgeCycle).fixed := by
  unfold State.edgeCycle
  repeat' (first | (extract_lets +onlyGivenNames x; (try (have hx : FixedOk x.fixed := by (simp only [x]; repeat' (first | with_reducible assumption | (intro s x hw) | with_reducible apply FixedOk.foldl | with_reducible apply State.publishEdge_ok | with_reducible apply State.cycleEdge_ok | split | (simp [*, State.fixed_foldl, State.queue_foldl]; done) | split | simp only [State.fixed_foldl, State.fixed_update] | with_reducible refine (Result.keeps_next _ _).2 ⟨?_, ?_⟩)))); (try (have hq : x.fixed.1 = s.fixed.1 := by (simp only [x]; (repeat' split) <;> simp [*, State.fixed_foldl, State.queue_foldl]))); try clear_value x) | with_reducible assumption | (intro s x hw) | with_reducible apply FixedOk.foldl | with_reducible apply State.publishEdge_ok | with_reducible apply State.cycleEdge_ok | (split) | (simp [*, State.fixed_foldl, State.queue_foldl]; done) | split | simp only [State.fixed_foldl, State.fixed_update] | with_reducible refine (Result.keeps_next _ _).2 ⟨?_, ?_⟩)

@[simp ↓] theorem execLocalTickEdge_keeps {q} {s : State} (hq : s.fixed.1 = q) (hw : FixedOk s.fixed) (i : EdgeIn) :
    Result.keeps q (execLocalTickEdge i s) := by
  unfold execLocalTickEdge
  split
  · exact ⟨hq, hw⟩
  · extract_lets +onlyGivenNames src s1 out
    have q1 : s1.fixed.1 = q := by simp [s1, hq]
    have w1 : FixedOk s1.fixed := by simp [s1, hw]
    clear_value s1
    split
    rename_i s2 p1 e2
    have q2 : s2.fixed.1 = q := by rw [State.aside_queue e2 State.strobeEdge_queue]; simpa using q1
    have w2 : FixedOk s2.fixed := State.aside_ok e2 (by simpa using w1) (fun _ => State.strobeEdge_ok)
    extract_lets +onlyGivenNames s3
    have h3 : s3.fixed = s2.fixed := by simp [s3]
    clear_value s3
    split
    rename_i s4 p2 e4
    have q4 : s4.fixed.1 = q := by rw [State.aside_queue e4 (fun s => State.edgeFirst_queue s i), h3]; exact q2
    have w4 : FixedOk s4.fixed := State.aside_ok e4 (by rw [h3]; exact w2) (fun _ h => State.edgeFirst_ok h i)
    split
    · exact ⟨q4, w4⟩
    · extract_lets +onlyGivenNames s5 s6
      have q5 : s5.fixed.1 = q := by simp [s5, q4]
      have w5 : FixedOk s5.fixed := by
        simp only [s5, State.startCopies_fixed, State.requeue_fixed]
        exact State.edgeCycle_ok w4
      clear_value s5
      have q6 : s6.fixed.1 = q := by simp [s6, q5]
      have w6 : FixedOk s6.fixed := by
        simp only [s6, State.gptpEdge_fixed, State.pdPulls_fixed, State.mvbTick_fixed]
        exact State.mailboxEdge_ok (by simpa using w5) _
      clear_value s6
      apply State.resolveStores_keeps
      · split <;> simp [q6]
      · rw [State.showTime_fixed]
        split
        · exact w6
        · exact State.boundaryNow_ok w6

end Sys2Proof.Machine
end

