-- ==== Sys2Proof/WellFormed.lean ====
section
/-! DEFINITION. WellFormed.lean: which operands a command of the table can carry. A number that names one of a fixed set (a core, a
lane, an axis, a channel, a slot) lies in that set, and an access has a size the bus carries (R30, R67, R368). Values that the spec
names and refuses (a HART length of 0, a reset target that does not exist) are well formed: their command refuses them. -/
namespace Sys2Proof

/-- The operands of an output stage: a DIO channel, or a loop (R309, R328). -/
def OutStage.bounds : OutStage → List (Nat × Nat)
  | .driver ch => [(ch, 64)]
  | .regulator loop => [(loop, 4)]

/-- The addresses and transfer lengths of an access to a Rack bus window (R368). -/
def RackAcc.bounds : RackAcc → List (Nat × Nat)
  | .load addr _ => [(addr, 2 ^ 32)]
  | .store addr _ _ => [(addr, 2 ^ 32)]
  | .dmaRead addr _ => [(addr, 2 ^ 32)]
  | .dmaWrite addr _ => [(addr, 2 ^ 32)]

/-- A core's access is of 1, 2, 4 or 8 bytes (R368). -/
def RackAcc.sized : RackAcc → Bool
  | .load _ size => [1, 2, 4, 8].contains size
  | .store _ size _ => [1, 2, 4, 8].contains size
  | .dmaRead _ _ => true
  | .dmaWrite _ _ => true

/-- The axis of a step and direction consumer (R159). -/
def Consumer.bounds : Consumer → List (Nat × Nat)
  | .dio => []
  | .loop => []
  | .door => []
  | .trip => []
  | .safe => []
  | .axis entry => [(entry, 8)]

/-- What an edge samples: carriers of four loops, and sessions of the 128 (R335, R219). -/
def EdgeIn.bounds (x : EdgeIn) : List (Nat × Nat) := (x.carriers, 16) :: x.unitBad.map (fun n => (n, 128))

/-- The numbers among a command's operands, each with how many values it has. -/
def Instr.bounds : Instr → List (Nat × Nat)
  | .localTickEdge inputs => inputs.bounds
  | .laneTickBoundary _ => []
  | .streamAgeStale m => [(m, 512)]
  | .registerWrite _ _ _ _ _ => []
  | .popRead64 _ _ coreN _ => [(coreN, 3)]
  | .popReadLow _ _ coreN _ => [(coreN, 3)]
  | .popReadHigh _ _ coreN _ => [(coreN, 3)]
  | .popRead32 _ _ coreN _ => [(coreN, 3)]
  | .reggUnlock _ _ _ => []
  | .unlockExpiry _ => []
  | .reggStrobe _ _ => []
  | .cfgPassEnd _ => []
  | .cfgGraceEnd _ => []
  | .cycleStartInterrupt _ coreN => [(coreN, 3)]
  | .outputImageStore _ coreN off _ _ => [(coreN, 3), (off, 2 ^ 16)]
  | .triDeviceStore _ coreN _ _ _ => [(coreN, 3)]
  | .deviceStoreTimeout _ => []
  | .storeQueueResume _ coreN => [(coreN, 3)]
  | .tchkWrite _ _ coreN _ => [(coreN, 3)]
  | .cycDoneWrite _ coreN _ => [(coreN, 3)]
  | .coreFaultHalt _ coreN => [(coreN, 3)]
  | .eccCorrected => []
  | .windowTimeout _ => []
  | .voterDecision _ _ _ => []
  | .voterTestDue _ _ _ => []
  | .stateCopyComplete _ coreN _ => [(coreN, 3)]
  | .publicationComplete _ => []
  | .cycleOverrun _ => []
  | .cycleHang _ => []
  | .refreshTimeout _ who => who.bounds
  | .start _ _ => []
  | .stop _ _ => []
  | .hold _ _ => []
  | .resume _ _ => []
  | .step _ _ => []
  | .arm _ _ _ _ => []
  | .disarm _ _ => []
  | .forceBind _ _ _ _ => []
  | .forceRelease _ _ _ _ => []
  | .forceValueWrite _ _ _ _ => []
  | .feedbackDeadline _ _ _ _ => []
  | .feedbackFaultTimeout _ n => [(n, 96)]
  | .lockTimeout _ n => [(n, 96)]
  | .reopenDwellEnd _ n => [(n, 96)]
  | .accWinEnd _ n => [(n, 96)]
  | .envelopeUpdate _ n => [(n, 96)]
  | .holdMsEnd _ n => [(n, 96)]
  | .move _ slot => [(slot, 16)]
  | .replace _ slot => [(slot, 16)]
  | .gstart _ slot => [(slot, 16)]
  | .gstartInterp _ slot => [(slot, 16)]
  | .home _ slot => [(slot, 16)]
  | .motionStop _ slot => [(slot, 16)]
  | .take _ slot => [(slot, 16)]
  | .give _ slot => [(slot, 16)]
  | .limitTrip _ n => [(n, 96)]
  | .homeEdgeQualified _ n => [(n, 96)]
  | .homingTimeout _ n => [(n, 96)]
  | .tripEvaluation _ _ _ _ _ => []
  | .tripVoterTest _ _ _ _ _ => []
  | .tripSwap _ _ _ => []
  | .eventSpoke _ => []
  | .spokeRx _ lane _ _ => [(lane, 2)]
  | .sourceLoss _ src => [(src, 32)]
  | .resetRelease _ fn => [(fn, 32)]
  | .resetHighTooLong _ fn => [(fn, 32)]
  | .tripRestart _ _ _ => []
  | .safeTxBuild _ n _ => [(n, 128)]
  | .safeTelegramRx _ n _ _ => [(n, 128)]
  | .safeRxTimeout _ n => [(n, 128)]
  | .sessionOpen _ _ _ => []
  | .sessionClose _ _ _ => []
  | .crcData _ _ _ => []
  | .crcData64 _ _ _ => []
  | .job _ _ => []
  | .crcJobDone _ => []
  | .save _ _ _ => []
  | .load _ _ _ => []
  | .crcInit _ _ => []
  | .crcValWrite _ _ _ => []
  | .crcCfgWrite _ _ _ _ => []
  | .snoopFrameEnd _ _ _ _ _ => []
  | .frameForward _ lane _ _ _ _ => [(lane, 2)]
  | .laneLinkUp _ lane dn => [(lane, 2), (dn, 2)]
  | .laneLinkDown _ lane dn => [(lane, 2), (dn, 2)]
  | .preemptVerifyDone _ lane dn _ => [(lane, 2), (dn, 2)]
  | .scheduledFrameTx _ lane entry => [(lane, 2), (entry, 4096)]
  | .syncRx _ lane dn _ _ => [(lane, 2), (dn, 2)]
  | .coldstartRx _ lane dn _ _ => [(lane, 2), (dn, 2)]
  | .pdelayReq _ lane dn _ _ _ => [(lane, 2), (dn, 2)]
  | .pdelayResp _ lane dn _ _ _ _ => [(lane, 2), (dn, 2)]
  | .statusRx _ lane _ _ => [(lane, 2)]
  | .dataRx _ lane _ _ => [(lane, 2)]
  | .feedbackRx _ lane _ _ => [(lane, 2)]
  | .listenEnd _ lane => [(lane, 2)]
  | .contestWindowEnd _ lane => [(lane, 2)]
  | .syncLoss _ lane => [(lane, 2)]
  | .masterSilent _ lane => [(lane, 2)]
  | .announceCadence _ _ _ => []
  | .announceActivate _ _ _ => []
  | .cancel _ _ => []
  | .modeChangeDecision _ => []
  | .bankSwitch _ => []
  | .laneFreewheel _ => []
  | .ptpSyncRx _ port _ gm => [(port, 2), (gm, 2 ^ 64)]
  | .ptpAnnounceRx _ port _ => [(port, 2)]
  | .ptpReceiptTimeout _ port => [(port, 2)]
  | .consistHoldoverExpiry _ => []
  | .ecnLinkChange _ port speed _ role => [(port, 2), (speed, 4), (role, 4)]
  | .ecnFrameRx _ port _ _ => [(port, 2)]
  | .ecnTailWrite _ _ ring tail => [(ring, 9), (tail, 2 ^ 16)]
  | .ecnLaunch _ port q => [(port, 2), (q, 8)]
  | .pdPublish _ n => [(n, 512)]
  | .pdPullRequest _ comId => [(comId, 2 ^ 32)]
  | .pdTelegramRx _ n src msg comId seq etb optrn major _ _ => [(n, 512), (src, 2 ^ 32), (msg, 2 ^ 16), (comId, 2 ^ 32), (seq, 2 ^ 32), (etb, 2 ^ 32), (optrn, 2 ^ 32), (major, 256)]
  | .pdSubscriberTimeout _ n => [(n, 512)]
  | .captureEdge _ n => [(n, 16)]
  | .mvbSinkFrame _ n _ _ _ => [(n, 256)]
  | .mvbMasterFrame _ n => [(n, 256)]
  | .mvbStatusRequest _ => []
  | .mvbSinkStale n => [(n, 256)]
  | .mvbLineSwitch _ => []
  | .gwMapSwap _ _ _ => []
  | .mapScanDone _ => []
  | .gwEntryStale _ e => [(e, 4096)]
  | .inputFilteredEdge _ ch _ => [(ch, 64)]
  | .wettingEnd _ ch => [(ch, 64)]
  | .outputShort _ ch => [(ch, 64)]
  | .groupUvSet _ g => [(g, 8)]
  | .groupUvClear _ g => [(g, 8)]
  | .groupOvSet _ g => [(g, 8)]
  | .groupOvClear _ g => [(g, 8)]
  | .groupOvcSet _ g => [(g, 8)]
  | .groupOvcEnd _ g => [(g, 8)]
  | .readbackMismatch _ ch _ => [(ch, 64)]
  | .groupSwitchTest _ g _ => [(g, 8)]
  | .tripSilence _ => []
  | .driverRefreshLoss _ target => target.bounds
  | .darkTestStart _ ch => [(ch, 64)]
  | .lightTestStart _ ch => [(ch, 64)]
  | .testPulseEnd _ ch _ _ => [(ch, 64)]
  | .channelFaultClear _ ch => [(ch, 64)]
  | .loopFault _ c => [(c, 4)]
  | .loopRetry _ _ _ => []
  | .loopAutoRetry _ c => [(c, 4)]
  | .loopCompliance c _ => [(c, 4)]
  | .hartGo _ _ c len => [(c, 4), (len, 512)]
  | .hartFrameRx _ c _ _ => [(c, 4)]
  | .hartTimeout _ c => [(c, 4)]
  | .twinLinkUp _ => []
  | .twinLinkDown _ => []
  | .helloTx _ => []
  | .hello _ _ _ => []
  | .heartbeat _ _ _ => []
  | .claimExpiry _ => []
  | .claimWindowEnd _ => []
  | .takeover _ => []
  | .yield _ => []
  | .pannier _ _ _ => []
  | .image _ _ _ => []
  | .swap _ _ => []
  | .swapUnready _ _ => []
  | .swapTimeout _ => []
  | .rackOutboundAccess _ _ acc => acc.bounds
  | .rackStatusCycle _ win _ _ => [(win, 16)]
  | .rackRetryReissue _ win => [(win, 16)]
  | .rackResponse _ card pos tag _ _ _ _ => [(card, 9), (pos, 16), (tag, 128)]
  | .rackResponseTimeout _ tag => [(tag, 128)]
  | .rackInboundRequest _ pos tag cmd addr be _ _ _ => [(pos, 16), (tag, 128), (cmd, 16), (addr, 2 ^ 32), (be, 16)]
  | .rackInboundComplete _ pos tag _ => [(pos, 16), (tag, 128)]
  | .rackLockedSequence _ _ addr _ _ => [(addr, 2 ^ 64)]
  | .rackLockTimeout _ => []
  | .prefetchExpiry _ => []
  | .brgPfFlush _ _ _ => []
  | .clockMonitorWindow _ _ _ _ => []
  | .clockSourceDead _ src => [(src, 3)]
  | .qualifyTimeout _ src => [(src, 3)]
  | .doubtTimeout _ => []
  | .xobProofStart _ => []
  | .crystalRestart _ src => [(src, 3)]
  | .pllLossOfLock _ => []
  | .domainSwitchForced _ dom => [(dom, 7)]
  | .gearChangeDone _ _ => []
  | .gearChangeAbandon _ _ => []
  | .holdupEntry _ _ => []
  | .holdupExit _ _ => []
  | .stage1Entry _ _ => []
  | .stage2Entry _ _ => []
  | .stage3Entry _ _ => []
  | .stage4Entry _ _ => []
  | .stageLeave _ _ _ => []
  | .flushDeadline _ => []
  | .dormantExit => []
  | .railFault _ => []
  | .powerOnReset => []
  | .brownOutReset => []
  | .extReset _ => []
  | .watchdogExpiry _ _ => []
  | .sys _ _ => []
  | .core _ _ target => [(target, 8)]
  | .domain _ _ target => [(target, 8)]
  | .resetSequence _ _ => []
  | .wdgKick _ _ _ _ => []
  | .wdgCfgWrite _ _ _ _ => []
  | .tamperOpening _ => []
  | .bootChain _ _ _ _ _ _ _ _ _ => []
  | .slotIdRetry _ _ _ _ => []
  | .startScanDone _ => []
  | .lampTestEnd _ => []
  | .lockoutEdgeRelease _ => []
  | .envelopeSaveDue _ => []
  | .consistActivation _ => []
  | .deferTimeout _ => []
  | .vital _ _ => []
  | .service _ _ => []
  | .confirmWindowEnd _ => []
  | .info _ => []
  | .challenge _ => []
  | .login _ _ _ _ _ _ _ => []
  | .download _ _ _ _ _ => []
  | .read _ _ _ _ => []
  | .logout _ _ _ => []
  | .sessionExpiry _ => []
  | .enterService _ => []
  | .leaveService _ => []
  | .programStateOperation _ _ => []
  | .holdOperation _ => []
  | .forceOperation _ _ _ _ _ _ _ => []
  | .graft _ _ _ => []
  | .stage _ _ _ _ _ => []
  | .activate _ _ => []
  | .announce _ _ _ => []
  | .roleSwap _ _ => []
  | .lockoutReset _ => []
  | .tripRestartOperation _ _ => []
  | .clearOperation _ _ => []
  | .saveEnvelopes _ => []
  | .revoke _ _ _ _ _ => []
  | .setRtc _ _ _ => []
  | .updReqWrite _ _ _ _ _ => []
  | .recordWritten _ => []
  | .programRecord _ _ _ _ => []
  | .softwareRecord _ _ _ => []
  | .snapshotTrigger _ _ _ => []
  | .snapshotCaptureDone _ _ _ => []
  | .slotRead _ _ _ _ => []
  | .clear _ _ _ => []
  | .clearDone _ => []
  | .tableWindowWrite _ _ _ _ _ => []
  | .backupDomainLoss => []
  | .tamperLoopClosed => []
  | .retiredTagRelease _ tag => [(tag, 128)]
  | .pannierSent _ => []
  | .tracePacketSent => []
  | .macEntryAgeing _ mac => [(mac, 2 ^ 48)]

/-- Whether an access has a size that the bus carries; other commands have none. -/
def Instr.sized : Instr → Bool
  | .localTickEdge _ => true
  | .laneTickBoundary _ => true
  | .streamAgeStale _ => true
  | .registerWrite _ _ _ size _ => [1, 2, 4, 8].contains size
  | .popRead64 _ _ _ _ => true
  | .popReadLow _ _ _ _ => true
  | .popReadHigh _ _ _ _ => true
  | .popRead32 _ _ _ _ => true
  | .reggUnlock _ _ _ => true
  | .unlockExpiry _ => true
  | .reggStrobe _ _ => true
  | .cfgPassEnd _ => true
  | .cfgGraceEnd _ => true
  | .cycleStartInterrupt _ _ => true
  | .outputImageStore _ _ _ size _ => [1, 2, 4, 8].contains size
  | .triDeviceStore _ _ _ size _ => [1, 2, 4, 8].contains size
  | .deviceStoreTimeout _ => true
  | .storeQueueResume _ _ => true
  | .tchkWrite _ _ _ _ => true
  | .cycDoneWrite _ _ _ => true
  | .coreFaultHalt _ _ => true
  | .eccCorrected => true
  | .windowTimeout _ => true
  | .voterDecision _ _ _ => true
  | .voterTestDue _ _ _ => true
  | .stateCopyComplete _ _ _ => true
  | .publicationComplete _ => true
  | .cycleOverrun _ => true
  | .cycleHang _ => true
  | .refreshTimeout _ _ => true
  | .start _ _ => true
  | .stop _ _ => true
  | .hold _ _ => true
  | .resume _ _ => true
  | .step _ _ => true
  | .arm _ _ _ _ => true
  | .disarm _ _ => true
  | .forceBind _ _ _ _ => true
  | .forceRelease _ _ _ _ => true
  | .forceValueWrite _ _ _ _ => true
  | .feedbackDeadline _ _ _ _ => true
  | .feedbackFaultTimeout _ _ => true
  | .lockTimeout _ _ => true
  | .reopenDwellEnd _ _ => true
  | .accWinEnd _ _ => true
  | .envelopeUpdate _ _ => true
  | .holdMsEnd _ _ => true
  | .move _ _ => true
  | .replace _ _ => true
  | .gstart _ _ => true
  | .gstartInterp _ _ => true
  | .home _ _ => true
  | .motionStop _ _ => true
  | .take _ _ => true
  | .give _ _ => true
  | .limitTrip _ _ => true
  | .homeEdgeQualified _ _ => true
  | .homingTimeout _ _ => true
  | .tripEvaluation _ _ _ _ _ => true
  | .tripVoterTest _ _ _ _ _ => true
  | .tripSwap _ _ _ => true
  | .eventSpoke _ => true
  | .spokeRx _ _ _ _ => true
  | .sourceLoss _ _ => true
  | .resetRelease _ _ => true
  | .resetHighTooLong _ _ => true
  | .tripRestart _ _ _ => true
  | .safeTxBuild _ _ _ => true
  | .safeTelegramRx _ _ _ _ => true
  | .safeRxTimeout _ _ => true
  | .sessionOpen _ _ _ => true
  | .sessionClose _ _ _ => true
  | .crcData _ _ _ => true
  | .crcData64 _ _ _ => true
  | .job _ _ => true
  | .crcJobDone _ => true
  | .save _ _ _ => true
  | .load _ _ _ => true
  | .crcInit _ _ => true
  | .crcValWrite _ _ _ => true
  | .crcCfgWrite _ _ _ _ => true
  | .snoopFrameEnd _ _ _ _ _ => true
  | .frameForward _ _ _ _ _ _ => true
  | .laneLinkUp _ _ _ => true
  | .laneLinkDown _ _ _ => true
  | .preemptVerifyDone _ _ _ _ => true
  | .scheduledFrameTx _ _ _ => true
  | .syncRx _ _ _ _ _ => true
  | .coldstartRx _ _ _ _ _ => true
  | .pdelayReq _ _ _ _ _ _ => true
  | .pdelayResp _ _ _ _ _ _ _ => true
  | .statusRx _ _ _ _ => true
  | .dataRx _ _ _ _ => true
  | .feedbackRx _ _ _ _ => true
  | .listenEnd _ _ => true
  | .contestWindowEnd _ _ => true
  | .syncLoss _ _ => true
  | .masterSilent _ _ => true
  | .announceCadence _ _ _ => true
  | .announceActivate _ _ _ => true
  | .cancel _ _ => true
  | .modeChangeDecision _ => true
  | .bankSwitch _ => true
  | .laneFreewheel _ => true
  | .ptpSyncRx _ _ _ _ => true
  | .ptpAnnounceRx _ _ _ => true
  | .ptpReceiptTimeout _ _ => true
  | .consistHoldoverExpiry _ => true
  | .ecnLinkChange _ _ _ _ _ => true
  | .ecnFrameRx _ _ _ _ => true
  | .ecnTailWrite _ _ _ _ => true
  | .ecnLaunch _ _ _ => true
  | .pdPublish _ _ => true
  | .pdPullRequest _ _ => true
  | .pdTelegramRx _ _ _ _ _ _ _ _ _ _ _ => true
  | .pdSubscriberTimeout _ _ => true
  | .captureEdge _ _ => true
  | .mvbSinkFrame _ _ _ _ _ => true
  | .mvbMasterFrame _ _ => true
  | .mvbStatusRequest _ => true
  | .mvbSinkStale _ => true
  | .mvbLineSwitch _ => true
  | .gwMapSwap _ _ _ => true
  | .mapScanDone _ => true
  | .gwEntryStale _ _ => true
  | .inputFilteredEdge _ _ _ => true
  | .wettingEnd _ _ => true
  | .outputShort _ _ => true
  | .groupUvSet _ _ => true
  | .groupUvClear _ _ => true
  | .groupOvSet _ _ => true
  | .groupOvClear _ _ => true
  | .groupOvcSet _ _ => true
  | .groupOvcEnd _ _ => true
  | .readbackMismatch _ _ _ => true
  | .groupSwitchTest _ _ _ => true
  | .tripSilence _ => true
  | .driverRefreshLoss _ _ => true
  | .darkTestStart _ _ => true
  | .lightTestStart _ _ => true
  | .testPulseEnd _ _ _ _ => true
  | .channelFaultClear _ _ => true
  | .loopFault _ _ => true
  | .loopRetry _ _ _ => true
  | .loopAutoRetry _ _ => true
  | .loopCompliance _ _ => true
  | .hartGo _ _ _ _ => true
  | .hartFrameRx _ _ _ _ => true
  | .hartTimeout _ _ => true
  | .twinLinkUp _ => true
  | .twinLinkDown _ => true
  | .helloTx _ => true
  | .hello _ _ _ => true
  | .heartbeat _ _ _ => true
  | .claimExpiry _ => true
  | .claimWindowEnd _ => true
  | .takeover _ => true
  | .yield _ => true
  | .pannier _ _ _ => true
  | .image _ _ _ => true
  | .swap _ _ => true
  | .swapUnready _ _ => true
  | .swapTimeout _ => true
  | .rackOutboundAccess _ _ acc => acc.sized
  | .rackStatusCycle _ _ _ _ => true
  | .rackRetryReissue _ _ => true
  | .rackResponse _ _ _ _ _ _ _ _ => true
  | .rackResponseTimeout _ _ => true
  | .rackInboundRequest _ _ _ _ _ _ _ _ _ => true
  | .rackInboundComplete _ _ _ _ => true
  | .rackLockedSequence _ _ _ size _ => [4, 8].contains size
  | .rackLockTimeout _ => true
  | .prefetchExpiry _ => true
  | .brgPfFlush _ _ _ => true
  | .clockMonitorWindow _ _ _ _ => true
  | .clockSourceDead _ _ => true
  | .qualifyTimeout _ _ => true
  | .doubtTimeout _ => true
  | .xobProofStart _ => true
  | .crystalRestart _ _ => true
  | .pllLossOfLock _ => true
  | .domainSwitchForced _ _ => true
  | .gearChangeDone _ _ => true
  | .gearChangeAbandon _ _ => true
  | .holdupEntry _ _ => true
  | .holdupExit _ _ => true
  | .stage1Entry _ _ => true
  | .stage2Entry _ _ => true
  | .stage3Entry _ _ => true
  | .stage4Entry _ _ => true
  | .stageLeave _ _ _ => true
  | .flushDeadline _ => true
  | .dormantExit => true
  | .railFault _ => true
  | .powerOnReset => true
  | .brownOutReset => true
  | .extReset _ => true
  | .watchdogExpiry _ _ => true
  | .sys _ _ => true
  | .core _ _ _ => true
  | .domain _ _ _ => true
  | .resetSequence _ _ => true
  | .wdgKick _ _ _ _ => true
  | .wdgCfgWrite _ _ _ _ => true
  | .tamperOpening _ => true
  | .bootChain _ _ _ _ _ _ _ _ _ => true
  | .slotIdRetry _ _ _ _ => true
  | .startScanDone _ => true
  | .lampTestEnd _ => true
  | .lockoutEdgeRelease _ => true
  | .envelopeSaveDue _ => true
  | .consistActivation _ => true
  | .deferTimeout _ => true
  | .vital _ _ => true
  | .service _ _ => true
  | .confirmWindowEnd _ => true
  | .info _ => true
  | .challenge _ => true
  | .login _ _ _ _ _ _ _ => true
  | .download _ _ _ _ _ => true
  | .read _ _ _ _ => true
  | .logout _ _ _ => true
  | .sessionExpiry _ => true
  | .enterService _ => true
  | .leaveService _ => true
  | .programStateOperation _ _ => true
  | .holdOperation _ => true
  | .forceOperation _ _ _ _ _ _ _ => true
  | .graft _ _ _ => true
  | .stage _ _ _ _ _ => true
  | .activate _ _ => true
  | .announce _ _ _ => true
  | .roleSwap _ _ => true
  | .lockoutReset _ => true
  | .tripRestartOperation _ _ => true
  | .clearOperation _ _ => true
  | .saveEnvelopes _ => true
  | .revoke _ _ _ _ _ => true
  | .setRtc _ _ _ => true
  | .updReqWrite _ _ _ _ _ => true
  | .recordWritten _ => true
  | .programRecord _ _ _ _ => true
  | .softwareRecord _ _ _ => true
  | .snapshotTrigger _ _ _ => true
  | .snapshotCaptureDone _ _ _ => true
  | .slotRead _ _ _ _ => true
  | .clear _ _ _ => true
  | .clearDone _ => true
  | .tableWindowWrite _ _ _ size _ => [1, 2, 4, 8].contains size
  | .backupDomainLoss => true
  | .tamperLoopClosed => true
  | .retiredTagRelease _ _ => true
  | .pannierSent _ => true
  | .tracePacketSent => true
  | .macEntryAgeing _ _ => true

/-- A well-formed command. -/
def Instr.wellFormed (i : Instr) : Bool := i.sized && i.bounds.all (fun p => p.1 < p.2)

end Sys2Proof
end

