-- ==== Sys2Proof/Laws/PerInstr.lean ====
section
/-! SUPPORT. Laws/PerInstr.lean: one statement about every command as syntax: well-formedness bounds every numbered operand and
fixes the access size, and nothing else is needed for it. -/
namespace Sys2Proof.Laws.Operands

/-- A command is well formed exactly where its access size is one the bus carries and each numbered operand lies in its set. -/
def Statement (i : Instr) : Prop := i.wellFormed = true ↔ i.sized = true ∧ ∀ p ∈ i.bounds, p.1 < p.2

theorem of_any (i : Instr) : Statement i := by
  simp [Statement, Instr.wellFormed]

theorem localTickEdge (inputs : EdgeIn) : Statement (.localTickEdge inputs) := of_any _
theorem laneTickBoundary (t : Nat) : Statement (.laneTickBoundary t) := of_any _
theorem streamAgeStale (m : Nat) : Statement (.streamAgeStale m) := of_any _
theorem registerWrite (t : Nat) (who : Initiator) (addr : BitVec 64) (size : Nat) (data : BitVec 64) : Statement (.registerWrite t who addr size data) := of_any _
theorem popRead64 (t : Nat) (who : Initiator) (core : Nat) (win : BitVec 64) : Statement (.popRead64 t who core win) := of_any _
theorem popReadLow (t : Nat) (who : Initiator) (core : Nat) (win : BitVec 64) : Statement (.popReadLow t who core win) := of_any _
theorem popReadHigh (t : Nat) (who : Initiator) (core : Nat) (win : BitVec 64) : Statement (.popReadHigh t who core win) := of_any _
theorem popRead32 (t : Nat) (who : Initiator) (core : Nat) (win : BitVec 64) : Statement (.popRead32 t who core win) := of_any _
theorem reggUnlock (who : Initiator) (key : BitVec 16) (block : BitVec 5) : Statement (.reggUnlock who key block) := of_any _
theorem unlockExpiry (who : Initiator) : Statement (.unlockExpiry who) := of_any _
theorem reggStrobe (who : Initiator) (groups : BitVec 16) : Statement (.reggStrobe who groups) := of_any _
theorem cfgPassEnd (t : Nat) : Statement (.cfgPassEnd t) := of_any _
theorem cfgGraceEnd (t : Nat) : Statement (.cfgGraceEnd t) := of_any _
theorem cycleStartInterrupt (t : Nat) (core : Nat) : Statement (.cycleStartInterrupt t core) := of_any _
theorem outputImageStore (t : Nat) (core : Nat) (off : Nat) (size : Nat) (data : BitVec 64) : Statement (.outputImageStore t core off size data) := of_any _
theorem triDeviceStore (t : Nat) (core : Nat) (addr : BitVec 64) (size : Nat) (data : BitVec 64) : Statement (.triDeviceStore t core addr size data) := of_any _
theorem deviceStoreTimeout (t : Nat) : Statement (.deviceStoreTimeout t) := of_any _
theorem storeQueueResume (t : Nat) (core : Nat) : Statement (.storeQueueResume t core) := of_any _
theorem tchkWrite (t : Nat) (who : Initiator) (core : Nat) (acc : CsrAcc) : Statement (.tchkWrite t who core acc) := of_any _
theorem cycDoneWrite (t : Nat) (core : Nat) (value : BitVec 32) : Statement (.cycDoneWrite t core value) := of_any _
theorem coreFaultHalt (t : Nat) (core : Nat) : Statement (.coreFaultHalt t core) := of_any _
theorem eccCorrected : Statement (.eccCorrected) := of_any _
theorem windowTimeout (t : Nat) : Statement (.windowTimeout t) := of_any _
theorem voterDecision (t : Nat) (fa : BitVec 3) (fb : BitVec 3) : Statement (.voterDecision t fa fb) := of_any _
theorem voterTestDue (t : Nat) (fa : BitVec 3) (fb : BitVec 3) : Statement (.voterTestDue t fa fb) := of_any _
theorem stateCopyComplete (t : Nat) (core : Nat) (ok : Bool) : Statement (.stateCopyComplete t core ok) := of_any _
theorem publicationComplete (t : Nat) : Statement (.publicationComplete t) := of_any _
theorem cycleOverrun (t : Nat) : Statement (.cycleOverrun t) := of_any _
theorem cycleHang (t : Nat) : Statement (.cycleHang t) := of_any _
theorem refreshTimeout (t : Nat) (who : Consumer) : Statement (.refreshTimeout t who) := of_any _
theorem start (t : Nat) (who : Initiator) : Statement (.start t who) := of_any _
theorem stop (t : Nat) (who : Initiator) : Statement (.stop t who) := of_any _
theorem hold (t : Nat) (who : Initiator) : Statement (.hold t who) := of_any _
theorem resume (t : Nat) (who : Initiator) : Statement (.resume t who) := of_any _
theorem step (t : Nat) (who : Initiator) : Statement (.step t who) := of_any _
theorem arm (t : Nat) (who : Initiator) (id : BitVec 64) (bindings : List Bind) : Statement (.arm t who id bindings) := of_any _
theorem disarm (t : Nat) (who : Initiator) : Statement (.disarm t who) := of_any _
theorem forceBind (t : Nat) (who : Initiator) (entry : BitVec 8) (ctrl : BitVec 32) : Statement (.forceBind t who entry ctrl) := of_any _
theorem forceRelease (t : Nat) (who : Initiator) (entry : BitVec 8) (ctrl : BitVec 32) : Statement (.forceRelease t who entry ctrl) := of_any _
theorem forceValueWrite (t : Nat) (who : Initiator) (entry : BitVec 8) (value : BitVec 64) : Statement (.forceValueWrite t who entry value) := of_any _
theorem feedbackDeadline (t : Nat) (mismatch : Bool) (dur : Nat) (plan : Nat) : Statement (.feedbackDeadline t mismatch dur plan) := of_any _
theorem feedbackFaultTimeout (t : Nat) (n : Nat) : Statement (.feedbackFaultTimeout t n) := of_any _
theorem lockTimeout (t : Nat) (n : Nat) : Statement (.lockTimeout t n) := of_any _
theorem reopenDwellEnd (t : Nat) (n : Nat) : Statement (.reopenDwellEnd t n) := of_any _
theorem accWinEnd (t : Nat) (n : Nat) : Statement (.accWinEnd t n) := of_any _
theorem envelopeUpdate (t : Nat) (n : Nat) : Statement (.envelopeUpdate t n) := of_any _
theorem holdMsEnd (t : Nat) (n : Nat) : Statement (.holdMsEnd t n) := of_any _
theorem move (t : Nat) (slot : Nat) : Statement (.move t slot) := of_any _
theorem replace (t : Nat) (slot : Nat) : Statement (.replace t slot) := of_any _
theorem gstart (t : Nat) (slot : Nat) : Statement (.gstart t slot) := of_any _
theorem gstartInterp (t : Nat) (slot : Nat) : Statement (.gstartInterp t slot) := of_any _
theorem home (t : Nat) (slot : Nat) : Statement (.home t slot) := of_any _
theorem motionStop (t : Nat) (slot : Nat) : Statement (.motionStop t slot) := of_any _
theorem take (t : Nat) (slot : Nat) : Statement (.take t slot) := of_any _
theorem give (t : Nat) (slot : Nat) : Statement (.give t slot) := of_any _
theorem limitTrip (t : Nat) (n : Nat) : Statement (.limitTrip t n) := of_any _
theorem homeEdgeQualified (t : Nat) (n : Nat) : Statement (.homeEdgeQualified t n) := of_any _
theorem homingTimeout (t : Nat) (n : Nat) : Statement (.homingTimeout t n) := of_any _
theorem tripEvaluation (t : Nat) (f0 : BitVec 512) (f1 : BitVec 512) (f2 : BitVec 512) (xfail : Bool) : Statement (.tripEvaluation t f0 f1 f2 xfail) := of_any _
theorem tripVoterTest (t : Nat) (f0 : BitVec 512) (f1 : BitVec 512) (f2 : BitVec 512) (xfail : Bool) : Statement (.tripVoterTest t f0 f1 f2 xfail) := of_any _
theorem tripSwap (t : Nat) (who : Initiator) (bank : Bool) : Statement (.tripSwap t who bank) := of_any _
theorem eventSpoke (t : Nat) : Statement (.eventSpoke t) := of_any _
theorem spokeRx (t : Nat) (lane : Nat) (frame : List Byte) (fcs : Bool) : Statement (.spokeRx t lane frame fcs) := of_any _
theorem sourceLoss (t : Nat) (src : Nat) : Statement (.sourceLoss t src) := of_any _
theorem resetRelease (t : Nat) (fn : Nat) : Statement (.resetRelease t fn) := of_any _
theorem resetHighTooLong (t : Nat) (fn : Nat) : Statement (.resetHighTooLong t fn) := of_any _
theorem tripRestart (t : Nat) (who : Initiator) (fn : BitVec 5) : Statement (.tripRestart t who fn) := of_any _
theorem safeTxBuild (t : Nat) (n : Nat) (unit : Bool) : Statement (.safeTxBuild t n unit) := of_any _
theorem safeTelegramRx (t : Nat) (n : Nat) (telegram : List Byte) (unit : Bool) : Statement (.safeTelegramRx t n telegram unit) := of_any _
theorem safeRxTimeout (t : Nat) (n : Nat) : Statement (.safeRxTimeout t n) := of_any _
theorem sessionOpen (t : Nat) (who : Initiator) (n : BitVec 7) : Statement (.sessionOpen t who n) := of_any _
theorem sessionClose (t : Nat) (who : Initiator) (n : BitVec 7) : Statement (.sessionClose t who n) := of_any _
theorem crcData (who : Initiator) (e : BitVec 3) (data : BitVec 32) : Statement (.crcData who e data) := of_any _
theorem crcData64 (who : Initiator) (e : BitVec 3) (data : BitVec 64) : Statement (.crcData64 who e data) := of_any _
theorem job (who : Initiator) (e : BitVec 3) : Statement (.job who e) := of_any _
theorem crcJobDone (e : BitVec 3) : Statement (.crcJobDone e) := of_any _
theorem save (who : Initiator) (e : BitVec 3) (k : BitVec 7) : Statement (.save who e k) := of_any _
theorem load (who : Initiator) (e : BitVec 3) (k : BitVec 7) : Statement (.load who e k) := of_any _
theorem crcInit (who : Initiator) (e : BitVec 3) : Statement (.crcInit who e) := of_any _
theorem crcValWrite (who : Initiator) (e : BitVec 3) (val : BitVec 64) : Statement (.crcValWrite who e val) := of_any _
theorem crcCfgWrite (who : Initiator) (e : BitVec 3) (cfg : BitVec 32) (folded : Nat) : Statement (.crcCfgWrite who e cfg folded) := of_any _
theorem snoopFrameEnd (e : BitVec 3) (key : BitVec 16) (data : List Byte) (addr : BitVec 64) (fcs : Bool) : Statement (.snoopFrameEnd e key data addr fcs) := of_any _
theorem frameForward (t : Nat) (lane : Nat) (fromDn : Bool) (frame : List Byte) (residence : Nat) (fcs : Bool) : Statement (.frameForward t lane fromDn frame residence fcs) := of_any _
theorem laneLinkUp (t : Nat) (lane : Nat) (dn : Nat) : Statement (.laneLinkUp t lane dn) := of_any _
theorem laneLinkDown (t : Nat) (lane : Nat) (dn : Nat) : Statement (.laneLinkDown t lane dn) := of_any _
theorem preemptVerifyDone (t : Nat) (lane : Nat) (dn : Nat) (ok : Bool) : Statement (.preemptVerifyDone t lane dn ok) := of_any _
theorem scheduledFrameTx (t : Nat) (lane : Nat) (entry : Nat) : Statement (.scheduledFrameTx t lane entry) := of_any _
theorem syncRx (t : Nat) (lane : Nat) (dn : Nat) (frame : List Byte) (fcs : Bool) : Statement (.syncRx t lane dn frame fcs) := of_any _
theorem coldstartRx (t : Nat) (lane : Nat) (dn : Nat) (frame : List Byte) (fcs : Bool) : Statement (.coldstartRx t lane dn frame fcs) := of_any _
theorem pdelayReq (t : Nat) (lane : Nat) (dn : Nat) (frame : List Byte) (fcs : Bool) (turn : Nat) : Statement (.pdelayReq t lane dn frame fcs turn) := of_any _
theorem pdelayResp (t : Nat) (lane : Nat) (dn : Nat) (t1 : Nat) (t4 : Nat) (frame : List Byte) (fcs : Bool) : Statement (.pdelayResp t lane dn t1 t4 frame fcs) := of_any _
theorem statusRx (t : Nat) (lane : Nat) (frame : List Byte) (fcs : Bool) : Statement (.statusRx t lane frame fcs) := of_any _
theorem dataRx (t : Nat) (lane : Nat) (frame : List Byte) (fcs : Bool) : Statement (.dataRx t lane frame fcs) := of_any _
theorem feedbackRx (t : Nat) (lane : Nat) (frame : List Byte) (fcs : Bool) : Statement (.feedbackRx t lane frame fcs) := of_any _
theorem listenEnd (t : Nat) (lane : Nat) : Statement (.listenEnd t lane) := of_any _
theorem contestWindowEnd (t : Nat) (lane : Nat) : Statement (.contestWindowEnd t lane) := of_any _
theorem syncLoss (t : Nat) (lane : Nat) : Statement (.syncLoss t lane) := of_any _
theorem masterSilent (t : Nat) (lane : Nat) : Statement (.masterSilent t lane) := of_any _
theorem announceCadence (t : Nat) (who : Initiator) (cid : BitVec 16) : Statement (.announceCadence t who cid) := of_any _
theorem announceActivate (t : Nat) (who : Initiator) (cid : BitVec 16) : Statement (.announceActivate t who cid) := of_any _
theorem cancel (t : Nat) (who : Initiator) : Statement (.cancel t who) := of_any _
theorem modeChangeDecision (t : Nat) : Statement (.modeChangeDecision t) := of_any _
theorem bankSwitch (t : Nat) : Statement (.bankSwitch t) := of_any _
theorem laneFreewheel (t : Nat) : Statement (.laneFreewheel t) := of_any _
theorem ptpSyncRx (t : Nat) (port : Nat) (domain : BitVec 8) (gm : Nat) : Statement (.ptpSyncRx t port domain gm) := of_any _
theorem ptpAnnounceRx (t : Nat) (port : Nat) (ann : PtpAnnounce) : Statement (.ptpAnnounceRx t port ann) := of_any _
theorem ptpReceiptTimeout (t : Nat) (port : Nat) : Statement (.ptpReceiptTimeout t port) := of_any _
theorem consistHoldoverExpiry (t : Nat) : Statement (.consistHoldoverExpiry t) := of_any _
theorem ecnLinkChange (t : Nat) (port : Nat) (speed : Nat) (asCapable : Bool) (role : Nat) : Statement (.ecnLinkChange t port speed asCapable role) := of_any _
theorem ecnFrameRx (t : Nat) (port : Nat) (frame : List Byte) (fcs : Bool) : Statement (.ecnFrameRx t port frame fcs) := of_any _
theorem ecnTailWrite (t : Nat) (who : Initiator) (ring : Nat) (tail : Nat) : Statement (.ecnTailWrite t who ring tail) := of_any _
theorem ecnLaunch (t : Nat) (port : Nat) (q : Nat) : Statement (.ecnLaunch t port q) := of_any _
theorem pdPublish (t : Nat) (n : Nat) : Statement (.pdPublish t n) := of_any _
theorem pdPullRequest (t : Nat) (comId : Nat) : Statement (.pdPullRequest t comId) := of_any _
theorem pdTelegramRx (t : Nat) (n : Nat) (src : Nat) (msg : Nat) (comId : Nat) (seq : Nat) (etb : Nat) (optrn : Nat) (major : Nat) (fcs : Bool) (dataset : List Byte) : Statement (.pdTelegramRx t n src msg comId seq etb optrn major fcs dataset) := of_any _
theorem pdSubscriberTimeout (t : Nat) (n : Nat) : Statement (.pdSubscriberTimeout t n) := of_any _
theorem captureEdge (t : Nat) (n : Nat) : Statement (.captureEdge t n) := of_any _
theorem mvbSinkFrame (t : Nat) (n : Nat) (data : List Byte) (okA : Bool) (okB : Bool) : Statement (.mvbSinkFrame t n data okA okB) := of_any _
theorem mvbMasterFrame (t : Nat) (n : Nat) : Statement (.mvbMasterFrame t n) := of_any _
theorem mvbStatusRequest (t : Nat) : Statement (.mvbStatusRequest t) := of_any _
theorem mvbSinkStale (n : Nat) : Statement (.mvbSinkStale n) := of_any _
theorem mvbLineSwitch (toB : Bool) : Statement (.mvbLineSwitch toB) := of_any _
theorem gwMapSwap (t : Nat) (who : Initiator) (bank : Bool) : Statement (.gwMapSwap t who bank) := of_any _
theorem mapScanDone (t : Nat) : Statement (.mapScanDone t) := of_any _
theorem gwEntryStale (t : Nat) (e : Nat) : Statement (.gwEntryStale t e) := of_any _
theorem inputFilteredEdge (t : Nat) (ch : Nat) (level : Bool) : Statement (.inputFilteredEdge t ch level) := of_any _
theorem wettingEnd (t : Nat) (ch : Nat) : Statement (.wettingEnd t ch) := of_any _
theorem outputShort (t : Nat) (ch : Nat) : Statement (.outputShort t ch) := of_any _
theorem groupUvSet (t : Nat) (g : Nat) : Statement (.groupUvSet t g) := of_any _
theorem groupUvClear (t : Nat) (g : Nat) : Statement (.groupUvClear t g) := of_any _
theorem groupOvSet (t : Nat) (g : Nat) : Statement (.groupOvSet t g) := of_any _
theorem groupOvClear (t : Nat) (g : Nat) : Statement (.groupOvClear t g) := of_any _
theorem groupOvcSet (t : Nat) (g : Nat) : Statement (.groupOvcSet t g) := of_any _
theorem groupOvcEnd (t : Nat) (g : Nat) : Statement (.groupOvcEnd t g) := of_any _
theorem readbackMismatch (t : Nat) (ch : Nat) (level : Bool) : Statement (.readbackMismatch t ch level) := of_any _
theorem groupSwitchTest (t : Nat) (g : Nat) (fell : Bool) : Statement (.groupSwitchTest t g fell) := of_any _
theorem tripSilence (t : Nat) : Statement (.tripSilence t) := of_any _
theorem driverRefreshLoss (t : Nat) (target : OutStage) : Statement (.driverRefreshLoss t target) := of_any _
theorem darkTestStart (t : Nat) (ch : Nat) : Statement (.darkTestStart t ch) := of_any _
theorem lightTestStart (t : Nat) (ch : Nat) : Statement (.lightTestStart t ch) := of_any _
theorem testPulseEnd (t : Nat) (ch : Nat) (a : Bool) (b : Bool) : Statement (.testPulseEnd t ch a b) := of_any _
theorem channelFaultClear (t : Nat) (ch : Nat) : Statement (.channelFaultClear t ch) := of_any _
theorem loopFault (t : Nat) (c : Nat) : Statement (.loopFault t c) := of_any _
theorem loopRetry (t : Nat) (who : Initiator) (mask : BitVec 4) : Statement (.loopRetry t who mask) := of_any _
theorem loopAutoRetry (t : Nat) (c : Nat) : Statement (.loopAutoRetry t c) := of_any _
theorem loopCompliance (c : Nat) (sat : Bool) : Statement (.loopCompliance c sat) := of_any _
theorem hartGo (t : Nat) (who : Initiator) (c : Nat) (len : Nat) : Statement (.hartGo t who c len) := of_any _
theorem hartFrameRx (t : Nat) (c : Nat) (frame : List (Byte × Bool)) (burst : Bool) : Statement (.hartFrameRx t c frame burst) := of_any _
theorem hartTimeout (t : Nat) (c : Nat) : Statement (.hartTimeout t c) := of_any _
theorem twinLinkUp (t : Nat) : Statement (.twinLinkUp t) := of_any _
theorem twinLinkDown (t : Nat) : Statement (.twinLinkDown t) := of_any _
theorem helloTx (t : Nat) : Statement (.helloTx t) := of_any _
theorem hello (t : Nat) (frame : List Byte) (crc : Bool) : Statement (.hello t frame crc) := of_any _
theorem heartbeat (t : Nat) (frame : List Byte) (crc : Bool) : Statement (.heartbeat t frame crc) := of_any _
theorem claimExpiry (t : Nat) : Statement (.claimExpiry t) := of_any _
theorem claimWindowEnd (t : Nat) : Statement (.claimWindowEnd t) := of_any _
theorem takeover (t : Nat) : Statement (.takeover t) := of_any _
theorem yield (t : Nat) : Statement (.yield t) := of_any _
theorem pannier (t : Nat) (frame : List Byte) (crc : Bool) : Statement (.pannier t frame crc) := of_any _
theorem image (t : Nat) (frame : List Byte) (crc : Bool) : Statement (.image t frame crc) := of_any _
theorem swap (t : Nat) (who : Initiator) : Statement (.swap t who) := of_any _
theorem swapUnready (t : Nat) (who : Initiator) : Statement (.swapUnready t who) := of_any _
theorem swapTimeout (t : Nat) : Statement (.swapTimeout t) := of_any _
theorem rackOutboundAccess (t : Nat) (who : Initiator) (acc : RackAcc) : Statement (.rackOutboundAccess t who acc) := of_any _
theorem rackStatusCycle (t : Nat) (win : Nat) (status : RackStatus) (reqs : BitVec 8) : Statement (.rackStatusCycle t win status reqs) := of_any _
theorem rackRetryReissue (t : Nat) (win : Nat) : Statement (.rackRetryReissue t win) := of_any _
theorem rackResponse (t : Nat) (card : Nat) (pos : Nat) (tag : Nat) (err : Bool) (par : Bool) (beats : List (BitVec 32)) (reqs : BitVec 8) : Statement (.rackResponse t card pos tag err par beats reqs) := of_any _
theorem rackResponseTimeout (t : Nat) (tag : Nat) : Statement (.rackResponseTimeout t tag) := of_any _
theorem rackInboundRequest (t : Nat) (pos : Nat) (tag : Nat) (cmd : Nat) (addr : Nat) (be : Nat) (data : List (BitVec 32)) (par : Bool) (reqs : BitVec 8) : Statement (.rackInboundRequest t pos tag cmd addr be data par reqs) := of_any _
theorem rackInboundComplete (t : Nat) (pos : Nat) (tag : Nat) (reqs : BitVec 8) : Statement (.rackInboundComplete t pos tag reqs) := of_any _
theorem rackLockedSequence (t : Nat) (who : Initiator) (addr : Nat) (size : Nat) (acc : LockAcc) : Statement (.rackLockedSequence t who addr size acc) := of_any _
theorem rackLockTimeout (t : Nat) : Statement (.rackLockTimeout t) := of_any _
theorem prefetchExpiry (t : Nat) : Statement (.prefetchExpiry t) := of_any _
theorem brgPfFlush (t : Nat) (who : Initiator) (flush : Bool) : Statement (.brgPfFlush t who flush) := of_any _
theorem clockMonitorWindow (t : Nat) (ab : Option Int) (ar : Option Int) (br : Option Int) : Statement (.clockMonitorWindow t ab ar br) := of_any _
theorem clockSourceDead (t : Nat) (src : Nat) : Statement (.clockSourceDead t src) := of_any _
theorem qualifyTimeout (t : Nat) (src : Nat) : Statement (.qualifyTimeout t src) := of_any _
theorem doubtTimeout (t : Nat) : Statement (.doubtTimeout t) := of_any _
theorem xobProofStart (t : Nat) : Statement (.xobProofStart t) := of_any _
theorem crystalRestart (t : Nat) (src : Nat) : Statement (.crystalRestart t src) := of_any _
theorem pllLossOfLock (t : Nat) : Statement (.pllLossOfLock t) := of_any _
theorem domainSwitchForced (t : Nat) (dom : Nat) : Statement (.domainSwitchForced t dom) := of_any _
theorem gearChangeDone (t : Nat) (svc : Bool) : Statement (.gearChangeDone t svc) := of_any _
theorem gearChangeAbandon (t : Nat) (svc : Bool) : Statement (.gearChangeAbandon t svc) := of_any _
theorem holdupEntry (t : Nat) (sup : Nat) : Statement (.holdupEntry t sup) := of_any _
theorem holdupExit (t : Nat) (sup : Nat) : Statement (.holdupExit t sup) := of_any _
theorem stage1Entry (t : Nat) (sup : Nat) : Statement (.stage1Entry t sup) := of_any _
theorem stage2Entry (t : Nat) (sup : Nat) : Statement (.stage2Entry t sup) := of_any _
theorem stage3Entry (t : Nat) (hold : Nat) : Statement (.stage3Entry t hold) := of_any _
theorem stage4Entry (t : Nat) (hold : Nat) : Statement (.stage4Entry t hold) := of_any _
theorem stageLeave (t : Nat) (sup : Nat) (hold : Nat) : Statement (.stageLeave t sup hold) := of_any _
theorem flushDeadline (t : Nat) : Statement (.flushDeadline t) := of_any _
theorem dormantExit : Statement (.dormantExit) := of_any _
theorem railFault (t : Nat) : Statement (.railFault t) := of_any _
theorem powerOnReset : Statement (.powerOnReset) := of_any _
theorem brownOutReset : Statement (.brownOutReset) := of_any _
theorem extReset (t : Nat) : Statement (.extReset t) := of_any _
theorem watchdogExpiry (t : Nat) (rco : Nat) : Statement (.watchdogExpiry t rco) := of_any _
theorem sys (t : Nat) (who : Initiator) : Statement (.sys t who) := of_any _
theorem core (t : Nat) (who : Initiator) (target : Nat) : Statement (.core t who target) := of_any _
theorem domain (t : Nat) (who : Initiator) (target : Nat) : Statement (.domain t who target) := of_any _
theorem resetSequence (ok : BitVec 3) (rco : Nat) : Statement (.resetSequence ok rco) := of_any _
theorem wdgKick (t : Nat) (rco : Nat) (who : Initiator) (key : BitVec 16) : Statement (.wdgKick t rco who key) := of_any _
theorem wdgCfgWrite (t : Nat) (who : Initiator) (tmo : BitVec 8) (win : BitVec 8) : Statement (.wdgCfgWrite t who tmo win) := of_any _
theorem tamperOpening (ticks : Nat) : Statement (.tamperOpening ticks) := of_any _
theorem bootChain (t : Nat) (fw0 : SigCheck) (fw1 : SigCheck) (imgA : SlotImage) (imgB : SlotImage) (sup : Nat) (r0 : BitVec 4) (r1 : BitVec 4) (r2 : BitVec 4) : Statement (.bootChain t fw0 fw1 imgA imgB sup r0 r1 r2) := of_any _
theorem slotIdRetry (t : Nat) (r0 : BitVec 4) (r1 : BitVec 4) (r2 : BitVec 4) : Statement (.slotIdRetry t r0 r1 r2) := of_any _
theorem startScanDone (t : Nat) : Statement (.startScanDone t) := of_any _
theorem lampTestEnd (t : Nat) : Statement (.lampTestEnd t) := of_any _
theorem lockoutEdgeRelease (t : Nat) : Statement (.lockoutEdgeRelease t) := of_any _
theorem envelopeSaveDue (t : Nat) : Statement (.envelopeSaveDue t) := of_any _
theorem consistActivation (t : Nat) : Statement (.consistActivation t) := of_any _
theorem deferTimeout (t : Nat) : Statement (.deferTimeout t) := of_any _
theorem vital (t : Nat) (who : Initiator) : Statement (.vital t who) := of_any _
theorem service (t : Nat) (who : Initiator) : Statement (.service t who) := of_any _
theorem confirmWindowEnd (t : Nat) : Statement (.confirmWindowEnd t) := of_any _
theorem info (t : Nat) : Statement (.info t) := of_any _
theorem challenge (t : Nat) : Statement (.challenge t) := of_any _
theorem login (t : Nat) (tok : List Byte) (len : Nat) (rsaBy : Nat) (slhBy : Nat) (addr : BitVec 32) (port : BitVec 16) : Statement (.login t tok len rsaBy slhBy addr port) := of_any _
theorem download (t : Nat) (addr : BitVec 32) (port : BitVec 16) (offset : BitVec 32) (data : List Byte) : Statement (.download t addr port offset data) := of_any _
theorem read (t : Nat) (part : BitVec 8) (first : BitVec 32) (count : BitVec 8) : Statement (.read t part first count) := of_any _
theorem logout (t : Nat) (addr : BitVec 32) (port : BitVec 16) : Statement (.logout t addr port) := of_any _
theorem sessionExpiry (t : Nat) : Statement (.sessionExpiry t) := of_any _
theorem enterService (t : Nat) : Statement (.enterService t) := of_any _
theorem leaveService (t : Nat) : Statement (.leaveService t) := of_any _
theorem programStateOperation (t : Nat) (cmd : ProgCmd) : Statement (.programStateOperation t cmd) := of_any _
theorem holdOperation (t : Nat) : Statement (.holdOperation t) := of_any _
theorem forceOperation (t : Nat) (bind : Bool) (entry : BitVec 8) (ctrl : BitVec 32) (ident : BitVec 64) (mask : BitVec 64) (value : BitVec 64) : Statement (.forceOperation t bind entry ctrl ident mask value) := of_any _
theorem graft (t : Nat) (img : GraftImage) (base : BitVec 32) : Statement (.graft t img base) := of_any _
theorem stage (t : Nat) (fw : Nat) (orch : Nat) (fwSig : SigCheck) (orchSig : SigCheck) : Statement (.stage t fw orch fwSig orchSig) := of_any _
theorem activate (t : Nat) (consist : Option (BitVec 64)) : Statement (.activate t consist) := of_any _
theorem announce (t : Nat) (op : AnnOp) (target : BitVec 32) : Statement (.announce t op target) := of_any _
theorem roleSwap (t : Nat) (unready : Bool) : Statement (.roleSwap t unready) := of_any _
theorem lockoutReset (t : Nat) : Statement (.lockoutReset t) := of_any _
theorem tripRestartOperation (t : Nat) (fn : BitVec 5) : Statement (.tripRestartOperation t fn) := of_any _
theorem clearOperation (t : Nat) (part : BitVec 8) : Statement (.clearOperation t part) := of_any _
theorem saveEnvelopes (t : Nat) : Statement (.saveEnvelopes t) := of_any _
theorem revoke (t : Nat) (img : List Byte) (sig : SigCheck) (rsaMask : BitVec 4) (slhMask : BitVec 4) : Statement (.revoke t img sig rsaMask slhMask) := of_any _
theorem setRtc (t : Nat) (rtc : BitVec 64) (nextService : Bool) : Statement (.setRtc t rtc nextService) := of_any _
theorem updReqWrite (t : Nat) (who : Initiator) (addr : BitVec 32) (src : BitVec 32) (port : BitVec 16) : Statement (.updReqWrite t who addr src port) := of_any _
theorem recordWritten (cut : Option Nat) : Statement (.recordWritten cut) := of_any _
theorem programRecord (t : Nat) (who : Initiator) (typ : BitVec 4) (code : BitVec 8) : Statement (.programRecord t who typ code) := of_any _
theorem softwareRecord (t : Nat) (who : Initiator) (addr : BitVec 32) : Statement (.softwareRecord t who addr) := of_any _
theorem snapshotTrigger (t : Nat) (who : Initiator) (trg : BitVec 5) : Statement (.snapshotTrigger t who trg) := of_any _
theorem snapshotCaptureDone (t : Nat) (first : Nat) (span : Nat) : Statement (.snapshotCaptureDone t first span) := of_any _
theorem slotRead (t : Nat) (who : Initiator) (part : BitVec 3) (slot : BitVec 21) : Statement (.slotRead t who part slot) := of_any _
theorem clear (t : Nat) (who : Initiator) (part : BitVec 2) : Statement (.clear t who part) := of_any _
theorem clearDone (t : Nat) : Statement (.clearDone t) := of_any _
theorem tableWindowWrite (t : Nat) (who : Initiator) (addr : BitVec 64) (size : Nat) (data : BitVec 64) : Statement (.tableWindowWrite t who addr size data) := of_any _
theorem backupDomainLoss : Statement (.backupDomainLoss) := of_any _
theorem tamperLoopClosed : Statement (.tamperLoopClosed) := of_any _
theorem retiredTagRelease (t : Nat) (tag : Nat) : Statement (.retiredTagRelease t tag) := of_any _
theorem pannierSent (t : Nat) : Statement (.pannierSent t) := of_any _
theorem tracePacketSent : Statement (.tracePacketSent) := of_any _
theorem macEntryAgeing (t : Nat) (mac : Nat) : Statement (.macEntryAgeing t mac) := of_any _

end Sys2Proof.Laws.Operands
end

