-- ==== Sys2Proof/Laws/Regs.lean ====
section
/-! SUPPORT. Laws/Regs.lean: reading after writing: finite maps, bit fields, register words and register fields. -/
namespace Sys2Proof.Machine

/-! ### Finite maps -/

@[simp] theorem SMap.find_nil {α : Type} (k : Nat) : SMap.find ([] : SMap α) k = none := rfl

@[simp] theorem SMap.find_set_same {α : Type} (m : SMap α) (k : Nat) (v : α) : SMap.find (SMap.set m k v) k = some v := by
  induction m with
  | nil => simp [SMap.set, SMap.find]
  | cons p t ih =>
    simp only [SMap.set]
    split
    · simp [SMap.find]
    · rename_i h
      split
      · simp [SMap.find]
      · simp [SMap.find, h, ih]

theorem SMap.find_set_ne {α : Type} (m : SMap α) {j k : Nat} (v : α) (h : j ≠ k) :
    SMap.find (SMap.set m k v) j = SMap.find m j := by
  induction m with
  | nil => simp [SMap.set, SMap.find, h]
  | cons p t ih =>
    simp only [SMap.set]
    split
    · rename_i e
      subst e
      simp [SMap.find, h]
    · split
      · simp [SMap.find, h]
      · simp [SMap.find, ih]

theorem SMap.find_erase_same {α : Type} (m : SMap α) (k : Nat) : SMap.find (SMap.erase m k) k = none := by
  induction m with
  | nil => rfl
  | cons p t ih =>
    simp only [SMap.erase, ne_eq, decide_not] at ih ⊢
    by_cases e : p.1 = k
    · simp [e, ih]
    · have : k ≠ p.1 := fun c => e c.symm
      simp [e, SMap.find, this, ih]

@[simp] theorem SMap.getD_set_same {α : Type} (m : SMap α) (k : Nat) (v d : α) : SMap.getD (SMap.set m k v) k d = v := by
  simp [SMap.getD]

theorem SMap.getD_set_ne {α : Type} (m : SMap α) {j k : Nat} (v d : α) (h : j ≠ k) :
    SMap.getD (SMap.set m k v) j d = SMap.getD m j d := by
  simp [SMap.getD, SMap.find_set_ne m v h]

/-! ### Bit fields -/

theorem bitsOf_eq (v lo w : Nat) : bitsOf v lo w = v >>> lo % 2 ^ w := by
  simp [bitsOf, Nat.shiftRight_eq_div_pow]

theorem bitsOf_lt (v lo w : Nat) : bitsOf v lo w < 2 ^ w := Nat.mod_lt _ (Nat.two_pow_pos w)

theorem testBit_bitsOf (v lo w i : Nat) : (bitsOf v lo w).testBit i = (decide (i < w) && v.testBit (lo + i)) := by
  simp [bitsOf_eq, Nat.testBit_mod_two_pow, Nat.testBit_shiftRight]

theorem testBit_putBits (old lo w v i : Nat) :
    (putBits old lo w v).testBit i = if i < lo then old.testBit i else if i < lo + w then v.testBit (i - lo) else old.testBit i := by
  have h1 : old % 2 ^ lo < 2 ^ lo := Nat.mod_lt _ (Nat.two_pow_pos lo)
  have h2 : (v % 2 ^ w) * 2 ^ lo + old % 2 ^ lo < 2 ^ (lo + w) := by
    have a : v % 2 ^ w < 2 ^ w := Nat.mod_lt _ (Nat.two_pow_pos w)
    rw [Nat.pow_add]
    nlinarith [Nat.two_pow_pos lo]
  have e : putBits old lo w v = 2 ^ (lo + w) * (old / 2 ^ (lo + w)) + (2 ^ lo * (v % 2 ^ w) + old % 2 ^ lo) := by
    unfold putBits
    ring
  rw [e, Nat.testBit_two_pow_mul_add _ (by linarith [h2, Nat.mul_comm (2 ^ lo) (v % 2 ^ w)])]
  by_cases a : i < lo + w
  · simp only [a, if_true]
    rw [Nat.testBit_two_pow_mul_add _ h1]
    by_cases b : i < lo
    · simp [b, Nat.testBit_mod_two_pow]
    · simp only [b, if_false, Nat.testBit_mod_two_pow]
      have : i - lo < w := by omega
      simp [this]
  · have b : ¬ i < lo := by omega
    simp only [a, b, if_false]
    rw [Nat.testBit_div_two_pow, Nat.sub_add_cancel (by omega)]

theorem bitsOf_putBits_same (old lo w v : Nat) : bitsOf (putBits old lo w v) lo w = v % 2 ^ w := by
  apply Nat.eq_of_testBit_eq
  intro i
  rw [testBit_bitsOf, testBit_putBits, Nat.testBit_mod_two_pow]
  by_cases h : i < w
  · have a : ¬ lo + i < lo := by omega
    have b : lo + i < lo + w := by omega
    simp [h]
  · simp [h]

theorem bitsOf_putBits_apart (old lo w v lo' w' : Nat) (h : lo' + w' ≤ lo ∨ lo + w ≤ lo') :
    bitsOf (putBits old lo w v) lo' w' = bitsOf old lo' w' := by
  apply Nat.eq_of_testBit_eq
  intro i
  rw [testBit_bitsOf, testBit_bitsOf, testBit_putBits]
  by_cases a : i < w'
  · rcases h with h | h
    · have : lo' + i < lo := by omega
      simp [this]
    · have b : ¬ lo' + i < lo := by omega
      have c : ¬ lo' + i < lo + w := by omega
      simp [b, c]
  · simp [a]

theorem bitsOf_mod (v lo w n : Nat) (h : lo + w ≤ n) : bitsOf (v % 2 ^ n) lo w = bitsOf v lo w := by
  apply Nat.eq_of_testBit_eq
  intro i
  rw [testBit_bitsOf, testBit_bitsOf, Nat.testBit_mod_two_pow]
  by_cases a : i < w
  · have : lo + i < n := by omega
    simp [this]
  · simp [a]

theorem putBits_lt (old lo w v n : Nat) (ho : old < 2 ^ n) (h : lo + w ≤ n) : putBits old lo w v < 2 ^ n := by
  apply Nat.lt_pow_two_of_testBit
  intro i hi
  rw [testBit_putBits]
  have a : ¬ i < lo := by omega
  have b : ¬ i < lo + w := by omega
  simp only [a, b, if_false]
  exact Nat.testBit_lt_two_pow (lt_of_lt_of_le ho (Nat.pow_le_pow_right (by norm_num) hi))

/-! ### Register words -/

@[simp] theorem State.word_setWord_same (s : State) (a : Nat) (v : Word) : (s.setWord a v).word a = v := by
  simp [State.word, State.setWord]

theorem State.word_setWord_ne (s : State) {a b : Nat} (v : Word) (h : a ≠ b) : (s.setWord b v).word a = s.word a := by
  simp [State.word, State.setWord, SMap.find_set_ne _ _ h]

@[simp] theorem State.word_setPend (s : State) (a b : Nat) (v : Word) : (s.setPend b v).word a = s.word a := rfl

/-! ### Register fields -/

/-- The bytes of the words that a field lies in. -/
def Fld.span (f : Fld) : Nat := if f.lo + f.width ≤ 32 then 4 else 8

/-- The fields share no bit: their words differ, or their bits do. -/
def Fld.apart (f g : Fld) : Prop :=
  f.addr + f.span ≤ g.addr ∨ g.addr + g.span ≤ f.addr ∨ (f.addr = g.addr ∧ (f.lo + f.width ≤ g.lo ∨ g.lo + g.width ≤ f.lo))

/-- The number that the words of a field hold together. -/
theorem State.get_wide (s : State) (f : Fld) :
    s.get f = bitsOf ((s.word f.addr).toNat + (s.word (f.addr + 4)).toNat * 2 ^ 32) f.lo f.width := by
  unfold State.get
  split
  · rename_i h
    rw [← bitsOf_mod ((s.word f.addr).toNat + _) f.lo f.width 32 h, Nat.add_mul_mod_self_right,
      Nat.mod_eq_of_lt (s.word f.addr).isLt]
  · rfl

theorem State.get_lt (s : State) (f : Fld) : s.get f < 2 ^ f.width := by
  unfold State.get
  split <;> exact bitsOf_lt _ _ _

@[simp] theorem State.get_setPend (s : State) (f : Fld) (a : Nat) (v : Word) : (s.setPend a v).get f = s.get f := rfl

theorem State.get_setWord_ne (s : State) (f : Fld) (a : Nat) (v : Word) (h : a < f.addr ∨ f.addr + f.span ≤ a)
    (h4 : a ≠ f.addr) : (s.setWord a v).get f = s.get f := by
  unfold State.get
  by_cases w : f.lo + f.width ≤ 32
  · simp [w, State.word_setWord_ne s v (Ne.symm h4)]
  · have : f.addr + 4 ≠ a ∨ f.addr + 4 = a := by omega
    rcases this with e | e
    · simp [w, State.word_setWord_ne s v (Ne.symm h4), State.word_setWord_ne s v e]
    · exfalso
      unfold Fld.span at h
      rw [if_neg w] at h
      omega

theorem State.put_eq (s : State) (f : Fld) (v : Nat) :
    s.put f v = if f.lo + f.width ≤ 32 then s.setWord f.addr (BitVec.ofNat 32 (putBits (s.word f.addr).toNat f.lo f.width v))
      else
        (s.setWord f.addr (BitVec.ofNat 32
          (putBits ((s.word f.addr).toNat + (s.word (f.addr + 4)).toNat * 2 ^ 32) f.lo f.width v))).setWord (f.addr + 4)
          (BitVec.ofNat 32
            (putBits ((s.word f.addr).toNat + (s.word (f.addr + 4)).toNat * 2 ^ 32) f.lo f.width v / 2 ^ 32)) := by
  unfold State.put State.putWords
  split <;> rfl

theorem State.putIf_eq (s : State) (f : Fld) (v : Nat) :
    s.putIf f v = if s.get f = v % 2 ^ f.width then s else s.put f v := by
  unfold State.putIf State.put
  split <;> rfl

/-- A field reads as it was set. -/
theorem State.get_put_same (s : State) (f : Fld) (v : Nat) (h : f.lo + f.width ≤ 64) : (s.put f v).get f = v % 2 ^ f.width := by
  rw [State.put_eq]
  unfold State.get
  by_cases w : f.lo + f.width ≤ 32
  · simp only [w, if_true, State.word_setWord_same, BitVec.toNat_ofNat]
    rw [bitsOf_mod _ _ _ _ w, bitsOf_putBits_same]
  · simp only [w, if_false]
    rw [State.word_setWord_ne _ _ (by omega), State.word_setWord_same, State.word_setWord_same, BitVec.toNat_ofNat,
      BitVec.toNat_ofNat]
    set d := putBits ((s.word f.addr).toNat + (s.word (f.addr + 4)).toNat * 2 ^ 32) f.lo f.width v with hd
    have hlt : d < 2 ^ 64 := putBits_lt _ _ _ _ _ (by have := (s.word f.addr).isLt; have := (s.word (f.addr + 4)).isLt; omega) h
    have : d % 2 ^ 32 + d / 2 ^ 32 % 2 ^ 32 * 2 ^ 32 = d := by omega
    rw [this, bitsOf_putBits_same]

/-- The number that two words hold after a field in the first has been set. -/
theorem State.pair_put (s : State) (f : Fld) (v : Nat) (h : f.lo + f.width ≤ 64) :
    ((s.put f v).word f.addr).toNat + ((s.put f v).word (f.addr + 4)).toNat * 2 ^ 32
      = putBits ((s.word f.addr).toNat + (s.word (f.addr + 4)).toNat * 2 ^ 32) f.lo f.width v := by
  have b0 := (s.word f.addr).isLt
  have b1 := (s.word (f.addr + 4)).isLt
  rw [State.put_eq]
  by_cases w : f.lo + f.width ≤ 32
  · simp only [w, if_true]
    rw [State.word_setWord_same, State.word_setWord_ne _ _ (by omega), BitVec.toNat_ofNat]
    have l := putBits_lt _ f.lo f.width v 32 b0 w
    rw [Nat.mod_eq_of_lt l]
    generalize (s.word f.addr).toNat = x at *
    generalize (s.word (f.addr + 4)).toNat = y at *
    apply Nat.eq_of_testBit_eq
    intro i
    have e : ∀ z : Nat, z + y * 2 ^ 32 = 2 ^ 32 * y + z := fun z => by ring
    rw [e, e, Nat.testBit_two_pow_mul_add _ l, testBit_putBits, testBit_putBits, Nat.testBit_two_pow_mul_add _ b0]
    by_cases c : i < 32
    · simp [c]
    · have a1 : ¬ i < f.lo := by omega
      have a2 : ¬ i < f.lo + f.width := by omega
      simp [c, a1, a2]
  · simp only [w, if_false]
    rw [State.word_setWord_ne _ _ (by omega), State.word_setWord_same, State.word_setWord_same, BitVec.toNat_ofNat,
      BitVec.toNat_ofNat]
    set d := putBits ((s.word f.addr).toNat + (s.word (f.addr + 4)).toNat * 2 ^ 32) f.lo f.width v with hd
    have hlt : d < 2 ^ 64 := putBits_lt _ _ _ _ _ (by omega) h
    omega

theorem State.word_put_ne (s : State) (f : Fld) (v a : Nat) (h : a ≠ f.addr) (h4 : f.lo + f.width ≤ 32 ∨ a ≠ f.addr + 4) :
    (s.put f v).word a = s.word a := by
  rw [State.put_eq]
  by_cases w : f.lo + f.width ≤ 32
  · simp [w, State.word_setWord_ne s _ h]
  · have : a ≠ f.addr + 4 := by omega
    simp [w, State.word_setWord_ne _ _ h, State.word_setWord_ne _ _ this]

/-- A field that shares no bit with the one set is unchanged; both lie at addresses of words. -/
theorem State.get_put_apart (s : State) (f g : Fld) (v : Nat) (hg : g.lo + g.width ≤ 64) (h : f.apart g) :
    (s.put g v).get f = s.get f := by
  unfold Fld.apart Fld.span at h
  by_cases e : f.addr = g.addr
  · have hb : f.lo + f.width ≤ g.lo ∨ g.lo + g.width ≤ f.lo := by
      rcases h with h | h | h
      · split at h <;> omega
      · split at h <;> omega
      · exact h.2
    rw [State.get_wide, State.get_wide, e, State.pair_put _ _ _ hg, bitsOf_putBits_apart _ _ _ _ _ _ hb]
  · unfold State.get
    have w0 : (s.put g v).word f.addr = s.word f.addr := State.word_put_ne _ _ _ _ e (by
      by_cases w : g.lo + g.width ≤ 32
      · exact .inl w
      · refine .inr ?_
        rcases h with h | h | h
        · split at h <;> omega
        · rw [if_neg w] at h
          omega
        · omega)
    by_cases wf : f.lo + f.width ≤ 32
    · simp [wf, w0]
    · have w1 : (s.put g v).word (f.addr + 4) = s.word (f.addr + 4) := State.word_put_ne _ _ _ _ (by
          rw [if_neg wf] at h
          rcases h with h | h | h
          · omega
          · split at h <;> omega
          · omega) (by
          by_cases w : g.lo + g.width ≤ 32
          · exact .inl w
          · refine .inr ?_
            rw [if_neg wf, if_neg w] at h
            omega)
      simp [wf, w0, w1]

theorem State.get_putFlag_apart (s : State) (f g : Fld) (b : Bool) (hg : g.lo + g.width ≤ 64) (h : f.apart g) :
    (s.putFlag g b).get f = s.get f := State.get_put_apart s f g _ hg h

theorem State.get_inc_apart (s : State) (f g : Fld) (hg : g.lo + g.width ≤ 64) (h : f.apart g) :
    (s.inc g).get f = s.get f := State.get_put_apart s f g _ hg h

theorem State.get_add_apart (s : State) (f g : Fld) (n : Nat) (hg : g.lo + g.width ≤ 64) (h : f.apart g) :
    (s.add g n).get f = s.get f := State.get_put_apart s f g _ hg h

theorem State.get_addSat_apart (s : State) (f g : Fld) (n : Nat) (hg : g.lo + g.width ≤ 64) (h : f.apart g) :
    (s.addSat g n).get f = s.get f := State.get_put_apart s f g _ hg h

theorem State.get_putS_apart (s : State) (f g : Fld) (v : Int) (hg : g.lo + g.width ≤ 64) (h : f.apart g) :
    (s.putS g v).get f = s.get f := State.get_put_apart s f g _ hg h

theorem State.get_putBit_apart (s : State) (f g : Fld) (i : Nat) (b : Bool) (hg : g.lo + g.width ≤ 64) (h : f.apart g) :
    (s.putBit g i b).get f = s.get f := State.get_put_apart s f g _ hg h

theorem State.get_putIf_apart (s : State) (f g : Fld) (v : Nat) (hg : g.lo + g.width ≤ 64) (h : f.apart g) :
    (s.putIf g v).get f = s.get f := by
  rw [State.putIf_eq]
  split
  · rfl
  · exact State.get_put_apart s f g v hg h

theorem State.get_putIf_same (s : State) (f : Fld) (v : Nat) (h : f.lo + f.width ≤ 64) : (s.putIf f v).get f = v % 2 ^ f.width := by
  rw [State.putIf_eq]
  split
  · assumption
  · exact State.get_put_same s f v h

theorem State.get_inc_same (s : State) (f : Fld) (h : f.lo + f.width ≤ 64) : (s.inc f).get f = (s.get f + 1) % 2 ^ f.width :=
  State.get_put_same s f _ h

theorem State.get_putFlag_same (s : State) (f : Fld) (b : Bool) (h : f.lo + f.width ≤ 64) :
    (s.putFlag f b).get f = b.toNat % 2 ^ f.width := State.get_put_same s f _ h

theorem State.flag_putFlag_same (s : State) (f : Fld) (b : Bool) (h : f.lo + f.width ≤ 64) (h1 : 0 < f.width) :
    (s.putFlag f b).flag f = b := by
  unfold State.flag
  rw [State.get_putFlag_same s f b h]
  have : 1 < 2 ^ f.width := Nat.one_lt_two_pow (by omega)
  cases b
  · simp
  · simp [Nat.mod_eq_of_lt this]

/-- The time registers are all that a new moment shows of itself (R281). -/
theorem State.get_showTime (s : State) (f : Fld) (h : f.apart Reg.TIME_LOCAL.NS) (h' : f.apart Reg.TIME_LANE.NS)
    (h'' : f.apart Reg.TIME_CONSIST.NS) : s.showTime.get f = s.get f := by
  unfold State.showTime
  rw [State.get_put_apart _ _ _ _ (by decide) h'', State.get_put_apart _ _ _ _ (by decide) h',
    State.get_put_apart _ _ _ _ (by decide) h]

end Sys2Proof.Machine
end

