-- ==== Sys2Proof/Machine/Led.lean ====
section
/-! DEFINITION. Machine/Led.lean: what the front panel LEDs show, as the state gives it (R475, R481). No register holds it. -/
namespace Sys2Proof.Machine
open Reg

/-- Colours of the LEDs. -/
inductive Colour where
  | green | yellow | amber | red
  deriving DecidableEq, Repr

/-- What one LED shows: off, steady, or flashing at 1 Hz or 4 Hz with a 50 % duty cycle. -/
inductive Light where
  | off
  | steady (c : Colour)
  | flash1 (c : Colour)
  | flash4 (c : Colour)
  deriving DecidableEq, Repr

/-- The LEDs. -/
inductive Led where
  | run | actStby | force | lockout | laneA | laneB | svc
  deriving DecidableEq, Repr

/-- The colours an LED has. -/
def Led.colours : Led → List Colour
  | .run | .svc => [.green]
  | .actStby => [.green, .yellow]
  | .force => [.amber]
  | .lockout => [.red]
  | .laneA | .laneB => [.green, .red]

/-- A lane's LED. -/
def State.laneLight (s : State) (l : Nat) : Light :=
  match s.get (LANE_STAT.STATE l) with
  | 0 => .off
  | 4 => if s.flag (LANE_STAT.FREEWHEEL l) then .flash1 .green else .steady .green
  | 5 => .steady .red
  | _ => .flash4 .green

/-- The indications of R475 outside the lamp test and the dark states. -/
def State.light (s : State) : Led → Light
  | .run =>
    if s.get SYS_STAT.MODE == 0 then .flash4 .green
    else match s.get CYC_STAT.PSTATE with
      | 1 => .steady .green
      | 2 => .flash1 .green
      | _ => .off
  | .actStby =>
    if s.claiming then (if s.get SYS_STAT.MODE == 3 then .steady .green else .flash1 .green)
    else if s.get SYS_STAT.MODE == 2 then (if s.flag TWIN_STAT.READY then .steady .yellow else .flash1 .yellow)
    else .off
  | .force => if s.flag SYS_STAT.FORCED then .steady .amber else .off
  | .lockout =>
    if s.get SYS_STAT.MODE == 4 || s.boot.noFw then .steady .red
    else if s.boot.noSlot.isSome then .flash1 .red else .off
  | .laneA => s.laneLight 0
  | .laneB => s.laneLight 1
  | .svc =>
    if s.flag UPD_STAT.SESSION then .steady .green
    else if s.get SYS_STAT.MODE == 1 then .flash1 .green else .off

/-- The bit of the slot code that an LED shows while BOOT is held (R475, R481). -/
def Led.slotBit : Led → Option Nat
  | .run => some 3
  | .laneA => some 2
  | .laneB => some 1
  | .svc => some 0
  | _ => none

/-- What an LED shows (R475): dark in DORMANT and from stage 4; each colour for 0.5 s in the lamp test; the slot code while
BOOT is held. -/
def State.led (s : State) (l : Led) : Light :=
  if s.pwr.dormant || s.get PWR_STAT.STAGE == 4 then .off
  else
    match s.boot.lamp, s.boot.noSlot, l.slotBit with
    | some at_, _, _ =>
      match l.colours[(s.localNow - at_) / 500000000]? with
      | some c => .steady c
      | none => .off
    | none, some (code, _), some b => if bitOf code b then .steady .green else .off
    | none, _, _ => s.light l

end Sys2Proof.Machine
end

