-- ==== Sys2Proof/Tests/Slice0.lean ====
section
/-! SUPPORT. Tests/Slice0.lean: the smoke test of WellFormed, one ill-formed command for each of its checks and the boundary value
that passes it; and small tests of single commands, whose results come from the rules of spec/ that each names. -/
set_option maxRecDepth 20000
namespace Sys2Proof.Tests
open Sys2Proof Sys2Proof.Machine Sys2Proof.Machine.Reg

theorem test_wellFormed_refuses_1 : ([
    .streamAgeStale 512,
    .popRead64 0 .tri 3 0,
    .popReadLow 0 .tri 3 0,
    .popReadHigh 0 .tri 3 0,
    .popRead32 0 .tri 3 0,
    .cycleStartInterrupt 0 3,
    .outputImageStore 0 3 0 4 0,
    .outputImageStore 0 0 65536 4 0,
    .triDeviceStore 0 3 0 4 0,
    .storeQueueResume 0 3,
    .tchkWrite 0 .tri 3 .read,
    .cycDoneWrite 0 3 0,
    .coreFaultHalt 0 3,
    .stateCopyComplete 0 3 false,
    .feedbackFaultTimeout 0 96,
    .lockTimeout 0 96] : List Instr).all (fun i => !i.wellFormed) = true := by decide

theorem test_wellFormed_refuses_2 : ([
    .reopenDwellEnd 0 96,
    .accWinEnd 0 96,
    .envelopeUpdate 0 96,
    .holdMsEnd 0 96,
    .move 0 16,
    .replace 0 16,
    .gstart 0 16,
    .gstartInterp 0 16,
    .home 0 16,
    .motionStop 0 16,
    .take 0 16,
    .give 0 16,
    .limitTrip 0 96,
    .homeEdgeQualified 0 96,
    .homingTimeout 0 96,
    .spokeRx 0 2 [] false] : List Instr).all (fun i => !i.wellFormed) = true := by decide

theorem test_wellFormed_refuses_3 : ([
    .sourceLoss 0 32,
    .resetRelease 0 32,
    .resetHighTooLong 0 32,
    .safeTxBuild 0 128 false,
    .safeTelegramRx 0 128 [] false,
    .safeRxTimeout 0 128,
    .frameForward 0 2 false [] 0 false,
    .laneLinkUp 0 2 0,
    .laneLinkUp 0 0 2,
    .laneLinkDown 0 2 0,
    .laneLinkDown 0 0 2,
    .preemptVerifyDone 0 2 0 false,
    .preemptVerifyDone 0 0 2 false,
    .scheduledFrameTx 0 2 0,
    .scheduledFrameTx 0 0 4096,
    .syncRx 0 2 0 [] false] : List Instr).all (fun i => !i.wellFormed) = true := by decide

theorem test_wellFormed_refuses_4 : ([
    .syncRx 0 0 2 [] false,
    .coldstartRx 0 2 0 [] false,
    .coldstartRx 0 0 2 [] false,
    .pdelayReq 0 2 0 [] false 0,
    .pdelayReq 0 0 2 [] false 0,
    .pdelayResp 0 2 0 0 0 [] false,
    .pdelayResp 0 0 2 0 0 [] false,
    .statusRx 0 2 [] false,
    .dataRx 0 2 [] false,
    .feedbackRx 0 2 [] false,
    .listenEnd 0 2,
    .contestWindowEnd 0 2,
    .syncLoss 0 2,
    .masterSilent 0 2,
    .ptpSyncRx 0 2 0 0,
    .ptpSyncRx 0 0 0 18446744073709551616] : List Instr).all (fun i => !i.wellFormed) = true := by decide

theorem test_wellFormed_refuses_5 : ([
    .ptpAnnounceRx 0 2 ⟨0, 0, 0, 0, 0, 0, 0, 0, 0⟩,
    .ptpReceiptTimeout 0 2,
    .ecnLinkChange 0 2 0 false 0,
    .ecnLinkChange 0 0 4 false 0,
    .ecnLinkChange 0 0 0 false 4,
    .ecnFrameRx 0 2 [] false,
    .ecnTailWrite 0 .tri 9 0,
    .ecnTailWrite 0 .tri 0 65536,
    .ecnLaunch 0 2 0,
    .ecnLaunch 0 0 8,
    .pdPublish 0 512,
    .pdPullRequest 0 4294967296,
    .pdTelegramRx 0 512 0 0 0 0 0 0 0 false [],
    .pdTelegramRx 0 0 4294967296 0 0 0 0 0 0 false [],
    .pdTelegramRx 0 0 0 65536 0 0 0 0 0 false [],
    .pdTelegramRx 0 0 0 0 4294967296 0 0 0 0 false []] : List Instr).all (fun i => !i.wellFormed) = true := by decide

theorem test_wellFormed_refuses_6 : ([
    .pdTelegramRx 0 0 0 0 0 4294967296 0 0 0 false [],
    .pdTelegramRx 0 0 0 0 0 0 4294967296 0 0 false [],
    .pdTelegramRx 0 0 0 0 0 0 0 4294967296 0 false [],
    .pdTelegramRx 0 0 0 0 0 0 0 0 256 false [],
    .pdSubscriberTimeout 0 512,
    .captureEdge 0 16,
    .mvbSinkFrame 0 256 [] false false,
    .mvbMasterFrame 0 256,
    .mvbSinkStale 256,
    .gwEntryStale 0 4096,
    .inputFilteredEdge 0 64 false,
    .wettingEnd 0 64,
    .outputShort 0 64,
    .groupUvSet 0 8,
    .groupUvClear 0 8,
    .groupOvSet 0 8] : List Instr).all (fun i => !i.wellFormed) = true := by decide

theorem test_wellFormed_refuses_7 : ([
    .groupOvClear 0 8,
    .groupOvcSet 0 8,
    .groupOvcEnd 0 8,
    .readbackMismatch 0 64 false,
    .groupSwitchTest 0 8 false,
    .darkTestStart 0 64,
    .lightTestStart 0 64,
    .testPulseEnd 0 64 false false,
    .channelFaultClear 0 64,
    .loopFault 0 4,
    .loopAutoRetry 0 4,
    .loopCompliance 4 false,
    .hartGo 0 .tri 4 0,
    .hartGo 0 .tri 0 512,
    .hartFrameRx 0 4 [] false,
    .hartTimeout 0 4] : List Instr).all (fun i => !i.wellFormed) = true := by decide

theorem test_wellFormed_refuses_8 : ([
    .rackStatusCycle 0 16 .ack 0,
    .rackRetryReissue 0 16,
    .rackResponse 0 9 0 0 false false [] 0,
    .rackResponse 0 0 16 0 false false [] 0,
    .rackResponse 0 0 0 128 false false [] 0,
    .rackResponseTimeout 0 128,
    .rackInboundRequest 0 16 0 0 0 0 [] false 0,
    .rackInboundRequest 0 0 128 0 0 0 [] false 0,
    .rackInboundRequest 0 0 0 16 0 0 [] false 0,
    .rackInboundRequest 0 0 0 0 4294967296 0 [] false 0,
    .rackInboundRequest 0 0 0 0 0 16 [] false 0,
    .rackInboundComplete 0 16 0 0,
    .rackInboundComplete 0 0 128 0,
    .rackLockedSequence 0 .tri 18446744073709551616 4 .lr,
    .clockSourceDead 0 3,
    .qualifyTimeout 0 3] : List Instr).all (fun i => !i.wellFormed) = true := by decide

theorem test_wellFormed_refuses_9 : ([
    .crystalRestart 0 3,
    .domainSwitchForced 0 7,
    .core 0 .tri 8,
    .domain 0 .tri 8,
    .retiredTagRelease 0 128,
    .macEntryAgeing 0 281474976710656,
    .registerWrite 0 .tri 0 3 0,
    .outputImageStore 0 0 0 3 0,
    .triDeviceStore 0 0 0 3 0,
    .rackLockedSequence 0 .tri 0 3 .lr,
    .tableWindowWrite 0 .tri 0 3 0,
    .localTickEdge ⟨[], 16, 0, 0, [], false, 0, [], 0⟩,
    .localTickEdge ⟨[], 0, 0, 0, [], false, 0, [128], 0⟩,
    .driverRefreshLoss 0 (.driver 64),
    .driverRefreshLoss 0 (.regulator 4),
    .refreshTimeout 0 (.axis 8)] : List Instr).all (fun i => !i.wellFormed) = true := by decide

theorem test_wellFormed_refuses_10 : ([
    .rackOutboundAccess 0 .tri (.load 4294967296 4),
    .rackOutboundAccess 0 .tri (.store 0 16 0),
    .rackOutboundAccess 0 .tri (.dmaRead 4294967296 1),
    .rackOutboundAccess 0 .tri (.dmaWrite 4294967296 [])] : List Instr).all (fun i => !i.wellFormed) = true := by decide

theorem test_wellFormed_accepts_1 : ([
    .streamAgeStale 511,
    .popRead64 0 .tri 2 0,
    .popReadLow 0 .tri 2 0,
    .popReadHigh 0 .tri 2 0,
    .popRead32 0 .tri 2 0,
    .cycleStartInterrupt 0 2,
    .outputImageStore 0 2 0 4 0,
    .outputImageStore 0 0 65535 4 0,
    .triDeviceStore 0 2 0 4 0,
    .storeQueueResume 0 2,
    .tchkWrite 0 .tri 2 .read,
    .cycDoneWrite 0 2 0,
    .coreFaultHalt 0 2,
    .stateCopyComplete 0 2 false,
    .feedbackFaultTimeout 0 95,
    .lockTimeout 0 95] : List Instr).all (fun i => i.wellFormed) = true := by decide

theorem test_wellFormed_accepts_2 : ([
    .reopenDwellEnd 0 95,
    .accWinEnd 0 95,
    .envelopeUpdate 0 95,
    .holdMsEnd 0 95,
    .move 0 15,
    .replace 0 15,
    .gstart 0 15,
    .gstartInterp 0 15,
    .home 0 15,
    .motionStop 0 15,
    .take 0 15,
    .give 0 15,
    .limitTrip 0 95,
    .homeEdgeQualified 0 95,
    .homingTimeout 0 95,
    .spokeRx 0 1 [] false] : List Instr).all (fun i => i.wellFormed) = true := by decide

theorem test_wellFormed_accepts_3 : ([
    .sourceLoss 0 31,
    .resetRelease 0 31,
    .resetHighTooLong 0 31,
    .safeTxBuild 0 127 false,
    .safeTelegramRx 0 127 [] false,
    .safeRxTimeout 0 127,
    .frameForward 0 1 false [] 0 false,
    .laneLinkUp 0 1 0,
    .laneLinkUp 0 0 1,
    .laneLinkDown 0 1 0,
    .laneLinkDown 0 0 1,
    .preemptVerifyDone 0 1 0 false,
    .preemptVerifyDone 0 0 1 false,
    .scheduledFrameTx 0 1 0,
    .scheduledFrameTx 0 0 4095,
    .syncRx 0 1 0 [] false] : List Instr).all (fun i => i.wellFormed) = true := by decide

theorem test_wellFormed_accepts_4 : ([
    .syncRx 0 0 1 [] false,
    .coldstartRx 0 1 0 [] false,
    .coldstartRx 0 0 1 [] false,
    .pdelayReq 0 1 0 [] false 0,
    .pdelayReq 0 0 1 [] false 0,
    .pdelayResp 0 1 0 0 0 [] false,
    .pdelayResp 0 0 1 0 0 [] false,
    .statusRx 0 1 [] false,
    .dataRx 0 1 [] false,
    .feedbackRx 0 1 [] false,
    .listenEnd 0 1,
    .contestWindowEnd 0 1,
    .syncLoss 0 1,
    .masterSilent 0 1,
    .ptpSyncRx 0 1 0 0,
    .ptpSyncRx 0 0 0 18446744073709551615] : List Instr).all (fun i => i.wellFormed) = true := by decide

theorem test_wellFormed_accepts_5 : ([
    .ptpAnnounceRx 0 1 ⟨0, 0, 0, 0, 0, 0, 0, 0, 0⟩,
    .ptpReceiptTimeout 0 1,
    .ecnLinkChange 0 1 0 false 0,
    .ecnLinkChange 0 0 3 false 0,
    .ecnLinkChange 0 0 0 false 3,
    .ecnFrameRx 0 1 [] false,
    .ecnTailWrite 0 .tri 8 0,
    .ecnTailWrite 0 .tri 0 65535,
    .ecnLaunch 0 1 0,
    .ecnLaunch 0 0 7,
    .pdPublish 0 511,
    .pdPullRequest 0 4294967295,
    .pdTelegramRx 0 511 0 0 0 0 0 0 0 false [],
    .pdTelegramRx 0 0 4294967295 0 0 0 0 0 0 false [],
    .pdTelegramRx 0 0 0 65535 0 0 0 0 0 false [],
    .pdTelegramRx 0 0 0 0 4294967295 0 0 0 0 false []] : List Instr).all (fun i => i.wellFormed) = true := by decide

theorem test_wellFormed_accepts_6 : ([
    .pdTelegramRx 0 0 0 0 0 4294967295 0 0 0 false [],
    .pdTelegramRx 0 0 0 0 0 0 4294967295 0 0 false [],
    .pdTelegramRx 0 0 0 0 0 0 0 4294967295 0 false [],
    .pdTelegramRx 0 0 0 0 0 0 0 0 255 false [],
    .pdSubscriberTimeout 0 511,
    .captureEdge 0 15,
    .mvbSinkFrame 0 255 [] false false,
    .mvbMasterFrame 0 255,
    .mvbSinkStale 255,
    .gwEntryStale 0 4095,
    .inputFilteredEdge 0 63 false,
    .wettingEnd 0 63,
    .outputShort 0 63,
    .groupUvSet 0 7,
    .groupUvClear 0 7,
    .groupOvSet 0 7] : List Instr).all (fun i => i.wellFormed) = true := by decide

theorem test_wellFormed_accepts_7 : ([
    .groupOvClear 0 7,
    .groupOvcSet 0 7,
    .groupOvcEnd 0 7,
    .readbackMismatch 0 63 false,
    .groupSwitchTest 0 7 false,
    .darkTestStart 0 63,
    .lightTestStart 0 63,
    .testPulseEnd 0 63 false false,
    .channelFaultClear 0 63,
    .loopFault 0 3,
    .loopAutoRetry 0 3,
    .loopCompliance 3 false,
    .hartGo 0 .tri 3 0,
    .hartGo 0 .tri 0 511,
    .hartFrameRx 0 3 [] false,
    .hartTimeout 0 3] : List Instr).all (fun i => i.wellFormed) = true := by decide

theorem test_wellFormed_accepts_8 : ([
    .rackStatusCycle 0 15 .ack 0,
    .rackRetryReissue 0 15,
    .rackResponse 0 8 0 0 false false [] 0,
    .rackResponse 0 0 15 0 false false [] 0,
    .rackResponse 0 0 0 127 false false [] 0,
    .rackResponseTimeout 0 127,
    .rackInboundRequest 0 15 0 0 0 0 [] false 0,
    .rackInboundRequest 0 0 127 0 0 0 [] false 0,
    .rackInboundRequest 0 0 0 15 0 0 [] false 0,
    .rackInboundRequest 0 0 0 0 4294967295 0 [] false 0,
    .rackInboundRequest 0 0 0 0 0 15 [] false 0,
    .rackInboundComplete 0 15 0 0,
    .rackInboundComplete 0 0 127 0,
    .rackLockedSequence 0 .tri 18446744073709551615 4 .lr,
    .clockSourceDead 0 2,
    .qualifyTimeout 0 2] : List Instr).all (fun i => i.wellFormed) = true := by decide

theorem test_wellFormed_accepts_9 : ([
    .crystalRestart 0 2,
    .domainSwitchForced 0 6,
    .core 0 .tri 7,
    .domain 0 .tri 7,
    .retiredTagRelease 0 127,
    .macEntryAgeing 0 281474976710655,
    .registerWrite 0 .tri 0 4 0,
    .outputImageStore 0 0 0 4 0,
    .triDeviceStore 0 0 0 4 0,
    .rackLockedSequence 0 .tri 0 4 .lr,
    .tableWindowWrite 0 .tri 0 4 0] : List Instr).all (fun i => i.wellFormed) = true := by decide

/-! ### Single commands -/

/-- No row of the table gives bits, so no word spells a command. -/
theorem test_decode : decodeTableWord 32 0x4B1D = none := rfl

/-- With no word spelt, the queue stays as it is. -/
theorem test_withFetchWord : State.reset.withFetchWord 32 7 = State.reset := rfl

/-- An idle step (assumption 1). -/
theorem test_idle : step State.reset = .next State.reset := rfl

/-- The next state of a command; reset where it answers none. -/
def after (c : Instr) (s : State) : State :=
  match exec c s with
  | .next u => u
  | _ => State.reset

/-- Out of reset and in ACTIVE, where the service cluster runs. -/
def running : State := { State.reset with pwr := { State.reset.pwr with inReset := false } }.put SYS_STAT.MODE 3

/-- R41: the key 0x4B1D for block 0x13 opens it to its writer only. -/
theorem test_unlock : (after (.reggUnlock .boot 0x4B1D 0x13) State.reset).unlocked .boot 0x13 = true
    ∧ (after (.reggUnlock .boot 0x4B1D 0x13) State.reset).unlocked .tri 0x13 = false
    ∧ (after (.reggUnlock .boot 0x4B1D 0x13) State.reset).get REGG_STAT.UNLOCK_HELD = 32 := by decide

/-- R42: a wrong key is denied. -/
theorem test_unlock_wrong_key : (after (.reggUnlock .boot 0x4B1E 0x13) State.reset).get REGG_DENY_CNT = 1 := by decide

/-- R43: the boot supervisor's strobe waits for the edge. -/
theorem test_strobe : (after (.reggStrobe .boot 0x8001) State.reset).get REGG_STROBE_PEND.GROUPS = 0x8001
    ∧ (after (.reggStrobe .boot 0x8001) State.reset).flag REGG_STAT.STROBE_PEND = true := by decide

/-- R39: OBS_TRC_STAT is RO; a write counts and traps nobody. -/
theorem test_write_ro : (after (.registerWrite 0 .s0 0x20150004 4 1) running).get REGG_ROWR_CNT = 1 := by decide

/-- R35: a service core may not write the vital-only block SAFE. -/
theorem test_write_vital : (after (.registerWrite 0 .s2 0x20090000 4 0) running).traps = [(3, ⟨true, 0x20090000⟩)] := by decide

/-- R39: a buffered word reads its pending value and acts on the applied one. -/
theorem test_write_buffered : (after (.registerWrite 0 .s0 0x20150008 4 0x00020003) running).readReg 0x20150008 = 0x00020003
    ∧ (after (.registerWrite 0 .s0 0x20150008 4 0x00020003) running).readReg 0x20158008 = resetWord 0x20150008 := by decide

/-- R407: a core of the halted service cluster writes nothing. -/
theorem test_write_halted : (after (.registerWrite 0 .s0 0x20150004 4 1) (running.put PWR_STAT.STAGE 2)).get REGG_ROWR_CNT = 0 := by decide

/-- R48: a counter wraps from 0xFFFF_FFFF to 0. -/
theorem test_counter_wraps : ((State.reset.put REGG_DENY_CNT 0xFFFFFFFF).inc REGG_DENY_CNT).get REGG_DENY_CNT = 0 := by decide

/-- R6: bytes lie least significant first. -/
theorem test_little_endian : (State.reset.store 0x10000000 4 0x12345678).byte 0x10000000 = 0x78
    ∧ (State.reset.store 0x10000000 4 0x12345678).load 0x10000000 4 = 0x12345678 := by decide

/-- R69: the check value over the ASCII bytes of the digits 1 to 9. -/
theorem test_signature : foldSig 0 [0x31, 0x32, 0x33, 0x34, 0x35, 0x36, 0x37, 0x38, 0x39] = 0x6C40DF5F0B497347 := by decide

end Sys2Proof.Tests
end

