-- ==== Sys2Proof/Tests/Witness.lean ====
section
/-! SUPPORT. Tests/Witness.lean: for every statement with hypotheses, states and operands that meet them together. -/
set_option linter.all false
set_option maxRecDepth 100000
set_option exponentiation.threshold 1024
open Sys2Proof Sys2Proof.Machine Sys2Proof.Machine.Reg

/-- The reset state, out of reset. -/
def awake : State := { State.reset with pwr := { State.reset.pwr with inReset := false } }

/-- The same in ACTIVE, so that the service cluster runs. -/
def up : State := awake.put SYS_STAT.MODE 3

theorem witness_RegisterGuard_1 : ∃ (s : State) (who : Initiator) (block : BitVec 5), (s.acts who = true) ∧ (block.toNat ≤ 0x15) ∧ (mayWrite who block.toNat = true) :=
  ⟨up, .s0, 0x15, by decide⟩
theorem witness_RegisterGuard_2 : ∃ (s : State) (who : Initiator) (key : BitVec 16) (block : BitVec 5), (s.acts who = true) ∧ (key ≠ 0x4B1D) :=
  ⟨State.reset, .tri, 0x4B1E, 3, by decide⟩
theorem witness_RegisterGuard_3 : ∃ (s : State) (who : Initiator) (block : BitVec 5), (s.acts who = true) ∧ (0x15 < block.toNat ∨ mayWrite who block.toNat = false) :=
  ⟨up, .s3, 0x0B, by decide⟩
theorem witness_RegisterGuard_4 : ∃ (s : State) (who : Initiator) (x : Unlock), (s.acts who = true) ∧ (SMap.find s.regg.unlocks who.idx = some x) ∧ (2 ≤ x.edges) :=
  ⟨{ State.reset with regg := { State.reset.regg with unlocks := [(0, ⟨3, 2⟩)] } }, .tri, ⟨3, 2⟩, by decide⟩
theorem witness_RegisterGuard_5 : ∃ (s : State) (who : Initiator) (groups : BitVec 16), (s.acts who = true) ∧ (who.isService = false) :=
  ⟨State.reset, .boot, 0xFFFF, by decide⟩
theorem witness_ConfigurationCheck_1 : ∃ (s : State) (t : Nat) (v : State), (v = s.at_ t) ∧ (v.pwr.inReset = false) ∧ (v.regg.waitEdge = false) ∧ (v.flag REGG_CFG_CTRL.EN = false ∨ v.flag REGG_STAT.CFG_WAIT = true) :=
  ⟨({ State.reset with pwr := { State.reset.pwr with inReset := false } }.put REGG_CFG_CTRL.EN 0), 0, _, rfl, by decide⟩
theorem witness_ConfigurationCheck_2 : ∃ (s : State) (t : Nat) (v : State), (v = s.at_ t) ∧ (v.pwr.inReset = false) ∧ (v.regg.waitEdge = false) ∧ (v.flag REGG_CFG_CTRL.EN = true) ∧ (v.flag REGG_STAT.CFG_WAIT = false) ∧ (v.flag REGG_STAT.CFG_MISMATCH = false) ∧ (v.get REGG_CFG_CTRL.ACTION < 2) :=
  ⟨(({ State.reset with pwr := { State.reset.pwr with inReset := false } }.put REGG_CFG_CTRL.EN 1).put REGG_CFG_CTRL.ACTION 0), 0, _, rfl, by decide⟩
theorem witness_ConfigurationCheck_3 : ∃ (s : State) (t : Nat) (v : State), (v = s.at_ t) ∧ (v.pwr.inReset = false) ∧ (v.regg.waitEdge = false) ∧ (v.flag REGG_CFG_CTRL.EN = true) ∧ (v.flag REGG_STAT.CFG_WAIT = false) ∧ (v.flag REGG_STAT.CFG_MISMATCH = false) ∧ (2 ≤ v.get REGG_CFG_CTRL.ACTION) :=
  ⟨(({ State.reset with pwr := { State.reset.pwr with inReset := false } }.put REGG_CFG_CTRL.EN 1).put REGG_CFG_CTRL.ACTION 2), 0, _, rfl, by decide⟩
theorem witness_ConfigurationCheck_4 : ∃ (s : State) (t : Nat) (v : State), (v = s.at_ t) ∧ (v.pwr.inReset = false) ∧ (v.regg.waitEdge = false) ∧ (v.flag REGG_CFG_CTRL.EN = true) ∧ (v.flag REGG_STAT.CFG_WAIT = false) ∧ (v.flag REGG_STAT.CFG_MISMATCH = true) ∧ (v.get REGG_CFG_CTRL.ACTION < 2) :=
  ⟨(({ State.reset with pwr := { State.reset.pwr with inReset := false } }.put REGG_CFG_CTRL.EN 1).put REGG_CFG_CTRL.ACTION 0).putFlag REGG_STAT.CFG_MISMATCH true, 0, _, rfl, by decide⟩
theorem witness_ConfigurationCheck_5 : ∃ (s : State) (t : Nat) (v : State), (v = s.at_ t) ∧ (v.pwr.inReset = false) ∧ (v.regg.waitEdge = false) ∧ (v.flag REGG_CFG_CTRL.EN = true) ∧ (v.flag REGG_STAT.CFG_WAIT = false) ∧ (v.flag REGG_STAT.CFG_MISMATCH = true) ∧ (2 ≤ v.get REGG_CFG_CTRL.ACTION) :=
  ⟨(({ State.reset with pwr := { State.reset.pwr with inReset := false } }.put REGG_CFG_CTRL.EN 1).put REGG_CFG_CTRL.ACTION 2).putFlag REGG_STAT.CFG_MISMATCH true, 0, _, rfl, by decide⟩
theorem witness_ConfigurationCheck_6 : ∃ (s : State) (t : Nat) (v : State), (v = s.at_ t) ∧ (v.flag REGG_STAT.CFG_WAIT = true) ∧ (v.regg.waitEdge = false) ∧ (atLeast1 (v.get REGG_CFG_CTRL.GRACE) ≤ v.regg.graceEdges) :=
  ⟨{ (State.reset.putFlag REGG_STAT.CFG_WAIT true) with regg := ⟨[], 70000, false⟩ }, 0, _, rfl, by decide⟩
theorem witness_CheckEngineData_1 : ∃ (s : State) (who : Initiator) (e : BitVec 3) (data : BitVec 32), (s.acts who = true) ∧ (s.flag (CRC_STAT.BUSY e.toNat) = false) ∧ (s.get (CRC_CFG.MODE e.toNat) = 1) :=
  ⟨(up.put (CRC_CFG.MODE 7) 1), .s0, 7, 0, by decide⟩
theorem witness_CheckEngineData_2 : ∃ (s : State) (who : Initiator) (e : BitVec 3) (data : BitVec 64), (s.acts who = true) ∧ (s.flag (CRC_STAT.BUSY e.toNat) = false) ∧ (s.get (CRC_CFG.MODE e.toNat) = 1) :=
  ⟨(up.put (CRC_CFG.MODE 7) 1), .s0, 7, 0, by decide⟩
theorem witness_CheckEngineData_3 : ∃ (s : State) (who : Initiator) (e : BitVec 3), (s.acts who = true) ∧ (s.flag (CRC_STAT.BUSY e.toNat) = false) :=
  ⟨State.reset, .tri, 0, by decide⟩
theorem witness_CheckEngineData_4 : ∃ (s : State) (who : Initiator) (e : BitVec 3) (x : BitVec 64), (s.acts who = true) ∧ (s.flag (CRC_STAT.BUSY e.toNat) = false) :=
  ⟨State.reset, .tri, 7, 0, by decide⟩
theorem witness_CheckEngineData_5 : ∃ (s : State) (who : Initiator) (e : BitVec 3) (data : BitVec 32), (s.acts who = true) ∧ (s.flag (CRC_STAT.BUSY e.toNat) = false) ∧ (s.get (CRC_CFG.MODE e.toNat) ≠ 1) :=
  ⟨up, .s0, 7, 0, by decide⟩
theorem witness_CheckEngineData_6 : ∃ (s : State) (who : Initiator) (e : BitVec 3) (data : BitVec 64), (s.acts who = true) ∧ (s.flag (CRC_STAT.BUSY e.toNat) = false) ∧ (s.get (CRC_CFG.MODE e.toNat) ≠ 1) :=
  ⟨up, .s0, 7, 0, by decide⟩
theorem witness_CheckEngineData_7 : ∃ (s : State) (who : Initiator) (e : BitVec 3) (data : BitVec 32), (s.acts who = true) ∧ (s.flag (CRC_STAT.BUSY e.toNat) = true) :=
  ⟨(up.putFlag (CRC_STAT.BUSY 7) true), .s0, 7, 0, by decide⟩
theorem witness_CheckEngineData_8 : ∃ (s : State) (who : Initiator) (e : BitVec 3) (data : BitVec 64), (s.acts who = true) ∧ (s.flag (CRC_STAT.BUSY e.toNat) = true) :=
  ⟨(up.putFlag (CRC_STAT.BUSY 7) true), .s0, 7, 0, by decide⟩
theorem witness_CheckEngineData_9 : ∃ (s : State) (who : Initiator) (e : BitVec 3), (s.acts who = true) ∧ (s.flag (CRC_STAT.BUSY e.toNat) = true) :=
  ⟨(up.putFlag (CRC_STAT.BUSY 7) true), .s0, 7, by decide⟩
theorem witness_CheckEngineData_10 : ∃ (s : State) (who : Initiator) (e : BitVec 3) (x : BitVec 64), (s.acts who = true) ∧ (s.flag (CRC_STAT.BUSY e.toNat) = true) :=
  ⟨(up.putFlag (CRC_STAT.BUSY 7) true), .s0, 7, 0, by decide⟩
theorem witness_CheckEngineJobs_1 : ∃ (s : State) (who : Initiator) (e : BitVec 3), (s.acts who = true) ∧ (s.flag (CRC_STAT.BUSY e.toNat) = false) ∧ (s.get (CRC_CFG.MODE e.toNat) = 1) :=
  ⟨(up.put (CRC_CFG.MODE 7) 1), .s0, 7, by decide⟩
theorem witness_CheckEngineJobs_2 : ∃ (s : State) (e : BitVec 3) (a len : Nat), ((s.eng e.toNat).job = some (a, len)) :=
  ⟨(State.reset.setEng 7 { CrcEng.init with job := some (0, 0) }), 7, 0, 0, by decide⟩
theorem witness_CheckEngineJobs_3 : ∃ (s : State) (who : Initiator) (e : BitVec 3) (k : BitVec 7), (s.acts who = true) ∧ (s.crcBusy e.toNat = false) :=
  ⟨up, .s0, 7, 127, by decide⟩
theorem witness_CheckEngineJobs_4 : ∃ (s : State) (who : Initiator) (e : BitVec 3) (k : BitVec 7) (c : CrcCtx), (s.acts who = true) ∧ (s.crcBusy e.toNat = false) ∧ (SMap.find s.safe.ctx k.toNat = some c) :=
  ⟨{ up with safe := { State.reset.safe with ctx := [(127, ⟨0, 0, 0⟩)] } }, .s0, 7, 127, ⟨0, 0, 0⟩, by decide⟩
theorem witness_CheckEngineJobs_5 : ∃ (s : State) (who : Initiator) (e : BitVec 3) (cfg : BitVec 32) (folded : Nat), (s.acts who = true) ∧ (bitsOf cfg.toNat 10 6 = 0) ∧ (s.crcBusy e.toNat = false) ∧ ((s.eng e.toNat).job = none) :=
  ⟨up, .s0, 7, 0xFFFF03FF, 0, by decide⟩
theorem witness_CheckEngineJobs_6 : ∃ (s : State) (who : Initiator) (e : BitVec 3) (cfg : BitVec 32) (folded : Nat), (s.acts who = true) ∧ (bitsOf cfg.toNat 10 6 ≠ 0) :=
  ⟨up, .s0, 0, 0x400, 0, by decide⟩
theorem witness_CheckEngineJobs_7 : ∃ (s : State) (who : Initiator) (e : BitVec 3) (k : BitVec 7), (s.acts who = true) ∧ (s.flag (CRC_STAT.BUSY e.toNat) = true) :=
  ⟨(up.putFlag (CRC_STAT.BUSY 7) true), .s0, 7, 127, by decide⟩
theorem witness_CheckEngineJobs_8 : ∃ (s : State) (who : Initiator) (e : BitVec 3) (k : BitVec 7), (s.acts who = true) ∧ (s.flag (CRC_STAT.BUSY e.toNat) = true) :=
  ⟨(up.putFlag (CRC_STAT.BUSY 7) true), .s0, 7, 127, by decide⟩
theorem witness_CheckEngineJobs_9 : ∃ (s : State) (who : Initiator) (e : BitVec 3) (k : BitVec 7), (s.acts who = true) ∧ (s.flag (CRC_STAT.OPEN e.toNat) = true) :=
  ⟨(up.putFlag (CRC_STAT.OPEN 7) true), .s0, 7, 127, by decide⟩
theorem witness_CheckEngineJobs_10 : ∃ (s : State) (who : Initiator) (e : BitVec 3) (k : BitVec 7), (s.acts who = true) ∧ (s.flag (CRC_STAT.OPEN e.toNat) = true) :=
  ⟨(up.putFlag (CRC_STAT.OPEN 7) true), .s0, 7, 127, by decide⟩
theorem witness_CheckEngineJobs_11 : ∃ (s : State) (who : Initiator) (e : BitVec 3) (cfg : BitVec 32) (folded : Nat), (s.acts who = true) ∧ (bitsOf cfg.toNat 10 6 = 0) ∧ (s.crcBusy e.toNat = true) :=
  ⟨(up.putFlag (CRC_STAT.BUSY 7) true), .s0, 7, 0xFFFF03FF, 0, by decide⟩
theorem witness_CheckEngineJobs_12 : ∃ (s : State) (e : BitVec 3) (key : BitVec 16) (data : List Byte) (addr : BitVec 64) (fcs : Bool), (ownStream (s.get (CRC_CFG.SRC e.toNat)) = false) ∧ (s.snoops e.toNat key.toNat = true) ∧ (s.get (CRC_CFG.MODE e.toNat) = 3) ∧ ((s.eng e.toNat).frame = none) :=
  ⟨(((State.reset.put (CRC_CFG.MODE 7) 3).put (CRC_CFG.SRC 7) 6).put (CRC_CFG.FILTER 7) 5), 7, 5, [], 0, false, by decide⟩
theorem witness_CheckEngineJobs_13 : ∃ (s : State) (e : BitVec 3) (key : BitVec 16) (data : List Byte) (addr : BitVec 64) (fcs : Bool) (d : List Byte), (ownStream (s.get (CRC_CFG.SRC e.toNat)) = true) ∧ (s.snoops e.toNat key.toNat = true) ∧ ((s.eng e.toNat).frame = some d) :=
  ⟨((State.reset.setEng 7 { CrcEng.init with frame := some [1] }).put (CRC_CFG.SRC 7) 8), 7, 5, [], 0, false, [1], by decide⟩
theorem witness_FieldOutputs_1 : ∃ (s : State) (t : Nat) (g : Nat) (v : State), (v = s.at_ t) ∧ (g < 8) ∧ (v.grpUsed g = true) ∧ (v.flag (DIO_GSTAT.UV g) = false) ∧ (16 ≤ (v.voltsOf g).1) :=
  ⟨{ (State.reset.put (DIO_GRP.UN 7) 3) with dio := { State.reset.dio with volts := [(7, (16, 0, 0))] } }, 0, 7, _, rfl, by decide⟩
theorem witness_FieldOutputs_2 : ∃ (s : State) (t : Nat) (g : Nat) (v : State), (v = s.at_ t) ∧ (g < 8) ∧ (v.grpUsed g = true) ∧ (v.flag (DIO_GSTAT.OV g) = false) ∧ (16 ≤ (v.voltsOf g).2.2) :=
  ⟨{ (State.reset.put (DIO_GRP.UN 7) 3) with dio := { State.reset.dio with volts := [(7, (0, 0, 16))] } }, 0, 7, _, rfl, by decide⟩
theorem witness_FieldOutputs_3 : ∃ (s : State) (t : Nat) (g : Nat) (v : State), (v = s.at_ t) ∧ (g < 8) ∧ (v.flag (DIO_GSTAT.UV g) = true) ∧ (160 ≤ (v.voltsOf g).2.1) :=
  ⟨{ (State.reset.putFlag (DIO_GSTAT.UV 7) true) with dio := { State.reset.dio with volts := [(7, (0, 160, 0))] } }, 0, 7, _, rfl, by decide⟩
theorem witness_FieldOutputs_4 : ∃ (s : State) (t : Nat) (g : Nat) (v : State), (v = s.at_ t) ∧ (g < 8) ∧ (v.flag (DIO_GSTAT.OV g) = true) ∧ (10 * v.get (DIO_GSTAT.VG g) < 14 * v.grpUn g) :=
  ⟨((State.reset.put (DIO_GRP.UN 7) 3).putFlag (DIO_GSTAT.OV 7) true), 0, 7, _, rfl, by decide⟩
theorem witness_FieldOutputs_5 : ∃ (s : State) (t : Nat) (g : Nat) (v : State), (v = s.at_ t) ∧ (g < 8) ∧ (v.grpUsed g = true) ∧ (v.flag (DIO_GSTAT.OVC g) = false) :=
  ⟨(State.reset.put (DIO_GRP.UN 0) 3), 0, 0, _, rfl, by decide⟩
theorem witness_FieldOutputs_6 : ∃ (s : State) (t : Nat) (g : Nat) (v : State), (v = s.at_ t) ∧ (g < 8) ∧ (v.flag (DIO_GSTAT.OVC g) = true) ∧ (1600 ≤ SMap.getD v.dio.ovc g 0) :=
  ⟨{ (State.reset.putFlag (DIO_GSTAT.OVC 0) true) with dio := { State.reset.dio with ovc := [(0, 1600)] } }, 0, 0, _, rfl, by decide⟩
theorem witness_FieldOutputs_7 : ∃ (s : State) (t : Nat) (ch : Nat) (v : State), (v = s.at_ t) ∧ (ch < 64) ∧ (v.pers ch = 1) ∧ ((v.chan ch).drv = true) :=
  ⟨(((State.reset.put (DIO_GRP.UN 7) 3).put (DIO_CH_CFG.PERS 63) 1).setChan 63 { Chan.init with drv := true }), 0, 63, _, rfl, by decide⟩
theorem witness_FieldOutputs_8 : ∃ (s : State) (t : Nat) (ch : Nat) (level : Bool) (v : State), (v = s.at_ t) ∧ (ch < 64) ∧ (v.pers ch = 1) ∧ ((v.chan ch).test = 0) ∧ ((v.chan ch).drv ≠ level) ∧ (v.settled ch = true) :=
  ⟨((awake.put (DIO_GRP.UN 7) 3).put (DIO_CH_CFG.PERS 63) 1), 2550000, 63, true, _, rfl, by decide⟩
theorem witness_FieldOutputs_9 : ∃ (s : State) (t : Nat) (g : Nat) (v : State), (v = s.at_ t) ∧ (g < 8) ∧ (v.grpUsed g = true) ∧ (bitOf v.dio.tested g = false) ∧ (v.flag (DIO_GSTAT.GSW g) = false) :=
  ⟨(State.reset.put (DIO_GRP.UN 7) 3), 0, 7, _, rfl, by decide⟩
theorem witness_FieldOutputs_10 : ∃ (s : State) (t : Nat) (g : Nat) (v : State), (v = s.at_ t) ∧ (g < 8) ∧ (v.grpUsed g = true) ∧ (bitOf v.dio.tested g = false) ∧ (v.flag (DIO_GSTAT.GSW g) = false) :=
  ⟨(State.reset.put (DIO_GRP.UN 0) 3), 0, 0, _, rfl, by decide⟩
theorem witness_FieldOutputs_11 : ∃ (s : State) (t : Nat) (v : State), (v = s.at_ t) ∧ (v.flag DIO_STAT.KICK_TRIP = false) ∧ (atLeast1 (v.get DIO_CTRL.SIL_TMO) ≤ v.dio.silent) :=
  ⟨{ (State.reset.put DIO_STAT.KICK_TRIP 0) with dio := { State.reset.dio with silent := 70000 } }, 0, _, rfl, by decide⟩
theorem witness_FieldOutputs_12 : ∃ (s : State) (t : Nat) (ch : Nat) (v : State), (v = s.at_ t) ∧ (ch < 64) ∧ (v.pers ch = 1) ∧ (v.flag (DIO_CH_CFG.TEST_EN ch) = true) ∧ ((v.chan ch).drv = true) ∧ (v.get (DIO_CH_TEST.DARK_PER ch) ≠ 0) ∧ (msTicks (10 * v.get (DIO_CH_TEST.DARK_PER ch)) ≤ (v.chan ch).sinceDark) ∧ (v.grpTesting (ch / 8) = false) :=
  ⟨((((State.reset.put (DIO_GRP.UN 7) 3).put (DIO_CH_CFG.PERS 63) 1).putFlag (DIO_CH_CFG.TEST_EN 63) true).put (DIO_CH_TEST.DARK_PER 63) 1).setChan 63 { Chan.init with drv := true, sinceDark := 160 }, 0, 63, _, rfl, by decide⟩
theorem witness_FieldOutputs_13 : ∃ (s : State) (t : Nat) (ch : Nat) (v : State), (v = s.at_ t) ∧ (ch < 64) ∧ (v.pers ch = 1) ∧ (v.flag (DIO_CH_CFG.TEST_EN ch) = true) ∧ ((v.chan ch).drv = false) ∧ ((v.chan ch).demand = false) ∧ ((v.chan ch).sinceOn = none) ∧ (v.get (DIO_CH_TEST.LIGHT_PER ch) ≠ 0) ∧ (msTicks (10 * v.get (DIO_CH_TEST.LIGHT_PER ch)) ≤ (v.chan ch).sinceLight) ∧ (v.grpTesting (ch / 8) = false) ∧ (v.grpHeld (ch / 8) = false) ∧ (bitOf v.dio.tested (ch / 8) = true) :=
  ⟨{ ((((State.reset.put (DIO_GRP.UN 7) 3).put (DIO_CH_CFG.PERS 63) 1).putFlag (DIO_CH_CFG.TEST_EN 63) true).put (DIO_CH_TEST.LIGHT_PER 63) 1) with dio := { State.reset.dio with chans := [(63, { Chan.init with sinceLight := 160, sinceOn := none })], tested := 128 } }, 0, 63, _, rfl, by decide⟩
theorem witness_FieldOutputs_14 : ∃ (s : State) (t : Nat) (ch k : Nat) (v : State), (v = s.at_ t) ∧ (ch < 64) ∧ (v.pers ch = 1) ∧ (v.flag (DIO_CH_CFG.TEST_EN ch) = true) ∧ ((v.chan ch).drv = false) ∧ ((v.chan ch).demand = false) ∧ ((v.chan ch).sinceOn = some k) ∧ (16 ≤ k) ∧ (v.get (DIO_CH_TEST.LIGHT_PER ch) ≠ 0) ∧ (msTicks (10 * v.get (DIO_CH_TEST.LIGHT_PER ch)) ≤ (v.chan ch).sinceLight) ∧ (v.grpTesting (ch / 8) = false) ∧ (v.grpHeld (ch / 8) = false) ∧ (bitOf v.dio.tested (ch / 8) = true) :=
  ⟨{ ((((State.reset.put (DIO_GRP.UN 7) 3).put (DIO_CH_CFG.PERS 63) 1).putFlag (DIO_CH_CFG.TEST_EN 63) true).put (DIO_CH_TEST.LIGHT_PER 63) 1) with dio := { State.reset.dio with chans := [(63, { Chan.init with sinceLight := 160, sinceOn := some 16 })], tested := 128 } }, 0, 63, 16, _, rfl, by decide⟩
theorem witness_FieldOutputs_15 : ∃ (s : State) (t : Nat) (ch : Nat) (a b : Bool) (v : State), (v = s.at_ t) ∧ (ch < 64) ∧ ((v.chan ch).test = 1) ∧ ((v.chan ch).testAt + v.testWidth ch ≤ v.localNow) :=
  ⟨(awake.setChan 63 { Chan.init with test := 1 }), 2500000, 63, false, true, _, rfl, by decide⟩
theorem witness_FieldOutputs_16 : ∃ (s : State) (t : Nat) (ch : Nat) (a b : Bool) (v : State), (v = s.at_ t) ∧ (ch < 64) ∧ ((v.chan ch).test = 2) ∧ ((v.chan ch).testAt + v.testWidth ch ≤ v.localNow) :=
  ⟨(awake.setChan 63 { Chan.init with test := 2 }), 2500000, 63, false, true, _, rfl, by decide⟩
theorem witness_FieldOutputs_17 : ∃ (s : State) (t : Nat) (ch : Nat) (v : State), (v = s.at_ t) ∧ (ch < 64) ∧ (v.flag (DIO_CH_STAT.FAULTED ch) = true) ∧ (v.clearMet ch = true) ∧ ((v.chanHeal ch).pers ch ≠ 1) :=
  ⟨((State.reset.put (DIO_CH_STAT.CAUSE 63) 1).putFlag (DIO_CH_STAT.FAULTED 63) true).setChan 63 { Chan.init with clearTicks := 16 }, 0, 63, _, rfl, by decide⟩
theorem witness_FieldOutputs_18 : ∃ (s : State) (t : Nat) (ch : Nat) (v : State), (v = s.at_ t) ∧ (ch < 64) ∧ (v.flag (DIO_CH_STAT.FAULTED ch) = true) ∧ (v.clearMet ch = true) ∧ ((v.chanHeal ch).pers ch = 1) ∧ ((v.chanHeal ch).flag (DIO_GSTAT.OVC (ch / 8)) = false) ∧ ((v.chanHeal ch).grpHeld (ch / 8) = false) ∧ (((v.chanHeal ch).bit DIO.STATE ch && !((v.chanHeal ch).chan ch).drv && (v.chanHeal ch).settled ch) = false) :=
  ⟨((((State.reset.put (DIO_GRP.UN 7) 3).put (DIO_CH_CFG.PERS 63) 1).put (DIO_CH_STAT.CAUSE 63) 1).putFlag (DIO_CH_STAT.FAULTED 63) true).setChan 63 { Chan.init with clearTicks := 16 }, 0, 63, _, rfl, by decide⟩
theorem witness_FieldOutputs_19 : ∃ (s : State) (t : Nat) (ch : Nat) (v : State), (v = s.at_ t) ∧ (ch < 64) :=
  ⟨State.reset, 0, 63, _, rfl, by decide⟩
theorem witness_FieldInputs_1 : ∃ (s : State) (t : Nat) (ch : Nat) (level : Bool) (v : State), (v = s.at_ t) ∧ (ch < 64) ∧ (v.grpUsed (ch / 8) = true) ∧ (v.bit DIO.STATE ch ≠ level) ∧ (v.pers ch = 0) ∧ (v.filterMay ch = true) ∧ ((v.setPin ch level).pers ch = 0) ∧ (((((v.setPin ch level).stampEvent ch).inc (DIO_CH_EDGE_CNT ch)).homeCapture ch).flag (DIO_CH_CFG.WET ch) = false ∨ ((((v.setPin ch level).stampEvent ch).inc (DIO_CH_EDGE_CNT ch)).homeCapture ch).flag (DIO_CH_STAT.WETTING ch) = true) :=
  ⟨((State.reset.put (DIO_GRP.UN 7) 3).put (DIO_CH_CFG.WET 63) 0), 0, 63, true, _, rfl, by decide⟩
theorem witness_FieldInputs_2 : ∃ (s : State) (t : Nat) (ch : Nat) (level : Bool) (v : State), (v = s.at_ t) ∧ (ch < 64) ∧ (v.grpUsed (ch / 8) = true) ∧ (v.bit DIO.STATE ch ≠ level) ∧ (v.pers ch = 0) ∧ (v.filterMay ch = true) ∧ ((v.setPin ch level).pers ch = 0) ∧ (((((v.setPin ch level).stampEvent ch).inc (DIO_CH_EDGE_CNT ch)).homeCapture ch).flag (DIO_CH_CFG.WET ch) = true) ∧ (((((v.setPin ch level).stampEvent ch).inc (DIO_CH_EDGE_CNT ch)).homeCapture ch).flag (DIO_CH_STAT.WETTING ch) = false) ∧ ((((((v.setPin ch level).stampEvent ch).inc (DIO_CH_EDGE_CNT ch)).homeCapture ch).chan ch).wetEnd = none) ∧ (((List.range 8).filter (fun i => ((((v.setPin ch level).stampEvent ch).inc (DIO_CH_EDGE_CNT ch)).homeCapture ch).flag (DIO_CH_STAT.WETTING (8 * (ch / 8) + i)))).length < 4) :=
  ⟨((State.reset.put (DIO_GRP.UN 7) 3).put (DIO_CH_CFG.WET 63) 1), 0, 63, true, _, rfl, by decide⟩
theorem witness_FieldInputs_3 : ∃ (s : State) (t : Nat) (ch : Nat) (level : Bool) (e : Nat) (v : State), (v = s.at_ t) ∧ (ch < 64) ∧ (v.grpUsed (ch / 8) = true) ∧ (v.bit DIO.STATE ch ≠ level) ∧ (v.pers ch = 0) ∧ (v.filterMay ch = true) ∧ ((v.setPin ch level).pers ch = 0) ∧ (((((v.setPin ch level).stampEvent ch).inc (DIO_CH_EDGE_CNT ch)).homeCapture ch).flag (DIO_CH_CFG.WET ch) = true) ∧ (((((v.setPin ch level).stampEvent ch).inc (DIO_CH_EDGE_CNT ch)).homeCapture ch).flag (DIO_CH_STAT.WETTING ch) = false) ∧ ((((((v.setPin ch level).stampEvent ch).inc (DIO_CH_EDGE_CNT ch)).homeCapture ch).chan ch).wetEnd = some e) ∧ (e + 18000000 ≤ ((((v.setPin ch level).stampEvent ch).inc (DIO_CH_EDGE_CNT ch)).homeCapture ch).localNow) ∧ (((List.range 8).filter (fun i => ((((v.setPin ch level).stampEvent ch).inc (DIO_CH_EDGE_CNT ch)).homeCapture ch).flag (DIO_CH_STAT.WETTING (8 * (ch / 8) + i)))).length < 4) :=
  ⟨(((awake.put (DIO_GRP.UN 7) 3).put (DIO_CH_CFG.WET 63) 1).setChan 63 { Chan.init with wetEnd := some 7 }), 18000007, 63, true, 7, _, rfl, by decide⟩
theorem witness_FieldInputs_4 : ∃ (s : State) (t : Nat) (ch : Nat) (level : Bool) (e : Nat) (v : State), (v = s.at_ t) ∧ (ch < 64) ∧ (v.grpUsed (ch / 8) = true) ∧ (v.bit DIO.STATE ch ≠ level) ∧ (v.pers ch = 0) ∧ (v.filterMay ch = true) ∧ ((v.setPin ch level).pers ch = 0) ∧ (((((v.setPin ch level).stampEvent ch).inc (DIO_CH_EDGE_CNT ch)).homeCapture ch).flag (DIO_CH_CFG.WET ch) = true) ∧ (((((v.setPin ch level).stampEvent ch).inc (DIO_CH_EDGE_CNT ch)).homeCapture ch).flag (DIO_CH_STAT.WETTING ch) = false) ∧ ((((((v.setPin ch level).stampEvent ch).inc (DIO_CH_EDGE_CNT ch)).homeCapture ch).chan ch).wetEnd = some e) ∧ (((((v.setPin ch level).stampEvent ch).inc (DIO_CH_EDGE_CNT ch)).homeCapture ch).localNow < e + 18000000) :=
  ⟨(((awake.put (DIO_GRP.UN 7) 3).put (DIO_CH_CFG.WET 63) 1).setChan 63 { Chan.init with wetEnd := some 7 }), 18000006, 63, true, 7, _, rfl, by decide⟩
theorem witness_FieldInputs_5 : ∃ (s : State) (t : Nat) (ch : Nat) (level : Bool) (v : State), (v = s.at_ t) ∧ (ch < 64) ∧ (v.grpUsed (ch / 8) = true) ∧ (v.bit DIO.STATE ch ≠ level) ∧ (v.pers ch = 0) ∧ (v.filterMay ch = true) ∧ ((v.setPin ch level).pers ch = 0) ∧ (((((v.setPin ch level).stampEvent ch).inc (DIO_CH_EDGE_CNT ch)).homeCapture ch).flag (DIO_CH_CFG.WET ch) = true) ∧ (((((v.setPin ch level).stampEvent ch).inc (DIO_CH_EDGE_CNT ch)).homeCapture ch).flag (DIO_CH_STAT.WETTING ch) = false) ∧ (4 ≤ ((List.range 8).filter (fun i => ((((v.setPin ch level).stampEvent ch).inc (DIO_CH_EDGE_CNT ch)).homeCapture ch).flag (DIO_CH_STAT.WETTING (8 * (ch / 8) + i)))).length) :=
  ⟨((((((State.reset.put (DIO_GRP.UN 7) 3).put (DIO_CH_CFG.WET 63) 1).putFlag (DIO_CH_STAT.WETTING 56) true).putFlag (DIO_CH_STAT.WETTING 57) true).putFlag (DIO_CH_STAT.WETTING 58) true).putFlag (DIO_CH_STAT.WETTING 59) true), 0, 63, true, _, rfl, by decide⟩
theorem witness_FieldInputs_6 : ∃ (s : State) (t : Nat) (ch : Nat) (level : Bool) (v : State), (v = s.at_ t) ∧ (ch < 64) ∧ (v.grpUsed (ch / 8) = true) ∧ (v.bit DIO.STATE ch ≠ level) ∧ (v.pers ch ≠ 0) ∧ ((v.setPin ch level).pers ch ≠ 0) :=
  ⟨((State.reset.put (DIO_GRP.UN 7) 3).put (DIO_CH_CFG.PERS 63) 1), 0, 63, true, _, rfl, by decide⟩
theorem witness_FieldInputs_7 : ∃ (s : State) (t : Nat) (ch : Nat) (v : State), (v = s.at_ t) ∧ (ch < 64) ∧ (v.flag (DIO_CH_STAT.WETTING ch) = true) ∧ (v.wetDone ch = true) :=
  ⟨((awake.putFlag (DIO_CH_STAT.WETTING 63) true).setChan 63 { Chan.init with wetFrom := some 0 }), 1900000, 63, _, rfl, by decide⟩
theorem witness_CurrentLoops_1 : ∃ (s : State) (t : Nat) (c since : Nat) (v : State), (v = s.at_ t) ∧ (c < 4) ∧ ((v.loop c).overSince = some since) ∧ (since + 1000000 * atLeast1 (v.get (LOOP_CH_FT.FT c)) ≤ v.localNow) ∧ (v.flag (LOOP_CH_STAT.FAULT c) = false) :=
  ⟨{ (State.reset.setLoop 3 { Loop.init with overSince := some 0 }) with time := { State.reset.time with edge := 65535000000 } }, 0, 3, 0, _, rfl, by decide⟩
theorem witness_CurrentLoops_2 : ∃ (s : State) (t : Nat) (who : Initiator) (mask : BitVec 4) (v : State), (v = s.at_ t) ∧ (v.acts who = true) :=
  ⟨State.reset, 0, .boot, 0, _, rfl, by decide⟩
theorem witness_CurrentLoops_3 : ∃ (s : State) (t : Nat) (c : Nat) (v : State), (v = s.at_ t) ∧ (c < 4) ∧ (v.get (LOOP_CH_CFG.AUTO_RETRY c) ≠ 0) ∧ (v.flag (LOOP_CH_STAT.FAULT c) = true) ∧ ((v.loop c).faultAt + v.get (LOOP_CH_CFG.AUTO_RETRY c) * 1000000000 ≤ v.localNow) :=
  ⟨{ ((State.reset.putFlag (LOOP_CH_STAT.FAULT 3) true).put (LOOP_CH_CFG.AUTO_RETRY 3) 1) with time := { State.reset.time with edge := 1000000000 } }, 0, 3, _, rfl, by decide⟩
theorem witness_CurrentLoops_4 : ∃ (s : State) (c : Nat), (c < 4) ∧ (s.flag (LOOP_CH_STAT.FAULT c) = true) :=
  ⟨(State.reset.putFlag (LOOP_CH_STAT.FAULT 3) true), 3, by decide⟩
theorem witness_CurrentLoops_5 : ∃ (s : State) (c : Nat), (c < 4) ∧ (s.flag (LOOP_CH_STAT.COMPLIANCE c) = false) :=
  ⟨State.reset, 3, by decide⟩
theorem witness_CurrentLoops_6 : ∃ (s : State) (c : Nat), (c < 4) ∧ (s.flag (LOOP_CH_STAT.COMPLIANCE c) = true) :=
  ⟨(State.reset.putFlag (LOOP_CH_STAT.COMPLIANCE 0) true), 0, by decide⟩
theorem witness_CurrentLoops_7 : ∃ (s : State) (t : Nat) (who : Initiator) (c len : Nat) (v : State), (v = s.at_ t) ∧ (v.acts who = true) ∧ (c < 4) ∧ (v.flag (LOOP_CH_STAT.HART_BUSY c) = false) ∧ (v.hartOn c = true) ∧ (0 < len) ∧ (len ≤ 288) :=
  ⟨((up.put (LOOP_CH_CFG.MODE 3) 3).put SYS_STAT.MODE 3), 0, .s0, 3, 288, _, rfl, by decide⟩
theorem witness_CurrentLoops_8 : ∃ (s : State) (t : Nat) (who : Initiator) (c len : Nat) (v : State), (v = s.at_ t) ∧ (v.acts who = true) ∧ (c < 4) ∧ (v.hartOn c = false ∨ len = 0 ∨ 288 < len) :=
  ⟨((up.put (LOOP_CH_CFG.MODE 3) 3).put SYS_STAT.MODE 3), 0, .s0, 3, 0, _, rfl, by decide⟩
theorem witness_CurrentLoops_9 : ∃ (s : State) (t : Nat) (who : Initiator) (c len : Nat) (v : State), (v = s.at_ t) ∧ (v.acts who = true) ∧ (c < 4) ∧ (v.flag (LOOP_CH_STAT.HART_BUSY c) = true) :=
  ⟨(up.putFlag (LOOP_CH_STAT.HART_BUSY 3) true), 0, .s0, 3, 1, _, rfl, by decide⟩
theorem witness_CurrentLoops_10 : ∃ (s : State) (t : Nat) (c : Nat) (frame : List (Byte × Bool)) (v : State), (v = s.at_ t) ∧ (c < 4) ∧ (v.hartOn c = true) ∧ (v.flag (LOOP_CH_STAT.HART_BUSY c) = true) ∧ ((v.loop c).sentAt ≤ v.localNow) :=
  ⟨(((State.reset.put (LOOP_CH_CFG.MODE 3) 3).put SYS_STAT.MODE 3).putFlag (LOOP_CH_STAT.HART_BUSY 3) true), 0, 3, [], _, rfl, by decide⟩
theorem witness_CurrentLoops_11 : ∃ (s : State) (t : Nat) (c : Nat) (frame : List (Byte × Bool)) (v : State), (v = s.at_ t) ∧ (c < 4) ∧ (v.hartOn c = true) ∧ (v.flag (LOOP_CH_STAT.HART_BUSY c) = false ∨ v.localNow < (v.loop c).sentAt) :=
  ⟨((State.reset.put (LOOP_CH_CFG.MODE 3) 3).put SYS_STAT.MODE 3), 0, 3, [], _, rfl, by decide⟩
theorem witness_CurrentLoops_12 : ∃ (s : State) (t : Nat) (c : Nat) (frame : List (Byte × Bool)) (v : State), (v = s.at_ t) ∧ (c < 4) ∧ (v.hartOn c = true) :=
  ⟨((State.reset.put (LOOP_CH_CFG.MODE 3) 3).put SYS_STAT.MODE 3), 0, 3, [], _, rfl, by decide⟩
theorem witness_CurrentLoops_13 : ∃ (s : State) (t : Nat) (c : Nat) (v : State), (v = s.at_ t) ∧ (c < 4) ∧ (v.flag (LOOP_CH_STAT.HART_BUSY c) = true) ∧ ((v.loop c).sentAt + hartNs hartSto ≤ v.localNow) :=
  ⟨({ State.reset with ofs := 0, time := { State.reset.time with edge := 1000000000 } }.putFlag (LOOP_CH_STAT.HART_BUSY 3) true), 0, 3, _, rfl, by decide⟩
theorem witness_CurrentLoops_14 : ∃ (s : State) (t : Nat) (c : Nat) (v : State), (v = s.at_ t) ∧ (c < 4) ∧ (v.localNow < (v.loop c).sentAt + hartNs hartSto) :=
  ⟨State.reset, 0, 3, _, rfl, by decide⟩
theorem witness_CurrentLoops_15 : ∃ (s : State) (t : Nat) (c : Nat) (v : State), (v = s.at_ t) ∧ (c < 4) :=
  ⟨State.reset, 0, 3, _, rfl, by decide⟩
theorem witness_ClockSources_1 : ∃ (s : State) (t : Nat) (ab ar br : Int) (v : State), (v = s.at_ t) :=
  ⟨State.reset, 0, 0, 0, 0, _, rfl⟩
theorem witness_ClockSources_2 : ∃ (s : State) (t : Nat) (v : State), (v = s.at_ t) :=
  ⟨State.reset, 0, _, rfl⟩
theorem witness_ClockSources_3 : ∃ (s : State) (t : Nat) (src : Nat) (v : State), (v = s.at_ t) ∧ (src < 3) ∧ (v.srcRuns src = true) :=
  ⟨{ State.reset with clk := { State.reset.clk with run := 7 } }, 0, 2, _, rfl, by decide⟩
theorem witness_ClockSources_4 : ∃ (s : State) (t : Nat) (src : Nat) (v : State), (v = s.at_ t) ∧ (src < 3) ∧ (v.srcRuns src = true) ∧ (v.srcOk src = false) ∧ (SMap.getD v.clk.restartAt src 0 + 16000000 ≤ v.localNow) :=
  ⟨{ (State.reset.put CLK_STAT.OK 0) with clk := { State.reset.clk with run := 7 }, time := { State.reset.time with edge := 16000000 } }, 0, 2, _, rfl, by decide⟩
theorem witness_ClockSources_5 : ∃ (s : State) (t : Nat) (v : State), (v = s.at_ t) ∧ (v.flag CLK_STAT.DOUBT = true) ∧ (v.clk.doubtAt + 16000000 ≤ v.localNow) :=
  ⟨{ (State.reset.putFlag CLK_STAT.DOUBT true) with time := { State.reset.time with edge := 16000000 } }, 0, _, rfl, by decide⟩
theorem witness_ClockSources_6 : ∃ (s : State) (t : Nat) (v : State), (v = s.at_ t) ∧ (v.srcOk 0 = true) ∧ (v.proofDue = true) :=
  ⟨(State.reset.put CLK_STAT.OK 3), 0, _, rfl, by decide⟩
theorem witness_ClockSources_7 : ∃ (s : State) (k : Nat), (s.clk.proofAt = some k) :=
  ⟨{ State.reset with clk := { State.reset.clk with proofAt := some 7 } }, 7, by decide⟩
theorem witness_ClockSources_8 : ∃ (s : State) (t : Nat) (src : Nat) (v : State), (v = s.at_ t) ∧ (src < 2) ∧ (v.bit CLK_STAT.FAIL src = true) ∧ (v.srcRuns src = false) ∧ (SMap.getD v.clk.restartAt src 0 + 1000000000 ≤ v.localNow) :=
  ⟨{ (State.reset.put CLK_STAT.FAIL 2) with time := { State.reset.time with edge := 1000000000 }, clk := { State.reset.clk with run := 0 } }, 0, 1, _, rfl, by decide⟩
theorem witness_ClockDomains_1 : ∃ (s : State) (t : Nat) (v : State), (v = s.at_ t) ∧ (v.flag CLK_STAT.PLL_LOCK = true) :=
  ⟨(State.reset.putFlag CLK_STAT.PLL_LOCK true), 0, _, rfl, by decide⟩
theorem witness_ClockDomains_2 : ∃ (s : State) (t : Nat) (dom : Nat) (v : State), (v = s.at_ t) ∧ (dom < 7) :=
  ⟨State.reset, 0, 6, _, rfl, by decide⟩
theorem witness_ClockDomains_3 : ∃ (s : State) (dom : Nat), (dom = 2 ∨ dom = 5) :=
  ⟨{ State.reset with brg := { State.reset.brg with lock := some ⟨.s0, 0, none, none, none⟩ } }, 5, by decide⟩
theorem witness_ClockDomains_4 : ∃ (s : State) (ok : BitVec 3) (rco : Nat), (s.pwr.inReset = true) ∧ (s.pwr.dormant = false) :=
  ⟨{ State.reset with pwr := { State.reset.pwr with inReset := true, dormant := false } }, 7, 1500000, by decide⟩
theorem witness_ClockDomains_5 : ∃ (s : State) (t : Nat) (svc : Bool) (v : State), (v = s.at_ t) ∧ (v.flag (gearBusy svc) = true) :=
  ⟨(State.reset.putFlag CLK_GEAR_STAT.S_BUSY true), 0, true, _, rfl, by decide⟩
theorem witness_ClockDomains_6 : ∃ (s : State) (t : Nat) (svc : Bool) (v : State), (v = s.at_ t) ∧ (v.flag (gearBusy svc) = true) ∧ (v.get (gearAct svc) < SMap.getD v.clk.gearTo svc.toNat 2) ∧ (SMap.getD v.clk.gearAt svc.toNat 0 + 50000 ≤ v.localNow) :=
  ⟨((awake.putFlag CLK_GEAR_STAT.T_BUSY true).put CLK_GEAR_STAT.T_ACT 0), 50000, false, _, rfl, by decide⟩
theorem witness_TripVote_1 : ∃ (s : State) (t : Nat) (f0 f1 f2 : BitVec 512) (v : State), (v = s.at_ t) ∧ (v.pwr.inReset = false) ∧ (v.pwr.dormant = false) ∧ ((({ v with trip := { v.trip with lits := v.capture } }).showOwn).evals = [0, 1, 2]) :=
  ⟨({ State.reset with pwr := { State.reset.pwr with inReset := false } }.put TRIP_STAT.EVAL 7), 0, 0, 0, 0, _, rfl, by decide⟩
theorem witness_TripVote_2 : ∃ (s : State) (t : Nat) (f0 f1 f2 : BitVec 512) (a b : Nat) (v : State), (v = s.at_ t) ∧ (v.pwr.inReset = false) ∧ (v.pwr.dormant = false) ∧ ((({ v with trip := { v.trip with lits := v.capture } }).showOwn).evals = [a, b]) :=
  ⟨({ State.reset with pwr := { State.reset.pwr with inReset := false } }.put TRIP_STAT.EVAL 6), 0, 0, 0, 0, 1, 2, _, rfl, by decide⟩
theorem witness_TripVote_3 : ∃ (s : State) (t : Nat) (f0 f1 f2 : BitVec 512) (v : State), (v = s.at_ t) ∧ (v.pwr.inReset = false) ∧ (v.pwr.dormant = false) ∧ (2 ≤ (({ v with trip := { v.trip with lits := v.capture } }).showOwn).evals.length) :=
  ⟨({ State.reset with pwr := { State.reset.pwr with inReset := false } }.put TRIP_STAT.EVAL 7), 0, 0, 0, 0, _, rfl, by decide⟩
theorem witness_TripVote_4 : ∃ (s : State) (t : Nat) (f0 f1 f2 : BitVec 512) (xfail : Bool) (v : State), (v = s.at_ t) ∧ (v.pwr.inReset = false) ∧ (v.pwr.dormant = false) ∧ ((({ v with trip := { v.trip with lits := v.capture } }).showOwn).evals.length < 2) :=
  ⟨({ State.reset with pwr := { State.reset.pwr with inReset := false } }.put TRIP_STAT.EVAL 4), 0, 0, 0, 0, true, _, rfl, by decide⟩
theorem witness_TripVote_5 : ∃ (s : State) (t : Nat) (f0 f1 f2 : BitVec 512) (xfail : Bool) (v : State), (v = s.at_ t) ∧ (v.pwr.inReset = false) ∧ (v.pwr.dormant = false) ∧ (16384 ≤ v.trip.testTicks) ∧ (v.evals.length < 3) :=
  ⟨{ ({ State.reset with pwr := { State.reset.pwr with inReset := false } }.put TRIP_STAT.EVAL 6) with trip := { State.reset.trip with testTicks := 16384 } }, 0, 0, 0, 0, true, _, rfl, by decide⟩
theorem witness_TripVote_6 : ∃ (s : State) (t : Nat) (v : State), (v = s.at_ t) ∧ (v.pwr.inReset = false) ∧ (v.pwr.dormant = false) ∧ (16384 ≤ v.trip.testTicks) ∧ (v.evals = [0, 1, 2]) :=
  ⟨{ ({ State.reset with pwr := { State.reset.pwr with inReset := false } }.put TRIP_STAT.EVAL 7) with trip := { State.reset.trip with testTicks := 16384 } }, 0, _, rfl, by decide⟩
theorem witness_TripVote_7 : ∃ (s : State) (t : Nat) (f0 f1 f2 : BitVec 512) (v : State), (v = s.at_ t) ∧ (v.pwr.inReset = false) ∧ (v.pwr.dormant = false) ∧ (16384 ≤ v.trip.testTicks) ∧ (v.evals = [0, 1, 2]) :=
  ⟨{ ({ State.reset with pwr := { State.reset.pwr with inReset := false } }.put TRIP_STAT.EVAL 7) with trip := { State.reset.trip with testTicks := 16384 } }, 0, 0, 0, 0, _, rfl, by decide⟩
theorem witness_TripLatches_1 : ∃ (s : State) (t : Nat) (bank : Bool) (v : State), (v = s.at_ t) ∧ (v.unlocked .boot 0x0B = true) :=
  ⟨{ State.reset with regg := { State.reset.regg with unlocks := [(5, ⟨0x0B, 0⟩)] } }, 0, true, _, rfl, by decide⟩
theorem witness_TripLatches_2 : ∃ (s : State) (t : Nat) (src : Nat) (v : State), (v = s.at_ t) ∧ (src < 32) ∧ (v.srcLost src = false) ∧ (v.ownAlone src = false) ∧ (8 + clampNat 2 16 (v.get (TRIP_SRC.EXPECT src)) ≤ (SMap.getD v.trip.srcs src ⟨false, 0, 0⟩).ticks) :=
  ⟨{ (State.reset.putFlag (TRIP_SRC_STAT.LIVE 31) true) with trip := { State.reset.trip with srcs := [(31, ⟨true, 0, 24⟩)] } }, 0, 31, _, rfl, by decide⟩
theorem witness_TripLatches_3 : ∃ (s : State) (t : Nat) (fn high : Nat) (v : State), (v = s.at_ t) ∧ (fn < 32) ∧ ((SMap.getD v.trip.fns fn ⟨false, 0, 0, none⟩).release = some high) ∧ (800 ≤ high) ∧ (high ≤ 80000) ∧ (v.flag (TRIP_FN_STAT.LATCHED fn) = true) ∧ (v.get (TRIP_FN.POLICY fn) = 0) ∧ (v.causePresent fn = false) :=
  ⟨{ (((State.reset.putFlag (TRIP_FN_STAT.LATCHED 31) true).put SYS_STAT.MODE 3)) with trip := { State.reset.trip with fns := [(31, ⟨false, 0, 0, some 80000⟩)] } }, 0, 31, 80000, _, rfl, by decide⟩
theorem witness_TripLatches_4 : ∃ (s : State) (t : Nat) (fn high : Nat) (v : State), (v = s.at_ t) ∧ (fn < 32) ∧ ((SMap.getD v.trip.fns fn ⟨false, 0, 0, none⟩).release = some high) ∧ (800 ≤ high) ∧ (high ≤ 80000) ∧ (v.flag (TRIP_FN_STAT.LATCHED fn) = true) ∧ (v.get (TRIP_FN.POLICY fn) ≠ 0 ∨ v.causePresent fn = true) :=
  ⟨{ ((((State.reset.put (TRIP_FN.POLICY 31) 1).putFlag (TRIP_FN_STAT.LATCHED 31) true).put SYS_STAT.MODE 3)) with trip := { State.reset.trip with fns := [(31, ⟨false, 0, 0, some 800⟩)] } }, 0, 31, 800, _, rfl, by decide⟩
theorem witness_TripLatches_5 : ∃ (s : State) (t : Nat) (fn high : Nat) (v : State), (v = s.at_ t) ∧ (fn < 32) ∧ ((SMap.getD v.trip.fns fn ⟨false, 0, 0, none⟩).release = some high) ∧ (high < 800 ∨ 80000 < high) :=
  ⟨{ (((State.reset.putFlag (TRIP_FN_STAT.LATCHED 31) true).put SYS_STAT.MODE 3)) with trip := { State.reset.trip with fns := [(31, ⟨false, 0, 0, some 799⟩)] } }, 0, 31, 799, _, rfl, by decide⟩
theorem witness_TripLatches_6 : ∃ (s : State) (t : Nat) (fn : Nat) (v : State), (v = s.at_ t) ∧ (fn < 32) ∧ ((SMap.getD v.trip.fns fn ⟨false, 0, 0, none⟩).level = true) ∧ (80000 < (SMap.getD v.trip.fns fn ⟨false, 0, 0, none⟩).ticks) :=
  ⟨{ State.reset with trip := { State.reset.trip with fns := [(0, ⟨true, 80001, 0, none⟩)] } }, 0, 0, _, rfl, by decide⟩
theorem witness_TripLatches_7 : ∃ (s : State) (t : Nat) (fn : BitVec 5) (v : State), (v = s.at_ t) ∧ (v.unlocked .boot 0x0B = true) ∧ ((v.dropUnlock .boot).flag (TRIP_FN_STAT.LATCHED fn.toNat) = true) ∧ ((v.dropUnlock .boot).get (TRIP_FN.POLICY fn.toNat) = 1) ∧ ((v.dropUnlock .boot).causePresent fn.toNat = false) :=
  ⟨{ (((State.reset.putFlag (TRIP_FN_STAT.LATCHED 31) true).put (TRIP_FN.POLICY 31) 1).put SYS_STAT.MODE 3) with regg := { State.reset.regg with unlocks := [(5, ⟨0x0B, 0⟩)] } }, 0, 31, _, rfl, by decide⟩
theorem witness_TripLatches_8 : ∃ (s : State) (t : Nat) (fn : BitVec 5) (v : State), (v = s.at_ t) ∧ (v.unlocked .boot 0x0B = true) ∧ ((v.dropUnlock .boot).flag (TRIP_FN_STAT.LATCHED fn.toNat) = true) ∧ ((v.dropUnlock .boot).get (TRIP_FN.POLICY fn.toNat) ≠ 1 ∨ (v.dropUnlock .boot).causePresent fn.toNat = true) :=
  ⟨{ ((State.reset.putFlag (TRIP_FN_STAT.LATCHED 31) true).put SYS_STAT.MODE 3) with regg := { State.reset.regg with unlocks := [(5, ⟨0x0B, 0⟩)] } }, 0, 31, _, rfl, by decide⟩
theorem witness_TripLatches_9 : ∃ (s : State) (n cause : Nat), (n < 32) ∧ (cause < 16) ∧ (s.flag (TRIP_FN_STAT.LATCHED n) = true) :=
  ⟨(State.reset.putFlag (TRIP_FN_STAT.LATCHED 31) true), 31, 6, by decide⟩
theorem witness_Spokes_1 : ∃ (s : State) (t : Nat) (v : State), (v = s.at_ t) ∧ (v.spokeState.sendsSpokes = true) ∧ (v.spokeState.trip.waitEvt = true ∨ v.spokeState.ownBits ≠ v.spokeState.trip.sentBits) ∧ (0 < v.spokeState.trip.tokens) :=
  ⟨{ ((((State.reset.put TRIP_SELF.EN 1).put SYS_STAT.MODE 3).put TWIN_CLAIM.CLAIM 1).put TIME_STAT.LANE_SYNC 1) with trip := { State.reset.trip with sentBits := 1 } }, 0, _, rfl, by decide⟩
theorem witness_Spokes_2 : ∃ (s : State) (t : Nat) (v : State), (v = s.at_ t) ∧ (v.spokeState.sendsSpokes = true) ∧ (v.spokeState.trip.waitEvt = true ∨ v.spokeState.ownBits ≠ v.spokeState.trip.sentBits) ∧ (v.spokeState.trip.tokens = 0) ∧ (v.spokeState.trip.waitEvt = false) :=
  ⟨{ ((((State.reset.put TRIP_SELF.EN 1).put SYS_STAT.MODE 3).put TWIN_CLAIM.CLAIM 1).put TIME_STAT.LANE_SYNC 1) with trip := { State.reset.trip with sentBits := 1, tokens := 0, sending := true } }, 0, _, rfl, by decide⟩
theorem witness_Spokes_3 : ∃ (s : State) (t : Nat) (v : State), (v = s.at_ t) ∧ (v.spokeState.sendsSpokes = true) ∧ (v.spokeState.trip.waitEvt = true ∨ v.spokeState.ownBits ≠ v.spokeState.trip.sentBits) ∧ (v.spokeState.trip.tokens = 0) ∧ (v.spokeState.trip.waitEvt = true) :=
  ⟨{ ((((State.reset.put TRIP_SELF.EN 1).put SYS_STAT.MODE 3).put TWIN_CLAIM.CLAIM 1).put TIME_STAT.LANE_SYNC 1) with trip := { State.reset.trip with sentBits := 1, tokens := 0, sending := true, waitEvt := true } }, 0, _, rfl, by decide⟩
theorem witness_Spokes_4 : ∃ (s : State) (t : Nat) (lane : Nat) (frame : List Byte) (fcs : Bool) (v : State), (v = s.at_ t) ∧ (lane < 2) ∧ ((v.laneFormat lane frame fcs).2 = true) ∧ ((laneHdr frame).kind = 5) ∧ (v.laneTakes lane = false ∨ (laneHdr frame).sender ≠ v.node) :=
  ⟨State.reset, 0, 1, (List.replicate 12 0 ++ [0x88, 0xB5, 0x15] ++ List.replicate 45 0), true, _, rfl, by decide⟩
theorem witness_Spokes_5 : ∃ (s : State) (t : Nat) (lane : Nat) (frame : List Byte) (fcs : Bool) (v : State), (v = s.at_ t) ∧ (lane < 2) ∧ ((v.laneFormat lane frame fcs).2 = true) ∧ ((laneHdr frame).kind = 5) ∧ (v.laneTakes lane = true) ∧ ((laneHdr frame).sender = v.node) :=
  ⟨(State.reset.put (LANE_STAT.STATE 1) 1), 0, 1, (List.replicate 12 0 ++ [0x88, 0xB5, 0x15] ++ List.replicate 45 0), true, _, rfl, by decide⟩
theorem witness_Spokes_6 : ∃ (s : State) (t : Nat) (lane : Nat) (frame : List Byte) (fcs : Bool) (v : State), (v = s.at_ t) ∧ (lane < 2) ∧ ((v.laneFormat lane frame fcs).2 = true) ∧ ((laneHdr frame).kind ≠ 5) :=
  ⟨State.reset, 0, 1, (List.replicate 12 0 ++ [0x88, 0xB5, 0x16] ++ List.replicate 45 0), true, _, rfl, by decide⟩
theorem witness_Spokes_7 : ∃ (s : State) (t : Nat) (lane : Nat) (frame : List Byte) (v : State), (v = s.at_ t) ∧ (lane < 2) :=
  ⟨State.reset, 0, 1, [], _, rfl, by decide⟩
theorem witness_Spokes_8 : ∃ (s : State) (lane : Nat) (f : List Byte), (s.sourceOf (laneHdr f).sender = none) :=
  ⟨State.reset, 0, [], by decide⟩
theorem witness_Shedding_1 : ∃ (s : State) (t : Nat) (sup : Nat) (v : State), (v = s.at_ t) ∧ (v.flag PWR_STAT.HOLDUP = false) ∧ (v.reaches sup 40 = false ∨ 145 * unOf (v.get PWR_CFG.UN) < 100 * sup) ∧ (v.pwr.dormant = false) :=
  ⟨{ State.reset with pwr := { State.reset.pwr with inReset := false } }, 0, 95, _, rfl, by decide⟩
theorem witness_Shedding_2 : ∃ (s : State) (t : Nat) (sup : Nat) (v : State), (v = s.at_ t) ∧ (v.reaches sup 40 = true) ∧ (100 * sup ≤ 145 * unOf (v.get PWR_CFG.UN)) :=
  ⟨{ State.reset with pwr := { State.reset.pwr with inReset := false } }, 0, 96, _, rfl, by decide⟩
theorem witness_Shedding_3 : ∃ (s : State) (t : Nat) (sup : Nat) (v : State), (v = s.at_ t) ∧ (v.reaches sup 45 = true) ∧ (100 * sup ≤ 140 * unOf (v.get PWR_CFG.UN)) :=
  ⟨{ State.reset with pwr := { State.reset.pwr with inReset := false } }, 0, 108, _, rfl, by decide⟩
theorem witness_Shedding_4 : ∃ (s : State) (t : Nat) (sup : Nat) (v : State), (v = s.at_ t) ∧ (v.reaches sup 45 = false ∨ 140 * unOf (v.get PWR_CFG.UN) < 100 * sup) :=
  ⟨{ State.reset with pwr := { State.reset.pwr with inReset := false } }, 0, 107, _, rfl, by decide⟩
theorem witness_Shedding_5 : ∃ (s : State) (t : Nat) (sup : Nat) (v : State), (v = s.at_ t) ∧ (v.pwr.dormant = false) ∧ (v.reaches sup v.th1 = false) ∧ (v.get PWR_STAT.STAGE = 0) :=
  ⟨({ State.reset with pwr := { State.reset.pwr with inReset := false } }.put PWR_STAT.STAGE 0).put PWR_CFG.TH2 50, 0, 100, _, rfl, by decide⟩
theorem witness_Shedding_6 : ∃ (s : State) (t : Nat) (sup : Nat) (v : State), (v = s.at_ t) ∧ (1 ≤ v.get PWR_STAT.STAGE) :=
  ⟨({ State.reset with pwr := { State.reset.pwr with inReset := false } }.put PWR_STAT.STAGE 1), 0, 0, _, rfl, by decide⟩
theorem witness_Shedding_7 : ∃ (s : State) (t : Nat) (sup : Nat) (v : State), (v = s.at_ t) ∧ (v.pwr.dormant = false) ∧ (v.reaches sup v.th2 = false ∨ v.flag PWR_STAT.HOLDUP = true) ∧ (v.get PWR_STAT.STAGE = 1) :=
  ⟨({ State.reset with pwr := { State.reset.pwr with inReset := false } }.put PWR_STAT.STAGE 1).put PWR_CFG.TH2 50, 0, 100, _, rfl, by decide⟩
theorem witness_Shedding_8 : ∃ (s : State) (t : Nat) (sup : Nat) (v : State), (v = s.at_ t) ∧ (2 ≤ v.get PWR_STAT.STAGE) :=
  ⟨({ State.reset with pwr := { State.reset.pwr with inReset := false } }.put PWR_STAT.STAGE 2), 0, 0, _, rfl, by decide⟩
theorem witness_Shedding_9 : ∃ (s : State) (t : Nat) (hold : Nat) (v : State), (v = s.at_ t) ∧ (v.pwr.dormant = false) ∧ (hold < 240) ∧ (v.get PWR_STAT.STAGE = 3) :=
  ⟨({ State.reset with pwr := { State.reset.pwr with inReset := false } }.put PWR_STAT.STAGE 3).put PWR_CFG.TH2 50, 0, 100, _, rfl, by decide⟩
theorem witness_Shedding_10 : ∃ (s : State) (t : Nat) (hold : Nat) (v : State), (v = s.at_ t) ∧ (4 ≤ v.get PWR_STAT.STAGE) :=
  ⟨({ State.reset with pwr := { State.reset.pwr with inReset := false } }.put PWR_STAT.STAGE 4), 0, 0, _, rfl, by decide⟩
theorem witness_Shedding_11 : ∃ (s : State) (t : Nat) (sup : Nat) (v : State), (v = s.at_ t) ∧ (v.reaches sup v.th1 = true) :=
  ⟨{ State.reset with pwr := { State.reset.pwr with inReset := false } }, 0, 240, _, rfl, by decide⟩
theorem witness_Shedding_12 : ∃ (s : State) (t : Nat) (sup : Nat) (v : State), (v = s.at_ t) ∧ (v.reaches sup v.th2 = true) ∧ (v.flag PWR_STAT.HOLDUP = false) :=
  ⟨{ State.reset with pwr := { State.reset.pwr with inReset := false } }, 0, 240, _, rfl, by decide⟩
theorem witness_Shedding_13 : ∃ (s : State) (t : Nat) (hold : Nat) (v : State), (v = s.at_ t) ∧ (240 ≤ hold) :=
  ⟨{ State.reset with pwr := { State.reset.pwr with inReset := false } }, 0, 240, _, rfl, by decide⟩
theorem witness_Shedding_14 : ∃ (s : State) (t : Nat) (hold : Nat) (v : State), (v = s.at_ t) ∧ (v.pwr.dormant = false) ∧ (v.flag PWR_STAT.HOLDUP = true) ∧ (hold < 330) ∧ (v.get PWR_STAT.STAGE = 2) :=
  ⟨(({ State.reset with pwr := { State.reset.pwr with inReset := false } }.put PWR_STAT.STAGE 2).putFlag PWR_STAT.HOLDUP true), 0, 329, _, rfl, by decide⟩
theorem witness_Shedding_15 : ∃ (s : State) (t : Nat) (hold : Nat) (v : State), (v = s.at_ t) ∧ (v.pwr.dormant = false) ∧ (v.flag PWR_STAT.HOLDUP = true) ∧ (hold < 330) ∧ (v.get PWR_STAT.STAGE = 0) :=
  ⟨({ State.reset with pwr := { State.reset.pwr with inReset := false } }.putFlag PWR_STAT.HOLDUP true), 0, 0, _, rfl, by decide⟩
theorem witness_Shedding_16 : ∃ (s : State) (t : Nat) (hold : Nat) (v : State), (v = s.at_ t) ∧ (v.flag PWR_STAT.HOLDUP = false ∨ 330 ≤ hold) :=
  ⟨({ State.reset with pwr := { State.reset.pwr with inReset := false } }.put PWR_STAT.STAGE 2), 0, 0, _, rfl, by decide⟩
theorem witness_Shedding_17 : ∃ (s : State) (t : Nat) (sup : Nat) (v : State), (v = s.at_ t) ∧ (v.pwr.dormant = false) ∧ (v.reaches sup v.th2 = false ∨ v.flag PWR_STAT.HOLDUP = true) ∧ (v.get PWR_STAT.STAGE = 0) :=
  ⟨({ State.reset with pwr := { State.reset.pwr with inReset := false } }.put PWR_CFG.TH2 50), 0, 119, _, rfl, by decide⟩
theorem witness_Shedding_18 : ∃ (s : State) (t : Nat) (hold : Nat) (v : State), (v = s.at_ t) ∧ (v.pwr.dormant = false) ∧ (hold < 240) ∧ (v.get PWR_STAT.STAGE = 0) :=
  ⟨{ State.reset with pwr := { State.reset.pwr with inReset := false } }, 0, 239, _, rfl, by decide⟩
theorem witness_Shedding_19 : ∃ (s : State) (t : Nat) (sup hold : Nat) (v : State), (v = s.at_ t) ∧ (v.get PWR_STAT.STAGE = 1) ∧ (v.reaches sup (v.th1 + 5) = true) :=
  ⟨(State.reset.put PWR_STAT.STAGE 1), 0, 240, 0, _, rfl, by decide⟩
theorem witness_Shedding_20 : ∃ (s : State) (t : Nat) (sup hold : Nat) (v : State), (v = s.at_ t) ∧ (v.get PWR_STAT.STAGE = 1) ∧ (v.reaches sup (v.th1 + 5) = false) :=
  ⟨(State.reset.put PWR_STAT.STAGE 1), 0, 0, 0, _, rfl, by decide⟩
theorem witness_Shedding_21 : ∃ (s : State) (t : Nat) (sup hold : Nat) (v : State), (v = s.at_ t) ∧ (v.get PWR_STAT.STAGE = 2) ∧ (v.flag PWR_STAT.HOLDUP = false) ∧ (v.reaches sup (v.th2 + 5) = true) :=
  ⟨(State.reset.put PWR_STAT.STAGE 2), 0, 240, 0, _, rfl, by decide⟩
theorem witness_Shedding_22 : ∃ (s : State) (t : Nat) (sup hold : Nat) (v : State), (v = s.at_ t) ∧ (v.get PWR_STAT.STAGE = 2) ∧ (v.reaches sup (v.th2 + 5) = false) :=
  ⟨(State.reset.put PWR_STAT.STAGE 2), 0, 0, 0, _, rfl, by decide⟩
theorem witness_Shedding_23 : ∃ (s : State) (t : Nat) (sup hold : Nat) (v : State), (v = s.at_ t) ∧ (v.get PWR_STAT.STAGE = 3) ∧ (v.flag PWR_STAT.HOLDUP = false) ∧ (400 ≤ hold) :=
  ⟨(State.reset.put PWR_STAT.STAGE 3), 0, 0, 400, _, rfl, by decide⟩
theorem witness_Shedding_24 : ∃ (s : State) (t : Nat) (sup hold : Nat) (v : State), (v = s.at_ t) ∧ (v.get PWR_STAT.STAGE = 3) ∧ (hold < 400) :=
  ⟨(State.reset.put PWR_STAT.STAGE 3), 0, 0, 399, _, rfl, by decide⟩
theorem witness_Shedding_25 : ∃ (s : State) (t : Nat) (sup hold : Nat) (v : State), (v = s.at_ t) ∧ (v.flag PWR_STAT.HOLDUP = true) ∧ (v.get PWR_STAT.STAGE = 2 ∨ v.get PWR_STAT.STAGE = 3) :=
  ⟨((State.reset.put PWR_STAT.STAGE 2).putFlag PWR_STAT.HOLDUP true), 0, 240, 400, _, rfl, by decide⟩
theorem witness_Shedding_26 : ∃ (s : State) (t : Nat) (v : State), (v = s.at_ t) ∧ (v.pwr.flush = true) ∧ (v.nextQueued = none ∨ v.pwr.flushAt + 1000000 ≤ v.localNow) :=
  ⟨{ State.reset with pwr := { State.reset.pwr with flush := true } }, 0, _, rfl, by decide⟩
theorem witness_ResetCauses_1 : ∃ (s : State), (s.pwr.inReset = false) :=
  ⟨{ State.reset with pwr := { State.reset.pwr with inReset := false } }, by decide⟩
theorem witness_ResetCauses_2 : ∃ (s : State), (s.pwr.inReset = false) ∧ (s.nv.bkupLost = false) :=
  ⟨{ State.reset with pwr := { State.reset.pwr with inReset := false }, nv := { State.reset.nv with bkupLost := false } }, by decide⟩
theorem witness_ResetCauses_3 : ∃ (s : State), (s.pwr.inReset = false) ∧ (s.nv.bkupLost = true) :=
  ⟨{ State.reset with pwr := { State.reset.pwr with inReset := false }, nv := { State.reset.nv with bkupLost := true } }, by decide⟩
theorem witness_ResetCauses_4 : ∃ (s : State), (s.pwr.dormant = true) ∧ (s.nv.bkupLost = false) :=
  ⟨{ State.reset with pwr := { State.reset.pwr with dormant := true } }, by decide⟩
theorem witness_ResetCauses_5 : ∃ (s : State) (t : Nat), (s.pwr.inReset = false) ∧ (s.pwr.dormant = false) :=
  ⟨{ State.reset with pwr := { State.reset.pwr with inReset := false } }, 0, by decide⟩
theorem witness_ResetCauses_6 : ∃ (s : State) (t rco : Nat), (s.pwr.inReset = false) ∧ (s.pwr.dormant = false) ∧ (s.pwr.wdgAt + s.wdgTmo * 1000000 ≤ s.wdgNow rco) :=
  ⟨{ State.reset with pwr := { State.reset.pwr with inReset := false } }, 0, 65535000000, by decide⟩
theorem witness_ResetCauses_7 : ∃ (s : State) (t : Nat), (s.pwr.inReset = false) ∧ (s.pwr.dormant = false) ∧ (s.nv.bkupLost = false) :=
  ⟨{ State.reset with pwr := { State.reset.pwr with inReset := false }, nv := { State.reset.nv with bkupLost := false } }, 0, by decide⟩
theorem witness_ResetCauses_8 : ∃ (s : State) (t : Nat) (v : State), (v = s.at_ t) ∧ (v.unlocked .boot 0x00 = true) :=
  ⟨{ State.reset with regg := { State.reset.regg with unlocks := [(5, ⟨0x00, 0⟩)] } }, 0, _, rfl, by decide⟩
theorem witness_ResetCauses_9 : ∃ (s : State) (t : Nat) (target : Nat) (v : State), (v = s.at_ t) ∧ (v.unlocked .boot 0x00 = true) ∧ (target < 4) :=
  ⟨{ State.reset with regg := { State.reset.regg with unlocks := [(5, ⟨0x00, 0⟩)] } }, 0, 3, _, rfl, by decide⟩
theorem witness_ResetCauses_10 : ∃ (s : State) (t : Nat) (target : Nat) (v : State), (v = s.at_ t) ∧ (v.unlocked .boot 0x00 = true) ∧ (4 ≤ target) :=
  ⟨{ State.reset with regg := { State.reset.regg with unlocks := [(5, ⟨0x00, 0⟩)] } }, 0, 4, _, rfl, by decide⟩
theorem witness_ResetCauses_11 : ∃ (s : State) (t : Nat) (target : Nat) (v : State), (v = s.at_ t) ∧ (v.unlocked .boot 0x00 = true) ∧ (target < 3) ∧ ((v.dropUnlock .boot).get SYS_STAT.MODE = 1) :=
  ⟨{ (State.reset.put SYS_STAT.MODE 1) with regg := { State.reset.regg with unlocks := [(5, ⟨0x00, 0⟩)] } }, 0, 2, _, rfl, by decide⟩
theorem witness_ResetCauses_12 : ∃ (s : State) (t : Nat) (target : Nat) (v : State), (v = s.at_ t) ∧ (v.unlocked .boot 0x00 = true) ∧ (3 ≤ target ∨ v.get SYS_STAT.MODE = 2 ∨ v.get SYS_STAT.MODE = 3) :=
  ⟨{ State.reset with regg := { State.reset.regg with unlocks := [(5, ⟨0x00, 0⟩)] } }, 0, 3, _, rfl, by decide⟩
theorem witness_ResetCauses_13 : ∃ (s : State) (k : ResetKind) (kind sub a : Nat), (a < mramBase) ∧ (k ≠ .sys) ∧ (k ≠ .wdg) :=
  ⟨State.reset, .por, 1, 0, mramBase - 1, by decide⟩
theorem witness_Watchdog_1 : ∃ (s : State) (t : Nat) (rco : Nat) (v : State), (v = s.at_ t) ∧ (v.pwr.wdgHalf = false) :=
  ⟨State.reset, 0, 0, _, rfl, by decide⟩
theorem witness_Watchdog_2 : ∃ (s : State) (t : Nat) (rco : Nat) (v : State), (v = s.at_ t) ∧ (v.pwr.wdgHalf = true) ∧ (v.flag SYS_WDG_STAT.CFG_OPEN = true) :=
  ⟨({ State.reset with pwr := { State.reset.pwr with inReset := false, wdgHalf := true } }).putFlag SYS_WDG_STAT.CFG_OPEN true, 0, 0, _, rfl, by decide⟩
theorem witness_Watchdog_3 : ∃ (s : State) (t : Nat) (rco : Nat) (v : State), (v = s.at_ t) ∧ (v.pwr.wdgHalf = true) ∧ (v.flag SYS_WDG_STAT.CFG_OPEN = false) ∧ (v.pwr.wdgAt + v.wdgWin * 1000000 ≤ v.wdgNow rco) :=
  ⟨(({ State.reset with pwr := { State.reset.pwr with inReset := false, wdgHalf := true } }).putFlag SYS_WDG_STAT.CFG_OPEN false).put SYS_WDG_CFG.WIN 0, 0, 255000000, _, rfl, by decide⟩
theorem witness_Watchdog_4 : ∃ (s : State) (t : Nat) (rco : Nat) (v : State), (v = s.at_ t) ∧ (v.pwr.inReset = false) ∧ (v.pwr.wdgHalf = true) ∧ (v.flag SYS_WDG_STAT.CFG_OPEN = false) ∧ (v.wdgNow rco < v.pwr.wdgAt + v.wdgWin * 1000000) :=
  ⟨(({ State.reset with pwr := { State.reset.pwr with inReset := false, wdgHalf := true } }).putFlag SYS_WDG_STAT.CFG_OPEN false).put SYS_WDG_CFG.WIN 10, 0, 0, _, rfl, by decide⟩
theorem witness_Watchdog_5 : ∃ (s : State) (t : Nat) (rco : Nat) (v : State), (v = s.at_ t) ∧ (v.pwr.inReset = false) ∧ (v.pwr.wdgHalf = false) :=
  ⟨{ State.reset with pwr := { State.reset.pwr with inReset := false, wdgHalf := false } }, 0, 0, _, rfl, by decide⟩
theorem witness_Watchdog_6 : ∃ (s : State) (t : Nat) (rco : Nat) (v : State), (v = s.at_ t) ∧ (v.pwr.inReset = false) ∧ (v.pwr.wdgHalf = true) :=
  ⟨{ State.reset with pwr := { State.reset.pwr with inReset := false, wdgHalf := true } }, 0, 0, _, rfl, by decide⟩
theorem witness_Watchdog_7 : ∃ (s : State) (t : Nat) (rco : Nat) (key : BitVec 16) (v : State), (v = s.at_ t) ∧ (v.pwr.inReset = false) ∧ (key ≠ 0x00A5) ∧ (key ≠ 0x005A) :=
  ⟨{ State.reset with pwr := { State.reset.pwr with inReset := false, wdgHalf := false } }, 0, 0, 0x00A4, _, rfl, by decide⟩
theorem witness_Watchdog_8 : ∃ (s : State) (t : Nat) (tmo win : BitVec 8) (v : State), (v = s.at_ t) ∧ (v.flag SYS_WDG_STAT.CFG_OPEN = true) :=
  ⟨(State.reset.putFlag SYS_WDG_STAT.CFG_OPEN true), 0, 255, 0, _, rfl, by decide⟩
theorem witness_Watchdog_9 : ∃ (s : State) (t : Nat) (tmo win : BitVec 8) (v : State), (v = s.at_ t) ∧ (v.flag SYS_WDG_STAT.CFG_OPEN = false) :=
  ⟨(State.reset.putFlag SYS_WDG_STAT.CFG_OPEN false), 0, 255, 0, _, rfl, by decide⟩
theorem witness_Watchdog_10 : ∃ (s : State) (ticks : Nat), (s.flag SYS_TAMPER.OPEN = false) :=
  ⟨State.reset, 0, by decide⟩
theorem witness_Watchdog_11 : ∃ (s : State) (ticks : Nat), (s.flag SYS_TAMPER.OPEN = true) :=
  ⟨(State.reset.putFlag SYS_TAMPER.OPEN true), 1, by decide⟩
theorem witness_TwinLink_1 : ∃ (s : State) (t : Nat) (v : State), (v = s.at_ t) ∧ (v.flag TWIN_STAT.LINK = false) ∧ (v.get SYS_STAT.MODE ≠ 0) ∧ (v.pwr.dormant = false) ∧ (v.get CLK_STAT.REF ≠ 2) ∧ (v.flag CLK_STAT.BYPASS = false) :=
  ⟨((State.reset.put SYS_STAT.MODE 2).put CLK_STAT.REF 0).putFlag CLK_STAT.BYPASS false, 0, _, rfl, by decide⟩
theorem witness_TwinLink_2 : ∃ (s : State) (t : Nat) (v : State), (v = s.at_ t) ∧ (v.flag TWIN_STAT.LINK = true) :=
  ⟨(State.reset.putFlag TWIN_STAT.LINK true), 0, _, rfl, by decide⟩
theorem witness_TwinLink_3 : ∃ (s : State) (t : Nat) (v : State), (v = s.at_ t) ∧ (v.flag TWIN_STAT.LINK = true) ∧ (16384 ≤ v.twin.helloTicks) :=
  ⟨{ (State.reset.putFlag TWIN_STAT.LINK true) with twin := { State.reset.twin with helloTicks := 16384 } }, 0, _, rfl, by decide⟩
theorem witness_TwinLink_4 : ∃ (s : State) (t : Nat) (frame p : List Byte) (crc : Bool) (v : State), (v = s.at_ t) ∧ (v.twinPayload 1 frame crc = some p) ∧ (p.length = 16) :=
  ⟨(State.reset.putFlag TWIN_STAT.LINK true), 0, ([1, 1, 0, 16] ++ List.replicate 16 0), List.replicate 16 0, true, _, rfl, by decide⟩
theorem witness_TwinLink_5 : ∃ (s : State) (t : Nat) (frame p : List Byte) (crc : Bool) (v : State), (v = s.at_ t) ∧ (v.twinPayload 1 frame crc = some p) ∧ (p.length ≠ 16) :=
  ⟨(State.reset.putFlag TWIN_STAT.LINK true), 0, ([1, 1, 0, 15] ++ List.replicate 15 0), List.replicate 15 0, true, _, rfl, by decide⟩
theorem witness_TwinLink_6 : ∃ (s : State) (t : Nat) (frame p : List Byte) (crc : Bool) (v : State), (v = s.at_ t) ∧ (v.twinPayload 2 frame crc = some p) ∧ (p.length ≠ 32) :=
  ⟨(State.reset.putFlag TWIN_STAT.LINK true), 0, ([2, 1, 0, 31] ++ List.replicate 31 0), List.replicate 31 0, true, _, rfl, by decide⟩
theorem witness_TwinLink_7 : ∃ (s : State) (t : Nat) (frame p : List Byte) (crc : Bool) (v : State), (v = s.at_ t) ∧ (v.twinPayload 2 frame crc = some p) ∧ (p.length = 32) :=
  ⟨(State.reset.putFlag TWIN_STAT.LINK true), 0, ([2, 1, 0, 32] ++ List.replicate 32 0), List.replicate 32 0, true, _, rfl, by decide⟩
theorem witness_TwinLink_8 : ∃ (s : State) (t : Nat) (frame p : List Byte) (crc : Bool) (v : State), (v = s.at_ t) ∧ (v.twinPayload 2 frame crc = some p) ∧ (p.length = 32) ∧ (fieldBE p 0 4 = 0) ∧ (v.twin.imgSent = true) ∧ (fieldBE p 12 1 = 2) :=
  ⟨{ (State.reset.putFlag TWIN_STAT.LINK true) with twin := { State.reset.twin with imgSent := true } }, 0, ([2, 1, 0, 32] ++ List.replicate 12 0 ++ [2] ++ List.replicate 19 0), (List.replicate 12 0 ++ [2] ++ List.replicate 19 0), true, _, rfl, by decide⟩
theorem witness_TwinLink_9 : ∃ (s : State) (t : Nat) (frame p : List Byte) (crc : Bool) (v : State), (v = s.at_ t) ∧ (v.twinPayload 3 frame crc = some p) ∧ (v.flag TWIN_STAT.PAIRED = true) ∧ (12 < p.length) ∧ (p.length ≤ 1036) ∧ (fieldBE p 4 4 = 0) ∧ (p.length - 12 < fieldBE p 8 4) ∧ (v.twin.pan = none) :=
  ⟨((State.reset.putFlag TWIN_STAT.LINK true).putFlag TWIN_STAT.PAIRED true), 0, ([3, 1, 0, 13] ++ List.replicate 11 0 ++ [255, 7]), (List.replicate 11 0 ++ [255, 7]), true, _, rfl, by decide⟩
theorem witness_TwinLink_10 : ∃ (s : State) (t : Nat) (frame p : List Byte) (crc : Bool) (x : FragRx) (v : State), (v = s.at_ t) ∧ (v.twinPayload 3 frame crc = some p) ∧ (12 ≤ p.length) ∧ (v.flag TWIN_STAT.PAIRED = true) ∧ (joinFrag (v.twin.pan.map (fun x => { x with got := [] })) (fieldBE p 0 4) (fieldBE p 4 4) (fieldBE p 8 4) (p.drop 12) = (x, false)) ∧ (x.lost = false) ∧ (fieldBE p 4 4 + (p.drop 12).length ≤ 0x10000) ∧ (x.total ≤ x.next) :=
  ⟨((State.reset.putFlag TWIN_STAT.LINK true).putFlag TWIN_STAT.PAIRED true), 0, ([3, 1, 0, 13] ++ List.replicate 11 0 ++ [1, 7]), (List.replicate 11 0 ++ [1, 7]), true, ⟨0, 1, 1, [7], false⟩, _, rfl, by decide⟩
theorem witness_TwinLink_11 : ∃ (s : State) (t : Nat) (frame p : List Byte) (crc : Bool) (v : State), (v = s.at_ t) ∧ (v.twinPayload 3 frame crc = some p) ∧ (12 ≤ p.length) ∧ (v.flag TWIN_STAT.PAIRED = true) ∧ (v.twin.pan = none) ∧ (fieldBE p 4 4 ≠ 0) :=
  ⟨((State.reset.putFlag TWIN_STAT.LINK true).putFlag TWIN_STAT.PAIRED true), 0, ([3, 1, 0, 13] ++ List.replicate 7 0 ++ [1, 0, 0, 1, 7, 9]), (List.replicate 7 0 ++ [1, 0, 0, 1, 7, 9]), true, _, rfl, by decide⟩
theorem witness_TwinLink_12 : ∃ (s : State) (t : Nat) (frame p : List Byte) (crc : Bool) (y : FragRx) (v : State), (v = s.at_ t) ∧ (v.twinPayload 3 frame crc = some p) ∧ (12 ≤ p.length) ∧ (v.flag TWIN_STAT.PAIRED = true) ∧ (v.twin.pan = some y) ∧ (y.lost = true) ∧ (y.seq = fieldBE p 0 4) ∧ (fieldBE p 4 4 ≠ 0) :=
  ⟨{ ((State.reset.putFlag TWIN_STAT.LINK true).putFlag TWIN_STAT.PAIRED true) with twin := { State.reset.twin with pan := some ⟨0, 9, 0, [], true⟩ } }, 0, ([3, 1, 0, 13] ++ List.replicate 7 0 ++ [1, 0, 0, 1, 7, 9]), (List.replicate 7 0 ++ [1, 0, 0, 1, 7, 9]), true, ⟨0, 9, 0, [], true⟩, _, rfl, by decide⟩
theorem witness_TwinLink_13 : ∃ (s : State) (t : Nat) (frame p : List Byte) (crc : Bool) (x : FragRx) (v : State), (v = s.at_ t) ∧ (v.twinPayload 4 frame crc = some p) ∧ (12 ≤ p.length) ∧ (v.flag TWIN_STAT.PAIRED = true) ∧ (v.get SYS_STAT.MODE = 2) ∧ ((joinFrag v.twin.img (fieldBE p 0 4) (fieldBE p 4 4) (fieldBE p 8 4) (p.drop 12)).1 = x) ∧ (x.lost = false) ∧ (x.total ≤ x.next) :=
  ⟨(((State.reset.putFlag TWIN_STAT.LINK true).putFlag TWIN_STAT.PAIRED true).put SYS_STAT.MODE 2), 0, ([4, 1, 0, 13] ++ List.replicate 11 0 ++ [1, 7]), (List.replicate 11 0 ++ [1, 7]), true, ⟨0, 1, 1, [7], false⟩, _, rfl, by decide⟩
theorem witness_TwinLink_14 : ∃ (s : State) (t : Nat) (frame p : List Byte) (crc : Bool) (v : State), (v = s.at_ t) ∧ (v.twinPayload 4 frame crc = some p) ∧ (v.flag TWIN_STAT.PAIRED = true) ∧ (v.get SYS_STAT.MODE = 2) ∧ (12 ≤ p.length) ∧ (fieldBE p 4 4 = 0) ∧ (p.length - 12 < fieldBE p 8 4) ∧ (v.twin.img = none) :=
  ⟨(((State.reset.putFlag TWIN_STAT.LINK true).putFlag TWIN_STAT.PAIRED true).put SYS_STAT.MODE 2), 0, ([4, 1, 0, 12] ++ List.replicate 11 0 ++ [255]), (List.replicate 11 0 ++ [255]), true, _, rfl, by decide⟩
theorem witness_TwinLink_15 : ∃ (s : State) (t : Nat) (q : Nat) (v : State), (v = s.at_ t) ∧ (v.twin.sending = some q) ∧ (v.twin.waiting = none) :=
  ⟨{ State.reset with twin := { State.reset.twin with sending := some 0 } }, 0, 0, _, rfl, by decide⟩
theorem witness_TwinLink_16 : ∃ (s : State) (t : Nat) (q w : Nat) (v : State), (v = s.at_ t) ∧ (v.twin.sending = some q) ∧ (v.twin.waiting = some w) :=
  ⟨{ State.reset with twin := { State.reset.twin with sending := some 0, waiting := some 1 } }, 0, 0, 1, _, rfl, by decide⟩
theorem witness_TwinRoles_1 : ∃ (s : State) (t : Nat) (v : State), (v = s.at_ t) ∧ (3 ≤ v.twin.quiet) ∧ (v.get TWIN_HIGH.CLAIM ≠ 0) ∧ (v.claiming = false) :=
  ⟨{ (State.reset.put TWIN_HIGH.CLAIM 1) with twin := { State.reset.twin with quiet := 3 } }, 0, _, rfl, by decide⟩
theorem witness_TwinRoles_2 : ∃ (s : State) (t : Nat) (v : State), (v = s.at_ t) ∧ (3 ≤ v.twin.quiet) ∧ (v.get TWIN_HIGH.CLAIM ≠ 0) ∧ (v.claiming = true) :=
  ⟨{ (((State.reset.put TWIN_HIGH.CLAIM 9).put TWIN_CLAIM.CLAIM 1).put SYS_STAT.MODE 3) with twin := { State.reset.twin with quiet := 3 } }, 0, _, rfl, by decide⟩
theorem witness_TwinRoles_3 : ∃ (s : State) (t : Nat) (n : Nat) (v : State), (v = s.at_ t) ∧ (v.twin.window = some n) ∧ (64 ≤ n) :=
  ⟨{ State.reset with twin := { State.reset.twin with window := some 64 } }, 0, 64, _, rfl, by decide⟩
theorem witness_TwinRoles_4 : ∃ (s : State) (t : Nat) (v : State), (v = s.at_ t) ∧ (v.twin.takeDue = true) ∧ (v.get SYS_STAT.MODE = 2) :=
  ⟨{ (State.reset.put SYS_STAT.MODE 2) with twin := { State.reset.twin with takeDue := true } }, 0, _, rfl, by decide⟩
theorem witness_TwinRoles_5 : ∃ (s : State) (t : Nat) (v : State), (v = s.at_ t) ∧ (v.twin.yieldDue = true) ∧ (v.claiming = true) :=
  ⟨{ ((State.reset.put SYS_STAT.MODE 3).put TWIN_CLAIM.CLAIM 1) with twin := { State.reset.twin with yieldDue := true } }, 0, _, rfl, by decide⟩
theorem witness_TwinRoles_6 : ∃ (s : State) (t : Nat) (v : State), (v = s.at_ t) ∧ (v.unlocked .boot 0x12 = true) :=
  ⟨{ State.reset with regg := { State.reset.regg with unlocks := [(5, ⟨0x12, 0⟩)] } }, 0, _, rfl, by decide⟩
theorem witness_TwinRoles_7 : ∃ (s : State) (t : Nat) (v : State), (v = s.at_ t) ∧ (v.unlocked .boot 0x12 = true) :=
  ⟨{ State.reset with regg := { State.reset.regg with unlocks := [(5, ⟨0x12, 0⟩)] } }, 0, _, rfl, by decide⟩
theorem witness_TwinRoles_8 : ∃ (s : State) (unready : Bool), (s.swapOk unready = false) :=
  ⟨State.reset, true, by decide⟩
theorem witness_TwinRoles_9 : ∃ (s : State) (unready : Bool), (s.swapOk unready = true) :=
  ⟨(((((State.reset.put SYS_STAT.MODE 3).putFlag TWIN_STAT.PAIRED true).put TWIN_STAT.PMODE 2).put CYC_STILL.KIND 1).putFlag CYC_STILL.POL true), true, by decide⟩
theorem witness_TwinRoles_10 : ∃ (s : State) (t : Nat) (n : Nat) (v : State), (v = s.at_ t) ∧ (v.twin.swap = some n) ∧ (16 ≤ n) ∧ (v.get TWIN_PCLAIM.CLAIM = 0) ∧ (v.boot.deferSwap = false) :=
  ⟨{ State.reset with twin := { State.reset.twin with swap := some 16 } }, 0, 16, _, rfl, by decide⟩
theorem witness_TwinRoles_11 : ∃ (s : State) (t : Nat) (n : Nat) (v : State), (v = s.at_ t) ∧ (v.twin.swap = some n) ∧ (16 ≤ n) ∧ (v.get TWIN_PCLAIM.CLAIM = 0) ∧ (v.boot.deferSwap = true) :=
  ⟨{ { State.reset with twin := { State.reset.twin with swap := some 16 } } with boot := { State.reset.boot with deferSwap := true } }, 0, 16, _, rfl, by decide⟩
theorem witness_RackOutbound_1 : ∃ (s : State) (t : Nat) (who : Initiator) (w a size : Nat) (x : State) (v : State), (v = s.at_ t) ∧ (who ≠ .tri) ∧ (v.acts who = true) ∧ (x = v.lockBreak who) ∧ (size = 1 ∨ size = 2 ∨ size = 4) ∧ (a % size = 0) ∧ (x.owHits a = [w]) ∧ (x.flag (BRG_OW.PREFETCH w) = false) :=
  ⟨(((up.put (BRG_OW.EN 15) 1).put (BRG_OW.LBASE 15) 0x40000000).put (BRG_OW.SIZE 15) 16), 0, .s0, 15, 0x4000FFFC, 4, _, _, rfl, by decide, by decide, rfl, by decide, by decide, by decide, by decide⟩
theorem witness_RackOutbound_2 : ∃ (s : State) (t : Nat) (who : Initiator) (w a size : Nat) (b : PfBuf) (x : State) (v : State), (v = s.at_ t) ∧ (who ≠ .tri) ∧ (v.acts who = true) ∧ (x = v.lockBreak who) ∧ (size = 1 ∨ size = 2 ∨ size = 4) ∧ (a % size = 0) ∧ (x.owHits a = [w]) ∧ (x.flag (BRG_OW.PREFETCH w) = true) ∧ (x.pfFind w a = some b) :=
  ⟨{ ((((up.put (BRG_OW.EN 15) 1).put (BRG_OW.LBASE 15) 0x40000000).put (BRG_OW.SIZE 15) 16).put (BRG_OW.PREFETCH 15) 1) with brg := { State.reset.brg with pf := [⟨15, 0x4000FFC0, [], 0, 0, false⟩] } }, 0, .s0, 15, 0x4000FFFC, 4, ⟨15, 0x4000FFC0, [], 0, 0, false⟩, _, _, rfl, by decide, by decide, rfl, by decide, by decide, by decide, by decide, by decide⟩
theorem witness_RackOutbound_3 : ∃ (s : State) (t : Nat) (who : Initiator) (w a size : Nat) (x : State) (v : State), (v = s.at_ t) ∧ (who ≠ .tri) ∧ (v.acts who = true) ∧ (x = v.lockBreak who) ∧ (size = 1 ∨ size = 2 ∨ size = 4) ∧ (a % size = 0) ∧ (x.owHits a = [w]) ∧ (x.flag (BRG_OW.PREFETCH w) = true) ∧ (x.pfFind w a = none) :=
  ⟨((((up.put (BRG_OW.EN 15) 1).put (BRG_OW.LBASE 15) 0x40000000).put (BRG_OW.SIZE 15) 16).put (BRG_OW.PREFETCH 15) 1), 0, .s0, 15, 0x4000FFFC, 4, _, _, rfl, by decide, by decide, rfl, by decide, by decide, by decide, by decide, by decide⟩
theorem witness_RackOutbound_4 : ∃ (s : State) (t : Nat) (who : Initiator) (w a size d : Nat) (x : State) (v : State), (v = s.at_ t) ∧ (who ≠ .tri) ∧ (v.acts who = true) ∧ (x = v.lockBreak who) ∧ (size = 1 ∨ size = 2 ∨ size = 4) ∧ (a % size = 0) ∧ (x.owHits a = [w]) ∧ (x.flag (BRG_OW.POSTED w) = false) :=
  ⟨((((up.put (BRG_OW.EN 15) 1).put (BRG_OW.LBASE 15) 0x40000000).put (BRG_OW.SIZE 15) 16).put (BRG_OW.POSTED 15) 0), 0, .s0, 15, 0x4000FFFE, 2, 0x12345, _, _, rfl, by decide, by decide, rfl, by decide, by decide, by decide, by decide⟩
theorem witness_RackOutbound_5 : ∃ (s : State) (t : Nat) (who : Initiator) (w a size d : Nat) (x : State) (v : State), (v = s.at_ t) ∧ (who ≠ .tri) ∧ (v.acts who = true) ∧ (x = v.lockBreak who) ∧ (size = 1 ∨ size = 2 ∨ size = 4) ∧ (a % size = 0) ∧ (x.owHits a = [w]) ∧ (x.flag (BRG_OW.POSTED w) = true) :=
  ⟨((((up.put (BRG_OW.EN 15) 1).put (BRG_OW.LBASE 15) 0x40000000).put (BRG_OW.SIZE 15) 16).put (BRG_OW.POSTED 15) 1), 0, .s0, 15, 0x4000FFFE, 2, 0x12345, _, _, rfl, by decide, by decide, rfl, by decide, by decide, by decide, by decide⟩
theorem witness_RackOutbound_6 : ∃ (s : State) (t : Nat) (who : Initiator) (a size d : Nat) (x : State) (v : State), (v = s.at_ t) ∧ (who ≠ .tri) ∧ (v.acts who = true) ∧ (x = v.lockBreak who) ∧ (x.owHits a = []) :=
  ⟨(((up.put (BRG_OW.EN 15) 1).put (BRG_OW.LBASE 15) 0x40000000).put (BRG_OW.SIZE 15) 16), 0, .s0, 0x40010001, 4, 0, _, _, rfl, by decide, by decide, rfl, by decide⟩
theorem witness_RackOutbound_7 : ∃ (s : State) (t : Nat) (who : Initiator) (a size d : Nat) (w : Nat) (x : State) (v : State), (v = s.at_ t) ∧ (who ≠ .tri) ∧ (v.acts who = true) ∧ (x = v.lockBreak who) ∧ (x.owHits a = [w]) ∧ (¬ ((size = 1 ∨ size = 2 ∨ size = 4) ∧ a % size = 0)) :=
  ⟨(((up.put (BRG_OW.EN 15) 1).put (BRG_OW.LBASE 15) 0x40000000).put (BRG_OW.SIZE 15) 16), 0, .s0, 0x4000FFFD, 4, 0, 15, _, _, rfl, by decide, by decide, rfl, by decide, by decide⟩
theorem witness_RackOutbound_8 : ∃ (s : State) (t : Nat) (a size d : Nat) (v : State), (v = s.at_ t) :=
  ⟨State.reset, 0, 0x40000001, 4, 0, _, rfl⟩
theorem witness_RackOutbound_9 : ∃ (s : State) (t : Nat) (who : Initiator) (a size d : Nat) (w w1 : Nat) (l : List Nat) (x v : State), (v = s.at_ t) ∧ (who ≠ .tri) ∧ (v.acts who = true) ∧ (x = v.lockBreak who) ∧ (x.owHits a = w :: w1 :: l) :=
  ⟨((((((up.put (BRG_OW.EN 15) 1).put (BRG_OW.LBASE 15) 0x40000000).put (BRG_OW.SIZE 15) 16).put (BRG_OW.EN 0) 1).put (BRG_OW.LBASE 0) 0x40000000).put (BRG_OW.SIZE 0) 16), 0, .s0, 0x40000000, 4, 0, 0, 15, [], _, _, rfl, by decide, by decide, rfl, by decide⟩
theorem witness_RackOutbound_10 : ∃ (s : State) (t : Nat) (who : Initiator) (a size : Nat) (x : State) (v : State), (v = s.at_ t) ∧ (who ≠ .tri) ∧ (v.acts who = true) ∧ (x = v.lockBreak who) ∧ (x.owHits a = []) :=
  ⟨(((up.put (BRG_OW.EN 15) 1).put (BRG_OW.LBASE 15) 0x40000000).put (BRG_OW.SIZE 15) 16), 0, .s0, 0x40010001, 4, _, _, rfl, by decide, by decide, rfl, by decide⟩
theorem witness_RackOutbound_11 : ∃ (s : State) (t : Nat) (who : Initiator) (a size : Nat) (w : Nat) (x : State) (v : State), (v = s.at_ t) ∧ (who ≠ .tri) ∧ (v.acts who = true) ∧ (x = v.lockBreak who) ∧ (x.owHits a = [w]) ∧ (¬ ((size = 1 ∨ size = 2 ∨ size = 4) ∧ a % size = 0)) :=
  ⟨(((up.put (BRG_OW.EN 15) 1).put (BRG_OW.LBASE 15) 0x40000000).put (BRG_OW.SIZE 15) 16), 0, .s0, 0x4000FFFD, 4, 15, _, _, rfl, by decide, by decide, rfl, by decide, by decide⟩
theorem witness_RackOutbound_12 : ∃ (s : State) (t : Nat) (a size : Nat) (v : State), (v = s.at_ t) :=
  ⟨State.reset, 0, 0x40000001, 4, _, rfl⟩
theorem witness_RackOutbound_13 : ∃ (s : State) (t : Nat) (who : Initiator) (a size : Nat) (w w1 : Nat) (l : List Nat) (x v : State), (v = s.at_ t) ∧ (who ≠ .tri) ∧ (v.acts who = true) ∧ (x = v.lockBreak who) ∧ (x.owHits a = w :: w1 :: l) :=
  ⟨((((((up.put (BRG_OW.EN 15) 1).put (BRG_OW.LBASE 15) 0x40000000).put (BRG_OW.SIZE 15) 16).put (BRG_OW.EN 0) 1).put (BRG_OW.LBASE 0) 0x40000000).put (BRG_OW.SIZE 0) 16), 0, .s0, 0x40000000, 4, 0, 15, [], _, _, rfl, by decide, by decide, rfl, by decide⟩
theorem witness_RackOutbound_14 : ∃ (s : State) (t : Nat) (who : Initiator) (w : Nat) (a n : Nat) (v : State), (v = s.at_ t) ∧ (v.owHits a = [w]) ∧ (a % 4 = 0) ∧ (a + 4 * n ≤ v.get (BRG_OW.LBASE w) + v.owSize w) :=
  ⟨(((up.put (BRG_OW.EN 15) 1).put (BRG_OW.LBASE 15) 0x40000000).put (BRG_OW.SIZE 15) 16), 0, .s0, 15, 0x4000FFFC, 1, _, rfl, by decide⟩
theorem witness_RackOutbound_15 : ∃ (s : State) (t : Nat) (who : Initiator) (w : Nat) (a n : Nat) (v : State), (v = s.at_ t) ∧ (v.owHits a = [w]) ∧ (v.get (BRG_OW.LBASE w) + v.owSize w < a + 4 * n ∨ a % 4 ≠ 0) :=
  ⟨(((up.put (BRG_OW.EN 15) 1).put (BRG_OW.LBASE 15) 0x40000000).put (BRG_OW.SIZE 15) 16), 0, .s0, 15, 0x4000FFFC, 2, _, rfl, by decide⟩
theorem witness_RackOutbound_16 : ∃ (s : State) (t : Nat) (who : Initiator) (a n : Nat) (v : State), (v = s.at_ t) ∧ (v.owHits a = []) :=
  ⟨State.reset, 0, .s0, 0x4000FFFC, 1, _, rfl, by decide⟩
theorem witness_RackOutbound_17 : ∃ (s : State) (t : Nat) (who : Initiator) (w : Nat) (a : Nat) (d : List (BitVec 32)) (v : State), (v = s.at_ t) ∧ (v.owHits a = [w]) ∧ (a % 4 = 0) ∧ (a + 4 * d.length ≤ v.get (BRG_OW.LBASE w) + v.owSize w) :=
  ⟨(((up.put (BRG_OW.EN 15) 1).put (BRG_OW.LBASE 15) 0x40000000).put (BRG_OW.SIZE 15) 16), 0, .s0, 15, 0x4000FFFC, [7], _, rfl, by decide⟩
theorem witness_RackOutbound_18 : ∃ (s : State) (t : Nat) (who : Initiator) (w : Nat) (a : Nat) (d : List (BitVec 32)) (v : State), (v = s.at_ t) ∧ (v.owHits a = [w]) ∧ (v.get (BRG_OW.LBASE w) + v.owSize w < a + 4 * d.length ∨ a % 4 ≠ 0) :=
  ⟨(((up.put (BRG_OW.EN 15) 1).put (BRG_OW.LBASE 15) 0x40000000).put (BRG_OW.SIZE 15) 16), 0, .s0, 15, 0x4000FFFC, [1, 2], _, rfl, by decide⟩
theorem witness_RackOutbound_19 : ∃ (s : State) (t : Nat) (who : Initiator) (a : Nat) (d : List (BitVec 32)) (v : State), (v = s.at_ t) ∧ (v.owHits a = []) :=
  ⟨State.reset, 0, .s0, 0x4000FFFC, [7], _, rfl, by decide⟩
theorem witness_RackOutbound_20 : ∃ (s : State) (t : Nat) (win : Nat) (reqs : BitVec 8) (r : RackReq) (v : State), (v = s.at_ t) ∧ (v.owCurrent win = some r) ∧ (v.mayIssue r = true) ∧ (r.kind ≠ 2) :=
  ⟨{ State.reset with brg := { State.reset.brg with reqs := [⟨some .s0, 3, 0x40000000, 0, 0, 1, 4, [], some 0, 0, false, 0, 0, false, false, false, false, false, false, []⟩] } }, 0, 3, 0xFF, ⟨some .s0, 3, 0x40000000, 0, 0, 1, 4, [], some 0, 0, false, 0, 0, false, false, false, false, false, false, []⟩, _, rfl, by decide⟩
theorem witness_RackOutbound_21 : ∃ (s : State) (t : Nat) (win : Nat) (reqs : BitVec 8) (r : RackReq) (v : State), (v = s.at_ t) ∧ (v.owCurrent win = some r) ∧ (v.mayIssue r = true) ∧ (r.kind = 2) :=
  ⟨{ State.reset with brg := { State.reset.brg with reqs := [⟨some .s0, 3, 0x40000000, 0, 2, 1, 4, [], none, 0, false, 0, 0, false, false, false, false, true, false, []⟩] } }, 0, 3, 0xFF, ⟨some .s0, 3, 0x40000000, 0, 2, 1, 4, [], none, 0, false, 0, 0, false, false, false, false, true, false, []⟩, _, rfl, by decide⟩
theorem witness_RackOutbound_22 : ∃ (s : State) (t : Nat) (win : Nat) (reqs : BitVec 8) (r : RackReq) (v : State), (v = s.at_ t) ∧ (v.owCurrent win = some r) ∧ (v.mayIssue r = true) ∧ (r.retries + 1 < atLeast1 (((((v.rackTurn 0).send 6 (rackPhase r)).lockPhase r).inc BRG_RETRY_CNT).get BRG_CTRL.RETRY_MAX)) :=
  ⟨{ (State.reset.put BRG_CTRL.RETRY_MAX 255) with brg := { State.reset.brg with reqs := [⟨some .s0, 3, 0x40000000, 0, 2, 1, 4, [], none, 0, false, 0, 0, false, false, false, false, true, false, []⟩] } }, 0, 3, 0xFF, ⟨some .s0, 3, 0x40000000, 0, 2, 1, 4, [], none, 0, false, 0, 0, false, false, false, false, true, false, []⟩, _, rfl, by decide⟩
theorem witness_RackOutbound_23 : ∃ (s : State) (t : Nat) (win : Nat) (reqs : BitVec 8) (r : RackReq) (v : State), (v = s.at_ t) ∧ (v.owCurrent win = some r) ∧ (v.mayIssue r = true) ∧ (atLeast1 (((((v.rackTurn 0).send 6 (rackPhase r)).lockPhase r).inc BRG_RETRY_CNT).get BRG_CTRL.RETRY_MAX) ≤ r.retries + 1) :=
  ⟨{ (State.reset.put BRG_CTRL.RETRY_MAX 255) with brg := { State.reset.brg with reqs := [⟨some .s0, 3, 0x40000000, 0, 0, 1, 4, [], some 0, 0, false, 254, 0, false, false, false, false, false, false, []⟩] } }, 0, 3, 0xFF, ⟨some .s0, 3, 0x40000000, 0, 0, 1, 4, [], some 0, 0, false, 254, 0, false, false, false, false, false, false, []⟩, _, rfl, by decide⟩
theorem witness_RackOutbound_24 : ∃ (s : State) (t : Nat) (win : Nat) (reqs : BitVec 8) (r : RackReq) (v : State), (v = s.at_ t) ∧ (v.owCurrent win = some r) ∧ (v.mayIssue r = true) :=
  ⟨{ State.reset with brg := { State.reset.brg with reqs := [⟨some .s0, 3, 0x40000000, 0, 0, 1, 4, [], some 0, 0, false, 0, 0, false, false, false, false, false, false, []⟩] } }, 0, 3, 0xFF, ⟨some .s0, 3, 0x40000000, 0, 0, 1, 4, [], some 0, 0, false, 0, 0, false, false, false, false, false, false, []⟩, _, rfl, by decide⟩
theorem witness_RackOutbound_25 : ∃ (s : State) (t : Nat) (win : Nat) (reqs : BitVec 8) (r : RackReq) (v : State), (v = s.at_ t) ∧ (v.owCurrent win = some r) ∧ (v.mayIssue r = true) :=
  ⟨{ State.reset with brg := { State.reset.brg with reqs := [⟨some .s0, 3, 0x40000000, 0, 0, 1, 4, [], some 0, 0, false, 0, 0, false, false, false, false, false, false, []⟩] } }, 0, 3, 0xFF, ⟨some .s0, 3, 0x40000000, 0, 0, 1, 4, [], some 0, 0, false, 0, 0, false, false, false, false, false, false, []⟩, _, rfl, by decide⟩
theorem witness_RackOutbound_26 : ∃ (s : State) (t : Nat) (win : Nat) (r : RackReq) (v : State), (v = s.at_ t) ∧ (v.owCurrent win = some r) ∧ (r.phase = 1) ∧ (r.at_ + 80 ≤ v.localNow) :=
  ⟨{ awake with brg := { State.reset.brg with reqs := [⟨some .s0, 3, 0x40000000, 0, 0, 1, 4, [], some 0, 1, false, 0, 0, false, false, false, false, false, false, []⟩] } }, 80, 3, ⟨some .s0, 3, 0x40000000, 0, 0, 1, 4, [], some 0, 1, false, 0, 0, false, false, false, false, false, false, []⟩, _, rfl, by decide⟩
theorem witness_RackOutbound_27 : ∃ (s : State) (t : Nat) (card tag : Nat) (beats : List (BitVec 32)) (reqs : BitVec 8) (r : RackReq) (v : State), (v = s.at_ t) ∧ ((v.rackTurn card).brg.reqs.find? (fun r => r.phase == 2 && r.tag == some tag) = some r) :=
  ⟨{ State.reset with brg := { State.reset.brg with reqs := [⟨some .s0, 3, 0x40000000, 0, 0, 1, 4, [], some 127, 2, false, 0, 0, false, false, false, false, false, false, []⟩] } }, 0, 5, 127, [], 0, ⟨some .s0, 3, 0x40000000, 0, 0, 1, 4, [], some 127, 2, false, 0, 0, false, false, false, false, false, false, []⟩, _, rfl, by decide⟩
theorem witness_RackOutbound_28 : ∃ (s : State) (t : Nat) (card tag : Nat) (beats : List (BitVec 32)) (reqs : BitVec 8) (r : RackReq) (v : State), (v = s.at_ t) ∧ ((v.rackTurn card).brg.reqs.find? (fun r => r.phase == 2 && r.tag == some tag) = some r) :=
  ⟨{ State.reset with brg := { State.reset.brg with reqs := [⟨some .s0, 3, 0x40000000, 0, 0, 1, 4, [], some 127, 2, false, 0, 0, false, false, false, false, false, false, []⟩] } }, 0, 5, 127, [], 0, ⟨some .s0, 3, 0x40000000, 0, 0, 1, 4, [], some 127, 2, false, 0, 0, false, false, false, false, false, false, []⟩, _, rfl, by decide⟩
theorem witness_RackOutbound_29 : ∃ (s : State) (t : Nat) (card tag : Nat) (beats : List (BitVec 32)) (reqs : BitVec 8) (err : Bool) (r : RackReq) (v : State), (v = s.at_ t) ∧ ((v.rackTurn card).brg.reqs.find? (fun r => r.phase == 2 && r.tag == some tag) = some r) :=
  ⟨{ State.reset with brg := { State.reset.brg with reqs := [⟨some .s0, 3, 0x40000000, 0, 0, 1, 4, [], some 127, 2, false, 0, 0, false, false, false, false, false, false, []⟩] } }, 0, 5, 127, [], 0, false, ⟨some .s0, 3, 0x40000000, 0, 0, 1, 4, [], some 127, 2, false, 0, 0, false, false, false, false, false, false, []⟩, _, rfl, by decide⟩
theorem witness_RackOutbound_30 : ∃ (s : State) (t : Nat) (card tag : Nat) (beats : List (BitVec 32)) (reqs : BitVec 8) (err : Bool) (v : State), (v = s.at_ t) ∧ ((v.rackTurn card).brg.reqs.find? (fun r => r.phase == 2 && r.tag == some tag) = none) ∧ ((SMap.find (v.rackTurn card).brg.retired tag).isSome = true) :=
  ⟨{ State.reset with brg := { State.reset.brg with retired := [(127, 0)] } }, 0, 5, 127, [], 0, false, _, rfl, by decide⟩
theorem witness_RackOutbound_31 : ∃ (s : State) (t : Nat) (card tag : Nat) (beats : List (BitVec 32)) (reqs : BitVec 8) (pos : Nat) (err par : Bool) (v : State), (v = s.at_ t) ∧ (pos ≠ 0) :=
  ⟨State.reset, 0, 5, 127, [], 0, 1, false, false, _, rfl, by decide⟩
theorem witness_RackOutbound_32 : ∃ (s : State) (t : Nat) (tag : Nat) (r : RackReq) (v : State), (v = s.at_ t) ∧ (v.brg.reqs.find? (fun r => r.phase == 2 && r.tag == some tag) = some r) ∧ (r.at_ + atLeast1 (v.get BRG_CTRL.RSP_TMO) * 1000 ≤ v.localNow) :=
  ⟨{ { (State.reset.put BRG_CTRL.RSP_TMO 1) with brg := { State.reset.brg with reqs := [⟨some .s0, 3, 0x40000000, 0, 0, 1, 4, [], some 127, 2, false, 0, 0, false, false, false, false, false, false, []⟩] } } with time := { State.reset.time with edge := 65535000 } }, 0, 127, ⟨some .s0, 3, 0x40000000, 0, 0, 1, 4, [], some 127, 2, false, 0, 0, false, false, false, false, false, false, []⟩, _, rfl, by decide⟩
theorem witness_RackOutbound_33 : ∃ (s : State) (t : Nat) (tag at_ : Nat) (v : State), (v = s.at_ t) ∧ (SMap.find v.brg.retired tag = some at_) ∧ (at_ + atLeast1 (v.get BRG_CTRL.RSP_TMO) * 1000 ≤ v.localNow) :=
  ⟨{ { (State.reset.put BRG_CTRL.RSP_TMO 1) with brg := { State.reset.brg with retired := [(0, 0)] } } with time := { State.reset.time with edge := 65535000 } }, 0, 0, 0, _, rfl, by decide⟩
theorem witness_RackOutbound_34 : ∃ (s : State) (t : Nat) (v : State), (v = s.at_ t) :=
  ⟨State.reset, 0, _, rfl⟩
theorem witness_RackOutbound_35 : ∃ (s : State) (t : Nat) (v : State), (v = s.at_ t) ∧ (v.brg.pf = []) :=
  ⟨State.reset, 0, _, rfl, by decide⟩
theorem witness_RackOutbound_36 : ∃ (s : State) (t : Nat) (who : Initiator) (v : State), (v = s.at_ t) ∧ (v.acts who = true) ∧ (v.unlocked who 0x10 = false) :=
  ⟨up, 0, .s1, _, rfl, by decide⟩
theorem witness_RackInbound_1 : ∃ (s : State) (t : Nat) (pos tag cmd addr be : Nat) (data : List (BitVec 32)) (reqs : BitVec 8) (v : State), (v = s.at_ t) ∧ (v.rackReset = false) :=
  ⟨{ (State.reset.putFlag BRG_CTRL.EN true) with pwr := { State.reset.pwr with inReset := false } }, 0, 8, 0, 0, 0, 0, [], 0, _, rfl, by decide⟩
theorem witness_RackInbound_2 : ∃ (s : State) (t : Nat) (pos tag cmd addr be : Nat) (data : List (BitVec 32)) (reqs : BitVec 8) (v : State), (v = s.at_ t) ∧ (v.rackReset = false) ∧ (legalIn cmd addr be (data.map BitVec.toNat) = false) :=
  ⟨{ (State.reset.putFlag BRG_CTRL.EN true) with pwr := { State.reset.pwr with inReset := false } }, 0, 8, 0, 12, 0, 0, [], 0, _, rfl, by decide⟩
theorem witness_RackInbound_3 : ∃ (s : State) (t : Nat) (pos tag cmd addr be : Nat) (data : List (BitVec 32)) (reqs : BitVec 8) (v : State), (v = s.at_ t) ∧ (v.rackReset = false) ∧ (legalIn cmd addr be (data.map BitVec.toNat) = true) ∧ (((v.rackTurn pos).arbitrate reqs).iwHits addr = []) :=
  ⟨{ (State.reset.putFlag BRG_CTRL.EN true) with pwr := { State.reset.pwr with inReset := false } }, 0, 8, 0, 0, 0, 0, [], 0, _, rfl, by decide⟩
theorem witness_RackInbound_4 : ∃ (s : State) (t : Nat) (pos tag cmd addr be : Nat) (data : List (BitVec 32)) (reqs : BitVec 8) (w w1 : Nat) (l : List Nat) (v : State), (v = s.at_ t) ∧ (v.rackReset = false) ∧ (legalIn cmd addr be (data.map BitVec.toNat) = true) ∧ (((v.rackTurn pos).arbitrate reqs).iwHits addr = w :: w1 :: l) :=
  ⟨{ (((((State.reset.putFlag BRG_CTRL.EN true).putFlag (BRG_IW.EN 7) true).put (BRG_IW.LBASE 7) 0x10000000).put (BRG_IW.SIZE 7) 12).putFlag (BRG_IW.EN 6) true) with pwr := { State.reset.pwr with inReset := false } }, 0, 8, 0, 0, 0, 0, [], 0, 6, 7, [], _, rfl, by decide⟩
theorem witness_RackInbound_5 : ∃ (s : State) (t : Nat) (pos tag cmd addr be : Nat) (data : List (BitVec 32)) (reqs : BitVec 8) (w : Nat) (v : State), (v = s.at_ t) ∧ (v.rackReset = false) ∧ (legalIn cmd addr be (data.map BitVec.toNat) = true) ∧ (((v.rackTurn pos).arbitrate reqs).iwHits addr = [w]) ∧ ((4 ≤ cmd ∧ ((v.rackTurn pos).arbitrate reqs).flag (BRG_IW.WR_EN w) = false) ∨ inboundMem (((v.rackTurn pos).arbitrate reqs).iwLocal w) (((v.rackTurn pos).arbitrate reqs).iwSize w) = false) :=
  ⟨{ ((((State.reset.putFlag BRG_CTRL.EN true).putFlag (BRG_IW.EN 7) true).put (BRG_IW.LBASE 7) 0x10000000).put (BRG_IW.SIZE 7) 12) with pwr := { State.reset.pwr with inReset := false } }, 0, 8, 0, 4, 0, 0, [7], 0, 7, _, rfl, by decide⟩
theorem witness_RackInbound_6 : ∃ (s : State) (t : Nat) (pos tag cmd addr be : Nat) (data : List (BitVec 32)) (reqs : BitVec 8) (w : Nat) (q : RackReq) (v : State), (v = s.at_ t) ∧ (v.rackReset = false) ∧ (legalIn cmd addr be (data.map BitVec.toNat) = true) ∧ (((v.rackTurn pos).arbitrate reqs).iwHits addr = [w]) ∧ (cmd < 4 ∨ ((v.rackTurn pos).arbitrate reqs).flag (BRG_IW.WR_EN w) = true) ∧ (inboundMem (((v.rackTurn pos).arbitrate reqs).iwLocal w) (((v.rackTurn pos).arbitrate reqs).iwSize w) = true) ∧ (((v.rackTurn pos).arbitrate reqs).crosser pos = some q) :=
  ⟨{ ((((State.reset.putFlag BRG_CTRL.EN true).putFlag (BRG_IW.EN 7) true).put (BRG_IW.LBASE 7) 0x10000000).put (BRG_IW.SIZE 7) 12) with pwr := { State.reset.pwr with inReset := false }, brg := { State.reset.brg with reqs := [⟨some .s0, 3, 0x40000000, 0, 0, 1, 4, [], some 0, 0, false, 0, 0, false, false, false, false, false, false, []⟩] } }, 0, 8, 0, 0, 0, 0, [], 0, 7, ⟨some .s0, 3, 0x40000000, 0, 0, 1, 4, [], some 0, 0, false, 0, 0, false, false, false, false, false, false, []⟩, _, rfl, by decide⟩
theorem witness_RackInbound_7 : ∃ (s : State) (t : Nat) (pos tag cmd addr be : Nat) (data : List (BitVec 32)) (reqs : BitVec 8) (w : Nat) (v : State), (v = s.at_ t) ∧ (v.rackReset = false) ∧ (legalIn cmd addr be (data.map BitVec.toNat) = true) ∧ (((v.rackTurn pos).arbitrate reqs).iwHits addr = [w]) ∧ (cmd < 4 ∨ ((v.rackTurn pos).arbitrate reqs).flag (BRG_IW.WR_EN w) = true) ∧ (inboundMem (((v.rackTurn pos).arbitrate reqs).iwLocal w) (((v.rackTurn pos).arbitrate reqs).iwSize w) = true) ∧ (((v.rackTurn pos).arbitrate reqs).crosser pos = none) ∧ ((⟨w, pos, tag, cmd, ((v.rackTurn pos).arbitrate reqs).iwLocal w + (addr - ((v.rackTurn pos).arbitrate reqs).iwBase w), be, data.map BitVec.toNat, false⟩ : RackIn).answers = true) ∧ (16 ≤ ((v.rackTurn pos).arbitrate reqs).brg.open_) :=
  ⟨{ ((((State.reset.putFlag BRG_CTRL.EN true).putFlag (BRG_IW.EN 7) true).put (BRG_IW.LBASE 7) 0x10000000).put (BRG_IW.SIZE 7) 12) with pwr := { State.reset.pwr with inReset := false }, brg := { State.reset.brg with inb := List.replicate 16 ⟨7, 8, 0, 0, 0x10000000, 0, [], false⟩ } }, 0, 8, 0, 0, 0, 0, [], 0, 7, _, rfl, by decide⟩
theorem witness_RackInbound_8 : ∃ (s : State) (t : Nat) (pos tag cmd addr be : Nat) (data : List (BitVec 32)) (reqs : BitVec 8) (w : Nat) (v : State), (v = s.at_ t) ∧ (v.rackReset = false) ∧ (legalIn cmd addr be (data.map BitVec.toNat) = true) ∧ (((v.rackTurn pos).arbitrate reqs).iwHits addr = [w]) ∧ (cmd < 4 ∨ ((v.rackTurn pos).arbitrate reqs).flag (BRG_IW.WR_EN w) = true) ∧ (inboundMem (((v.rackTurn pos).arbitrate reqs).iwLocal w) (((v.rackTurn pos).arbitrate reqs).iwSize w) = true) ∧ (((v.rackTurn pos).arbitrate reqs).crosser pos = none) ∧ ((⟨w, pos, tag, cmd, ((v.rackTurn pos).arbitrate reqs).iwLocal w + (addr - ((v.rackTurn pos).arbitrate reqs).iwBase w), be, data.map BitVec.toNat, false⟩ : RackIn).answers = false ∨ ((v.rackTurn pos).arbitrate reqs).brg.open_ < 16) :=
  ⟨{ ((((State.reset.putFlag BRG_CTRL.EN true).putFlag (BRG_IW.EN 7) true).put (BRG_IW.LBASE 7) 0x10000000).put (BRG_IW.SIZE 7) 12) with pwr := { State.reset.pwr with inReset := false } }, 0, 8, 0, 0, 0, 0, [], 0, 7, _, rfl, by decide⟩
theorem witness_RackInbound_9 : ∃ (s : State) (t : Nat) (pos tag : Nat) (reqs : BitVec 8) (r : RackIn) (v : State), (v = s.at_ t) ∧ (v.brg.inb.find? (fun r => r.pos == pos && r.tag == tag) = some r) ∧ (r.ready = false) ∧ (r.answers = false) :=
  ⟨{ State.reset with brg := { State.reset.brg with inb := [⟨7, 8, 0, 4, 0x10000000, 0, [7], false⟩], gnt := none } }, 0, 8, 0, 0, ⟨7, 8, 0, 4, 0x10000000, 0, [7], false⟩, _, rfl, by decide⟩
theorem witness_RackInbound_10 : ∃ (s : State) (t : Nat) (pos tag : Nat) (reqs : BitVec 8) (r : RackIn) (v : State), (v = s.at_ t) ∧ (v.brg.inb.find? (fun r => r.pos == pos && r.tag == tag) = some r) ∧ (r.ready = false) ∧ (r.answers = true) ∧ (v.brg.gnt = none) :=
  ⟨{ State.reset with brg := { State.reset.brg with inb := [⟨7, 8, 0, 8, 0x10000000, 0, [7], false⟩], gnt := none } }, 0, 8, 0, 0, ⟨7, 8, 0, 8, 0x10000000, 0, [7], false⟩, _, rfl, by decide⟩
theorem witness_RackInbound_11 : ∃ (s : State) (t : Nat) (pos tag : Nat) (reqs : BitVec 8) (r : RackIn) (v : State), (v = s.at_ t) ∧ (v.brg.inb.find? (fun r => r.pos == pos && r.tag == tag) = some r) ∧ (r.ready = false) ∧ (r.answers = true) ∧ (v.brg.gnt ≠ none) :=
  ⟨{ State.reset with brg := { State.reset.brg with inb := [⟨7, 8, 0, 0, 0x10000000, 0, [], false⟩], gnt := some 3 } }, 0, 8, 0, 0, ⟨7, 8, 0, 0, 0x10000000, 0, [], false⟩, _, rfl, by decide⟩
theorem witness_RackInbound_12 : ∃ (s : State) (t : Nat) (pos tag : Nat) (reqs : BitVec 8) (r : RackIn) (v : State), (v = s.at_ t) ∧ (v.brg.inb.find? (fun r => r.pos == pos && r.tag == tag) = some r) ∧ (r.ready = true) :=
  ⟨{ State.reset with brg := { State.reset.brg with inb := [⟨7, 8, 0, 0, 0x10000000, 0, [], true⟩], gnt := none } }, 0, 8, 0, 0, ⟨7, 8, 0, 0, 0x10000000, 0, [], true⟩, _, rfl, by decide⟩
theorem witness_RackInbound_13 : ∃ (s : State) (r : RackIn), (r.cmd < 4) :=
  ⟨State.reset, ⟨7, 8, 0, 3, 0x10000000, 0, [], false⟩, by decide⟩
theorem witness_RackInbound_14 : ∃ (s : State) (r : RackIn), (4 ≤ r.cmd) :=
  ⟨State.reset, ⟨7, 8, 0, 4, 0x10000000, 0, [7], false⟩, by decide⟩
theorem witness_RackInbound_15 : ∃ (s : State) (t : Nat) (who : Initiator) (addr w : Nat) (x : State) (v : State), (v = s.at_ t) ∧ (who ≠ .tri) ∧ (v.acts who = true) ∧ (regionAt addr 4 = some .rack) ∧ (addr % 4 = 0) ∧ (v.owHits addr = [w]) ∧ (x = v.lockBreak who) ∧ (x.brg.lock = none) :=
  ⟨(((up.put (BRG_OW.EN 15) 1).put (BRG_OW.LBASE 15) 0x40000000).put (BRG_OW.SIZE 15) 16), 0, .s0, 0x4000FFFC, 15, _, _, rfl, by decide, by decide, by decide, by decide, by decide, rfl, by decide⟩
theorem witness_RackInbound_16 : ∃ (s : State) (t : Nat) (who : Initiator) (addr w : Nat) (x : State) (v : State), (v = s.at_ t) ∧ (who ≠ .tri) ∧ (v.acts who = true) ∧ (regionAt addr 4 = some .rack) ∧ (addr % 4 = 0) ∧ (v.owHits addr = [w]) ∧ (x = v.lockBreak who) ∧ (x.brg.lock ≠ none) :=
  ⟨{ (((up.put (BRG_OW.EN 15) 1).put (BRG_OW.LBASE 15) 0x40000000).put (BRG_OW.SIZE 15) 16) with brg := { State.reset.brg with lock := some ⟨.s1, 0x4000FFFC, none, some 0, some 5⟩ } }, 0, .s0, 0x4000FFFC, 15, _, _, rfl, by decide, by decide, by decide, by decide, by decide, rfl, by decide⟩
theorem witness_RackInbound_17 : ∃ (s : State) (t : Nat) (who : Initiator) (addr w : Nat) (op : AmoOp) (d : BitVec 64) (x : State) (v : State), (v = s.at_ t) ∧ (who ≠ .tri) ∧ (v.acts who = true) ∧ (regionAt addr 4 = some .rack) ∧ (addr % 4 = 0) ∧ (v.owHits addr = [w]) ∧ (x = v.lockBreak who) ∧ (x.brg.lock = none) :=
  ⟨(((up.put (BRG_OW.EN 15) 1).put (BRG_OW.LBASE 15) 0x40000000).put (BRG_OW.SIZE 15) 16), 0, .s0, 0x4000FFFC, 15, .add, 1, _, _, rfl, by decide, by decide, by decide, by decide, by decide, rfl, by decide⟩
theorem witness_RackInbound_18 : ∃ (s : State) (t : Nat) (who : Initiator) (addr w : Nat) (op : AmoOp) (d : BitVec 64) (x : State) (v : State), (v = s.at_ t) ∧ (who ≠ .tri) ∧ (v.acts who = true) ∧ (regionAt addr 4 = some .rack) ∧ (addr % 4 = 0) ∧ (v.owHits addr = [w]) ∧ (x = v.lockBreak who) ∧ (x.brg.lock ≠ none) :=
  ⟨{ (((up.put (BRG_OW.EN 15) 1).put (BRG_OW.LBASE 15) 0x40000000).put (BRG_OW.SIZE 15) 16) with brg := { State.reset.brg with lock := some ⟨.s1, 0x4000FFFC, none, some 0, some 5⟩ } }, 0, .s0, 0x4000FFFC, 15, .add, 1, _, _, rfl, by decide, by decide, by decide, by decide, by decide, rfl, by decide⟩
theorem witness_RackInbound_19 : ∃ (s : State) (t : Nat) (who : Initiator) (addr w : Nat) (d : BitVec 64) (v : State), (v = s.at_ t) ∧ (who ≠ .tri) ∧ (v.acts who = true) ∧ (regionAt addr 4 = some .rack) ∧ (addr % 4 = 0) ∧ (v.owHits addr = [w]) ∧ (v.brg.lock = none) :=
  ⟨(((up.put (BRG_OW.EN 15) 1).put (BRG_OW.LBASE 15) 0x40000000).put (BRG_OW.SIZE 15) 16), 0, .s0, 0x4000FFFC, 15, 1, _, rfl, by decide⟩
theorem witness_RackInbound_20 : ∃ (s : State) (t : Nat) (who : Initiator) (addr w : Nat) (d : BitVec 64) (l : RackLock) (v : State), (v = s.at_ t) ∧ (who ≠ .tri) ∧ (v.acts who = true) ∧ (regionAt addr 4 = some .rack) ∧ (addr % 4 = 0) ∧ (v.owHits addr = [w]) ∧ (v.brg.lock = some l) ∧ (l.who = who) ∧ (l.amo = none) ∧ (l.addr = addr) ∧ (l.got.isSome = true) ∧ (l.open_ v.localNow = true) :=
  ⟨{ (((up.put (BRG_OW.EN 15) 1).put (BRG_OW.LBASE 15) 0x40000000).put (BRG_OW.SIZE 15) 16) with brg := { State.reset.brg with lock := some ⟨.s0, 0x4000FFFC, none, some 0, some 5⟩ } }, 0, .s0, 0x4000FFFC, 15, 1, ⟨.s0, 0x4000FFFC, none, some 0, some 5⟩, _, rfl, by decide⟩
theorem witness_RackInbound_21 : ∃ (s : State) (t : Nat) (who : Initiator) (addr w : Nat) (d : BitVec 64) (l : RackLock) (v : State), (v = s.at_ t) ∧ (who ≠ .tri) ∧ (v.acts who = true) ∧ (regionAt addr 4 = some .rack) ∧ (addr % 4 = 0) ∧ (v.owHits addr = [w]) ∧ (v.brg.lock = some l) ∧ (¬ (l.who = who ∧ l.amo = none ∧ l.addr = addr ∧ l.got.isSome = true ∧ l.open_ v.localNow = true)) :=
  ⟨{ (((up.put (BRG_OW.EN 15) 1).put (BRG_OW.LBASE 15) 0x40000000).put (BRG_OW.SIZE 15) 16) with brg := { State.reset.brg with lock := some ⟨.s0, 0x4000FFFC, none, some 0, some 5⟩ } }, 0, .s1, 0x4000FFFC, 15, 1, ⟨.s0, 0x4000FFFC, none, some 0, some 5⟩, _, rfl, by decide⟩
theorem witness_RackInbound_22 : ∃ (s : State) (t : Nat) (l : RackLock) (v : State), (v = s.at_ t) ∧ (v.brg.lock = some l) ∧ (l.open_ v.localNow = false) :=
  ⟨{ { State.reset with brg := { State.reset.brg with lock := some ⟨.s0, 0x4000FFFC, none, some 0, some 5⟩ } } with time := { State.reset.time with edge := 2000 } }, 0, ⟨.s0, 0x4000FFFC, none, some 0, some 5⟩, _, rfl, by decide⟩
theorem witness_RackInbound_23 : ∃ (s : State) (t : Nat) (who : Initiator) (a n : Nat) (r : Region) (v : State), (v = s.at_ t) ∧ (who ≠ .tri) ∧ (v.acts who = true) ∧ (regionAt a n = some r) ∧ (r ≠ .mmio) ∧ (r ≠ .table) ∧ (r ≠ .rack) ∧ (n = 4 ∨ n = 8) ∧ (a % n = 0) ∧ (memRight who none false r = true) :=
  ⟨up, 0, .s0, 0x10000008, 8, .sram, _, rfl, by decide⟩
theorem witness_RackInbound_24 : ∃ (s : State) (t : Nat) (who : Initiator) (a n : Nat) (r : Region) (op : AmoOp) (d : BitVec 64) (v : State), (v = s.at_ t) ∧ (who ≠ .tri) ∧ (v.acts who = true) ∧ (regionAt a n = some r) ∧ (r ≠ .mmio) ∧ (r ≠ .table) ∧ (r ≠ .rack) ∧ (n = 4 ∨ n = 8) ∧ (a % n = 0) ∧ (memRight who none true r = true) ∧ (v.runsOver who r = false) :=
  ⟨up, 0, .s0, 0x10000008, 8, .sram, .add, 1, _, rfl, by decide⟩
theorem witness_RackInbound_25 : ∃ (s : State) (t : Nat) (who : Initiator) (a n : Nat) (r : Region) (d : BitVec 64) (x : State) (v : State), (v = s.at_ t) ∧ (x = v.lockBreak who) ∧ (who ≠ .tri) ∧ (v.acts who = true) ∧ (regionAt a n = some r) ∧ (r ≠ .mmio) ∧ (r ≠ .table) ∧ (r ≠ .rack) ∧ (n = 4 ∨ n = 8) ∧ (a % n = 0) ∧ (memRight who none true r = true) ∧ (x.runsOver who r = false) ∧ (x.reserved who a = true) :=
  ⟨{ up with resv := [(1, (0x10000000, List.replicate 64 0))] }, 0, .s0, 0x10000008, 8, .sram, 1, _, _, rfl, rfl, by decide, by decide, by decide, by decide, by decide, by decide, by decide, by decide, by decide, by decide, by decide⟩
theorem witness_RackInbound_26 : ∃ (s : State) (t : Nat) (who : Initiator) (a n : Nat) (r : Region) (d : BitVec 64) (x : State) (v : State), (v = s.at_ t) ∧ (x = v.lockBreak who) ∧ (who ≠ .tri) ∧ (v.acts who = true) ∧ (regionAt a n = some r) ∧ (r ≠ .mmio) ∧ (r ≠ .table) ∧ (r ≠ .rack) ∧ (n = 4 ∨ n = 8) ∧ (a % n = 0) ∧ (memRight who none true r = true) ∧ (x.runsOver who r = false) ∧ (x.reserved who a = false) :=
  ⟨up, 0, .s0, 0x10000008, 8, .sram, 1, _, _, rfl, rfl, by decide, by decide, by decide, by decide, by decide, by decide, by decide, by decide, by decide, by decide, by decide⟩
theorem witness_RackInbound_27 : ∃ (s : State) (t : Nat) (who : Initiator) (a n : Nat) (r : Region) (op : AmoOp) (d : BitVec 64) (v : State), (v = s.at_ t) ∧ (who ≠ .tri) ∧ (v.acts who = true) ∧ (regionAt a n = some r) ∧ (r ≠ .mmio) ∧ (r ≠ .table) ∧ (r ≠ .rack) ∧ (n = 4 ∨ n = 8) ∧ (a % n = 0) ∧ (memRight who none true r = false) :=
  ⟨up, 0, .s0, 0x40, 8, .bootRom, .add, 1, _, rfl, by decide⟩
theorem witness_RackInbound_28 : ∃ (s : State) (t : Nat) (a n : Nat) (r : Region) (op : AmoOp) (d : BitVec 64) (v : State), (v = s.at_ t) ∧ (regionAt a n = some r) ∧ (r ≠ .mmio) ∧ (r ≠ .table) ∧ (r ≠ .rack) ∧ (n = 4 ∨ n = 8) ∧ (a % n = 0) ∧ (v.triCores ≠ []) ∧ (∀ k ∈ v.triCores, memRight .tri (some k) true r = true) :=
  ⟨{ (State.reset.put TRI_STAT.PART 1) with tri := { State.reset.tri with cores := [(0, { TriCore.init with st := .run })] } }, 0, 0x08000000, 8, .tcmAlias, .add, 1, _, rfl, by decide⟩
theorem witness_CoreWindows_1 : ∃ (s : State) (t : Nat) (core : Nat) (v : State), (v = s.at_ t) ∧ (core < 3) ∧ (v.flag CYC_STAT.BUSY = true) ∧ ((v.core core).st = .run) ∧ ((v.core core).started = false) ∧ ((v.core core).halted = false) ∧ ((((v.put (TRI_START.DELAY core) v.execNs).setCore core { v.core core with started := true, done := false, sig := 0, win := 0, nDev := 0, entry := v.execNs }).startCheck).storeVerdict = none) :=
  ⟨(({ awake with tri := { State.reset.tri with cores := [(0, { TriCore.init with st := .run }), (1, { TriCore.init with st := .run }), (2, { TriCore.init with st := .run })] } }).putFlag CYC_STAT.BUSY true), 700, 2, _, rfl, by decide⟩
theorem witness_CoreWindows_2 : ∃ (s : State) (t : Nat) (core : Nat) (v : State), (v = s.at_ t) ∧ (3 ≤ core ∨ v.flag CYC_STAT.BUSY = false ∨ (v.core core).st ≠ .run ∨ (v.core core).started = true ∨ (v.core core).halted = true) :=
  ⟨State.reset, 0, 3, _, rfl, by decide⟩
theorem witness_CoreWindows_3 : ∃ (s : State) (n : Nat), (n ∈ s.parts) ∧ ((s.core n).started = false) :=
  ⟨{ State.reset with tri := { State.reset.tri with cores := [(0, { TriCore.init with st := .run }), (1, { TriCore.init with st := .run }), (2, { TriCore.init with st := .run })] } }, 1, by decide⟩
theorem witness_CoreWindows_4 : ∃ (s : State) (n : Nat), (s.parts = [0, 1, 2]) ∧ (∀ m, m < 3 → (s.core m).started = true) ∧ ([0, 1, 2].filter (s.lateStart [0, 1, 2]) = [n]) :=
  ⟨{ State.reset with tri := { State.reset.tri with cores := [(0, { TriCore.init with st := .run, started := true, entry := 500 }), (1, { TriCore.init with st := .run, started := true, entry := 1000 }), (2, { TriCore.init with st := .run, started := true, entry := 2000 })] } }, 0, by decide⟩
theorem witness_CoreWindows_5 : ∃ (s : State) (t : Nat) (core off size : Nat) (data : BitVec 64) (v : State), (v = s.at_ t) ∧ (v.executes core = true) ∧ ((v.core core).done = false) ∧ ((v.core core).started = true) ∧ (size = 1 ∨ size = 2 ∨ size = 4 ∨ size = 8) ∧ (off + size ≤ 0x10000) :=
  ⟨{ State.reset with tri := { State.reset.tri with cores := [(0, { TriCore.init with st := .run, started := true }), (1, { TriCore.init with st := .run }), (2, { TriCore.init with st := .run })] } }, 0, 0, 0xFFFC, 4, 0x1122334455667788, _, rfl, by decide⟩
theorem witness_CoreWindows_6 : ∃ (s : State) (t : Nat) (core off size : Nat) (data : BitVec 64) (v : State), (v = s.at_ t) ∧ (v.executes core = true) ∧ ((v.core core).done = true) ∧ (v.flag CYC_STAT.BUSY = false ∨ (v.core core).started = true) ∧ (size = 1 ∨ size = 2 ∨ size = 4 ∨ size = 8) ∧ (off + size ≤ 0x10000) :=
  ⟨{ State.reset with tri := { State.reset.tri with cores := [(0, { TriCore.init with st := .run, started := true, done := true }), (1, { TriCore.init with st := .run }), (2, { TriCore.init with st := .run })] } }, 0, 0, 0, 4, 0, _, rfl, by decide⟩
theorem witness_CoreWindows_7 : ∃ (s : State) (t : Nat) (core off size : Nat) (data : BitVec 64) (v : State), (v = s.at_ t) ∧ (v.executes core = true) ∧ ((v.core core).done = true) ∧ (v.flag CYC_STAT.BUSY = true) ∧ ((v.core core).started = false) ∧ (size = 1 ∨ size = 2 ∨ size = 4 ∨ size = 8) ∧ (off + size ≤ 0x10000) :=
  ⟨(({ State.reset with tri := { State.reset.tri with cores := [(0, { TriCore.init with st := .run, done := true }), (1, { TriCore.init with st := .run }), (2, { TriCore.init with st := .run })] } }).putFlag CYC_STAT.BUSY true), 0, 0, 0, 4, 0, _, rfl, by decide⟩
theorem witness_CoreWindows_8 : ∃ (s : State) (t : Nat) (who : Initiator) (core : Nat) (acc : CsrAcc) (v : State), (v = s.at_ t) ∧ (who ≠ .tri) :=
  ⟨State.reset, 0, .s3, 0, .read, _, rfl, by decide⟩
theorem witness_CoreWindows_9 : ∃ (s : State) (t : Nat) (core : Nat) (v : State), (v = s.at_ t) ∧ (v.executes core = true) :=
  ⟨{ State.reset with tri := { State.reset.tri with cores := [(0, { TriCore.init with st := .run }), (1, { TriCore.init with st := .run }), (2, { TriCore.init with st := .run })] } }, 0, 2, _, rfl, by decide⟩
theorem witness_CoreWindows_10 : ∃ (s : State) (t : Nat) (core : Nat) (x : BitVec 64) (v : State), (v = s.at_ t) ∧ (v.executes core = true) ∧ ((v.core core).done = false) ∧ ((v.core core).started = true) ∧ ((v.core core).closed.length < 8) :=
  ⟨{ State.reset with tri := { State.reset.tri with cores := [(0, { TriCore.init with st := .run, started := true }), (1, { TriCore.init with st := .run }), (2, { TriCore.init with st := .run })] } }, 0, 0, 5, _, rfl, by decide⟩
theorem witness_CoreWindows_11 : ∃ (s : State) (t : Nat) (core : Nat) (x : BitVec 64) (v : State), (v = s.at_ t) ∧ (v.executes core = true) ∧ ((v.core core).done = false) ∧ ((v.core core).started = true) ∧ (8 ≤ (v.core core).closed.length) :=
  ⟨{ State.reset with tri := { State.reset.tri with cores := [(0, { TriCore.init with st := .run, started := true, closed := List.replicate 8 ⟨none, false, 0⟩ }), (1, { TriCore.init with st := .run }), (2, { TriCore.init with st := .run })] } }, 0, 0, 5, _, rfl, by decide⟩
theorem witness_CoreWindows_12 : ∃ (s : State) (t : Nat) (core : Nat) (x : BitVec 64) (v : State), (v = s.at_ t) ∧ (v.executes core = true) ∧ ((v.core core).done = true) ∧ (v.flag CYC_STAT.BUSY = false ∨ (v.core core).started = true) :=
  ⟨{ State.reset with tri := { State.reset.tri with cores := [(0, { TriCore.init with st := .run, started := true, done := true }), (1, { TriCore.init with st := .run }), (2, { TriCore.init with st := .run })] } }, 0, 0, 5, _, rfl, by decide⟩
theorem witness_CoreWindows_13 : ∃ (s : State) (t : Nat) (core : Nat) (x : BitVec 64) (v : State), (v = s.at_ t) ∧ (v.executes core = true) ∧ ((v.core core).done = true) ∧ (v.flag CYC_STAT.BUSY = true) ∧ ((v.core core).started = false) :=
  ⟨(({ State.reset with tri := { State.reset.tri with cores := [(0, { TriCore.init with st := .run, done := true }), (1, { TriCore.init with st := .run }), (2, { TriCore.init with st := .run })] } }).putFlag CYC_STAT.BUSY true), 0, 0, 5, _, rfl, by decide⟩
theorem witness_CoreWindows_14 : ∃ (s : State) (t : Nat) (core : Nat) (x : BitVec 64) (v : State), (v = s.at_ t) ∧ (v.executes core = true) ∧ ((v.core core).done = false) ∧ ((v.core core).started = true) ∧ ((v.core core).closed.length < 8) :=
  ⟨{ State.reset with tri := { State.reset.tri with cores := [(0, { TriCore.init with st := .run, started := true }), (1, { TriCore.init with st := .run }), (2, { TriCore.init with st := .run })] } }, 0, 0, 5, _, rfl, by decide⟩
theorem witness_CoreWindows_15 : ∃ (s : State) (t : Nat) (core : Nat) (x : BitVec 64) (v : State), (v = s.at_ t) ∧ (v.executes core = true) ∧ ((v.core core).done = false) ∧ ((v.core core).started = true) ∧ (8 ≤ (v.core core).closed.length) :=
  ⟨{ State.reset with tri := { State.reset.tri with cores := [(0, { TriCore.init with st := .run, started := true, closed := List.replicate 8 ⟨none, false, 0⟩ }), (1, { TriCore.init with st := .run }), (2, { TriCore.init with st := .run })] } }, 0, 0, 5, _, rfl, by decide⟩
theorem witness_CoreWindows_16 : ∃ (s : State) (t : Nat) (core : Nat) (x : BitVec 64) (v : State), (v = s.at_ t) ∧ (v.executes core = true) ∧ ((v.core core).done = true) ∧ (v.flag CYC_STAT.BUSY = false ∨ (v.core core).started = true) :=
  ⟨{ State.reset with tri := { State.reset.tri with cores := [(0, { TriCore.init with st := .run, started := true, done := true }), (1, { TriCore.init with st := .run }), (2, { TriCore.init with st := .run })] } }, 0, 0, 5, _, rfl, by decide⟩
theorem witness_CoreWindows_17 : ∃ (s : State) (t : Nat) (core : Nat) (x : BitVec 64) (v : State), (v = s.at_ t) ∧ (v.executes core = true) ∧ ((v.core core).done = true) ∧ (v.flag CYC_STAT.BUSY = true) ∧ ((v.core core).started = false) :=
  ⟨(({ State.reset with tri := { State.reset.tri with cores := [(0, { TriCore.init with st := .run, done := true }), (1, { TriCore.init with st := .run }), (2, { TriCore.init with st := .run })] } }).putFlag CYC_STAT.BUSY true), 0, 0, 5, _, rfl, by decide⟩
theorem witness_CoreWindows_18 : ∃ (s : State) (t : Nat) (core : Nat) (x : BitVec 64) (v : State), (v = s.at_ t) ∧ (v.executes core = true) ∧ ((v.core core).done = false) ∧ ((v.core core).started = true) ∧ ((v.core core).closed.length < 8) :=
  ⟨{ State.reset with tri := { State.reset.tri with cores := [(0, { TriCore.init with st := .run, started := true }), (1, { TriCore.init with st := .run }), (2, { TriCore.init with st := .run })] } }, 0, 0, 5, _, rfl, by decide⟩
theorem witness_CoreWindows_19 : ∃ (s : State) (t : Nat) (core : Nat) (x : BitVec 64) (v : State), (v = s.at_ t) ∧ (v.executes core = true) ∧ ((v.core core).done = false) ∧ ((v.core core).started = true) ∧ (8 ≤ (v.core core).closed.length) :=
  ⟨{ State.reset with tri := { State.reset.tri with cores := [(0, { TriCore.init with st := .run, started := true, closed := List.replicate 8 ⟨none, false, 0⟩ }), (1, { TriCore.init with st := .run }), (2, { TriCore.init with st := .run })] } }, 0, 0, 5, _, rfl, by decide⟩
theorem witness_CoreWindows_20 : ∃ (s : State) (t : Nat) (core : Nat) (x : BitVec 64) (v : State), (v = s.at_ t) ∧ (v.executes core = true) ∧ ((v.core core).done = true) ∧ (v.flag CYC_STAT.BUSY = false ∨ (v.core core).started = true) :=
  ⟨{ State.reset with tri := { State.reset.tri with cores := [(0, { TriCore.init with st := .run, started := true, done := true }), (1, { TriCore.init with st := .run }), (2, { TriCore.init with st := .run })] } }, 0, 0, 5, _, rfl, by decide⟩
theorem witness_CoreWindows_21 : ∃ (s : State) (t : Nat) (core : Nat) (x : BitVec 64) (v : State), (v = s.at_ t) ∧ (v.executes core = true) ∧ ((v.core core).done = true) ∧ (v.flag CYC_STAT.BUSY = true) ∧ ((v.core core).started = false) :=
  ⟨(({ State.reset with tri := { State.reset.tri with cores := [(0, { TriCore.init with st := .run, done := true }), (1, { TriCore.init with st := .run }), (2, { TriCore.init with st := .run })] } }).putFlag CYC_STAT.BUSY true), 0, 0, 5, _, rfl, by decide⟩
theorem witness_CoreWindows_22 : ∃ (s : State) (t : Nat) (core : Nat) (value : BitVec 32) (v : State), (v = s.at_ t) ∧ (v.executes core = true) ∧ ((v.core core).done = false) ∧ ((v.core core).started = true) ∧ ((v.core core).closed.length < 8) :=
  ⟨{ State.reset with tri := { State.reset.tri with cores := [(0, { TriCore.init with st := .run, started := true }), (1, { TriCore.init with st := .run }), (2, { TriCore.init with st := .run })] } }, 0, 0, 5, _, rfl, by decide⟩
theorem witness_CoreWindows_23 : ∃ (s : State) (t : Nat) (core : Nat) (value : BitVec 32) (v : State), (v = s.at_ t) ∧ (v.executes core = true) ∧ ((v.core core).done = false) ∧ ((v.core core).started = true) ∧ (8 ≤ (v.core core).closed.length) :=
  ⟨{ State.reset with tri := { State.reset.tri with cores := [(0, { TriCore.init with st := .run, started := true, closed := List.replicate 8 ⟨none, false, 0⟩ }), (1, { TriCore.init with st := .run }), (2, { TriCore.init with st := .run })] } }, 0, 0, 5, _, rfl, by decide⟩
theorem witness_CoreWindows_24 : ∃ (s : State) (t : Nat) (core : Nat) (value : BitVec 32) (v : State), (v = s.at_ t) ∧ (v.executes core = true) ∧ ((v.core core).done = true) ∧ (v.flag CYC_STAT.BUSY = false ∨ (v.core core).started = true) :=
  ⟨{ State.reset with tri := { State.reset.tri with cores := [(0, { TriCore.init with st := .run, started := true, done := true }), (1, { TriCore.init with st := .run }), (2, { TriCore.init with st := .run })] } }, 0, 0, 5, _, rfl, by decide⟩
theorem witness_CoreWindows_25 : ∃ (s : State) (t : Nat) (core : Nat) (value : BitVec 32) (v : State), (v = s.at_ t) ∧ (v.executes core = true) ∧ ((v.core core).done = true) ∧ (v.flag CYC_STAT.BUSY = true) ∧ ((v.core core).started = false) :=
  ⟨(({ State.reset with tri := { State.reset.tri with cores := [(0, { TriCore.init with st := .run, done := true }), (1, { TriCore.init with st := .run }), (2, { TriCore.init with st := .run })] } }).putFlag CYC_STAT.BUSY true), 0, 0, 5, _, rfl, by decide⟩
theorem witness_CoreWindows_26 : ∃ (s : State) (t : Nat) (core : Nat) (v : State), (v = s.at_ t) ∧ (core < 3) ∧ ((v.core core).st = .run) ∧ ((v.core core).halted = false) ∧ ((v.core core).done = false) ∧ ((v.core core).started = true) :=
  ⟨{ State.reset with tri := { State.reset.tri with cores := [(0, { TriCore.init with st := .run, started := true }), (1, { TriCore.init with st := .run }), (2, { TriCore.init with st := .run })] } }, 0, 0, _, rfl, by decide⟩
theorem witness_CoreWindows_27 : ∃ (s : State) (t : Nat) (core : Nat) (v : State), (v = s.at_ t) ∧ (core < 3) ∧ ((v.core core).st = .run) ∧ ((v.core core).halted = false) ∧ ((v.core core).done = true ∨ (v.core core).started = false) ∧ (v.flag CYC_STAT.BUSY = false ∨ (v.core core).started = true) :=
  ⟨{ State.reset with tri := { State.reset.tri with cores := [(0, { TriCore.init with st := .run, started := true, done := true }), (1, { TriCore.init with st := .run }), (2, { TriCore.init with st := .run })] } }, 0, 0, _, rfl, by decide⟩
theorem witness_CoreWindows_28 : ∃ (s : State) (t : Nat) (core : Nat) (v : State), (v = s.at_ t) ∧ (core < 3) ∧ ((v.core core).st = .run) ∧ ((v.core core).halted = false) ∧ ((v.core core).done = true ∨ (v.core core).started = false) ∧ (v.flag CYC_STAT.BUSY = true) ∧ ((v.core core).started = false) :=
  ⟨(({ State.reset with tri := { State.reset.tri with cores := [(0, { TriCore.init with st := .run, done := true }), (1, { TriCore.init with st := .run }), (2, { TriCore.init with st := .run })] } }).putFlag CYC_STAT.BUSY true), 0, 0, _, rfl, by decide⟩
theorem witness_CoreWindows_29 : ∃ (s : State) (t : Nat) (core : Nat) (v : State), (v = s.at_ t) ∧ (3 ≤ core ∨ (v.core core).st ≠ .run ∨ (v.core core).halted = true) :=
  ⟨State.reset, 0, 0, _, rfl, by decide⟩
theorem witness_CoreWindows_30 : ∃ (s : State) (n : Nat) (last : Bool), (n < 3) :=
  ⟨State.reset, 2, true, by decide⟩
theorem witness_Voter_1 : ∃ (s : State) (t : Nat) (v : State), (v = s.at_ t) ∧ (∀ n ∈ v.parts, ∀ x ∈ (v.core n).closed.head?, v.localNow < x.at_ + v.winTmo) :=
  ⟨{ State.reset with tri := { State.reset.tri with cores := [(0, { TriCore.init with st := .run }), (1, { TriCore.init with st := .run }), (2, { TriCore.init with st := .run })] } }, 0, _, rfl, by decide⟩
theorem witness_Voter_2 : ∃ (s : State) (t : Nat) (n : Nat) (x : Win) (v : State), (v = s.at_ t) ∧ (n ∈ v.parts) ∧ ((v.core n).closed.head? = some x) ∧ (x.at_ + v.winTmo ≤ v.localNow) :=
  ⟨{ ({ State.reset with tri := { State.reset.tri with cores := [(0, { TriCore.init with st := .run, started := true, closed := [⟨some 1, false, 0⟩] }), (1, { TriCore.init with st := .run, started := true, closed := [⟨some 1, false, 0⟩] }), (2, { TriCore.init with st := .run, started := true, closed := [⟨some 1, false, 0⟩] })] } }) with time := { State.reset.time with edge := 1000000000 } }, 0, 2, ⟨some 1, false, 0⟩, _, rfl, by decide⟩
theorem witness_Voter_3 : ∃ (s : State) (t : Nat) (fa fb : BitVec 3) (v : State), (v = s.at_ t) ∧ (v.voteDue = true) ∧ (fa ≠ fb) ∧ ((v.enterLockout 1 3).storeVerdict = none) :=
  ⟨{ State.reset with tri := { State.reset.tri with cores := [(0, { TriCore.init with st := .run, started := true, closed := [⟨some 1, false, 0⟩] }), (1, { TriCore.init with st := .run, started := true, closed := [⟨some 1, false, 0⟩] }), (2, { TriCore.init with st := .run, started := true, closed := [⟨some 1, false, 0⟩] })] } }, 0, 4, 0, _, rfl, by decide⟩
theorem witness_Voter_4 : ∃ (s : State) (t : Nat) (fa fb : BitVec 3) (v : State), (v = s.at_ t) ∧ (v.voteDue = true) :=
  ⟨{ State.reset with tri := { State.reset.tri with cores := [(0, { TriCore.init with st := .run, started := true, closed := [⟨some 1, false, 0⟩] }), (1, { TriCore.init with st := .run, started := true, closed := [⟨some 1, false, 0⟩] }), (2, { TriCore.init with st := .run, started := true, closed := [⟨some 1, false, 0⟩] })] } }, 0, 4, 4, _, rfl, by decide⟩
theorem witness_Voter_5 : ∃ (s : State) (t : Nat) (fa fb : BitVec 3) (v : State), (v = s.at_ t) ∧ (v.voteDue = false) :=
  ⟨State.reset, 0, 4, 0, _, rfl, by decide⟩
theorem witness_Voter_6 : ∃ (s : State) (t : Nat) (x : DWord) (i j k : Nat) (v : State), (v = s.at_ t) ∧ (v.parts = [0, 1, 2]) ∧ ((v.core 0).closed.head? = some ⟨some x, false, i⟩) ∧ ((v.core 1).closed.head? = some ⟨some x, false, j⟩) ∧ ((v.core 2).closed.head? = some ⟨some x, false, k⟩) ∧ (v.flag CYC_STAT.KIND = false) ∧ (v.flag TRI_STAT.VTEST_PEND = false) ∧ ((v.get TRI_WIN_CNT + 1) % 1024 ≠ 0) ∧ ((v.decide_ 0 0).storeVerdict = none) :=
  ⟨{ State.reset with tri := { State.reset.tri with cores := [(0, { TriCore.init with st := .run, started := true, closed := [⟨some 7, false, 0⟩] }), (1, { TriCore.init with st := .run, started := true, closed := [⟨some 7, false, 0⟩] }), (2, { TriCore.init with st := .run, started := true, closed := [⟨some 7, false, 0⟩] })] } }, 0, 7, 0, 0, 0, _, rfl, by decide⟩
theorem witness_Voter_7 : ∃ (s : State) (t : Nat) (a c : DWord) (i j k : Nat) (v : State), (v = s.at_ t) ∧ (v.parts = [0, 1, 2]) ∧ ((v.core 0).closed.head? = some ⟨some a, false, i⟩) ∧ ((v.core 1).closed.head? = some ⟨some a, false, j⟩) ∧ ((v.core 2).closed.head? = some ⟨some c, false, k⟩) ∧ (v.flag CYC_STAT.KIND = false) ∧ (c ≠ a) ∧ (v.flag TRI_STAT.VTEST_PEND = false) ∧ ((v.get TRI_WIN_CNT + 1) % 1024 ≠ 0) ∧ ((v.decide_ 0 0).storeVerdict = none) :=
  ⟨{ State.reset with tri := { State.reset.tri with cores := [(0, { TriCore.init with st := .run, started := true, closed := [⟨some 7, false, 0⟩] }), (1, { TriCore.init with st := .run, started := true, closed := [⟨some 7, false, 0⟩] }), (2, { TriCore.init with st := .run, started := true, closed := [⟨some 8, false, 0⟩] })] } }, 0, 7, 8, 0, 0, 0, _, rfl, by decide⟩
theorem witness_Voter_8 : ∃ (s : State) (t : Nat) (a b : DWord) (i j : Nat) (v : State), (v = s.at_ t) ∧ (v.parts = [0, 1]) ∧ ((v.core 0).closed.head? = some ⟨some a, false, i⟩) ∧ ((v.core 1).closed.head? = some ⟨some b, false, j⟩) ∧ (v.flag CYC_STAT.KIND = false) ∧ (a ≠ b) ∧ (v.flag TRI_STAT.VTEST_PEND = false) ∧ ((v.get TRI_WIN_CNT + 1) % 1024 ≠ 0) ∧ ((v.decide_ 0 0).storeVerdict = none) :=
  ⟨{ State.reset with tri := { State.reset.tri with cores := [(0, { TriCore.init with st := .run, started := true, closed := [⟨some 7, false, 0⟩] }), (1, { TriCore.init with st := .run, started := true, closed := [⟨some 8, false, 0⟩] }), (2, { TriCore.init with st := .held, started := true, closed := [⟨some 8, false, 0⟩] })] } }, 0, 7, 8, 0, 0, _, rfl, by decide⟩
theorem witness_Voter_9 : ∃ (s : State) (t : Nat) (fa fb : BitVec 3) (v : State), (v = s.at_ t) ∧ (16384 ≤ v.tri.testTicks) ∧ (v.parts.isEmpty = false) ∧ (v.tri.agreed = []) :=
  ⟨(let s := ({ State.reset with tri := { State.reset.tri with cores := [(0, { TriCore.init with st := .run }), (1, { TriCore.init with st := .run }), (2, { TriCore.init with st := .run })] } } : State); { s with tri := { s.tri with testTicks := 16384 } }), 0, 0, 0, _, rfl, by decide⟩
theorem witness_Voter_10 : ∃ (s : State) (t : Nat) (fa fb : BitVec 3) (v : State), (v = s.at_ t) ∧ (v.tri.testTicks < 16384 ∨ v.parts = []) :=
  ⟨State.reset, 0, 0, 1, _, rfl, by decide⟩
theorem witness_Voter_11 : ∃ (s : State) (t : Nat) (fa fb : BitVec 3) (v : State), (v = s.at_ t) ∧ (16384 ≤ v.tri.testTicks) ∧ (v.parts.isEmpty = false) ∧ ((v.parts.filter (fun n => (SMap.find v.tri.agreed n).isSome)).length < 2) :=
  ⟨(let s := ({ State.reset with tri := { State.reset.tri with cores := [(0, { TriCore.init with st := .run }), (1, { TriCore.init with st := .run }), (2, { TriCore.init with st := .run })] } } : State); { s with tri := { s.tri with testTicks := 16384, agreed := [(2, 5)] } }), 0, 0, 0, _, rfl, by decide⟩
theorem witness_Voter_12 : ∃ (s : State) (t : Nat) (a : DWord) (v : State), (v = s.at_ t) ∧ (16384 ≤ v.tri.testTicks) ∧ (v.parts = [0, 1, 2]) ∧ (v.tri.agreed = [(0, a), (1, a), (2, a)]) :=
  ⟨(let s := ({ State.reset with tri := { State.reset.tri with cores := [(0, { TriCore.init with st := .run }), (1, { TriCore.init with st := .run }), (2, { TriCore.init with st := .run })] } } : State); { s with tri := { s.tri with testTicks := 16384, agreed := [(0, 5), (1, 5), (2, 5)] } }), 0, 5, _, rfl, by decide⟩
theorem witness_CoreCopies_1 : ∃ (s : State) (t : Nat) (core : Nat) (v : State), (v = s.at_ t) ∧ (core < 3) ∧ ((v.core core).st = .copy) :=
  ⟨{ State.reset with tri := { State.reset.tri with cores := [(0, { TriCore.init with st := .run }), (1, { TriCore.init with st := .run }), (2, { TriCore.init with st := .copy })] } }, 0, 2, _, rfl, by decide⟩
theorem witness_CoreCopies_2 : ∃ (s : State) (t : Nat) (core : Nat) (v : State), (v = s.at_ t) ∧ (core < 3) ∧ ((v.core core).st = .copy) :=
  ⟨{ State.reset with tri := { State.reset.tri with cores := [(0, { TriCore.init with st := .run }), (1, { TriCore.init with st := .run }), (2, { TriCore.init with st := .copy })] } }, 0, 2, _, rfl, by decide⟩
theorem witness_CoreCopies_3 : ∃ (s : State) (t : Nat) (core : Nat) (ok : Bool) (v : State), (v = s.at_ t) ∧ (3 ≤ core ∨ (v.core core).st ≠ .copy) :=
  ⟨State.reset, 0, 3, true, _, rfl, by decide⟩
theorem witness_DeviceStores_1 : ∃ (s : State) (t : Nat) (core : Nat) (addr : BitVec 64) (size : Nat) (data : BitVec 64) (r : Region) (v : State), (v = s.at_ t) ∧ (v.executes core = true) ∧ (regionAt addr.toNat size = some r) ∧ (r.isMemory = false) ∧ (triMay addr.toNat size = false) :=
  ⟨{ State.reset with tri := { State.reset.tri with cores := [(0, { TriCore.init with st := .run, started := true }), (1, { TriCore.init with st := .run }), (2, { TriCore.init with st := .run })] } }, 0, 0, 0x40000000, 4, 0, .rack, _, rfl, by decide⟩
theorem witness_DeviceStores_2 : ∃ (s : State) (t : Nat) (core : Nat) (addr : BitVec 64) (size : Nat) (data : BitVec 64) (v : State), (v = s.at_ t) ∧ (v.executes core = true) ∧ (regionAt addr.toNat size = none) :=
  ⟨{ State.reset with tri := { State.reset.tri with cores := [(0, { TriCore.init with st := .run, started := true }), (1, { TriCore.init with st := .run }), (2, { TriCore.init with st := .run })] } }, 0, 0, 0x30000000, 4, 0, _, rfl, by decide⟩
theorem witness_DeviceStores_3 : ∃ (s : State) (t : Nat) (core : Nat) (addr : BitVec 64) (size : Nat) (data : BitVec 64) (r : Region) (v : State), (v = s.at_ t) ∧ (v.executes core = true) ∧ (regionAt addr.toNat size = some r) ∧ (r.isMemory = true) :=
  ⟨{ State.reset with tri := { State.reset.tri with cores := [(0, { TriCore.init with st := .run, started := true }), (1, { TriCore.init with st := .run }), (2, { TriCore.init with st := .run })] } }, 0, 0, 0x08000000, 4, 7, .tcmAlias, _, rfl, by decide⟩
theorem witness_DeviceStores_4 : ∃ (s : State) (t : Nat) (core : Nat) (addr : BitVec 64) (size : Nat) (data : BitVec 64) (v : State), (v = s.at_ t) ∧ (v.executes core = false) :=
  ⟨State.reset, 0, 0, 0x20040000, 4, 0, _, rfl, by decide⟩
theorem witness_DeviceStores_5 : ∃ (s : State) (t : Nat) (core : Nat) (data : BitVec 64) (v : State), (v = s.at_ t) ∧ (v.executes core = true) :=
  ⟨{ State.reset with tri := { State.reset.tri with cores := [(0, { TriCore.init with st := .run }), (1, { TriCore.init with st := .run }), (2, { TriCore.init with st := .run })] } }, 0, 0, 0x1FFFFFFFF, _, rfl, by decide⟩
theorem witness_DeviceStores_6 : ∃ (s : State) (t : Nat) (core : Nat) (data : BitVec 64) (v : State), (v = s.at_ t) ∧ (v.executes core = true) :=
  ⟨{ State.reset with tri := { State.reset.tri with cores := [(0, { TriCore.init with st := .run, started := true }), (1, { TriCore.init with st := .run }), (2, { TriCore.init with st := .run })] } }, 0, 0, 7, _, rfl, by decide⟩
theorem witness_DeviceStores_7 : ∃ (s : State) (t : Nat) (core : Nat) (addr : BitVec 64) (size : Nat) (data : BitVec 64) (r : Region) (v : State), (v = s.at_ t) ∧ (v.executes core = true) ∧ (regionAt addr.toNat size = some r) ∧ (r.isMemory = false) ∧ (triMay addr.toNat size = true) ∧ (addr.toNat ≠ CYC_DONE.VALUE.addr) ∧ (addr.toNat ≠ TRI_SELF_SCR.SCR.addr) ∧ ((v.core core).done = true) ∧ (v.flag CYC_STAT.BUSY = false ∨ (v.core core).started = true) :=
  ⟨{ State.reset with tri := { State.reset.tri with cores := [(0, { TriCore.init with st := .run, started := true, done := true }), (1, { TriCore.init with st := .run }), (2, { TriCore.init with st := .run })] } }, 0, 0, 0x20040000, 4, 7, .mmio, _, rfl, by decide⟩
theorem witness_DeviceStores_8 : ∃ (s : State) (t : Nat) (core : Nat) (addr : BitVec 64) (size : Nat) (data : BitVec 64) (r : Region) (v : State), (v = s.at_ t) ∧ (v.executes core = true) ∧ (regionAt addr.toNat size = some r) ∧ (r.isMemory = false) ∧ (triMay addr.toNat size = true) ∧ (addr.toNat ≠ CYC_DONE.VALUE.addr) ∧ (addr.toNat ≠ TRI_SELF_SCR.SCR.addr) ∧ ((v.core core).done = true) ∧ (v.flag CYC_STAT.BUSY = true) ∧ ((v.core core).started = false) :=
  ⟨(({ State.reset with tri := { State.reset.tri with cores := [(0, { TriCore.init with st := .run, done := true }), (1, { TriCore.init with st := .run }), (2, { TriCore.init with st := .run })] } }).putFlag CYC_STAT.BUSY true), 0, 0, 0x20040000, 4, 7, .mmio, _, rfl, by decide⟩
theorem witness_DeviceStores_9 : ∃ (s : State) (t : Nat) (core : Nat) (addr : BitVec 64) (size : Nat) (data : BitVec 64) (r : Region) (v : State), (v = s.at_ t) ∧ (v.executes core = true) ∧ (regionAt addr.toNat size = some r) ∧ (r.isMemory = false) ∧ (triMay addr.toNat size = true) ∧ (addr.toNat ≠ CYC_DONE.VALUE.addr) ∧ (addr.toNat ≠ TRI_SELF_SCR.SCR.addr) ∧ ((v.core core).done = false) ∧ ((v.core core).started = true) ∧ ((v.core core).queue.length < 16) ∧ ((v.enqueueStore core addr.toNat size (data.toNat % 2 ^ (8 * size))).storeVerdict = none) :=
  ⟨{ State.reset with tri := { State.reset.tri with cores := [(0, { TriCore.init with st := .run, started := true }), (1, { TriCore.init with st := .run }), (2, { TriCore.init with st := .run })] } }, 0, 0, 0x20040000, 4, 1, .mmio, _, rfl, by decide⟩
theorem witness_DeviceStores_10 : ∃ (s : State) (t : Nat) (core : Nat) (addr : BitVec 64) (size : Nat) (data : BitVec 64) (r : Region) (v : State), (v = s.at_ t) ∧ (v.executes core = true) ∧ (regionAt addr.toNat size = some r) ∧ (r.isMemory = false) ∧ (triMay addr.toNat size = true) ∧ (addr.toNat ≠ CYC_DONE.VALUE.addr) ∧ (addr.toNat ≠ TRI_SELF_SCR.SCR.addr) ∧ ((v.core core).done = false) ∧ ((v.core core).started = true) ∧ (16 ≤ (v.core core).queue.length) :=
  ⟨{ State.reset with tri := { State.reset.tri with cores := [(0, { TriCore.init with st := .run, started := true, queue := List.replicate 16 ⟨0, 0, 0, 0, 0, 0⟩ }), (1, { TriCore.init with st := .run }), (2, { TriCore.init with st := .run })] } }, 0, 0, 0x20040000, 4, 1, .mmio, _, rfl, by decide⟩
theorem witness_DeviceStores_11 : ∃ (s : State) (t : Nat) (core : Nat) (addr : BitVec 64) (size : Nat) (data : BitVec 64) (r : Region) (x : DStore) (w : State) (v : State), (v = s.at_ t) ∧ (v.executes core = true) ∧ (regionAt addr.toNat size = some r) ∧ (r.isMemory = false) ∧ (triMay addr.toNat size = true) ∧ (addr.toNat ≠ CYC_DONE.VALUE.addr) ∧ (addr.toNat ≠ TRI_SELF_SCR.SCR.addr) ∧ ((v.core core).done = false) ∧ ((v.core core).started = true) ∧ ((v.core core).queue.length < 16) ∧ ((v.enqueueStore core addr.toNat size (data.toNat % 2 ^ (8 * size))).storeVerdict = some (true, x)) ∧ (((v.enqueueStore core addr.toNat size (data.toNat % 2 ^ (8 * size))).settle x).writeReg t .tri x.addr x.size x.data = .next w) ∧ ((w.inc TRI_DSTORE_CNT).storeVerdict = none) :=
  ⟨{ State.reset with tri := { State.reset.tri with cores := [(0, { TriCore.init with st := .run, started := true }), (1, { TriCore.init with st := .run, queue := [⟨0, 0, 0x20040000, 4, 1, 0⟩] }), (2, { TriCore.init with st := .run })] } }, 0, 0, 0x20040000, 4, 1, .mmio, ⟨0, 0, 0x20040000, 4, 1, 0⟩, (match ((((({ State.reset with tri := { State.reset.tri with cores := [(0, { TriCore.init with st := .run, started := true }), (1, { TriCore.init with st := .run, queue := [⟨0, 0, 0x20040000, 4, 1, 0⟩] }), (2, { TriCore.init with st := .run })] } } : State).at_ 0).enqueueStore 0 0x20040000 4 1).settle ⟨0, 0, 0x20040000, 4, 1, 0⟩).writeReg 0 .tri 0x20040000 4 1) with | .next w => w | _ => State.reset), _, rfl, by exact ⟨by decide, by decide, by decide, by decide, by decide, by decide, by decide, by decide, by decide, by decide, rfl, by decide⟩⟩
theorem witness_DeviceStores_12 : ∃ (s w : State) (t fuel : Nat) (x : DStore), (s.storeVerdict = some (true, x)) ∧ ((s.settle x).writeReg t .tri x.addr x.size x.data = .next w) :=
  ⟨{ State.reset with tri := { State.reset.tri with cores := [(0, { TriCore.init with st := .run, started := true, queue := [⟨0, 0, 0x20040000, 4, 1, 0⟩] }), (1, { TriCore.init with st := .run, started := true, queue := [⟨0, 0, 0x20040000, 4, 1, 0⟩] }), (2, { TriCore.init with st := .run })] } }, (match (({ State.reset with tri := { State.reset.tri with cores := [(0, { TriCore.init with st := .run, started := true, queue := [⟨0, 0, 0x20040000, 4, 1, 0⟩] }), (1, { TriCore.init with st := .run, started := true, queue := [⟨0, 0, 0x20040000, 4, 1, 0⟩] }), (2, { TriCore.init with st := .run })] } } : State).settle ⟨0, 0, 0x20040000, 4, 1, 0⟩).writeReg 0 .tri 0x20040000 4 1 with | .next w => w | _ => State.reset), 0, 63, ⟨0, 0, 0x20040000, 4, 1, 0⟩, by exact ⟨by decide, rfl⟩⟩
theorem witness_DeviceStores_13 : ∃ (s : State) (t fuel : Nat) (x : DStore), (s.storeVerdict = some (false, x)) :=
  ⟨({ State.reset with tri := { State.reset.tri with cores := [(0, { TriCore.init with st := .excluded, started := true, queue := [⟨0, 0, 0x20040000, 4, 1, 0⟩] }), (1, { TriCore.init with st := .run, started := true, queue := [⟨0, 0, 0x20040000, 4, 9, 0⟩] }), (2, { TriCore.init with st := .run, queue := [⟨0, 0, 0x20040000, 4, 8, 0⟩] })] } }), 0, 63, ⟨0, 0, 0x20040000, 4, 9, 0⟩, by decide⟩
theorem witness_DeviceStores_14 : ∃ (s : State) (t fuel : Nat), (s.storeVerdict = none) :=
  ⟨State.reset, 0, 64, by decide⟩
theorem witness_DeviceStores_15 : ∃ (s : State) (t : Nat) (x : DStore) (v : State), (v = s.at_ t) ∧ ((v.parts.filterMap (fun n => (v.core n).queue.head?)).find? (fun (x : DStore) => x.at_ + v.winTmo ≤ v.localNow) = some x) ∧ ((((v.settle x).inc TRI_DFAIL_CNT).parts.filterMap (fun n => (((v.settle x).inc TRI_DFAIL_CNT).core n).queue.head?)) = []) :=
  ⟨{ ({ State.reset with tri := { State.reset.tri with cores := [(0, { TriCore.init with st := .run, started := true, queue := [⟨0, 0, 0x20040000, 4, 1, 0⟩] }), (1, { TriCore.init with st := .run }), (2, { TriCore.init with st := .run })] } } : State) with time := { State.reset.time with edge := 1000000000 } }, 0, ⟨0, 0, 0x20040000, 4, 1, 0⟩, _, rfl, by decide⟩
theorem witness_DeviceStores_16 : ∃ (s : State) (t : Nat) (core addr size data : Nat) (v : State), (v = s.at_ t) ∧ (core < 3) ∧ ((v.core core).storeStall = some (addr, size, data)) ∧ ((v.core core).st = .run) ∧ ((v.core core).halted = false) ∧ ((v.core core).queue.length < 16) ∧ (((v.setCore core { v.core core with storeStall := none }).enqueueStore core addr size data).storeVerdict = none) :=
  ⟨{ State.reset with tri := { State.reset.tri with cores := [(0, { TriCore.init with st := .run, started := true, storeStall := some (0x20040000, 4, 1) }), (1, { TriCore.init with st := .run }), (2, { TriCore.init with st := .run })] } }, 0, 0, 0x20040000, 4, 1, _, rfl, by decide⟩
theorem witness_DeviceStores_17 : ∃ (s : State) (t : Nat) (core addr size : Nat) (v : State), (v = s.at_ t) ∧ (core < 3) ∧ ((v.core core).storeStall = none) ∧ ((v.core core).readStall = some (addr, size)) ∧ ((v.core core).st = .run) ∧ ((v.core core).halted = false) ∧ ((v.core core).queue = []) ∧ (regionAt addr size = some .mmio) :=
  ⟨{ State.reset with tri := { State.reset.tri with cores := [(0, { TriCore.init with st := .run, started := true, readStall := some (0x20040000, 4) }), (1, { TriCore.init with st := .run }), (2, { TriCore.init with st := .run })] } }, 0, 0, 0x20040000, 4, _, rfl, by decide⟩
theorem witness_ProgramCommands_1 : ∃ (s : State) (t : Nat) (v : State), (v = s.at_ t) ∧ (v.unlocked .boot 0x05 = false) :=
  ⟨State.reset, 0, _, rfl, by decide⟩
theorem witness_ProgramCommands_2 : ∃ (s : State) (t : Nat) (who : Initiator) (v : State), (v = s.at_ t) ∧ (v.acts who = true) ∧ (who ≠ .boot) :=
  ⟨State.reset, 0, .tri, _, rfl, by decide⟩
theorem witness_ProgramCommands_3 : ∃ (s : State) (t : Nat) (v : State), (v = s.at_ t) ∧ (v.unlocked .boot 0x05 = false) :=
  ⟨State.reset, 0, _, rfl, by decide⟩
theorem witness_ProgramCommands_4 : ∃ (s : State) (t : Nat) (who : Initiator) (v : State), (v = s.at_ t) ∧ (v.acts who = true) ∧ (who ≠ .boot) :=
  ⟨State.reset, 0, .tri, _, rfl, by decide⟩
theorem witness_ProgramCommands_5 : ∃ (s : State) (t : Nat) (v : State), (v = s.at_ t) ∧ (v.unlocked .boot 0x05 = false) :=
  ⟨State.reset, 0, _, rfl, by decide⟩
theorem witness_ProgramCommands_6 : ∃ (s : State) (t : Nat) (who : Initiator) (v : State), (v = s.at_ t) ∧ (v.acts who = true) ∧ (who ≠ .boot) :=
  ⟨State.reset, 0, .tri, _, rfl, by decide⟩
theorem witness_ProgramCommands_7 : ∃ (s : State) (t : Nat) (v : State), (v = s.at_ t) ∧ (v.unlocked .boot 0x05 = false) :=
  ⟨State.reset, 0, _, rfl, by decide⟩
theorem witness_ProgramCommands_8 : ∃ (s : State) (t : Nat) (who : Initiator) (v : State), (v = s.at_ t) ∧ (v.acts who = true) ∧ (who ≠ .boot) :=
  ⟨State.reset, 0, .tri, _, rfl, by decide⟩
theorem witness_ProgramCommands_9 : ∃ (s : State) (t : Nat) (v : State), (v = s.at_ t) ∧ (v.unlocked .boot 0x05 = false) :=
  ⟨State.reset, 0, _, rfl, by decide⟩
theorem witness_ProgramCommands_10 : ∃ (s : State) (t : Nat) (who : Initiator) (v : State), (v = s.at_ t) ∧ (v.acts who = true) ∧ (who ≠ .boot) :=
  ⟨State.reset, 0, .tri, _, rfl, by decide⟩
theorem witness_ProgramCommands_11 : ∃ (s : State) (t : Nat) (v : State), (v = s.at_ t) ∧ (v.unlocked .boot 0x05 = false) :=
  ⟨State.reset, 0, _, rfl, by decide⟩
theorem witness_ProgramCommands_12 : ∃ (s : State) (t : Nat) (who : Initiator) (v : State), (v = s.at_ t) ∧ (v.acts who = true) ∧ (who ≠ .boot) :=
  ⟨State.reset, 0, .tri, _, rfl, by decide⟩
theorem witness_ProgramCommands_13 : ∃ (s : State) (t : Nat) (id : BitVec 64) (bindings : List Bind) (v : State), (v = s.at_ t) ∧ (v.unlocked .boot 0x05 = false) :=
  ⟨State.reset, 0, 0, [], _, rfl, by decide⟩
theorem witness_ProgramCommands_14 : ∃ (s : State) (t : Nat) (who : Initiator) (id : BitVec 64) (bindings : List Bind) (v : State), (v = s.at_ t) ∧ (v.acts who = true) ∧ (who ≠ .boot) :=
  ⟨up, 0, .s2, 0, [], _, rfl, by decide⟩
theorem witness_ProgramCommands_15 : ∃ (s : State) (t : Nat) (id : BitVec 64) (bindings : List Bind) (v : State), (v = s.at_ t) ∧ (v.unlocked .boot 0x05 = true) ∧ (v.flag CYC_STAT.ARMED = true ∨ 6 ∈ v.cyc.cmds) :=
  ⟨{ ((State.reset.putFlag CYC_STAT.ARMED true) : State) with regg := { State.reset.regg with unlocks := [(5, ⟨0x05, 0⟩)] } }, 0, 9, [], _, rfl, by decide⟩
theorem witness_ProgramCommands_16 : ∃ (s : State) (t : Nat) (v : State), (v = s.at_ t) ∧ (v.unlocked .boot 0x05 = true) :=
  ⟨{ (State.reset : State) with regg := { State.reset.regg with unlocks := [(5, ⟨0x05, 0⟩)] } }, 0, _, rfl, by decide⟩
theorem witness_ProgramCommands_17 : ∃ (s : State) (t : Nat) (v : State), (v = s.at_ t) ∧ (v.unlocked .boot 0x05 = true) :=
  ⟨{ (State.reset : State) with regg := { State.reset.regg with unlocks := [(5, ⟨0x05, 0⟩)] } }, 0, _, rfl, by decide⟩
theorem witness_ProgramCommands_18 : ∃ (s : State) (t : Nat) (v : State), (v = s.at_ t) ∧ (v.unlocked .boot 0x05 = true) :=
  ⟨{ (State.reset : State) with regg := { State.reset.regg with unlocks := [(5, ⟨0x05, 0⟩)] } }, 0, _, rfl, by decide⟩
theorem witness_ProgramCommands_19 : ∃ (s : State) (t : Nat) (v : State), (v = s.at_ t) ∧ (v.unlocked .boot 0x05 = true) :=
  ⟨{ (State.reset : State) with regg := { State.reset.regg with unlocks := [(5, ⟨0x05, 0⟩)] } }, 0, _, rfl, by decide⟩
theorem witness_ProgramCommands_20 : ∃ (s : State) (t : Nat) (v : State), (v = s.at_ t) ∧ (v.unlocked .boot 0x05 = true) :=
  ⟨{ (State.reset : State) with regg := { State.reset.regg with unlocks := [(5, ⟨0x05, 0⟩)] } }, 0, _, rfl, by decide⟩
theorem witness_ProgramCommands_21 : ∃ (s : State) (t : Nat) (v : State), (v = s.at_ t) ∧ (v.unlocked .boot 0x05 = true) :=
  ⟨{ (State.reset : State) with regg := { State.reset.regg with unlocks := [(5, ⟨0x05, 0⟩)] } }, 0, _, rfl, by decide⟩
theorem witness_ProgramCommands_22 : ∃ (s : State) (t : Nat) (id : BitVec 64) (bindings : List Bind) (v : State), (v = s.at_ t) ∧ (v.unlocked .boot 0x05 = true) ∧ (v.flag CYC_STAT.ARMED = false) ∧ (6 ∉ v.cyc.cmds) :=
  ⟨{ (State.reset : State) with regg := { State.reset.regg with unlocks := [(5, ⟨0x05, 0⟩)] } }, 0, 9, [], _, rfl, by decide⟩
theorem witness_ProgramCommands_23 : ∃ (s : State) (t : Nat) (v : State), (v = s.at_ t) ∧ (v.unlocked .boot 0x05 = false) :=
  ⟨State.reset, 0, _, rfl, by decide⟩
theorem witness_ProgramCommands_24 : ∃ (s : State), (s.get CYC_STAT.PSTATE = 0) ∧ (s.get SYS_STAT.MODE = 1 ∨ s.get SYS_STAT.MODE = 3) :=
  ⟨(State.reset.put SYS_STAT.MODE 3), by decide⟩
theorem witness_ProgramCommands_25 : ∃ (s : State) (code : Nat), (code = 0 ∨ 7 < code ∨ (code = 1 ∧ (s.get CYC_STAT.PSTATE ≠ 0 ∨ (s.get SYS_STAT.MODE ≠ 1 ∧ s.get SYS_STAT.MODE ≠ 3))) ∨ (code = 2 ∧ s.get CYC_STAT.PSTATE ≠ 1) ∨ (code = 3 ∧ (s.get CYC_STAT.PSTATE ≠ 1 ∨ s.get SYS_STAT.MODE ≠ 1 ∨ s.still = false ∨ s.flag CYC_STAT.HOLD_PEND = true)) ∨ (code = 4 ∧ (s.get CYC_STAT.PSTATE ≠ 2 ∨ s.still = false)) ∨ (code = 5 ∧ (s.get CYC_STAT.PSTATE ≠ 2 ∨ s.still = false ∨ s.flag CYC_STAT.STEP_PEND = true)) ∨ (code = 7 ∧ (s.flag CYC_STAT.ARMED = false ∨ (s.flag CYC_STAT.BUSY = true ∧ s.flag CYC_STAT.KIND = true)))) :=
  ⟨State.reset, 5, by decide⟩
theorem witness_ProgramCommands_26 : ∃ (s : State), (s.get CYC_STAT.PSTATE = 1) ∧ (s.get SYS_STAT.MODE = 1) ∧ (s.still = true) ∧ (s.flag CYC_STAT.HOLD_PEND = false) :=
  ⟨((((State.reset.put CYC_STAT.PSTATE 1).put SYS_STAT.MODE 1).put CYC_STILL.KIND 1).put CYC_STILL.POL 1), by decide⟩
theorem witness_ProgramCommands_27 : ∃ (s : State), (s.get CYC_STAT.PSTATE = 2) ∧ (s.still = true) :=
  ⟨(((State.reset.put CYC_STAT.PSTATE 2).put CYC_STILL.KIND 1).put CYC_STILL.POL 1), by decide⟩
theorem witness_ProgramCommands_28 : ∃ (s : State), (s.get CYC_STAT.PSTATE = 2) ∧ (s.still = true) ∧ (s.flag CYC_STAT.STEP_PEND = false) :=
  ⟨(((State.reset.put CYC_STAT.PSTATE 2).put CYC_STILL.KIND 1).put CYC_STILL.POL 1), by decide⟩
theorem witness_ProgramCommands_29 : ∃ (s : State), (s.get CYC_STAT.PSTATE = 1) :=
  ⟨(State.reset.put CYC_STAT.PSTATE 1), by decide⟩
theorem witness_ProgramCommands_30 : ∃ (s : State), (s.flag CYC_STAT.ARMED = true ∨ s.get CYC_GRAFT_BASE_ID.ID ≠ s.get CYC_PROG_ID.ID) :=
  ⟨(State.reset.putFlag CYC_STAT.ARMED true), by decide⟩
theorem witness_ProgramCommands_31 : ∃ (s : State), (s.flag CYC_STAT.ARMED = false) ∧ (s.get CYC_GRAFT_BASE_ID.ID = s.get CYC_PROG_ID.ID) :=
  ⟨State.reset, by decide⟩
theorem witness_ProgramCommands_32 : ∃ (s : State), (s.flag CYC_STAT.ARMED = true) ∧ (s.flag CYC_STAT.BUSY = false ∨ s.flag CYC_STAT.KIND = false) ∧ (s.boot.graftWait = false) :=
  ⟨(State.reset.putFlag CYC_STAT.ARMED true), by decide⟩
theorem witness_ProgramCommands_33 : ∃ (s : State) (res : Nat), (s.boot.graftWait = true) :=
  ⟨{ State.reset with boot := { State.reset.boot with graftWait := true } }, 3, by decide⟩
theorem witness_ProgramCommands_34 : ∃ (s : State), (s.flag CYC_STAT.ARMED = true) ∧ (s.flag CYC_STAT.BUSY = false ∨ s.flag CYC_STAT.KIND = false) :=
  ⟨(State.reset.putFlag CYC_STAT.ARMED true), by decide⟩
theorem witness_CycleEvents_1 : ∃ (s : State) (t : Nat) (src : ImageSrc) (x y z : State) (v : State), (v = s.at_ t) ∧ (v.cyc.publishing = some src) ∧ (x = { v with cyc := { v.cyc with active := 1 - v.cyc.active, publishing := none, last := some src } }) ∧ (y = ((x.put CYC_PUB.BANK (1 - x.get CYC_PUB.BANK)).put CYC_PUB.CYCLE_LO src.cycle).inc CYC_PUB_CNT) ∧ (z = (y.streamFrame 8 0 (y.bytes (pubBuf y.cyc.active) (y.get CYC_IMG.OUT_LEN)) none).gwArrived 4 0) ∧ (z.get CYC_STAT.PSTATE = 0) :=
  ⟨({ (State.reset.put CYC_STAT.PSTATE 0) with cyc := { State.reset.cyc with publishing := some ⟨2, 1, 77⟩ } } : State), 0, ⟨2, 1, 77⟩, ({ ({ (State.reset.put CYC_STAT.PSTATE 0) with cyc := { State.reset.cyc with publishing := some ⟨2, 1, 77⟩ } } : State).at_ 0 with cyc := { (({ (State.reset.put CYC_STAT.PSTATE 0) with cyc := { State.reset.cyc with publishing := some ⟨2, 1, 77⟩ } } : State).at_ 0).cyc with active := 1, publishing := none, last := some ⟨2, 1, 77⟩ } } : State), (((({ ({ (State.reset.put CYC_STAT.PSTATE 0) with cyc := { State.reset.cyc with publishing := some ⟨2, 1, 77⟩ } } : State).at_ 0 with cyc := { (({ (State.reset.put CYC_STAT.PSTATE 0) with cyc := { State.reset.cyc with publishing := some ⟨2, 1, 77⟩ } } : State).at_ 0).cyc with active := 1, publishing := none, last := some ⟨2, 1, 77⟩ } } : State).put CYC_PUB.BANK (1 - ({ ({ (State.reset.put CYC_STAT.PSTATE 0) with cyc := { State.reset.cyc with publishing := some ⟨2, 1, 77⟩ } } : State).at_ 0 with cyc := { (({ (State.reset.put CYC_STAT.PSTATE 0) with cyc := { State.reset.cyc with publishing := some ⟨2, 1, 77⟩ } } : State).at_ 0).cyc with active := 1, publishing := none, last := some ⟨2, 1, 77⟩ } } : State).get CYC_PUB.BANK)).put CYC_PUB.CYCLE_LO 77).inc CYC_PUB_CNT), (((((({ ({ (State.reset.put CYC_STAT.PSTATE 0) with cyc := { State.reset.cyc with publishing := some ⟨2, 1, 77⟩ } } : State).at_ 0 with cyc := { (({ (State.reset.put CYC_STAT.PSTATE 0) with cyc := { State.reset.cyc with publishing := some ⟨2, 1, 77⟩ } } : State).at_ 0).cyc with active := 1, publishing := none, last := some ⟨2, 1, 77⟩ } } : State).put CYC_PUB.BANK (1 - ({ ({ (State.reset.put CYC_STAT.PSTATE 0) with cyc := { State.reset.cyc with publishing := some ⟨2, 1, 77⟩ } } : State).at_ 0 with cyc := { (({ (State.reset.put CYC_STAT.PSTATE 0) with cyc := { State.reset.cyc with publishing := some ⟨2, 1, 77⟩ } } : State).at_ 0).cyc with active := 1, publishing := none, last := some ⟨2, 1, 77⟩ } } : State).get CYC_PUB.BANK)).put CYC_PUB.CYCLE_LO 77).inc CYC_PUB_CNT).streamFrame 8 0 ((((({ ({ (State.reset.put CYC_STAT.PSTATE 0) with cyc := { State.reset.cyc with publishing := some ⟨2, 1, 77⟩ } } : State).at_ 0 with cyc := { (({ (State.reset.put CYC_STAT.PSTATE 0) with cyc := { State.reset.cyc with publishing := some ⟨2, 1, 77⟩ } } : State).at_ 0).cyc with active := 1, publishing := none, last := some ⟨2, 1, 77⟩ } } : State).put CYC_PUB.BANK (1 - ({ ({ (State.reset.put CYC_STAT.PSTATE 0) with cyc := { State.reset.cyc with publishing := some ⟨2, 1, 77⟩ } } : State).at_ 0 with cyc := { (({ (State.reset.put CYC_STAT.PSTATE 0) with cyc := { State.reset.cyc with publishing := some ⟨2, 1, 77⟩ } } : State).at_ 0).cyc with active := 1, publishing := none, last := some ⟨2, 1, 77⟩ } } : State).get CYC_PUB.BANK)).put CYC_PUB.CYCLE_LO 77).inc CYC_PUB_CNT).bytes (pubBuf (((({ ({ (State.reset.put CYC_STAT.PSTATE 0) with cyc := { State.reset.cyc with publishing := some ⟨2, 1, 77⟩ } } : State).at_ 0 with cyc := { (({ (State.reset.put CYC_STAT.PSTATE 0) with cyc := { State.reset.cyc with publishing := some ⟨2, 1, 77⟩ } } : State).at_ 0).cyc with active := 1, publishing := none, last := some ⟨2, 1, 77⟩ } } : State).put CYC_PUB.BANK (1 - ({ ({ (State.reset.put CYC_STAT.PSTATE 0) with cyc := { State.reset.cyc with publishing := some ⟨2, 1, 77⟩ } } : State).at_ 0 with cyc := { (({ (State.reset.put CYC_STAT.PSTATE 0) with cyc := { State.reset.cyc with publishing := some ⟨2, 1, 77⟩ } } : State).at_ 0).cyc with active := 1, publishing := none, last := some ⟨2, 1, 77⟩ } } : State).get CYC_PUB.BANK)).put CYC_PUB.CYCLE_LO 77).inc CYC_PUB_CNT).cyc.active) ((((({ ({ (State.reset.put CYC_STAT.PSTATE 0) with cyc := { State.reset.cyc with publishing := some ⟨2, 1, 77⟩ } } : State).at_ 0 with cyc := { (({ (State.reset.put CYC_STAT.PSTATE 0) with cyc := { State.reset.cyc with publishing := some ⟨2, 1, 77⟩ } } : State).at_ 0).cyc with active := 1, publishing := none, last := some ⟨2, 1, 77⟩ } } : State).put CYC_PUB.BANK (1 - ({ ({ (State.reset.put CYC_STAT.PSTATE 0) with cyc := { State.reset.cyc with publishing := some ⟨2, 1, 77⟩ } } : State).at_ 0 with cyc := { (({ (State.reset.put CYC_STAT.PSTATE 0) with cyc := { State.reset.cyc with publishing := some ⟨2, 1, 77⟩ } } : State).at_ 0).cyc with active := 1, publishing := none, last := some ⟨2, 1, 77⟩ } } : State).get CYC_PUB.BANK)).put CYC_PUB.CYCLE_LO 77).inc CYC_PUB_CNT).get CYC_IMG.OUT_LEN)) none).gwArrived 4 0), _, rfl, by decide⟩
theorem witness_CycleEvents_2 : ∃ (s : State) (t : Nat) (src : ImageSrc) (x y z : State) (v : State), (v = s.at_ t) ∧ (v.cyc.publishing = some src) ∧ (x = { v with cyc := { v.cyc with active := 1 - v.cyc.active, publishing := none, last := some src } }) ∧ (y = ((x.put CYC_PUB.BANK (1 - x.get CYC_PUB.BANK)).put CYC_PUB.CYCLE_LO src.cycle).inc CYC_PUB_CNT) ∧ (z = (y.streamFrame 8 0 (y.bytes (pubBuf y.cyc.active) (y.get CYC_IMG.OUT_LEN)) none).gwArrived 4 0) ∧ (z.get CYC_STAT.PSTATE ≠ 0) :=
  ⟨({ (State.reset.put CYC_STAT.PSTATE 1) with cyc := { State.reset.cyc with publishing := some ⟨2, 1, 77⟩ } } : State), 0, ⟨2, 1, 77⟩, ({ ({ (State.reset.put CYC_STAT.PSTATE 1) with cyc := { State.reset.cyc with publishing := some ⟨2, 1, 77⟩ } } : State).at_ 0 with cyc := { (({ (State.reset.put CYC_STAT.PSTATE 1) with cyc := { State.reset.cyc with publishing := some ⟨2, 1, 77⟩ } } : State).at_ 0).cyc with active := 1, publishing := none, last := some ⟨2, 1, 77⟩ } } : State), (((({ ({ (State.reset.put CYC_STAT.PSTATE 1) with cyc := { State.reset.cyc with publishing := some ⟨2, 1, 77⟩ } } : State).at_ 0 with cyc := { (({ (State.reset.put CYC_STAT.PSTATE 1) with cyc := { State.reset.cyc with publishing := some ⟨2, 1, 77⟩ } } : State).at_ 0).cyc with active := 1, publishing := none, last := some ⟨2, 1, 77⟩ } } : State).put CYC_PUB.BANK (1 - ({ ({ (State.reset.put CYC_STAT.PSTATE 1) with cyc := { State.reset.cyc with publishing := some ⟨2, 1, 77⟩ } } : State).at_ 0 with cyc := { (({ (State.reset.put CYC_STAT.PSTATE 1) with cyc := { State.reset.cyc with publishing := some ⟨2, 1, 77⟩ } } : State).at_ 0).cyc with active := 1, publishing := none, last := some ⟨2, 1, 77⟩ } } : State).get CYC_PUB.BANK)).put CYC_PUB.CYCLE_LO 77).inc CYC_PUB_CNT), (((((({ ({ (State.reset.put CYC_STAT.PSTATE 1) with cyc := { State.reset.cyc with publishing := some ⟨2, 1, 77⟩ } } : State).at_ 0 with cyc := { (({ (State.reset.put CYC_STAT.PSTATE 1) with cyc := { State.reset.cyc with publishing := some ⟨2, 1, 77⟩ } } : State).at_ 0).cyc with active := 1, publishing := none, last := some ⟨2, 1, 77⟩ } } : State).put CYC_PUB.BANK (1 - ({ ({ (State.reset.put CYC_STAT.PSTATE 1) with cyc := { State.reset.cyc with publishing := some ⟨2, 1, 77⟩ } } : State).at_ 0 with cyc := { (({ (State.reset.put CYC_STAT.PSTATE 1) with cyc := { State.reset.cyc with publishing := some ⟨2, 1, 77⟩ } } : State).at_ 0).cyc with active := 1, publishing := none, last := some ⟨2, 1, 77⟩ } } : State).get CYC_PUB.BANK)).put CYC_PUB.CYCLE_LO 77).inc CYC_PUB_CNT).streamFrame 8 0 ((((({ ({ (State.reset.put CYC_STAT.PSTATE 1) with cyc := { State.reset.cyc with publishing := some ⟨2, 1, 77⟩ } } : State).at_ 0 with cyc := { (({ (State.reset.put CYC_STAT.PSTATE 1) with cyc := { State.reset.cyc with publishing := some ⟨2, 1, 77⟩ } } : State).at_ 0).cyc with active := 1, publishing := none, last := some ⟨2, 1, 77⟩ } } : State).put CYC_PUB.BANK (1 - ({ ({ (State.reset.put CYC_STAT.PSTATE 1) with cyc := { State.reset.cyc with publishing := some ⟨2, 1, 77⟩ } } : State).at_ 0 with cyc := { (({ (State.reset.put CYC_STAT.PSTATE 1) with cyc := { State.reset.cyc with publishing := some ⟨2, 1, 77⟩ } } : State).at_ 0).cyc with active := 1, publishing := none, last := some ⟨2, 1, 77⟩ } } : State).get CYC_PUB.BANK)).put CYC_PUB.CYCLE_LO 77).inc CYC_PUB_CNT).bytes (pubBuf (((({ ({ (State.reset.put CYC_STAT.PSTATE 1) with cyc := { State.reset.cyc with publishing := some ⟨2, 1, 77⟩ } } : State).at_ 0 with cyc := { (({ (State.reset.put CYC_STAT.PSTATE 1) with cyc := { State.reset.cyc with publishing := some ⟨2, 1, 77⟩ } } : State).at_ 0).cyc with active := 1, publishing := none, last := some ⟨2, 1, 77⟩ } } : State).put CYC_PUB.BANK (1 - ({ ({ (State.reset.put CYC_STAT.PSTATE 1) with cyc := { State.reset.cyc with publishing := some ⟨2, 1, 77⟩ } } : State).at_ 0 with cyc := { (({ (State.reset.put CYC_STAT.PSTATE 1) with cyc := { State.reset.cyc with publishing := some ⟨2, 1, 77⟩ } } : State).at_ 0).cyc with active := 1, publishing := none, last := some ⟨2, 1, 77⟩ } } : State).get CYC_PUB.BANK)).put CYC_PUB.CYCLE_LO 77).inc CYC_PUB_CNT).cyc.active) ((((({ ({ (State.reset.put CYC_STAT.PSTATE 1) with cyc := { State.reset.cyc with publishing := some ⟨2, 1, 77⟩ } } : State).at_ 0 with cyc := { (({ (State.reset.put CYC_STAT.PSTATE 1) with cyc := { State.reset.cyc with publishing := some ⟨2, 1, 77⟩ } } : State).at_ 0).cyc with active := 1, publishing := none, last := some ⟨2, 1, 77⟩ } } : State).put CYC_PUB.BANK (1 - ({ ({ (State.reset.put CYC_STAT.PSTATE 1) with cyc := { State.reset.cyc with publishing := some ⟨2, 1, 77⟩ } } : State).at_ 0 with cyc := { (({ (State.reset.put CYC_STAT.PSTATE 1) with cyc := { State.reset.cyc with publishing := some ⟨2, 1, 77⟩ } } : State).at_ 0).cyc with active := 1, publishing := none, last := some ⟨2, 1, 77⟩ } } : State).get CYC_PUB.BANK)).put CYC_PUB.CYCLE_LO 77).inc CYC_PUB_CNT).get CYC_IMG.OUT_LEN)) none).gwArrived 4 0), _, rfl, by decide⟩
theorem witness_CycleEvents_3 : ∃ (s : State) (t : Nat) (v : State), (v = s.at_ t) ∧ (v.cyc.publishing = none) :=
  ⟨State.reset, 0, _, rfl, by decide⟩
theorem witness_CycleEvents_4 : ∃ (s : State) (t : Nat) (k : Nat) (v : State), (v = s.at_ t) ∧ (v.cyc.since = some k) ∧ (v.flag CYC_STAT.BUSY = true) ∧ (v.flag CYC_STAT.KIND = false) ∧ (v.flag CYC_STAT.OVERRUN = false) ∧ (atLeast1 (v.get CYC_CFG.DEADLINE) ≤ k) :=
  ⟨{ (State.reset.putFlag CYC_STAT.BUSY true) with cyc := { State.reset.cyc with since := some 4095 } }, 0, 4095, _, rfl, by decide⟩
theorem witness_CycleEvents_5 : ∃ (s : State) (t : Nat) (v : State), (v = s.at_ t) ∧ (v.flag CYC_STAT.BUSY = false ∨ v.flag CYC_STAT.KIND = true ∨ v.flag CYC_STAT.OVERRUN = true ∨ v.cyc.since.getD 0 < atLeast1 (v.get CYC_CFG.DEADLINE)) :=
  ⟨State.reset, 0, _, rfl, by decide⟩
theorem witness_CycleEvents_6 : ∃ (s : State) (t : Nat) (v : State), (v = s.at_ t) ∧ (v.flag CYC_STAT.BUSY = false ∨ v.cyc.since.getD 0 < v.hangTicks) :=
  ⟨State.reset, 0, _, rfl, by decide⟩
theorem witness_CycleEvents_7 : ∃ (s : State) (t : Nat) (k : Nat) (v : State), (v = s.at_ t) ∧ (v.cyc.since = some k) ∧ (v.flag CYC_STAT.BUSY = true) ∧ (min 4096 (max (atLeast1 (v.get CYC_CFG.DEADLINE) + 1) (v.get CYC_CFG.HANG)) ≤ k) :=
  ⟨{ (State.reset.putFlag CYC_STAT.BUSY true) with cyc := { State.reset.cyc with since := some 4096 } }, 0, 4096, _, rfl, by decide⟩
theorem witness_CycleEvents_8 : ∃ (s : State) (t : Nat) (v : State), (v = s.at_ t) ∧ (atLeast1 (v.get DIO_CTRL.SIL_TMO) ≤ v.refreshAge 0) :=
  ⟨{ State.reset with cyc := { State.reset.cyc with refresh := [(0, 65535)] } }, 0, _, rfl, by decide⟩
theorem witness_CycleEvents_9 : ∃ (s : State) (t : Nat) (v : State), (v = s.at_ t) ∧ (v.refreshAge 0 < atLeast1 (v.get DIO_CTRL.SIL_TMO)) :=
  ⟨State.reset, 0, _, rfl, by decide⟩
theorem witness_CycleEvents_10 : ∃ (s : State) (t : Nat) (v : State), (v = s.at_ t) ∧ (atLeast1 (v.get LOOP_CTRL.REF_TMO) ≤ v.refreshAge 1) :=
  ⟨{ State.reset with cyc := { State.reset.cyc with refresh := [(1, 65535)] } }, 0, _, rfl, by decide⟩
theorem witness_CycleEvents_11 : ∃ (s : State) (t : Nat) (v : State), (v = s.at_ t) ∧ (v.refreshAge 1 < atLeast1 (v.get LOOP_CTRL.REF_TMO)) :=
  ⟨State.reset, 0, _, rfl, by decide⟩
theorem witness_CycleEvents_12 : ∃ (s : State) (t : Nat) (v : State), (v = s.at_ t) ∧ (atLeast1 (v.get MOT_CTRL.CMD_TMO) ≤ v.refreshAge 2) :=
  ⟨{ State.reset with cyc := { State.reset.cyc with refresh := [(2, 65535)] } }, 0, _, rfl, by decide⟩
theorem witness_CycleEvents_13 : ∃ (s : State) (t : Nat) (v : State), (v = s.at_ t) ∧ (v.refreshAge 2 < atLeast1 (v.get MOT_CTRL.CMD_TMO)) :=
  ⟨State.reset, 0, _, rfl, by decide⟩
theorem witness_CycleEvents_14 : ∃ (s : State) (t : Nat) (v : State), (v = s.at_ t) ∧ (atLeast1 (v.get TRIP_CTRL.PRG_TMO) ≤ v.refreshAge 3) :=
  ⟨{ State.reset with cyc := { State.reset.cyc with refresh := [(3, 65535)] } }, 0, _, rfl, by decide⟩
theorem witness_CycleEvents_15 : ∃ (s : State) (t : Nat) (v : State), (v = s.at_ t) ∧ (v.refreshAge 3 < atLeast1 (v.get TRIP_CTRL.PRG_TMO)) :=
  ⟨State.reset, 0, _, rfl, by decide⟩
theorem witness_CycleEvents_16 : ∃ (s : State) (t : Nat) (v : State), (v = s.at_ t) :=
  ⟨State.reset, 0, _, rfl⟩
theorem witness_CycleEvents_17 : ∃ (s : State) (t : Nat) (e ch : Nat) (v : State), (v = s.at_ t) ∧ (v.pulseOk e = true) ∧ (ch ∈ v.pulseChans e) ∧ (atLeast1 (v.get DIO_CTRL.SIL_TMO) ≤ SMap.getD v.dio.pulseAge ch 0) :=
  ⟨(let s := ((((((State.reset.putFlag (MOT_PULSE.EN 1) true).put (MOT_PULSE.STEP_CH 1) 4).put (MOT_PULSE.DIR_CH 1) 5).put (DIO_GRP.UN 0) 1).put (DIO_CH_CFG.PERS 4) 2).put (DIO_CH_CFG.PERS 5) 2); { s with dio := { s.dio with pulseAge := [(4, 65535)] } }), 0, 1, 4, _, rfl, by decide⟩
theorem witness_CycleEvents_18 : ∃ (s : State) (t : Nat) (e : Nat) (v : State), (v = s.at_ t) ∧ (v.pulseOk e = false ∨ ∀ ch ∈ v.pulseChans e, SMap.getD v.dio.pulseAge ch 0 < atLeast1 (v.get DIO_CTRL.SIL_TMO)) :=
  ⟨State.reset, 0, 0, _, rfl, by decide⟩
theorem witness_Forces_1 : ∃ (s : State) (t : Nat) (who : Initiator) (entry : BitVec 8) (ctrl : BitVec 32) (v : State), (v = s.at_ t) ∧ (v.acts who = true) ∧ (who ≠ .boot) :=
  ⟨up, 0, .s0, 0, 0, _, rfl, by decide⟩
theorem witness_Forces_2 : ∃ (s : State) (t : Nat) (who : Initiator) (entry : BitVec 8) (ctrl : BitVec 32) (v : State), (v = s.at_ t) ∧ (v.acts who = true) ∧ (who ≠ .boot) :=
  ⟨up, 0, .s0, 0, 0, _, rfl, by decide⟩
theorem witness_Forces_3 : ∃ (s : State) (t : Nat) (who : Initiator) (entry : BitVec 8) (value : BitVec 64) (v : State), (v = s.at_ t) ∧ (v.acts who = true) ∧ (who ≠ .boot) :=
  ⟨up, 0, .s0, 0, 0, _, rfl, by decide⟩
theorem witness_Forces_4 : ∃ (s : State) (t : Nat) (entry : BitVec 8) (ctrl : BitVec 32) (v : State), (v = s.at_ t) ∧ (v.flag (CYC_FORCE.VALID entry.toNat) = true) :=
  ⟨(State.reset.putFlag (CYC_FORCE.VALID 255) true), 0, 255, 0, _, rfl, by decide⟩
theorem witness_Forces_5 : ∃ (s : State) (t : Nat) (entry : BitVec 8) (ctrl : BitVec 32) (v : State), (v = s.at_ t) ∧ (v.flag (CYC_FORCE.VALID entry.toNat) = false) :=
  ⟨State.reset, 0, 255, 0x00014003, _, rfl, by decide⟩
theorem witness_Forces_6 : ∃ (s : State) (t : Nat) (entry : BitVec 8) (ctrl : BitVec 32) (v : State), (v = s.at_ t) ∧ (v.flag (CYC_FORCE.VALID entry.toNat) = true) :=
  ⟨(State.reset.putFlag (CYC_FORCE.VALID 255) true), 0, 255, 0, _, rfl, by decide⟩
theorem witness_Forces_7 : ∃ (s : State) (t : Nat) (entry : BitVec 8) (ctrl : BitVec 32) (v : State), (v = s.at_ t) ∧ (v.flag (CYC_FORCE.VALID entry.toNat) = false) :=
  ⟨State.reset, 0, 255, 0, _, rfl, by decide⟩
theorem witness_Forces_8 : ∃ (s : State) (t : Nat) (entry : BitVec 8) (value : BitVec 64) (v : State), (v = s.at_ t) ∧ (v.flag (CYC_FORCE.VALID entry.toNat) = true) ∧ (v.get (CYC_FORCE.TARGET entry.toNat) = 0) :=
  ⟨(({ State.reset with tri := { State.reset.tri with cores := [(0, { TriCore.init with st := .run }), (1, { TriCore.init with st := .run }), (2, { TriCore.init with st := .run })] } }.putFlag (CYC_FORCE.VALID 255) true).put (CYC_FORCE.MASK 255) 0xFF), 0, 255, 0x55, _, rfl, by decide⟩
theorem witness_Forces_9 : ∃ (s : State) (t : Nat) (entry : BitVec 8) (value : BitVec 64) (v : State), (v = s.at_ t) ∧ (v.flag (CYC_FORCE.VALID entry.toNat) = false ∨ v.get (CYC_FORCE.TARGET entry.toNat) ≠ 0) :=
  ⟨State.reset, 0, 255, 0xFFFFFFFFFFFFFFFF, _, rfl, by decide⟩
theorem witness_Forces_10 : ∃ (s : State) (n token : Nat), (n < 256) ∧ (s.get (CYC_FORCE.MODE n) = 1) ∧ (s.get SYS_STAT.MODE = 1) ∧ (s.get (CYC_FORCE.TARGET n) = 1) ∧ (8 * s.get (CYC_FORCE.WORD n) + 8 ≤ s.get CYC_IMG.OUT_LEN) :=
  ⟨((((State.reset.put (CYC_FORCE.MODE 255) 1).put SYS_STAT.MODE 1).put (CYC_FORCE.TARGET 255) 1).put CYC_IMG.OUT_LEN 8), 255, 0, by decide⟩
theorem witness_Forces_11 : ∃ (s : State) (n token : Nat), (s.get (CYC_FORCE.MODE n) ≠ 1) ∧ (s.get (CYC_FORCE.MODE n) ≠ 2) :=
  ⟨State.reset, 255, 0, by decide⟩
theorem witness_Forces_12 : ∃ (s : State) (n token : Nat), ((s.get (CYC_FORCE.MODE n) = 1 ∧ s.get SYS_STAT.MODE = 1) ∨ (s.get (CYC_FORCE.MODE n) = 2 ∧ s.get SYS_STAT.MODE = 3)) ∧ (8 * s.get (CYC_FORCE.WORD n) + 8 ≤ (if s.get (CYC_FORCE.TARGET n) = 0 then s.get CYC_IMG.IN_LEN else s.get CYC_IMG.OUT_LEN)) :=
  ⟨((((State.reset.put (CYC_FORCE.MODE 255) 2).put SYS_STAT.MODE 3).put (CYC_FORCE.TARGET 255) 0).put CYC_IMG.IN_LEN 8), 255, 9, by decide⟩
theorem witness_Forces_13 : ∃ (s : State) (n token : Nat), ((s.get (CYC_FORCE.MODE n) = 1 ∧ s.get SYS_STAT.MODE ≠ 1) ∨ (s.get (CYC_FORCE.MODE n) = 2 ∧ s.get SYS_STAT.MODE ≠ 3) ∨ (if s.get (CYC_FORCE.TARGET n) = 0 then s.get CYC_IMG.IN_LEN else s.get CYC_IMG.OUT_LEN) < 8 * s.get (CYC_FORCE.WORD n) + 8) :=
  ⟨(State.reset.put (CYC_FORCE.MODE 255) 2), 255, 9, by decide⟩
theorem witness_LaneLinks_1 : ∃ (s : State) (t : Nat) (lane : Nat) (fromDn fcs : Bool) (frame : List Byte) (residence : Nat) (v : State), (v = s.at_ t) ∧ (v.linked lane = 3) ∧ (frameBytes frame 0 3 = [0x03, 0xEE, 0x0A]) ∧ ((laneHdr frame).kind ≠ 5) ∧ ((laneHdr frame).kind ≠ 0) ∧ ((laneHdr frame).kind ≠ 6) :=
  ⟨((State.reset.put (LANE_STAT.LINK_UP 0) 1).put (LANE_STAT.LINK_DN 0) 1), 0, 0, false, false, ([0x03, 0xEE, 0x0A] ++ List.replicate 9 0 ++ [0x88, 0xB5, 0x11] ++ List.replicate 45 0), 7, _, rfl, by decide⟩
theorem witness_LaneLinks_2 : ∃ (s : State) (t : Nat) (lane : Nat) (fromDn fcs : Bool) (frame : List Byte) (residence : Nat) (out : List Byte) (v : State), (v = s.at_ t) ∧ (v.linked lane = 3) ∧ (frameBytes frame 0 3 = [0x03, 0xEE, 0x0A]) ∧ ((laneHdr frame).kind = 0 ∨ (laneHdr frame).kind = 6) ∧ (out = frame.take 38 ++ beBytes 8 (fieldBE frame 38 8 + residence + (if fromDn then v.get (LANE_PDLY.DN lane) else v.get (LANE_PDLY.UP lane)) * 65536) ++ frame.drop 46) :=
  ⟨((State.reset.put (LANE_STAT.LINK_UP 0) 1).put (LANE_STAT.LINK_DN 0) 1), 0, 0, true, true, ([0x03, 0xEE, 0x0A] ++ List.replicate 9 0 ++ [0x88, 0xB5, 0x10] ++ List.replicate 45 0), 7, ((([0x03, 0xEE, 0x0A] ++ List.replicate 9 0 ++ [0x88, 0xB5, 0x10] ++ List.replicate 45 0) : List Byte).take 38 ++ beBytes 8 (7 + 1200 * 65536) ++ (([0x03, 0xEE, 0x0A] ++ List.replicate 9 0 ++ [0x88, 0xB5, 0x10] ++ List.replicate 45 0) : List Byte).drop 46), _, rfl, by decide⟩
theorem witness_LaneLinks_3 : ∃ (s : State) (t : Nat) (lane : Nat) (fromDn fcs : Bool) (frame : List Byte) (residence : Nat) (v : State), (v = s.at_ t) ∧ (v.linked lane = 3) ∧ (frameBytes frame 0 3 = [0x03, 0xEE, 0x0A]) ∧ ((laneHdr frame).kind = 5) :=
  ⟨((State.reset.put (LANE_STAT.LINK_UP 0) 1).put (LANE_STAT.LINK_DN 0) 1), 0, 0, true, true, ([0x03, 0xEE, 0x0A] ++ List.replicate 9 0 ++ [0x88, 0xB5, 0x15] ++ List.replicate 45 0), 7, _, rfl, by decide⟩
theorem witness_LaneLinks_4 : ∃ (s : State) (t : Nat) (lane : Nat) (fromDn fcs : Bool) (frame : List Byte) (residence : Nat) (v : State), (v = s.at_ t) ∧ (v.linked lane ≠ 3 ∨ frameBytes frame 0 3 ≠ [0x03, 0xEE, 0x0A]) :=
  ⟨State.reset, 0, 0, true, true, ([0x03, 0xEE, 0x0A] ++ List.replicate 9 0 ++ [0x88, 0xB5, 0x15] ++ List.replicate 45 0), 7, _, rfl, by decide⟩
theorem witness_LaneLinks_5 : ∃ (s : State) (l dn : Nat) (own : Bool) (bytes : List Byte), (l < 2) ∧ (64 ≤ ((s.port (2 * l + dn)).filter (fun f => f.express && s.localNow < f.start)).length) :=
  ⟨{ State.reset with lanes := { State.reset.lanes with ports := [(3, List.replicate 64 ⟨5, 9, true, false, []⟩)] } }, 1, 1, true, [], by decide⟩
theorem witness_LaneLinks_6 : ∃ (s : State) (l dn : Nat) (bytes : List Byte), (s.port (2 * l + dn) = []) :=
  ⟨State.reset, 1, 1, [], by decide⟩
theorem witness_LaneLinks_7 : ∃ (s : State) (t : Nat) (lane dn : Nat) (v : State), (v = s.at_ t) ∧ (lane < 2) ∧ (dn < 2) :=
  ⟨State.reset, 0, 1, 1, _, rfl, by decide⟩
theorem witness_LaneLinks_8 : ∃ (s : State) (t : Nat) (lane dn : Nat) (v : State), (v = s.at_ t) ∧ (lane < 2) ∧ (dn < 2) :=
  ⟨State.reset, 0, 1, 1, _, rfl, by decide⟩
theorem witness_LaneLinks_9 : ∃ (s : State) (l : Nat), (s.laneState l = 0) ∧ (s.laneWanted l = true) :=
  ⟨(((((((State.reset.put (LANE_STAT.LINK_UP 0) 1).put (LANE_STAT.LINK_DN 0) 1).putFlag LANE_CTRL.EN_A true).put CLK_STAT.REF 1).put CLK_STAT.BYPASS 0).put LANE_CFG.NODE 9)), 0, by decide⟩
theorem witness_LaneLinks_10 : ∃ (s : State) (l : Nat), (s.laneState l ≠ 0) ∧ (s.laneWanted l = false) :=
  ⟨(State.reset.put (LANE_STAT.STATE 0) 4), 0, by decide⟩
theorem witness_LaneLinks_11 : ∃ (s : State) (l : Nat), (s.laneState l = 0 ↔ s.laneWanted l = false) :=
  ⟨State.reset, 0, by decide⟩
theorem witness_LaneLinks_12 : ∃ (s : State) (t : Nat) (lane dn : Nat) (v : State), (v = s.at_ t) ∧ (lane < 2) ∧ (dn < 2) ∧ (v.get (linkFld lane dn) ≠ 0) ∧ (((v.setLn lane { v.ln lane with verified := setBit (v.ln lane).verified dn true, failed := setBit (v.ln lane).failed dn false }).showPreempt lane).laneState lane ≠ 5 ∨ ((v.setLn lane { v.ln lane with verified := setBit (v.ln lane).verified dn true, failed := setBit (v.ln lane).failed dn false }).showPreempt lane).get (LANE_STAT.FAULT lane) ≠ 4 ∨ ((v.setLn lane { v.ln lane with verified := setBit (v.ln lane).verified dn true, failed := setBit (v.ln lane).failed dn false }).showPreempt lane).flag (LANE_STAT.PREEMPT lane) = false) :=
  ⟨((State.reset.put (LANE_STAT.LINK_UP 0) 1).put (LANE_STAT.LINK_DN 0) 1), 0, 0, 1, _, rfl, by decide⟩
theorem witness_LaneLinks_13 : ∃ (s : State) (t : Nat) (lane dn : Nat) (v : State), (v = s.at_ t) ∧ (lane < 2) ∧ (dn < 2) ∧ (v.get (linkFld lane dn) ≠ 0) ∧ (((v.setLn lane { v.ln lane with verified := setBit (v.ln lane).verified dn true, failed := setBit (v.ln lane).failed dn false }).showPreempt lane).laneState lane = 5) ∧ (((v.setLn lane { v.ln lane with verified := setBit (v.ln lane).verified dn true, failed := setBit (v.ln lane).failed dn false }).showPreempt lane).get (LANE_STAT.FAULT lane) = 4) ∧ (((v.setLn lane { v.ln lane with verified := setBit (v.ln lane).verified dn true, failed := setBit (v.ln lane).failed dn false }).showPreempt lane).flag (LANE_STAT.PREEMPT lane) = true) :=
  ⟨{ (((((State.reset.put (LANE_STAT.LINK_UP 0) 1).put (LANE_STAT.LINK_DN 0) 1).put (LANE_STAT.STATE 0) 5).put (LANE_STAT.FAULT 0) 4) : State) with lanes := { State.reset.lanes with lane := [(0, { LaneSt.init with verified := 1 })] } }, 0, 0, 1, _, rfl, by decide⟩
theorem witness_LaneLinks_14 : ∃ (s : State) (t : Nat) (lane dn : Nat) (v : State), (v = s.at_ t) ∧ (lane < 2) ∧ (dn < 2) ∧ (v.get (linkFld lane dn) ≠ 0) ∧ (((v.setLn lane { v.ln lane with verified := setBit (v.ln lane).verified dn false, failed := setBit (v.ln lane).failed dn true }).showPreempt lane).laneState lane ≠ 0) ∧ (((v.setLn lane { v.ln lane with verified := setBit (v.ln lane).verified dn false, failed := setBit (v.ln lane).failed dn true }).showPreempt lane).laneState lane ≠ 5 ∨ ((v.setLn lane { v.ln lane with verified := setBit (v.ln lane).verified dn false, failed := setBit (v.ln lane).failed dn true }).showPreempt lane).get (LANE_STAT.FAULT lane) ≠ 4) :=
  ⟨(((State.reset.put (LANE_STAT.LINK_UP 0) 1).put (LANE_STAT.LINK_DN 0) 1).put (LANE_STAT.STATE 0) 4), 0, 0, 1, _, rfl, by decide⟩
theorem witness_LaneLinks_15 : ∃ (s : State) (t : Nat) (lane dn : Nat) (v : State), (v = s.at_ t) ∧ (lane < 2) ∧ (dn < 2) ∧ (v.get (linkFld lane dn) ≠ 0) ∧ (((v.setLn lane { v.ln lane with verified := setBit (v.ln lane).verified dn false, failed := setBit (v.ln lane).failed dn true }).showPreempt lane).laneState lane = 0 ∨ (((v.setLn lane { v.ln lane with verified := setBit (v.ln lane).verified dn false, failed := setBit (v.ln lane).failed dn true }).showPreempt lane).laneState lane = 5 ∧ ((v.setLn lane { v.ln lane with verified := setBit (v.ln lane).verified dn false, failed := setBit (v.ln lane).failed dn true }).showPreempt lane).get (LANE_STAT.FAULT lane) = 4)) :=
  ⟨((State.reset.put (LANE_STAT.LINK_UP 0) 1).put (LANE_STAT.LINK_DN 0) 1), 0, 0, 1, _, rfl, by decide⟩
theorem witness_LaneLinks_16 : ∃ (s : State) (t : Nat) (lane dn : Nat) (ok : Bool) (v : State), (v = s.at_ t) ∧ (v.get (linkFld lane dn) = 0) :=
  ⟨State.reset, 0, 0, 1, true, _, rfl, by decide⟩
theorem witness_LaneLinks_17 : ∃ (s : State) (t : Nat) (lane dn : Nat) (frame : List Byte) (fcs : Bool) (turn : Nat) (v : State), (v = s.at_ t) ∧ (lane < 2) ∧ (v.laneTakes lane = true) ∧ ((v.laneFormat lane frame fcs).2 = true) ∧ ((laneHdr frame).kind = 7) ∧ (v.isDup lane (laneHdr frame) = false) :=
  ⟨(State.reset.put (LANE_STAT.STATE 0) 4), 0, 0, 1, (List.replicate 12 0 ++ [0x88, 0xB5, 0x17, 0x00, 0x00, 0, 0, 0, 0, 0xFF, 0xFF, 0x05, 0x00, 0x00, 0x00, 0x00, 0x00, 0x00] ++ List.replicate 46 0), true, 9, _, rfl, by decide⟩
theorem witness_LaneLinks_18 : ∃ (s : State) (t : Nat) (lane dn : Nat) (frame : List Byte) (fcs : Bool) (turn : Nat) (v : State), (v = s.at_ t) ∧ (lane < 2) ∧ (v.laneTakes lane = true) ∧ ((v.laneFormat lane frame fcs).2 = true) ∧ ((laneHdr frame).kind = 7) ∧ (v.isDup lane (laneHdr frame) = true) :=
  ⟨(State.reset.put (LANE_STAT.STATE 0) 4), 0, 0, 1, (List.replicate 12 0 ++ [0x88, 0xB5, 0x17, 0x00, 0x00, 0, 0, 0, 0, 0xFF, 0xFF, 0x00, 0x00, 0x00, 0x00, 0x00, 0x00, 0x00] ++ List.replicate 46 0), true, 9, _, rfl, by decide⟩
theorem witness_LaneLinks_19 : ∃ (s : State) (t : Nat) (lane dn t1 t4 : Nat) (frame : List Byte) (fcs : Bool) (d : Int) (ds : List Nat) (v : State), (v = s.at_ t) ∧ (lane < 2) ∧ (v.laneTakes lane = true) ∧ ((v.laneFormat lane frame fcs).2 = true) ∧ (dn < 2) ∧ ((laneHdr frame).kind = 8) ∧ (v.isDup lane (laneHdr frame) = false) ∧ (d = (((t4 : Int) - t1) - (fieldBE frame 30 8 / 65536 : Nat)) / 2) ∧ (ds = (d.toNat :: SMap.getD v.lanes.pdelay (2 * lane + dn) []).take 8) :=
  ⟨(State.reset.put (LANE_STAT.STATE 0) 4), 0, 0, 1, 100, 1100, (List.replicate 12 0 ++ [0x88, 0xB5, 0x18, 0x00, 0x00, 0, 0, 0, 0, 0xFF, 0xFF, 0x05, 0x00, 0x00, 0x00, 0x00, 0x00, 0x00] ++ List.replicate 46 0), true, 500, [500], _, rfl, by decide⟩
theorem witness_LaneLinks_20 : ∃ (s : State) (t : Nat) (lane dn t1 t4 : Nat) (frame : List Byte) (fcs : Bool) (v : State), (v = s.at_ t) ∧ (lane < 2) ∧ (v.laneTakes lane = true) ∧ ((v.laneFormat lane frame fcs).2 = true) ∧ ((laneHdr frame).kind = 8) ∧ (v.isDup lane (laneHdr frame) = true) :=
  ⟨(State.reset.put (LANE_STAT.STATE 0) 4), 0, 0, 1, 100, 1100, (List.replicate 12 0 ++ [0x88, 0xB5, 0x18, 0x00, 0x00, 0, 0, 0, 0, 0xFF, 0xFF, 0x00, 0x00, 0x00, 0x00, 0x00, 0x00, 0x00] ++ List.replicate 46 0), true, _, rfl, by decide⟩
theorem witness_LaneStates_1 : ∃ (s : State) (t : Nat) (lane dn : Nat) (frame : List Byte) (fcs : Bool) (x : State) (v : State), (v = s.at_ t) ∧ (lane < 2) ∧ (v.laneTakes lane = true) ∧ ((v.laneFormat lane frame fcs).2 = true) ∧ ((laneHdr frame).kind = 0) ∧ (v.isDup lane (laneHdr frame) = false) ∧ (x = (v.obey (laneHdr frame).claim).1.laneClaim (laneHdr frame).claim) ∧ (x.laneState lane = 1 ∨ x.laneState lane = 2) :=
  ⟨(State.reset.put (LANE_STAT.STATE 0) 2), 0, 0, 1, (List.replicate 12 0 ++ [0x88, 0xB5, 0x10, 0x00, 0x00, 0, 0, 0, 0, 0xFF, 0xFF, 0x05, 0x00, 0x00, 0x00, 0x00, 0x00, 0x00] ++ List.replicate 46 0), true, (((State.reset.put (LANE_STAT.STATE 0) 2) : State).at_ 0).laneClaim 0, _, rfl, by decide⟩
theorem witness_LaneStates_2 : ∃ (s : State) (t : Nat) (lane dn : Nat) (frame : List Byte) (fcs : Bool) (x : State) (v : State), (v = s.at_ t) ∧ (lane < 2) ∧ (v.laneTakes lane = true) ∧ ((v.laneFormat lane frame fcs).2 = true) ∧ ((laneHdr frame).kind = 0) ∧ (v.isDup lane (laneHdr frame) = false) ∧ (x = (v.obey (laneHdr frame).claim).1.laneClaim (laneHdr frame).claim) ∧ (x.laneState lane = 3) :=
  ⟨(State.reset.put (LANE_STAT.STATE 0) 3), 0, 0, 1, (List.replicate 12 0 ++ [0x88, 0xB5, 0x10, 0x00, 0x00, 0, 0, 0, 0, 0xFF, 0xFF, 0x05, 0x00, 0x00, 0x00, 0x00, 0x00, 0x00] ++ List.replicate 46 0), true, (((State.reset.put (LANE_STAT.STATE 0) 3) : State).at_ 0).laneClaim 0, _, rfl, by decide⟩
theorem witness_LaneStates_3 : ∃ (s : State) (t : Nat) (lane dn : Nat) (frame : List Byte) (fcs : Bool) (x : State) (v : State), (v = s.at_ t) ∧ (lane < 2) ∧ (v.laneTakes lane = true) ∧ ((v.laneFormat lane frame fcs).2 = true) ∧ ((laneHdr frame).kind = 0) ∧ (v.isDup lane (laneHdr frame) = false) ∧ (x = (v.obey (laneHdr frame).claim).1.laneClaim (laneHdr frame).claim) ∧ (x.laneState lane = 4) :=
  ⟨(State.reset.put (LANE_STAT.STATE 0) 4), 0, 0, 1, (List.replicate 12 0 ++ [0x88, 0xB5, 0x10, 0x00, 0x00, 0, 0, 0, 0, 0xFF, 0xFF, 0x05, 0x00, 0x00, 0x00, 0x00, 0x00, 0x00] ++ List.replicate 46 0), true, (((State.reset.put (LANE_STAT.STATE 0) 4) : State).at_ 0).laneClaim 0, _, rfl, by decide⟩
theorem witness_LaneStates_4 : ∃ (s : State) (t : Nat) (lane dn : Nat) (frame : List Byte) (fcs : Bool) (v : State), (v = s.at_ t) ∧ (lane < 2) ∧ (v.laneTakes lane = true) ∧ ((v.laneFormat lane frame fcs).2 = true) ∧ ((laneHdr frame).kind = 0) ∧ (v.isDup lane (laneHdr frame) = true) :=
  ⟨(State.reset.put (LANE_STAT.STATE 0) 4), 0, 0, 1, (List.replicate 12 0 ++ [0x88, 0xB5, 0x10, 0x00, 0x00, 0, 0, 0, 0, 0xFF, 0xFF, 0x00, 0x00, 0x00, 0x00, 0x00, 0x00, 0x00] ++ List.replicate 46 0), true, _, rfl, by decide⟩
theorem witness_LaneStates_5 : ∃ (s : State) (t : Nat) (lane dn : Nat) (frame : List Byte) (fcs : Bool) (v : State), (v = s.at_ t) ∧ (lane < 2) ∧ (v.laneTakes lane = true) ∧ ((v.laneFormat lane frame fcs).2 = true) ∧ ((laneHdr frame).kind = 6) ∧ (v.isDup lane (laneHdr frame) = false) ∧ (v.laneState lane = 1 ∨ v.laneState lane = 2) ∧ ((laneHdr frame).sender < v.node) :=
  ⟨((State.reset.put (LANE_STAT.STATE 0) 1).put LANE_CFG.NODE 9), 0, 0, 1, (List.replicate 12 0 ++ [0x88, 0xB5, 0x16, 0x00, 0x00, 0, 0, 0, 0, 0xFF, 0xFF, 0x05, 0x00, 0x00, 0x00, 0x00, 0x00, 0x00] ++ List.replicate 46 0), true, _, rfl, by decide⟩
theorem witness_LaneStates_6 : ∃ (s : State) (t : Nat) (lane dn : Nat) (frame : List Byte) (fcs : Bool) (v : State), (v = s.at_ t) ∧ (lane < 2) ∧ (v.laneTakes lane = true) ∧ ((v.laneFormat lane frame fcs).2 = true) ∧ ((laneHdr frame).kind = 6) ∧ (v.isDup lane (laneHdr frame) = false) ∧ (v.laneState lane = 3) :=
  ⟨((State.reset.put (LANE_STAT.STATE 0) 3).put LANE_CFG.NODE 9), 0, 0, 1, (List.replicate 12 0 ++ [0x88, 0xB5, 0x16, 0x00, 0x00, 0, 0, 0, 0, 0xFF, 0xFF, 0x05, 0x00, 0x00, 0x00, 0x00, 0x00, 0x00] ++ List.replicate 46 0), true, _, rfl, by decide⟩
theorem witness_LaneStates_7 : ∃ (s : State) (t : Nat) (lane dn : Nat) (frame : List Byte) (fcs : Bool) (v : State), (v = s.at_ t) ∧ (lane < 2) ∧ (v.laneTakes lane = true) ∧ ((v.laneFormat lane frame fcs).2 = true) ∧ ((laneHdr frame).kind = 6) ∧ (v.isDup lane (laneHdr frame) = false) ∧ (v.laneState lane = 1) ∧ (v.node ≤ (laneHdr frame).sender) ∧ ((v.ln lane).cold = none) :=
  ⟨((State.reset.put (LANE_STAT.STATE 0) 1).put LANE_CFG.NODE 3), 0, 0, 1, (List.replicate 12 0 ++ [0x88, 0xB5, 0x16, 0x00, 0x00, 0, 0, 0, 0, 0xFF, 0xFF, 0x05, 0x00, 0x00, 0x00, 0x00, 0x00, 0x00] ++ List.replicate 46 0), true, _, rfl, by decide⟩
theorem witness_LaneStates_8 : ∃ (s : State) (t : Nat) (lane dn : Nat) (frame : List Byte) (fcs : Bool) (v : State), (v = s.at_ t) ∧ (lane < 2) ∧ (v.laneTakes lane = true) ∧ ((v.laneFormat lane frame fcs).2 = true) ∧ ((laneHdr frame).kind = 6) ∧ (v.isDup lane (laneHdr frame) = false) ∧ ((v.laneState lane = 1 ∧ v.node ≤ (laneHdr frame).sender ∧ (v.ln lane).cold ≠ none) ∨ (v.laneState lane = 2 ∧ v.node ≤ (laneHdr frame).sender) ∨ v.laneState lane = 4) :=
  ⟨((State.reset.put (LANE_STAT.STATE 0) 4).put LANE_CFG.NODE 3), 0, 0, 1, (List.replicate 12 0 ++ [0x88, 0xB5, 0x16, 0x00, 0x00, 0, 0, 0, 0, 0xFF, 0xFF, 0x05, 0x00, 0x00, 0x00, 0x00, 0x00, 0x00] ++ List.replicate 46 0), true, _, rfl, by decide⟩
theorem witness_LaneStates_9 : ∃ (s : State) (t : Nat) (lane dn : Nat) (frame : List Byte) (fcs : Bool) (v : State), (v = s.at_ t) ∧ (lane < 2) ∧ (v.laneTakes lane = true) ∧ ((v.laneFormat lane frame fcs).2 = true) ∧ ((laneHdr frame).kind = 6) ∧ (v.isDup lane (laneHdr frame) = true) :=
  ⟨((State.reset.put (LANE_STAT.STATE 0) 4).put LANE_CFG.NODE 5), 0, 0, 1, (List.replicate 12 0 ++ [0x88, 0xB5, 0x16, 0x00, 0x00, 0, 0, 0, 0, 0xFF, 0xFF, 0x05, 0x00, 0x00, 0x00, 0x00, 0x00, 0x00] ++ List.replicate 46 0), true, _, rfl, by decide⟩
theorem witness_LaneStates_10 : ∃ (s : State) (t : Nat) (lane : Nat) (v : State), (v = s.at_ t) ∧ (v.laneState lane = 1) ∧ (128 ≤ (v.ln lane).listen) ∧ ((v.ln lane).wait = none) :=
  ⟨{ ((State.reset.put (LANE_STAT.STATE 0) 1) : State) with lanes := { State.reset.lanes with lane := [(0, { LaneSt.init with listen := 128 })] } }, 0, 0, _, rfl, by decide⟩
theorem witness_LaneStates_11 : ∃ (s : State) (t : Nat) (lane : Nat) (v : State), (v = s.at_ t) ∧ (v.laneState lane ≠ 1 ∨ (v.ln lane).listen < 128 ∨ (v.ln lane).wait ≠ none) :=
  ⟨State.reset, 0, 0, _, rfl, by decide⟩
theorem witness_LaneStates_12 : ∃ (s : State) (t : Nat) (lane : Nat) (v : State), (v = s.at_ t) ∧ (lane < 2) ∧ (v.laneState lane = 2) ∧ (4 ≤ (v.ln lane).contest) ∧ (v.laneSynced (1 - lane) = false) :=
  ⟨{ ((State.reset.put (LANE_STAT.STATE 0) 2) : State) with lanes := { State.reset.lanes with lane := [(0, { LaneSt.init with contest := 4 })] } }, 0, 0, _, rfl, by decide⟩
theorem witness_LaneStates_13 : ∃ (s : State) (t : Nat) (lane : Nat) (v : State), (v = s.at_ t) ∧ (lane < 2) ∧ (v.laneState lane = 2) ∧ (4 ≤ (v.ln lane).contest) ∧ (v.laneSynced (1 - lane) = true) :=
  ⟨{ (((State.reset.put (LANE_STAT.STATE 0) 2).put (LANE_STAT.STATE 1) 4) : State) with lanes := { State.reset.lanes with lane := [(0, { LaneSt.init with contest := 4 })] } }, 0, 0, _, rfl, by decide⟩
theorem witness_LaneStates_14 : ∃ (s : State) (t : Nat) (lane : Nat) (v : State), (v = s.at_ t) ∧ (v.laneState lane ≠ 2 ∨ (v.ln lane).contest < 4) :=
  ⟨State.reset, 0, 0, _, rfl, by decide⟩
theorem witness_LaneStates_15 : ∃ (s : State) (t : Nat) (lane : Nat) (v : State), (v = s.at_ t) ∧ (v.laneSynced lane = true) ∧ (v.flag (LANE_STAT.MASTER lane) = false) ∧ (64 ≤ (v.ln lane).noSync) :=
  ⟨{ ((State.reset.put (LANE_STAT.STATE 0) 4) : State) with lanes := { State.reset.lanes with lane := [(0, { LaneSt.init with noSync := 64 })] } }, 0, 0, _, rfl, by decide⟩
theorem witness_LaneStates_16 : ∃ (s : State) (t : Nat) (lane : Nat) (v : State), (v = s.at_ t) ∧ (v.laneSynced lane = false ∨ v.flag (LANE_STAT.MASTER lane) = true ∨ (v.ln lane).noSync < 64) :=
  ⟨State.reset, 0, 0, _, rfl, by decide⟩
theorem witness_LaneStates_17 : ∃ (s : State) (t : Nat) (lane : Nat) (v : State), (v = s.at_ t) ∧ (v.laneSynced lane = true) ∧ (v.flag (LANE_STAT.MASTER lane) = false) ∧ (2 ≤ (v.ln lane).noSync) ∧ ((v.present lane).all (fun n => n == v.get (LANE_STAT.MASTER_ID lane) || v.node ≤ n) = true) :=
  ⟨{ (((State.reset.put (LANE_STAT.STATE 0) 4).put (LANE_NODE.PRESENT 5) 1) : State) with lanes := { State.reset.lanes with lane := [(0, { LaneSt.init with noSync := 2 })] } }, 0, 0, _, rfl, by decide⟩
theorem witness_LaneStates_18 : ∃ (s : State) (t : Nat) (lane : Nat) (v : State), (v = s.at_ t) ∧ (v.laneSynced lane = false ∨ v.flag (LANE_STAT.MASTER lane) = true ∨ (v.ln lane).noSync < 2 ∨ (v.present lane).all (fun n => n == v.get (LANE_STAT.MASTER_ID lane) || v.node ≤ n) = false) :=
  ⟨State.reset, 0, 0, _, rfl, by decide⟩
theorem witness_LaneStates_19 : ∃ (s : State) (t : Nat) (v : State), (v = s.at_ t) ∧ (v.flag TIME_STAT.LANE_SYNC = true) ∧ (v.flag TIME_STAT.LANE_FW = false) ∧ (∀ l, l < 2 → v.laneSynced l = true → v.flag (LANE_STAT.MASTER l) = false ∧ 1 ≤ (v.ln l).noSync) :=
  ⟨{ (((State.reset.put (LANE_STAT.STATE 0) 4).put TIME_STAT.LANE_SYNC 1) : State) with lanes := { State.reset.lanes with lane := [(0, { LaneSt.init with noSync := 1 })] } }, 0, _, rfl, by decide⟩
theorem witness_LaneStates_20 : ∃ (s : State) (t : Nat) (l : Nat) (v : State), (v = s.at_ t) ∧ (v.flag TIME_STAT.LANE_SYNC = false ∨ v.flag TIME_STAT.LANE_FW = true ∨ (l < 2 ∧ v.laneSynced l = true ∧ (v.flag (LANE_STAT.MASTER l) = true ∨ (v.ln l).noSync = 0))) :=
  ⟨State.reset, 0, 0, _, rfl, by decide⟩
theorem witness_LaneStates_21 : ∃ (s : State) (l st : Nat), (l < 2) ∧ (st < 8) :=
  ⟨State.reset, 1, 4, by decide⟩
theorem witness_LaneStates_22 : ∃ (s : State) (l : Nat) (h : LHdr) (v : Int), (∀ v0 l0, (s.ln l).cand = some (h.sender, v0, l0) → 1000 < gap (v - v0) ((s.localNow : Int) - l0)) :=
  ⟨State.reset, 0, laneHdr (List.replicate 12 0 ++ [0x88, 0xB5, 0x10, 0x00, 0x00, 0, 0, 0, 0, 0xFF, 0xFF, 0x05, 0x00, 0x00, 0x00, 0x00, 0x00, 0x00] ++ List.replicate 46 0), 7, by exact fun v0 l0 h => by cases (show (none : Option (Nat × Int × Nat)) = some _ from h)⟩
theorem witness_LaneStates_23 : ∃ (s : State) (l : Nat) (h : LHdr) (v : Int) (v0 : Int) (l0 : Nat), ((s.ln l).cand = some (h.sender, v0, l0)) ∧ (gap (v - v0) ((s.localNow : Int) - l0) ≤ 1000) ∧ (s.bankOf l h.cid = none) :=
  ⟨{ (State.reset : State) with lanes := { State.reset.lanes with lane := [(0, { LaneSt.init with cand := some (5, 7, 0) })] } }, 0, laneHdr (List.replicate 12 0 ++ [0x88, 0xB5, 0x10, 0x00, 0x4D, 0, 0, 0, 0, 0xFF, 0xFF, 0x05, 0x00, 0x00, 0x00, 0x00, 0x00, 0x00] ++ List.replicate 46 0), 7, 7, 0, by decide⟩
theorem witness_LaneData_1 : ∃ (s : State) (t : Nat) (lane : Nat) (dn : Nat) (frame : List Byte) (fcs : Bool) (v : State), (v = s.at_ t) ∧ (v.laneTakes lane = false) :=
  ⟨State.reset, 0, 1, 1, [], true, _, rfl, by decide⟩
theorem witness_LaneData_2 : ∃ (s : State) (t : Nat) (lane : Nat) (dn : Nat) (frame : List Byte) (v : State), (v = s.at_ t) ∧ (lane < 2) ∧ (v.laneTakes lane = true) :=
  ⟨(State.reset.put (LANE_STAT.STATE 1) 3), 0, 1, 1, [], _, rfl, by decide⟩
theorem witness_LaneData_3 : ∃ (s : State) (t : Nat) (lane : Nat) (dn : Nat) (frame : List Byte) (v : State), (v = s.at_ t) ∧ (lane < 2) ∧ (v.laneTakes lane = true) ∧ ((v.laneFormat lane frame true).2 = false) :=
  ⟨(State.reset.put (LANE_STAT.STATE 1) 3), 0, 1, 1, [], _, rfl, by decide⟩
theorem witness_LaneData_4 : ∃ (s : State) (t : Nat) (lane : Nat) (dn : Nat) (frame : List Byte) (v : State), (v = s.at_ t) ∧ (v.laneTakes lane = true) ∧ ((v.laneFormat lane frame true).2 = true) ∧ ((laneHdr frame).kind ≠ 0) :=
  ⟨(State.reset.put (LANE_STAT.STATE 1) 3), 0, 1, 1, (List.replicate 12 0 ++ [0x88, 0xB5, 0x15, 0x00, 0x00, 0, 0, 0, 0, 0xFF, 0xFF, 0x07, 0x00, 0x00, 0x00, 0x00, 0x00, 0x00] ++ List.replicate 46 0), _, rfl, by decide⟩
theorem witness_LaneData_5 : ∃ (s : State) (t : Nat) (lane : Nat) (dn : Nat) (frame : List Byte) (fcs : Bool) (v : State), (v = s.at_ t) ∧ (v.laneTakes lane = false) :=
  ⟨State.reset, 0, 1, 1, [], true, _, rfl, by decide⟩
theorem witness_LaneData_6 : ∃ (s : State) (t : Nat) (lane : Nat) (dn : Nat) (frame : List Byte) (v : State), (v = s.at_ t) ∧ (lane < 2) ∧ (v.laneTakes lane = true) :=
  ⟨(State.reset.put (LANE_STAT.STATE 1) 3), 0, 1, 1, [], _, rfl, by decide⟩
theorem witness_LaneData_7 : ∃ (s : State) (t : Nat) (lane : Nat) (dn : Nat) (frame : List Byte) (v : State), (v = s.at_ t) ∧ (lane < 2) ∧ (v.laneTakes lane = true) ∧ ((v.laneFormat lane frame true).2 = false) :=
  ⟨(State.reset.put (LANE_STAT.STATE 1) 3), 0, 1, 1, [], _, rfl, by decide⟩
theorem witness_LaneData_8 : ∃ (s : State) (t : Nat) (lane : Nat) (dn : Nat) (frame : List Byte) (v : State), (v = s.at_ t) ∧ (v.laneTakes lane = true) ∧ ((v.laneFormat lane frame true).2 = true) ∧ ((laneHdr frame).kind ≠ 6) :=
  ⟨(State.reset.put (LANE_STAT.STATE 1) 3), 0, 1, 1, (List.replicate 12 0 ++ [0x88, 0xB5, 0x15, 0x00, 0x00, 0, 0, 0, 0, 0xFF, 0xFF, 0x07, 0x00, 0x00, 0x00, 0x00, 0x00, 0x00] ++ List.replicate 46 0), _, rfl, by decide⟩
theorem witness_LaneData_9 : ∃ (s : State) (t : Nat) (lane : Nat) (dn : Nat) (frame : List Byte) (fcs : Bool) (turn : Nat) (v : State), (v = s.at_ t) ∧ (v.laneTakes lane = false) :=
  ⟨State.reset, 0, 1, 1, [], true, 0, _, rfl, by decide⟩
theorem witness_LaneData_10 : ∃ (s : State) (t : Nat) (lane : Nat) (dn : Nat) (frame : List Byte) (turn : Nat) (v : State), (v = s.at_ t) ∧ (lane < 2) ∧ (v.laneTakes lane = true) :=
  ⟨(State.reset.put (LANE_STAT.STATE 1) 3), 0, 1, 1, [], 0, _, rfl, by decide⟩
theorem witness_LaneData_11 : ∃ (s : State) (t : Nat) (lane : Nat) (dn : Nat) (frame : List Byte) (turn : Nat) (v : State), (v = s.at_ t) ∧ (lane < 2) ∧ (v.laneTakes lane = true) ∧ ((v.laneFormat lane frame true).2 = false) :=
  ⟨(State.reset.put (LANE_STAT.STATE 1) 3), 0, 1, 1, [], 0, _, rfl, by decide⟩
theorem witness_LaneData_12 : ∃ (s : State) (t : Nat) (lane : Nat) (dn : Nat) (frame : List Byte) (turn : Nat) (v : State), (v = s.at_ t) ∧ (v.laneTakes lane = true) ∧ ((v.laneFormat lane frame true).2 = true) ∧ ((laneHdr frame).kind ≠ 7) :=
  ⟨(State.reset.put (LANE_STAT.STATE 1) 3), 0, 1, 1, (List.replicate 12 0 ++ [0x88, 0xB5, 0x15, 0x00, 0x00, 0, 0, 0, 0, 0xFF, 0xFF, 0x07, 0x00, 0x00, 0x00, 0x00, 0x00, 0x00] ++ List.replicate 46 0), 0, _, rfl, by decide⟩
theorem witness_LaneData_13 : ∃ (s : State) (t : Nat) (lane : Nat) (dn t1 t4 : Nat) (frame : List Byte) (fcs : Bool) (v : State), (v = s.at_ t) ∧ (v.laneTakes lane = false) :=
  ⟨State.reset, 0, 1, 1, 1, 1, [], true, _, rfl, by decide⟩
theorem witness_LaneData_14 : ∃ (s : State) (t : Nat) (lane : Nat) (dn t1 t4 : Nat) (frame : List Byte) (v : State), (v = s.at_ t) ∧ (lane < 2) ∧ (v.laneTakes lane = true) :=
  ⟨(State.reset.put (LANE_STAT.STATE 1) 3), 0, 1, 1, 1, 1, [], _, rfl, by decide⟩
theorem witness_LaneData_15 : ∃ (s : State) (t : Nat) (lane : Nat) (dn t1 t4 : Nat) (frame : List Byte) (v : State), (v = s.at_ t) ∧ (lane < 2) ∧ (v.laneTakes lane = true) ∧ ((v.laneFormat lane frame true).2 = false) :=
  ⟨(State.reset.put (LANE_STAT.STATE 1) 3), 0, 1, 1, 1, 1, [], _, rfl, by decide⟩
theorem witness_LaneData_16 : ∃ (s : State) (t : Nat) (lane : Nat) (dn t1 t4 : Nat) (frame : List Byte) (v : State), (v = s.at_ t) ∧ (v.laneTakes lane = true) ∧ ((v.laneFormat lane frame true).2 = true) ∧ ((laneHdr frame).kind ≠ 8) :=
  ⟨(State.reset.put (LANE_STAT.STATE 1) 3), 0, 1, 1, 1, 1, (List.replicate 12 0 ++ [0x88, 0xB5, 0x15, 0x00, 0x00, 0, 0, 0, 0, 0xFF, 0xFF, 0x07, 0x00, 0x00, 0x00, 0x00, 0x00, 0x00] ++ List.replicate 46 0), _, rfl, by decide⟩
theorem witness_LaneData_17 : ∃ (s : State) (t : Nat) (lane : Nat) (frame : List Byte) (fcs : Bool) (v : State), (v = s.at_ t) ∧ (v.laneTakes lane = false) :=
  ⟨State.reset, 0, 1, [], true, _, rfl, by decide⟩
theorem witness_LaneData_18 : ∃ (s : State) (t : Nat) (lane : Nat) (frame : List Byte) (v : State), (v = s.at_ t) ∧ (lane < 2) ∧ (v.laneTakes lane = true) :=
  ⟨(State.reset.put (LANE_STAT.STATE 1) 3), 0, 1, [], _, rfl, by decide⟩
theorem witness_LaneData_19 : ∃ (s : State) (t : Nat) (lane : Nat) (frame : List Byte) (v : State), (v = s.at_ t) ∧ (lane < 2) ∧ (v.laneTakes lane = true) ∧ ((v.laneFormat lane frame true).2 = false) :=
  ⟨(State.reset.put (LANE_STAT.STATE 1) 3), 0, 1, [], _, rfl, by decide⟩
theorem witness_LaneData_20 : ∃ (s : State) (t : Nat) (lane : Nat) (frame : List Byte) (v : State), (v = s.at_ t) ∧ (v.laneTakes lane = true) ∧ ((v.laneFormat lane frame true).2 = true) ∧ ((laneHdr frame).kind ≠ 4) :=
  ⟨(State.reset.put (LANE_STAT.STATE 1) 3), 0, 1, (List.replicate 12 0 ++ [0x88, 0xB5, 0x15, 0x00, 0x00, 0, 0, 0, 0, 0xFF, 0xFF, 0x07, 0x00, 0x00, 0x00, 0x00, 0x00, 0x00] ++ List.replicate 46 0), _, rfl, by decide⟩
theorem witness_LaneData_21 : ∃ (s : State) (t : Nat) (lane : Nat) (frame : List Byte) (fcs : Bool) (v : State), (v = s.at_ t) ∧ (v.laneTakes lane = false) :=
  ⟨State.reset, 0, 1, [], true, _, rfl, by decide⟩
theorem witness_LaneData_22 : ∃ (s : State) (t : Nat) (lane : Nat) (frame : List Byte) (v : State), (v = s.at_ t) ∧ (lane < 2) ∧ (v.laneTakes lane = true) :=
  ⟨(State.reset.put (LANE_STAT.STATE 1) 3), 0, 1, [], _, rfl, by decide⟩
theorem witness_LaneData_23 : ∃ (s : State) (t : Nat) (lane : Nat) (frame : List Byte) (v : State), (v = s.at_ t) ∧ (lane < 2) ∧ (v.laneTakes lane = true) ∧ ((v.laneFormat lane frame true).2 = false) :=
  ⟨(State.reset.put (LANE_STAT.STATE 1) 3), 0, 1, [], _, rfl, by decide⟩
theorem witness_LaneData_24 : ∃ (s : State) (t : Nat) (lane : Nat) (frame : List Byte) (v : State), (v = s.at_ t) ∧ (v.laneTakes lane = true) ∧ ((v.laneFormat lane frame true).2 = true) ∧ ((laneHdr frame).kind ≠ 1) :=
  ⟨(State.reset.put (LANE_STAT.STATE 1) 3), 0, 1, (List.replicate 12 0 ++ [0x88, 0xB5, 0x15, 0x00, 0x00, 0, 0, 0, 0, 0xFF, 0xFF, 0x07, 0x00, 0x00, 0x00, 0x00, 0x00, 0x00] ++ List.replicate 46 0), _, rfl, by decide⟩
theorem witness_LaneData_25 : ∃ (s : State) (t : Nat) (lane : Nat) (frame : List Byte) (fcs : Bool) (v : State), (v = s.at_ t) ∧ (v.laneTakes lane = false) :=
  ⟨State.reset, 0, 1, [], true, _, rfl, by decide⟩
theorem witness_LaneData_26 : ∃ (s : State) (t : Nat) (lane : Nat) (frame : List Byte) (v : State), (v = s.at_ t) ∧ (lane < 2) ∧ (v.laneTakes lane = true) :=
  ⟨(State.reset.put (LANE_STAT.STATE 1) 3), 0, 1, [], _, rfl, by decide⟩
theorem witness_LaneData_27 : ∃ (s : State) (t : Nat) (lane : Nat) (frame : List Byte) (v : State), (v = s.at_ t) ∧ (lane < 2) ∧ (v.laneTakes lane = true) ∧ ((v.laneFormat lane frame true).2 = false) :=
  ⟨(State.reset.put (LANE_STAT.STATE 1) 3), 0, 1, [], _, rfl, by decide⟩
theorem witness_LaneData_28 : ∃ (s : State) (t : Nat) (lane : Nat) (frame : List Byte) (v : State), (v = s.at_ t) ∧ (v.laneTakes lane = true) ∧ ((v.laneFormat lane frame true).2 = true) ∧ ((laneHdr frame).kind ≠ 3) :=
  ⟨(State.reset.put (LANE_STAT.STATE 1) 3), 0, 1, (List.replicate 12 0 ++ [0x88, 0xB5, 0x15, 0x00, 0x00, 0, 0, 0, 0, 0xFF, 0xFF, 0x07, 0x00, 0x00, 0x00, 0x00, 0x00, 0x00] ++ List.replicate 46 0), _, rfl, by decide⟩
theorem witness_LaneData_29 : ∃ (s : State) (t : Nat) (lane : Nat) (frame : List Byte) (fcs : Bool) (v : State), (v = s.at_ t) ∧ (lane < 2) ∧ (v.laneTakes lane = true) ∧ ((v.laneFormat lane frame fcs).2 = true) ∧ ((laneHdr frame).kind = 4) ∧ (v.isDup lane (laneHdr frame) = true) :=
  ⟨(State.reset.put (LANE_STAT.STATE 0) 4), 0, 0, (List.replicate 12 0 ++ [0x88, 0xB5, 0x14, 0x00, 0x00, 0, 0, 0, 0, 0xFF, 0xFF, 0x00, 0x00, 0x00, 0x00, 0x00, 0x00, 0x00] ++ List.replicate 46 0), true, _, rfl, by decide⟩
theorem witness_LaneData_30 : ∃ (s : State) (t : Nat) (lane : Nat) (frame : List Byte) (fcs : Bool) (v : State), (v = s.at_ t) ∧ (lane < 2) ∧ (v.laneTakes lane = true) ∧ ((v.laneFormat lane frame fcs).2 = true) ∧ ((laneHdr frame).kind = 1) ∧ (v.isDup lane (laneHdr frame) = true) :=
  ⟨(State.reset.put (LANE_STAT.STATE 0) 4), 0, 0, (List.replicate 12 0 ++ [0x88, 0xB5, 0x11, 0x00, 0x00, 0, 0, 0, 0, 0xFF, 0xFF, 0x00, 0x00, 0x00, 0x00, 0x00, 0x00, 0x00] ++ List.replicate 46 0), true, _, rfl, by decide⟩
theorem witness_LaneData_31 : ∃ (s : State) (t : Nat) (lane : Nat) (frame : List Byte) (fcs : Bool) (v : State), (v = s.at_ t) ∧ (lane < 2) ∧ (v.laneTakes lane = true) ∧ ((v.laneFormat lane frame fcs).2 = true) ∧ ((laneHdr frame).kind = 3) ∧ (v.isDup lane (laneHdr frame) = true) :=
  ⟨(State.reset.put (LANE_STAT.STATE 0) 4), 0, 0, (List.replicate 12 0 ++ [0x88, 0xB5, 0x13, 0x00, 0x00, 0, 0, 0, 0, 0xFF, 0xFF, 0x00, 0x00, 0x00, 0x00, 0x00, 0x00, 0x00] ++ List.replicate 46 0), true, _, rfl, by decide⟩
theorem witness_LaneData_32 : ∃ (s : State) (t : Nat) (lane : Nat) (frame : List Byte) (fcs : Bool) (v : State), (v = s.at_ t) ∧ (lane < 2) ∧ (v.laneTakes lane = true) ∧ ((v.laneFormat lane frame fcs).2 = true) ∧ ((laneHdr frame).kind = 4) ∧ (v.isDup lane (laneHdr frame) = false) ∧ ((laneHdr frame).cid ≠ v.laneCid lane) ∧ (v.laneSynced lane = true) :=
  ⟨(State.reset.put (LANE_STAT.STATE 0) 4).put LANE_CFG.NODE 3, 0, 0, (List.replicate 12 0 ++ [0x88, 0xB5, 0x14, 0x00, 0x09, 0, 0, 0, 0, 0xFF, 0xFF, 0xFD, 0x00, 0x00, 0x00, 0x00, 0x00, 0x00] ++ List.replicate 46 0), true, _, rfl, by decide⟩
theorem witness_LaneData_33 : ∃ (s : State) (t : Nat) (lane : Nat) (frame : List Byte) (fcs mine : Bool) (x y z q : State) (v : State), (v = s.at_ t) ∧ (lane < 2) ∧ (v.laneTakes lane = true) ∧ ((v.laneFormat lane frame fcs).2 = true) ∧ ((laneHdr frame).kind = 4) ∧ (v.isDup lane (laneHdr frame) = false) ∧ ((laneHdr frame).cid = v.laneCid lane ∨ v.laneSynced lane = false) ∧ (x = (v.obey (laneHdr frame).claim).1.laneClaim (laneHdr frame).claim) ∧ (y = (((x.put (LANE_NODE.STATE (256 * lane + (laneHdr frame).sender)) (fieldBE frame 31 1)).put (LANE_NODE.VER (256 * lane + (laneHdr frame).sender)) (fieldBE frame 30 1)).put (LANE_NODE.RESTART (256 * lane + (laneHdr frame).sender)) (fieldBE frame 32 2)).put (LANE_NODE.ANN (256 * lane + (laneHdr frame).sender)) (if (fieldBE frame 40 1) = 3 then 3 else if (fieldBE frame 40 1) = 0 then 0 else 1)) ∧ (mine = ((y.lanes.mode.op == 1 || y.lanes.mode.op == 2) && (fieldBE frame 36 4) == y.lanes.mode.m && (fieldBE frame 34 2) == y.lanes.mode.cid)) ∧ (z = (y.setLn lane { y.ln lane with seen := SMap.set (y.ln lane).seen (laneHdr frame).sender (if mine && (fieldBE frame 40 1) == y.lanes.mode.op then 1 else if mine && (fieldBE frame 40 1) == 3 then 3 else 0) }).nodeRestart (laneHdr frame).sender (fieldBE frame 32 2)) ∧ (q = if z.present lane = [] then z else z.negotiate lane) ∧ ((laneHdr frame).sender = q.get (LANE_STAT.MASTER_ID lane)) ∧ ((fieldBE frame 30 1) % 16 > q.get LANE_VER.OWN_MAX ∨ (fieldBE frame 30 1) / 16 < q.get LANE_VER.OWN_MIN) :=
  ⟨(((State.reset.put (LANE_STAT.STATE 0) 4).put LANE_CFG.NODE 3).put (LANE_STAT.MASTER_ID 0) 253), 0, 0, (List.replicate 12 0 ++ [0x88, 0xB5, 0x14, 0x00, 0x00, 0, 0, 0, 0, 0xFF, 0xFF, 0xFD, 0x00, 0x00, 0x00, 0x00, 0x00, 0x00] ++ [0, 4, 0, 7] ++ List.replicate 46 0), true, _, _, _, _, _, _, rfl, by decide, by decide, by decide, by decide, by decide, by decide, rfl, rfl, rfl, rfl, rfl, by decide, by decide⟩
theorem witness_LaneData_34 : ∃ (s : State) (t : Nat) (lane : Nat) (frame : List Byte) (fcs mine : Bool) (x y z q : State) (v : State), (v = s.at_ t) ∧ (lane < 2) ∧ (v.laneTakes lane = true) ∧ ((v.laneFormat lane frame fcs).2 = true) ∧ ((laneHdr frame).kind = 4) ∧ (v.isDup lane (laneHdr frame) = false) ∧ ((laneHdr frame).cid = v.laneCid lane ∨ v.laneSynced lane = false) ∧ (x = (v.obey (laneHdr frame).claim).1.laneClaim (laneHdr frame).claim) ∧ (y = (((x.put (LANE_NODE.STATE (256 * lane + (laneHdr frame).sender)) (fieldBE frame 31 1)).put (LANE_NODE.VER (256 * lane + (laneHdr frame).sender)) (fieldBE frame 30 1)).put (LANE_NODE.RESTART (256 * lane + (laneHdr frame).sender)) (fieldBE frame 32 2)).put (LANE_NODE.ANN (256 * lane + (laneHdr frame).sender)) (if (fieldBE frame 40 1) = 3 then 3 else if (fieldBE frame 40 1) = 0 then 0 else 1)) ∧ (mine = ((y.lanes.mode.op == 1 || y.lanes.mode.op == 2) && (fieldBE frame 36 4) == y.lanes.mode.m && (fieldBE frame 34 2) == y.lanes.mode.cid)) ∧ (z = (y.setLn lane { y.ln lane with seen := SMap.set (y.ln lane).seen (laneHdr frame).sender (if mine && (fieldBE frame 40 1) == y.lanes.mode.op then 1 else if mine && (fieldBE frame 40 1) == 3 then 3 else 0) }).nodeRestart (laneHdr frame).sender (fieldBE frame 32 2)) ∧ (q = if z.present lane = [] then z else z.negotiate lane) ∧ (¬ ((laneHdr frame).sender = q.get (LANE_STAT.MASTER_ID lane) ∧ ((fieldBE frame 30 1) % 16 > q.get LANE_VER.OWN_MAX ∨ (fieldBE frame 30 1) / 16 < q.get LANE_VER.OWN_MIN))) :=
  ⟨((State.reset.put (LANE_STAT.STATE 0) 4).put LANE_CFG.NODE 3), 0, 0, (List.replicate 12 0 ++ [0x88, 0xB5, 0x14, 0x00, 0x00, 0, 0, 0, 0, 0xFF, 0xFF, 0xFD, 0x00, 0x00, 0x00, 0x00, 0x00, 0x00] ++ [0x11, 4, 0, 7] ++ List.replicate 46 0), true, _, _, _, _, _, _, rfl, by decide, by decide, by decide, by decide, by decide, by decide, rfl, rfl, rfl, rfl, rfl, by decide⟩
theorem witness_LaneData_35 : ∃ (s : State) (t : Nat) (lane k : Nat) (frame : List Byte) (fcs : Bool) (v : State), (v = s.at_ t) ∧ (lane < 2) ∧ (v.laneTakes lane = true) ∧ ((v.laneFormat lane frame fcs).2 = true) ∧ ((laneHdr frame).kind = 4) ∧ (v.isDup lane (laneHdr frame) = false) ∧ ((laneHdr frame).claim = 0) ∧ ((laneHdr frame).cid = v.laneCid lane) ∧ (k = 256 * lane + (laneHdr frame).sender) ∧ (v.isPair lane (laneHdr frame).sender = false) ∧ ((laneHdr frame).sender ≠ v.get (LANE_STAT.MASTER_ID lane)) ∧ (v.get LANE_CFG.COORD = 0) :=
  ⟨(((State.reset.put (LANE_STAT.STATE 0) 4).put LANE_CFG.COORD 0).put LANE_CFG.NODE 3), 0, 0, 253, (List.replicate 12 0 ++ [0x88, 0xB5, 0x14, 0x00, 0x00, 0, 0, 0, 0, 0xFF, 0xFF, 0xFD, 0x00, 0x00, 0x00, 0x00, 0x00, 0x00] ++ [0x11, 4, 0, 7] ++ List.replicate 46 0), true, _, rfl, by decide⟩
theorem witness_LaneData_36 : ∃ (s : State) (t : Nat) (lane : Nat) (frame : List Byte) (fcs : Bool) (v : State), (v = s.at_ t) ∧ (lane < 2) ∧ (v.laneTakes lane = true) ∧ ((v.laneFormat lane frame fcs).2 = true) ∧ ((laneHdr frame).kind = 1) ∧ (v.isDup lane (laneHdr frame) = false) ∧ ((laneHdr frame).cid ≠ v.laneCid lane) :=
  ⟨{ ((((((State.reset.put (LANE_STAT.STATE 0) 4).put LANE_CFG.NODE 3).store (cadAddr 0 0 9) 4 0x20280000).store (cadAddr 0 0 9 + 4) 4 0x01FF0008).store (cadAddr 0 0 9 + 8) 4 0x0000000A) : State) with lanes := { State.reset.lanes with tick := 3 } }, 0, 0, (List.replicate 12 0 ++ [0x88, 0xB5, 0x11, 0x00, 0x07, 0, 0, 0, 0, 0x00, 0x09, 0x05, 0x00, 0x00, 0x00, 0x00, 0x00, 0x00] ++ List.replicate 46 0), true, _, rfl, by decide⟩
theorem witness_LaneData_37 : ∃ (s : State) (t : Nat) (lane : Nat) (frame : List Byte) (fcs : Bool) (w0 : Nat) (v : State), (v = s.at_ t) ∧ (lane < 2) ∧ (v.laneTakes lane = true) ∧ ((v.laneFormat lane frame fcs).2 = true) ∧ ((laneHdr frame).kind = 1) ∧ (v.isDup lane (laneHdr frame) = false) ∧ ((laneHdr frame).cid = v.laneCid lane) ∧ (w0 = v.cadWord (v.get (LANE_STAT.BANK lane)) lane (laneHdr frame).slot 0) ∧ (4096 ≤ (laneHdr frame).slot ∨ bitsOf w0 28 3 ≠ 2 ∨ v.senderOk lane (bitsOf w0 19 8) (laneHdr frame).sender = false ∨ v.lanes.tick % (2 ^ 32 * 64) < (entryTick (laneHdr frame) w0) ∨ (entryTick (laneHdr frame) w0) + 64 ≤ v.lanes.tick % (2 ^ 32 * 64)) :=
  ⟨{ ((((((State.reset.put (LANE_STAT.STATE 0) 4).put LANE_CFG.NODE 3).store (cadAddr 0 0 9) 4 0x20280000).store (cadAddr 0 0 9 + 4) 4 0x01FF0008).store (cadAddr 0 0 9 + 8) 4 0x0000000A) : State) with lanes := { State.reset.lanes with tick := 3 } }, 0, 0, (List.replicate 12 0 ++ [0x88, 0xB5, 0x11, 0x00, 0x00, 0, 0, 0, 0, 0x00, 0x09, 0x06, 0x00, 0x00, 0x00, 0x00, 0x00, 0x00] ++ List.replicate 46 0), true, 0x20280000, _, rfl, by decide⟩
theorem witness_LaneData_38 : ∃ (s : State) (t : Nat) (lane : Nat) (frame : List Byte) (fcs : Bool) (v : State), (v = s.at_ t) ∧ (lane < 2) ∧ (v.laneTakes lane = true) ∧ ((v.laneFormat lane frame fcs).2 = true) ∧ ((laneHdr frame).kind = 3) ∧ (v.isDup lane (laneHdr frame) = false) ∧ ((laneHdr frame).cid ≠ v.laneCid lane) :=
  ⟨{ ((((((State.reset.put (LANE_STAT.STATE 0) 4).put LANE_CFG.NODE 3).store (cadAddr 0 0 9) 4 0x40280000).store (cadAddr 0 0 9 + 4) 4 0x00000000).store (cadAddr 0 0 9 + 8) 4 0x00000000) : State) with lanes := { State.reset.lanes with tick := 3 } }, 0, 0, (List.replicate 12 0 ++ [0x88, 0xB5, 0x13, 0x00, 0x07, 0, 0, 0, 0, 0x00, 0x09, 0x05, 0x00, 0x00, 0x00, 0x00, 0x00, 0x00] ++ List.replicate 46 0), true, _, rfl, by decide⟩
theorem witness_LaneData_39 : ∃ (s : State) (t : Nat) (lane : Nat) (frame : List Byte) (fcs : Bool) (w0 : Nat) (v : State), (v = s.at_ t) ∧ (lane < 2) ∧ (v.laneTakes lane = true) ∧ ((v.laneFormat lane frame fcs).2 = true) ∧ ((laneHdr frame).kind = 3) ∧ (v.isDup lane (laneHdr frame) = false) ∧ ((laneHdr frame).cid = v.laneCid lane) ∧ (w0 = v.cadWord (v.get (LANE_STAT.BANK lane)) lane (laneHdr frame).slot 0) ∧ (4096 ≤ (laneHdr frame).slot ∨ bitsOf w0 28 3 ≠ 4 ∨ v.senderOk lane (bitsOf w0 19 8) (laneHdr frame).sender = false ∨ v.lanes.tick % (2 ^ 32 * 64) < (entryTick (laneHdr frame) w0) ∨ (entryTick (laneHdr frame) w0) + 64 ≤ v.lanes.tick % (2 ^ 32 * 64)) :=
  ⟨{ ((((((State.reset.put (LANE_STAT.STATE 0) 4).put LANE_CFG.NODE 3).store (cadAddr 0 0 9) 4 0x40280000).store (cadAddr 0 0 9 + 4) 4 0x00000000).store (cadAddr 0 0 9 + 8) 4 0x00000000) : State) with lanes := { State.reset.lanes with tick := 3 } }, 0, 0, (List.replicate 12 0 ++ [0x88, 0xB5, 0x13, 0x00, 0x00, 0, 0, 0, 0, 0x00, 0x09, 0x06, 0x00, 0x00, 0x00, 0x00, 0x00, 0x00] ++ List.replicate 46 0), true, 0x40280000, _, rfl, by decide⟩
theorem witness_LaneData_40 : ∃ (s : State) (t : Nat) (lane behind : Nat) (frame : List Byte) (fcs : Bool) (w0 w1 w2 : Nat) (v : State), (v = s.at_ t) ∧ (lane < 2) ∧ (v.laneTakes lane = true) ∧ ((v.laneFormat lane frame fcs).2 = true) ∧ ((laneHdr frame).kind = 1) ∧ (v.isDup lane (laneHdr frame) = false) ∧ ((v.admitFrame lane (laneHdr frame) 2).2 = some behind) ∧ (w0 = v.cadWord (v.get (LANE_STAT.BANK lane)) lane (laneHdr frame).slot 0) ∧ (w1 = v.cadWord (v.get (LANE_STAT.BANK lane)) lane (laneHdr frame).slot 1) ∧ (w2 = v.cadWord (v.get (LANE_STAT.BANK lane)) lane (laneHdr frame).slot 2) ∧ (bitOf w0 31 = true) ∧ (v.copyTaken (bitsOf w1 16 16 % 512) (entryTick (laneHdr frame) w0) = true) :=
  ⟨{ ((((((State.reset.put (LANE_STAT.STATE 0) 4).put LANE_CFG.NODE 3).store (cadAddr 0 0 9) 4 0xA0280000).store (cadAddr 0 0 9 + 4) 4 0x01FF0008).store (cadAddr 0 0 9 + 8) 4 0x0000000A) : State) with lanes := { State.reset.lanes with tick := 3, taken := [(511, [0])] } }, 0, 0, 3, (List.replicate 12 0 ++ [0x88, 0xB5, 0x11, 0x00, 0x00, 0, 0, 0, 0, 0x00, 0x09, 0x05, 0x00, 0x00, 0x00, 0x00, 0x00, 0x00] ++ List.replicate 46 0), true, 0xa0280000, 0x1ff0008, 10, _, rfl, by decide⟩
theorem witness_LaneData_41 : ∃ (s : State) (t : Nat) (lane behind : Nat) (frame : List Byte) (fcs : Bool) (w0 w1 w2 : Nat) (v : State), (v = s.at_ t) ∧ (lane < 2) ∧ (v.laneTakes lane = true) ∧ ((v.laneFormat lane frame fcs).2 = true) ∧ ((laneHdr frame).kind = 1) ∧ (v.isDup lane (laneHdr frame) = false) ∧ ((v.admitFrame lane (laneHdr frame) 2).2 = some behind) ∧ (w0 = v.cadWord (v.get (LANE_STAT.BANK lane)) lane (laneHdr frame).slot 0) ∧ (w1 = v.cadWord (v.get (LANE_STAT.BANK lane)) lane (laneHdr frame).slot 1) ∧ (w2 = v.cadWord (v.get (LANE_STAT.BANK lane)) lane (laneHdr frame).slot 2) ∧ (bitOf w0 31 = false ∨ v.copyTaken (bitsOf w1 16 16 % 512) (entryTick (laneHdr frame) w0) = false) :=
  ⟨{ ((((((State.reset.put (LANE_STAT.STATE 0) 4).put LANE_CFG.NODE 3).store (cadAddr 0 0 9) 4 0x20280000).store (cadAddr 0 0 9 + 4) 4 0x01FF0008).store (cadAddr 0 0 9 + 8) 4 0x0000000A) : State) with lanes := { State.reset.lanes with tick := 3 } }, 0, 0, 3, (List.replicate 12 0 ++ [0x88, 0xB5, 0x11, 0x00, 0x00, 0, 0, 0, 0, 0x00, 0x09, 0x05, 0x00, 0x00, 0x00, 0x00, 0x00, 0xC8] ++ List.replicate 46 0), true, 0x20280000, 0x1ff0008, 10, _, rfl, by decide⟩
theorem witness_LaneData_42 : ∃ (s : State) (t : Nat) (lane m behind : Nat) (frame : List Byte) (fcs : Bool) (w0 w1 w2 : Nat) (v : State), (v = s.at_ t) ∧ (lane < 2) ∧ (v.laneTakes lane = true) ∧ ((v.laneFormat lane frame fcs).2 = true) ∧ ((laneHdr frame).kind = 1) ∧ (v.isDup lane (laneHdr frame) = false) ∧ ((v.admitFrame lane (laneHdr frame) 2).2 = some behind) ∧ (w0 = v.cadWord (v.get (LANE_STAT.BANK lane)) lane (laneHdr frame).slot 0) ∧ (w1 = v.cadWord (v.get (LANE_STAT.BANK lane)) lane (laneHdr frame).slot 1) ∧ (w2 = v.cadWord (v.get (LANE_STAT.BANK lane)) lane (laneHdr frame).slot 2) ∧ (bitOf w0 31 = false ∨ v.copyTaken (bitsOf w1 16 16 % 512) (entryTick (laneHdr frame) w0) = false) ∧ ((laneHdr frame).claim = 0) ∧ (m = bitsOf w1 16 16 % 512) ∧ (v.gwEntries = []) :=
  ⟨{ ((((((State.reset.put (LANE_STAT.STATE 0) 4).put LANE_CFG.NODE 3).store (cadAddr 0 0 9) 4 0x20280000).store (cadAddr 0 0 9 + 4) 4 0x01FF0008).store (cadAddr 0 0 9 + 8) 4 0x0000000A) : State) with lanes := { State.reset.lanes with tick := 3 } }, 0, 0, 511, 3, (List.replicate 12 0 ++ [0x88, 0xB5, 0x11, 0x00, 0x00, 0, 0, 0, 0, 0x00, 0x09, 0x05, 0x00, 0x00, 0x00, 0x00, 0x00, 0xC8] ++ List.replicate 46 0), true, 0x20280000, 0x1ff0008, 10, _, rfl, by decide⟩
theorem witness_LaneData_43 : ∃ (s : State) (t : Nat) (lane behind : Nat) (frame : List Byte) (fcs : Bool) (w0 : Nat) (v : State), (v = s.at_ t) ∧ (lane < 2) ∧ (v.laneTakes lane = true) ∧ ((v.laneFormat lane frame fcs).2 = true) ∧ ((laneHdr frame).kind = 3) ∧ (v.isDup lane (laneHdr frame) = false) ∧ ((v.admitFrame lane (laneHdr frame) 4).2 = some behind) ∧ (w0 = v.cadWord (v.get (LANE_STAT.BANK lane)) lane (laneHdr frame).slot 0) ∧ (bitOf w0 31 = true) ∧ (v.copyTaken (512 + (laneHdr frame).sender) (entryTick (laneHdr frame) w0) = true) :=
  ⟨{ ((((((State.reset.put (LANE_STAT.STATE 0) 4).put LANE_CFG.NODE 3).store (cadAddr 0 0 9) 4 0xC0280000).store (cadAddr 0 0 9 + 4) 4 0x00000000).store (cadAddr 0 0 9 + 8) 4 0x00000000) : State) with lanes := { State.reset.lanes with tick := 3, taken := [(517, [0])] } }, 0, 0, 3, (List.replicate 12 0 ++ [0x88, 0xB5, 0x13, 0x00, 0x00, 0, 0, 0, 0, 0x00, 0x09, 0x05, 0x00, 0x00, 0x00, 0x00, 0x00, 0x00] ++ List.replicate 46 0), true, 0xc0280000, _, rfl, by decide⟩
theorem witness_LaneData_44 : ∃ (s : State) (t : Nat) (lane behind : Nat) (frame : List Byte) (fcs : Bool) (w0 : Nat) (v : State), (v = s.at_ t) ∧ (lane < 2) ∧ (v.laneTakes lane = true) ∧ ((v.laneFormat lane frame fcs).2 = true) ∧ ((laneHdr frame).kind = 3) ∧ (v.isDup lane (laneHdr frame) = false) ∧ ((v.admitFrame lane (laneHdr frame) 4).2 = some behind) ∧ (w0 = v.cadWord (v.get (LANE_STAT.BANK lane)) lane (laneHdr frame).slot 0) ∧ (bitOf w0 31 = false ∨ v.copyTaken (512 + (laneHdr frame).sender) (entryTick (laneHdr frame) w0) = false) :=
  ⟨{ ((((((State.reset.put (LANE_STAT.STATE 0) 4).put LANE_CFG.NODE 3).store (cadAddr 0 0 9) 4 0x40280000).store (cadAddr 0 0 9 + 4) 4 0x00000000).store (cadAddr 0 0 9 + 8) 4 0x00000000) : State) with lanes := { State.reset.lanes with tick := 3 } }, 0, 0, 3, (List.replicate 12 0 ++ [0x88, 0xB5, 0x13, 0x00, 0x00, 0, 0, 0, 0, 0x00, 0x09, 0x05, 0x00, 0x00, 0x00, 0x00, 0x00, 0x00] ++ List.replicate 46 0), true, 0x40280000, _, rfl, by decide⟩
theorem witness_LaneData_45 : ∃ (s : State) (t : Nat) (lane behind : Nat) (frame : List Byte) (fcs : Bool) (w0 : Nat) (v : State), (v = s.at_ t) ∧ (lane < 2) ∧ (v.laneTakes lane = true) ∧ ((v.laneFormat lane frame fcs).2 = true) ∧ ((laneHdr frame).kind = 3) ∧ (v.isDup lane (laneHdr frame) = false) ∧ ((v.admitFrame lane (laneHdr frame) 4).2 = some behind) ∧ (w0 = v.cadWord (v.get (LANE_STAT.BANK lane)) lane (laneHdr frame).slot 0) ∧ (bitOf w0 31 = false ∨ v.copyTaken (512 + (laneHdr frame).sender) (entryTick (laneHdr frame) w0) = false) ∧ (0 < behind) :=
  ⟨{ ((((((State.reset.put (LANE_STAT.STATE 0) 4).put LANE_CFG.NODE 3).store (cadAddr 0 0 9) 4 0x40280000).store (cadAddr 0 0 9 + 4) 4 0x00000000).store (cadAddr 0 0 9 + 8) 4 0x00000000) : State) with lanes := { State.reset.lanes with tick := 3 } }, 0, 0, 3, (List.replicate 12 0 ++ [0x88, 0xB5, 0x13, 0x00, 0x00, 0, 0, 0, 0, 0x00, 0x09, 0x05, 0x00, 0x00, 0x00, 0x00, 0x00, 0x00] ++ List.replicate 46 0), true, 0x40280000, _, rfl, by decide⟩
theorem witness_LaneData_46 : ∃ (s : State) (node age a : Nat) (r : List Byte), ((s.nodeAxes node).find? (fun a => s.get (AX_CFG.CH a) == fieldBE r 0 1 % 8) = some a) :=
  ⟨((State.reset.put (AX_CFG.NODE 95) 5).put (AX_CFG.KIND 95) 1), 5, 2, 95, List.replicate 16 0, by decide⟩
theorem witness_LaneData_47 : ∃ (s : State) (node age : Nat) (r : List Byte), ((s.nodeAxes node).find? (fun a => s.get (AX_CFG.CH a) == fieldBE r 0 1 % 8) = none) :=
  ⟨State.reset, 5, 2, List.replicate 16 0, by decide⟩
theorem witness_LaneData_48 : ∃ (s : State) (m : Nat) (x : Stream), (m < 512) ∧ (SMap.find s.lanes.streams m = some x) ∧ (x.maxAge < s.get (LANE_STR.AGE m)) :=
  ⟨{ (State.reset.put (LANE_STR.AGE 511) 9) with lanes := { State.reset.lanes with streams := [(511, ⟨[], 8⟩)] } }, 511, ⟨[], 8⟩, by decide⟩
theorem witness_LaneData_49 : ∃ (s : State) (m : Nat), (512 ≤ m ∨ ∀ x ∈ SMap.find s.lanes.streams m, s.get (LANE_STR.AGE m) ≤ x.maxAge) :=
  ⟨State.reset, 512, by decide⟩
theorem witness_LaneModeChange_1 : ∃ (s : State) (t : Nat) (cid : BitVec 16) (v : State), (v = s.at_ t) ∧ (v.unlocked .boot 0x06 = true) :=
  ⟨{ (State.reset : State) with regg := { State.reset.regg with unlocks := [(5, ⟨0x06, 0⟩)] } }, 0, 0xFFFF, _, rfl, by decide⟩
theorem witness_LaneModeChange_2 : ∃ (s : State) (t : Nat) (cid : BitVec 16) (v : State), (v = s.at_ t) ∧ (v.unlocked .boot 0x06 = false) :=
  ⟨State.reset, 0, 0xFFFF, _, rfl, by decide⟩
theorem witness_LaneModeChange_3 : ∃ (s : State) (t : Nat) (who : Initiator) (cid : BitVec 16) (v : State), (v = s.at_ t) ∧ (v.acts who = true) ∧ (who ≠ .boot) :=
  ⟨up, 0, .s0, 0xFFFF, _, rfl, by decide⟩
theorem witness_LaneModeChange_4 : ∃ (s : State) (t : Nat) (cid : BitVec 16) (v : State), (v = s.at_ t) ∧ (v.unlocked .boot 0x06 = true) :=
  ⟨{ (State.reset : State) with regg := { State.reset.regg with unlocks := [(5, ⟨0x06, 0⟩)] } }, 0, 0xFFFF, _, rfl, by decide⟩
theorem witness_LaneModeChange_5 : ∃ (s : State) (t : Nat) (cid : BitVec 16) (v : State), (v = s.at_ t) ∧ (v.unlocked .boot 0x06 = false) :=
  ⟨State.reset, 0, 0xFFFF, _, rfl, by decide⟩
theorem witness_LaneModeChange_6 : ∃ (s : State) (t : Nat) (who : Initiator) (cid : BitVec 16) (v : State), (v = s.at_ t) ∧ (v.acts who = true) ∧ (who ≠ .boot) :=
  ⟨up, 0, .s0, 0xFFFF, _, rfl, by decide⟩
theorem witness_LaneModeChange_7 : ∃ (s : State) (t : Nat) (v : State), (v = s.at_ t) ∧ (v.unlocked .boot 0x06 = true) :=
  ⟨{ (State.reset : State) with regg := { State.reset.regg with unlocks := [(5, ⟨0x06, 0⟩)] } }, 0, _, rfl, by decide⟩
theorem witness_LaneModeChange_8 : ∃ (s : State) (t : Nat) (v : State), (v = s.at_ t) ∧ (v.unlocked .boot 0x06 = false) :=
  ⟨State.reset, 0, _, rfl, by decide⟩
theorem witness_LaneModeChange_9 : ∃ (s : State) (t : Nat) (who : Initiator) (v : State), (v = s.at_ t) ∧ (v.acts who = true) ∧ (who ≠ .boot) :=
  ⟨up, 0, .s0, _, rfl, by decide⟩
theorem witness_LaneModeChange_10 : ∃ (s : State) (op cid act : Nat), (s.amCoord = true) ∧ (8 ≤ serialDiff 32 (s.get LANE_MODE_TGT.TGT) s.macro_) ∧ (op ≠ 1 ∨ s.bankCid (1 - s.get (LANE_STAT.BANK 0)) = cid ∨ s.bankCid (1 - s.get (LANE_STAT.BANK 1)) = cid) :=
  ⟨(((State.reset.put LANE_CFG.COORD 9).put LANE_CFG.NODE 9).put LANE_MODE_TGT.TGT 8), 1, 0, 0, by decide⟩
theorem witness_LaneModeChange_11 : ∃ (s : State) (op cid act : Nat), (s.amCoord = false ∨ serialDiff 32 (s.get LANE_MODE_TGT.TGT) s.macro_ < 8 ∨ (op = 1 ∧ s.bankCid (1 - s.get (LANE_STAT.BANK 0)) ≠ cid ∧ s.bankCid (1 - s.get (LANE_STAT.BANK 1)) ≠ cid)) :=
  ⟨State.reset, 1, 0, 0, by decide⟩
theorem witness_LaneModeChange_12 : ∃ (s : State) (op cid m act : Nat), (s.lanes.mode.annM ≠ m ∨ s.lanes.mode.annCid ≠ cid ∨ s.lanes.mode.answer = 0) ∧ (op < 2) ∧ (m < 2 ^ 32) ∧ (cid < 2 ^ 16) :=
  ⟨(((State.reset.put LANE_CFG.COORD 9).put LANE_CFG.NODE 9).put LANE_MODE_TGT.TGT 8), 1, 0, 8, 0, by decide⟩
theorem witness_LaneModeChange_13 : ∃ (s : State) (op cid m act : Nat), (s.lanes.mode.annM = m) ∧ (s.lanes.mode.annCid = cid) ∧ (s.lanes.mode.answer ≠ 0) :=
  ⟨{ (State.reset : State) with lanes := { State.reset.lanes with mode := { State.reset.lanes.mode with answer := 1 } } }, 1, 0, 0, 0, by decide⟩
theorem witness_LaneModeChange_14 : ∃ (s : State), (s.amCoord = true) ∧ (s.lanes.mode.op = 1 ∨ s.lanes.mode.op = 2) ∧ (3 < serialDiff 32 s.lanes.mode.m s.macro_) ∧ (s.lanes.mode.annM = s.lanes.mode.m) ∧ (s.lanes.mode.answer ≠ 0) :=
  ⟨{ ((((State.reset.put LANE_CFG.COORD 9).put LANE_CFG.NODE 9).put LANE_MODE_TGT.TGT 8) : State) with lanes := { State.reset.lanes with mode := { State.reset.lanes.mode with op := 1, m := 8, annM := 8, answer := 1 } } }, by decide⟩
theorem witness_LaneModeChange_15 : ∃ (s : State), (s.amCoord = false ∨ (s.lanes.mode.op ≠ 1 ∧ s.lanes.mode.op ≠ 2) ∨ serialDiff 32 s.lanes.mode.m s.macro_ ≤ 3) :=
  ⟨State.reset, by decide⟩
theorem witness_LaneModeChange_16 : ∃ (s : State) (t : Nat) (v : State), (v = s.at_ t) ∧ (v.amCoord = true) ∧ (v.lanes.mode.op = 1 ∨ v.lanes.mode.op = 2) ∧ (serialDiff 32 v.lanes.mode.m v.macro_ = 2) ∧ (v.lanes.mode.answer ≠ 3) ∧ (∀ p ∈ ((v.ln 0).heard ++ (v.ln 1).heard), p.2 = 1 ∨ ∃ q ∈ ((v.ln 0).heard ++ (v.ln 1).heard), q.1 = p.1 ∧ q.2 = 1) :=
  ⟨{ ((((State.reset.put LANE_CFG.COORD 9).put LANE_CFG.NODE 9).put LANE_MODE_TGT.TGT 8) : State) with lanes := { State.reset.lanes with mode := { State.reset.lanes.mode with op := 1, m := 2, annM := 2, answer := 1 } } }, 0, _, rfl, by decide⟩
theorem witness_LaneModeChange_17 : ∃ (s : State) (t : Nat) (v : State), (v = s.at_ t) ∧ (v.amCoord = true) ∧ (v.lanes.mode.op = 1 ∨ v.lanes.mode.op = 2) ∧ (serialDiff 32 v.lanes.mode.m v.macro_ = 2) ∧ (v.lanes.mode.answer = 3 ∨ ¬ (∀ p ∈ ((v.ln 0).heard ++ (v.ln 1).heard), p.2 = 1 ∨ ∃ q ∈ ((v.ln 0).heard ++ (v.ln 1).heard), q.1 = p.1 ∧ q.2 = 1)) :=
  ⟨{ ((((State.reset.put LANE_CFG.COORD 9).put LANE_CFG.NODE 9).put LANE_MODE_TGT.TGT 8) : State) with lanes := { State.reset.lanes with mode := { State.reset.lanes.mode with op := 1, m := 2, annM := 2, answer := 3 } } }, 0, _, rfl, by decide⟩
theorem witness_LaneModeChange_18 : ∃ (s : State) (t : Nat) (v : State), (v = s.at_ t) ∧ (v.amCoord = false ∨ (v.lanes.mode.op ≠ 1 ∧ v.lanes.mode.op ≠ 2) ∨ serialDiff 32 v.lanes.mode.m v.macro_ ≠ 2) :=
  ⟨State.reset, 0, _, rfl, by decide⟩
theorem witness_LaneModeChange_19 : ∃ (s : State) (t : Nat) (l b : Nat) (v : State), (v = s.at_ t) ∧ (v.lanes.mode.committed = true) ∧ (v.macro_ = v.lanes.mode.annM) ∧ (v.lanes.tick % 64 = 0) ∧ (v.flag LANE_MODE.ACT = false) ∧ (l < 2) ∧ (b < 2) ∧ (v.bankOf l v.lanes.mode.annCid = some b) :=
  ⟨{ ((State.reset.store (cadAddr 1 0 0 + 0x10000) 4 0x1234) : State) with lanes := { State.reset.lanes with mode := { State.reset.lanes.mode with committed := true, annCid := 0x1234 } } }, 0, 1, 1, _, rfl, by decide⟩
theorem witness_LaneModeChange_20 : ∃ (s : State) (t : Nat) (v : State), (v = s.at_ t) ∧ (v.lanes.mode.committed = true) ∧ (v.macro_ = v.lanes.mode.annM) ∧ (v.lanes.tick % 64 = 0) ∧ (v.flag LANE_MODE.ACT = true) ∧ (v.lanes.mode.answer = 2 ∧ v.holdsImage v.lanes.mode.annAct = true) :=
  ⟨(let x := ({ ((State.reset.putFlag LANE_MODE.ACT true) : State) with lanes := { State.reset.lanes with mode := { State.reset.lanes.mode with committed := true, answer := 2 } } } : State); x.writeTable { x.table with a := ⟨1, 0, 0, 0, 0⟩, b := ⟨1, 0, 0, 0, 0⟩ }), 0, _, rfl, by decide⟩
theorem witness_LaneModeChange_21 : ∃ (s : State) (t : Nat) (v : State), (v = s.at_ t) ∧ (v.lanes.mode.committed = true) ∧ (v.macro_ = v.lanes.mode.annM) ∧ (v.lanes.tick % 64 = 0) ∧ (v.flag LANE_MODE.ACT = true) ∧ (v.lanes.mode.answer ≠ 2 ∨ v.holdsImage v.lanes.mode.annAct = false) :=
  ⟨{ ((State.reset.putFlag LANE_MODE.ACT true) : State) with lanes := { State.reset.lanes with mode := { State.reset.lanes.mode with committed := true, answer := 1 } } }, 0, _, rfl, by decide⟩
theorem witness_LaneModeChange_22 : ∃ (s : State) (t : Nat) (v : State), (v = s.at_ t) ∧ (v.lanes.mode.committed = false ∨ v.macro_ ≠ v.lanes.mode.annM ∨ v.lanes.tick % 64 ≠ 0) :=
  ⟨State.reset, 0, _, rfl, by decide⟩
theorem witness_LaneModeChange_23 : ∃ (s : State) (t : Nat) (lane entry : Nat) (v : State), (v = s.at_ t) ∧ (v.laneSynced lane = true) ∧ (v.linked lane ≠ 0) ∧ (bitsOf (v.cadWord (v.get (LANE_STAT.BANK lane)) lane entry 0) 0 6 = v.lanes.tick % 64) ∧ (v.mySender lane (bitsOf (v.cadWord (v.get (LANE_STAT.BANK lane)) lane entry 0) 19 8) = true) ∧ (bitsOf (v.cadWord (v.get (LANE_STAT.BANK lane)) lane entry 0) 28 3 = 1 ∨ ((v.ln lane).sends = true ∧ (v.ln lane).uncertain = false)) ∧ (8 * bitsOf (v.cadWord (v.get (LANE_STAT.BANK lane)) lane entry 0) 6 13 ≤ v.laneNow % tickNs) ∧ (entry ∉ (v.ln lane).sent) ∧ (v.overReserve lane (bitsOf (v.cadWord (v.get (LANE_STAT.BANK lane)) lane entry 0) 0 6) = false) ∧ (bitsOf (v.cadWord (v.get (LANE_STAT.BANK lane)) lane entry 0) 28 3 = 1) :=
  ⟨(((((((State.reset.put (LANE_STAT.STATE 0) 4).put (LANE_STAT.LINK_DN 0) 1).putFlag (LANE_STAT.MASTER 0) true)).store (cadAddr 0 0 9) 4 0x17F80000).store (cadAddr 0 0 9 + 4) 4 0x0000001E).store (cadAddr 0 0 9 + 8) 4 0x00000000), 0, 0, 9, _, rfl, by decide⟩
theorem witness_LaneModeChange_24 : ∃ (s : State) (t : Nat) (lane entry : Nat) (x : State) (v : State), (v = s.at_ t) ∧ (v.laneSynced lane = true) ∧ (v.linked lane ≠ 0) ∧ (bitsOf (v.cadWord (v.get (LANE_STAT.BANK lane)) lane entry 0) 0 6 = v.lanes.tick % 64) ∧ (v.mySender lane (bitsOf (v.cadWord (v.get (LANE_STAT.BANK lane)) lane entry 0) 19 8) = true) ∧ (bitsOf (v.cadWord (v.get (LANE_STAT.BANK lane)) lane entry 0) 28 3 = 1 ∨ ((v.ln lane).sends = true ∧ (v.ln lane).uncertain = false)) ∧ (8 * bitsOf (v.cadWord (v.get (LANE_STAT.BANK lane)) lane entry 0) 6 13 ≤ v.laneNow % tickNs) ∧ (entry ∉ (v.ln lane).sent) ∧ (v.overReserve lane (bitsOf (v.cadWord (v.get (LANE_STAT.BANK lane)) lane entry 0) 0 6) = false) ∧ (((v.setLn lane { v.ln lane with sent := entry :: (v.ln lane).sent }).laneContent lane entry (bitsOf (v.cadWord (v.get (LANE_STAT.BANK lane)) lane entry 0) 28 3)).1 = none) ∧ (x = ((v.setLn lane { v.ln lane with sent := entry :: (v.ln lane).sent }).laneContent lane entry (bitsOf (v.cadWord (v.get (LANE_STAT.BANK lane)) lane entry 0) 28 3)).2) :=
  ⟨((((((({ ((State.reset.put (LANE_STAT.STATE 0) 4) : State) with lanes := { State.reset.lanes with lane := [(0, { LaneSt.init with sends := true })] } }.put (LANE_STAT.LINK_DN 0) 1).putFlag (LANE_STAT.MASTER 0) true).put LANE_CFG.NODE 3)).store (cadAddr 0 0 9) 4 0x37F80000).store (cadAddr 0 0 9 + 4) 4 0x0000001E).store (cadAddr 0 0 9 + 8) 4 0x00000000), 0, 0, 9, _, _, rfl, by decide, by decide, by decide, by decide, by decide, by decide, by decide, by decide, by decide, rfl⟩
theorem witness_LaneModeChange_25 : ∃ (s : State) (t : Nat) (lane entry k age : Nat) (stale : Bool) (data : List Byte) (x : State) (v : State), (v = s.at_ t) ∧ (v.laneSynced lane = true) ∧ (v.linked lane ≠ 0) ∧ (bitsOf (v.cadWord (v.get (LANE_STAT.BANK lane)) lane entry 0) 0 6 = v.lanes.tick % 64) ∧ (v.mySender lane (bitsOf (v.cadWord (v.get (LANE_STAT.BANK lane)) lane entry 0) 19 8) = true) ∧ (bitsOf (v.cadWord (v.get (LANE_STAT.BANK lane)) lane entry 0) 28 3 = 1 ∨ ((v.ln lane).sends = true ∧ (v.ln lane).uncertain = false)) ∧ (8 * bitsOf (v.cadWord (v.get (LANE_STAT.BANK lane)) lane entry 0) 6 13 ≤ v.laneNow % tickNs) ∧ (entry ∉ (v.ln lane).sent) ∧ (v.overReserve lane (bitsOf (v.cadWord (v.get (LANE_STAT.BANK lane)) lane entry 0) 0 6) = false) ∧ ((v.setLn lane { v.ln lane with sent := entry :: (v.ln lane).sent }).laneContent lane entry (bitsOf (v.cadWord (v.get (LANE_STAT.BANK lane)) lane entry 0) 28 3) = (some (k, stale, age, data), x)) :=
  ⟨(((((((State.reset.put (LANE_STAT.STATE 0) 4).put (LANE_STAT.LINK_DN 0) 1).putFlag (LANE_STAT.MASTER 0) true)).store (cadAddr 0 0 9) 4 0x17F80000).store (cadAddr 0 0 9 + 4) 4 0x0000001E).store (cadAddr 0 0 9 + 8) 4 0x00000000), 0, 0, 9, 0, 0, false, syncPayload ((((((((State.reset.put (LANE_STAT.STATE 0) 4).put (LANE_STAT.LINK_DN 0) 1).putFlag (LANE_STAT.MASTER 0) true)).store (cadAddr 0 0 9) 4 0x17F80000).store (cadAddr 0 0 9 + 4) 4 0x0000001E).store (cadAddr 0 0 9 + 8) 4 0x00000000).at_ 0).laneNow, (((((((((State.reset.put (LANE_STAT.STATE 0) 4).put (LANE_STAT.LINK_DN 0) 1).putFlag (LANE_STAT.MASTER 0) true)).store (cadAddr 0 0 9) 4 0x17F80000).store (cadAddr 0 0 9 + 4) 4 0x0000001E).store (cadAddr 0 0 9 + 8) 4 0x00000000).at_ 0).setLn 0 { ((((((((State.reset.put (LANE_STAT.STATE 0) 4).put (LANE_STAT.LINK_DN 0) 1).putFlag (LANE_STAT.MASTER 0) true)).store (cadAddr 0 0 9) 4 0x17F80000).store (cadAddr 0 0 9 + 4) 4 0x0000001E).store (cadAddr 0 0 9 + 8) 4 0x00000000).at_ 0).ln 0 with sent := 9 :: (((((((((State.reset.put (LANE_STAT.STATE 0) 4).put (LANE_STAT.LINK_DN 0) 1).putFlag (LANE_STAT.MASTER 0) true)).store (cadAddr 0 0 9) 4 0x17F80000).store (cadAddr 0 0 9 + 4) 4 0x0000001E).store (cadAddr 0 0 9 + 8) 4 0x00000000).at_ 0).ln 0).sent }), _, rfl, by decide⟩
theorem witness_LaneModeChange_26 : ∃ (s : State) (t : Nat) (lane entry : Nat) (v : State), (v = s.at_ t) ∧ (v.laneSynced lane = true) ∧ (v.linked lane ≠ 0) ∧ (bitsOf (v.cadWord (v.get (LANE_STAT.BANK lane)) lane entry 0) 0 6 = v.lanes.tick % 64) ∧ (v.mySender lane (bitsOf (v.cadWord (v.get (LANE_STAT.BANK lane)) lane entry 0) 19 8) = true) ∧ (bitsOf (v.cadWord (v.get (LANE_STAT.BANK lane)) lane entry 0) 28 3 = 1 ∨ ((v.ln lane).sends = true ∧ (v.ln lane).uncertain = false)) ∧ (8 * bitsOf (v.cadWord (v.get (LANE_STAT.BANK lane)) lane entry 0) 6 13 ≤ v.laneNow % tickNs) ∧ (entry ∉ (v.ln lane).sent) ∧ (v.overReserve lane (bitsOf (v.cadWord (v.get (LANE_STAT.BANK lane)) lane entry 0) 0 6) = true) :=
  ⟨(((((((((((((State.reset.put (LANE_STAT.STATE 0) 4).put (LANE_STAT.LINK_DN 0) 1).putFlag (LANE_STAT.MASTER 0) true)).store (cadAddr 0 0 9) 4 0x17F80000).store (cadAddr 0 0 9 + 4) 4 0x0000001E).store (cadAddr 0 0 9 + 8) 4 0x00000000).store (cadAddr 0 0 6) 4 0x17F80000).store (cadAddr 0 0 6 + 4) 4 0x7FF).store (cadAddr 0 0 7) 4 0x17F80000).store (cadAddr 0 0 7 + 4) 4 0x7FF).store (cadAddr 0 0 8) 4 0x17F80000).store (cadAddr 0 0 8 + 4) 4 0x7FF), 0, 0, 9, _, rfl, by decide⟩
theorem witness_LaneModeChange_27 : ∃ (s : State) (t : Nat) (lane entry : Nat) (v : State), (v = s.at_ t) ∧ (v.laneSynced lane = false ∨ v.linked lane = 0 ∨ bitsOf (v.cadWord (v.get (LANE_STAT.BANK lane)) lane entry 0) 0 6 ≠ v.lanes.tick % 64 ∨ v.mySender lane (bitsOf (v.cadWord (v.get (LANE_STAT.BANK lane)) lane entry 0) 19 8) = false ∨ (bitsOf (v.cadWord (v.get (LANE_STAT.BANK lane)) lane entry 0) 28 3 ≠ 1 ∧ ((v.ln lane).sends = false ∨ (v.ln lane).uncertain = true)) ∨ v.laneNow % tickNs < 8 * bitsOf (v.cadWord (v.get (LANE_STAT.BANK lane)) lane entry 0) 6 13 ∨ entry ∈ (v.ln lane).sent) :=
  ⟨State.reset, 0, 0, 9, _, rfl, by decide⟩
theorem witness_ConsistTime_1 : ∃ (s : State) (t : Nat) (port : Nat) (domain : BitVec 8) (gm : Nat) (y : State) (v : State), (v = s.at_ t) ∧ (v.ringsOn = true) ∧ (domain.toNat = v.get TIME_PTP.DOMAIN) ∧ (port < 2) ∧ (v.get (ECN_STAT.PTP_ROLE port) = 2) ∧ (v.flag TIME_STAT.GM_SELF = false) ∧ (v.get TIME_CTRL.STEP_NS < ((v.consNow : Int) - gm).natAbs) ∧ (y = (((({ (((v.putS TIME_CONS_OFS.OFS (clampInt (-2147483648) 2147483647 ((v.consNow : Int) - gm))).inc TIME_CONS_STEP_CNT).putS TIME_CONS_RATE.RATE (match v.time.ptp with | some p => ptpRate p.1 p.2 v.localNow gm | none => 0)) with time := { v.time with consRef := v.localNow, consVal := (gm : Int), consEver := true, slew := 0, ptp := some (v.localNow, (gm : Int)) } } : State).putIf TIME_STAT.CONS_FW 0).putIf TIME_CONS_HOLD.HOLD 0).putIf TIME_STAT.CONS_SYNC 1).showTime.pdRestart) :=
  ⟨{ (State.reset.put (ECN_STAT.PTP_ROLE 1) 2) with time := { State.reset.time with edge := 9000000 } }, 0, 1, 0, 5000000000, _, _, rfl, by decide, by decide, by decide, by decide, by decide, by decide, rfl⟩
theorem witness_ConsistTime_2 : ∃ (s : State) (t : Nat) (port : Nat) (domain : BitVec 8) (gm : Nat) (y : State) (v : State), (v = s.at_ t) ∧ (v.ringsOn = true) ∧ (domain.toNat = v.get TIME_PTP.DOMAIN) ∧ (port < 2) ∧ (v.get (ECN_STAT.PTP_ROLE port) = 2) ∧ (v.flag TIME_STAT.GM_SELF = false) ∧ (((v.consNow : Int) - gm).natAbs ≤ v.get TIME_CTRL.STEP_NS) ∧ (y = (((({ (((v.putS TIME_CONS_OFS.OFS (clampInt (-2147483648) 2147483647 ((v.consNow : Int) - gm)))).putS TIME_CONS_RATE.RATE (match v.time.ptp with | some p => ptpRate p.1 p.2 v.localNow gm | none => 0)) with time := { v.time with consRef := v.localNow, consVal := (v.consNow : Int), consEver := true, slew := (gm : Int) - v.consNow, ptp := some (v.localNow, (gm : Int)) } } : State).putIf TIME_STAT.CONS_FW 0).putIf TIME_CONS_HOLD.HOLD 0).putIf TIME_STAT.CONS_SYNC 1).showTime) :=
  ⟨{ (State.reset.put (ECN_STAT.PTP_ROLE 1) 2) with time := { State.reset.time with edge := 9000000 } }, 0, 1, 0, 1, _, _, rfl, by decide, by decide, by decide, by decide, by decide, by decide, rfl⟩
theorem witness_ConsistTime_3 : ∃ (s : State) (t : Nat) (port : Nat) (domain : BitVec 8) (gm : Nat) (v : State), (v = s.at_ t) ∧ (v.ringsOn = true) ∧ (domain.toNat = v.get TIME_PTP.DOMAIN) ∧ (port < 2) ∧ (v.get (ECN_STAT.PTP_ROLE port) = 2) ∧ (v.flag TIME_STAT.GM_SELF = false) ∧ (v.flag ECN_CTRL.BRIDGE = false) ∧ (v.get TIME_CTRL.STEP_NS < ((v.consNow : Int) - gm).natAbs) :=
  ⟨{ ((State.reset.put ECN_CTRL.BRIDGE 0).put (ECN_STAT.PTP_ROLE 1) 2) with time := { State.reset.time with edge := 9000000 } }, 0, 1, 0, 5000000000, _, rfl, by decide⟩
theorem witness_ConsistTime_4 : ∃ (s : State) (t : Nat) (port : Nat) (domain : BitVec 8) (gm : Nat) (v : State), (v = s.at_ t) ∧ (v.ringsOn = true) ∧ (domain.toNat = v.get TIME_PTP.DOMAIN) ∧ (port < 2) ∧ (v.get (ECN_STAT.PTP_ROLE port) = 2) ∧ (v.flag TIME_STAT.GM_SELF = false) ∧ (v.flag ECN_CTRL.BRIDGE = false) ∧ (((v.consNow : Int) - gm).natAbs ≤ v.get TIME_CTRL.STEP_NS) :=
  ⟨{ ((State.reset.put ECN_CTRL.BRIDGE 0).put (ECN_STAT.PTP_ROLE 1) 2) with time := { State.reset.time with edge := 9000000 } }, 0, 1, 0, 1, _, rfl, by decide⟩
theorem witness_ConsistTime_5 : ∃ (s : State) (t : Nat) (port : Nat) (domain : BitVec 8) (gm : Nat) (v : State), (v = s.at_ t) ∧ (v.ringsOn = false ∨ domain.toNat ≠ v.get TIME_PTP.DOMAIN ∨ 2 ≤ port ∨ v.get (ECN_STAT.PTP_ROLE port) ≠ 2 ∨ v.flag TIME_STAT.GM_SELF = true) :=
  ⟨State.reset, 0, 0, 0, 0, _, rfl, by decide⟩
theorem witness_ConsistTime_6 : ∃ (s : State) (t : Nat) (port : Nat) (ann : PtpAnnounce) (v : State), (v = s.at_ t) ∧ (v.ringsOn = true) ∧ (ann.domain.toNat = v.get TIME_PTP.DOMAIN) ∧ (port < 2) ∧ (v.flag (ECN_STAT.LINK port) = true) ∧ (ann.gm.toNat ≠ v.clockId) ∧ (({ v with time := { v.time with anns := SMap.set v.time.anns port ann } } : State).selectGm.flag ECN_CTRL.BRIDGE = true) ∧ (({ v with time := { v.time with anns := SMap.set v.time.anns port ann } } : State).selectGm.get (ECN_STAT.PTP_ROLE port) = 2) :=
  ⟨(((((State.reset.put (ECN_STAT.LINK 1) 1).put ECN_CTRL.BRIDGE 1).put TIME_PTP.GM_CAP 0).put TIME_PTP.EXT 1).put (ECN_STAT.PTP_ROLE 1) 2), 0, 1, ⟨0, 1, 0x06210000, 1, 0xFFFFFFFFFFFFFFFF, 0, 4, 37, 0⟩, _, rfl, by decide⟩
theorem witness_ConsistTime_7 : ∃ (s : State) (t : Nat) (port : Nat) (ann : PtpAnnounce) (v : State), (v = s.at_ t) ∧ (v.ringsOn = true) ∧ (ann.domain.toNat = v.get TIME_PTP.DOMAIN) ∧ (port < 2) ∧ (v.flag (ECN_STAT.LINK port) = true) ∧ (ann.gm.toNat ≠ v.clockId) ∧ (({ v with time := { v.time with anns := SMap.set v.time.anns port ann } } : State).selectGm.flag ECN_CTRL.BRIDGE = false ∨ ({ v with time := { v.time with anns := SMap.set v.time.anns port ann } } : State).selectGm.get (ECN_STAT.PTP_ROLE port) ≠ 2) :=
  ⟨((State.reset.put (ECN_STAT.LINK 1) 1).put ECN_CTRL.BRIDGE 0), 0, 1, ⟨0, 1, 0x06210000, 1, 0xFFFFFFFFFFFFFFFF, 0, 4, 37, 0⟩, _, rfl, by decide⟩
theorem witness_ConsistTime_8 : ∃ (s : State) (t : Nat) (port : Nat) (ann : PtpAnnounce) (p : Nat) (a : PtpAnnounce) (v : State), (v = s.at_ t) ∧ (v.ringsOn = true) ∧ (ann.domain.toNat = v.get TIME_PTP.DOMAIN) ∧ (port < 2) ∧ (v.flag (ECN_STAT.LINK port) = true) ∧ (ann.gm.toNat ≠ v.clockId) ∧ (v.flag ECN_CTRL.BRIDGE = false) ∧ (v.flag TIME_PTP.EXT = true) ∧ (({ v with time := { v.time with anns := SMap.set v.time.anns port ann } } : State).ownBest = false) ∧ (({ v with time := { v.time with anns := SMap.set v.time.anns port ann } } : State).bestAnnounce = some (p, a)) ∧ (v.get TIME_GM_ID.ID ≠ a.gm.toNat) :=
  ⟨(((((State.reset.put (ECN_STAT.LINK 1) 1).put ECN_CTRL.BRIDGE 0).put TIME_PTP.GM_CAP 0).put TIME_PTP.EXT 1).put (ECN_STAT.PTP_ROLE 1) 2), 0, 1, ⟨0, 1, 0x06210000, 1, 0xFFFFFFFFFFFFFFFF, 0, 4, 37, 0⟩, 1, ⟨0, 1, 0x06210000, 1, 0xFFFFFFFFFFFFFFFF, 0, 4, 37, 0⟩, _, rfl, by decide⟩
theorem witness_ConsistTime_9 : ∃ (s : State) (t : Nat) (port : Nat) (ann : PtpAnnounce) (v : State), (v = s.at_ t) ∧ (v.ringsOn = false ∨ ann.domain.toNat ≠ v.get TIME_PTP.DOMAIN ∨ 2 ≤ port ∨ v.flag (ECN_STAT.LINK port) = false ∨ ann.gm.toNat = v.clockId) :=
  ⟨State.reset, 0, 1, ⟨0, 1, 0x06210000, 1, 0xFFFFFFFFFFFFFFFF, 0, 4, 37, 0⟩, _, rfl, by decide⟩
theorem witness_ConsistTime_10 : ∃ (s : State) (t : Nat) (port : Nat) (v : State), (v = s.at_ t) ∧ (v.get (ECN_STAT.PTP_ROLE port) = 2) :=
  ⟨(State.reset.put (ECN_STAT.PTP_ROLE 1) 2), 0, 1, _, rfl, by decide⟩
theorem witness_ConsistTime_11 : ∃ (s : State) (t : Nat) (port : Nat) (v : State), (v = s.at_ t) ∧ (v.get (ECN_STAT.PTP_ROLE port) ≠ 2) :=
  ⟨State.reset, 0, 1, _, rfl, by decide⟩
theorem witness_ConsistTime_12 : ∃ (s : State), (s.flag TIME_STAT.CONS_SYNC = true) ∧ (s.flag TIME_STAT.CONS_FW = false) :=
  ⟨(State.reset.put TIME_STAT.CONS_SYNC 1), by decide⟩
theorem witness_ConsistTime_13 : ∃ (s : State) (t : Nat) (v : State), (v = s.at_ t) ∧ (v.flag TIME_STAT.CONS_FW = true) ∧ (v.get TIME_HOLD_MAX.TICKS < v.get TIME_CONS_HOLD.HOLD) :=
  ⟨((State.reset.put TIME_STAT.CONS_FW 1).put TIME_CONS_HOLD.HOLD 0xFFFFFFFF), 0, _, rfl, by decide⟩
theorem witness_ConsistTime_14 : ∃ (s : State) (t : Nat) (v : State), (v = s.at_ t) ∧ (v.flag TIME_STAT.CONS_FW = false ∨ v.get TIME_CONS_HOLD.HOLD ≤ v.get TIME_HOLD_MAX.TICKS) :=
  ⟨State.reset, 0, _, rfl, by decide⟩
theorem witness_ConsistTime_15 : ∃ (s : State) (t : Nat) (n back : Nat) (v : State), (v = s.at_ t) ∧ (n < 16) ∧ (v.captureEvent n = some back) ∧ (v.get (TIME_CAP_CFG.TBASE n) = 0) ∧ ((SMap.getD v.time.caps n []).length < 8) :=
  ⟨((State.reset.put (TIME_CAP_CFG.KIND 15) 2).put (TIME_CAP_CFG.TBASE 15) 0), 0, 15, 0, _, rfl, by decide⟩
theorem witness_ConsistTime_16 : ∃ (s : State) (t : Nat) (n back : Nat) (v : State), (v = s.at_ t) ∧ (n < 16) ∧ (v.captureEvent n = some back) ∧ (v.get (TIME_CAP_CFG.TBASE n) = 1) ∧ ((SMap.getD v.time.caps n []).length < 8) :=
  ⟨((State.reset.put (TIME_CAP_CFG.KIND 15) 2).put (TIME_CAP_CFG.TBASE 15) 1), 0, 15, 0, _, rfl, by decide⟩
theorem witness_ConsistTime_17 : ∃ (s : State) (t : Nat) (n back : Nat) (v : State), (v = s.at_ t) ∧ (n < 16) ∧ (v.captureEvent n = some back) ∧ (v.get (TIME_CAP_CFG.TBASE n) = 2) ∧ ((SMap.getD v.time.caps n []).length < 8) :=
  ⟨((State.reset.put (TIME_CAP_CFG.KIND 15) 2).put (TIME_CAP_CFG.TBASE 15) 2), 0, 15, 0, _, rfl, by decide⟩
theorem witness_ConsistTime_18 : ∃ (s : State) (t : Nat) (n back : Nat) (v : State), (v = s.at_ t) ∧ (n < 16) ∧ (v.captureEvent n = some back) ∧ (8 ≤ (SMap.getD v.time.caps n []).length) :=
  ⟨{ ((State.reset.put (TIME_CAP_CFG.KIND 15) 2).put (TIME_CAP_CFG.TBASE 15) 0) with time := { State.reset.time with caps := [(15, [1, 2, 3, 4, 5, 6, 7, 8])] } }, 0, 15, 0, _, rfl, by decide⟩
theorem witness_ConsistTime_19 : ∃ (s : State) (t : Nat) (n : Nat) (v : State), (v = s.at_ t) ∧ (16 ≤ n ∨ v.captureEvent n = none) :=
  ⟨State.reset, 0, 16, _, rfl, by decide⟩
theorem witness_ConsistTime_20 : ∃ (s : State) (n : Nat), (s.get (TIME_CAP_CFG.KIND n) = 1) :=
  ⟨((State.reset.put (TIME_CAP_CFG.KIND 15) 1).put (TIME_CAP_CFG.INDEX 15) 0), 15, by decide⟩
theorem witness_ConsistTime_21 : ∃ (s : State) (n : Nat), (s.get (TIME_CAP_CFG.KIND n) = 2) ∧ (s.get (TIME_CAP_CFG.INDEX n) = 0) :=
  ⟨((State.reset.put (TIME_CAP_CFG.KIND 15) 2).put (TIME_CAP_CFG.INDEX 15) 0), 15, by decide⟩
theorem witness_ConsistTime_22 : ∃ (s : State) (n : Nat), (s.get (TIME_CAP_CFG.KIND n) = 2) ∧ (s.get (TIME_CAP_CFG.INDEX n) = 1) :=
  ⟨((State.reset.put (TIME_CAP_CFG.KIND 15) 2).put (TIME_CAP_CFG.INDEX 15) 1), 15, by decide⟩
theorem witness_ConsistTime_23 : ∃ (s : State) (n : Nat), (s.get (TIME_CAP_CFG.KIND n) = 2) ∧ (s.get (TIME_CAP_CFG.INDEX n) = 2) :=
  ⟨((State.reset.put (TIME_CAP_CFG.KIND 15) 2).put (TIME_CAP_CFG.INDEX 15) 2), 15, by decide⟩
theorem witness_ConsistTime_24 : ∃ (s : State) (n : Nat), (s.get (TIME_CAP_CFG.KIND n) = 2) ∧ (s.get (TIME_CAP_CFG.INDEX n) = 3) :=
  ⟨((State.reset.put (TIME_CAP_CFG.KIND 15) 2).put (TIME_CAP_CFG.INDEX 15) 3), 15, by decide⟩
theorem witness_ConsistTime_25 : ∃ (s : State) (n : Nat), (s.get (TIME_CAP_CFG.KIND n) = 3) :=
  ⟨((State.reset.put (TIME_CAP_CFG.KIND 15) 3).put (TIME_CAP_CFG.INDEX 15) 0), 15, by decide⟩
theorem witness_ConsistTime_26 : ∃ (s : State) (n : Nat), (s.get (TIME_CAP_CFG.KIND n) = 4) :=
  ⟨((State.reset.put (TIME_CAP_CFG.KIND 15) 4).put (TIME_CAP_CFG.INDEX 15) 0), 15, by decide⟩
theorem witness_ConsistEthernet_1 : ∃ (s : State) (t : Nat) (port speed role : Nat) (as_ : Bool) (x : State) (v : State), (v = s.at_ t) ∧ (speed = 1 ∨ speed = 2) ∧ (v.ecnMay port = true) ∧ (x = if v.flag TIME_PTP.EXT = true then (((v.putFlag (ECN_STAT.LINK port) true).put (ECN_STAT.SPEED port) speed).putFlag (ECN_STAT.AS_CAPABLE port) as_).put (ECN_STAT.PTP_ROLE port) role else ((v.putFlag (ECN_STAT.LINK port) true).put (ECN_STAT.SPEED port) speed).putFlag (ECN_STAT.AS_CAPABLE port) as_) :=
  ⟨(((State.reset.put ECN_CTRL.P2_EN 1).put CLK_STAT.REF 0).put CLK_STAT.BYPASS 0), 0, 1, 2, 1, true, _, _, rfl, by decide, by decide, rfl⟩
theorem witness_ConsistEthernet_2 : ∃ (s : State) (t : Nat) (port speed role : Nat) (as_ : Bool) (v : State), (v = s.at_ t) ∧ (port < 2) ∧ (role < 4) ∧ (speed = 1 ∨ speed = 2) ∧ (v.ecnMay port = true) ∧ (v.flag TIME_PTP.EXT = true) ∧ (v.ringsOn = false) ∧ (v.flag ECN_CTRL.PD_EN = false) :=
  ⟨((((((State.reset.put ECN_CTRL.P2_EN 1).put CLK_STAT.REF 0).put CLK_STAT.BYPASS 0).put TIME_PTP.EXT 1).put PWR_STAT.STAGE 2).put ECN_CTRL.PD_EN 0), 0, 1, 2, 1, true, _, rfl, by decide⟩
theorem witness_ConsistEthernet_3 : ∃ (s : State) (t : Nat) (port speed role : Nat) (as_ : Bool) (v : State), (v = s.at_ t) ∧ (speed = 0 ∨ 2 < speed ∨ v.ecnMay port = false) :=
  ⟨State.reset, 0, 1, 0, 0, true, _, rfl, by decide⟩
theorem witness_ConsistEthernet_4 : ∃ (s : State) (t : Nat) (port speed role : Nat) (as_ : Bool) (v : State), (v = s.at_ t) ∧ (port < 2) ∧ (speed = 0 ∨ 2 < speed ∨ v.ecnMay port = false) ∧ (v.get (ECN_STAT.PTP_ROLE port) ≠ 2) :=
  ⟨((State.reset.put ECN_CTRL.P2_EN 1).put (ECN_STAT.LINK 1) 1), 0, 1, 0, 1, true, _, rfl, by decide⟩
theorem witness_ConsistEthernet_5 : ∃ (s : State) (t : Nat) (port : Nat) (frame : List Byte) (fcs : Bool) (v : State), (v = s.at_ t) ∧ (v.flag (ECN_STAT.LINK port) = false) :=
  ⟨State.reset, 0, 1, [], true, _, rfl, by decide⟩
theorem witness_ConsistEthernet_6 : ∃ (s : State) (t : Nat) (port : Nat) (frame : List Byte) (v : State), (v = s.at_ t) ∧ (port < 2) ∧ (v.flag (ECN_STAT.LINK port) = true) :=
  ⟨(State.reset.put (ECN_STAT.LINK 1) 1), 0, 1, [], _, rfl, by decide⟩
theorem witness_ConsistEthernet_7 : ∃ (s : State) (t : Nat) (port : Nat) (frame : List Byte) (x : State) (v : State), (v = s.at_ t) ∧ (v.flag (ECN_STAT.LINK port) = true) ∧ (x = v.inc (ecnRx port)) ∧ (1518 < frame.length ∨ (x.flag ECN_CFG.ING_FILT = true ∧ (x.ecnVlan frame).1 ∉ x.ecn.vlans)) :=
  ⟨((State.reset.put (ECN_STAT.LINK 1) 1).put ECN_CFG.ING_FILT 1), 0, 1, List.replicate 60 2, _, _, rfl, by decide, rfl, by decide⟩
theorem witness_ConsistEthernet_8 : ∃ (s : State) (t : Nat) (port : Nat) (frame : List Byte) (x y z : State) (v : State), (v = s.at_ t) ∧ (v.flag (ECN_STAT.LINK port) = true) ∧ (x = v.inc (ecnRx port)) ∧ (frame.length ≤ 1518 ∧ (x.flag ECN_CFG.ING_FILT = false ∨ (x.ecnVlan frame).1 ∈ x.ecn.vlans)) ∧ (y = if macAt frame 6 / 2 ^ 40 % 2 = 0 ∧ ((SMap.find x.ecn.macs (macAt frame 6)).isSome = true ∨ x.ecn.macs.length < 1024) then { x with ecn := { x.ecn with macs := SMap.set x.ecn.macs (macAt frame 6) (port, x.localNow) } } else x) ∧ (z = if igmpQuery frame = true then y.igmpReports port else y) ∧ (z.ringsOn = false) :=
  ⟨(((State.reset.put (ECN_STAT.LINK 1) 1).put ECN_CFG.ING_FILT 0).put PWR_STAT.STAGE 2), 0, 1, List.replicate 60 2, _, _, _, _, rfl, by decide, rfl, by decide, rfl, rfl, by decide⟩
theorem witness_ConsistEthernet_9 : ∃ (s : State) (t : Nat) (port : Nat) (frame : List Byte) (x y z : State) (v : State), (v = s.at_ t) ∧ (v.flag (ECN_STAT.LINK port) = true) ∧ (x = v.inc (ecnRx port)) ∧ (frame.length ≤ 1518 ∧ (x.flag ECN_CFG.ING_FILT = false ∨ (x.ecnVlan frame).1 ∈ x.ecn.vlans)) ∧ (y = if macAt frame 6 / 2 ^ 40 % 2 = 0 ∧ ((SMap.find x.ecn.macs (macAt frame 6)).isSome = true ∨ x.ecn.macs.length < 1024) then { x with ecn := { x.ecn with macs := SMap.set x.ecn.macs (macAt frame 6) (port, x.localNow) } } else x) ∧ (z = if igmpQuery frame = true then y.igmpReports port else y) ∧ (z.ringsOn = true) ∧ (etherType frame = 0x88F7) :=
  ⟨((State.reset.put (ECN_STAT.LINK 1) 1).put ECN_CFG.ING_FILT 0), 0, 1, (List.replicate 12 2 ++ [0x88, 0xF7, 2] ++ List.replicate 45 0), _, _, _, _, rfl, by decide, rfl, by decide, rfl, rfl, by decide, by decide⟩
theorem witness_ConsistEthernet_10 : ∃ (s : State) (t : Nat) (port : Nat) (frame : List Byte) (x y z w : State) (v : State), (v = s.at_ t) ∧ (v.flag (ECN_STAT.LINK port) = true) ∧ (x = v.inc (ecnRx port)) ∧ (frame.length ≤ 1518 ∧ (x.flag ECN_CFG.ING_FILT = false ∨ (x.ecnVlan frame).1 ∈ x.ecn.vlans)) ∧ (y = if macAt frame 6 / 2 ^ 40 % 2 = 0 ∧ ((SMap.find x.ecn.macs (macAt frame 6)).isSome = true ∨ x.ecn.macs.length < 1024) then { x with ecn := { x.ecn with macs := SMap.set x.ecn.macs (macAt frame 6) (port, x.localNow) } } else x) ∧ (z = if igmpQuery frame = true then y.igmpReports port else y) ∧ (z.ringsOn = true) ∧ (etherType frame ≠ 0x88F7) ∧ (w = if z.flag ECN_CTRL.BRIDGE = true ∧ ¬ (0x0180C2000000 ≤ macAt frame 0 ∧ macAt frame 0 ≤ 0x0180C200000F) then z.enqueue (z.ecnRoute (macAt frame 0) (some port)) (x.ecnVlan frame).2 ⟨frame, none, none, false, false, none⟩ else z) ∧ (w.ecnInside (macAt frame 0) = true ∧ w.pdConsumes frame = false) :=
  ⟨((State.reset.put (ECN_STAT.LINK 1) 1).put ECN_CFG.ING_FILT 0), 0, 1, List.replicate 60 1, _, _, _, _, _, rfl, by decide, rfl, by decide, rfl, rfl, by decide, by decide, rfl, by decide⟩
theorem witness_ConsistEthernet_11 : ∃ (s : State) (t : Nat) (port : Nat) (frame : List Byte) (x y z w : State) (v : State), (v = s.at_ t) ∧ (v.flag (ECN_STAT.LINK port) = true) ∧ (x = v.inc (ecnRx port)) ∧ (frame.length ≤ 1518 ∧ (x.flag ECN_CFG.ING_FILT = false ∨ (x.ecnVlan frame).1 ∈ x.ecn.vlans)) ∧ (y = if macAt frame 6 / 2 ^ 40 % 2 = 0 ∧ ((SMap.find x.ecn.macs (macAt frame 6)).isSome = true ∨ x.ecn.macs.length < 1024) then { x with ecn := { x.ecn with macs := SMap.set x.ecn.macs (macAt frame 6) (port, x.localNow) } } else x) ∧ (z = if igmpQuery frame = true then y.igmpReports port else y) ∧ (z.ringsOn = true) ∧ (etherType frame ≠ 0x88F7) ∧ (w = if z.flag ECN_CTRL.BRIDGE = true ∧ ¬ (0x0180C2000000 ≤ macAt frame 0 ∧ macAt frame 0 ≤ 0x0180C200000F) then z.enqueue (z.ecnRoute (macAt frame 0) (some port)) (x.ecnVlan frame).2 ⟨frame, none, none, false, false, none⟩ else z) ∧ (w.ecnInside (macAt frame 0) = false ∨ w.pdConsumes frame = true) :=
  ⟨((State.reset.put (ECN_STAT.LINK 1) 1).put ECN_CFG.ING_FILT 0), 0, 1, List.replicate 60 2, _, _, _, _, _, rfl, by decide, rfl, by decide, rfl, rfl, by decide, by decide, rfl, by decide⟩
theorem witness_ConsistEthernet_12 : ∃ (s : State) (t : Nat) (port : Nat) (frame : List Byte) (v : State), (v = s.at_ t) ∧ (port < 2) ∧ (v.flag (ECN_STAT.LINK port) = true) ∧ (frame.length ≤ 1518) ∧ (v.flag ECN_CFG.ING_FILT = false) ∧ (v.ecn.macs.length < 1024) ∧ (macAt frame 6 / 2 ^ 40 % 2 = 0) ∧ (v.ringsOn = false) ∧ (igmpQuery frame = false) :=
  ⟨(((State.reset.put (ECN_STAT.LINK 1) 1).put PWR_STAT.STAGE 2).put ECN_CFG.ING_FILT 0), 0, 1, List.replicate 60 2, _, rfl, by decide⟩
theorem witness_ConsistEthernet_13 : ∃ (s : State) (t : Nat) (mac p x : Nat) (v : State), (v = s.at_ t) ∧ (SMap.find v.ecn.macs mac = some (p, x)) ∧ (x + 300000000000 ≤ v.localNow) :=
  ⟨{ State.reset with ecn := { State.reset.ecn with macs := [(7, (1, 0))] }, time := { State.reset.time with edge := 300000000000 } }, 0, 7, 1, 0, _, rfl, by decide⟩
theorem witness_ConsistEthernet_14 : ∃ (s : State) (t : Nat) (mac : Nat) (v : State), (v = s.at_ t) ∧ (∀ x ∈ SMap.find v.ecn.macs mac, v.localNow < x.2 + 300000000000) :=
  ⟨State.reset, 0, 7, _, rfl, by decide⟩
theorem witness_ConsistEthernet_15 : ∃ (s : State) (t : Nat) (who : Initiator) (ring tail : Nat) (v : State), (v = s.at_ t) ∧ (v.acts who = true) ∧ (mayWrite who (blockOf (ECN_RING.TAIL ring).addr) = true) :=
  ⟨up, 0, .s3, 7, 0, _, rfl, by decide⟩
theorem witness_ConsistEthernet_16 : ∃ (s : State) (t : Nat) (who : Initiator) (tail : Nat) (v : State), (v = s.at_ t) ∧ (v.acts who = true) ∧ (tail < 4096) ∧ (mayWrite who (blockOf (ECN_RING.TAIL 8).addr) = true) ∧ (v.unlocked who (blockOf (ECN_RING.TAIL 8).addr) = false) :=
  ⟨up, 0, .s3, 4095, _, rfl, by decide⟩
theorem witness_ConsistEthernet_17 : ∃ (s : State) (t : Nat) (port q : Nat) (v : State), (v = s.at_ t) ∧ (v.goQueue port q = []) :=
  ⟨State.reset, 0, 1, 7, _, rfl, by decide⟩
theorem witness_ConsistEthernet_18 : ∃ (s : State) (t : Nat) (port q : Nat) (f : EFrame) (l : List EFrame) (v : State), (v = s.at_ t) ∧ (v.goQueue port q = f :: l) ∧ ((f.launch ≠ none ∧ v.get (ECN_QCFG.TBASE q) = 1 ∧ v.flag TIME_STAT.CONS_SYNC = false)) :=
  ⟨{ ((State.reset.put (ECN_STAT.LINK 1) 1).put (ECN_QCFG.TBASE 7) 1) with ecn := { State.reset.ecn with queues := [(15, [⟨[1, 2], some 0, none, false, false, none⟩])] } }, 0, 1, 7, ⟨[1, 2], some 0, none, false, false, none⟩, [], _, rfl, by decide⟩
theorem witness_ConsistEthernet_19 : ∃ (s : State) (t : Nat) (port q : Nat) (f : EFrame) (l : List EFrame) (a : Nat) (v : State), (v = s.at_ t) ∧ (v.goQueue port q = f :: l) ∧ (f.launch = some a) ∧ (a + 1000 * v.get (ECN_QCFG.TOL q) < f.atHead.getD (v.queueNow q)) ∧ (v.flag (ECN_QCFG.LATE q) = false) :=
  ⟨{ ((State.reset.put (ECN_STAT.LINK 1) 1).put (ECN_QCFG.TOL 7) 0) with ecn := { State.reset.ecn with queues := [(15, [⟨[1, 2], some 0, none, false, false, none⟩])] }, time := { State.reset.time with edge := 100000 } }, 0, 1, 7, ⟨[1, 2], some 0, none, false, false, none⟩, [], 0, _, rfl, by decide⟩
theorem witness_ConsistEthernet_20 : ∃ (s : State) (t : Nat) (port q : Nat) (f : EFrame) (l : List EFrame) (v : State), (v = s.at_ t) ∧ (v.goQueue port q = f :: l) ∧ (f.launch = none ∨ v.get (ECN_QCFG.TBASE q) ≠ 1 ∨ v.flag TIME_STAT.CONS_SYNC = true) ∧ ((∀ a ∈ f.launch, f.atHead.getD (v.queueNow q) ≤ a + 1000 * v.get (ECN_QCFG.TOL q))) ∧ (v.flag (ECN_STAT.LINK port) = false ∨ v.localNow < SMap.getD v.ecn.busy port 0 ∨ v.eligible port q = false ∨ ∃ k, k < 8 ∧ q < k ∧ v.eligible port k = true) :=
  ⟨{ State.reset with ecn := { State.reset.ecn with queues := [(15, [⟨[1, 2], none, none, false, false, none⟩])] } }, 0, 1, 7, ⟨[1, 2], none, none, false, false, none⟩, [], _, rfl, by decide⟩
theorem witness_ConsistEthernet_21 : ∃ (s : State) (t : Nat) (port q : Nat) (f : EFrame) (l : List EFrame) (v : State), (v = s.at_ t) ∧ (v.goQueue port q = f :: l) ∧ (f.launch = none ∨ v.get (ECN_QCFG.TBASE q) ≠ 1 ∨ v.flag TIME_STAT.CONS_SYNC = true) ∧ ((∀ a ∈ f.launch, f.atHead.getD (v.queueNow q) ≤ a + 1000 * v.get (ECN_QCFG.TOL q))) ∧ (v.flag (ECN_STAT.LINK port) = true) ∧ (SMap.getD v.ecn.busy port 0 ≤ v.localNow) ∧ (v.eligible port q = true) ∧ (∀ k, k < 8 → q < k → v.eligible port k = false) :=
  ⟨{ (State.reset.put (ECN_STAT.LINK 1) 1) with ecn := { State.reset.ecn with queues := [(15, [⟨[1, 2], none, none, false, false, none⟩])] } }, 0, 1, 7, ⟨[1, 2], none, none, false, false, none⟩, [], _, rfl, by decide⟩
theorem witness_ConsistEthernet_22 : ∃ (s : State) (t : Nat) (port q : Nat) (f : EFrame) (l : List EFrame) (a : Nat) (v : State), (v = s.at_ t) ∧ (v.goQueue port q = f :: l) ∧ (f.launch = none ∨ v.get (ECN_QCFG.TBASE q) ≠ 1 ∨ v.flag TIME_STAT.CONS_SYNC = true) ∧ (f.launch = some a) ∧ (a + 1000 * v.get (ECN_QCFG.TOL q) < f.atHead.getD (v.queueNow q)) ∧ (v.flag (ECN_QCFG.LATE q) = true) ∧ (v.flag (ECN_STAT.LINK port) = false ∨ v.localNow < SMap.getD v.ecn.busy port 0 ∨ v.eligible port q = false ∨ ∃ k, k < 8 ∧ q < k ∧ v.eligible port k = true) :=
  ⟨{ (((State.reset.put (ECN_STAT.LINK 1) 0).put (ECN_QCFG.TOL 7) 0).put (ECN_QCFG.LATE 7) 1) with ecn := { State.reset.ecn with queues := [(15, [⟨[1, 2], some 0, none, false, false, none⟩])] }, time := { State.reset.time with edge := 100000 } }, 0, 1, 7, ⟨[1, 2], some 0, none, false, false, none⟩, [], 0, _, rfl, by decide⟩
theorem witness_ConsistEthernet_23 : ∃ (s : State) (t : Nat) (port q : Nat) (f : EFrame) (l : List EFrame) (a : Nat) (v : State), (v = s.at_ t) ∧ (v.goQueue port q = f :: l) ∧ (f.launch = none ∨ v.get (ECN_QCFG.TBASE q) ≠ 1 ∨ v.flag TIME_STAT.CONS_SYNC = true) ∧ (f.launch = some a) ∧ (a + 1000 * v.get (ECN_QCFG.TOL q) < f.atHead.getD (v.queueNow q)) ∧ (v.flag (ECN_QCFG.LATE q) = true) ∧ (v.flag (ECN_STAT.LINK port) = true) ∧ (SMap.getD v.ecn.busy port 0 ≤ v.localNow) ∧ (v.eligible port q = true) ∧ (∀ k, k < 8 → q < k → v.eligible port k = false) :=
  ⟨{ (((State.reset.put (ECN_STAT.LINK 1) 1).put (ECN_QCFG.TOL 7) 0).put (ECN_QCFG.LATE 7) 1) with ecn := { State.reset.ecn with queues := [(15, [⟨[1, 2], some 0, none, false, false, none⟩])] }, time := { State.reset.time with edge := 100000 } }, 0, 1, 7, ⟨[1, 2], some 0, none, false, false, none⟩, [], 0, _, rfl, by decide⟩
theorem witness_ConsistEthernet_24 : ∃ (s : State) (t : Nat) (n : Nat) (v : State), (v = s.at_ t) ∧ (v.pdInstant n = none ∨ v.pdMay n = false) :=
  ⟨State.reset, 0, 511, _, rfl, by decide⟩
theorem witness_ConsistEthernet_25 : ∃ (s : State) (t : Nat) (n next launch : Nat) (v : State), (v = s.at_ t) ∧ (v.pdInstant n = some (next, launch)) ∧ (v.pdMay n = true) ∧ (v.pdSynced n = false) :=
  ⟨(((((State.reset.put ECN_CTRL.PD_EN 1).put (ECN_PD.EN 511) 1).put (ECN_PD.DIR 511) 1).put (ECN_PD.CYCLE 511) 16).put (ECN_PD.TBASE 511) 1), 0, 511, 1, 0, _, rfl, by decide⟩
theorem witness_ConsistEthernet_26 : ∃ (s : State) (t : Nat) (n next launch : Nat) (v : State), (v = s.at_ t) ∧ (v.pdInstant n = some (next, launch)) ∧ (v.pdMay n = true) ∧ (v.pdSynced n = true) :=
  ⟨(((((State.reset.put ECN_CTRL.PD_EN 1).put (ECN_PD.EN 511) 1).put (ECN_PD.DIR 511) 1).put (ECN_PD.CYCLE 511) 16).put (ECN_PD.TBASE 511) 0), 0, 511, 1, 0, _, rfl, by decide⟩
theorem witness_ConsistEthernet_27 : ∃ (s : State) (t : Nat) (comId : Nat) (v : State), (v = s.at_ t) :=
  ⟨State.reset, 0, 0, _, rfl⟩
theorem witness_ConsistEthernet_28 : ∃ (s : State) (n msg : Nat) (launch : Option Nat) (x : State), (s.txPayload 2 n (s.get (ECN_PD.LEN n)) = (none, x)) :=
  ⟨((((State.reset.put (SAFE_S.EN 0) 1).put (SAFE_S.DIR 0) 1).put (SAFE_S.TRANS 0) 1).put (SAFE_S.TIDX 0) 0), 0, 0, none, (((((State.reset.put (SAFE_S.EN 0) 1).put (SAFE_S.DIR 0) 1).put (SAFE_S.TRANS 0) 1).put (SAFE_S.TIDX 0) 0).takeTele 0).2, by decide⟩
theorem witness_ConsistEthernet_29 : ∃ (s : State) (n msg : Nat) (launch : Option Nat) (data : List Byte) (x : State), (n < 512) ∧ (s.txPayload 2 n (s.get (ECN_PD.LEN n)) = (some data, x)) :=
  ⟨(State.reset.put (ECN_PD.LEN 511) 2), 511, 0, none, [0, 0], (State.reset.put (ECN_PD.LEN 511) 2), by decide⟩
theorem witness_ConsistEthernet_30 : ∃ (s : State) (t : Nat) (n src msg comId seq etb optrn major : Nat) (fcs : Bool) (dataset : List Byte) (v : State), (v = s.at_ t) ∧ (v.pdListens = false ∨ v.flag (ECN_PD.EN n) = false ∨ v.flag (ECN_PD.DIR n) = true) :=
  ⟨State.reset, 0, 511, 7, 0x5064, 0, 0xFFFFFFFF, 0, 0, 1, true, [], _, rfl, by decide⟩
theorem witness_ConsistEthernet_31 : ∃ (s : State) (t : Nat) (n src msg comId seq etb optrn major : Nat) (fcs : Bool) (dataset : List Byte) (v : State), (v = s.at_ t) ∧ (v.pdListens = true) ∧ (v.flag (ECN_PD.EN n) = true) ∧ (v.flag (ECN_PD.DIR n) = false) ∧ (fcs = true) ∧ (msg = 0x5064 ∨ msg = 0x5070) ∧ (major = 1) ∧ (comId = v.get (ECN_PD.COMID n)) ∧ (dataset.length = v.get (ECN_PD.LEN n)) ∧ (v.get (ECN_PD.SRC_IP n) = 0 ∨ v.get (ECN_PD.SRC_IP n) = src) ∧ (etb = 0 ∨ etb = v.get ECN_ETB_TOPO.VALUE) ∧ (optrn = 0 ∨ optrn = v.get ECN_OPTRN_TOPO.VALUE) ∧ (SMap.find (v.pdOf n).last src ≠ some seq) :=
  ⟨((((State.reset.put ECN_CTRL.PD_EN 1).put (ECN_PD.EN 511) 1).put (ECN_PD.LEN 511) 2).put SYS_STAT.MODE 1), 0, 511, 7, 0x5064, 0, 0xFFFFFFFF, 0, 0, 1, true, [1, 2], _, rfl, by decide⟩
theorem witness_ConsistEthernet_32 : ∃ (s : State) (t : Nat) (n src msg comId seq etb optrn major : Nat) (fcs : Bool) (dataset : List Byte) (v : State), (v = s.at_ t) ∧ (v.pdListens = true) ∧ (v.flag (ECN_PD.EN n) = true) ∧ (v.flag (ECN_PD.DIR n) = false) ∧ (fcs = true) ∧ (msg = 0x5064 ∨ msg = 0x5070) ∧ (major = 1) ∧ (comId = v.get (ECN_PD.COMID n)) ∧ (dataset.length = v.get (ECN_PD.LEN n)) ∧ (v.get (ECN_PD.SRC_IP n) = 0 ∨ v.get (ECN_PD.SRC_IP n) = src) ∧ (etb = 0 ∨ etb = v.get ECN_ETB_TOPO.VALUE) ∧ (optrn = 0 ∨ optrn = v.get ECN_OPTRN_TOPO.VALUE) ∧ (SMap.find (v.pdOf n).last src ≠ some seq) ∧ (n < 512) ∧ (v.gwEntries = []) :=
  ⟨((((State.reset.put ECN_CTRL.PD_EN 1).put (ECN_PD.EN 511) 1).put (ECN_PD.LEN 511) 2).put SYS_STAT.MODE 1), 0, 511, 7, 0x5064, 0, 0xFFFFFFFF, 0, 0, 1, true, [1, 2], _, rfl, by decide⟩
theorem witness_ConsistEthernet_33 : ∃ (s : State) (t : Nat) (n src msg comId seq etb optrn major : Nat) (fcs : Bool) (dataset : List Byte) (v : State), (v = s.at_ t) ∧ (v.pdListens = true) ∧ (v.flag (ECN_PD.EN n) = true) ∧ (v.flag (ECN_PD.DIR n) = false) ∧ (fcs = false ∨ (msg ≠ 0x5064 ∧ msg ≠ 0x5070) ∨ major ≠ 1 ∨ comId ≠ v.get (ECN_PD.COMID n) ∨ dataset.length ≠ v.get (ECN_PD.LEN n) ∨ (v.get (ECN_PD.SRC_IP n) ≠ 0 ∧ v.get (ECN_PD.SRC_IP n) ≠ src) ∨ (etb ≠ 0 ∧ etb ≠ v.get ECN_ETB_TOPO.VALUE) ∨ (optrn ≠ 0 ∧ optrn ≠ v.get ECN_OPTRN_TOPO.VALUE) ∨ SMap.find (v.pdOf n).last src = some seq) :=
  ⟨((((State.reset.put ECN_CTRL.PD_EN 1).put (ECN_PD.EN 511) 1).put (ECN_PD.LEN 511) 2).put SYS_STAT.MODE 1), 0, 511, 7, 0x5064, 0, 0xFFFFFFFF, 0, 0, 1, true, [1], _, rfl, by decide⟩
theorem witness_ConsistEthernet_34 : ∃ (s : State) (t : Nat) (n : Nat) (v : State), (v = s.at_ t) ∧ (n < 512) ∧ (v.flag (ECN_PD.EN n) = true) ∧ (v.flag (ECN_PD.DIR n) = false) ∧ (v.get (ECN_PDST.STATE n) ≠ 3) ∧ (v.get (ECN_PD.CYCLE n) ≤ (v.pdOf n).ticks) :=
  ⟨((((State.reset.put ECN_CTRL.PD_EN 1).put (ECN_PD.EN 511) 1).put (ECN_PD.LEN 511) 2).put SYS_STAT.MODE 1), 0, 511, _, rfl, by decide⟩
theorem witness_ConsistEthernet_35 : ∃ (s : State) (t : Nat) (n : Nat) (v : State), (v = s.at_ t) ∧ (v.flag (ECN_PD.EN n) = false ∨ v.flag (ECN_PD.DIR n) = true ∨ v.get (ECN_PDST.STATE n) = 3 ∨ (v.pdOf n).ticks < v.get (ECN_PD.CYCLE n)) :=
  ⟨State.reset, 0, 511, _, rfl, by decide⟩
theorem witness_MvbGateway_1 : ∃ (s : State) (t : Nat) (n : Nat) (data : List Byte) (okA okB : Bool) (x y : State) (v : State), (v = s.at_ t) ∧ (v.mvbOn = true) ∧ (x = if okA = true then v.putIf GW_MVB_STAT.LINE_A_OK 1 else (v.putIf GW_MVB_STAT.LINE_A_OK 0).inc GW_MVB_ERRA_CNT) ∧ (y = if okB = true then x.putIf GW_MVB_STAT.LINE_B_OK 1 else (x.putIf GW_MVB_STAT.LINE_B_OK 0).inc GW_MVB_ERRB_CNT) ∧ ((y.flag GW_MVB_STAT.TRUSTED = true → okB = true) ∧ (y.flag GW_MVB_STAT.TRUSTED = false → okA = true) ∧ data.length = y.mvbLen n) ∧ (y.mvbUsed n = true) ∧ (y.flag (GW_MVBP.DIR n) = false) :=
  ⟨((State.reset.put GW_MVB_CFG.EN 1).put (GW_MVBP.EN 255) 1), 0, 255, [1, 2], true, false, _, _, _, rfl, by decide, rfl, rfl, by decide, by decide, by decide⟩
theorem witness_MvbGateway_2 : ∃ (s : State) (t : Nat) (n : Nat) (data : List Byte) (okA okB : Bool) (x y : State) (v : State), (v = s.at_ t) ∧ (v.mvbOn = true) ∧ (x = if okA = true then v.putIf GW_MVB_STAT.LINE_A_OK 1 else (v.putIf GW_MVB_STAT.LINE_A_OK 0).inc GW_MVB_ERRA_CNT) ∧ (y = if okB = true then x.putIf GW_MVB_STAT.LINE_B_OK 1 else (x.putIf GW_MVB_STAT.LINE_B_OK 0).inc GW_MVB_ERRB_CNT) ∧ ((y.flag GW_MVB_STAT.TRUSTED = true ∧ okB = false) ∨ (y.flag GW_MVB_STAT.TRUSTED = false ∧ okA = false) ∨ data.length ≠ y.mvbLen n ∨ y.mvbUsed n = false ∨ y.flag (GW_MVBP.DIR n) = true) :=
  ⟨((State.reset.put GW_MVB_CFG.EN 1).put (GW_MVBP.EN 255) 1), 0, 255, [1], true, true, _, _, _, rfl, by decide, rfl, rfl, by decide⟩
theorem witness_MvbGateway_3 : ∃ (s : State) (t : Nat) (n : Nat) (data : List Byte) (okA okB : Bool) (v : State), (v = s.at_ t) ∧ (v.mvbOn = false) :=
  ⟨State.reset, 0, 0, [], true, true, _, rfl, by decide⟩
theorem witness_MvbGateway_4 : ∃ (s : State) (t : Nat) (n : Nat) (data : List Byte) (v : State), (v = s.at_ t) ∧ (n < 256) ∧ (v.mvbOn = true) ∧ (v.flag GW_MVB_STAT.TRUSTED = false) ∧ (data.length = v.mvbLen n) ∧ (v.mvbUsed n = true) ∧ (v.flag (GW_MVBP.DIR n) = false) ∧ (v.gwEntries = []) :=
  ⟨((State.reset.put GW_MVB_CFG.EN 1).put (GW_MVBP.EN 255) 1), 0, 255, [1, 2], _, rfl, by decide⟩
theorem witness_MvbGateway_5 : ∃ (s : State) (t : Nat) (n : Nat) (data : List Byte) (v : State), (v = s.at_ t) ∧ (v.mvbOn = true) :=
  ⟨((State.reset.put GW_MVB_CFG.EN 1).put (GW_MVBP.EN 255) 1), 0, 255, [1, 2], _, rfl, by decide⟩
theorem witness_MvbGateway_6 : ∃ (s : State) (t : Nat) (n : Nat) (v : State), (v = s.at_ t) ∧ (v.mvbOn = true) ∧ (v.mvbUsed n = true) ∧ (v.flag (GW_MVBP.DIR n) = true) ∧ (v.flag (GW_MVBP.PAIR n) = false ∨ v.claiming = true) ∧ (v.safeTxOn 2 n = none) :=
  ⟨(((State.reset.put GW_MVB_CFG.EN 1).put (GW_MVBP.EN 255) 1).put (GW_MVBP.DIR 255) 1), 0, 255, _, rfl, by decide⟩
theorem witness_MvbGateway_7 : ∃ (s : State) (t : Nat) (n k : Nat) (bs : List Byte) (v : State), (v = s.at_ t) ∧ (v.mvbOn = true) ∧ (v.mvbUsed n = true) ∧ (v.flag (GW_MVBP.DIR n) = true) ∧ (v.flag (GW_MVBP.PAIR n) = false ∨ v.claiming = true) ∧ (v.safeTxOn 2 n = some k) ∧ ((v.takeTele k).1 = some bs) :=
  ⟨{ ((((((((State.reset.put GW_MVB_CFG.EN 1).put (GW_MVBP.EN 255) 1).put (GW_MVBP.DIR 255) 1).put (SAFE_S.EN 127) 1).put (SAFE_S.DIR 127) 1).put (SAFE_S.TRANS 127) 2).put (SAFE_S.TIDX 127) 255) : State) with safe := { State.reset.safe with sess := [(127, { Sess.init with tele := some [7] })] } }, 0, 255, 127, [7], _, rfl, by decide⟩
theorem witness_MvbGateway_8 : ∃ (s : State) (t : Nat) (n k : Nat) (v : State), (v = s.at_ t) ∧ (v.mvbOn = true) ∧ (v.mvbUsed n = true) ∧ (v.flag (GW_MVBP.DIR n) = true) ∧ (v.flag (GW_MVBP.PAIR n) = false ∨ v.claiming = true) ∧ (v.safeTxOn 2 n = some k) ∧ ((v.takeTele k).1 = none) :=
  ⟨(((((((State.reset.put GW_MVB_CFG.EN 1).put (GW_MVBP.EN 255) 1).put (GW_MVBP.DIR 255) 1).put (SAFE_S.EN 127) 1).put (SAFE_S.DIR 127) 1).put (SAFE_S.TRANS 127) 2).put (SAFE_S.TIDX 127) 255), 0, 255, 127, _, rfl, by decide⟩
theorem witness_MvbGateway_9 : ∃ (s : State) (t : Nat) (n : Nat) (v : State), (v = s.at_ t) ∧ (v.mvbOn = false ∨ v.mvbUsed n = false ∨ v.flag (GW_MVBP.DIR n) = false ∨ (v.flag (GW_MVBP.PAIR n) = true ∧ v.claiming = false)) :=
  ⟨State.reset, 0, 255, _, rfl, by decide⟩
theorem witness_MvbGateway_10 : ∃ (s : State) (t : Nat) (v : State), (v = s.at_ t) ∧ (v.mvbOn = true) :=
  ⟨((State.reset.put GW_MVB_CFG.EN 1).put (GW_MVBP.EN 255) 1), 0, _, rfl, by decide⟩
theorem witness_MvbGateway_11 : ∃ (s : State) (t : Nat) (v : State), (v = s.at_ t) ∧ (v.mvbOn = false) :=
  ⟨State.reset, 0, _, rfl, by decide⟩
theorem witness_MvbGateway_12 : ∃ (s : State) (n : Nat), (n < 256) ∧ (s.mvbUsed n = true) ∧ (s.flag (GW_MVBP.DIR n) = false) ∧ (s.flag (GW_MVBS.STALE n) = false) ∧ (s.mvbOld n = true) :=
  ⟨{ (((State.reset.put GW_MVB_CFG.EN 1).put (GW_MVBP.EN 255) 1).put (GW_MVBS.STALE 255) 0) with time := { State.reset.time with edge := 100000000000 } }, 255, by decide⟩
theorem witness_MvbGateway_13 : ∃ (s : State) (n : Nat), (s.mvbUsed n = false ∨ s.flag (GW_MVBP.DIR n) = true ∨ s.flag (GW_MVBS.STALE n) = true ∨ s.mvbOld n = false) :=
  ⟨State.reset, 255, by decide⟩
theorem witness_MvbGateway_14 : ∃ (s : State) (toB : Bool), (s.mvbOn = true) ∧ (s.flag GW_MVB_STAT.TRUSTED = !toB) :=
  ⟨((State.reset.put GW_MVB_CFG.EN 1).put (GW_MVBP.EN 255) 1), true, by decide⟩
theorem witness_MvbGateway_15 : ∃ (s : State) (toB : Bool), (s.mvbOn = false ∨ s.flag GW_MVB_STAT.TRUSTED = toB) :=
  ⟨State.reset, true, by decide⟩
theorem witness_MvbGateway_16 : ∃ (s : State) (t : Nat) (who : Initiator) (bank : Bool) (v : State), (v = s.at_ t) ∧ (v.acts who = true) ∧ (mayWrite who (blockOf GW_MAP_SWAP.BANK.addr) = true) :=
  ⟨up, 0, .s0, true, _, rfl, by decide⟩
theorem witness_MvbGateway_17 : ∃ (s : State) (t : Nat) (who : Initiator) (bank : Bool) (v : State), (v = s.at_ t) ∧ (v.acts who = true) ∧ (mayWrite who (blockOf GW_MAP_SWAP.BANK.addr) = true) ∧ (v.unlocked who (blockOf GW_MAP_SWAP.BANK.addr) = false) :=
  ⟨up, 0, .s0, true, _, rfl, by decide⟩
theorem witness_MvbGateway_18 : ∃ (s : State) (t : Nat) (bad : List Nat) (v : State), (v = s.at_ t) ∧ (v.gw.scan = true) ∧ (bad = (v.gwListed (v.get GW_MAP_STAT.ACTIVE)).filter (fun e => (v.gwEntry (v.get GW_MAP_STAT.ACTIVE) e).used && !v.gwOk (v.gwEntry (v.get GW_MAP_STAT.ACTIVE) e))) :=
  ⟨{ State.reset with gw := { State.reset.gw with scan := true } }, 0, [], _, rfl, by decide⟩
theorem witness_MvbGateway_19 : ∃ (s : State) (t : Nat) (v : State), (v = s.at_ t) ∧ (v.gw.scan = false) :=
  ⟨State.reset, 0, _, rfl, by decide⟩
theorem witness_MvbGateway_20 : ∃ (s : State) (t : Nat) (e : Nat) (x : GwEntry) (v : State), (v = s.at_ t) ∧ (v.gwEntries.find? (fun p => p.1 == e) = some (e, x)) ∧ (v.gwStaleNow x = true) ∧ (e ∉ v.gw.stale) :=
  ⟨((State.reset.store (gwAddr 0 7) 4 0x00000004).put CYC_IMG.OUT_LEN 8), 0, 7, (State.gwEntry ((State.reset.store (gwAddr 0 7) 4 0x00000004).put CYC_IMG.OUT_LEN 8) 0 7), _, rfl, by decide⟩
theorem witness_MvbGateway_21 : ∃ (s : State) (t : Nat) (e : Nat) (x : GwEntry) (v : State), (v = s.at_ t) ∧ (v.gwEntries.find? (fun p => p.1 == e) = some (e, x)) ∧ (v.gwStaleNow x = false) ∧ (e ∈ v.gw.stale) :=
  ⟨{ (({ (((State.reset.store (gwAddr 0 7) 4 0x00000004).put CYC_IMG.OUT_LEN 8) : State) with gw := { State.reset.gw with stale := [7] } }).put CYC_STAT.KICK 0) with cyc := { State.reset.cyc with last := some ⟨0, 0, 0⟩ } }, 0, 7, (State.gwEntry ((State.reset.store (gwAddr 0 7) 4 0x00000004).put CYC_IMG.OUT_LEN 8) 0 7), _, rfl, by decide⟩
theorem witness_MvbGateway_22 : ∃ (s : State) (t : Nat) (e : Nat) (x : GwEntry) (v : State), (v = s.at_ t) ∧ (v.gwEntries.find? (fun p => p.1 == e) = some (e, x)) ∧ (v.gwStaleNow x = true ↔ e ∈ v.gw.stale) :=
  ⟨({ (((State.reset.store (gwAddr 0 7) 4 0x00000004).put CYC_IMG.OUT_LEN 8) : State) with gw := { State.reset.gw with stale := [7] } }), 0, 7, (State.gwEntry ((State.reset.store (gwAddr 0 7) 4 0x00000004).put CYC_IMG.OUT_LEN 8) 0 7), _, rfl, by decide⟩
theorem witness_MvbGateway_23 : ∃ (s : State) (t : Nat) (e : Nat) (v : State), (v = s.at_ t) ∧ (v.gwEntries.find? (fun p => p.1 == e) = none) :=
  ⟨State.reset, 0, 7, _, rfl, by decide⟩
theorem witness_MvbGateway_24 : ∃ (s : State), (s.flag GW_MAP_STAT.SWAP_PEND = true) ∧ (s.get GW_MAP_STAT.ACTIVE ≠ s.gw.swapTo) ∧ (s.gw.swapTo < 2) :=
  ⟨{ (State.reset.put GW_MAP_STAT.SWAP_PEND 1) with gw := { State.reset.gw with swapTo := 1 } }, by decide⟩
theorem witness_MvbGateway_25 : ∃ (s : State), (s.flag GW_MAP_STAT.SWAP_PEND = true) ∧ (s.get GW_MAP_STAT.ACTIVE = s.gw.swapTo) :=
  ⟨(State.reset.put GW_MAP_STAT.SWAP_PEND 1), by decide⟩
theorem witness_MotionCommands_1 : ∃ (s : State) (t : Nat) (slot : Nat) (v : State), (v = s.at_ t) ∧ (v.slotDue slot 1 = false) :=
  ⟨State.reset, 0, 0, _, rfl, by decide⟩
theorem witness_MotionCommands_2 : ∃ (s : State) (t : Nat) (slot : Nat) (v : State), (v = s.at_ t) ∧ (v.slotDue slot 2 = false) :=
  ⟨State.reset, 0, 0, _, rfl, by decide⟩
theorem witness_MotionCommands_3 : ∃ (s : State) (t : Nat) (slot : Nat) (v : State), (v = s.at_ t) ∧ (v.slotDue slot 3 = false) :=
  ⟨State.reset, 0, 0, _, rfl, by decide⟩
theorem witness_MotionCommands_4 : ∃ (s : State) (t : Nat) (slot : Nat) (v : State), (v = s.at_ t) ∧ (v.slotDue slot 4 = false) :=
  ⟨State.reset, 0, 0, _, rfl, by decide⟩
theorem witness_MotionCommands_5 : ∃ (s : State) (t : Nat) (slot : Nat) (v : State), (v = s.at_ t) ∧ (v.slotDue slot 5 = false) :=
  ⟨State.reset, 0, 0, _, rfl, by decide⟩
theorem witness_MotionCommands_6 : ∃ (s : State) (t : Nat) (slot : Nat) (v : State), (v = s.at_ t) ∧ (v.slotDue slot 6 = false) :=
  ⟨State.reset, 0, 0, _, rfl, by decide⟩
theorem witness_MotionCommands_7 : ∃ (s : State) (t : Nat) (slot : Nat) (v : State), (v = s.at_ t) ∧ (v.slotDue slot 7 = false) :=
  ⟨State.reset, 0, 0, _, rfl, by decide⟩
theorem witness_MotionCommands_8 : ∃ (s : State) (t : Nat) (slot : Nat) (v : State), (v = s.at_ t) ∧ (v.slotDue slot 8 = false) :=
  ⟨State.reset, 0, 0, _, rfl, by decide⟩
theorem witness_MotionCommands_9 : ∃ (s : State) (t : Nat) (slot : Nat) (v : State), (v = s.at_ t) ∧ (slot < 16) ∧ (v.slotDue slot 1 = true) ∧ (v.directOk (v.slotOf slot).index = true) ∧ ((v.mx (v.slotOf slot).index).queue.length < 8) ∧ (v.limitRefuses (v.slotOf slot).index (v.queueEnd (v.slotOf slot).index) (v.slotOf slot).target = false) :=
  ⟨{ ((((((State.reset.put (AX_CFG.KIND 95) 1).put SYS_STAT.MODE 1).put CYC_STILL.KIND 1).put CYC_STILL.POL 1).put (MOT_AS.DIRECT 95) 1) : State) with door := { State.reset.door with kick := false, passed := true, slots := [7, 1, 95, 0, 0, 1, 0, 0] ++ List.replicate 248 0 } }, 0, 0, _, rfl, by decide⟩
theorem witness_MotionCommands_10 : ∃ (s : State) (t : Nat) (slot : Nat) (v : State), (v = s.at_ t) ∧ (slot < 16) ∧ (v.slotDue slot 1 = true) ∧ (v.directOk (v.slotOf slot).index = true) ∧ (8 ≤ (v.mx (v.slotOf slot).index).queue.length) :=
  ⟨{ ((((((State.reset.put (AX_CFG.KIND 95) 1).put SYS_STAT.MODE 1).put CYC_STILL.KIND 1).put CYC_STILL.POL 1).put (MOT_AS.DIRECT 95) 1) : State) with door := { State.reset.door with kick := false, passed := true, slots := [7, 1, 95, 0, 0, 1, 0, 0] ++ List.replicate 248 0, mot := [(95, { MAxis.init with queue := List.replicate 8 ⟨0, 0, false⟩ })] } }, 0, 0, _, rfl, by decide⟩
theorem witness_MotionCommands_11 : ∃ (s : State) (t : Nat) (slot : Nat) (v : State), (v = s.at_ t) ∧ (slot < 16) ∧ (v.slotDue slot 1 = true) ∧ (v.directOk (v.slotOf slot).index = false) :=
  ⟨{ (State.reset : State) with door := { State.reset.door with kick := false, passed := true, slots := [7, 1, 95, 0, 0, 1, 0, 0] ++ List.replicate 248 0 } }, 0, 0, _, rfl, by decide⟩
theorem witness_MotionCommands_12 : ∃ (s : State) (t : Nat) (slot : Nat) (v : State), (v = s.at_ t) ∧ (slot < 16) ∧ (v.slotDue slot 1 = true) ∧ (v.directOk (v.slotOf slot).index = true) ∧ ((v.mx (v.slotOf slot).index).queue.length < 8) ∧ (v.limitRefuses (v.slotOf slot).index (v.queueEnd (v.slotOf slot).index) (v.slotOf slot).target = true) :=
  ⟨{ (((((((State.reset.put (AX_CFG.KIND 95) 1).put SYS_STAT.MODE 1).put CYC_STILL.KIND 1).put CYC_STILL.POL 1).put (MOT_AS.DIRECT 95) 1).put (MOT_AS.LIMIT 95) 1) : State) with door := { State.reset.door with kick := false, passed := true, slots := [7, 1, 95, 0, 0, 1, 0, 0] ++ List.replicate 248 0, mot := [(95, { MAxis.init with limDir := 1 })] } }, 0, 0, _, rfl, by decide⟩
theorem witness_MotionCommands_13 : ∃ (s : State) (t : Nat) (slot : Nat) (v : State), (v = s.at_ t) ∧ (slot < 16) ∧ (v.slotDue slot 2 = true) ∧ (v.directOk (v.slotOf slot).index = false) :=
  ⟨{ (State.reset : State) with door := { State.reset.door with kick := false, passed := true, slots := [7, 2, 95, 0, 0, 1, 0, 0] ++ List.replicate 248 0 } }, 0, 0, _, rfl, by decide⟩
theorem witness_MotionCommands_14 : ∃ (s : State) (t : Nat) (slot : Nat) (v : State), (v = s.at_ t) ∧ (slot < 16) ∧ (v.slotDue slot 2 = true) ∧ (v.directOk (v.slotOf slot).index = true) ∧ (v.limitRefuses (v.slotOf slot).index ((v.mx (v.slotOf slot).index).st.p) (v.slotOf slot).target = true) :=
  ⟨{ (((((((State.reset.put (AX_CFG.KIND 95) 1).put SYS_STAT.MODE 1).put CYC_STILL.KIND 1).put CYC_STILL.POL 1).put (MOT_AS.DIRECT 95) 1).put (MOT_AS.LIMIT 95) 1) : State) with door := { State.reset.door with kick := false, passed := true, slots := [7, 2, 95, 0, 0, 1, 0, 0] ++ List.replicate 248 0, mot := [(95, { MAxis.init with limDir := 1 })] } }, 0, 0, _, rfl, by decide⟩
theorem witness_MotionCommands_15 : ∃ (s : State) (t : Nat) (slot n : Nat) (x : State) (m : Move) (v : State), (v = s.at_ t) ∧ (slot < 16) ∧ (v.slotDue slot 2 = true) ∧ (n = (v.slotOf slot).index) ∧ (v.directOk n = true) ∧ (v.limitRefuses n (v.mx n).st.p (v.slotOf slot).target = false) ∧ (x = (v.clampMove n ⟨(v.slotOf slot).target, (v.slotOf slot).set, (v.slotOf slot).group⟩).1) ∧ (m = (v.clampMove n ⟨(v.slotOf slot).target, (v.slotOf slot).set, (v.slotOf slot).group⟩).2) ∧ (m.group = false) :=
  ⟨{ ((((((State.reset.put (AX_CFG.KIND 95) 1).put SYS_STAT.MODE 1).put CYC_STILL.KIND 1).put CYC_STILL.POL 1).put (MOT_AS.DIRECT 95) 1) : State) with door := { State.reset.door with kick := false, passed := true, slots := [7, 2, 95, 0, 0, 1, 0, 0] ++ List.replicate 248 0 } }, 0, 0, 95, ({ ((((((State.reset.put (AX_CFG.KIND 95) 1).put SYS_STAT.MODE 1).put CYC_STILL.KIND 1).put CYC_STILL.POL 1).put (MOT_AS.DIRECT 95) 1) : State) with door := { State.reset.door with kick := false, passed := true, slots := [7, 2, 95, 0, 0, 1, 0, 0] ++ List.replicate 248 0 } } : State).at_ 0 |>.clampMove 95 ⟨256, 0, false⟩ |>.1, ((({ ((((((State.reset.put (AX_CFG.KIND 95) 1).put SYS_STAT.MODE 1).put CYC_STILL.KIND 1).put CYC_STILL.POL 1).put (MOT_AS.DIRECT 95) 1) : State) with door := { State.reset.door with kick := false, passed := true, slots := [7, 2, 95, 0, 0, 1, 0, 0] ++ List.replicate 248 0 } } : State).at_ 0).clampMove 95 ⟨256, 0, false⟩).2, _, rfl, by decide⟩
theorem witness_MotionCommands_16 : ∃ (s : State) (t : Nat) (slot n : Nat) (x : State) (m : Move) (v : State), (v = s.at_ t) ∧ (slot < 16) ∧ (v.slotDue slot 2 = true) ∧ (n = (v.slotOf slot).index) ∧ (v.directOk n = true) ∧ (v.limitRefuses n (v.mx n).st.p (v.slotOf slot).target = false) ∧ (x = (v.clampMove n ⟨(v.slotOf slot).target, (v.slotOf slot).set, (v.slotOf slot).group⟩).1) ∧ (m = (v.clampMove n ⟨(v.slotOf slot).target, (v.slotOf slot).set, (v.slotOf slot).group⟩).2) ∧ (m.group = true) ∧ ((x.mx n).st.moving = false) :=
  ⟨{ ((((((State.reset.put (AX_CFG.KIND 95) 1).put SYS_STAT.MODE 1).put CYC_STILL.KIND 1).put CYC_STILL.POL 1).put (MOT_AS.DIRECT 95) 1) : State) with door := { State.reset.door with kick := false, passed := true, slots := [7, 2, 95, 16, 0, 1, 0, 0] ++ List.replicate 248 0 } }, 0, 0, 95, ({ ((((((State.reset.put (AX_CFG.KIND 95) 1).put SYS_STAT.MODE 1).put CYC_STILL.KIND 1).put CYC_STILL.POL 1).put (MOT_AS.DIRECT 95) 1) : State) with door := { State.reset.door with kick := false, passed := true, slots := [7, 2, 95, 16, 0, 1, 0, 0] ++ List.replicate 248 0 } } : State).at_ 0 |>.clampMove 95 ⟨256, 0, true⟩ |>.1, ((({ ((((((State.reset.put (AX_CFG.KIND 95) 1).put SYS_STAT.MODE 1).put CYC_STILL.KIND 1).put CYC_STILL.POL 1).put (MOT_AS.DIRECT 95) 1) : State) with door := { State.reset.door with kick := false, passed := true, slots := [7, 2, 95, 16, 0, 1, 0, 0] ++ List.replicate 248 0 } } : State).at_ 0).clampMove 95 ⟨256, 0, true⟩).2, _, rfl, by decide⟩
theorem witness_MotionCommands_17 : ∃ (s : State) (t : Nat) (slot n : Nat) (x : State) (m : Move) (v : State), (v = s.at_ t) ∧ (slot < 16) ∧ (v.slotDue slot 2 = true) ∧ (n = (v.slotOf slot).index) ∧ (v.directOk n = true) ∧ (v.limitRefuses n (v.mx n).st.p (v.slotOf slot).target = false) ∧ (x = (v.clampMove n ⟨(v.slotOf slot).target, (v.slotOf slot).set, (v.slotOf slot).group⟩).1) ∧ (m = (v.clampMove n ⟨(v.slotOf slot).target, (v.slotOf slot).set, (v.slotOf slot).group⟩).2) ∧ (m.group = true) ∧ ((x.mx n).st.moving = true) ∧ (needsStop (x.mx n).st (m.target * pScale) (x.limOf n m.set) = false) :=
  ⟨{ ((((((State.reset.put (AX_CFG.KIND 95) 1).put SYS_STAT.MODE 1).put CYC_STILL.KIND 1).put CYC_STILL.POL 1).put (MOT_AS.DIRECT 95) 1) : State) with door := { State.reset.door with kick := false, passed := true, slots := [7, 2, 95, 16, 0, 1, 0, 0] ++ List.replicate 248 0, mot := [(95, { MAxis.init with st := ⟨0, 1, 0⟩ })] } }, 0, 0, 95, ({ ((((((State.reset.put (AX_CFG.KIND 95) 1).put SYS_STAT.MODE 1).put CYC_STILL.KIND 1).put CYC_STILL.POL 1).put (MOT_AS.DIRECT 95) 1) : State) with door := { State.reset.door with kick := false, passed := true, slots := [7, 2, 95, 16, 0, 1, 0, 0] ++ List.replicate 248 0, mot := [(95, { MAxis.init with st := ⟨0, 1, 0⟩ })] } } : State).at_ 0 |>.clampMove 95 ⟨256, 0, true⟩ |>.1, ((({ ((((((State.reset.put (AX_CFG.KIND 95) 1).put SYS_STAT.MODE 1).put CYC_STILL.KIND 1).put CYC_STILL.POL 1).put (MOT_AS.DIRECT 95) 1) : State) with door := { State.reset.door with kick := false, passed := true, slots := [7, 2, 95, 16, 0, 1, 0, 0] ++ List.replicate 248 0, mot := [(95, { MAxis.init with st := ⟨0, 1, 0⟩ })] } } : State).at_ 0).clampMove 95 ⟨256, 0, true⟩).2, _, rfl, by decide⟩
theorem witness_MotionCommands_18 : ∃ (s : State) (t : Nat) (slot n : Nat) (x y : State) (m : Move) (v : State), (v = s.at_ t) ∧ (slot < 16) ∧ (v.slotDue slot 2 = true) ∧ (n = (v.slotOf slot).index) ∧ (v.directOk n = true) ∧ (v.limitRefuses n (v.mx n).st.p (v.slotOf slot).target = false) ∧ (x = (v.clampMove n ⟨(v.slotOf slot).target, (v.slotOf slot).set, (v.slotOf slot).group⟩).1) ∧ (m = (v.clampMove n ⟨(v.slotOf slot).target, (v.slotOf slot).set, (v.slotOf slot).group⟩).2) ∧ (m.group = true) ∧ ((x.mx n).st.moving = true) ∧ (needsStop (x.mx n).st (m.target * pScale) (x.limOf n m.set) = true) ∧ (y = (x.inc MOT_REV_CNT).accWindow n) :=
  ⟨{ ((((((State.reset.put (AX_CFG.KIND 95) 1).put SYS_STAT.MODE 1).put CYC_STILL.KIND 1).put CYC_STILL.POL 1).put (MOT_AS.DIRECT 95) 1) : State) with door := { State.reset.door with kick := false, passed := true, slots := [7, 2, 95, 16, 0, 1, 0, 0] ++ List.replicate 248 0, mot := [(95, { MAxis.init with st := ⟨0, -1000000000000000000000, 0⟩ })] } }, 0, 0, 95, _, _, _, _, rfl, by decide, by decide, by decide, by decide, by decide, rfl, rfl, by decide, by decide, by decide, rfl⟩
theorem witness_MotionCommands_19 : ∃ (s : State) (t : Nat) (slot : Nat) (v : State), (v = s.at_ t) ∧ (slot < 16) ∧ (v.slotDue slot 3 = true) ∧ (16 ≤ (v.slotOf slot).index ∨ v.groupOk (v.slotOf slot).index = false) :=
  ⟨{ (State.reset : State) with door := { State.reset.door with kick := false, passed := true, slots := [7, 3, 95, 0, 0, 1, 0, 0] ++ List.replicate 248 0 } }, 0, 0, _, rfl, by decide⟩
theorem witness_MotionCommands_20 : ∃ (s : State) (t : Nat) (slot : Nat) (v : State), (v = s.at_ t) ∧ (slot < 16) ∧ (v.slotDue slot 4 = true) ∧ (16 ≤ (v.slotOf slot).index ∨ v.groupOk (v.slotOf slot).index = false) :=
  ⟨{ (State.reset : State) with door := { State.reset.door with kick := false, passed := true, slots := [7, 4, 95, 0, 0, 1, 0, 0] ++ List.replicate 248 0 } }, 0, 0, _, rfl, by decide⟩
theorem witness_MotionCommands_21 : ∃ (s : State) (t : Nat) (slot g : Nat) (v : State), (v = s.at_ t) ∧ (slot < 16) ∧ (v.slotDue slot 3 = true) ∧ (g = (v.slotOf slot).index) ∧ (g < 16) ∧ (v.groupOk g = true) :=
  ⟨{ (((((((State.reset.put (AX_CFG.KIND 95) 1).put SYS_STAT.MODE 1).put CYC_STILL.KIND 1).put CYC_STILL.POL 1).put (MOT_AS.DIRECT 95) 1).put (MOT_AX_STILL.MGRP 95) 15) : State) with door := { State.reset.door with kick := false, passed := true, slots := [7, 3, 15, 0, 0, 1, 0, 0] ++ List.replicate 248 0, mot := [(95, { MAxis.init with queue := [⟨5, 0, true⟩] })] } }, 0, 0, 15, _, rfl, by decide⟩
theorem witness_MotionCommands_22 : ∃ (s : State) (t : Nat) (slot g lead : Nat) (segs : List Seg) (slow : Bool) (v : State), (v = s.at_ t) ∧ (slot < 16) ∧ (v.slotDue slot 4 = true) ∧ (g = (v.slotOf slot).index) ∧ (g < 16) ∧ (v.groupOk g = true) ∧ (lead = (v.groupAxes g).foldl (fun a n => if (v.headDist a).natAbs < (v.headDist n).natAbs then n else a) ((v.groupAxes g).headD 0)) ∧ (v.leadSegs (v.groupAxes g) lead = (segs, slow)) :=
  ⟨{ (((((((State.reset.put (AX_CFG.KIND 95) 1).put SYS_STAT.MODE 1).put CYC_STILL.KIND 1).put CYC_STILL.POL 1).put (MOT_AS.DIRECT 95) 1).put (MOT_AX_STILL.MGRP 95) 15) : State) with door := { State.reset.door with kick := false, passed := true, slots := [7, 4, 15, 0, 0, 1, 0, 0] ++ List.replicate 248 0, mot := [(95, { MAxis.init with queue := [⟨0, 0, true⟩] })] } }, 0, 0, 15, 95, [⟨10000000, 0⟩, ⟨0, 0⟩, ⟨-10000000, 0⟩, ⟨0, 0⟩, ⟨0, 0⟩, ⟨10000000, 0⟩, ⟨0, 0⟩, ⟨-10000000, 0⟩, ⟨0, 0⟩], false, _, rfl, by decide +kernel⟩
theorem witness_MotionCommands_23 : ∃ (s : State) (t : Nat) (slot n : Nat) (v : State), (v = s.at_ t) ∧ (slot < 16) ∧ (v.slotDue slot 5 = true) ∧ (n = (v.slotOf slot).index) ∧ (v.slotFree n = true) ∧ (v.get SYS_STAT.MODE = 1 ∨ v.get SYS_STAT.MODE = 3) ∧ (v.still = true) ∧ (v.flag (MOT_AS.HOMED n) = false) ∧ (v.homing n = false) ∧ (v.homeLane n = true) ∧ (v.dst n ≠ 7) ∧ (v.dst n ≠ 8) :=
  ⟨{ ((((((State.reset.put (AX_CFG.KIND 95) 1).put SYS_STAT.MODE 1).put CYC_STILL.KIND 1).put CYC_STILL.POL 1).put TIME_STAT.LANE_SYNC 1) : State) with door := { State.reset.door with kick := false, passed := true, slots := [7, 5, 95, 0, 0, 1, 0, 0] ++ List.replicate 248 0 } }, 0, 0, 95, _, rfl, by decide⟩
theorem witness_MotionCommands_24 : ∃ (s : State) (t : Nat) (slot n : Nat) (v : State), (v = s.at_ t) ∧ (slot < 16) ∧ (v.slotDue slot 5 = true) ∧ (n = (v.slotOf slot).index) ∧ (¬ (v.slotFree n = true ∧ (v.get SYS_STAT.MODE = 1 ∨ v.get SYS_STAT.MODE = 3) ∧ v.still = true ∧ v.flag (MOT_AS.HOMED n) = false ∧ v.homing n = false ∧ v.homeLane n = true ∧ v.dst n ≠ 7 ∧ v.dst n ≠ 8)) :=
  ⟨{ (State.reset : State) with door := { State.reset.door with kick := false, passed := true, slots := [7, 5, 95, 0, 0, 1, 0, 0] ++ List.replicate 248 0 } }, 0, 0, 95, _, rfl, by decide⟩
theorem witness_MotionCommands_25 : ∃ (s : State) (t : Nat) (slot n : Nat) (v : State), (v = s.at_ t) ∧ (slot < 16) ∧ (v.slotDue slot 6 = true) ∧ (n = (v.slotOf slot).index) ∧ (v.slotFree n = true) ∧ (v.flag (MOT_AS.DIRECT n) = true) :=
  ⟨{ ((((((State.reset.put (AX_CFG.KIND 95) 1).put SYS_STAT.MODE 1).put CYC_STILL.KIND 1).put CYC_STILL.POL 1).put (MOT_AS.DIRECT 95) 1) : State) with door := { State.reset.door with kick := false, passed := true, slots := [7, 6, 95, 0, 0, 1, 0, 0] ++ List.replicate 248 0 } }, 0, 0, 95, _, rfl, by decide⟩
theorem witness_MotionCommands_26 : ∃ (s : State) (t : Nat) (slot n : Nat) (v : State), (v = s.at_ t) ∧ (slot < 16) ∧ (v.slotDue slot 6 = true) ∧ (n = (v.slotOf slot).index) ∧ (¬ (v.slotFree n = true ∧ v.flag (MOT_AS.DIRECT n) = true)) :=
  ⟨{ (State.reset : State) with door := { State.reset.door with kick := false, passed := true, slots := [7, 6, 95, 0, 0, 1, 0, 0] ++ List.replicate 248 0 } }, 0, 0, 95, _, rfl, by decide⟩
theorem witness_MotionCommands_27 : ∃ (s : State) (t : Nat) (slot n : Nat) (v : State), (v = s.at_ t) ∧ (slot < 16) ∧ (v.slotDue slot 7 = true) ∧ (n = (v.slotOf slot).index) ∧ (v.slotFree n = true) ∧ (v.get SYS_STAT.MODE = 1) ∧ (v.still = true) ∧ (v.flag (MOT_AS.HOMED n) = true) ∧ ((v.mx n).st.moving = false) ∧ ((v.mx n).legs = []) ∧ (v.dst n = 1 ∨ v.dst n = 3 ∨ v.dst n = 4 ∨ v.dst n = 6 ∨ v.dst n = 9) :=
  ⟨{ (((((((State.reset.put (AX_CFG.KIND 95) 1).put SYS_STAT.MODE 1).put CYC_STILL.KIND 1).put CYC_STILL.POL 1).put (MOT_AS.HOMED 95) 1).put (DOOR_AS.STATE 95) 3) : State) with door := { State.reset.door with kick := false, passed := true, slots := [7, 7, 95, 0, 0, 1, 0, 0] ++ List.replicate 248 0 } }, 0, 0, 95, _, rfl, by decide⟩
theorem witness_MotionCommands_28 : ∃ (s : State) (t : Nat) (slot n : Nat) (v : State), (v = s.at_ t) ∧ (slot < 16) ∧ (v.slotDue slot 7 = true) ∧ (n = (v.slotOf slot).index) ∧ (¬ (v.slotFree n = true ∧ v.get SYS_STAT.MODE = 1 ∧ v.still = true ∧ v.flag (MOT_AS.HOMED n) = true ∧ (v.mx n).st.moving = false ∧ (v.mx n).legs = [] ∧ (v.dst n = 1 ∨ v.dst n = 3 ∨ v.dst n = 4 ∨ v.dst n = 6 ∨ v.dst n = 9))) :=
  ⟨{ (State.reset : State) with door := { State.reset.door with kick := false, passed := true, slots := [7, 7, 95, 0, 0, 1, 0, 0] ++ List.replicate 248 0 } }, 0, 0, 95, _, rfl, by decide⟩
theorem witness_MotionCommands_29 : ∃ (s : State) (t : Nat) (slot n : Nat) (v : State), (v = s.at_ t) ∧ (slot < 16) ∧ (v.slotDue slot 8 = true) ∧ (n = (v.slotOf slot).index) ∧ (v.slotFree n = true) ∧ (v.flag (MOT_AS.DIRECT n) = true) ∧ ((v.mx n).st.moving = false) :=
  ⟨{ ((((((State.reset.put (AX_CFG.KIND 95) 1).put SYS_STAT.MODE 1).put CYC_STILL.KIND 1).put CYC_STILL.POL 1).put (MOT_AS.DIRECT 95) 1) : State) with door := { State.reset.door with kick := false, passed := true, slots := [7, 8, 95, 0, 0, 1, 0, 0] ++ List.replicate 248 0 } }, 0, 0, 95, _, rfl, by decide⟩
theorem witness_MotionCommands_30 : ∃ (s : State) (t : Nat) (slot n : Nat) (v : State), (v = s.at_ t) ∧ (slot < 16) ∧ (v.slotDue slot 8 = true) ∧ (n = (v.slotOf slot).index) ∧ (¬ (v.slotFree n = true ∧ v.flag (MOT_AS.DIRECT n) = true ∧ (v.mx n).st.moving = false)) :=
  ⟨{ (State.reset : State) with door := { State.reset.door with kick := false, passed := true, slots := [7, 8, 95, 0, 0, 1, 0, 0] ++ List.replicate 248 0 } }, 0, 0, 95, _, rfl, by decide⟩
theorem witness_MotionCommands_31 : ∃ (s : State) (k : Nat) (ok count : Bool) (x : State), (x = if ok = false ∧ count = true then s.inc MOT_CMD_REJ_CNT else s) :=
  ⟨State.reset, 0, true, true, State.reset, by decide⟩
theorem witness_AxisEvents_1 : ∃ (s : State) (t : Nat) (n k : Nat) (cap : Int) (v : State), (v = s.at_ t) ∧ ((v.mx n).limit.cand = some (k, cap)) ∧ (v.debTicks n ≤ k) :=
  ⟨{ ((State.reset.put (AX_CFG.KIND 95) 1) : State) with door := { State.reset.door with passed := true, mot := [(95, { MAxis.init with limit := ⟨true, some (400, 0)⟩ })] } }, 0, 95, 400, 0, _, rfl, by decide⟩
theorem witness_AxisEvents_2 : ∃ (s : State) (t : Nat) (n k : Nat) (cap : Int) (v : State), (v = s.at_ t) ∧ ((v.mx n).limit.cand = some (k, cap)) ∧ (k < v.debTicks n) :=
  ⟨{ ((State.reset.put (AX_CFG.KIND 95) 1) : State) with door := { State.reset.door with passed := true, mot := [(95, { MAxis.init with limit := ⟨true, some (0, 0)⟩ })] } }, 0, 95, 0, 0, _, rfl, by decide⟩
theorem witness_AxisEvents_3 : ∃ (s : State) (t : Nat) (n : Nat) (v : State), (v = s.at_ t) ∧ ((v.mx n).limit.cand = none) :=
  ⟨State.reset, 0, 95, _, rfl, by decide⟩
theorem witness_AxisEvents_4 : ∃ (s : State) (t : Nat) (n k : Nat) (cap : Int) (v : State), (v = s.at_ t) ∧ (n < 96) ∧ ((v.mx n).limit.cand = some (k, cap)) ∧ (v.debTicks n ≤ k) ∧ ((v.mx n).limit.on = true) ∧ (v.fifthEdge n (v.mx n).limitEdges = false) :=
  ⟨{ ((State.reset.put (AX_CFG.KIND 95) 1) : State) with door := { State.reset.door with passed := true, mot := [(95, { MAxis.init with limit := ⟨true, some (400, 0)⟩ })] } }, 0, 95, 400, 0, _, rfl, by decide⟩
theorem witness_AxisEvents_5 : ∃ (s : State) (t : Nat) (n k : Nat) (cap : Int) (v : State), (v = s.at_ t) ∧ (n < 96) ∧ ((v.mx n).limit.cand = some (k, cap)) ∧ (v.debTicks n ≤ k) ∧ ((v.mx n).limit.on = false) ∧ (v.fifthEdge n (v.mx n).limitEdges = false) ∧ (v.homing n = false) :=
  ⟨{ ((State.reset.put (AX_CFG.KIND 95) 1) : State) with door := { State.reset.door with passed := true, mot := [(95, { MAxis.init with limit := ⟨false, some (400, 0)⟩ })] } }, 0, 95, 400, 0, _, rfl, by decide⟩
theorem witness_AxisEvents_6 : ∃ (s : State) (n : Nat), ((s.mx n).st.moving = true) ∧ ((s.mx n).acted = false) :=
  ⟨{ (State.reset : State) with door := { State.reset.door with mot := [(95, { MAxis.init with st := ⟨0, 5, 0⟩ })] } }, 95, by decide⟩
theorem witness_AxisEvents_7 : ∃ (s : State) (n : Nat), ((s.mx n).st.moving = false ∨ (s.mx n).acted = true) :=
  ⟨State.reset, 95, by decide⟩
theorem witness_AxisEvents_8 : ∃ (s : State) (t : Nat) (n k : Nat) (cap : Int) (v : State), (v = s.at_ t) ∧ ((v.mx n).home.cand = some (k, cap)) ∧ (k < v.debTicks n) :=
  ⟨{ ((State.reset.put (AX_CFG.KIND 95) 1) : State) with door := { State.reset.door with passed := true, mot := [(95, { MAxis.init with home := ⟨true, some (0, 0)⟩ })] } }, 0, 95, 0, 0, _, rfl, by decide⟩
theorem witness_AxisEvents_9 : ∃ (s : State) (t : Nat) (n : Nat) (v : State), (v = s.at_ t) ∧ ((v.mx n).home.cand = none) :=
  ⟨State.reset, 0, 95, _, rfl, by decide⟩
theorem witness_AxisEvents_10 : ∃ (s : State) (t : Nat) (n k : Nat) (cap : Int) (x y : State) (v : State), (v = s.at_ t) ∧ ((v.mx n).home.cand = some (k, cap)) ∧ (v.debTicks n ≤ k) ∧ (y = (v.setMx n { v.mx n with home := ⟨!(v.mx n).home.on, none⟩, homeEdges := v.edgeOf n (v.mx n).homeEdges }).putS (MOT_AS.HCAP n) cap) ∧ (x = if y.fifthEdge n (v.mx n).homeEdges = true then y.chatter n (MOT_AS.CHAT_HOME n) else y) ∧ (x.get (MOT_AS.HPHASE n) = 1) ∧ ((v.mx n).home.on = false) :=
  ⟨{ (((State.reset.put (AX_CFG.KIND 95) 1).put (MOT_AS.HPHASE 95) 1) : State) with door := { State.reset.door with passed := true, mot := [(95, { MAxis.init with home := ⟨false, some (400, 7)⟩, homeEdges := 0 })] } }, 0, 95, 400, 7, _, _, _, rfl, by decide, by decide, rfl, rfl, by decide, by decide⟩
theorem witness_AxisEvents_11 : ∃ (s : State) (t : Nat) (n k : Nat) (cap : Int) (x y : State) (v : State), (v = s.at_ t) ∧ ((v.mx n).home.cand = some (k, cap)) ∧ (v.debTicks n ≤ k) ∧ (y = (v.setMx n { v.mx n with home := ⟨!(v.mx n).home.on, none⟩, homeEdges := v.edgeOf n (v.mx n).homeEdges }).putS (MOT_AS.HCAP n) cap) ∧ (x = if y.fifthEdge n (v.mx n).homeEdges = true then y.chatter n (MOT_AS.CHAT_HOME n) else y) ∧ (x.get (MOT_AS.HPHASE n) = 2) ∧ ((v.mx n).home.on = false) :=
  ⟨{ (((State.reset.put (AX_CFG.KIND 95) 1).put (MOT_AS.HPHASE 95) 2) : State) with door := { State.reset.door with passed := true, mot := [(95, { MAxis.init with home := ⟨false, some (400, 7)⟩, homeEdges := 0 })] } }, 0, 95, 400, 7, _, _, _, rfl, by decide, by decide, rfl, rfl, by decide, by decide⟩
theorem witness_AxisEvents_12 : ∃ (s : State) (t : Nat) (n k : Nat) (cap : Int) (x y : State) (target : Int) (v : State), (v = s.at_ t) ∧ ((v.mx n).home.cand = some (k, cap)) ∧ (v.debTicks n ≤ k) ∧ (y = (v.setMx n { v.mx n with home := ⟨!(v.mx n).home.on, none⟩, homeEdges := v.edgeOf n (v.mx n).homeEdges }).putS (MOT_AS.HCAP n) cap) ∧ (x = if y.fifthEdge n (v.mx n).homeEdges = true then y.chatter n (MOT_AS.CHAT_HOME n) else y) ∧ (x.get (MOT_AS.HPHASE n) = 3) ∧ ((v.mx n).home.on = true) ∧ (target = cap - x.homeDir n * x.get (MOT_AX_HOME.BACKOFF n)) :=
  ⟨{ (((State.reset.put (AX_CFG.KIND 95) 1).put (MOT_AS.HPHASE 95) 3) : State) with door := { State.reset.door with passed := true, mot := [(95, { MAxis.init with home := ⟨true, some (400, 7)⟩, homeEdges := 0 })] } }, 0, 95, 400, 7, _, _, _, _, rfl, by decide, by decide, rfl, rfl, by decide, by decide, rfl⟩
theorem witness_AxisEvents_13 : ∃ (s : State) (t : Nat) (n k : Nat) (cap : Int) (x y : State) (v : State), (v = s.at_ t) ∧ ((v.mx n).home.cand = some (k, cap)) ∧ (v.debTicks n ≤ k) ∧ (y = (v.setMx n { v.mx n with home := ⟨!(v.mx n).home.on, none⟩, homeEdges := v.edgeOf n (v.mx n).homeEdges }).putS (MOT_AS.HCAP n) cap) ∧ (x = if y.fifthEdge n (v.mx n).homeEdges = true then y.chatter n (MOT_AS.CHAT_HOME n) else y) ∧ (x.get (MOT_AS.HPHASE n) = 4) ∧ ((v.mx n).home.on = false) :=
  ⟨{ (((State.reset.put (AX_CFG.KIND 95) 1).put (MOT_AS.HPHASE 95) 4) : State) with door := { State.reset.door with passed := true, mot := [(95, { MAxis.init with home := ⟨false, some (400, 7)⟩, homeEdges := 0 })] } }, 0, 95, 400, 7, _, _, _, rfl, by decide, by decide, rfl, rfl, by decide, by decide⟩
theorem witness_AxisEvents_14 : ∃ (s : State) (t : Nat) (n k : Nat) (cap : Int) (x y : State) (v : State), (v = s.at_ t) ∧ ((v.mx n).home.cand = some (k, cap)) ∧ (v.debTicks n ≤ k) ∧ (y = (v.setMx n { v.mx n with home := ⟨!(v.mx n).home.on, none⟩, homeEdges := v.edgeOf n (v.mx n).homeEdges }).putS (MOT_AS.HCAP n) cap) ∧ (x = if y.fifthEdge n (v.mx n).homeEdges = true then y.chatter n (MOT_AS.CHAT_HOME n) else y) ∧ ((x.get (MOT_AS.HPHASE n) = 1 ∧ (v.mx n).home.on = true) ∨ (x.get (MOT_AS.HPHASE n) = 2 ∧ (v.mx n).home.on = true) ∨ (x.get (MOT_AS.HPHASE n) = 3 ∧ (v.mx n).home.on = false) ∨ (x.get (MOT_AS.HPHASE n) = 4 ∧ (v.mx n).home.on = true) ∨ x.get (MOT_AS.HPHASE n) = 0 ∨ 4 < x.get (MOT_AS.HPHASE n)) :=
  ⟨{ (((State.reset.put (AX_CFG.KIND 95) 1).put (MOT_AS.HPHASE 95) 0) : State) with door := { State.reset.door with passed := true, mot := [(95, { MAxis.init with home := ⟨true, some (400, 7)⟩, homeEdges := 4 })] } }, 0, 95, 400, 7, _, _, _, rfl, by decide, by decide, rfl, rfl, by decide⟩
theorem witness_AxisEvents_15 : ∃ (s : State) (n : Nat) (f : Fld) (x : State), (x = (s.put f 1).inc MOT_CHAT_CNT) :=
  ⟨State.reset, 95, MOT_AS.CHAT_HOME 95, ((State.reset.put (MOT_AS.CHAT_HOME 95) 1).inc MOT_CHAT_CNT), by decide⟩
theorem witness_AxisEvents_16 : ∃ (s : State) (t : Nat) (n : Nat) (v : State), (v = s.at_ t) ∧ (n < 96) ∧ (v.homing n = true) ∧ (v.get (MOT_AX.HOME_TMO n) ≠ 0) ∧ (msTicks (v.get (MOT_AX.HOME_TMO n)) ≤ (v.mx n).hticks) :=
  ⟨{ ((((State.reset.put (AX_CFG.KIND 95) 1).put (MOT_AS.HPHASE 95) 1).put (MOT_AX.HOME_TMO 95) 1) : State) with door := { State.reset.door with passed := true, mot := [(95, { MAxis.init with hticks := 1600000 })] } }, 0, 95, _, rfl, by decide⟩
theorem witness_AxisEvents_17 : ∃ (s : State) (t : Nat) (n : Nat) (v : State), (v = s.at_ t) ∧ (v.homing n = false ∨ v.get (MOT_AX.HOME_TMO n) = 0 ∨ (v.mx n).hticks < msTicks (v.get (MOT_AX.HOME_TMO n))) :=
  ⟨State.reset, 0, 95, _, rfl, by decide⟩
theorem witness_AxisEvents_18 : ∃ (s : State) (t : Nat) (n : Nat) (v : State), (v = s.at_ t) ∧ (n < 96) ∧ (v.get (MOT_AS.MSTATE n) = 2) ∧ ((v.mx n).hold = 0) :=
  ⟨((State.reset.put (AX_CFG.KIND 95) 1).put (MOT_AS.MSTATE 95) 2), 0, 95, _, rfl, by decide⟩
theorem witness_AxisEvents_19 : ∃ (s : State) (t : Nat) (n : Nat) (v : State), (v = s.at_ t) ∧ (v.get (MOT_AS.MSTATE n) ≠ 2 ∨ (v.mx n).hold ≠ 0) :=
  ⟨State.reset, 0, 95, _, rfl, by decide⟩
theorem witness_AxisEvents_20 : ∃ (s : State) (n r : Nat), (n < 96) ∧ (r < 16) :=
  ⟨(State.reset.put (AX_CFG.KIND 95) 1), 95, 10, by decide⟩
theorem witness_AxisEvents_21 : ∃ (s : State) (n cause : Nat), (n < 96) ∧ (cause < 8) :=
  ⟨(State.reset.put (AX_CFG.KIND 95) 1), 95, 3, by decide⟩
theorem witness_DoorEvents_1 : ∃ (s : State) (t : Nat) (dur plan : Nat) (x y : State) (v : State), (v = s.at_ t) ∧ (v.pwr.inReset = false) ∧ (v.pwr.dormant = false) ∧ (v.passDue = true) ∧ (x = ((v.doorPass.inc DOOR_PASS_CNT).put DOOR_PASS.DUR dur).put MOT_PLAN.DUR plan) ∧ (y = x.hist OBS_H2_CNT (dur / (10 * atLeast1 (x.get OBS_HIST_CFG.BIN2)))) :=
  ⟨{ State.reset with pwr := { State.reset.pwr with inReset := false }, lanes := { State.reset.lanes with boundary := 0 }, time := { State.reset.time with edge := 62000 } }, 0, 9, 5, _, _, _, rfl, by decide, by decide, by decide, rfl, rfl⟩
theorem witness_DoorEvents_2 : ∃ (s : State) (t : Nat) (dur plan : Nat) (x y : State) (v : State), (v = s.at_ t) ∧ (v.pwr.inReset = false) ∧ (v.pwr.dormant = false) ∧ (v.passDue = true) ∧ (x = ((v.doorPass.inc DOOR_PASS_CNT).put DOOR_PASS.DUR dur).put MOT_PLAN.DUR plan) ∧ (y = x.hist OBS_H2_CNT (dur / (10 * atLeast1 (x.get OBS_HIST_CFG.BIN2)))) :=
  ⟨{ State.reset with pwr := { State.reset.pwr with inReset := false }, lanes := { State.reset.lanes with boundary := 0 }, time := { State.reset.time with edge := 62000 } }, 0, 9, 5, _, _, _, rfl, by decide, by decide, by decide, rfl, rfl⟩
theorem witness_DoorEvents_3 : ∃ (s : State) (t : Nat) (mismatch : Bool) (dur plan : Nat) (v : State), (v = s.at_ t) ∧ (v.pwr.inReset = true ∨ v.pwr.dormant = true ∨ v.passDue = false) :=
  ⟨State.reset, 0, true, 9, 5, _, rfl, by decide⟩
theorem witness_DoorEvents_4 : ∃ (s : State) (t : Nat) (n : Nat) (v : State), (v = s.at_ t) ∧ (v.axUsed n = true) ∧ (v.dst n = 2 ∨ v.dst n = 5) ∧ (v.flag (DOOR_AS.STALE n) = true) ∧ (atLeast1 (v.get (AX_FB.FB_FAULT n)) ≤ (v.dax n).staleTicks) :=
  ⟨{ ((((State.reset.put (AX_CFG.KIND 95) 1).put (DOOR_AS.STATE 95) 5).put (DOOR_AS.STALE 95) 1) : State) with door := { State.reset.door with ax := [(95, { DAxis.init with staleTicks := 65535 })] } }, 0, 95, _, rfl, by decide⟩
theorem witness_DoorEvents_5 : ∃ (s : State) (t : Nat) (n : Nat) (v : State), (v = s.at_ t) ∧ (¬ (v.axUsed n = true ∧ (v.dst n = 2 ∨ v.dst n = 5) ∧ v.flag (DOOR_AS.STALE n) = true ∧ atLeast1 (v.get (AX_FB.FB_FAULT n)) ≤ (v.dax n).staleTicks)) :=
  ⟨State.reset, 0, 95, _, rfl, by decide⟩
theorem witness_DoorEvents_6 : ∃ (s : State) (t : Nat) (n : Nat) (v : State), (v = s.at_ t) ∧ (v.axUsed n = true) ∧ (v.dst n = 3) ∧ (v.flag (MOT_AS.DIRECT n) = false) ∧ (msTicks (v.get (AX_TIME.LOCK_TMO n)) ≤ (v.dax n).lockTicks) ∧ (v.get (DOOR_AS.LRETRY n) < v.get (AX_RETRY.LOCK_RETRY_MAX n)) :=
  ⟨{ (((((State.reset.put (AX_CFG.KIND 95) 1).put (DOOR_AS.STATE 95) 3).put (AX_TIME.LOCK_TMO 95) 1).put (AX_RETRY.LOCK_RETRY_MAX 95) 1) : State) with door := { State.reset.door with ax := [(95, { DAxis.init with lockTicks := 16000000 })] } }, 0, 95, _, rfl, by decide⟩
theorem witness_DoorEvents_7 : ∃ (s : State) (used n : Nat) (x : State), (x = ((s.put (DOOR_AS.LRETRY n) (used + 1)).lifeAdd n 1).cyc_ n (fun c => { c with retries := c.retries + 1 })) :=
  ⟨{ (((((State.reset.put (AX_CFG.KIND 95) 1).put (DOOR_AS.STATE 95) 3).put (AX_TIME.LOCK_TMO 95) 1).put (AX_RETRY.LOCK_RETRY_MAX 95) 1) : State) with door := { State.reset.door with ax := [(95, { DAxis.init with lockTicks := 16000000 })] } }, 0, 95, _, rfl⟩
theorem witness_DoorEvents_8 : ∃ (s : State) (t : Nat) (n : Nat) (v : State), (v = s.at_ t) ∧ (v.axUsed n = true) ∧ (v.dst n = 3) ∧ (v.flag (MOT_AS.DIRECT n) = false) ∧ (msTicks (v.get (AX_TIME.LOCK_TMO n)) ≤ (v.dax n).lockTicks) ∧ (v.get (AX_RETRY.LOCK_RETRY_MAX n) ≤ v.get (DOOR_AS.LRETRY n)) :=
  ⟨{ (((((State.reset.put (AX_CFG.KIND 95) 1).put (DOOR_AS.STATE 95) 3).put (AX_TIME.LOCK_TMO 95) 1).put (AX_RETRY.LOCK_RETRY_MAX 95) 0) : State) with door := { State.reset.door with ax := [(95, { DAxis.init with lockTicks := 16000000 })] } }, 0, 95, _, rfl, by decide⟩
theorem witness_DoorEvents_9 : ∃ (s : State) (t : Nat) (n : Nat) (v : State), (v = s.at_ t) ∧ (¬ (v.axUsed n = true ∧ v.dst n = 3 ∧ v.flag (MOT_AS.DIRECT n) = false ∧ msTicks (v.get (AX_TIME.LOCK_TMO n)) ≤ (v.dax n).lockTicks)) :=
  ⟨State.reset, 0, 95, _, rfl, by decide⟩
theorem witness_DoorEvents_10 : ∃ (s : State) (t : Nat) (n k : Nat) (x : State) (v : State), (v = s.at_ t) ∧ ((v.dax n).dwell = some k) ∧ (v.dst n = 5) ∧ (msTicks (v.get (AX_TIME.REOPEN_DWELL n)) ≤ k) ∧ (x = v.setDax n { v.dax n with dwell := none, dwelt := true }) ∧ (x.allDwelt n (v.flag (DOOR_AS.REOPEN n)) = true) :=
  ⟨{ (((State.reset.put (AX_CFG.KIND 95) 1).put (DOOR_AS.STATE 95) 5) : State) with door := { State.reset.door with ax := [(95, { DAxis.init with dwell := some 16000000 })] } }, 0, 95, 16000000, _, _, rfl, by decide, by decide, by decide, rfl, by decide⟩
theorem witness_DoorEvents_11 : ∃ (s : State) (t : Nat) (n k : Nat) (x : State) (v : State), (v = s.at_ t) ∧ ((v.dax n).dwell = some k) ∧ (v.dst n = 5) ∧ (msTicks (v.get (AX_TIME.REOPEN_DWELL n)) ≤ k) ∧ (x = v.setDax n { v.dax n with dwell := none, dwelt := true }) ∧ (x.allDwelt n (v.flag (DOOR_AS.REOPEN n)) = false) :=
  ⟨{ (((((((State.reset.put (AX_CFG.KIND 95) 1).put (DOOR_AS.STATE 95) 5).put (DOOR_AS.STATE 94) 5).put (DOOR_AS.REOPEN 94) 1).put (DOOR_AS.REOPEN 95) 1).put (AX_CFG.KIND 94) 1) : State) with door := { State.reset.door with ax := [(94, { DAxis.init with dwell := some 0 }), (95, { DAxis.init with dwell := some 16000000 })] } }, 0, 95, 16000000, _, _, rfl, by decide, by decide, by decide, rfl, by decide⟩
theorem witness_DoorEvents_12 : ∃ (s : State) (t : Nat) (n k : Nat) (v : State), (v = s.at_ t) ∧ ((v.dax n).dwell = some k) ∧ (v.dst n ≠ 5 ∨ k < msTicks (v.get (AX_TIME.REOPEN_DWELL n))) :=
  ⟨{ (State.reset : State) with door := { State.reset.door with ax := [(95, { DAxis.init with dwell := some 0 })] } }, 0, 95, 0, _, rfl, by decide⟩
theorem witness_DoorEvents_13 : ∃ (s : State) (t : Nat) (n : Nat) (v : State), (v = s.at_ t) ∧ ((v.dax n).dwell = none) :=
  ⟨State.reset, 0, 95, _, rfl, by decide⟩
theorem witness_DoorEvents_14 : ∃ (s : State) (n : Nat) (re : Bool), (s.dst n = 5) ∧ (s.flag (DOOR_AS.REOPEN n) = re) ∧ ((s.dax n).dwelt = true) ∧ (re = true) :=
  ⟨{ ((((State.reset.put (AX_CFG.KIND 95) 1).put (DOOR_AS.STATE 95) 5).put (DOOR_AS.REOPEN 95) 1) : State) with door := { State.reset.door with ax := [(95, { DAxis.init with dwelt := true })] } }, 95, true, by decide⟩
theorem witness_DoorEvents_15 : ∃ (s : State) (n : Nat) (re : Bool), (s.dst n = 5) ∧ (s.flag (DOOR_AS.REOPEN n) = re) ∧ ((s.dax n).dwelt = true) ∧ (re = false) :=
  ⟨{ ((((State.reset.put (AX_CFG.KIND 95) 1).put (DOOR_AS.STATE 95) 5).put (DOOR_AS.REOPEN 95) 0) : State) with door := { State.reset.door with ax := [(95, { DAxis.init with dwelt := true })] } }, 95, false, by decide⟩
theorem witness_DoorEvents_16 : ∃ (s : State) (n : Nat) (re : Bool), (s.dst n ≠ 5 ∨ s.flag (DOOR_AS.REOPEN n) ≠ re ∨ (s.dax n).dwelt = false) :=
  ⟨State.reset, 95, false, by decide⟩
theorem witness_DoorEvents_17 : ∃ (s : State) (t : Nat) (n k : Nat) (v : State), (v = s.at_ t) ∧ ((v.dax n).acc = some k) ∧ (msTicks (v.get (AX_FB.ACC_WIN n)) ≤ k) :=
  ⟨{ (State.reset : State) with door := { State.reset.door with ax := [(95, { DAxis.init with acc := some 16000000 })] } }, 0, 95, 16000000, _, rfl, by decide⟩
theorem witness_DoorEvents_18 : ∃ (s : State) (t : Nat) (n : Nat) (v : State), (v = s.at_ t) ∧ (∀ k ∈ (v.dax n).acc, k < msTicks (v.get (AX_FB.ACC_WIN n))) :=
  ⟨State.reset, 0, 95, _, rfl, by decide⟩
theorem witness_DoorEvents_19 : ∃ (s : State) (t : Nat) (n : Nat) (st : Stroke) (v : State), (v = s.at_ t) ∧ ((v.dax n).learn = some st) :=
  ⟨{ (State.reset : State) with door := { State.reset.door with ax := [(95, { DAxis.init with learn := some ⟨1, [(255, 77)]⟩ })] } }, 0, 95, ⟨1, [(255, 77)]⟩, _, rfl, by decide⟩
theorem witness_DoorEvents_20 : ∃ (s : State) (t : Nat) (n : Nat) (v : State), (v = s.at_ t) ∧ ((v.dax n).learn = none) :=
  ⟨State.reset, 0, 95, _, rfl, by decide⟩
theorem witness_DoorEvents_21 : ∃ (s : State) (n cause : Nat), (n < 96) ∧ (cause < 16) :=
  ⟨(State.reset.put (AX_CFG.KIND 95) 1), 95, 9, by decide⟩
theorem witness_DoorEvents_22 : ∃ (s : State) (n : Nat), (n < 96) :=
  ⟨(State.reset.put (AX_CFG.KIND 95) 1), 95, by decide⟩
theorem witness_DoorEvents_23 : ∃ (s : State) (n k : Nat), (n < 96) ∧ (k < 10) :=
  ⟨(State.reset.put (AX_CFG.KIND 95) 1), 95, 9, by decide⟩
theorem witness_SafeTelegrams_1 : ∃ (s : State) (t : Nat) (n : Nat) (v : State), (v = s.at_ t) ∧ (n < 128) ∧ (v.safeRuns = true) ∧ (v.isTx n = true) ∧ (v.get (SAFE_T.STATE n) = 2) ∧ (v.safeSilent n = false) :=
  ⟨{ ((((((State.reset.put SYS_STAT.MODE 3).put (SAFE_S.EN 127) 1).put (SAFE_S.DIR 127) 1).put (SAFE_T.STATE 127) 2).put CYC_STAT.KICK 0).put (SAFE_S.PAIR 127) 0) with time := { State.reset.time with laneEver := true } }, 0, 127, _, rfl, by decide⟩
theorem witness_SafeTelegrams_2 : ∃ (s : State) (t : Nat) (n : Nat) (v : State), (v = s.at_ t) ∧ (n < 128) ∧ (v.safeRuns = true) ∧ (v.isTx n = true) ∧ (v.get (SAFE_T.STATE n) = 2) ∧ (v.safeSilent n = false) :=
  ⟨{ ((((((State.reset.put SYS_STAT.MODE 3).put (SAFE_S.EN 127) 1).put (SAFE_S.DIR 127) 1).put (SAFE_T.STATE 127) 2).put CYC_STAT.KICK 0).put (SAFE_S.PAIR 127) 0) with time := { State.reset.time with laneEver := true } }, 0, 127, _, rfl, by decide⟩
theorem witness_SafeTelegrams_3 : ∃ (s : State) (t : Nat) (n : Nat) (unit : Bool) (v : State), (v = s.at_ t) ∧ (n < 128) ∧ (v.safeRuns = true) ∧ (v.isTx n = true) ∧ (v.get (SAFE_T.STATE n) = 2) ∧ (v.safeSilent n = true) ∧ (v.get (SAFE_S.TRANS n) ≠ 1) :=
  ⟨((((((State.reset.put SYS_STAT.MODE 3).put (SAFE_S.EN 127) 1).put (SAFE_S.DIR 127) 1).put (SAFE_T.STATE 127) 2).put CYC_STAT.KICK 0).put (SAFE_S.PAIR 127) 0), 0, 127, false, _, rfl, by decide⟩
theorem witness_SafeTelegrams_4 : ∃ (s : State) (t : Nat) (n : Nat) (unit : Bool) (v : State), (v = s.at_ t) ∧ (n < 128) ∧ (v.safeRuns = true) ∧ (v.isTx n = true) ∧ (v.get (SAFE_T.STATE n) = 2) ∧ (v.safeSilent n = true) ∧ (v.get (SAFE_S.TRANS n) = 1) :=
  ⟨(((((((State.reset.put SYS_STAT.MODE 3).put (SAFE_S.EN 127) 1).put (SAFE_S.DIR 127) 1).put (SAFE_T.STATE 127) 2).put CYC_STAT.KICK 0).put (SAFE_S.PAIR 127) 0).put (SAFE_S.TRANS 127) 1), 0, 127, false, _, rfl, by decide⟩
theorem witness_SafeTelegrams_5 : ∃ (s : State) (t : Nat) (n : Nat) (unit : Bool) (v : State), (v = s.at_ t) ∧ (128 ≤ n ∨ v.safeRuns = false ∨ v.isTx n = false ∨ v.get (SAFE_T.STATE n) ≠ 2) :=
  ⟨State.reset, 0, 128, false, _, rfl, by decide⟩
theorem witness_SafeTelegrams_6 : ∃ (s : State) (t : Nat) (n : Nat) (telegram : List Byte) (unit : Bool) (v : State), (v = s.at_ t) ∧ (v.safeRxOpen n = false) :=
  ⟨State.reset, 0, 127, [], false, _, rfl, by decide⟩
theorem witness_SafeTelegrams_7 : ∃ (s : State) (t : Nat) (n : Nat) (telegram : List Byte) (unit : Bool) (v : State), (v = s.at_ t) ∧ (v.safeRxOpen n = true) ∧ (telegram.length ≠ 20 + v.get (SAFE_S.LEN n) ∨ beNat ((telegram.drop (0)).take 1) ≠ 1 ∨ beNat ((telegram.drop (1)).take 1) ≠ 0 ∨ beNat ((telegram.drop (2)).take 2) ≠ v.get (SAFE_S.LEN n) ∨ beNat ((telegram.drop (4 + v.get (SAFE_S.LEN n) + 8)).take 2) ≠ v.get (SAFE_S.SESSION n) ∨ 8 ≤ beNat ((telegram.drop (4 + v.get (SAFE_S.LEN n) + 10)).take 2)) :=
  ⟨((((State.reset.put SYS_STAT.MODE 3).put (SAFE_S.EN 127) 1).put (SAFE_S.DIR 127) 0).put (SAFE_T.STATE 127) 2), 0, 127, [], false, _, rfl, by decide⟩
theorem witness_SafeTelegrams_8 : ∃ (s : State) (t : Nat) (n : Nat) (telegram : List Byte) (v : State), (v = s.at_ t) ∧ (v.safeRxOpen n = true) ∧ (telegram.length = 20 + v.get (SAFE_S.LEN n)) ∧ (beNat ((telegram.drop (0)).take 1) = 1) ∧ (beNat ((telegram.drop (1)).take 1) = 0) ∧ (beNat ((telegram.drop (2)).take 2) = v.get (SAFE_S.LEN n)) ∧ (beNat ((telegram.drop (4 + v.get (SAFE_S.LEN n) + 8)).take 2) = v.get (SAFE_S.SESSION n)) ∧ (beNat ((telegram.drop (4 + v.get (SAFE_S.LEN n) + 10)).take 2) < 8) :=
  ⟨((((((State.reset.put SYS_STAT.MODE 3).put (SAFE_S.EN 127) 1).put (SAFE_S.DIR 127) 0).put (SAFE_T.STATE 127) 2).put (SAFE_S.LEN 127) 0).put (SAFE_S.SESSION 127) 0), 0, 127, ([1] ++ List.replicate 19 0), _, rfl, by decide⟩
theorem witness_SafeTelegrams_9 : ∃ (s : State) (t : Nat) (n : Nat) (telegram : List Byte) (v : State), (v = s.at_ t) ∧ (v.safeRxOpen n = true) ∧ (telegram.length = 20 + v.get (SAFE_S.LEN n)) ∧ (beNat ((telegram.drop (0)).take 1) = 1) ∧ (beNat ((telegram.drop (1)).take 1) = 0) ∧ (beNat ((telegram.drop (2)).take 2) = v.get (SAFE_S.LEN n)) ∧ (beNat ((telegram.drop (4 + v.get (SAFE_S.LEN n) + 8)).take 2) = v.get (SAFE_S.SESSION n)) ∧ (beNat ((telegram.drop (4 + v.get (SAFE_S.LEN n) + 10)).take 2) < 8) ∧ (telegram.drop (16 + v.get (SAFE_S.LEN n)) ≠ safeCv (v.safeIdentity n) (telegram.take (16 + v.get (SAFE_S.LEN n)))) :=
  ⟨((((((State.reset.put SYS_STAT.MODE 3).put (SAFE_S.EN 127) 1).put (SAFE_S.DIR 127) 0).put (SAFE_T.STATE 127) 2).put (SAFE_S.LEN 127) 0).put (SAFE_S.SESSION 127) 0), 0, 127, ([1] ++ List.replicate 19 0), _, rfl, by decide⟩
theorem witness_SafeTelegrams_10 : ∃ (s : State) (t : Nat) (n : Nat) (telegram : List Byte) (v : State), (v = s.at_ t) ∧ (v.safeRxOpen n = true) ∧ (telegram.length = 20 + v.get (SAFE_S.LEN n)) ∧ (beNat ((telegram.drop (0)).take 1) = 1) ∧ (beNat ((telegram.drop (1)).take 1) = 0) ∧ (beNat ((telegram.drop (2)).take 2) = v.get (SAFE_S.LEN n)) ∧ (beNat ((telegram.drop (4 + v.get (SAFE_S.LEN n) + 8)).take 2) = v.get (SAFE_S.SESSION n)) ∧ (beNat ((telegram.drop (4 + v.get (SAFE_S.LEN n) + 10)).take 2) < 8) ∧ (telegram.drop (16 + v.get (SAFE_S.LEN n)) = safeCv (v.safeIdentity n) (telegram.take (16 + v.get (SAFE_S.LEN n)))) :=
  ⟨((((((State.reset.put SYS_STAT.MODE 3).put (SAFE_S.EN 127) 1).put (SAFE_S.DIR 127) 0).put (SAFE_T.STATE 127) 2).put (SAFE_S.LEN 127) 0).put (SAFE_S.SESSION 127) 0), 0, 127, ([1] ++ List.replicate 15 0 ++ safeCv ((((((((State.reset.put SYS_STAT.MODE 3).put (SAFE_S.EN 127) 1).put (SAFE_S.DIR 127) 0).put (SAFE_T.STATE 127) 2).put (SAFE_S.LEN 127) 0).put (SAFE_S.SESSION 127) 0) : State).safeIdentity 127) ([1] ++ List.replicate 15 0)), _, rfl, by decide⟩
theorem witness_SafeTelegrams_11 : ∃ (s : State) (n seq stamp flags : Nat) (payload : List Byte), (bitOf flags 1 = true) ∧ (s.flag (SAFE_S.ACCEPT_TEST n) = false) :=
  ⟨(((((State.reset.put SYS_STAT.MODE 3).put (SAFE_S.EN 127) 1).put (SAFE_S.DIR 127) 0).put (SAFE_T.STATE 127) 2).put (SAFE_S.ACCEPT_TEST 127) 0), 127, 1, 0, 2, [1], by decide⟩
theorem witness_SafeTelegrams_12 : ∃ (s : State) (n seq stamp flags : Nat) (payload : List Byte), (bitOf flags 1 = false ∨ s.flag (SAFE_S.ACCEPT_TEST n) = true) ∧ (s.safeSynced n = false) :=
  ⟨((((State.reset.put SYS_STAT.MODE 3).put (SAFE_S.EN 127) 1).put (SAFE_S.DIR 127) 0).put (SAFE_T.STATE 127) 2), 127, 1, 0, 0, [1], by decide⟩
theorem witness_SafeTelegrams_13 : ∃ (s : State) (n seq stamp flags : Nat) (payload : List Byte), (bitOf flags 1 = false ∨ s.flag (SAFE_S.ACCEPT_TEST n) = true) ∧ (s.safeSynced n = true) ∧ (toSigned 32 ((s.safeNow n + 2 ^ 32 - stamp) % 2 ^ 32) < -(s.get (SAFE_S.FUT n) : Int) ∨ (s.get (SAFE_S.AGE_MAX n) : Int) < toSigned 32 ((s.safeNow n + 2 ^ 32 - stamp) % 2 ^ 32)) :=
  ⟨(((((((State.reset.put SYS_STAT.MODE 3).put (SAFE_S.EN 127) 1).put (SAFE_S.DIR 127) 0).put (SAFE_T.STATE 127) 2).put TIME_STAT.LANE_SYNC 1).put (SAFE_S.FUT 127) 0).put (SAFE_S.AGE_MAX 127) 0), 127, 1, 5, 0, [1], by decide⟩
theorem witness_SafeTelegrams_14 : ∃ (s : State) (n seq stamp flags : Nat) (payload : List Byte), (bitOf flags 1 = false ∨ s.flag (SAFE_S.ACCEPT_TEST n) = true) ∧ (s.safeSynced n = true) ∧ (-(s.get (SAFE_S.FUT n) : Int) ≤ toSigned 32 ((s.safeNow n + 2 ^ 32 - stamp) % 2 ^ 32)) ∧ (toSigned 32 ((s.safeNow n + 2 ^ 32 - stamp) % 2 ^ 32) ≤ (s.get (SAFE_S.AGE_MAX n) : Int)) ∧ (s.get (SAFE_T.STATE n) = 2) ∧ ((seq + 2 ^ 32 - s.get (SAFE_T.SEQ n)) % 2 ^ 32 = 0) :=
  ⟨(((((State.reset.put SYS_STAT.MODE 3).put (SAFE_S.EN 127) 1).put (SAFE_S.DIR 127) 0).put (SAFE_T.STATE 127) 2).put TIME_STAT.LANE_SYNC 1), 127, 0, 0, 0, [1], by decide⟩
theorem witness_SafeTelegrams_15 : ∃ (s : State) (n seq stamp flags : Nat) (payload : List Byte), (bitOf flags 1 = false ∨ s.flag (SAFE_S.ACCEPT_TEST n) = true) ∧ (s.safeSynced n = true) ∧ (-(s.get (SAFE_S.FUT n) : Int) ≤ toSigned 32 ((s.safeNow n + 2 ^ 32 - stamp) % 2 ^ 32)) ∧ (toSigned 32 ((s.safeNow n + 2 ^ 32 - stamp) % 2 ^ 32) ≤ (s.get (SAFE_S.AGE_MAX n) : Int)) ∧ (s.get (SAFE_T.STATE n) = 2) ∧ ((seq + 2 ^ 32 - s.get (SAFE_T.SEQ n)) % 2 ^ 32 ≠ 0) ∧ (bitOf flags 2 = true) :=
  ⟨(((((State.reset.put SYS_STAT.MODE 3).put (SAFE_S.EN 127) 1).put (SAFE_S.DIR 127) 0).put (SAFE_T.STATE 127) 2).put TIME_STAT.LANE_SYNC 1), 127, 1, 0, 4, [1], by decide⟩
theorem witness_SafeTelegrams_16 : ∃ (s : State) (n seq stamp flags : Nat) (payload : List Byte), (bitOf flags 1 = false ∨ s.flag (SAFE_S.ACCEPT_TEST n) = true) ∧ (s.safeSynced n = true) ∧ (-(s.get (SAFE_S.FUT n) : Int) ≤ toSigned 32 ((s.safeNow n + 2 ^ 32 - stamp) % 2 ^ 32)) ∧ (toSigned 32 ((s.safeNow n + 2 ^ 32 - stamp) % 2 ^ 32) ≤ (s.get (SAFE_S.AGE_MAX n) : Int)) ∧ (s.get (SAFE_T.STATE n) = 2) ∧ (17 < (seq + 2 ^ 32 - s.get (SAFE_T.SEQ n)) % 2 ^ 32) ∧ (bitOf flags 2 = false) :=
  ⟨(((((State.reset.put SYS_STAT.MODE 3).put (SAFE_S.EN 127) 1).put (SAFE_S.DIR 127) 0).put (SAFE_T.STATE 127) 2).put TIME_STAT.LANE_SYNC 1), 127, 99, 0, 0, [1], by decide⟩
theorem witness_SafeTelegrams_17 : ∃ (s : State) (n seq stamp flags : Nat) (payload : List Byte), (bitOf flags 1 = false ∨ s.flag (SAFE_S.ACCEPT_TEST n) = true) ∧ (s.safeSynced n = true) ∧ (-(s.get (SAFE_S.FUT n) : Int) ≤ toSigned 32 ((s.safeNow n + 2 ^ 32 - stamp) % 2 ^ 32)) ∧ (toSigned 32 ((s.safeNow n + 2 ^ 32 - stamp) % 2 ^ 32) ≤ (s.get (SAFE_S.AGE_MAX n) : Int)) ∧ (s.get (SAFE_T.STATE n) = 2) ∧ ((seq + 2 ^ 32 - s.get (SAFE_T.SEQ n)) % 2 ^ 32 ≠ 0) ∧ ((seq + 2 ^ 32 - s.get (SAFE_T.SEQ n)) % 2 ^ 32 ≤ 17) ∧ (bitOf flags 2 = false) :=
  ⟨(((((State.reset.put SYS_STAT.MODE 3).put (SAFE_S.EN 127) 1).put (SAFE_S.DIR 127) 0).put (SAFE_T.STATE 127) 2).put TIME_STAT.LANE_SYNC 1), 127, 17, 0, 0, [1], by decide⟩
theorem witness_SafeTelegrams_18 : ∃ (s : State) (n seq stamp flags : Nat) (payload : List Byte), (bitOf flags 1 = false ∨ s.flag (SAFE_S.ACCEPT_TEST n) = true) ∧ (s.safeSynced n = true) ∧ (-(s.get (SAFE_S.FUT n) : Int) ≤ toSigned 32 ((s.safeNow n + 2 ^ 32 - stamp) % 2 ^ 32)) ∧ (toSigned 32 ((s.safeNow n + 2 ^ 32 - stamp) % 2 ^ 32) ≤ (s.get (SAFE_S.AGE_MAX n) : Int)) ∧ (s.get (SAFE_T.STATE n) ≠ 2) :=
  ⟨((((((State.reset.put SYS_STAT.MODE 3).put (SAFE_S.EN 127) 1).put (SAFE_S.DIR 127) 0).put (SAFE_T.STATE 127) 2).put TIME_STAT.LANE_SYNC 1).put (SAFE_T.STATE 127) 3), 127, 5, 0, 0, [1], by decide⟩
theorem witness_SafeTelegrams_19 : ∃ (s : State) (n seq flags : Nat) (age : Int) (payload : List Byte), (n < 128) ∧ (s.isTx n = false) ∧ (seq < 2 ^ 32) ∧ (s.get (SAFE_T.STATE n) = 2) ∧ (flags < 8) :=
  ⟨((((State.reset.put SYS_STAT.MODE 3).put (SAFE_S.EN 127) 1).put (SAFE_S.DIR 127) 0).put (SAFE_T.STATE 127) 2), 127, 5, 4, 3, [1], by decide⟩
theorem witness_SafeTelegrams_20 : ∃ (s : State) (k : Nat), (s.safe.unitTicks = some k) ∧ (k ≤ 16) :=
  ⟨{ State.reset with safe := { State.reset.safe with unitTicks := some 16 } }, 16, by decide⟩
theorem witness_SafeTelegrams_21 : ∃ (s : State), (∀ k ∈ s.safe.unitTicks, 16 < k) :=
  ⟨State.reset, by decide⟩
theorem witness_SafeTelegrams_22 : ∃ (s : State) (t : Nat) (n : Nat) (v : State), (v = s.at_ t) ∧ (n < 128) ∧ (v.safeRxOpen n = true) ∧ (v.get (SAFE_T.STATE n) = 2) ∧ (atLeast1 (v.get (SAFE_S.TMO n)) ≤ (v.sess n).count) :=
  ⟨{ ((((State.reset.put SYS_STAT.MODE 3).put (SAFE_S.EN 127) 1).put (SAFE_S.DIR 127) 0).put (SAFE_T.STATE 127) 2) with safe := { State.reset.safe with sess := [(127, { Sess.init with count := 65535 })] } }, 0, 127, _, rfl, by decide⟩
theorem witness_SafeTelegrams_23 : ∃ (s : State) (t : Nat) (n : Nat) (v : State), (v = s.at_ t) ∧ (v.safeRxOpen n = true) ∧ (v.get (SAFE_T.STATE n) = 2) ∧ (atLeast1 (v.get (SAFE_S.TMO n)) ≤ (v.sess n).count) :=
  ⟨{ ((((State.reset.put SYS_STAT.MODE 3).put (SAFE_S.EN 127) 1).put (SAFE_S.DIR 127) 0).put (SAFE_T.STATE 127) 2) with safe := { State.reset.safe with sess := [(127, { Sess.init with count := 65535 })] } }, 0, 127, _, rfl, by decide⟩
theorem witness_SafeTelegrams_24 : ∃ (s : State) (t : Nat) (n : Nat) (v : State), (v = s.at_ t) ∧ (v.safeRxOpen n = false ∨ v.get (SAFE_T.STATE n) ≠ 2 ∨ (v.sess n).count < atLeast1 (v.get (SAFE_S.TMO n))) :=
  ⟨State.reset, 0, 127, _, rfl, by decide⟩
theorem witness_SafeTelegrams_25 : ∃ (s : State) (t : Nat) (who : Initiator) (n : BitVec 7) (v : State), (v = s.at_ t) ∧ (v.acts who = true) ∧ (mayWrite who 9 = true) :=
  ⟨State.reset, 0, .tri, 127, _, rfl, by decide⟩
theorem witness_SafeTelegrams_26 : ∃ (s : State) (t : Nat) (who : Initiator) (n : BitVec 7) (v : State), (v = s.at_ t) ∧ (v.acts who = true) ∧ (who.isService = true) :=
  ⟨up, 0, .s0, 127, _, rfl, by decide⟩
theorem witness_SafeTelegrams_27 : ∃ (s : State) (t : Nat) (who : Initiator) (n : BitVec 7) (v : State), (v = s.at_ t) ∧ (v.acts who = true) ∧ (mayWrite who 9 = true) :=
  ⟨State.reset, 0, .tri, 127, _, rfl, by decide⟩
theorem witness_SafeTelegrams_28 : ∃ (s : State) (t : Nat) (who : Initiator) (n : BitVec 7) (v : State), (v = s.at_ t) ∧ (v.acts who = true) ∧ (who.isService = true) :=
  ⟨up, 0, .s0, 127, _, rfl, by decide⟩
theorem witness_SafeTelegrams_29 : ∃ (s : State) (n : Nat), (s.sessOpen n = false) ∧ (s.flag (SAFE_S.EN n) = true) ∧ (uidValid (s.ownUid n) = true) ∧ (uidValid (s.get (SAFE_S.PEER_UID n)) = true) ∧ (s.isTx n = true) :=
  ⟨(((((State.reset.put (SAFE_S.EN 127) 1).put (SAFE_S.DIR 127) 1).put (SAFE_S.PEER_UID 127) 5).put SAFE_UID.UID 7).put SAFE_PUID.UID 7), 127, by decide⟩
theorem witness_SafeTelegrams_30 : ∃ (s : State) (n : Nat), (s.sessOpen n = false) ∧ (s.flag (SAFE_S.EN n) = true) ∧ (uidValid (s.ownUid n) = true) ∧ (uidValid (s.get (SAFE_S.PEER_UID n)) = true) ∧ (s.isTx n = false) :=
  ⟨((((((State.reset.put (SAFE_S.EN 127) 1).put (SAFE_S.DIR 127) 1).put (SAFE_S.PEER_UID 127) 5).put SAFE_UID.UID 7).put SAFE_PUID.UID 7).put (SAFE_S.DIR 127) 0), 127, by decide⟩
theorem witness_SafeTelegrams_31 : ∃ (s : State) (n : Nat), (s.sessOpen n = true ∨ s.flag (SAFE_S.EN n) = false ∨ uidValid (s.ownUid n) = false ∨ uidValid (s.get (SAFE_S.PEER_UID n)) = false) :=
  ⟨State.reset, 127, by decide⟩
theorem witness_SafeTelegrams_32 : ∃ (s : State) (n : Nat), (s.sessOpen n = true) ∧ (s.isTx n = true) :=
  ⟨(((((((State.reset.put SYS_STAT.MODE 3).put (SAFE_S.EN 127) 1).put (SAFE_S.DIR 127) 1).put (SAFE_T.STATE 127) 2).put CYC_STAT.KICK 0).put (SAFE_S.PAIR 127) 0).putBit (SAFE_OPEN.OPEN 3) 31 true), 127, by decide⟩
theorem witness_SafeTelegrams_33 : ∃ (s : State) (n : Nat), (s.sessOpen n = true) ∧ (s.isTx n = false) :=
  ⟨(((((State.reset.put SYS_STAT.MODE 3).put (SAFE_S.EN 127) 1).put (SAFE_S.DIR 127) 0).put (SAFE_T.STATE 127) 2).putBit (SAFE_OPEN.OPEN 3) 31 true), 127, by decide⟩
theorem witness_SafeTelegrams_34 : ∃ (s : State) (n : Nat), (s.sessOpen n = false) :=
  ⟨State.reset, 127, by decide⟩
theorem witness_BootChain_1 : ∃ (s : State) (t : Nat) (fw0 fw1 : SigCheck) (imgA imgB : SlotImage) (sup : Nat) (r0 r1 r2 : BitVec 4) (v : State), (v = s.at_ t) ∧ (¬ (v.get SYS_STAT.MODE = 0 ∧ v.pwr.inReset = false ∧ v.pwr.dormant = false ∧ v.boot.stopped = false ∧ v.boot.noSlot = none ∧ v.flag REC_STAT.READY = true)) :=
  ⟨State.reset, 0, ⟨0, 0, 0, true, true⟩, ⟨0, 0, 0, false, true⟩, ⟨⟨0, 0, 0, true, true⟩, ⟨0, 0, 0, true, true⟩, 0, 1, [], [], 0, [], [], [], []⟩, ⟨⟨0, 0, 0, true, true⟩, ⟨0, 0, 0, true, true⟩, 0, 1, [], [], 0, [], [], [], []⟩, 240, 1, 1, 1, _, rfl, by decide +kernel⟩
theorem witness_BootChain_2 : ∃ (s : State) (t : Nat) (fw0 fw1 : SigCheck) (imgA imgB : SlotImage) (sup : Nat) (r0 r1 r2 : BitVec 4) (v : State), (v = s.at_ t) ∧ (v.get SYS_STAT.MODE = 0) ∧ (v.pwr.inReset = false) ∧ (v.pwr.dormant = false) ∧ (v.boot.stopped = false) ∧ (v.boot.noSlot = none) ∧ (v.flag REC_STAT.READY = true) ∧ (v.imageValid (v.supFirmware 0) 1 fw0 = false) ∧ (v.imageValid (v.supFirmware 1) 1 fw1 = false) :=
  ⟨(let x := (((({ State.reset with pwr := { State.reset.pwr with inReset := false } }.put REC_STAT.READY 1).put UPD_OTP.RSA_PROG 15).put UPD_OTP.SLH_PROG 15) : State); { x with nv := { x.nv with images := [(0, ([1, 0x30, 0x48, 0xEA, 2, 0, 0, 0, 0, 1, 0, 0] ++ List.replicate 36 0 ++ [1])), (1, ([1, 0x30, 0x48, 0xEA, 3, 0, 0, 0, 0, 1, 0, 0] ++ List.replicate 36 0 ++ [1])), (2, ([1, 0x30, 0x48, 0xEA, 2, 0, 0, 0, 0, 1, 0, 0] ++ List.replicate 36 0 ++ [1])), (3, ([1, 0x30, 0x48, 0xEA, 3, 0, 0, 0, 0, 1, 0, 0] ++ List.replicate 36 0 ++ [1])), (4, ([1, 0x30, 0x48, 0xEA, 1, 0, 0, 0, 0, 1, 0, 0] ++ List.replicate 36 0 ++ [1]))] } }), 0, ⟨0, 0, 0, false, true⟩, ⟨0, 0, 0, false, true⟩, ⟨⟨0, 0, 0, true, true⟩, ⟨0, 0, 0, true, true⟩, 0, 1, [], [], 0, [], [], [], []⟩, ⟨⟨0, 0, 0, true, true⟩, ⟨0, 0, 0, true, true⟩, 0, 1, [], [], 0, [], [], [], []⟩, 240, 1, 1, 1, _, rfl, by decide +kernel⟩
theorem witness_BootChain_3 : ∃ (s : State) (t : Nat) (fw0 fw1 : SigCheck) (imgA imgB : SlotImage) (sup : Nat) (r0 r1 r2 : BitVec 4) (v : State), (v = s.at_ t) ∧ (v.get SYS_STAT.MODE = 0) ∧ (v.pwr.inReset = false) ∧ (v.pwr.dormant = false) ∧ (v.boot.stopped = false) ∧ (v.boot.noSlot = none) ∧ (v.flag REC_STAT.READY = true) ∧ (v.imageValid (v.supFirmware 0) 1 fw0 = true ∨ v.imageValid (v.supFirmware 1) 1 fw1 = true) ∧ ((({ v with boot := { v.boot with lamp := some v.localNow } } : State).selectSlot (fun n => if n = 0 then imgA else imgB) sup).2 = true) :=
  ⟨(let x := ((let x := (((({ State.reset with pwr := { State.reset.pwr with inReset := false } }.put REC_STAT.READY 1).put UPD_OTP.RSA_PROG 15).put UPD_OTP.SLH_PROG 15) : State); { x with nv := { x.nv with images := [(0, ([1, 0x30, 0x48, 0xEA, 2, 0, 0, 0, 0, 1, 0, 0] ++ List.replicate 36 0 ++ [1])), (1, ([1, 0x30, 0x48, 0xEA, 3, 0, 0, 0, 0, 1, 0, 0] ++ List.replicate 36 0 ++ [1])), (2, ([1, 0x30, 0x48, 0xEA, 2, 0, 0, 0, 0, 1, 0, 0] ++ List.replicate 36 0 ++ [1])), (3, ([1, 0x30, 0x48, 0xEA, 3, 0, 0, 0, 0, 1, 0, 0] ++ List.replicate 36 0 ++ [1])), (4, ([1, 0x30, 0x48, 0xEA, 1, 0, 0, 0, 0, 1, 0, 0] ++ List.replicate 36 0 ++ [1]))] } }) : State); x.writeTable { x.table with a := ⟨3, 0, 0, 7, 0⟩ }), 0, ⟨0, 0, 0, true, true⟩, ⟨0, 0, 0, false, true⟩, ⟨⟨0, 0, 0, true, true⟩, ⟨0, 0, 0, true, true⟩, 0, 1, [(CYC_IMG.IN_LEN.addr, BitVec.ofNat 32 (2 ^ CYC_IMG.IN_LEN.lo * 4096 + 2 ^ CYC_IMG.OUT_LEN.lo * 4096))], [], 0, [], [], [], []⟩, ⟨⟨0, 0, 0, true, true⟩, ⟨0, 0, 0, true, true⟩, 0, 1, [(CYC_IMG.IN_LEN.addr, BitVec.ofNat 32 (2 ^ CYC_IMG.IN_LEN.lo * 4096 + 2 ^ CYC_IMG.OUT_LEN.lo * 4096))], [], 0, [], [], [], []⟩, 240, 1, 1, 1, _, rfl, by decide +kernel⟩
theorem witness_BootChain_4 : ∃ (s : State) (t : Nat) (fw0 fw1 : SigCheck) (imgA imgB : SlotImage) (sup : Nat) (r0 r1 r2 : BitVec 4) (v : State), (v = s.at_ t) ∧ (v.get SYS_STAT.MODE = 0) ∧ (v.pwr.inReset = false) ∧ (v.pwr.dormant = false) ∧ (v.boot.stopped = false) ∧ (v.boot.noSlot = none) ∧ (v.flag REC_STAT.READY = true) ∧ (v.imageValid (v.supFirmware 0) 1 fw0 = true ∨ v.imageValid (v.supFirmware 1) 1 fw1 = true) ∧ ((({ v with boot := { v.boot with lamp := some v.localNow } } : State).selectSlot (fun n => if n = 0 then imgA else imgB) sup).2 = false) :=
  ⟨(let x := (((({ State.reset with pwr := { State.reset.pwr with inReset := false } }.put REC_STAT.READY 1).put UPD_OTP.RSA_PROG 15).put UPD_OTP.SLH_PROG 15) : State); { x with nv := { x.nv with images := [(0, ([1, 0x30, 0x48, 0xEA, 2, 0, 0, 0, 0, 1, 0, 0] ++ List.replicate 36 0 ++ [1])), (1, ([1, 0x30, 0x48, 0xEA, 3, 0, 0, 0, 0, 1, 0, 0] ++ List.replicate 36 0 ++ [1])), (2, ([1, 0x30, 0x48, 0xEA, 2, 0, 0, 0, 0, 1, 0, 0] ++ List.replicate 36 0 ++ [1])), (3, ([1, 0x30, 0x48, 0xEA, 3, 0, 0, 0, 0, 1, 0, 0] ++ List.replicate 36 0 ++ [1])), (4, ([1, 0x30, 0x48, 0xEA, 1, 0, 0, 0, 0, 1, 0, 0] ++ List.replicate 36 0 ++ [1]))] } }), 0, ⟨0, 0, 0, true, true⟩, ⟨0, 0, 0, false, true⟩, ⟨⟨0, 0, 0, true, true⟩, ⟨0, 0, 0, true, true⟩, 0, 1, [], [], 0, [], [], [], []⟩, ⟨⟨0, 0, 0, true, true⟩, ⟨0, 0, 0, true, true⟩, 0, 1, [], [], 0, [], [], [], []⟩, 240, 1, 1, 1, _, rfl, by decide +kernel⟩
theorem witness_BootChain_5 : ∃ (s : State) (img : Nat → SlotImage) (sup p : Nat), (p = s.table.preferred) ∧ ((s.trySlot (1 - p) (img (1 - p)) sup).2 = true) :=
  ⟨(let x := ((let x := (((({ State.reset with pwr := { State.reset.pwr with inReset := false } }.put REC_STAT.READY 1).put UPD_OTP.RSA_PROG 15).put UPD_OTP.SLH_PROG 15) : State); { x with nv := { x.nv with images := [(0, ([1, 0x30, 0x48, 0xEA, 2, 0, 0, 0, 0, 1, 0, 0] ++ List.replicate 36 0 ++ [1])), (1, ([1, 0x30, 0x48, 0xEA, 3, 0, 0, 0, 0, 1, 0, 0] ++ List.replicate 36 0 ++ [1])), (2, ([1, 0x30, 0x48, 0xEA, 2, 0, 0, 0, 0, 1, 0, 0] ++ List.replicate 36 0 ++ [1])), (3, ([1, 0x30, 0x48, 0xEA, 3, 0, 0, 0, 0, 1, 0, 0] ++ List.replicate 36 0 ++ [1])), (4, ([1, 0x30, 0x48, 0xEA, 1, 0, 0, 0, 0, 1, 0, 0] ++ List.replicate 36 0 ++ [1]))] } }) : State); x.writeTable { x.table with b := ⟨2, 0, 0, 7, 0⟩ }), fun _ => ⟨⟨0, 0, 0, true, true⟩, ⟨0, 0, 0, true, true⟩, 0, 1, [(CYC_IMG.IN_LEN.addr, BitVec.ofNat 32 (2 ^ CYC_IMG.IN_LEN.lo * 4096 + 2 ^ CYC_IMG.OUT_LEN.lo * 4096))], [], 0, [], [], [], []⟩, 240, 0, by decide +kernel⟩
theorem witness_BootChain_6 : ∃ (s : State) (img : Nat → SlotImage) (sup p : Nat), (p = s.table.preferred) ∧ ((s.trySlot (1 - p) (img (1 - p)) sup).2 = false) ∧ (((s.trySlot (1 - p) (img (1 - p)) sup).1.goodSlot p (img p) sup).2 = true) :=
  ⟨(let x := ((let x := (((({ State.reset with pwr := { State.reset.pwr with inReset := false } }.put REC_STAT.READY 1).put UPD_OTP.RSA_PROG 15).put UPD_OTP.SLH_PROG 15) : State); { x with nv := { x.nv with images := [(0, ([1, 0x30, 0x48, 0xEA, 2, 0, 0, 0, 0, 1, 0, 0] ++ List.replicate 36 0 ++ [1])), (1, ([1, 0x30, 0x48, 0xEA, 3, 0, 0, 0, 0, 1, 0, 0] ++ List.replicate 36 0 ++ [1])), (2, ([1, 0x30, 0x48, 0xEA, 2, 0, 0, 0, 0, 1, 0, 0] ++ List.replicate 36 0 ++ [1])), (3, ([1, 0x30, 0x48, 0xEA, 3, 0, 0, 0, 0, 1, 0, 0] ++ List.replicate 36 0 ++ [1])), (4, ([1, 0x30, 0x48, 0xEA, 1, 0, 0, 0, 0, 1, 0, 0] ++ List.replicate 36 0 ++ [1]))] } }) : State); x.writeTable { x.table with a := ⟨3, 0, 0, 7, 0⟩ }), fun _ => ⟨⟨0, 0, 0, true, true⟩, ⟨0, 0, 0, true, true⟩, 0, 1, [(CYC_IMG.IN_LEN.addr, BitVec.ofNat 32 (2 ^ CYC_IMG.IN_LEN.lo * 4096 + 2 ^ CYC_IMG.OUT_LEN.lo * 4096))], [], 0, [], [], [], []⟩, 240, 0, by decide +kernel⟩
theorem witness_BootChain_7 : ∃ (s : State) (img : Nat → SlotImage) (sup p : Nat), (p = s.table.preferred) ∧ ((s.trySlot (1 - p) (img (1 - p)) sup).2 = false) ∧ (((s.trySlot (1 - p) (img (1 - p)) sup).1.goodSlot p (img p) sup).2 = false) ∧ ((((s.trySlot (1 - p) (img (1 - p)) sup).1.goodSlot p (img p) sup).1.goodSlot (1 - p) (img (1 - p)) sup).2 = true) :=
  ⟨(let x := ((let x := (((({ State.reset with pwr := { State.reset.pwr with inReset := false } }.put REC_STAT.READY 1).put UPD_OTP.RSA_PROG 15).put UPD_OTP.SLH_PROG 15) : State); { x with nv := { x.nv with images := [(0, ([1, 0x30, 0x48, 0xEA, 2, 0, 0, 0, 0, 1, 0, 0] ++ List.replicate 36 0 ++ [1])), (1, ([1, 0x30, 0x48, 0xEA, 3, 0, 0, 0, 0, 1, 0, 0] ++ List.replicate 36 0 ++ [1])), (2, ([1, 0x30, 0x48, 0xEA, 2, 0, 0, 0, 0, 1, 0, 0] ++ List.replicate 36 0 ++ [1])), (3, ([1, 0x30, 0x48, 0xEA, 3, 0, 0, 0, 0, 1, 0, 0] ++ List.replicate 36 0 ++ [1])), (4, ([1, 0x30, 0x48, 0xEA, 1, 0, 0, 0, 0, 1, 0, 0] ++ List.replicate 36 0 ++ [1]))] } }) : State); x.writeTable { x.table with b := ⟨3, 0, 0, 7, 0⟩ }), fun _ => ⟨⟨0, 0, 0, true, true⟩, ⟨0, 0, 0, true, true⟩, 0, 1, [(CYC_IMG.IN_LEN.addr, BitVec.ofNat 32 (2 ^ CYC_IMG.IN_LEN.lo * 4096 + 2 ^ CYC_IMG.OUT_LEN.lo * 4096))], [], 0, [], [], [], []⟩, 240, 0, by decide +kernel⟩
theorem witness_BootChain_8 : ∃ (s : State) (img : Nat → SlotImage) (sup p : Nat), (p = s.table.preferred) ∧ ((s.trySlot (1 - p) (img (1 - p)) sup).2 = false) ∧ (((s.trySlot (1 - p) (img (1 - p)) sup).1.goodSlot p (img p) sup).2 = false) ∧ ((((s.trySlot (1 - p) (img (1 - p)) sup).1.goodSlot p (img p) sup).1.goodSlot (1 - p) (img (1 - p)) sup).2 = false) :=
  ⟨(let x := (((({ State.reset with pwr := { State.reset.pwr with inReset := false } }.put REC_STAT.READY 1).put UPD_OTP.RSA_PROG 15).put UPD_OTP.SLH_PROG 15) : State); { x with nv := { x.nv with images := [(0, ([1, 0x30, 0x48, 0xEA, 2, 0, 0, 0, 0, 1, 0, 0] ++ List.replicate 36 0 ++ [1])), (1, ([1, 0x30, 0x48, 0xEA, 3, 0, 0, 0, 0, 1, 0, 0] ++ List.replicate 36 0 ++ [1])), (2, ([1, 0x30, 0x48, 0xEA, 2, 0, 0, 0, 0, 1, 0, 0] ++ List.replicate 36 0 ++ [1])), (3, ([1, 0x30, 0x48, 0xEA, 3, 0, 0, 0, 0, 1, 0, 0] ++ List.replicate 36 0 ++ [1])), (4, ([1, 0x30, 0x48, 0xEA, 1, 0, 0, 0, 0, 1, 0, 0] ++ List.replicate 36 0 ++ [1]))] } }), fun _ => ⟨⟨0, 0, 0, true, true⟩, ⟨0, 0, 0, true, true⟩, 0, 1, [], [], 0, [], [], [], []⟩, 240, 0, by decide +kernel⟩
theorem witness_BootChain_9 : ∃ (s : State) (t : Nat) (r0 r1 r2 : BitVec 4) (k x : Nat) (v : State), (v = s.at_ t) ∧ (v.boot.noSlot = some (k, x)) ∧ (v.get SYS_STAT.MODE = 0) ∧ (v.boot.stopped = false) ∧ (x + 1000000000 ≤ v.localNow) :=
  ⟨{ ({ State.reset with time := { State.reset.time with edge := 1000000000 } } : State) with boot := { State.reset.boot with noSlot := some (3, 0) } }, 0, 1, 1, 1, 3, 0, _, rfl, by decide +kernel⟩
theorem witness_BootChain_10 : ∃ (s : State) (t : Nat) (r0 r1 r2 : BitVec 4) (v : State), (v = s.at_ t) ∧ (v.get SYS_STAT.MODE ≠ 0 ∨ v.boot.stopped = true ∨ ∀ y ∈ v.boot.noSlot, v.localNow < y.2 + 1000000000) :=
  ⟨State.reset, 0, 1, 1, 1, _, rfl, by decide +kernel⟩
theorem witness_BootChain_11 : ∃ (s : State) (r0 r1 r2 : BitVec 4), (r0 ≠ r1 ∨ r1 ≠ r2 ∨ r0 = 15 ∨ s.boot.personalities.find? (fun p => p.1 == r0.toNat) = none) :=
  ⟨State.reset, 1, 1, 2, by decide +kernel⟩
theorem witness_BootChain_12 : ∃ (s : State) (r : BitVec 4) (words : List (Nat × BitVec 32)), (r ≠ 15) ∧ ((s.boot.personalities.find? (fun p => p.1 == r.toNat)) = some (r.toNat, words)) :=
  ⟨{ (State.reset : State) with boot := { State.reset.boot with personalities := [(14, [])] } }, 14, [], by decide +kernel⟩
theorem witness_BootChain_13 : ∃ (s : State) (t : Nat) (v : State), (v = s.at_ t) ∧ (v.flag REC_STAT.READY = false) ∧ (v.pwr.inReset = false) ∧ (v.pwr.dormant = false) :=
  ⟨({ State.reset with pwr := { State.reset.pwr with inReset := false } }.put REC_STAT.READY 0), 0, _, rfl, by decide +kernel⟩
theorem witness_BootChain_14 : ∃ (s : State) (t : Nat) (v : State), (v = s.at_ t) ∧ (¬ (v.flag REC_STAT.READY = false ∧ v.pwr.inReset = false ∧ v.pwr.dormant = false)) :=
  ⟨State.reset, 0, _, rfl, by decide +kernel⟩
theorem witness_BootChain_15 : ∃ (s : State) (t : Nat) (x : Nat) (v : State), (v = s.at_ t) ∧ (v.boot.lamp = some x) ∧ (x + 1000000000 ≤ v.localNow) :=
  ⟨{ ({ State.reset with time := { State.reset.time with edge := 1000000000 } } : State) with boot := { State.reset.boot with lamp := some 0 } }, 0, 0, _, rfl, by decide +kernel⟩
theorem witness_BootChain_16 : ∃ (s : State) (t : Nat) (v : State), (v = s.at_ t) ∧ (∀ x ∈ v.boot.lamp, v.localNow < x + 1000000000) :=
  ⟨{ ({ State.reset with time := { State.reset.time with edge := 0 } } : State) with boot := { State.reset.boot with lamp := some 0 } }, 0, _, rfl, by decide +kernel⟩
theorem witness_UpdateEvents_1 : ∃ (s : State) (t : Nat) (high r : Nat) (v : State), (v = s.at_ t) ∧ (v.boot.release.release = some high) ∧ (v.get SYS_STAT.MODE = 4) ∧ (v.flag UPD_LOCKRST.CH_EN = true) ∧ (800 ≤ high) ∧ (high ≤ 80000) ∧ (r = v.get SYS_STAT.LREASON) ∧ (2 ≤ r) ∧ (r ≤ 6) ∧ (bitOf (v.get UPD_LOCKRST.EDGE) r = true) :=
  ⟨{ (((((State.reset.put SYS_STAT.MODE 4).put UPD_LOCKRST.CH_EN 1).put SYS_STAT.LREASON 2).put UPD_LOCKRST.EDGE 0xFF) : State) with boot := { State.reset.boot with release := ⟨false, 0, 0, some 80000⟩ } }, 0, 80000, 2, _, rfl, by decide⟩
theorem witness_UpdateEvents_2 : ∃ (s : State) (t : Nat) (high : Nat) (v : State), (v = s.at_ t) ∧ (v.boot.release.release = some high) ∧ (v.get SYS_STAT.MODE = 4) ∧ (v.flag UPD_LOCKRST.CH_EN = true) ∧ (high < 800 ∨ 80000 < high ∨ v.get SYS_STAT.LREASON < 2 ∨ 6 < v.get SYS_STAT.LREASON ∨ bitOf (v.get UPD_LOCKRST.EDGE) (v.get SYS_STAT.LREASON) = false) :=
  ⟨{ (((((State.reset.put SYS_STAT.MODE 4).put UPD_LOCKRST.CH_EN 1).put SYS_STAT.LREASON 2).put UPD_LOCKRST.EDGE 0xFF) : State) with boot := { State.reset.boot with release := ⟨false, 0, 0, some 799⟩ } }, 0, 799, _, rfl, by decide⟩
theorem witness_UpdateEvents_3 : ∃ (s : State) (t : Nat) (v : State), (v = s.at_ t) ∧ (v.boot.release.release = none ∨ v.get SYS_STAT.MODE ≠ 4 ∨ v.flag UPD_LOCKRST.CH_EN = false) :=
  ⟨State.reset, 0, _, rfl, by decide⟩
theorem witness_UpdateEvents_4 : ∃ (s : State) (t : Nat) (v : State), (v = s.at_ t) ∧ (1 ≤ v.get UPD_CFG2.ENV_SAVE) ∧ (v.get SYS_STAT.MODE ≠ 0) ∧ (v.boot.saveAt + min 144 (v.get UPD_CFG2.ENV_SAVE) * 600000000000 ≤ v.localNow) ∧ (v.get DOOR_LEARN_CNT ≠ v.boot.savedLearn) :=
  ⟨{ (((State.reset.put SYS_STAT.MODE 1).put UPD_CFG2.ENV_SAVE 1).put DOOR_LEARN_CNT 1) with time := { State.reset.time with edge := 600000000000 } }, 0, _, rfl, by decide⟩
theorem witness_UpdateEvents_5 : ∃ (s : State) (t : Nat) (v : State), (v = s.at_ t) ∧ (1 ≤ v.get UPD_CFG2.ENV_SAVE) ∧ (v.get SYS_STAT.MODE ≠ 0) ∧ (v.boot.saveAt + min 144 (v.get UPD_CFG2.ENV_SAVE) * 600000000000 ≤ v.localNow) ∧ (v.get DOOR_LEARN_CNT = v.boot.savedLearn) :=
  ⟨{ (((State.reset.put SYS_STAT.MODE 1).put UPD_CFG2.ENV_SAVE 1).put DOOR_LEARN_CNT 0) with time := { State.reset.time with edge := 600000000000 } }, 0, _, rfl, by decide⟩
theorem witness_UpdateEvents_6 : ∃ (s : State) (t : Nat) (v : State), (v = s.at_ t) ∧ (v.get UPD_CFG2.ENV_SAVE = 0 ∨ v.get SYS_STAT.MODE = 0 ∨ v.localNow < v.boot.saveAt + min 144 (v.get UPD_CFG2.ENV_SAVE) * 600000000000) :=
  ⟨State.reset, 0, _, rfl, by decide⟩
theorem witness_UpdateEvents_7 : ∃ (s : State) (t : Nat) (v : State), (v = s.at_ t) ∧ (v.get UPD_STAT.ACT = 2) ∧ (v.flag UPD_STAT.DEFER = false) ∧ (v.boot.resetWait = none) ∧ (v.get UPD_ACT_AT.AT ≤ v.consNow) ∧ (v.flag TIME_STAT.CONS_SYNC = true) :=
  ⟨((((State.reset.put UPD_STAT.ACT 2).put UPD_STAT.DEFER 0).put UPD_ACT_AT.AT 0).put TIME_STAT.CONS_SYNC 1), 0, _, rfl, by decide⟩
theorem witness_UpdateEvents_8 : ∃ (s : State) (t : Nat) (v : State), (v = s.at_ t) ∧ (v.get UPD_STAT.ACT = 2) ∧ (v.flag UPD_STAT.DEFER = false) ∧ (v.boot.resetWait = none) ∧ (v.get UPD_ACT_AT.AT ≤ v.consNow) ∧ (v.flag TIME_STAT.CONS_SYNC = false) :=
  ⟨(((((State.reset.put UPD_STAT.ACT 2).put UPD_STAT.DEFER 0).put UPD_ACT_AT.AT 0).put TIME_STAT.CONS_SYNC 1).put TIME_STAT.CONS_SYNC 0), 0, _, rfl, by decide⟩
theorem witness_UpdateEvents_9 : ∃ (s : State) (t : Nat) (v : State), (v = s.at_ t) ∧ (v.get UPD_STAT.ACT ≠ 2 ∨ v.flag UPD_STAT.DEFER = true ∨ v.boot.resetWait ≠ none ∨ v.consNow < v.get UPD_ACT_AT.AT) :=
  ⟨State.reset, 0, _, rfl, by decide⟩
theorem witness_UpdateEvents_10 : ∃ (s : State) (t : Nat) (v : State), (v = s.at_ t) ∧ (v.flag UPD_STAT.DEFER = true) ∧ (v.boot.deferSwap = false) ∧ (v.boot.deferAt + atLeast1 (v.get UPD_CFG2.DEFER_S) * 100000000000 ≤ v.localNow) :=
  ⟨{ (State.reset.put UPD_STAT.DEFER 1) with time := { State.reset.time with edge := 25500000000000 } }, 0, _, rfl, by decide⟩
theorem witness_UpdateEvents_11 : ∃ (s : State) (t : Nat) (v : State), (v = s.at_ t) ∧ (¬ (v.flag UPD_STAT.DEFER = true ∧ v.boot.deferSwap = false ∧ v.boot.deferAt + atLeast1 (v.get UPD_CFG2.DEFER_S) * 100000000000 ≤ v.localNow)) :=
  ⟨State.reset, 0, _, rfl, by decide⟩
theorem witness_UpdateEvents_12 : ∃ (s : State) (t : Nat) (v : State), (v = s.at_ t) ∧ (v.unlocked .tri 0x14 = true) ∧ ((v.dropUnlock .tri).flag UPD_STAT.TRIAL = true) ∧ (atLeast1 ((v.dropUnlock .tri).get UPD_CFG2.CLEAN_CYC) ≤ (v.dropUnlock .tri).get UPD_CLEAN.CLEAN) ∧ (v.boot.resetWait = none) :=
  ⟨{ ((((State.reset.put UPD_STAT.TRIAL 1).put UPD_CLEAN.CLEAN 0xFFFF).put UPD_CFG.REQ 1) : State) with regg := { State.reset.regg with unlocks := [(0, ⟨0x14, 0⟩)] } }, 0, _, rfl, by decide⟩
theorem witness_UpdateEvents_13 : ∃ (s : State) (t : Nat) (who : Initiator) (v : State), (v = s.at_ t) ∧ (v.acts who = true) ∧ (who.isService = true) ∧ (v.unlocked who 0x14 = true) ∧ ((v.dropUnlock who).flag UPD_STAT.TRIAL = true) ∧ (v.boot.resetWait = none) :=
  ⟨{ (((({ up with pwr := { State.reset.pwr with inReset := false } }.put SYS_STAT.MODE 1).put UPD_STAT.TRIAL 1).put UPD_CFG.REQ 3) : State) with regg := { State.reset.regg with unlocks := [(1, ⟨0x14, 0⟩)] } }, 0, .s0, _, rfl, by decide⟩
theorem witness_UpdateEvents_14 : ∃ (s : State) (t : Nat) (v : State), (v = s.at_ t) ∧ (v.unlocked .tri 0x14 = true) ∧ ((v.dropUnlock .tri).flag UPD_STAT.TRIAL = false ∨ (v.dropUnlock .tri).get UPD_CLEAN.CLEAN < atLeast1 ((v.dropUnlock .tri).get UPD_CFG2.CLEAN_CYC) ∨ v.boot.resetWait ≠ none) :=
  ⟨{ (State.reset : State) with regg := { State.reset.regg with unlocks := [(0, ⟨0x14, 0⟩)] } }, 0, _, rfl, by decide⟩
theorem witness_UpdateEvents_15 : ∃ (s : State) (t : Nat) (who : Initiator) (v : State), (v = s.at_ t) ∧ (v.acts who = true) ∧ (who.isService = true) ∧ (v.unlocked who 0x14 = true) ∧ ((v.dropUnlock who).flag UPD_STAT.TRIAL = false ∨ v.boot.resetWait ≠ none) :=
  ⟨{ (({ up with pwr := { State.reset.pwr with inReset := false } }.put SYS_STAT.MODE 1) : State) with regg := { State.reset.regg with unlocks := [(1, ⟨0x14, 0⟩)] } }, 0, .s0, _, rfl, by decide⟩
theorem witness_UpdateEvents_16 : ∃ (s : State) (t : Nat) (who : Initiator) (v : State), (v = s.at_ t) ∧ (v.acts who = true) ∧ (who.isService = true) ∧ (v.unlocked who 0x14 = true) :=
  ⟨{ ((({ up with pwr := { State.reset.pwr with inReset := false } }.put SYS_STAT.MODE 1).put UPD_STAT.TRIAL 1) : State) with regg := { State.reset.regg with unlocks := [(1, ⟨0x14, 0⟩)] } }, 0, .s0, _, rfl, by decide⟩
theorem witness_UpdateEvents_17 : ∃ (s : State) (t : Nat) (v : State), (v = s.at_ t) ∧ (v.unlocked .tri 0x14 = true) :=
  ⟨{ ((((State.reset.put UPD_STAT.TRIAL 1).put UPD_CLEAN.CLEAN 0xFFFF).put UPD_CFG.REQ 1) : State) with regg := { State.reset.regg with unlocks := [(0, ⟨0x14, 0⟩)] } }, 0, _, rfl, by decide⟩
theorem witness_UpdateEvents_18 : ∃ (s : State) (t : Nat) (v : State), (v = s.at_ t) ∧ (v.acts .s0 = true) ∧ (v.unlocked .s0 0x14 = true) :=
  ⟨{ ((({ State.reset with pwr := { State.reset.pwr with inReset := false } }.put SYS_STAT.MODE 1).put UPD_STAT.TRIAL 1) : State) with regg := { State.reset.regg with unlocks := [(1, ⟨0x14, 0⟩)] } }, 0, _, rfl, by decide⟩
theorem witness_UpdateEvents_19 : ∃ (s : State) (t : Nat) (who : Initiator) (v : State), (v = s.at_ t) ∧ (v.acts who = true) ∧ (who ≠ .boot) ∧ (v.unlocked who 0x14 = false) :=
  ⟨up, 0, .s0, _, rfl, by decide⟩
theorem witness_UpdateEvents_20 : ∃ (s : State) (t : Nat) (v : State), (v = s.at_ t) :=
  ⟨State.reset, 0, _, rfl⟩
theorem witness_UpdateEvents_21 : ∃ (s : State) (t : Nat) (who : Initiator) (v : State), (v = s.at_ t) ∧ (v.acts who = true) ∧ (who ≠ .boot) ∧ (v.unlocked who 0x14 = false) :=
  ⟨up, 0, .s0, _, rfl, by decide⟩
theorem witness_UpdateEvents_22 : ∃ (s : State) (t : Nat) (v : State), (v = s.at_ t) :=
  ⟨State.reset, 0, _, rfl⟩
theorem witness_UpdateEvents_23 : ∃ (s : State) (t : Nat) (v : State), (v = s.at_ t) ∧ (v.flag UPD_STAT.TRIAL = true) ∧ (v.get SYS_STAT.MODE ≠ 0) ∧ (v.boot.exitAt + v.confWin * 1000000000 ≤ v.localNow) :=
  ⟨{ ((((State.reset.put UPD_STAT.TRIAL 1).put UPD_CLEAN.CLEAN 0xFFFF).put UPD_CFG.REQ 1).put SYS_STAT.MODE 1) with time := { State.reset.time with edge := 3600000000000 } }, 0, _, rfl, by decide⟩
theorem witness_UpdateEvents_24 : ∃ (s : State) (t : Nat) (v : State), (v = s.at_ t) ∧ (¬ (v.flag UPD_STAT.TRIAL = true ∧ v.get SYS_STAT.MODE ≠ 0 ∧ v.boot.exitAt + v.confWin * 1000000000 ≤ v.localNow)) :=
  ⟨State.reset, 0, _, rfl, by decide⟩
theorem witness_ServiceRequests_1 : ∃ (s : State) (t : Nat) (v : State), (v = s.at_ t) ∧ (v.serviceUp = false) :=
  ⟨State.reset, 0, _, rfl, by decide⟩
theorem witness_ServiceRequests_2 : ∃ (s : State) (t : Nat) (v : State), (v = s.at_ t) ∧ (v.serviceUp = false) :=
  ⟨State.reset, 0, _, rfl, by decide⟩
theorem witness_ServiceRequests_3 : ∃ (s : State) (t : Nat) (tok : List Byte) (len rsaBy slhBy : Nat) (addr : BitVec 32) (port : BitVec 16) (v : State), (v = s.at_ t) ∧ (v.serviceUp = false) :=
  ⟨State.reset, 0, [], 0, 0, 0, 0, 0, _, rfl, by decide⟩
theorem witness_ServiceRequests_4 : ∃ (s : State) (t : Nat) (addr : BitVec 32) (port : BitVec 16) (offset : BitVec 32) (data : List Byte) (v : State), (v = s.at_ t) ∧ (v.serviceUp = false) :=
  ⟨State.reset, 0, 0, 0, 0, [], _, rfl, by decide⟩
theorem witness_ServiceRequests_5 : ∃ (s : State) (t : Nat) (part : BitVec 8) (first : BitVec 32) (count : BitVec 8) (v : State), (v = s.at_ t) ∧ (v.serviceUp = false) :=
  ⟨State.reset, 0, 0, 0, 1, _, rfl, by decide⟩
theorem witness_ServiceRequests_6 : ∃ (s : State) (t : Nat) (addr : BitVec 32) (port : BitVec 16) (v : State), (v = s.at_ t) ∧ (v.serviceUp = false) :=
  ⟨State.reset, 0, 0, 0, _, rfl, by decide⟩
theorem witness_ServiceRequests_7 : ∃ (s : State) (t : Nat) (who : Initiator) (addr src : BitVec 32) (port : BitVec 16) (v : State), (v = s.at_ t) ∧ (v.acts who = false) :=
  ⟨State.reset, 0, .s0, 0, 0, 0, _, rfl, by decide⟩
theorem witness_ServiceRequests_8 : ∃ (s : State) (t : Nat) (v : State), (v = s.at_ t) ∧ (v.serviceUp = true) :=
  ⟨({ State.reset with pwr := { State.reset.pwr with inReset := false } }.put SYS_STAT.MODE 1), 0, _, rfl, by decide⟩
theorem witness_ServiceRequests_9 : ∃ (s : State) (t : Nat) (v : State), (v = s.at_ t) ∧ (v.serviceUp = true) :=
  ⟨({ State.reset with pwr := { State.reset.pwr with inReset := false } }.put SYS_STAT.MODE 1), 0, _, rfl, by decide⟩
theorem witness_ServiceRequests_10 : ∃ (s : State) (t : Nat) (tok : List Byte) (len rsaBy slhBy : Nat) (addr : BitVec 32) (port : BitVec 16) (v : State), (v = s.at_ t) ∧ (v.serviceUp = true) ∧ (v.loginOk tok len rsaBy slhBy = false) :=
  ⟨({ State.reset with pwr := { State.reset.pwr with inReset := false } }.put SYS_STAT.MODE 1), 0, [], 0, 0, 0, 7, 8, _, rfl, by decide⟩
theorem witness_ServiceRequests_11 : ∃ (s : State) (t : Nat) (tok : List Byte) (len rsaBy slhBy : Nat) (addr : BitVec 32) (port : BitVec 16) (v : State), (v = s.at_ t) ∧ (v.serviceUp = true) ∧ (v.loginOk tok len rsaBy slhBy = true) :=
  ⟨{ ((({ State.reset with pwr := { State.reset.pwr with inReset := false } }.put SYS_STAT.MODE 1).put SAFE_PUID.UID 0) : State) with boot := { State.reset.boot with nonce := some (0, 0), authorities := [(1, 2)] } }, 0, [0x70, 0x30, 0x48, 0xEA, 1, 0, 0x1F, 0] ++ List.replicate 8 0 ++ List.replicate 56 0, 16680, 1, 2, 7, 8, _, rfl, by decide⟩
theorem witness_ServiceRequests_12 : ∃ (s : State) (t : Nat) (addr : BitVec 32) (port : BitVec 16) (offset : BitVec 32) (data : List Byte) (v : State), (v = s.at_ t) ∧ (v.serviceUp = true) ∧ (v.fromSession addr.toNat port.toNat = true) ∧ (v.hasRole 2 = true) ∧ (data.length ≤ 61440) :=
  ⟨{ (({ State.reset with pwr := { State.reset.pwr with inReset := false } }.put SYS_STAT.MODE 1) : State) with boot := { State.reset.boot with session := some ⟨31, 999, 77, 5, 6, 0⟩ } }, 0, 5, 6, 0xFFFFFFFF, [1], _, rfl, by decide⟩
theorem witness_ServiceRequests_13 : ∃ (s : State) (t : Nat) (addr : BitVec 32) (port : BitVec 16) (offset : BitVec 32) (data : List Byte) (v : State), (v = s.at_ t) ∧ (v.serviceUp = true) ∧ (v.fromSession addr.toNat port.toNat = false ∨ v.hasRole 2 = false ∨ 61440 < data.length) :=
  ⟨({ State.reset with pwr := { State.reset.pwr with inReset := false } }.put SYS_STAT.MODE 1), 0, 5, 6, 0, [1], _, rfl, by decide⟩
theorem witness_ServiceRequests_14 : ∃ (s : State) (t : Nat) (part : BitVec 8) (first : BitVec 32) (count : BitVec 8) (v : State), (v = s.at_ t) ∧ (v.serviceUp = true) ∧ (¬ (part.toNat < 4 ∧ 1 ≤ count.toNat ∧ count.toNat ≤ 16 ∧ (first.toNat = 0xFFFFFFFF ∨ first.toNat < partCap part.toNat))) :=
  ⟨({ State.reset with pwr := { State.reset.pwr with inReset := false } }.put SYS_STAT.MODE 1), 0, 4, 0, 1, _, rfl, by decide⟩
theorem witness_ServiceRequests_15 : ∃ (s : State) (t : Nat) (part : BitVec 8) (first : BitVec 32) (count : BitVec 8) (start : Nat) (v : State), (v = s.at_ t) ∧ (v.serviceUp = true) ∧ (part.toNat < 4) ∧ (1 ≤ count.toNat) ∧ (count.toNat ≤ 16) ∧ (first.toNat = 0xFFFFFFFF ∨ first.toNat < partCap part.toNat) ∧ (start = if first.toNat = 0xFFFFFFFF then v.get (REC_PART.OLDEST part.toNat) else first.toNat) ∧ (v.get (REC_PART.COUNT part.toNat) = 0 ∨ (start = v.get (REC_PART.NEXT part.toNat) ∧ v.get (REC_PART.COUNT part.toNat) < partCap part.toNat)) :=
  ⟨({ State.reset with pwr := { State.reset.pwr with inReset := false } }.put SYS_STAT.MODE 1), 0, 3, 114687, 16, 114687, _, rfl, by decide⟩
theorem witness_ServiceRequests_16 : ∃ (s : State) (t : Nat) (part : BitVec 8) (first : BitVec 32) (count : BitVec 8) (start : Nat) (l : List Nat) (v : State), (v = s.at_ t) ∧ (v.serviceUp = true) ∧ (part.toNat < 4) ∧ (1 ≤ count.toNat) ∧ (count.toNat ≤ 16) ∧ (first.toNat = 0xFFFFFFFF ∨ first.toNat < partCap part.toNat) ∧ (start = if first.toNat = 0xFFFFFFFF then v.get (REC_PART.OLDEST part.toNat) else first.toNat) ∧ (v.get (REC_PART.COUNT part.toNat) ≠ 0 ∧ (start ≠ v.get (REC_PART.NEXT part.toNat) ∨ partCap part.toNat ≤ v.get (REC_PART.COUNT part.toNat))) ∧ (l = ringFrom part.toNat (v.get (REC_PART.NEXT part.toNat)) count.toNat start) :=
  ⟨((({ State.reset with pwr := { State.reset.pwr with inReset := false } }.put SYS_STAT.MODE 1).put (REC_PART.COUNT 3) 1).put (REC_PART.NEXT 3) 1), 0, 3, 0xFFFFFFFF, 1, 0, [0], _, rfl, by decide⟩
theorem witness_ServiceRequests_17 : ∃ (s : State) (t : Nat) (addr : BitVec 32) (port : BitVec 16) (v : State), (v = s.at_ t) ∧ (v.serviceUp = true) ∧ (v.fromSession addr.toNat port.toNat = true) :=
  ⟨{ (({ State.reset with pwr := { State.reset.pwr with inReset := false } }.put SYS_STAT.MODE 1) : State) with boot := { State.reset.boot with session := some ⟨31, 999, 77, 5, 6, 0⟩ } }, 0, 5, 6, _, rfl, by decide⟩
theorem witness_ServiceRequests_18 : ∃ (s : State) (t : Nat) (addr : BitVec 32) (port : BitVec 16) (v : State), (v = s.at_ t) ∧ (v.serviceUp = true) ∧ (v.fromSession addr.toNat port.toNat = false) :=
  ⟨({ State.reset with pwr := { State.reset.pwr with inReset := false } }.put SYS_STAT.MODE 1), 0, 5, 6, _, rfl, by decide⟩
theorem witness_ServiceRequests_19 : ∃ (s : State) (t : Nat) (x : Session) (v : State), (v = s.at_ t) ∧ (v.boot.session = some x) ∧ (x.notAfter ≤ v.rtcSec ∨ x.last + 600000000000 ≤ v.localNow) :=
  ⟨{ (({ State.reset with pwr := { State.reset.pwr with inReset := false } }.put SYS_STAT.MODE 1) : State) with boot := { State.reset.boot with session := some ⟨31, 0, 77, 5, 6, 0⟩ } }, 0, ⟨31, 0, 77, 5, 6, 0⟩, _, rfl, by decide⟩
theorem witness_ServiceRequests_20 : ∃ (s : State) (t : Nat) (v : State), (v = s.at_ t) ∧ (∀ x ∈ v.boot.session, v.rtcSec < x.notAfter ∧ v.localNow < x.last + 600000000000) :=
  ⟨{ (({ State.reset with pwr := { State.reset.pwr with inReset := false } }.put SYS_STAT.MODE 1) : State) with boot := { State.reset.boot with session := some ⟨31, 999, 77, 5, 6, 0⟩ } }, 0, _, rfl, by decide⟩
theorem witness_ServiceRequests_21 : ∃ (s : State) (t : Nat) (who : Initiator) (addr src : BitVec 32) (port : BitVec 16) (a : Nat) (b : List Byte) (v : State), (v = s.at_ t) ∧ (v.acts who = true) ∧ (who.isService = true) ∧ (a = addr.toNat / 64 * 64) ∧ (b = (v.consume who 0x14).bytes a 64) ∧ (v.boot.req = none) ∧ (v.fromSession src.toNat port.toNat = true) ∧ (1 ≤ sb b 0) ∧ (sb b 0 ≤ 0x10) :=
  ⟨({ (({ State.reset with pwr := { State.reset.pwr with inReset := false } }.put SYS_STAT.MODE 1) : State) with boot := { State.reset.boot with session := some ⟨31, 999, 77, 5, 6, 0⟩ } }.store 0x10000040 1 5), 0, .s1, 0x1000007F, 5, 6, 0x10000040, _, _, rfl, by decide, by decide, by decide, rfl, by decide, by decide, by decide, by decide⟩
theorem witness_ServiceRequests_22 : ∃ (s : State) (t : Nat) (who : Initiator) (addr src : BitVec 32) (port : BitVec 16) (a : Nat) (b : List Byte) (v : State), (v = s.at_ t) ∧ (v.acts who = true) ∧ (who.isService = true) ∧ (a = addr.toNat / 64 * 64) ∧ (b = (v.consume who 0x14).bytes a 64) ∧ (v.boot.req = none) ∧ (v.fromSession src.toNat port.toNat = true) ∧ (sb b 0 = 0 ∨ 0x10 < sb b 0) :=
  ⟨({ (({ State.reset with pwr := { State.reset.pwr with inReset := false } }.put SYS_STAT.MODE 1) : State) with boot := { State.reset.boot with session := some ⟨31, 999, 77, 5, 6, 0⟩ } }.store 0x10000040 1 0), 0, .s1, 0x1000007F, 5, 6, 0x10000040, _, _, rfl, by decide, by decide, by decide, rfl, by decide, by decide, by decide⟩
theorem witness_ServiceRequests_23 : ∃ (s : State) (t : Nat) (who : Initiator) (addr src : BitVec 32) (port : BitVec 16) (a : Nat) (b : List Byte) (u : State) (v : State), (v = s.at_ t) ∧ (v.acts who = true) ∧ (who.isService = true) ∧ (a = addr.toNat / 64 * 64) ∧ (b = (v.consume who 0x14).bytes a 64) ∧ (v.boot.req = none) ∧ (v.fromSession src.toNat port.toNat = false) ∧ (u = (({ v.consume who 0x14 with boot := { v.boot with req := some (a, b) } } : State).putFlag UPD_STAT.REQ_BUSY true).finishOp 1) :=
  ⟨(({ State.reset with pwr := { State.reset.pwr with inReset := false } }.put SYS_STAT.MODE 1).store 0x10000040 1 5), 0, .s1, 0x1000007F, 5, 6, 0x10000040, _, _, _, rfl, by decide, by decide, by decide, rfl, by decide, by decide, rfl⟩
theorem witness_ServiceRequests_24 : ∃ (s : State) (t : Nat) (who : Initiator) (addr src : BitVec 32) (port : BitVec 16) (v : State), (v = s.at_ t) ∧ (v.acts who = true) ∧ (who.isService = true) ∧ (v.boot.req ≠ none) :=
  ⟨{ (({ State.reset with pwr := { State.reset.pwr with inReset := false } }.put SYS_STAT.MODE 1) : State) with boot := { State.reset.boot with req := some (0, []) } }, 0, .s1, 0, 0, 0, _, rfl, by decide⟩
theorem witness_ServiceRequests_25 : ∃ (s : State) (t : Nat) (who : Initiator) (addr src : BitVec 32) (port : BitVec 16) (v : State), (v = s.at_ t) ∧ (v.acts who = true) ∧ (who.isService = false) :=
  ⟨State.reset, 0, .tri, 0, 0, 0, _, rfl, by decide⟩
theorem witness_ServiceOperations_1 : ∃ (s : State) (t : Nat) (v : State), (v = s.at_ t) ∧ (∀ x ∈ v.boot.req, sb x.2 0 ≠ 0x01) :=
  ⟨State.reset, 0, _, rfl, by decide⟩
theorem witness_ServiceOperations_2 : ∃ (s : State) (t : Nat) (a : Nat) (b : List Byte) (v : State), (v = s.at_ t) ∧ (v.boot.req = some (a, b)) ∧ (sb b 0 = 0x01) ∧ (v.boot.session = none) :=
  ⟨{ (({ State.reset with pwr := { State.reset.pwr with inReset := false } }.put SYS_STAT.MODE 1) : State) with boot := { State.reset.boot with req := some (0x10000000, [0x01]) } }, 0, 0x10000000, [0x01], _, rfl, by decide⟩
theorem witness_ServiceOperations_3 : ∃ (s : State) (t : Nat) (a : Nat) (b : List Byte) (v : State), (v = s.at_ t) ∧ (v.boot.req = some (a, b)) ∧ (sb b 0 = 0x01) ∧ (v.boot.session.isSome = true) ∧ (v.get SYS_STAT.MODE ≠ 2 ∧ v.get SYS_STAT.MODE ≠ 3) :=
  ⟨{ (({ State.reset with pwr := { State.reset.pwr with inReset := false } }.put SYS_STAT.MODE 1) : State) with boot := { State.reset.boot with session := some ⟨31, 999, 77, 5, 6, 0⟩, req := some (0x10000000, [0x01]) } }, 0, 0x10000000, [0x01], _, rfl, by decide⟩
theorem witness_ServiceOperations_4 : ∃ (s : State) (t : Nat) (a : Nat) (b : List Byte) (v : State), (v = s.at_ t) ∧ (v.boot.req = some (a, b)) ∧ (sb b 0 = 0x01) ∧ (v.boot.session.isSome = true) ∧ (v.get SYS_STAT.MODE = 2 ∨ v.get SYS_STAT.MODE = 3) ∧ (v.hasRole 0 = false) :=
  ⟨{ (({ State.reset with pwr := { State.reset.pwr with inReset := false } }.put SYS_STAT.MODE 2) : State) with boot := { State.reset.boot with session := some ⟨0, 999, 77, 5, 6, 0⟩, req := some (0x10000000, [0x01]) } }, 0, 0x10000000, [0x01], _, rfl, by decide⟩
theorem witness_ServiceOperations_5 : ∃ (s : State) (t : Nat) (a : Nat) (b : List Byte) (v : State), (v = s.at_ t) ∧ (v.boot.req = some (a, b)) ∧ (sb b 0 = 0x01) ∧ (v.boot.session.isSome = true) ∧ (v.get SYS_STAT.MODE = 2 ∨ v.get SYS_STAT.MODE = 3) ∧ (v.hasRole 0 = true) ∧ (v.still = false) :=
  ⟨{ (({ State.reset with pwr := { State.reset.pwr with inReset := false } }.put SYS_STAT.MODE 2) : State) with boot := { State.reset.boot with session := some ⟨31, 999, 77, 5, 6, 0⟩, req := some (0x10000000, [0x01]) } }, 0, 0x10000000, [0x01], _, rfl, by decide⟩
theorem witness_ServiceOperations_6 : ∃ (s : State) (t : Nat) (v : State), (v = s.at_ t) ∧ (∀ x ∈ v.boot.req, sb x.2 0 ≠ 0x02) :=
  ⟨State.reset, 0, _, rfl, by decide⟩
theorem witness_ServiceOperations_7 : ∃ (s : State) (t : Nat) (a : Nat) (b : List Byte) (v : State), (v = s.at_ t) ∧ (v.boot.req = some (a, b)) ∧ (sb b 0 = 0x02) ∧ (v.boot.session = none) :=
  ⟨{ (({ State.reset with pwr := { State.reset.pwr with inReset := false } }.put SYS_STAT.MODE 1) : State) with boot := { State.reset.boot with req := some (0x10000000, [0x02]) } }, 0, 0x10000000, [0x02], _, rfl, by decide⟩
theorem witness_ServiceOperations_8 : ∃ (s : State) (t : Nat) (a : Nat) (b : List Byte) (v : State), (v = s.at_ t) ∧ (v.boot.req = some (a, b)) ∧ (sb b 0 = 0x02) ∧ (v.boot.session.isSome = true) ∧ (v.get SYS_STAT.MODE ≠ 1) :=
  ⟨{ (({ State.reset with pwr := { State.reset.pwr with inReset := false } }.put SYS_STAT.MODE 2) : State) with boot := { State.reset.boot with session := some ⟨31, 999, 77, 5, 6, 0⟩, req := some (0x10000000, [0x02]) } }, 0, 0x10000000, [0x02], _, rfl, by decide⟩
theorem witness_ServiceOperations_9 : ∃ (s : State) (t : Nat) (a : Nat) (b : List Byte) (v : State), (v = s.at_ t) ∧ (v.boot.req = some (a, b)) ∧ (sb b 0 = 0x02) ∧ (v.boot.session.isSome = true) ∧ (v.get SYS_STAT.MODE = 1) ∧ (v.hasRole 0 = false) :=
  ⟨{ (({ State.reset with pwr := { State.reset.pwr with inReset := false } }.put SYS_STAT.MODE 1) : State) with boot := { State.reset.boot with session := some ⟨0, 999, 77, 5, 6, 0⟩, req := some (0x10000000, [0x02]) } }, 0, 0x10000000, [0x02], _, rfl, by decide⟩
theorem witness_ServiceOperations_10 : ∃ (s : State) (t : Nat) (cmd : ProgCmd) (v : State), (v = s.at_ t) ∧ (∀ x ∈ v.boot.req, sb x.2 0 ≠ 0x03) :=
  ⟨State.reset, 0, .step, _, rfl, by decide⟩
theorem witness_ServiceOperations_11 : ∃ (s : State) (t : Nat) (cmd : ProgCmd) (a : Nat) (b : List Byte) (v : State), (v = s.at_ t) ∧ (v.boot.req = some (a, b)) ∧ (sb b 0 = 0x03) ∧ (v.boot.session = none) :=
  ⟨{ (({ State.reset with pwr := { State.reset.pwr with inReset := false } }.put SYS_STAT.MODE 1) : State) with boot := { State.reset.boot with req := some (0x10000000, [0x03]) } }, 0, .step, 0x10000000, [0x03], _, rfl, by decide⟩
theorem witness_ServiceOperations_12 : ∃ (s : State) (t : Nat) (cmd : ProgCmd) (a : Nat) (b : List Byte) (v : State), (v = s.at_ t) ∧ (v.boot.req = some (a, b)) ∧ (sb b 0 = 0x03) ∧ (v.boot.session.isSome = true) ∧ (v.get SYS_STAT.MODE ≠ 1 ∧ v.get SYS_STAT.MODE ≠ 3) :=
  ⟨{ (({ State.reset with pwr := { State.reset.pwr with inReset := false } }.put SYS_STAT.MODE 2) : State) with boot := { State.reset.boot with session := some ⟨31, 999, 77, 5, 6, 0⟩, req := some (0x10000000, [0x03]) } }, 0, .step, 0x10000000, [0x03], _, rfl, by decide⟩
theorem witness_ServiceOperations_13 : ∃ (s : State) (t : Nat) (cmd : ProgCmd) (a : Nat) (b : List Byte) (v : State), (v = s.at_ t) ∧ (v.boot.req = some (a, b)) ∧ (sb b 0 = 0x03) ∧ (v.boot.session.isSome = true) ∧ (v.get SYS_STAT.MODE = 1 ∨ v.get SYS_STAT.MODE = 3) ∧ (v.hasRole v.runRole = false) :=
  ⟨{ (({ State.reset with pwr := { State.reset.pwr with inReset := false } }.put SYS_STAT.MODE 1) : State) with boot := { State.reset.boot with session := some ⟨0, 999, 77, 5, 6, 0⟩, req := some (0x10000000, [0x03]) } }, 0, .step, 0x10000000, [0x03], _, rfl, by decide⟩
theorem witness_ServiceOperations_14 : ∃ (s : State) (t : Nat) (cmd : ProgCmd) (a : Nat) (b : List Byte) (v : State), (v = s.at_ t) ∧ (v.boot.req = some (a, b)) ∧ (sb b 0 = 0x03) ∧ (v.boot.session.isSome = true) ∧ (v.get SYS_STAT.MODE = 1 ∨ v.get SYS_STAT.MODE = 3) ∧ (v.hasRole v.runRole = true) ∧ (v.progGuard (progCode cmd) = false) :=
  ⟨{ (({ State.reset with pwr := { State.reset.pwr with inReset := false } }.put SYS_STAT.MODE 1) : State) with boot := { State.reset.boot with session := some ⟨31, 999, 77, 5, 6, 0⟩, req := some (0x10000000, [0x03]) } }, 0, .step, 0x10000000, [0x03], _, rfl, by decide⟩
theorem witness_ServiceOperations_15 : ∃ (s : State) (t : Nat) (v : State), (v = s.at_ t) ∧ (∀ x ∈ v.boot.req, sb x.2 0 ≠ 0x04) :=
  ⟨State.reset, 0, _, rfl, by decide⟩
theorem witness_ServiceOperations_16 : ∃ (s : State) (t : Nat) (a : Nat) (b : List Byte) (v : State), (v = s.at_ t) ∧ (v.boot.req = some (a, b)) ∧ (sb b 0 = 0x04) ∧ (v.boot.session = none) :=
  ⟨{ (({ State.reset with pwr := { State.reset.pwr with inReset := false } }.put SYS_STAT.MODE 1) : State) with boot := { State.reset.boot with req := some (0x10000000, [0x04]) } }, 0, 0x10000000, [0x04], _, rfl, by decide⟩
theorem witness_ServiceOperations_17 : ∃ (s : State) (t : Nat) (a : Nat) (b : List Byte) (v : State), (v = s.at_ t) ∧ (v.boot.req = some (a, b)) ∧ (sb b 0 = 0x04) ∧ (v.boot.session.isSome = true) ∧ (v.get SYS_STAT.MODE ≠ 1) :=
  ⟨{ (({ State.reset with pwr := { State.reset.pwr with inReset := false } }.put SYS_STAT.MODE 2) : State) with boot := { State.reset.boot with session := some ⟨31, 999, 77, 5, 6, 0⟩, req := some (0x10000000, [0x04]) } }, 0, 0x10000000, [0x04], _, rfl, by decide⟩
theorem witness_ServiceOperations_18 : ∃ (s : State) (t : Nat) (a : Nat) (b : List Byte) (v : State), (v = s.at_ t) ∧ (v.boot.req = some (a, b)) ∧ (sb b 0 = 0x04) ∧ (v.boot.session.isSome = true) ∧ (v.get SYS_STAT.MODE = 1) ∧ (v.hasRole 1 = false) :=
  ⟨{ (({ State.reset with pwr := { State.reset.pwr with inReset := false } }.put SYS_STAT.MODE 1) : State) with boot := { State.reset.boot with session := some ⟨0, 999, 77, 5, 6, 0⟩, req := some (0x10000000, [0x04]) } }, 0, 0x10000000, [0x04], _, rfl, by decide⟩
theorem witness_ServiceOperations_19 : ∃ (s : State) (t : Nat) (a : Nat) (b : List Byte) (v : State), (v = s.at_ t) ∧ (v.boot.req = some (a, b)) ∧ (sb b 0 = 0x04) ∧ (v.boot.session.isSome = true) ∧ (v.get SYS_STAT.MODE = 1) ∧ (v.hasRole 1 = true) ∧ (v.progGuard 3 = false) :=
  ⟨{ (({ State.reset with pwr := { State.reset.pwr with inReset := false } }.put SYS_STAT.MODE 1) : State) with boot := { State.reset.boot with session := some ⟨31, 999, 77, 5, 6, 0⟩, req := some (0x10000000, [0x04]) } }, 0, 0x10000000, [0x04], _, rfl, by decide⟩
theorem witness_ServiceOperations_20 : ∃ (s : State) (t : Nat) (fb : Bool) (entry : BitVec 8) (ctrl : BitVec 32) (ident mask value : BitVec 64) (v : State), (v = s.at_ t) ∧ (∀ x ∈ v.boot.req, sb x.2 0 ≠ 0x05) :=
  ⟨State.reset, 0, true, 0, 0, 0, 0, 0, _, rfl, by decide⟩
theorem witness_ServiceOperations_21 : ∃ (s : State) (t : Nat) (fb : Bool) (entry : BitVec 8) (ctrl : BitVec 32) (ident mask value : BitVec 64) (a : Nat) (b : List Byte) (v : State), (v = s.at_ t) ∧ (v.boot.req = some (a, b)) ∧ (sb b 0 = 0x05) ∧ (v.boot.session = none) :=
  ⟨{ (({ State.reset with pwr := { State.reset.pwr with inReset := false } }.put SYS_STAT.MODE 1) : State) with boot := { State.reset.boot with req := some (0x10000000, [0x05]) } }, 0, true, 0, 0, 0, 0, 0, 0x10000000, [0x05], _, rfl, by decide⟩
theorem witness_ServiceOperations_22 : ∃ (s : State) (t : Nat) (fb : Bool) (entry : BitVec 8) (ctrl : BitVec 32) (ident mask value : BitVec 64) (a : Nat) (b : List Byte) (v : State), (v = s.at_ t) ∧ (v.boot.req = some (a, b)) ∧ (sb b 0 = 0x05) ∧ (v.boot.session.isSome = true) ∧ (v.get SYS_STAT.MODE ≠ 1 ∧ v.get SYS_STAT.MODE ≠ 3) :=
  ⟨{ (({ State.reset with pwr := { State.reset.pwr with inReset := false } }.put SYS_STAT.MODE 2) : State) with boot := { State.reset.boot with session := some ⟨31, 999, 77, 5, 6, 0⟩, req := some (0x10000000, [0x05]) } }, 0, true, 0, 0, 0, 0, 0, 0x10000000, [0x05], _, rfl, by decide⟩
theorem witness_ServiceOperations_23 : ∃ (s : State) (t : Nat) (fb : Bool) (entry : BitVec 8) (ctrl : BitVec 32) (ident mask value : BitVec 64) (a : Nat) (b : List Byte) (v : State), (v = s.at_ t) ∧ (v.boot.req = some (a, b)) ∧ (sb b 0 = 0x05) ∧ (v.boot.session.isSome = true) ∧ (v.get SYS_STAT.MODE = 1 ∨ v.get SYS_STAT.MODE = 3) ∧ (v.hasRole v.runRole = false) :=
  ⟨{ (({ State.reset with pwr := { State.reset.pwr with inReset := false } }.put SYS_STAT.MODE 1) : State) with boot := { State.reset.boot with session := some ⟨0, 999, 77, 5, 6, 0⟩, req := some (0x10000000, [0x05]) } }, 0, true, 0, 0, 0, 0, 0, 0x10000000, [0x05], _, rfl, by decide⟩
theorem witness_ServiceOperations_24 : ∃ (s : State) (t : Nat) (img : GraftImage) (base : BitVec 32) (v : State), (v = s.at_ t) ∧ (∀ x ∈ v.boot.req, sb x.2 0 ≠ 0x06) :=
  ⟨State.reset, 0, ⟨[1, 0x30, 0x48, 0xEA, 4, 0, 0, 0, 0, 1, 0, 0, 1] ++ List.replicate 35 0 ++ [1] ++ List.replicate 207 0 ++ [1], ⟨0, 0, 0, true, true⟩, []⟩, 0x10030000, _, rfl, by decide⟩
theorem witness_ServiceOperations_25 : ∃ (s : State) (t : Nat) (img : GraftImage) (base : BitVec 32) (a : Nat) (b : List Byte) (v : State), (v = s.at_ t) ∧ (v.boot.req = some (a, b)) ∧ (sb b 0 = 0x06) ∧ (graftPlace base.toNat (min 0x100000 (imgBody (listImage img.bytes)).length) = true) ∧ (v.boot.session = none) :=
  ⟨{ (({ State.reset with pwr := { State.reset.pwr with inReset := false } }.put SYS_STAT.MODE 1) : State) with boot := { State.reset.boot with req := some (0x10000000, [0x06]) } }, 0, ⟨[1, 0x30, 0x48, 0xEA, 4, 0, 0, 0, 0, 1, 0, 0, 1] ++ List.replicate 35 0 ++ [1] ++ List.replicate 207 0 ++ [1], ⟨0, 0, 0, true, true⟩, []⟩, 0x10030000, 0x10000000, [0x06], _, rfl, by decide⟩
theorem witness_ServiceOperations_26 : ∃ (s : State) (t : Nat) (img : GraftImage) (base : BitVec 32) (a : Nat) (b : List Byte) (v : State), (v = s.at_ t) ∧ (v.boot.req = some (a, b)) ∧ (sb b 0 = 0x06) ∧ (graftPlace base.toNat (min 0x100000 (imgBody (listImage img.bytes)).length) = true) ∧ (v.boot.session.isSome = true) ∧ (v.get SYS_STAT.MODE ≠ 1 ∧ v.get SYS_STAT.MODE ≠ 2 ∧ v.get SYS_STAT.MODE ≠ 3) :=
  ⟨{ (({ State.reset with pwr := { State.reset.pwr with inReset := false } }.put SYS_STAT.MODE 0) : State) with boot := { State.reset.boot with session := some ⟨31, 999, 77, 5, 6, 0⟩, req := some (0x10000000, [0x06]) } }, 0, ⟨[1, 0x30, 0x48, 0xEA, 4, 0, 0, 0, 0, 1, 0, 0, 1] ++ List.replicate 35 0 ++ [1] ++ List.replicate 207 0 ++ [1], ⟨0, 0, 0, true, true⟩, []⟩, 0x10030000, 0x10000000, [0x06], _, rfl, by decide⟩
theorem witness_ServiceOperations_27 : ∃ (s : State) (t : Nat) (img : GraftImage) (base : BitVec 32) (a : Nat) (b : List Byte) (v : State), (v = s.at_ t) ∧ (v.boot.req = some (a, b)) ∧ (sb b 0 = 0x06) ∧ (graftPlace base.toNat (min 0x100000 (imgBody (listImage img.bytes)).length) = true) ∧ (v.boot.session.isSome = true) ∧ (v.get SYS_STAT.MODE = 1 ∨ v.get SYS_STAT.MODE = 2 ∨ v.get SYS_STAT.MODE = 3) ∧ (v.hasRole 1 = false) :=
  ⟨{ (({ State.reset with pwr := { State.reset.pwr with inReset := false } }.put SYS_STAT.MODE 1) : State) with boot := { State.reset.boot with session := some ⟨0, 999, 77, 5, 6, 0⟩, req := some (0x10000000, [0x06]) } }, 0, ⟨[1, 0x30, 0x48, 0xEA, 4, 0, 0, 0, 0, 1, 0, 0, 1] ++ List.replicate 35 0 ++ [1] ++ List.replicate 207 0 ++ [1], ⟨0, 0, 0, true, true⟩, []⟩, 0x10030000, 0x10000000, [0x06], _, rfl, by decide⟩
theorem witness_ServiceOperations_28 : ∃ (s : State) (t : Nat) (fw orch : Nat) (f g : SigCheck) (v : State), (v = s.at_ t) ∧ (∀ x ∈ v.boot.req, sb x.2 0 ≠ 0x07) :=
  ⟨State.reset, 0, 0, 0, ⟨0, 0, 0, true, true⟩, ⟨0, 0, 0, true, true⟩, _, rfl, by decide⟩
theorem witness_ServiceOperations_29 : ∃ (s : State) (t : Nat) (fw orch : Nat) (f g : SigCheck) (a : Nat) (b : List Byte) (v : State), (v = s.at_ t) ∧ (v.boot.req = some (a, b)) ∧ (sb b 0 = 0x07) ∧ (v.boot.session = none) :=
  ⟨{ (({ State.reset with pwr := { State.reset.pwr with inReset := false } }.put SYS_STAT.MODE 1) : State) with boot := { State.reset.boot with req := some (0x10000000, [0x07]) } }, 0, 0, 0, ⟨0, 0, 0, true, true⟩, ⟨0, 0, 0, true, true⟩, 0x10000000, [0x07], _, rfl, by decide⟩
theorem witness_ServiceOperations_30 : ∃ (s : State) (t : Nat) (fw orch : Nat) (f g : SigCheck) (a : Nat) (b : List Byte) (v : State), (v = s.at_ t) ∧ (v.boot.req = some (a, b)) ∧ (sb b 0 = 0x07) ∧ (v.boot.session.isSome = true) ∧ (v.get SYS_STAT.MODE ≠ 1 ∧ v.get SYS_STAT.MODE ≠ 2 ∧ v.get SYS_STAT.MODE ≠ 3 ∧ v.get SYS_STAT.MODE ≠ 4) :=
  ⟨{ (({ State.reset with pwr := { State.reset.pwr with inReset := false } }.put SYS_STAT.MODE 0) : State) with boot := { State.reset.boot with session := some ⟨31, 999, 77, 5, 6, 0⟩, req := some (0x10000000, [0x07]) } }, 0, 0, 0, ⟨0, 0, 0, true, true⟩, ⟨0, 0, 0, true, true⟩, 0x10000000, [0x07], _, rfl, by decide⟩
theorem witness_ServiceOperations_31 : ∃ (s : State) (t : Nat) (fw orch : Nat) (f g : SigCheck) (a : Nat) (b : List Byte) (v : State), (v = s.at_ t) ∧ (v.boot.req = some (a, b)) ∧ (sb b 0 = 0x07) ∧ (v.boot.session.isSome = true) ∧ (v.get SYS_STAT.MODE = 1 ∨ v.get SYS_STAT.MODE = 2 ∨ v.get SYS_STAT.MODE = 3 ∨ v.get SYS_STAT.MODE = 4) ∧ (v.hasRole 2 = false) :=
  ⟨{ (({ State.reset with pwr := { State.reset.pwr with inReset := false } }.put SYS_STAT.MODE 1) : State) with boot := { State.reset.boot with session := some ⟨0, 999, 77, 5, 6, 0⟩, req := some (0x10000000, [0x07]) } }, 0, 0, 0, ⟨0, 0, 0, true, true⟩, ⟨0, 0, 0, true, true⟩, 0x10000000, [0x07], _, rfl, by decide⟩
theorem witness_ServiceOperations_32 : ∃ (s : State) (t : Nat) (fw orch : Nat) (f g : SigCheck) (a : Nat) (b : List Byte) (v : State), (v = s.at_ t) ∧ (v.boot.req = some (a, b)) ∧ (sb b 0 = 0x07) ∧ (v.boot.session.isSome = true) ∧ (v.get SYS_STAT.MODE = 1 ∨ v.get SYS_STAT.MODE = 2 ∨ v.get SYS_STAT.MODE = 3 ∨ v.get SYS_STAT.MODE = 4) ∧ (v.hasRole 2 = true) ∧ (v.flag UPD_STAT.TRIAL = true) :=
  ⟨{ ((({ State.reset with pwr := { State.reset.pwr with inReset := false } }.put SYS_STAT.MODE 1).put UPD_STAT.TRIAL 1) : State) with boot := { State.reset.boot with session := some ⟨31, 999, 77, 5, 6, 0⟩, req := some (0x10000000, [0x07]) } }, 0, 0, 0, ⟨0, 0, 0, true, true⟩, ⟨0, 0, 0, true, true⟩, 0x10000000, [0x07], _, rfl, by decide⟩
theorem witness_ServiceOperations_33 : ∃ (s : State) (t : Nat) (v : State), (v = s.at_ t) ∧ (∀ x ∈ v.boot.req, sb x.2 0 ≠ 0x08) :=
  ⟨State.reset, 0, _, rfl, by decide⟩
theorem witness_ServiceOperations_34 : ∃ (s : State) (t : Nat) (a : Nat) (b : List Byte) (v : State), (v = s.at_ t) ∧ (v.boot.req = some (a, b)) ∧ (sb b 0 = 0x08) ∧ (v.boot.session = none) :=
  ⟨{ (({ State.reset with pwr := { State.reset.pwr with inReset := false } }.put SYS_STAT.MODE 1) : State) with boot := { State.reset.boot with req := some (0x10000000, [0x08]) } }, 0, 0x10000000, [0x08], _, rfl, by decide⟩
theorem witness_ServiceOperations_35 : ∃ (s : State) (t : Nat) (a : Nat) (b : List Byte) (v : State), (v = s.at_ t) ∧ (v.boot.req = some (a, b)) ∧ (sb b 0 = 0x08) ∧ (v.boot.session.isSome = true) ∧ (v.get SYS_STAT.MODE ≠ 1 ∧ v.get SYS_STAT.MODE ≠ 2 ∧ v.get SYS_STAT.MODE ≠ 4) :=
  ⟨{ (({ State.reset with pwr := { State.reset.pwr with inReset := false } }.put SYS_STAT.MODE 3) : State) with boot := { State.reset.boot with session := some ⟨31, 999, 77, 5, 6, 0⟩, req := some (0x10000000, [0x08]) } }, 0, 0x10000000, [0x08], _, rfl, by decide⟩
theorem witness_ServiceOperations_36 : ∃ (s : State) (t : Nat) (a : Nat) (b : List Byte) (v : State), (v = s.at_ t) ∧ (v.boot.req = some (a, b)) ∧ (sb b 0 = 0x08) ∧ (v.boot.session.isSome = true) ∧ (v.get SYS_STAT.MODE = 1 ∨ v.get SYS_STAT.MODE = 2 ∨ v.get SYS_STAT.MODE = 4) ∧ (v.hasRole 2 = false) :=
  ⟨{ (({ State.reset with pwr := { State.reset.pwr with inReset := false } }.put SYS_STAT.MODE 1) : State) with boot := { State.reset.boot with session := some ⟨0, 999, 77, 5, 6, 0⟩, req := some (0x10000000, [0x08]) } }, 0, 0x10000000, [0x08], _, rfl, by decide⟩
theorem witness_ServiceOperations_37 : ∃ (s : State) (t : Nat) (a : Nat) (b : List Byte) (v : State), (v = s.at_ t) ∧ (v.boot.req = some (a, b)) ∧ (sb b 0 = 0x08) ∧ (v.boot.session.isSome = true) ∧ (v.get SYS_STAT.MODE = 1 ∨ v.get SYS_STAT.MODE = 2 ∨ v.get SYS_STAT.MODE = 4) ∧ (v.hasRole 2 = true) ∧ ((v.table.slot v.otherSlot).state ≠ 1 ∨ v.boot.resetWait ≠ none) :=
  ⟨{ (({ State.reset with pwr := { State.reset.pwr with inReset := false } }.put SYS_STAT.MODE 1) : State) with boot := { State.reset.boot with session := some ⟨31, 999, 77, 5, 6, 0⟩, req := some (0x10000000, [0x08]) } }, 0, 0x10000000, [0x08], _, rfl, by decide⟩
theorem witness_ServiceOperations_38 : ∃ (s : State) (t : Nat) (c : BitVec 64) (v : State), (v = s.at_ t) ∧ (∀ x ∈ v.boot.req, sb x.2 0 ≠ 0x08) :=
  ⟨State.reset, 0, 0, _, rfl, by decide⟩
theorem witness_ServiceOperations_39 : ∃ (s : State) (t : Nat) (c : BitVec 64) (a : Nat) (b : List Byte) (v : State), (v = s.at_ t) ∧ (v.boot.req = some (a, b)) ∧ (sb b 0 = 0x08) ∧ (v.boot.session = none) :=
  ⟨{ (({ State.reset with pwr := { State.reset.pwr with inReset := false } }.put SYS_STAT.MODE 1) : State) with boot := { State.reset.boot with req := some (0x10000000, [0x08]) } }, 0, 0, 0x10000000, [0x08], _, rfl, by decide⟩
theorem witness_ServiceOperations_40 : ∃ (s : State) (t : Nat) (c : BitVec 64) (a : Nat) (b : List Byte) (v : State), (v = s.at_ t) ∧ (v.boot.req = some (a, b)) ∧ (sb b 0 = 0x08) ∧ (v.boot.session.isSome = true) ∧ (v.get SYS_STAT.MODE ≠ 1 ∧ v.get SYS_STAT.MODE ≠ 2 ∧ v.get SYS_STAT.MODE ≠ 3 ∧ v.get SYS_STAT.MODE ≠ 4) :=
  ⟨{ (({ State.reset with pwr := { State.reset.pwr with inReset := false } }.put SYS_STAT.MODE 0) : State) with boot := { State.reset.boot with session := some ⟨31, 999, 77, 5, 6, 0⟩, req := some (0x10000000, [0x08]) } }, 0, 0, 0x10000000, [0x08], _, rfl, by decide⟩
theorem witness_ServiceOperations_41 : ∃ (s : State) (t : Nat) (c : BitVec 64) (a : Nat) (b : List Byte) (v : State), (v = s.at_ t) ∧ (v.boot.req = some (a, b)) ∧ (sb b 0 = 0x08) ∧ (v.boot.session.isSome = true) ∧ (v.get SYS_STAT.MODE = 1 ∨ v.get SYS_STAT.MODE = 2 ∨ v.get SYS_STAT.MODE = 3 ∨ v.get SYS_STAT.MODE = 4) ∧ (v.hasRole 2 = false) :=
  ⟨{ (({ State.reset with pwr := { State.reset.pwr with inReset := false } }.put SYS_STAT.MODE 1) : State) with boot := { State.reset.boot with session := some ⟨0, 999, 77, 5, 6, 0⟩, req := some (0x10000000, [0x08]) } }, 0, 0, 0x10000000, [0x08], _, rfl, by decide⟩
theorem witness_ServiceOperations_42 : ∃ (s : State) (t : Nat) (c : BitVec 64) (a : Nat) (b : List Byte) (v : State), (v = s.at_ t) ∧ (v.boot.req = some (a, b)) ∧ (sb b 0 = 0x08) ∧ (v.boot.session.isSome = true) ∧ (v.get SYS_STAT.MODE = 1 ∨ v.get SYS_STAT.MODE = 2 ∨ v.get SYS_STAT.MODE = 3 ∨ v.get SYS_STAT.MODE = 4) ∧ (v.hasRole 2 = true) ∧ ((v.table.slot v.otherSlot).state ≠ 1 ∨ v.boot.resetWait ≠ none) :=
  ⟨{ (({ State.reset with pwr := { State.reset.pwr with inReset := false } }.put SYS_STAT.MODE 1) : State) with boot := { State.reset.boot with session := some ⟨31, 999, 77, 5, 6, 0⟩, req := some (0x10000000, [0x08]) } }, 0, 0, 0x10000000, [0x08], _, rfl, by decide⟩
theorem witness_ServiceOperations_43 : ∃ (s : State) (t : Nat) (target : BitVec 32) (v : State), (v = s.at_ t) ∧ (∀ x ∈ v.boot.req, sb x.2 0 ≠ 0x09) :=
  ⟨State.reset, 0, 8, _, rfl, by decide⟩
theorem witness_ServiceOperations_44 : ∃ (s : State) (t : Nat) (target : BitVec 32) (a : Nat) (b : List Byte) (v : State), (v = s.at_ t) ∧ (v.boot.req = some (a, b)) ∧ (sb b 0 = 0x09) ∧ (v.boot.session = none) :=
  ⟨{ (({ State.reset with pwr := { State.reset.pwr with inReset := false } }.put SYS_STAT.MODE 1) : State) with boot := { State.reset.boot with req := some (0x10000000, [0x09]) } }, 0, 8, 0x10000000, [0x09], _, rfl, by decide⟩
theorem witness_ServiceOperations_45 : ∃ (s : State) (t : Nat) (target : BitVec 32) (a : Nat) (b : List Byte) (v : State), (v = s.at_ t) ∧ (v.boot.req = some (a, b)) ∧ (sb b 0 = 0x09) ∧ (v.boot.session.isSome = true) ∧ (v.get SYS_STAT.MODE ≠ 1 ∧ v.get SYS_STAT.MODE ≠ 3) :=
  ⟨{ (({ State.reset with pwr := { State.reset.pwr with inReset := false } }.put SYS_STAT.MODE 2) : State) with boot := { State.reset.boot with session := some ⟨31, 999, 77, 5, 6, 0⟩, req := some (0x10000000, [0x09]) } }, 0, 8, 0x10000000, [0x09], _, rfl, by decide⟩
theorem witness_ServiceOperations_46 : ∃ (s : State) (t : Nat) (target : BitVec 32) (a : Nat) (b : List Byte) (v : State), (v = s.at_ t) ∧ (v.boot.req = some (a, b)) ∧ (sb b 0 = 0x09) ∧ (v.boot.session.isSome = true) ∧ (v.get SYS_STAT.MODE = 1 ∨ v.get SYS_STAT.MODE = 3) ∧ (v.hasRole 2 = false) :=
  ⟨{ (({ State.reset with pwr := { State.reset.pwr with inReset := false } }.put SYS_STAT.MODE 1) : State) with boot := { State.reset.boot with session := some ⟨0, 999, 77, 5, 6, 0⟩, req := some (0x10000000, [0x09]) } }, 0, 8, 0x10000000, [0x09], _, rfl, by decide⟩
theorem witness_ServiceOperations_47 : ∃ (s : State) (t : Nat) (target : BitVec 32) (a : Nat) (b : List Byte) (v : State), (v = s.at_ t) ∧ (v.boot.req = some (a, b)) ∧ (sb b 0 = 0x09) ∧ (v.boot.session.isSome = true) ∧ (v.get SYS_STAT.MODE = 1 ∨ v.get SYS_STAT.MODE = 3) ∧ (v.hasRole 2 = true) ∧ (v.amCoord = false) :=
  ⟨{ (({ State.reset with pwr := { State.reset.pwr with inReset := false } }.put SYS_STAT.MODE 1) : State) with boot := { State.reset.boot with session := some ⟨31, 999, 77, 5, 6, 0⟩, req := some (0x10000000, [0x09]) } }, 0, 8, 0x10000000, [0x09], _, rfl, by decide⟩
theorem witness_ServiceOperations_48 : ∃ (s : State) (t : Nat) (cid : BitVec 16) (target : BitVec 32) (v : State), (v = s.at_ t) ∧ (∀ x ∈ v.boot.req, sb x.2 0 ≠ 0x09) :=
  ⟨State.reset, 0, 0, 8, _, rfl, by decide⟩
theorem witness_ServiceOperations_49 : ∃ (s : State) (t : Nat) (cid : BitVec 16) (target : BitVec 32) (a : Nat) (b : List Byte) (v : State), (v = s.at_ t) ∧ (v.boot.req = some (a, b)) ∧ (sb b 0 = 0x09) ∧ (v.boot.session = none) :=
  ⟨{ (({ State.reset with pwr := { State.reset.pwr with inReset := false } }.put SYS_STAT.MODE 1) : State) with boot := { State.reset.boot with req := some (0x10000000, [0x09]) } }, 0, 0, 8, 0x10000000, [0x09], _, rfl, by decide⟩
theorem witness_ServiceOperations_50 : ∃ (s : State) (t : Nat) (cid : BitVec 16) (target : BitVec 32) (a : Nat) (b : List Byte) (v : State), (v = s.at_ t) ∧ (v.boot.req = some (a, b)) ∧ (sb b 0 = 0x09) ∧ (v.boot.session.isSome = true) ∧ (v.get SYS_STAT.MODE ≠ 1 ∧ v.get SYS_STAT.MODE ≠ 3) :=
  ⟨{ (({ State.reset with pwr := { State.reset.pwr with inReset := false } }.put SYS_STAT.MODE 2) : State) with boot := { State.reset.boot with session := some ⟨31, 999, 77, 5, 6, 0⟩, req := some (0x10000000, [0x09]) } }, 0, 0, 8, 0x10000000, [0x09], _, rfl, by decide⟩
theorem witness_ServiceOperations_51 : ∃ (s : State) (t : Nat) (cid : BitVec 16) (target : BitVec 32) (a : Nat) (b : List Byte) (v : State), (v = s.at_ t) ∧ (v.boot.req = some (a, b)) ∧ (sb b 0 = 0x09) ∧ (v.boot.session.isSome = true) ∧ (v.get SYS_STAT.MODE = 1 ∨ v.get SYS_STAT.MODE = 3) ∧ (v.hasRole 1 = false) :=
  ⟨{ (({ State.reset with pwr := { State.reset.pwr with inReset := false } }.put SYS_STAT.MODE 1) : State) with boot := { State.reset.boot with session := some ⟨0, 999, 77, 5, 6, 0⟩, req := some (0x10000000, [0x09]) } }, 0, 0, 8, 0x10000000, [0x09], _, rfl, by decide⟩
theorem witness_ServiceOperations_52 : ∃ (s : State) (t : Nat) (cid : BitVec 16) (target : BitVec 32) (a : Nat) (b : List Byte) (v : State), (v = s.at_ t) ∧ (v.boot.req = some (a, b)) ∧ (sb b 0 = 0x09) ∧ (v.boot.session.isSome = true) ∧ (v.get SYS_STAT.MODE = 1 ∨ v.get SYS_STAT.MODE = 3) ∧ (v.hasRole 1 = true) ∧ (v.amCoord = false) :=
  ⟨{ (({ State.reset with pwr := { State.reset.pwr with inReset := false } }.put SYS_STAT.MODE 1) : State) with boot := { State.reset.boot with session := some ⟨31, 999, 77, 5, 6, 0⟩, req := some (0x10000000, [0x09]) } }, 0, 0, 8, 0x10000000, [0x09], _, rfl, by decide⟩
theorem witness_ServiceOperations_53 : ∃ (s : State) (t : Nat) (target : BitVec 32) (v : State), (v = s.at_ t) ∧ (∀ x ∈ v.boot.req, sb x.2 0 ≠ 0x09) :=
  ⟨State.reset, 0, 8, _, rfl, by decide⟩
theorem witness_ServiceOperations_54 : ∃ (s : State) (t : Nat) (target : BitVec 32) (a : Nat) (b : List Byte) (v : State), (v = s.at_ t) ∧ (v.boot.req = some (a, b)) ∧ (sb b 0 = 0x09) ∧ (v.boot.session = none) :=
  ⟨{ (({ State.reset with pwr := { State.reset.pwr with inReset := false } }.put SYS_STAT.MODE 1) : State) with boot := { State.reset.boot with req := some (0x10000000, [0x09]) } }, 0, 8, 0x10000000, [0x09], _, rfl, by decide⟩
theorem witness_ServiceOperations_55 : ∃ (s : State) (t : Nat) (target : BitVec 32) (a : Nat) (b : List Byte) (v : State), (v = s.at_ t) ∧ (v.boot.req = some (a, b)) ∧ (sb b 0 = 0x09) ∧ (v.boot.session.isSome = true) ∧ (v.get SYS_STAT.MODE ≠ 1 ∧ v.get SYS_STAT.MODE ≠ 3) :=
  ⟨{ (({ State.reset with pwr := { State.reset.pwr with inReset := false } }.put SYS_STAT.MODE 2) : State) with boot := { State.reset.boot with session := some ⟨31, 999, 77, 5, 6, 0⟩, req := some (0x10000000, [0x09]) } }, 0, 8, 0x10000000, [0x09], _, rfl, by decide⟩
theorem witness_ServiceOperations_56 : ∃ (s : State) (t : Nat) (target : BitVec 32) (a : Nat) (b : List Byte) (v : State), (v = s.at_ t) ∧ (v.boot.req = some (a, b)) ∧ (sb b 0 = 0x09) ∧ (v.boot.session.isSome = true) ∧ (v.get SYS_STAT.MODE = 1 ∨ v.get SYS_STAT.MODE = 3) ∧ (v.hasRole (if v.lanes.mode.op = 1 then 1 else 2) = false) :=
  ⟨{ (({ State.reset with pwr := { State.reset.pwr with inReset := false } }.put SYS_STAT.MODE 1) : State) with boot := { State.reset.boot with session := some ⟨0, 999, 77, 5, 6, 0⟩, req := some (0x10000000, [0x09]) } }, 0, 8, 0x10000000, [0x09], _, rfl, by decide⟩
theorem witness_ServiceOperations_57 : ∃ (s : State) (t : Nat) (target : BitVec 32) (a : Nat) (b : List Byte) (v : State), (v = s.at_ t) ∧ (v.boot.req = some (a, b)) ∧ (sb b 0 = 0x09) ∧ (v.boot.session.isSome = true) ∧ (v.get SYS_STAT.MODE = 1 ∨ v.get SYS_STAT.MODE = 3) ∧ (v.hasRole (if v.lanes.mode.op = 1 then 1 else 2) = true) ∧ (v.amCoord = false) :=
  ⟨{ (({ State.reset with pwr := { State.reset.pwr with inReset := false } }.put SYS_STAT.MODE 1) : State) with boot := { State.reset.boot with session := some ⟨31, 999, 77, 5, 6, 0⟩, req := some (0x10000000, [0x09]) } }, 0, 8, 0x10000000, [0x09], _, rfl, by decide⟩
theorem witness_ServiceOperations_58 : ∃ (s : State) (t : Nat) (unready : Bool) (v : State), (v = s.at_ t) ∧ (∀ x ∈ v.boot.req, sb x.2 0 ≠ 0x0A) :=
  ⟨State.reset, 0, true, _, rfl, by decide⟩
theorem witness_ServiceOperations_59 : ∃ (s : State) (t : Nat) (unready : Bool) (a : Nat) (b : List Byte) (v : State), (v = s.at_ t) ∧ (v.boot.req = some (a, b)) ∧ (sb b 0 = 0x0A) ∧ (v.boot.session = none) :=
  ⟨{ (({ State.reset with pwr := { State.reset.pwr with inReset := false } }.put SYS_STAT.MODE 1) : State) with boot := { State.reset.boot with req := some (0x10000000, [0x0A]) } }, 0, true, 0x10000000, [0x0A], _, rfl, by decide⟩
theorem witness_ServiceOperations_60 : ∃ (s : State) (t : Nat) (unready : Bool) (a : Nat) (b : List Byte) (v : State), (v = s.at_ t) ∧ (v.boot.req = some (a, b)) ∧ (sb b 0 = 0x0A) ∧ (v.boot.session.isSome = true) ∧ (v.get SYS_STAT.MODE ≠ 3) :=
  ⟨{ (({ State.reset with pwr := { State.reset.pwr with inReset := false } }.put SYS_STAT.MODE 2) : State) with boot := { State.reset.boot with session := some ⟨31, 999, 77, 5, 6, 0⟩, req := some (0x10000000, [0x0A]) } }, 0, true, 0x10000000, [0x0A], _, rfl, by decide⟩
theorem witness_ServiceOperations_61 : ∃ (s : State) (t : Nat) (unready : Bool) (a : Nat) (b : List Byte) (v : State), (v = s.at_ t) ∧ (v.boot.req = some (a, b)) ∧ (sb b 0 = 0x0A) ∧ (v.boot.session.isSome = true) ∧ (v.get SYS_STAT.MODE = 3) ∧ (v.hasRole 0 = false) :=
  ⟨{ (({ State.reset with pwr := { State.reset.pwr with inReset := false } }.put SYS_STAT.MODE 3) : State) with boot := { State.reset.boot with session := some ⟨0, 999, 77, 5, 6, 0⟩, req := some (0x10000000, [0x0A]) } }, 0, true, 0x10000000, [0x0A], _, rfl, by decide⟩
theorem witness_ServiceOperations_62 : ∃ (s : State) (t : Nat) (v : State), (v = s.at_ t) ∧ (∀ x ∈ v.boot.req, sb x.2 0 ≠ 0x0B) :=
  ⟨State.reset, 0, _, rfl, by decide⟩
theorem witness_ServiceOperations_63 : ∃ (s : State) (t : Nat) (a : Nat) (b : List Byte) (v : State), (v = s.at_ t) ∧ (v.boot.req = some (a, b)) ∧ (sb b 0 = 0x0B) ∧ (v.boot.session = none) :=
  ⟨{ (({ State.reset with pwr := { State.reset.pwr with inReset := false } }.put SYS_STAT.MODE 1) : State) with boot := { State.reset.boot with req := some (0x10000000, [0x0B]) } }, 0, 0x10000000, [0x0B], _, rfl, by decide⟩
theorem witness_ServiceOperations_64 : ∃ (s : State) (t : Nat) (a : Nat) (b : List Byte) (v : State), (v = s.at_ t) ∧ (v.boot.req = some (a, b)) ∧ (sb b 0 = 0x0B) ∧ (v.boot.session.isSome = true) ∧ (v.get SYS_STAT.MODE ≠ 4) :=
  ⟨{ (({ State.reset with pwr := { State.reset.pwr with inReset := false } }.put SYS_STAT.MODE 2) : State) with boot := { State.reset.boot with session := some ⟨31, 999, 77, 5, 6, 0⟩, req := some (0x10000000, [0x0B]) } }, 0, 0x10000000, [0x0B], _, rfl, by decide⟩
theorem witness_ServiceOperations_65 : ∃ (s : State) (t : Nat) (a : Nat) (b : List Byte) (v : State), (v = s.at_ t) ∧ (v.boot.req = some (a, b)) ∧ (sb b 0 = 0x0B) ∧ (v.boot.session.isSome = true) ∧ (v.get SYS_STAT.MODE = 4) ∧ (v.hasRole 4 = false) :=
  ⟨{ (({ State.reset with pwr := { State.reset.pwr with inReset := false } }.put SYS_STAT.MODE 4) : State) with boot := { State.reset.boot with session := some ⟨0, 999, 77, 5, 6, 0⟩, req := some (0x10000000, [0x0B]) } }, 0, 0x10000000, [0x0B], _, rfl, by decide⟩
theorem witness_ServiceOperations_66 : ∃ (s : State) (t : Nat) (a : Nat) (b : List Byte) (v : State), (v = s.at_ t) ∧ (v.boot.req = some (a, b)) ∧ (sb b 0 = 0x0B) ∧ (v.boot.session.isSome = true) ∧ (v.get SYS_STAT.MODE = 4) ∧ (v.hasRole 4 = true) ∧ (v.boot.resetWait ≠ none) :=
  ⟨{ (({ State.reset with pwr := { State.reset.pwr with inReset := false } }.put SYS_STAT.MODE 4) : State) with boot := { State.reset.boot with resetWait := some (1, 1), session := some ⟨31, 999, 77, 5, 6, 0⟩, req := some (0x10000000, [0x0B]) } }, 0, 0x10000000, [0x0B], _, rfl, by decide⟩
theorem witness_ServiceOperations_67 : ∃ (s : State) (t : Nat) (fn : BitVec 5) (v : State), (v = s.at_ t) ∧ (∀ x ∈ v.boot.req, sb x.2 0 ≠ 0x0C) :=
  ⟨State.reset, 0, 0, _, rfl, by decide⟩
theorem witness_ServiceOperations_68 : ∃ (s : State) (t : Nat) (fn : BitVec 5) (a : Nat) (b : List Byte) (v : State), (v = s.at_ t) ∧ (v.boot.req = some (a, b)) ∧ (sb b 0 = 0x0C) ∧ (v.boot.session = none) :=
  ⟨{ (({ State.reset with pwr := { State.reset.pwr with inReset := false } }.put SYS_STAT.MODE 1) : State) with boot := { State.reset.boot with req := some (0x10000000, [0x0C]) } }, 0, 0, 0x10000000, [0x0C], _, rfl, by decide⟩
theorem witness_ServiceOperations_69 : ∃ (s : State) (t : Nat) (fn : BitVec 5) (a : Nat) (b : List Byte) (v : State), (v = s.at_ t) ∧ (v.boot.req = some (a, b)) ∧ (sb b 0 = 0x0C) ∧ (v.boot.session.isSome = true) ∧ (v.get SYS_STAT.MODE ≠ 1 ∧ v.get SYS_STAT.MODE ≠ 2 ∧ v.get SYS_STAT.MODE ≠ 3) :=
  ⟨{ (({ State.reset with pwr := { State.reset.pwr with inReset := false } }.put SYS_STAT.MODE 0) : State) with boot := { State.reset.boot with session := some ⟨31, 999, 77, 5, 6, 0⟩, req := some (0x10000000, [0x0C]) } }, 0, 0, 0x10000000, [0x0C], _, rfl, by decide⟩
theorem witness_ServiceOperations_70 : ∃ (s : State) (t : Nat) (fn : BitVec 5) (a : Nat) (b : List Byte) (v : State), (v = s.at_ t) ∧ (v.boot.req = some (a, b)) ∧ (sb b 0 = 0x0C) ∧ (v.boot.session.isSome = true) ∧ (v.get SYS_STAT.MODE = 1 ∨ v.get SYS_STAT.MODE = 2 ∨ v.get SYS_STAT.MODE = 3) ∧ (v.hasRole 4 = false) :=
  ⟨{ (({ State.reset with pwr := { State.reset.pwr with inReset := false } }.put SYS_STAT.MODE 1) : State) with boot := { State.reset.boot with session := some ⟨0, 999, 77, 5, 6, 0⟩, req := some (0x10000000, [0x0C]) } }, 0, 0, 0x10000000, [0x0C], _, rfl, by decide⟩
theorem witness_ServiceOperations_71 : ∃ (s : State) (t : Nat) (part : BitVec 8) (v : State), (v = s.at_ t) ∧ (∀ x ∈ v.boot.req, sb x.2 0 ≠ 0x0D) :=
  ⟨State.reset, 0, 0, _, rfl, by decide⟩
theorem witness_ServiceOperations_72 : ∃ (s : State) (t : Nat) (part : BitVec 8) (a : Nat) (b : List Byte) (v : State), (v = s.at_ t) ∧ (v.boot.req = some (a, b)) ∧ (sb b 0 = 0x0D) ∧ (v.boot.session = none) :=
  ⟨{ (({ State.reset with pwr := { State.reset.pwr with inReset := false } }.put SYS_STAT.MODE 1) : State) with boot := { State.reset.boot with req := some (0x10000000, [0x0D]) } }, 0, 0, 0x10000000, [0x0D], _, rfl, by decide⟩
theorem witness_ServiceOperations_73 : ∃ (s : State) (t : Nat) (part : BitVec 8) (a : Nat) (b : List Byte) (v : State), (v = s.at_ t) ∧ (v.boot.req = some (a, b)) ∧ (sb b 0 = 0x0D) ∧ (v.boot.session.isSome = true) ∧ (v.get SYS_STAT.MODE ≠ 1 ∧ v.get SYS_STAT.MODE ≠ 2 ∧ v.get SYS_STAT.MODE ≠ 3 ∧ v.get SYS_STAT.MODE ≠ 4) :=
  ⟨{ (({ State.reset with pwr := { State.reset.pwr with inReset := false } }.put SYS_STAT.MODE 0) : State) with boot := { State.reset.boot with session := some ⟨31, 999, 77, 5, 6, 0⟩, req := some (0x10000000, [0x0D]) } }, 0, 0, 0x10000000, [0x0D], _, rfl, by decide⟩
theorem witness_ServiceOperations_74 : ∃ (s : State) (t : Nat) (part : BitVec 8) (a : Nat) (b : List Byte) (v : State), (v = s.at_ t) ∧ (v.boot.req = some (a, b)) ∧ (sb b 0 = 0x0D) ∧ (v.boot.session.isSome = true) ∧ (v.get SYS_STAT.MODE = 1 ∨ v.get SYS_STAT.MODE = 2 ∨ v.get SYS_STAT.MODE = 3 ∨ v.get SYS_STAT.MODE = 4) ∧ (v.hasRole 3 = false) :=
  ⟨{ (({ State.reset with pwr := { State.reset.pwr with inReset := false } }.put SYS_STAT.MODE 1) : State) with boot := { State.reset.boot with session := some ⟨0, 999, 77, 5, 6, 0⟩, req := some (0x10000000, [0x0D]) } }, 0, 0, 0x10000000, [0x0D], _, rfl, by decide⟩
theorem witness_ServiceOperations_75 : ∃ (s : State) (t : Nat) (v : State), (v = s.at_ t) ∧ (∀ x ∈ v.boot.req, sb x.2 0 ≠ 0x0E) :=
  ⟨State.reset, 0, _, rfl, by decide⟩
theorem witness_ServiceOperations_76 : ∃ (s : State) (t : Nat) (a : Nat) (b : List Byte) (v : State), (v = s.at_ t) ∧ (v.boot.req = some (a, b)) ∧ (sb b 0 = 0x0E) ∧ (v.boot.session = none) :=
  ⟨{ (({ State.reset with pwr := { State.reset.pwr with inReset := false } }.put SYS_STAT.MODE 1) : State) with boot := { State.reset.boot with req := some (0x10000000, [0x0E]) } }, 0, 0x10000000, [0x0E], _, rfl, by decide⟩
theorem witness_ServiceOperations_77 : ∃ (s : State) (t : Nat) (a : Nat) (b : List Byte) (v : State), (v = s.at_ t) ∧ (v.boot.req = some (a, b)) ∧ (sb b 0 = 0x0E) ∧ (v.boot.session.isSome = true) ∧ (v.get SYS_STAT.MODE ≠ 1 ∧ v.get SYS_STAT.MODE ≠ 2 ∧ v.get SYS_STAT.MODE ≠ 3 ∧ v.get SYS_STAT.MODE ≠ 4) :=
  ⟨{ (({ State.reset with pwr := { State.reset.pwr with inReset := false } }.put SYS_STAT.MODE 0) : State) with boot := { State.reset.boot with session := some ⟨31, 999, 77, 5, 6, 0⟩, req := some (0x10000000, [0x0E]) } }, 0, 0x10000000, [0x0E], _, rfl, by decide⟩
theorem witness_ServiceOperations_78 : ∃ (s : State) (t : Nat) (a : Nat) (b : List Byte) (v : State), (v = s.at_ t) ∧ (v.boot.req = some (a, b)) ∧ (sb b 0 = 0x0E) ∧ (v.boot.session.isSome = true) ∧ (v.get SYS_STAT.MODE = 1 ∨ v.get SYS_STAT.MODE = 2 ∨ v.get SYS_STAT.MODE = 3 ∨ v.get SYS_STAT.MODE = 4) ∧ (v.hasRole 0 = false) :=
  ⟨{ (({ State.reset with pwr := { State.reset.pwr with inReset := false } }.put SYS_STAT.MODE 1) : State) with boot := { State.reset.boot with session := some ⟨0, 999, 77, 5, 6, 0⟩, req := some (0x10000000, [0x0E]) } }, 0, 0x10000000, [0x0E], _, rfl, by decide⟩
theorem witness_ServiceOperations_79 : ∃ (s : State) (t : Nat) (img : List Byte) (sig : SigCheck) (rsaMask slhMask : BitVec 4) (v : State), (v = s.at_ t) ∧ (∀ x ∈ v.boot.req, sb x.2 0 ≠ 0x0F) :=
  ⟨State.reset, 0, [], ⟨0, 0, 0, true, true⟩, 0, 0, _, rfl, by decide⟩
theorem witness_ServiceOperations_80 : ∃ (s : State) (t : Nat) (img : List Byte) (sig : SigCheck) (rsaMask slhMask : BitVec 4) (a : Nat) (b : List Byte) (v : State), (v = s.at_ t) ∧ (v.boot.req = some (a, b)) ∧ (sb b 0 = 0x0F) ∧ (v.boot.session = none) :=
  ⟨{ (({ State.reset with pwr := { State.reset.pwr with inReset := false } }.put SYS_STAT.MODE 1) : State) with boot := { State.reset.boot with req := some (0x10000000, [0x0F]) } }, 0, [], ⟨0, 0, 0, true, true⟩, 0, 0, 0x10000000, [0x0F], _, rfl, by decide⟩
theorem witness_ServiceOperations_81 : ∃ (s : State) (t : Nat) (img : List Byte) (sig : SigCheck) (rsaMask slhMask : BitVec 4) (a : Nat) (b : List Byte) (v : State), (v = s.at_ t) ∧ (v.boot.req = some (a, b)) ∧ (sb b 0 = 0x0F) ∧ (v.boot.session.isSome = true) ∧ (v.get SYS_STAT.MODE ≠ 1 ∧ v.get SYS_STAT.MODE ≠ 4) :=
  ⟨{ (({ State.reset with pwr := { State.reset.pwr with inReset := false } }.put SYS_STAT.MODE 2) : State) with boot := { State.reset.boot with session := some ⟨31, 999, 77, 5, 6, 0⟩, req := some (0x10000000, [0x0F]) } }, 0, [], ⟨0, 0, 0, true, true⟩, 0, 0, 0x10000000, [0x0F], _, rfl, by decide⟩
theorem witness_ServiceOperations_82 : ∃ (s : State) (t : Nat) (img : List Byte) (sig : SigCheck) (rsaMask slhMask : BitVec 4) (a : Nat) (b : List Byte) (v : State), (v = s.at_ t) ∧ (v.boot.req = some (a, b)) ∧ (sb b 0 = 0x0F) ∧ (v.boot.session.isSome = true) ∧ (v.get SYS_STAT.MODE = 1 ∨ v.get SYS_STAT.MODE = 4) ∧ (v.hasRole 2 = false) :=
  ⟨{ (({ State.reset with pwr := { State.reset.pwr with inReset := false } }.put SYS_STAT.MODE 1) : State) with boot := { State.reset.boot with session := some ⟨0, 999, 77, 5, 6, 0⟩, req := some (0x10000000, [0x0F]) } }, 0, [], ⟨0, 0, 0, true, true⟩, 0, 0, 0x10000000, [0x0F], _, rfl, by decide⟩
theorem witness_ServiceOperations_83 : ∃ (s : State) (t : Nat) (rtc : BitVec 64) (n : Bool) (v : State), (v = s.at_ t) ∧ (∀ x ∈ v.boot.req, sb x.2 0 ≠ 0x10) :=
  ⟨State.reset, 0, 0, true, _, rfl, by decide⟩
theorem witness_ServiceOperations_84 : ∃ (s : State) (t : Nat) (rtc : BitVec 64) (n : Bool) (a : Nat) (b : List Byte) (v : State), (v = s.at_ t) ∧ (v.boot.req = some (a, b)) ∧ (sb b 0 = 0x10) ∧ (v.boot.session = none) :=
  ⟨{ (({ State.reset with pwr := { State.reset.pwr with inReset := false } }.put SYS_STAT.MODE 1) : State) with boot := { State.reset.boot with req := some (0x10000000, [0x10]) } }, 0, 0, true, 0x10000000, [0x10], _, rfl, by decide⟩
theorem witness_ServiceOperations_85 : ∃ (s : State) (t : Nat) (rtc : BitVec 64) (n : Bool) (a : Nat) (b : List Byte) (v : State), (v = s.at_ t) ∧ (v.boot.req = some (a, b)) ∧ (sb b 0 = 0x10) ∧ (v.boot.session.isSome = true) ∧ (v.get SYS_STAT.MODE ≠ 1 ∧ v.get SYS_STAT.MODE ≠ 2 ∧ v.get SYS_STAT.MODE ≠ 3 ∧ v.get SYS_STAT.MODE ≠ 4) :=
  ⟨{ (({ State.reset with pwr := { State.reset.pwr with inReset := false } }.put SYS_STAT.MODE 0) : State) with boot := { State.reset.boot with session := some ⟨31, 999, 77, 5, 6, 0⟩, req := some (0x10000000, [0x10]) } }, 0, 0, true, 0x10000000, [0x10], _, rfl, by decide⟩
theorem witness_ServiceOperations_86 : ∃ (s : State) (t : Nat) (rtc : BitVec 64) (n : Bool) (a : Nat) (b : List Byte) (v : State), (v = s.at_ t) ∧ (v.boot.req = some (a, b)) ∧ (sb b 0 = 0x10) ∧ (v.boot.session.isSome = true) ∧ (v.get SYS_STAT.MODE = 1 ∨ v.get SYS_STAT.MODE = 2 ∨ v.get SYS_STAT.MODE = 3 ∨ v.get SYS_STAT.MODE = 4) ∧ (v.hasRole 0 = false) :=
  ⟨{ (({ State.reset with pwr := { State.reset.pwr with inReset := false } }.put SYS_STAT.MODE 1) : State) with boot := { State.reset.boot with session := some ⟨0, 999, 77, 5, 6, 0⟩, req := some (0x10000000, [0x10]) } }, 0, 0, true, 0x10000000, [0x10], _, rfl, by decide⟩
theorem witness_ServiceOperations_87 : ∃ (s : State) (t : Nat) (img : GraftImage) (base : BitVec 32) (v : State), (v = s.at_ t) ∧ (graftPlace base.toNat (min 0x100000 (imgBody (listImage img.bytes)).length) = false) :=
  ⟨State.reset, 0, ⟨[1, 0x30, 0x48, 0xEA, 4, 0, 0, 0, 0, 1, 0, 0, 1] ++ List.replicate 35 0 ++ [1] ++ List.replicate 207 0 ++ [1], ⟨0, 0, 0, true, true⟩, []⟩, 0x10030001, _, rfl, by decide⟩
theorem witness_ServiceOperations_88 : ∃ (s : State) (t : Nat) (a : Nat) (b : List Byte) (v : State), (v = s.at_ t) ∧ (v.boot.req = some (a, b)) ∧ (sb b 0 = 0x01) ∧ (v.boot.session.isSome = true) ∧ (v.get SYS_STAT.MODE = 2 ∨ v.get SYS_STAT.MODE = 3) ∧ (v.hasRole 0 = true) ∧ (v.still = true) :=
  ⟨{ (((({ State.reset with pwr := { State.reset.pwr with inReset := false } }.put SYS_STAT.MODE 3).put CYC_STILL.KIND 1).put CYC_STILL.POL 1) : State) with boot := { State.reset.boot with session := some ⟨31, 999, 77, 5, 6, 0⟩, req := some (0x10000000, [0x01]) } }, 0, 0x10000000, [0x01], _, rfl, by decide⟩
theorem witness_ServiceOperations_89 : ∃ (s : State) (t : Nat) (a : Nat) (b : List Byte) (v : State), (v = s.at_ t) ∧ (v.boot.req = some (a, b)) ∧ (sb b 0 = 0x02) ∧ (v.boot.session.isSome = true) ∧ (v.get SYS_STAT.MODE = 1) ∧ (v.hasRole 0 = true) :=
  ⟨{ (({ State.reset with pwr := { State.reset.pwr with inReset := false } }.put SYS_STAT.MODE 1) : State) with boot := { State.reset.boot with session := some ⟨31, 999, 77, 5, 6, 0⟩, req := some (0x10000000, [0x02]) } }, 0, 0x10000000, [0x02], _, rfl, by decide⟩
theorem witness_ServiceOperations_90 : ∃ (s : State) (t : Nat) (a : Nat) (b : List Byte) (cmd : ProgCmd) (v : State), (v = s.at_ t) ∧ (v.boot.req = some (a, b)) ∧ (sb b 0 = 0x03) ∧ (v.boot.session.isSome = true) ∧ (v.get SYS_STAT.MODE = 1 ∨ v.get SYS_STAT.MODE = 3) ∧ (v.hasRole v.runRole = true) ∧ (v.progGuard (progCode cmd) = true) :=
  ⟨{ (({ State.reset with pwr := { State.reset.pwr with inReset := false } }.put SYS_STAT.MODE 1) : State) with boot := { State.reset.boot with session := some ⟨31, 999, 77, 5, 6, 0⟩, req := some (0x10000000, [0x03]) } }, 0, 0x10000000, [0x03], .start, _, rfl, by decide⟩
theorem witness_ServiceOperations_91 : ∃ (s : State) (t : Nat) (a : Nat) (b : List Byte) (v : State), (v = s.at_ t) ∧ (v.boot.req = some (a, b)) ∧ (sb b 0 = 0x04) ∧ (v.boot.session.isSome = true) ∧ (v.get SYS_STAT.MODE = 1) ∧ (v.hasRole 1 = true) ∧ (v.progGuard 3 = true) :=
  ⟨{ ((((({ State.reset with pwr := { State.reset.pwr with inReset := false } }.put SYS_STAT.MODE 1).put CYC_STILL.KIND 1).put CYC_STILL.POL 1).put CYC_STAT.PSTATE 1) : State) with boot := { State.reset.boot with session := some ⟨31, 999, 77, 5, 6, 0⟩, req := some (0x10000000, [0x04]) } }, 0, 0x10000000, [0x04], _, rfl, by decide⟩
theorem witness_ServiceOperations_92 : ∃ (s : State) (t : Nat) (a : Nat) (b : List Byte) (entry : BitVec 8) (ctrl : BitVec 32) (ident mask value : BitVec 64) (x : State) (y : State × Bool) (v : State), (v = s.at_ t) ∧ (v.boot.req = some (a, b)) ∧ (sb b 0 = 0x05) ∧ (v.boot.session.isSome = true) ∧ (v.get SYS_STAT.MODE = 1 ∨ v.get SYS_STAT.MODE = 3) ∧ (v.hasRole v.runRole = true) ∧ (v.flag (CYC_FORCE.VALID entry.toNat) = false) ∧ (x = (((v.put (CYC_FORCE.ID entry.toNat) ident.toNat).put (CYC_FORCE.MASK entry.toNat) mask.toNat).put (CYC_FORCE.VALUE entry.toNat) value.toNat)) ∧ (y = (x.forceCtrl entry.toNat ctrl.toNat).forceBind entry.toNat x.tokenId) ∧ (y.2 = true) :=
  ⟨{ ((({ State.reset with pwr := { State.reset.pwr with inReset := false } }.put SYS_STAT.MODE 1).put CYC_IMG.OUT_LEN 8) : State) with boot := { State.reset.boot with session := some ⟨31, 999, 77, 5, 6, 0⟩, req := some (0x10000000, [0x05]) } }, 0, 0x10000000, [0x05], 255, 0x4003, 7, 15, 5, _, _, _, rfl, by decide, by decide, by decide, by decide, by decide, by decide, rfl, rfl, by decide⟩
theorem witness_ServiceOperations_93 : ∃ (s : State) (t : Nat) (a : Nat) (b : List Byte) (entry : BitVec 8) (ctrl : BitVec 32) (ident mask value : BitVec 64) (x : State) (y : State × Bool) (v : State), (v = s.at_ t) ∧ (v.boot.req = some (a, b)) ∧ (sb b 0 = 0x05) ∧ (v.boot.session.isSome = true) ∧ (v.get SYS_STAT.MODE = 1 ∨ v.get SYS_STAT.MODE = 3) ∧ (v.hasRole v.runRole = true) ∧ (v.flag (CYC_FORCE.VALID entry.toNat) = false) ∧ (x = (((v.put (CYC_FORCE.ID entry.toNat) ident.toNat).put (CYC_FORCE.MASK entry.toNat) mask.toNat).put (CYC_FORCE.VALUE entry.toNat) value.toNat)) ∧ (y = (x.forceCtrl entry.toNat ctrl.toNat).forceBind entry.toNat x.tokenId) ∧ (y.2 = false) :=
  ⟨{ (({ State.reset with pwr := { State.reset.pwr with inReset := false } }.put SYS_STAT.MODE 3) : State) with boot := { State.reset.boot with session := some ⟨31, 999, 77, 5, 6, 0⟩, req := some (0x10000000, [0x05]) } }, 0, 0x10000000, [0x05], 255, 0x4001, 7, 15, 5, _, _, _, rfl, by decide, by decide, by decide, by decide, by decide, by decide, rfl, rfl, by decide⟩
theorem witness_ServiceOperations_94 : ∃ (s : State) (t : Nat) (a : Nat) (b : List Byte) (entry : BitVec 8) (ctrl : BitVec 32) (ident mask value : BitVec 64) (v : State), (v = s.at_ t) ∧ (v.boot.req = some (a, b)) ∧ (sb b 0 = 0x05) ∧ (v.boot.session.isSome = true) ∧ (v.get SYS_STAT.MODE = 1 ∨ v.get SYS_STAT.MODE = 3) ∧ (v.hasRole v.runRole = true) ∧ (v.flag (CYC_FORCE.VALID entry.toNat) = true) :=
  ⟨{ ((({ State.reset with pwr := { State.reset.pwr with inReset := false } }.put SYS_STAT.MODE 1).put (CYC_FORCE.VALID 255) 1) : State) with boot := { State.reset.boot with session := some ⟨31, 999, 77, 5, 6, 0⟩, req := some (0x10000000, [0x05]) } }, 0, 0x10000000, [0x05], 255, 0, 0, 0, 0, _, rfl, by decide⟩
theorem witness_ServiceOperations_95 : ∃ (s : State) (t : Nat) (a : Nat) (b : List Byte) (entry : BitVec 8) (ctrl : BitVec 32) (ident mask value : BitVec 64) (v : State), (v = s.at_ t) ∧ (v.boot.req = some (a, b)) ∧ (sb b 0 = 0x05) ∧ (v.boot.session.isSome = true) ∧ (v.get SYS_STAT.MODE = 1 ∨ v.get SYS_STAT.MODE = 3) ∧ (v.hasRole v.runRole = true) :=
  ⟨{ (({ State.reset with pwr := { State.reset.pwr with inReset := false } }.put SYS_STAT.MODE 1) : State) with boot := { State.reset.boot with session := some ⟨31, 999, 77, 5, 6, 0⟩, req := some (0x10000000, [0x05]) } }, 0, 0x10000000, [0x05], 255, 0, 0, 0, 0, _, rfl, by decide⟩
theorem witness_ServiceOperations_96 : ∃ (s : State) (t : Nat) (a : Nat) (b : List Byte) (img : GraftImage) (base : BitVec 32) (v : State), (v = s.at_ t) ∧ (v.boot.req = some (a, b)) ∧ (sb b 0 = 0x06) ∧ (v.boot.session.isSome = true) ∧ (v.get SYS_STAT.MODE = 1 ∨ v.get SYS_STAT.MODE = 2 ∨ v.get SYS_STAT.MODE = 3) ∧ (v.hasRole 1 = true) ∧ (graftPlace base.toNat (min 0x100000 (imgBody (listImage img.bytes)).length) = true) ∧ (v.graftCode img = 0) ∧ ((imgBody (listImage img.bytes)).length ≤ 0x100000) ∧ (v.flag CYC_STAT.ARMED = false) ∧ (6 ∉ v.cyc.cmds) :=
  ⟨{ (((({ State.reset with pwr := { State.reset.pwr with inReset := false } }.put SYS_STAT.MODE 1).put UPD_OTP.RSA_PROG 15).put UPD_OTP.SLH_PROG 15) : State) with boot := { State.reset.boot with session := some ⟨31, 999, 77, 5, 6, 0⟩, req := some (0x10000000, [0x06]) } }, 0, 0x10000000, [0x06], ⟨[1, 0x30, 0x48, 0xEA, 4, 0, 0, 0, 0, 1, 0, 0, 1] ++ List.replicate 35 0 ++ [1] ++ List.replicate 207 0 ++ [1], ⟨0, 0, 0, true, true⟩, []⟩, 0x10030000, _, rfl, by decide⟩
theorem witness_ServiceOperations_97 : ∃ (s : State) (t : Nat) (a : Nat) (b : List Byte) (img : GraftImage) (base : BitVec 32) (v : State), (v = s.at_ t) ∧ (v.boot.req = some (a, b)) ∧ (sb b 0 = 0x06) ∧ (v.boot.session.isSome = true) ∧ (v.get SYS_STAT.MODE = 1 ∨ v.get SYS_STAT.MODE = 2 ∨ v.get SYS_STAT.MODE = 3) ∧ (v.hasRole 1 = true) ∧ (graftPlace base.toNat (min 0x100000 (imgBody (listImage img.bytes)).length) = true) ∧ (v.graftCode img = 0) ∧ ((imgBody (listImage img.bytes)).length ≤ 0x100000) ∧ (v.flag CYC_STAT.ARMED = true ∨ 6 ∈ v.cyc.cmds) :=
  ⟨{ ((((({ State.reset with pwr := { State.reset.pwr with inReset := false } }.put SYS_STAT.MODE 1).put UPD_OTP.RSA_PROG 15).put UPD_OTP.SLH_PROG 15).put CYC_STAT.ARMED 1) : State) with boot := { State.reset.boot with session := some ⟨31, 999, 77, 5, 6, 0⟩, req := some (0x10000000, [0x06]) } }, 0, 0x10000000, [0x06], ⟨[1, 0x30, 0x48, 0xEA, 4, 0, 0, 0, 0, 1, 0, 0, 1] ++ List.replicate 35 0 ++ [1] ++ List.replicate 207 0 ++ [1], ⟨0, 0, 0, true, true⟩, []⟩, 0x10030000, _, rfl, by decide⟩
theorem witness_ServiceOperations_98 : ∃ (s : State) (t : Nat) (a : Nat) (b : List Byte) (img : GraftImage) (base : BitVec 32) (v : State), (v = s.at_ t) ∧ (v.boot.req = some (a, b)) ∧ (sb b 0 = 0x06) ∧ (v.boot.session.isSome = true) ∧ (v.get SYS_STAT.MODE = 1 ∨ v.get SYS_STAT.MODE = 2 ∨ v.get SYS_STAT.MODE = 3) ∧ (v.hasRole 1 = true) ∧ (graftPlace base.toNat (min 0x100000 (imgBody (listImage img.bytes)).length) = true) ∧ (v.graftCode img ≠ 0 ∨ 0x100000 < (imgBody (listImage img.bytes)).length) :=
  ⟨{ (({ State.reset with pwr := { State.reset.pwr with inReset := false } }.put SYS_STAT.MODE 1) : State) with boot := { State.reset.boot with session := some ⟨31, 999, 77, 5, 6, 0⟩, req := some (0x10000000, [0x06]) } }, 0, 0x10000000, [0x06], ⟨[1, 0x30, 0x48, 0xEA, 4, 0, 0, 0, 0, 1, 0, 0, 1] ++ List.replicate 35 0 ++ [1] ++ List.replicate 207 0 ++ [1], ⟨0, 0, 0, true, true⟩, []⟩, 0x10030000, _, rfl, by decide⟩
theorem witness_ServiceOperations_99 : ∃ (s : State) (t : Nat) (a : Nat) (b : List Byte) (fw orch : Nat) (f g : SigCheck) (v : State), (v = s.at_ t) ∧ (v.boot.req = some (a, b)) ∧ (sb b 0 = 0x07) ∧ (v.boot.session.isSome = true) ∧ (v.get SYS_STAT.MODE = 1 ∨ v.get SYS_STAT.MODE = 2 ∨ v.get SYS_STAT.MODE = 3 ∨ v.get SYS_STAT.MODE = 4) ∧ (v.hasRole 2 = true) ∧ (v.flag UPD_STAT.TRIAL = false) ∧ (v.imageValid (v.stagedImage fw) 2 f = false ∨ v.imageValid (v.stagedImage orch) 3 g = false) :=
  ⟨{ (({ State.reset with pwr := { State.reset.pwr with inReset := false } }.put SYS_STAT.MODE 1) : State) with boot := { State.reset.boot with session := some ⟨31, 999, 77, 5, 6, 0⟩, req := some (0x10000000, [0x07]) } }, 0, 0x10000000, [0x07], 0, 64, ⟨0, 0, 0, false, true⟩, ⟨0, 0, 0, false, true⟩, _, rfl, by decide⟩
theorem witness_ServiceOperations_100 : ∃ (s : State) (t : Nat) (a : Nat) (b : List Byte) (fw orch : Nat) (f g : SigCheck) (x : State) (v : State), (v = s.at_ t) ∧ (v.boot.req = some (a, b)) ∧ (sb b 0 = 0x07) ∧ (v.boot.session.isSome = true) ∧ (v.get SYS_STAT.MODE = 1 ∨ v.get SYS_STAT.MODE = 2 ∨ v.get SYS_STAT.MODE = 3 ∨ v.get SYS_STAT.MODE = 4) ∧ (v.hasRole 2 = true) ∧ (v.flag UPD_STAT.TRIAL = false) ∧ (v.imageValid (v.stagedImage fw) 2 f = true) ∧ (v.imageValid (v.stagedImage orch) 3 g = true) ∧ (x = { v with nv := { v.nv with images := SMap.set (SMap.set v.nv.images (2 * v.otherSlot) ((v.stagedImage fw) 0 (imgLen (v.stagedImage fw)))) (2 * v.otherSlot + 1) ((v.stagedImage orch) 0 (imgLen (v.stagedImage orch))) } }) :=
  ⟨{ { (((({ State.reset with pwr := { State.reset.pwr with inReset := false } }.put SYS_STAT.MODE 1).put UPD_OTP.RSA_PROG 15).put UPD_OTP.SLH_PROG 15) : State) with boot := { State.reset.boot with session := some ⟨31, 999, 77, 5, 6, 0⟩, req := some (0x10000000, [0x07]) } } with nv := { State.reset.nv with staging := [(0, 1), (1, 0x30), (2, 0x48), (3, 0xEA), (4, 2), (9, 1), (0x30, 1), (512, 1), (513, 0x30), (514, 0x48), (515, 0xEA), (516, 3), (521, 1), (560, 1)] } }, 0, 0x10000000, [0x07], 0, 512, ⟨0, 0, 0, true, true⟩, ⟨0, 0, 0, true, true⟩, _, _, rfl, by decide, by decide, by decide, by decide, by decide, by decide, by decide, by decide, rfl⟩
theorem witness_ServiceOperations_101 : ∃ (s : State) (t : Nat) (a : Nat) (b : List Byte) (c : BitVec 64) (v : State), (v = s.at_ t) ∧ (v.boot.req = some (a, b)) ∧ (sb b 0 = 0x08) ∧ (v.boot.session.isSome = true) ∧ (v.get SYS_STAT.MODE = 1 ∨ v.get SYS_STAT.MODE = 2 ∨ v.get SYS_STAT.MODE = 3 ∨ v.get SYS_STAT.MODE = 4) ∧ (v.hasRole 2 = true) ∧ ((v.table.slot v.otherSlot).state = 1) ∧ (v.boot.resetWait = none) :=
  ⟨(let x := ({ (({ State.reset with pwr := { State.reset.pwr with inReset := false } }.put SYS_STAT.MODE 1) : State) with boot := { State.reset.boot with session := some ⟨31, 999, 77, 5, 6, 0⟩, req := some (0x10000000, [0x08]) } } : State); x.writeTable { x.table with a := ⟨1, 0, 0, 7, 0⟩, b := ⟨1, 0, 0, 7, 0⟩ }), 0, 0x10000000, [0x08], 5, _, rfl, by decide⟩
theorem witness_ServiceOperations_102 : ∃ (s : State) (t : Nat) (a : Nat) (b : List Byte) (x : State) (v : State), (v = s.at_ t) ∧ (v.boot.req = some (a, b)) ∧ (sb b 0 = 0x08) ∧ (v.boot.session.isSome = true) ∧ (v.get SYS_STAT.MODE = 1 ∨ v.get SYS_STAT.MODE = 2 ∨ v.get SYS_STAT.MODE = 4) ∧ (v.hasRole 2 = true) ∧ ((v.table.slot v.otherSlot).state = 1) ∧ (v.boot.resetWait = none) ∧ (x = v.put UPD_ACT_ID.ID (v.table.slot v.otherSlot).orchId) ∧ (x.still = true) :=
  ⟨(let x := ({ (((({ State.reset with pwr := { State.reset.pwr with inReset := false } }.put SYS_STAT.MODE 1).put CYC_STILL.KIND 1).put CYC_STILL.POL 1) : State) with boot := { State.reset.boot with session := some ⟨31, 999, 77, 5, 6, 0⟩, req := some (0x10000000, [0x08]) } } : State); x.writeTable { x.table with a := ⟨1, 0, 0, 7, 0⟩, b := ⟨1, 0, 0, 7, 0⟩ }), 0, 0x10000000, [0x08], _, _, rfl, by decide, by decide, by decide, by decide, by decide, by decide, by decide, rfl, by decide⟩
theorem witness_ServiceOperations_103 : ∃ (s : State) (t : Nat) (a : Nat) (b : List Byte) (x : State) (v : State), (v = s.at_ t) ∧ (v.boot.req = some (a, b)) ∧ (sb b 0 = 0x08) ∧ (v.boot.session.isSome = true) ∧ (v.get SYS_STAT.MODE = 1 ∨ v.get SYS_STAT.MODE = 2 ∨ v.get SYS_STAT.MODE = 4) ∧ (v.hasRole 2 = true) ∧ ((v.table.slot v.otherSlot).state = 1) ∧ (v.boot.resetWait = none) ∧ (x = v.put UPD_ACT_ID.ID (v.table.slot v.otherSlot).orchId) ∧ (x.still = false) :=
  ⟨(let x := ({ (({ State.reset with pwr := { State.reset.pwr with inReset := false } }.put SYS_STAT.MODE 1) : State) with boot := { State.reset.boot with session := some ⟨31, 999, 77, 5, 6, 0⟩, req := some (0x10000000, [0x08]) } } : State); x.writeTable { x.table with a := ⟨1, 0, 0, 7, 0⟩, b := ⟨1, 0, 0, 7, 0⟩ }), 0, 0x10000000, [0x08], _, _, rfl, by decide, by decide, by decide, by decide, by decide, by decide, by decide, rfl, by decide⟩
theorem witness_ServiceOperations_104 : ∃ (s : State) (t : Nat) (a : Nat) (b : List Byte) (target : BitVec 32) (x : State) (v : State), (v = s.at_ t) ∧ (v.boot.req = some (a, b)) ∧ (sb b 0 = 0x09) ∧ (v.boot.session.isSome = true) ∧ (v.get SYS_STAT.MODE = 1 ∨ v.get SYS_STAT.MODE = 3) ∧ (v.hasRole 2 = true) ∧ (v.amCoord = true) ∧ (x = v.put LANE_MODE_TGT.TGT target.toNat) ∧ (8 ≤ serialDiff 32 target.toNat x.macro_) :=
  ⟨{ (((({ State.reset with pwr := { State.reset.pwr with inReset := false } }.put SYS_STAT.MODE 1).put LANE_CFG.COORD 9).put LANE_CFG.NODE 9) : State) with boot := { State.reset.boot with session := some ⟨31, 999, 77, 5, 6, 0⟩, req := some (0x10000000, [0x09]) } }, 0, 0x10000000, [0x09], 8, _, _, rfl, by decide, by decide, by decide, by decide, by decide, by decide, rfl, by decide⟩
theorem witness_ServiceOperations_105 : ∃ (s : State) (t : Nat) (a : Nat) (b : List Byte) (target : BitVec 32) (x : State) (v : State), (v = s.at_ t) ∧ (v.boot.req = some (a, b)) ∧ (sb b 0 = 0x09) ∧ (v.boot.session.isSome = true) ∧ (v.get SYS_STAT.MODE = 1 ∨ v.get SYS_STAT.MODE = 3) ∧ (v.hasRole 2 = true) ∧ (v.amCoord = true) ∧ (x = v.put LANE_MODE_TGT.TGT target.toNat) ∧ (serialDiff 32 target.toNat x.macro_ < 8) :=
  ⟨{ (((({ State.reset with pwr := { State.reset.pwr with inReset := false } }.put SYS_STAT.MODE 1).put LANE_CFG.COORD 9).put LANE_CFG.NODE 9) : State) with boot := { State.reset.boot with session := some ⟨31, 999, 77, 5, 6, 0⟩, req := some (0x10000000, [0x09]) } }, 0, 0x10000000, [0x09], 7, _, _, rfl, by decide, by decide, by decide, by decide, by decide, by decide, rfl, by decide⟩
theorem witness_ServiceOperations_106 : ∃ (s : State) (t : Nat) (a : Nat) (b : List Byte) (target : BitVec 32) (x : State) (cid : BitVec 16) (v : State), (v = s.at_ t) ∧ (v.boot.req = some (a, b)) ∧ (sb b 0 = 0x09) ∧ (v.boot.session.isSome = true) ∧ (v.get SYS_STAT.MODE = 1 ∨ v.get SYS_STAT.MODE = 3) ∧ (v.hasRole 1 = true) ∧ (v.amCoord = true) ∧ (x = v.put LANE_MODE_TGT.TGT target.toNat) ∧ (8 ≤ serialDiff 32 target.toNat x.macro_) ∧ (x.bankCid (1 - x.get (LANE_STAT.BANK 0)) = cid.toNat) :=
  ⟨{ (((({ State.reset with pwr := { State.reset.pwr with inReset := false } }.put SYS_STAT.MODE 1).put LANE_CFG.COORD 9).put LANE_CFG.NODE 9) : State) with boot := { State.reset.boot with session := some ⟨31, 999, 77, 5, 6, 0⟩, req := some (0x10000000, [0x09]) } }, 0, 0x10000000, [0x09], 8, _, 0, _, rfl, by decide, by decide, by decide, by decide, by decide, by decide, rfl, by decide, by decide⟩
theorem witness_ServiceOperations_107 : ∃ (s : State) (t : Nat) (a : Nat) (b : List Byte) (target : BitVec 32) (x : State) (cid : BitVec 16) (v : State), (v = s.at_ t) ∧ (v.boot.req = some (a, b)) ∧ (sb b 0 = 0x09) ∧ (v.boot.session.isSome = true) ∧ (v.get SYS_STAT.MODE = 1 ∨ v.get SYS_STAT.MODE = 3) ∧ (v.hasRole 1 = true) ∧ (v.amCoord = true) ∧ (x = v.put LANE_MODE_TGT.TGT target.toNat) ∧ (serialDiff 32 target.toNat x.macro_ < 8 ∨ x.bankCid (1 - x.get (LANE_STAT.BANK 0)) ≠ cid.toNat) :=
  ⟨{ (((({ State.reset with pwr := { State.reset.pwr with inReset := false } }.put SYS_STAT.MODE 1).put LANE_CFG.COORD 9).put LANE_CFG.NODE 9) : State) with boot := { State.reset.boot with session := some ⟨31, 999, 77, 5, 6, 0⟩, req := some (0x10000000, [0x09]) } }, 0, 0x10000000, [0x09], 8, _, 7, _, rfl, by decide, by decide, by decide, by decide, by decide, by decide, rfl, by decide⟩
theorem witness_ServiceOperations_108 : ∃ (s : State) (t : Nat) (a : Nat) (b : List Byte) (target : BitVec 32) (v : State), (v = s.at_ t) ∧ (v.boot.req = some (a, b)) ∧ (sb b 0 = 0x09) ∧ (v.boot.session.isSome = true) ∧ (v.get SYS_STAT.MODE = 1 ∨ v.get SYS_STAT.MODE = 3) ∧ (v.hasRole (if v.lanes.mode.op = 1 then 1 else 2) = true) ∧ (v.amCoord = true) ∧ (v.lanes.mode.op = 1 ∨ v.lanes.mode.op = 2) ∧ (3 < serialDiff 32 v.lanes.mode.m v.macro_) :=
  ⟨(let s := ({ (((({ State.reset with pwr := { State.reset.pwr with inReset := false } }.put SYS_STAT.MODE 1).put LANE_CFG.COORD 9).put LANE_CFG.NODE 9) : State) with boot := { State.reset.boot with session := some ⟨31, 999, 77, 5, 6, 0⟩, req := some (0x10000000, [0x09]) } } : State); { s with lanes := { s.lanes with mode := { s.lanes.mode with op := 2, m := 9, annM := 9, answer := 2 } } }), 0, 0x10000000, [0x09], 0, _, rfl, by decide⟩
theorem witness_ServiceOperations_109 : ∃ (s : State) (t : Nat) (a : Nat) (b : List Byte) (target : BitVec 32) (v : State), (v = s.at_ t) ∧ (v.boot.req = some (a, b)) ∧ (sb b 0 = 0x09) ∧ (v.boot.session.isSome = true) ∧ (v.get SYS_STAT.MODE = 1 ∨ v.get SYS_STAT.MODE = 3) ∧ (v.hasRole (if v.lanes.mode.op = 1 then 1 else 2) = true) ∧ (v.amCoord = true) ∧ ((v.lanes.mode.op ≠ 1 ∧ v.lanes.mode.op ≠ 2) ∨ serialDiff 32 v.lanes.mode.m v.macro_ ≤ 3) :=
  ⟨{ (((({ State.reset with pwr := { State.reset.pwr with inReset := false } }.put SYS_STAT.MODE 1).put LANE_CFG.COORD 9).put LANE_CFG.NODE 9) : State) with boot := { State.reset.boot with session := some ⟨31, 999, 77, 5, 6, 0⟩, req := some (0x10000000, [0x09]) } }, 0, 0x10000000, [0x09], 0, _, rfl, by decide⟩
theorem witness_ServiceOperations_110 : ∃ (s : State) (t : Nat) (a : Nat) (b : List Byte) (unready : Bool) (v : State), (v = s.at_ t) ∧ (v.boot.req = some (a, b)) ∧ (sb b 0 = 0x0A) ∧ (v.boot.session.isSome = true) ∧ (v.get SYS_STAT.MODE = 3) ∧ (v.hasRole 0 = true) ∧ (v.swapOk unready = true) :=
  ⟨{ (((((({ State.reset with pwr := { State.reset.pwr with inReset := false } }.put SYS_STAT.MODE 3).put CYC_STILL.KIND 1).put CYC_STILL.POL 1).put TWIN_STAT.PAIRED 1).put TWIN_STAT.PMODE 2) : State) with boot := { State.reset.boot with session := some ⟨31, 999, 77, 5, 6, 0⟩, req := some (0x10000000, [0x0A]) } }, 0, 0x10000000, [0x0A], true, _, rfl, by decide⟩
theorem witness_ServiceOperations_111 : ∃ (s : State) (t : Nat) (a : Nat) (b : List Byte) (unready : Bool) (v : State), (v = s.at_ t) ∧ (v.boot.req = some (a, b)) ∧ (sb b 0 = 0x0A) ∧ (v.boot.session.isSome = true) ∧ (v.get SYS_STAT.MODE = 3) ∧ (v.hasRole 0 = true) ∧ (v.swapOk unready = false) :=
  ⟨{ (({ State.reset with pwr := { State.reset.pwr with inReset := false } }.put SYS_STAT.MODE 3) : State) with boot := { State.reset.boot with session := some ⟨31, 999, 77, 5, 6, 0⟩, req := some (0x10000000, [0x0A]) } }, 0, 0x10000000, [0x0A], false, _, rfl, by decide⟩
theorem witness_ServiceOperations_112 : ∃ (s : State) (t : Nat) (a : Nat) (b : List Byte) (v : State), (v = s.at_ t) ∧ (v.boot.req = some (a, b)) ∧ (sb b 0 = 0x0B) ∧ (v.boot.session.isSome = true) ∧ (v.get SYS_STAT.MODE = 4) ∧ (v.hasRole 4 = true) ∧ (v.boot.resetWait = none) :=
  ⟨{ (({ State.reset with pwr := { State.reset.pwr with inReset := false } }.put SYS_STAT.MODE 4) : State) with boot := { State.reset.boot with session := some ⟨31, 999, 77, 5, 6, 0⟩, req := some (0x10000000, [0x0B]) } }, 0, 0x10000000, [0x0B], _, rfl, by decide⟩
theorem witness_ServiceOperations_113 : ∃ (s : State) (t : Nat) (a : Nat) (b : List Byte) (fn : BitVec 5) (v : State), (v = s.at_ t) ∧ (v.boot.req = some (a, b)) ∧ (sb b 0 = 0x0C) ∧ (v.boot.session.isSome = true) ∧ (v.get SYS_STAT.MODE = 1 ∨ v.get SYS_STAT.MODE = 2 ∨ v.get SYS_STAT.MODE = 3) ∧ (v.hasRole 4 = true) ∧ ((v.tripRestart fn.toNat).2 = true) :=
  ⟨{ (((({ State.reset with pwr := { State.reset.pwr with inReset := false } }.put SYS_STAT.MODE 3).put (TRIP_FN_STAT.LATCHED 31) 1).put (TRIP_FN.POLICY 31) 1) : State) with boot := { State.reset.boot with session := some ⟨31, 999, 77, 5, 6, 0⟩, req := some (0x10000000, [0x0C]) } }, 0, 0x10000000, [0x0C], 31, _, rfl, by decide⟩
theorem witness_ServiceOperations_114 : ∃ (s : State) (t : Nat) (a : Nat) (b : List Byte) (fn : BitVec 5) (v : State), (v = s.at_ t) ∧ (v.boot.req = some (a, b)) ∧ (sb b 0 = 0x0C) ∧ (v.boot.session.isSome = true) ∧ (v.get SYS_STAT.MODE = 1 ∨ v.get SYS_STAT.MODE = 2 ∨ v.get SYS_STAT.MODE = 3) ∧ (v.hasRole 4 = true) ∧ ((v.tripRestart fn.toNat).2 = false) :=
  ⟨{ (({ State.reset with pwr := { State.reset.pwr with inReset := false } }.put SYS_STAT.MODE 3) : State) with boot := { State.reset.boot with session := some ⟨31, 999, 77, 5, 6, 0⟩, req := some (0x10000000, [0x0C]) } }, 0, 0x10000000, [0x0C], 31, _, rfl, by decide⟩
theorem witness_ServiceOperations_115 : ∃ (s : State) (t : Nat) (a : Nat) (b : List Byte) (part : BitVec 8) (v : State), (v = s.at_ t) ∧ (v.boot.req = some (a, b)) ∧ (sb b 0 = 0x0D) ∧ (v.boot.session.isSome = true) ∧ (v.get SYS_STAT.MODE = 1 ∨ v.get SYS_STAT.MODE = 2 ∨ v.get SYS_STAT.MODE = 3 ∨ v.get SYS_STAT.MODE = 4) ∧ (v.hasRole 3 = true) ∧ ((v.put REC_CLEAR_TOK.TOKEN_ID v.tokenId).clearRefused part.toNat = false) :=
  ⟨{ (({ State.reset with pwr := { State.reset.pwr with inReset := false } }.put SYS_STAT.MODE 1) : State) with boot := { State.reset.boot with session := some ⟨31, 999, 77, 5, 6, 0⟩, req := some (0x10000000, [0x0D]) } }, 0, 0x10000000, [0x0D], 2, _, rfl, by decide⟩
theorem witness_ServiceOperations_116 : ∃ (s : State) (t : Nat) (a : Nat) (b : List Byte) (part : BitVec 8) (v : State), (v = s.at_ t) ∧ (v.boot.req = some (a, b)) ∧ (sb b 0 = 0x0D) ∧ (v.boot.session.isSome = true) ∧ (v.get SYS_STAT.MODE = 1 ∨ v.get SYS_STAT.MODE = 2 ∨ v.get SYS_STAT.MODE = 3 ∨ v.get SYS_STAT.MODE = 4) ∧ (v.hasRole 3 = true) ∧ ((v.put REC_CLEAR_TOK.TOKEN_ID v.tokenId).clearRefused part.toNat = true) :=
  ⟨{ (({ State.reset with pwr := { State.reset.pwr with inReset := false } }.put SYS_STAT.MODE 1) : State) with boot := { State.reset.boot with session := some ⟨31, 999, 77, 5, 6, 0⟩, req := some (0x10000000, [0x0D]) } }, 0, 0x10000000, [0x0D], 4, _, rfl, by decide⟩
theorem witness_ServiceOperations_117 : ∃ (s : State) (t : Nat) (a : Nat) (b : List Byte) (v : State), (v = s.at_ t) ∧ (v.boot.req = some (a, b)) ∧ (sb b 0 = 0x0E) ∧ (v.boot.session.isSome = true) ∧ (v.get SYS_STAT.MODE = 1 ∨ v.get SYS_STAT.MODE = 2 ∨ v.get SYS_STAT.MODE = 3 ∨ v.get SYS_STAT.MODE = 4) ∧ (v.hasRole 0 = true) :=
  ⟨{ (({ State.reset with pwr := { State.reset.pwr with inReset := false } }.put SYS_STAT.MODE 1) : State) with boot := { State.reset.boot with session := some ⟨31, 999, 77, 5, 6, 0⟩, req := some (0x10000000, [0x0E]) } }, 0, 0x10000000, [0x0E], _, rfl, by decide⟩
theorem witness_ServiceOperations_118 : ∃ (s : State) (t : Nat) (a : Nat) (b : List Byte) (img : List Byte) (sig : SigCheck) (rsaMask slhMask : BitVec 4) (v : State), (v = s.at_ t) ∧ (v.boot.req = some (a, b)) ∧ (sb b 0 = 0x0F) ∧ (v.boot.session.isSome = true) ∧ (v.get SYS_STAT.MODE = 1 ∨ v.get SYS_STAT.MODE = 4) ∧ (v.hasRole 2 = true) ∧ (v.imageValid (listImage img) 5 sig = true) ∧ (bitOf rsaMask.toNat (imgNum (listImage img) 0x2C 1) = false) ∧ (bitOf slhMask.toNat (imgNum (listImage img) 0x2D 1) = false) ∧ ((List.range 4).any (fun k => bitOf (v.get UPD_OTP.RSA_PROG) k && !bitOf (v.get UPD_OTP.RSA_REV ||| rsaMask.toNat) k) = true) ∧ ((List.range 4).any (fun k => bitOf (v.get UPD_OTP.SLH_PROG) k && !bitOf (v.get UPD_OTP.SLH_REV ||| slhMask.toNat) k) = true) :=
  ⟨{ (((({ State.reset with pwr := { State.reset.pwr with inReset := false } }.put SYS_STAT.MODE 1).put UPD_OTP.RSA_PROG 15).put UPD_OTP.SLH_PROG 15) : State) with boot := { State.reset.boot with session := some ⟨31, 999, 77, 5, 6, 0⟩, req := some (0x10000000, [0x0F]) } }, 0, 0x10000000, [0x0F], ([1, 0x30, 0x48, 0xEA, 5, 0, 0, 0, 0, 1, 0, 0] ++ List.replicate 36 0 ++ [1]), ⟨0, 0, 0, true, true⟩, 8, 2, _, rfl, by decide⟩
theorem witness_ServiceOperations_119 : ∃ (s : State) (t : Nat) (a : Nat) (b : List Byte) (img : List Byte) (sig : SigCheck) (rsaMask slhMask : BitVec 4) (v : State), (v = s.at_ t) ∧ (v.boot.req = some (a, b)) ∧ (sb b 0 = 0x0F) ∧ (v.boot.session.isSome = true) ∧ (v.get SYS_STAT.MODE = 1 ∨ v.get SYS_STAT.MODE = 4) ∧ (v.hasRole 2 = true) ∧ (¬ (v.imageValid (listImage img) 5 sig = true ∧ bitOf rsaMask.toNat (imgNum (listImage img) 0x2C 1) = false ∧ bitOf slhMask.toNat (imgNum (listImage img) 0x2D 1) = false ∧ (List.range 4).any (fun k => bitOf (v.get UPD_OTP.RSA_PROG) k && !bitOf (v.get UPD_OTP.RSA_REV ||| rsaMask.toNat) k) = true ∧ (List.range 4).any (fun k => bitOf (v.get UPD_OTP.SLH_PROG) k && !bitOf (v.get UPD_OTP.SLH_REV ||| slhMask.toNat) k) = true)) :=
  ⟨{ (((({ State.reset with pwr := { State.reset.pwr with inReset := false } }.put SYS_STAT.MODE 1).put UPD_OTP.RSA_PROG 15).put UPD_OTP.SLH_PROG 15) : State) with boot := { State.reset.boot with session := some ⟨31, 999, 77, 5, 6, 0⟩, req := some (0x10000000, [0x0F]) } }, 0, 0x10000000, [0x0F], ([1, 0x30, 0x48, 0xEA, 5, 0, 0, 0, 0, 1, 0, 0] ++ List.replicate 36 0 ++ [1]), ⟨0, 0, 0, false, true⟩, 8, 2, _, rfl, by decide⟩
theorem witness_ServiceOperations_120 : ∃ (s : State) (t : Nat) (a : Nat) (b : List Byte) (rtc : BitVec 64) (n : Bool) (v : State), (v = s.at_ t) ∧ (v.boot.req = some (a, b)) ∧ (sb b 0 = 0x10) ∧ (v.boot.session.isSome = true) ∧ (v.get SYS_STAT.MODE = 1 ∨ v.get SYS_STAT.MODE = 2 ∨ v.get SYS_STAT.MODE = 3 ∨ v.get SYS_STAT.MODE = 4) ∧ (v.hasRole 0 = true) :=
  ⟨{ (({ State.reset with pwr := { State.reset.pwr with inReset := false } }.put SYS_STAT.MODE 1) : State) with boot := { State.reset.boot with session := some ⟨31, 999, 77, 5, 6, 0⟩, req := some (0x10000000, [0x10]) } }, 0, 0x10000000, [0x10], 0xFFFFFFFFFFFFFFFF, true, _, rfl, by decide⟩
theorem witness_ServiceOperations_121 : ∃ (s : State) (a res : Nat) (b : List Byte), (s.boot.req = some (a, b)) ∧ (res < 16) :=
  ⟨{ (({ State.reset with pwr := { State.reset.pwr with inReset := false } }.put SYS_STAT.MODE 1) : State) with boot := { State.reset.boot with req := some (0, [1]) } }, 0, 3, [1], by decide⟩
theorem witness_RegisterWrites_1 : ∃ (s : State) (t : Nat) (who : Initiator) (addr : BitVec 64) (size : Nat) (data : BitVec 64) (v : State), (v = s.at_ t) ∧ (v.acts who = true) ∧ (regionAt addr.toNat size = none) :=
  ⟨State.reset, 0, .boot, 0x15FFFFFFE, 4, 0, _, rfl, by decide⟩
theorem witness_RegisterWrites_2 : ∃ (s : State) (t : Nat) (who : Initiator) (addr : BitVec 64) (size : Nat) (data : BitVec 64) (r : Region) (v : State), (v = s.at_ t) ∧ (v.acts who = true) ∧ (regionAt addr.toNat size = some r) ∧ (r ≠ .mmio ∧ r ≠ .table ∧ r ≠ .rack) ∧ (who ≠ .tri) ∧ (memSize size = false ∨ memRight who none true r = false) :=
  ⟨up, 0, .s0, 0x08000000, 4, 0, .tcmAlias, _, rfl, by decide⟩
theorem witness_RegisterWrites_3 : ∃ (s : State) (t : Nat) (who : Initiator) (addr : BitVec 64) (size : Nat) (data : BitVec 64) (r : Region) (v : State), (v = s.at_ t) ∧ (v.acts who = true) ∧ (regionAt addr.toNat size = some r) ∧ (r ≠ .mmio ∧ r ≠ .table ∧ r ≠ .rack) ∧ (who ≠ .tri) ∧ (memSize size = true) ∧ (memRight who none true r = true) ∧ (v.runsOver who r = false) :=
  ⟨up, 0, .s0, 0x10000003, 4, 0, .sram, _, rfl, by decide⟩
theorem witness_RegisterWrites_4 : ∃ (s : State) (t : Nat) (who : Initiator) (addr : BitVec 64) (size : Nat) (data : BitVec 64) (r : Region) (v : State), (v = s.at_ t) ∧ (v.acts who = true) ∧ (regionAt addr.toNat size = some r) ∧ (r ≠ .mmio ∧ r ≠ .table ∧ r ≠ .rack) ∧ (who ≠ .tri) ∧ (memSize size = true) ∧ (memRight who none true r = true) ∧ (v.runsOver who r = true) :=
  ⟨State.reset.setCore 1 { State.reset.core 1 with st := .run }, 0, .boot, 0x120000003, 4, 0, .part 1, _, rfl, by decide⟩
theorem witness_RegisterWrites_5 : ∃ (s : State) (t : Nat) (addr : BitVec 64) (size : Nat) (data : BitVec 64) (r : Region) (v : State), (v = s.at_ t) ∧ (regionAt addr.toNat size = some r) ∧ (r ≠ .mmio ∧ r ≠ .table ∧ r ≠ .rack) :=
  ⟨State.reset, 0, 0x08000000, 4, 0, .tcmAlias, _, rfl, by decide⟩
theorem witness_RegisterWrites_6 : ∃ (s : State) (k : Nat) (r : Region) (a n d : Nat), (memSize n = false ∨ memRight .tri (some k) true r = false) :=
  ⟨State.reset, 2, .sram, 0x10000000, 4, 1, by decide⟩
theorem witness_RegisterWrites_7 : ∃ (s : State) (k : Nat) (r : Region) (a n d : Nat), (memSize n = true) ∧ (memRight .tri (some k) true r = true) ∧ (r = .tcmAlias) ∧ (0x08070000 ≤ a) :=
  ⟨State.reset, 2, .tcmAlias, 0x0807FFFF, 1, 1, by decide⟩
theorem witness_RegisterWrites_8 : ∃ (s : State) (k : Nat) (r : Region) (a n d : Nat), (memSize n = true) ∧ (memRight .tri (some k) true r = true) ∧ (r ≠ .tcmAlias ∨ a < 0x08070000) :=
  ⟨State.reset, 2, .tcmAlias, 0x0806FFFF, 1, 1, by decide⟩
theorem witness_RegisterWrites_9 : ∃ (s : State) (t : Nat) (who : Initiator) (addr : BitVec 64) (size : Nat) (data : BitVec 64) (v : State), (v = s.at_ t) ∧ (v.acts who = true) ∧ (regionAt addr.toNat size = some .table) :=
  ⟨up, 0, .s0, 0x213FFFFC, 4, 0, _, rfl, by decide⟩
theorem witness_RegisterWrites_10 : ∃ (s : State) (t : Nat) (who : Initiator) (addr : BitVec 64) (size : Nat) (data : BitVec 64) (v : State), (v = s.at_ t) ∧ (v.acts who = true) ∧ (regionAt addr.toNat size = some .rack) :=
  ⟨up, 0, .s0, 0x40000000, 4, 0, _, rfl, by decide⟩
theorem witness_RegisterWrites_11 : ∃ (s : State) (t : Nat) (who : Initiator) (addr : BitVec 64) (size : Nat) (data : BitVec 64) (v : State), (v = s.at_ t) ∧ (v.acts who = true) ∧ (regionAt addr.toNat size = some .mmio) ∧ (regShape addr.toNat size = false) :=
  ⟨State.reset, 0, .boot, 0x20000002, 2, 0, _, rfl, by decide⟩
theorem witness_RegisterWrites_12 : ∃ (s : State) (t : Nat) (who : Initiator) (addr : BitVec 64) (size : Nat) (data : BitVec 64) (v : State), (v = s.at_ t) ∧ (v.acts who = true) ∧ (regionAt addr.toNat size = some .mmio) ∧ (regShape addr.toNat size = true) ∧ (addr.toNat ≠ REGG_UNLOCK.KEY.addr) ∧ (mayWrite who (blockOf addr.toNat) = false ∨ regRight who addr.toNat = false) :=
  ⟨up, 0, .s3, 0x200E0000, 4, 0, _, rfl, by decide⟩
theorem witness_RegisterWrites_13 : ∃ (s : State) (t : Nat) (who : Initiator) (addr : BitVec 64) (size : Nat) (data : BitVec 64) (v : State), (v = s.at_ t) ∧ (v.acts who = true) ∧ (regionAt addr.toNat size = some .mmio) ∧ (regShape addr.toNat size = true) ∧ (addr.toNat ≠ REGG_UNLOCK.KEY.addr) ∧ (mayWrite who (blockOf addr.toNat) = true) ∧ (regRight who addr.toNat = true) ∧ (guarded addr.toNat = true) ∧ (v.unlocked who (blockOf addr.toNat) = false) :=
  ⟨State.reset, 0, .boot, 0x20000008, 4, 0, _, rfl, by decide⟩
theorem witness_RegisterWrites_14 : ∃ (s : State) (t : Nat) (who : Initiator) (addr : BitVec 64) (size : Nat) (data : BitVec 64) (v : State), (v = s.at_ t) ∧ (v.acts who = true) ∧ (regionAt addr.toNat size = some .mmio) ∧ (regShape addr.toNat size = true) ∧ (addr.toNat ≠ REGG_UNLOCK.KEY.addr) ∧ (mayWrite who (blockOf addr.toNat) = true) ∧ (regRight who addr.toNat = true) ∧ (guarded addr.toNat = false ∨ v.unlocked who (blockOf addr.toNat) = true) ∧ (isAlias addr.toNat = true) :=
  ⟨up, 0, .s0, 0x20158008, 4, 0, _, rfl, by decide⟩
theorem witness_RegisterWrites_15 : ∃ (s : State) (t : Nat) (who : Initiator) (addr : BitVec 64) (size : Nat) (data : BitVec 64) (v : State), (v = s.at_ t) ∧ (v.acts who = true) ∧ (regionAt addr.toNat size = some .mmio) ∧ (regShape addr.toNat size = true) ∧ (addr.toNat ≠ REGG_UNLOCK.KEY.addr) ∧ (mayWrite who (blockOf addr.toNat) = true) ∧ (regRight who addr.toNat = true) ∧ (guarded addr.toNat = false ∨ v.unlocked who (blockOf addr.toNat) = true) ∧ (isAlias addr.toNat = false) ∧ (findRow addr.toNat = none) :=
  ⟨up, 0, .s0, 0x2015FFFC, 4, 0, _, rfl, by decide⟩
theorem witness_RegisterWrites_16 : ∃ (s : State) (t : Nat) (who : Initiator) (addr : BitVec 64) (size : Nat) (data : BitVec 64) (r : RegRow) (v : State), (v = s.at_ t) ∧ (v.acts who = true) ∧ (regionAt addr.toNat size = some .mmio) ∧ (regShape addr.toNat size = true) ∧ (addr.toNat ≠ REGG_UNLOCK.KEY.addr) ∧ (mayWrite who (blockOf addr.toNat) = true) ∧ (regRight who addr.toNat = true) ∧ (guarded addr.toNat = false ∨ v.unlocked who (blockOf addr.toNat) = true) ∧ (isAlias addr.toNat = false) ∧ (findRow addr.toNat = some r) ∧ (r.acc = .ro) ∧ (who ≠ .boot ∨ r.stated = false ∨ v.get SYS_STAT.MODE ≠ 0) :=
  ⟨State.reset, 0, .tri, 0x20000000, 4, 0xFFFFFFFF, (findRow 0x20000000).getD ⟨0, 0, 0, 0, .ro, false, []⟩, _, rfl, by decide⟩
theorem witness_RegisterWrites_17 : ∃ (s : State) (t : Nat) (who : Initiator) (addr : BitVec 64) (size : Nat) (data : BitVec 64) (r : RegRow) (v : State), (v = s.at_ t) ∧ (v.acts who = true) ∧ (regionAt addr.toNat size = some .mmio) ∧ (regShape addr.toNat size = true) ∧ (addr.toNat ≠ REGG_UNLOCK.KEY.addr) ∧ (mayWrite who (blockOf addr.toNat) = true) ∧ (regRight who addr.toNat = true) ∧ (guarded addr.toNat = false ∨ v.unlocked who (blockOf addr.toNat) = true) ∧ (isAlias addr.toNat = false) ∧ (findRow addr.toNat = some r) ∧ (r.acc ≠ .ro ∨ (r.stated = true ∧ who = .boot ∧ v.get SYS_STAT.MODE = 0)) ∧ ((wordsOf size (data.toNat % 2 ^ (8 * size))).all (fun p => v.reservedKept (addr.toNat + p.1) p.2) = false) :=
  ⟨State.reset, 0, .boot, 0x20150000, 4, 0xFFFFFFFF, (findRow 0x20150000).getD ⟨0, 0, 0, 0, .ro, false, []⟩, _, rfl, by decide⟩
theorem witness_RegisterWrites_18 : ∃ (s : State) (t : Nat) (who : Initiator) (addr : BitVec 64) (size : Nat) (data : BitVec 64) (r : RegRow) (v : State), (v = s.at_ t) ∧ (v.acts who = true) ∧ (regionAt addr.toNat size = some .mmio) ∧ (regShape addr.toNat size = true) ∧ (addr.toNat ≠ REGG_UNLOCK.KEY.addr) ∧ (mayWrite who (blockOf addr.toNat) = true) ∧ (regRight who addr.toNat = true) ∧ (guarded addr.toNat = false ∨ v.unlocked who (blockOf addr.toNat) = true) ∧ (isAlias addr.toNat = false) ∧ (findRow addr.toNat = some r) ∧ (r.acc ≠ .ro ∨ (r.stated = true ∧ who = .boot ∧ v.get SYS_STAT.MODE = 0)) ∧ ((wordsOf size (data.toNat % 2 ^ (8 * size))).all (fun p => v.reservedKept (addr.toNat + p.1) p.2) = true) ∧ (perCore addr.toNat = true) :=
  ⟨State.reset, 0, .tri, 0x20040100, 4, 0, (findRow 0x20040100).getD ⟨0, 0, 0, 0, .ro, false, []⟩, _, rfl, by decide⟩
theorem witness_RegisterWrites_19 : ∃ (s : State) (t : Nat) (who : Initiator) (addr : BitVec 64) (size : Nat) (data : BitVec 64) (r : RegRow) (out : Result) (v : State), (v = s.at_ t) ∧ (v.acts who = true) ∧ (regionAt addr.toNat size = some .mmio) ∧ (regShape addr.toNat size = true) ∧ (addr.toNat ≠ REGG_UNLOCK.KEY.addr) ∧ (mayWrite who (blockOf addr.toNat) = true) ∧ (regRight who addr.toNat = true) ∧ (guarded addr.toNat = false ∨ v.unlocked who (blockOf addr.toNat) = true) ∧ (isAlias addr.toNat = false) ∧ (findRow addr.toNat = some r) ∧ (r.acc ≠ .ro ∨ (r.stated = true ∧ who = .boot ∧ v.get SYS_STAT.MODE = 0)) ∧ ((wordsOf size (data.toNat % 2 ^ (8 * size))).all (fun p => v.reservedKept (addr.toNat + p.1) p.2) = true) ∧ (perCore addr.toNat = false) ∧ (v.ownWrite t who addr.toNat size (data.toNat % 2 ^ (8 * size)) = some out) :=
  ⟨up, 0, .s0, 0x20130188, 4, 0, (findRow 0x20130188).getD ⟨0, 0, 0, 0, .ro, false, []⟩, _, _, rfl, by exact ⟨by decide, by decide, by decide, by decide, by decide, by decide, by decide, by decide, by decide, by decide, by decide, by decide, rfl⟩⟩
theorem witness_RegisterWrites_20 : ∃ (s : State) (t : Nat) (who : Initiator) (addr : BitVec 64) (size : Nat) (data : BitVec 64) (r : RegRow) (v : State), (v = s.at_ t) ∧ (v.acts who = true) ∧ (regionAt addr.toNat size = some .mmio) ∧ (regShape addr.toNat size = true) ∧ (addr.toNat ≠ REGG_UNLOCK.KEY.addr) ∧ (mayWrite who (blockOf addr.toNat) = true) ∧ (regRight who addr.toNat = true) ∧ (guarded addr.toNat = false ∨ v.unlocked who (blockOf addr.toNat) = true) ∧ (isAlias addr.toNat = false) ∧ (findRow addr.toNat = some r) ∧ (r.acc ≠ .ro) ∧ ((wordsOf size (data.toNat % 2 ^ (8 * size))).all (fun p => v.reservedKept (addr.toNat + p.1) p.2) = true) ∧ (perCore addr.toNat = false) ∧ ((v.ownWrite t who addr.toNat size (data.toNat % 2 ^ (8 * size))).isNone = true) :=
  ⟨up, 0, .s0, 0x20150008, 4, 0, (findRow 0x20150008).getD ⟨0, 0, 0, 0, .ro, false, []⟩, _, rfl, by decide⟩
theorem witness_RegisterWrites_21 : ∃ (s : State) (t : Nat) (who : Initiator) (addr : BitVec 64) (size : Nat) (data : BitVec 64) (r : RegRow) (v : State), (v = s.at_ t) ∧ (v.acts who = true) ∧ (regionAt addr.toNat size = some .mmio) ∧ (regShape addr.toNat size = true) ∧ (addr.toNat ≠ REGG_UNLOCK.KEY.addr) ∧ (mayWrite who (blockOf addr.toNat) = true) ∧ (regRight who addr.toNat = true) ∧ (guarded addr.toNat = false ∨ v.unlocked who (blockOf addr.toNat) = true) ∧ (isAlias addr.toNat = false) ∧ (findRow addr.toNat = some r) ∧ (r.acc = .ro ∧ r.stated = true ∧ who = .boot ∧ v.get SYS_STAT.MODE = 0) ∧ ((wordsOf size (data.toNat % 2 ^ (8 * size))).all (fun p => v.reservedKept (addr.toNat + p.1) p.2) = true) ∧ (perCore addr.toNat = false) ∧ ((v.ownWrite t who addr.toNat size (data.toNat % 2 ^ (8 * size))).isNone = true) :=
  ⟨State.reset, 0, .boot, 0x20030040, 4, 0, (findRow 0x20030040).getD ⟨0, 0, 0, 0, .ro, false, []⟩, _, rfl, by decide⟩
theorem witness_RegisterWrites_22 : ∃ (s : State) (t : Nat) (who : Initiator) (addr : BitVec 64) (data : BitVec 64) (r : RegRow) (v : State), (v = s.at_ t) ∧ (v.acts who = true) ∧ (inMmio addr.toNat = true) ∧ (regShape addr.toNat 4 = true) ∧ (addr.toNat ≠ REGG_UNLOCK.KEY.addr) ∧ (mayWrite who (blockOf addr.toNat) = true) ∧ (regRight who addr.toNat = true) ∧ (guarded addr.toNat = false ∨ v.unlocked who (blockOf addr.toNat) = true) ∧ (isAlias addr.toNat = false) ∧ (findRow addr.toNat = some r) ∧ (r.acc = .rw ∨ r.acc = .rwg) ∧ (v.reservedKept addr.toNat (data.toNat % 2 ^ 32) = true) ∧ (perCore addr.toNat = false) ∧ ((v.ownWrite t who addr.toNat 4 (data.toNat % 2 ^ 32)).isNone = true) :=
  ⟨up, 0, .s0, 0x20150008, 0, (findRow 0x20150008).getD ⟨0, 0, 0, 0, .ro, false, []⟩, _, rfl, by decide⟩
theorem witness_RegisterWrites_23 : ∃ (s : State) (t : Nat) (who : Initiator) (addr : BitVec 64) (data : BitVec 64) (r : RegRow) (v : State), (v = s.at_ t) ∧ (v.acts who = true) ∧ (inMmio addr.toNat = true) ∧ (regShape addr.toNat 8 = true) ∧ (addr.toNat ≠ REGG_UNLOCK.KEY.addr) ∧ (mayWrite who (blockOf addr.toNat) = true) ∧ (regRight who addr.toNat = true) ∧ (guarded addr.toNat = false ∨ v.unlocked who (blockOf addr.toNat) = true) ∧ (isAlias addr.toNat = false) ∧ (findRow addr.toNat = some r) ∧ (r.acc = .rwi) ∧ (v.reservedKept addr.toNat (data.toNat % 2 ^ 32) = true) ∧ (v.reservedKept (addr.toNat + 4) (data.toNat / 2 ^ 32) = true) ∧ (perCore addr.toNat = false) ∧ ((v.ownWrite t who addr.toNat 8 data.toNat).isNone = true) :=
  ⟨State.reset, 0, .boot, 0x20000020, 0xFFFFFFFF00000000, (findRow 0x20000020).getD ⟨0, 0, 0, 0, .ro, false, []⟩, _, rfl, by decide⟩
theorem witness_RegisterWrites_24 : ∃ (s : State) (t : Nat) (who : Initiator) (addr : BitVec 64) (data : BitVec 64) (r : RegRow) (v : State), (v = s.at_ t) ∧ (v.acts who = true) ∧ (inMmio addr.toNat = true) ∧ (regShape addr.toNat 4 = true) ∧ (addr.toNat ≠ REGG_UNLOCK.KEY.addr) ∧ (mayWrite who (blockOf addr.toNat) = true) ∧ (regRight who addr.toNat = true) ∧ (guarded addr.toNat = false ∨ v.unlocked who (blockOf addr.toNat) = true) ∧ (isAlias addr.toNat = false) ∧ (findRow addr.toNat = some r) ∧ (r.acc = .rwi) ∧ (v.reservedKept addr.toNat (data.toNat % 2 ^ 32) = true) ∧ (perCore addr.toNat = false) ∧ ((v.ownWrite t who addr.toNat 4 (data.toNat % 2 ^ 32)).isNone = true) :=
  ⟨up, 0, .s0, 0x20000040, 0, (findRow 0x20000040).getD ⟨0, 0, 0, 0, .ro, false, []⟩, _, rfl, by decide⟩
theorem witness_RegisterWrites_25 : ∃ (s : State) (t : Nat) (who : Initiator) (addr : BitVec 64) (data : BitVec 64) (r : RegRow) (v : State), (v = s.at_ t) ∧ (v.acts who = true) ∧ (inMmio addr.toNat = true) ∧ (regShape addr.toNat 4 = true) ∧ (addr.toNat ≠ REGG_UNLOCK.KEY.addr) ∧ (mayWrite who (blockOf addr.toNat) = true) ∧ (regRight who addr.toNat = true) ∧ (guarded addr.toNat = false ∨ v.unlocked who (blockOf addr.toNat) = true) ∧ (isAlias addr.toNat = false) ∧ (findRow addr.toNat = some r) ∧ (r.acc = .ro) ∧ (who ≠ .boot) :=
  ⟨State.reset, 0, .tri, 0x20000000, 0xFFFFFFFF, (findRow 0x20000000).getD ⟨0, 0, 0, 0, .ro, false, []⟩, _, rfl, by decide⟩
theorem witness_RegisterWrites_26 : ∃ (s : State) (t : Nat) (who : Initiator) (addr : BitVec 64) (data : BitVec 64) (v : State), (v = s.at_ t) ∧ (v.acts who = true) ∧ (inMmio addr.toNat = true) ∧ (regShape addr.toNat 4 = true) ∧ (addr.toNat ≠ REGG_UNLOCK.KEY.addr) ∧ (mayWrite who (blockOf addr.toNat) = true) ∧ (regRight who addr.toNat = true) ∧ (guarded addr.toNat = false ∨ v.unlocked who (blockOf addr.toNat) = true) ∧ (isAlias addr.toNat = true) :=
  ⟨up, 0, .s0, 0x20158008, 0, _, rfl, by decide⟩
theorem witness_RegisterWrites_27 : ∃ (s : State) (t : Nat) (who : Initiator) (key : BitVec 16) (block : BitVec 5), (s.acts who = true) :=
  ⟨State.reset, 0, .boot, 0, 0, by decide⟩
theorem witness_RegisterWrites_28 : ∃ (s : State) (t : Nat) (who : Initiator) (data : BitVec 64), (s.acts who = true) ∧ (2 ^ 21 ≤ data.toNat % 2 ^ 32) :=
  ⟨up, 0, .s0, 0x200000, by decide⟩
theorem witness_RegisterWrites_29 : ∃ (s : State) (t : Nat) (who : Initiator) (groups : BitVec 16), (s.acts who = true) :=
  ⟨State.reset, 0, .boot, 0, by decide⟩
theorem witness_PendingValues_1 : ∃ (s : State) (p : Nat → Bool) (a : Nat), (s.pend.Pairwise (fun x y => x.1 < y.1)) :=
  ⟨{ State.reset with pend := [(0x20150000, 1), (0x20150008, 2)] }, fun b => b == 0x15, 0x20150008, by decide⟩
theorem witness_PendingValues_2 : ∃ (s : State) (p : Nat → Bool) (a : Nat) (x y : Word), (s.pend = []) ∧ (p (blockOf a) = true) :=
  ⟨State.reset, fun b => b == 0x15, 0x20150008, 1, 2, by decide⟩
theorem witness_PopWindows_1 : ∃ (s : State) (t : Nat) (who : Initiator) (core : Nat) (win : BitVec 64) (n e : Nat) (l : List Nat) (v : State), (v = s.at_ t) ∧ (v.acts who = true) ∧ (who ≠ .tri) ∧ (n < 16) ∧ (win.toNat = 0x20080200 + 8 * n) ∧ (SMap.getD v.time.caps n [] = e :: l) :=
  ⟨{ State.reset with time := { State.reset.time with caps := [(15, [2 ^ 40 + 7, 9])] } }, 0, .boot, 0, 0x20080278, 15, 2 ^ 40 + 7, [9], _, rfl, by decide⟩
theorem witness_PopWindows_2 : ∃ (s : State) (t : Nat) (who : Initiator) (core : Nat) (win : BitVec 64) (n : Nat) (e : Nat × Bool) (l : List (Nat × Bool)) (v : State), (v = s.at_ t) ∧ (v.acts who = true) ∧ (who ≠ .tri) ∧ (n < 8) ∧ (win.toNat = 0x200A0038 + 64 * n) ∧ ((v.eng n).fifo = e :: l) :=
  ⟨(up.setEng 7 ⟨[(2 ^ 32 + 1, true)], none, false, none⟩), 0, .s3, 0, 0x200A01F8, 7, (2 ^ 32 + 1, true), [], _, rfl, by decide⟩
theorem witness_PopWindows_3 : ∃ (s : State) (t : Nat) (who : Initiator) (core : Nat) (win : BitVec 64) (e : Nat) (l : List Nat) (v : State), (v = s.at_ t) ∧ (v.acts who = true) ∧ (who ≠ .tri) ∧ (win.toNat = 0x20100010) ∧ (v.brg.log = e :: l) :=
  ⟨{ up with brg := { State.reset.brg with log := [2 ^ 35, 1] } }, 0, .s0, 0, 0x20100010, 2 ^ 35, [1], _, rfl, by decide⟩
theorem witness_PopWindows_4 : ∃ (s : State) (t : Nat) (who : Initiator) (core : Nat) (win : BitVec 64) (e : Nat) (l : List Nat) (v : State), (v = s.at_ t) ∧ (v.acts who = true) ∧ (who ≠ .tri) ∧ (win.toNat = 0x20100010) ∧ (v.brg.log = e :: l) :=
  ⟨{ up with brg := { State.reset.brg with log := [2 ^ 35, 1] } }, 0, .s0, 0, 0x20100010, 2 ^ 35, [1], _, rfl, by decide⟩
theorem witness_PopWindows_5 : ∃ (s : State) (t : Nat) (who : Initiator) (core : Nat) (win : BitVec 64) (c e : Nat) (l : List Nat) (v : State), (v = s.at_ t) ∧ (v.acts who = true) ∧ (who ≠ .tri) ∧ (c < 4) ∧ (win.toNat = 0x200F0118 + 32 * c) ∧ ((v.loop c).fifo = e :: l) :=
  ⟨(up.setLoop 3 { up.loop 3 with fifo := [0xFF, 1] }), 0, .s0, 0, 0x200F0178, 3, 0xFF, [1], _, rfl, by decide⟩
theorem witness_PopWindows_6 : ∃ (s : State) (t : Nat) (who : Initiator) (core : Nat) (win : BitVec 64) (e : Nat) (w : State) (v : State), (v = s.at_ t) ∧ (v.acts who = true) ∧ (who ≠ .tri) ∧ (popWide win.toNat = true) ∧ (win.toNat % 8 = 0) ∧ (v.popHead win.toNat = some (e, w)) :=
  ⟨{ State.reset with time := { State.reset.time with caps := [(15, [2 ^ 40 + 7, 9])] } }, 0, .boot, 0, 0x20080278, 2 ^ 40 + 7, ((({ State.reset with time := { State.reset.time with caps := [(15, [2 ^ 40 + 7, 9])] } } : State).at_ 0).popHead 0x20080278).elim State.reset Prod.snd, _, rfl, by exact ⟨by decide, by decide, by decide, by decide, rfl⟩⟩
theorem witness_PopWindows_7 : ∃ (s : State) (t : Nat) (who : Initiator) (core : Nat) (win : BitVec 64)  (v : State), (v = s.at_ t) ∧ (v.acts who = true) ∧ (who ≠ .tri) ∧ (popWide win.toNat = true) ∧ (win.toNat % 8 = 0) :=
  ⟨State.reset, 0, .boot, 0, 0x200A0038, _, rfl, by decide⟩
theorem witness_PopWindows_8 : ∃ (s : State) (t : Nat) (who : Initiator) (core : Nat) (win : BitVec 64)  (v : State), (v = s.at_ t) ∧ (v.acts who = true) ∧ (who ≠ .tri) ∧ (popWide win.toNat = true) ∧ (win.toNat % 8 = 0) ∧ ((v.popHead win.toNat).isNone = true) :=
  ⟨up, 0, .s1, 0, 0x20100010, _, rfl, by decide⟩
theorem witness_PopWindows_9 : ∃ (s : State) (t : Nat) (who : Initiator) (core : Nat) (win : BitVec 64)  (v : State), (v = s.at_ t) ∧ (v.acts who = true) ∧ (who ≠ .tri) ∧ (popWide win.toNat = true) ∧ (win.toNat % 8 = 0) ∧ ((v.popHead win.toNat).isNone = true) :=
  ⟨up, 0, .s1, 0, 0x20100010, _, rfl, by decide⟩
theorem witness_PopWindows_10 : ∃ (s : State) (t : Nat) (who : Initiator) (core : Nat) (win : BitVec 64)  (v : State), (v = s.at_ t) ∧ (v.acts who = true) ∧ (who ≠ .tri) ∧ (0x200F0100 ≤ win.toNat) ∧ (win.toNat < 0x200F0180) ∧ (win.toNat % 32 = 0x18) ∧ ((v.popHead win.toNat).isNone = true) :=
  ⟨up, 0, .s1, 0, 0x200F0178, _, rfl, by decide⟩
theorem witness_PopWindows_11 : ∃ (s : State) (t : Nat) (who : Initiator) (core : Nat) (win : BitVec 64)  (v : State), (v = s.at_ t) ∧ (v.acts who = true) ∧ (who ≠ .tri ∨ (v.executes core = true ∧ (inDevice win.toNat = false ∨ (v.core core).queue = []))) ∧ (regionAt win.toNat 8 = none) :=
  ⟨up, 0, .s0, 0, 0x30000000, _, rfl, by decide⟩
theorem witness_PopWindows_12 : ∃ (s : State) (t : Nat) (who : Initiator) (core : Nat) (win : BitVec 64)  (v : State), (v = s.at_ t) ∧ (v.acts who = true) ∧ (who ≠ .tri ∨ (v.executes core = true ∧ (inDevice win.toNat = false ∨ (v.core core).queue = []))) ∧ (regionAt win.toNat 8 = some .mmio) ∧ (regShape win.toNat 8 = false ∨ (isPop win.toNat = true ∧ who = .tri)) :=
  ⟨(State.reset.setCore 2 { State.reset.core 2 with st := .run }), 0, .tri, 2, 0x20100010, _, rfl, by decide⟩
theorem witness_PopWindows_13 : ∃ (s : State) (t : Nat) (who : Initiator) (core : Nat) (win : BitVec 64)  (v : State), (v = s.at_ t) ∧ (v.acts who = true) ∧ (who ≠ .tri ∨ (v.executes core = true ∧ (inDevice win.toNat = false ∨ (v.core core).queue = []))) ∧ (regionAt win.toNat 8 = some .mmio) ∧ (regShape win.toNat 8 = true) ∧ (isPop win.toNat = false) :=
  ⟨up, 0, .s0, 0, 0x20050030, _, rfl, by decide⟩
theorem witness_PopWindows_14 : ∃ (s : State) (t : Nat) (who : Initiator) (core : Nat) (win : BitVec 64)  (v : State), (v = s.at_ t) ∧ (v.acts who = true) ∧ (who ≠ .tri ∨ (v.executes core = true ∧ (inDevice win.toNat = false ∨ (v.core core).queue = []))) ∧ (regionAt win.toNat 8 = some .table) :=
  ⟨up, 0, .s0, 0, 0x21000000, _, rfl, by decide⟩
theorem witness_PopWindows_15 : ∃ (s : State) (t : Nat) (who : Initiator) (core : Nat) (win : BitVec 64) (v : State), (v = s.at_ t) ∧ (v.acts who = true) ∧ (who ≠ .tri) ∧ (regionAt win.toNat 8 = some .rack) :=
  ⟨up, 0, .s0, 0, 0x40000000, _, rfl, by decide⟩
theorem witness_PopWindows_16 : ∃ (s : State) (t : Nat) (core : Nat) (win : BitVec 64) (v : State), (v = s.at_ t) ∧ (v.executes core = true) ∧ ((v.core core).queue = []) ∧ (regionAt win.toNat 8 = some .rack) :=
  ⟨(State.reset.setCore 2 { State.reset.core 2 with st := .run }), 0, 2, 0x40000000, _, rfl, by decide⟩
theorem witness_PopWindows_17 : ∃ (s : State) (t : Nat) (who : Initiator) (core : Nat) (win : BitVec 64) (r : Region) (v : State), (v = s.at_ t) ∧ (v.acts who = true) ∧ (who ≠ .tri ∨ (v.executes core = true ∧ (inDevice win.toNat = false ∨ (v.core core).queue = []))) ∧ (regionAt win.toNat 8 = some r) ∧ (r ≠ .mmio ∧ r ≠ .table ∧ r ≠ .rack) ∧ (memRight who (some core) false r = true) :=
  ⟨up, 0, .s0, 0, 0x10000004, .sram, _, rfl, by decide⟩
theorem witness_PopWindows_18 : ∃ (s : State) (t : Nat) (who : Initiator) (core : Nat) (win : BitVec 64) (r : Region) (v : State), (v = s.at_ t) ∧ (v.acts who = true) ∧ (who ≠ .tri ∨ (v.executes core = true ∧ (inDevice win.toNat = false ∨ (v.core core).queue = []))) ∧ (regionAt win.toNat 8 = some r) ∧ (r ≠ .mmio ∧ r ≠ .table ∧ r ≠ .rack) ∧ (memRight who (some core) false r = false) :=
  ⟨up, 0, .s0, 0, 0x8000004, .tcmAlias, _, rfl, by decide⟩
theorem witness_PopWindows_19 : ∃ (s : State) (t : Nat) (core : Nat) (win : BitVec 64) (v : State), (v = s.at_ t) ∧ (v.executes core = false) :=
  ⟨State.reset, 0, 2, 0x20100010, _, rfl, by decide⟩
theorem witness_PopWindows_20 : ∃ (s : State) (t : Nat) (core : Nat) (win : BitVec 64) (v : State), (v = s.at_ t) ∧ (v.executes core = true) ∧ (inDevice win.toNat = true) ∧ ((v.core core).queue ≠ []) :=
  ⟨(State.reset.setCore 2 { State.reset.core 2 with st := .run, queue := [(⟨0, 0, 0x20158000, 4, 0, 0⟩)] }), 0, 2, 0x20100010, _, rfl, by decide⟩
theorem witness_PopWindows_21 : ∃ (s : State) (t : Nat) (who : Initiator) (core : Nat) (win : BitVec 64)  (v : State), (v = s.at_ t) ∧ (v.acts who = true) ∧ (who ≠ .tri ∨ (v.executes core = true ∧ (inDevice win.toNat = false ∨ (v.core core).queue = []))) ∧ (regionAt win.toNat 4 = none) :=
  ⟨up, 0, .s0, 0, 0x30000000, _, rfl, by decide⟩
theorem witness_PopWindows_22 : ∃ (s : State) (t : Nat) (who : Initiator) (core : Nat) (win : BitVec 64)  (v : State), (v = s.at_ t) ∧ (v.acts who = true) ∧ (who ≠ .tri ∨ (v.executes core = true ∧ (inDevice win.toNat = false ∨ (v.core core).queue = []))) ∧ (regionAt win.toNat 4 = some .mmio) ∧ (regShape win.toNat 4 = false ∨ (isPop win.toNat = true ∧ who = .tri)) :=
  ⟨(State.reset.setCore 2 { State.reset.core 2 with st := .run }), 0, .tri, 2, 0x20100010, _, rfl, by decide⟩
theorem witness_PopWindows_23 : ∃ (s : State) (t : Nat) (who : Initiator) (core : Nat) (win : BitVec 64)  (v : State), (v = s.at_ t) ∧ (v.acts who = true) ∧ (who ≠ .tri ∨ (v.executes core = true ∧ (inDevice win.toNat = false ∨ (v.core core).queue = []))) ∧ (regionAt win.toNat 4 = some .mmio) ∧ (regShape win.toNat 4 = true) ∧ (isPop win.toNat = false) :=
  ⟨up, 0, .s0, 0, 0x20050030, _, rfl, by decide⟩
theorem witness_PopWindows_24 : ∃ (s : State) (t : Nat) (who : Initiator) (core : Nat) (win : BitVec 64)  (v : State), (v = s.at_ t) ∧ (v.acts who = true) ∧ (who ≠ .tri ∨ (v.executes core = true ∧ (inDevice win.toNat = false ∨ (v.core core).queue = []))) ∧ (regionAt win.toNat 4 = some .table) :=
  ⟨up, 0, .s0, 0, 0x21000000, _, rfl, by decide⟩
theorem witness_PopWindows_25 : ∃ (s : State) (t : Nat) (who : Initiator) (core : Nat) (win : BitVec 64) (v : State), (v = s.at_ t) ∧ (v.acts who = true) ∧ (who ≠ .tri) ∧ (regionAt win.toNat 4 = some .rack) :=
  ⟨up, 0, .s0, 0, 0x40000000, _, rfl, by decide⟩
theorem witness_PopWindows_26 : ∃ (s : State) (t : Nat) (core : Nat) (win : BitVec 64) (v : State), (v = s.at_ t) ∧ (v.executes core = true) ∧ ((v.core core).queue = []) ∧ (regionAt win.toNat 4 = some .rack) :=
  ⟨(State.reset.setCore 2 { State.reset.core 2 with st := .run }), 0, 2, 0x40000000, _, rfl, by decide⟩
theorem witness_PopWindows_27 : ∃ (s : State) (t : Nat) (who : Initiator) (core : Nat) (win : BitVec 64) (r : Region) (v : State), (v = s.at_ t) ∧ (v.acts who = true) ∧ (who ≠ .tri ∨ (v.executes core = true ∧ (inDevice win.toNat = false ∨ (v.core core).queue = []))) ∧ (regionAt win.toNat 4 = some r) ∧ (r ≠ .mmio ∧ r ≠ .table ∧ r ≠ .rack) ∧ (memRight who (some core) false r = true) :=
  ⟨up, 0, .s0, 0, 0x10000004, .sram, _, rfl, by decide⟩
theorem witness_PopWindows_28 : ∃ (s : State) (t : Nat) (who : Initiator) (core : Nat) (win : BitVec 64) (r : Region) (v : State), (v = s.at_ t) ∧ (v.acts who = true) ∧ (who ≠ .tri ∨ (v.executes core = true ∧ (inDevice win.toNat = false ∨ (v.core core).queue = []))) ∧ (regionAt win.toNat 4 = some r) ∧ (r ≠ .mmio ∧ r ≠ .table ∧ r ≠ .rack) ∧ (memRight who (some core) false r = false) :=
  ⟨up, 0, .s0, 0, 0x8000004, .tcmAlias, _, rfl, by decide⟩
theorem witness_PopWindows_29 : ∃ (s : State) (t : Nat) (core : Nat) (win : BitVec 64) (v : State), (v = s.at_ t) ∧ (v.executes core = false) :=
  ⟨State.reset, 0, 2, 0x20100010, _, rfl, by decide⟩
theorem witness_PopWindows_30 : ∃ (s : State) (t : Nat) (core : Nat) (win : BitVec 64) (v : State), (v = s.at_ t) ∧ (v.executes core = true) ∧ (inDevice win.toNat = true) ∧ ((v.core core).queue ≠ []) :=
  ⟨(State.reset.setCore 2 { State.reset.core 2 with st := .run, queue := [(⟨0, 0, 0x20158000, 4, 0, 0⟩)] }), 0, 2, 0x20100010, _, rfl, by decide⟩
theorem witness_PopWindows_31 : ∃ (s : State) (t : Nat) (who : Initiator) (core : Nat) (win : BitVec 64)  (v : State), (v = s.at_ t) ∧ (v.acts who = true) ∧ (who ≠ .tri ∨ (v.executes core = true ∧ (inDevice (win.toNat + 4) = false ∨ (v.core core).queue = []))) ∧ (regionAt (win.toNat + 4) 4 = none) :=
  ⟨up, 0, .s0, 0, 0x2ffffffc, _, rfl, by decide⟩
theorem witness_PopWindows_32 : ∃ (s : State) (t : Nat) (who : Initiator) (core : Nat) (win : BitVec 64)  (v : State), (v = s.at_ t) ∧ (v.acts who = true) ∧ (who ≠ .tri ∨ (v.executes core = true ∧ (inDevice (win.toNat + 4) = false ∨ (v.core core).queue = []))) ∧ (regionAt (win.toNat + 4) 4 = some .mmio) ∧ (regShape (win.toNat + 4) 4 = false ∨ (isPop (win.toNat + 4) = true ∧ who = .tri)) :=
  ⟨(State.reset.setCore 2 { State.reset.core 2 with st := .run }), 0, .tri, 2, 0x20100010, _, rfl, by decide⟩
theorem witness_PopWindows_33 : ∃ (s : State) (t : Nat) (who : Initiator) (core : Nat) (win : BitVec 64)  (v : State), (v = s.at_ t) ∧ (v.acts who = true) ∧ (who ≠ .tri ∨ (v.executes core = true ∧ (inDevice (win.toNat + 4) = false ∨ (v.core core).queue = []))) ∧ (regionAt (win.toNat + 4) 4 = some .mmio) ∧ (regShape (win.toNat + 4) 4 = true) ∧ (isPop (win.toNat + 4) = false) :=
  ⟨up, 0, .s0, 0, 0x2005002c, _, rfl, by decide⟩
theorem witness_PopWindows_34 : ∃ (s : State) (t : Nat) (who : Initiator) (core : Nat) (win : BitVec 64)  (v : State), (v = s.at_ t) ∧ (v.acts who = true) ∧ (who ≠ .tri ∨ (v.executes core = true ∧ (inDevice (win.toNat + 4) = false ∨ (v.core core).queue = []))) ∧ (regionAt (win.toNat + 4) 4 = some .table) :=
  ⟨up, 0, .s0, 0, 0x20fffffc, _, rfl, by decide⟩
theorem witness_PopWindows_35 : ∃ (s : State) (t : Nat) (who : Initiator) (core : Nat) (win : BitVec 64) (v : State), (v = s.at_ t) ∧ (v.acts who = true) ∧ (who ≠ .tri) ∧ (regionAt (win.toNat + 4) 4 = some .rack) :=
  ⟨up, 0, .s0, 0, 0x3ffffffc, _, rfl, by decide⟩
theorem witness_PopWindows_36 : ∃ (s : State) (t : Nat) (core : Nat) (win : BitVec 64) (v : State), (v = s.at_ t) ∧ (v.executes core = true) ∧ ((v.core core).queue = []) ∧ (regionAt (win.toNat + 4) 4 = some .rack) :=
  ⟨(State.reset.setCore 2 { State.reset.core 2 with st := .run }), 0, 2, 0x3ffffffc, _, rfl, by decide⟩
theorem witness_PopWindows_37 : ∃ (s : State) (t : Nat) (who : Initiator) (core : Nat) (win : BitVec 64) (r : Region) (v : State), (v = s.at_ t) ∧ (v.acts who = true) ∧ (who ≠ .tri ∨ (v.executes core = true ∧ (inDevice (win.toNat + 4) = false ∨ (v.core core).queue = []))) ∧ (regionAt (win.toNat + 4) 4 = some r) ∧ (r ≠ .mmio ∧ r ≠ .table ∧ r ≠ .rack) ∧ (memRight who (some core) false r = true) :=
  ⟨up, 0, .s0, 0, 0x10000000, .sram, _, rfl, by decide⟩
theorem witness_PopWindows_38 : ∃ (s : State) (t : Nat) (who : Initiator) (core : Nat) (win : BitVec 64) (r : Region) (v : State), (v = s.at_ t) ∧ (v.acts who = true) ∧ (who ≠ .tri ∨ (v.executes core = true ∧ (inDevice (win.toNat + 4) = false ∨ (v.core core).queue = []))) ∧ (regionAt (win.toNat + 4) 4 = some r) ∧ (r ≠ .mmio ∧ r ≠ .table ∧ r ≠ .rack) ∧ (memRight who (some core) false r = false) :=
  ⟨up, 0, .s0, 0, 0x8000000, .tcmAlias, _, rfl, by decide⟩
theorem witness_PopWindows_39 : ∃ (s : State) (t : Nat) (core : Nat) (win : BitVec 64) (v : State), (v = s.at_ t) ∧ (v.executes core = false) :=
  ⟨State.reset, 0, 2, 0x20100010, _, rfl, by decide⟩
theorem witness_PopWindows_40 : ∃ (s : State) (t : Nat) (core : Nat) (win : BitVec 64) (v : State), (v = s.at_ t) ∧ (v.executes core = true) ∧ (inDevice (win.toNat + 4) = true) ∧ ((v.core core).queue ≠ []) :=
  ⟨(State.reset.setCore 2 { State.reset.core 2 with st := .run, queue := [(⟨0, 0, 0x20158000, 4, 0, 0⟩)] }), 0, 2, 0x20100010, _, rfl, by decide⟩
theorem witness_PopWindows_41 : ∃ (s : State) (t : Nat) (who : Initiator) (core : Nat) (win : BitVec 64)  (v : State), (v = s.at_ t) ∧ (v.acts who = true) ∧ (who ≠ .tri ∨ (v.executes core = true ∧ (inDevice win.toNat = false ∨ (v.core core).queue = []))) ∧ (regionAt win.toNat 4 = none) :=
  ⟨up, 0, .s0, 0, 0x30000000, _, rfl, by decide⟩
theorem witness_PopWindows_42 : ∃ (s : State) (t : Nat) (who : Initiator) (core : Nat) (win : BitVec 64)  (v : State), (v = s.at_ t) ∧ (v.acts who = true) ∧ (who ≠ .tri ∨ (v.executes core = true ∧ (inDevice win.toNat = false ∨ (v.core core).queue = []))) ∧ (regionAt win.toNat 4 = some .mmio) ∧ (regShape win.toNat 4 = false ∨ (isPop win.toNat = true ∧ who = .tri)) :=
  ⟨(State.reset.setCore 2 { State.reset.core 2 with st := .run }), 0, .tri, 2, 0x200F0118, _, rfl, by decide⟩
theorem witness_PopWindows_43 : ∃ (s : State) (t : Nat) (who : Initiator) (core : Nat) (win : BitVec 64)  (v : State), (v = s.at_ t) ∧ (v.acts who = true) ∧ (who ≠ .tri ∨ (v.executes core = true ∧ (inDevice win.toNat = false ∨ (v.core core).queue = []))) ∧ (regionAt win.toNat 4 = some .mmio) ∧ (regShape win.toNat 4 = true) ∧ (isPop win.toNat = false) :=
  ⟨up, 0, .s0, 0, 0x20050030, _, rfl, by decide⟩
theorem witness_PopWindows_44 : ∃ (s : State) (t : Nat) (who : Initiator) (core : Nat) (win : BitVec 64)  (v : State), (v = s.at_ t) ∧ (v.acts who = true) ∧ (who ≠ .tri ∨ (v.executes core = true ∧ (inDevice win.toNat = false ∨ (v.core core).queue = []))) ∧ (regionAt win.toNat 4 = some .table) :=
  ⟨up, 0, .s0, 0, 0x21000000, _, rfl, by decide⟩
theorem witness_PopWindows_45 : ∃ (s : State) (t : Nat) (who : Initiator) (core : Nat) (win : BitVec 64) (v : State), (v = s.at_ t) ∧ (v.acts who = true) ∧ (who ≠ .tri) ∧ (regionAt win.toNat 4 = some .rack) :=
  ⟨up, 0, .s0, 0, 0x40000000, _, rfl, by decide⟩
theorem witness_PopWindows_46 : ∃ (s : State) (t : Nat) (core : Nat) (win : BitVec 64) (v : State), (v = s.at_ t) ∧ (v.executes core = true) ∧ ((v.core core).queue = []) ∧ (regionAt win.toNat 4 = some .rack) :=
  ⟨(State.reset.setCore 2 { State.reset.core 2 with st := .run }), 0, 2, 0x40000000, _, rfl, by decide⟩
theorem witness_PopWindows_47 : ∃ (s : State) (t : Nat) (who : Initiator) (core : Nat) (win : BitVec 64) (r : Region) (v : State), (v = s.at_ t) ∧ (v.acts who = true) ∧ (who ≠ .tri ∨ (v.executes core = true ∧ (inDevice win.toNat = false ∨ (v.core core).queue = []))) ∧ (regionAt win.toNat 4 = some r) ∧ (r ≠ .mmio ∧ r ≠ .table ∧ r ≠ .rack) ∧ (memRight who (some core) false r = true) :=
  ⟨up, 0, .s0, 0, 0x10000004, .sram, _, rfl, by decide⟩
theorem witness_PopWindows_48 : ∃ (s : State) (t : Nat) (who : Initiator) (core : Nat) (win : BitVec 64) (r : Region) (v : State), (v = s.at_ t) ∧ (v.acts who = true) ∧ (who ≠ .tri ∨ (v.executes core = true ∧ (inDevice win.toNat = false ∨ (v.core core).queue = []))) ∧ (regionAt win.toNat 4 = some r) ∧ (r ≠ .mmio ∧ r ≠ .table ∧ r ≠ .rack) ∧ (memRight who (some core) false r = false) :=
  ⟨up, 0, .s0, 0, 0x8000004, .tcmAlias, _, rfl, by decide⟩
theorem witness_PopWindows_49 : ∃ (s : State) (t : Nat) (core : Nat) (win : BitVec 64) (v : State), (v = s.at_ t) ∧ (v.executes core = false) :=
  ⟨State.reset, 0, 2, 0x20100010, _, rfl, by decide⟩
theorem witness_PopWindows_50 : ∃ (s : State) (t : Nat) (core : Nat) (win : BitVec 64) (v : State), (v = s.at_ t) ∧ (v.executes core = true) ∧ (inDevice win.toNat = true) ∧ ((v.core core).queue ≠ []) :=
  ⟨(State.reset.setCore 2 { State.reset.core 2 with st := .run, queue := [(⟨0, 0, 0x20158000, 4, 0, 0⟩)] }), 0, 2, 0x20100010, _, rfl, by decide⟩
theorem witness_TableWindows_1 : ∃ (s : State) (t : Nat) (who : Initiator) (addr : BitVec 64) (size : Nat) (data : BitVec 64) (v : State), (v = s.at_ t) ∧ (v.acts who = true) ∧ (regionAt addr.toNat size = some .table) ∧ (tableShape addr.toNat size = true) ∧ (tableRight who addr.toNat = true) ∧ (inTable addr.toNat = true) ∧ ((size = 8 → inTable (addr.toNat + 4) = true)) ∧ ((addr.toNat < 0x21100000 → addr.toNat % 0x100000 / 0x60000 ≠ v.get GW_MAP_STAT.ACTIVE)) ∧ ((0x21100000 ≤ addr.toNat → addr.toNat < 0x21200000 → v.cadInUse (addr.toNat % 0x100000 / 0x40000) = false)) ∧ ((0x21200000 ≤ addr.toNat → addr.toNat < 0x21300000 → termBank addr.toNat ≠ v.get TRIP_STAT.BANK)) :=
  ⟨(State.reset.put GW_MAP_STAT.ACTIVE 1), 0, .boot, 0x21000000, 8, 0xFFEEDDCCBBAA9988, _, rfl, by decide⟩
theorem witness_TableWindows_2 : ∃ (s : State) (t : Nat) (who : Initiator) (addr : BitVec 64) (data : BitVec 64) (v : State), (v = s.at_ t) ∧ (v.acts who = true) ∧ (regionAt addr.toNat 8 = some .table) ∧ (tableShape addr.toNat 8 = true) ∧ (tableRight who addr.toNat = true) ∧ (inTable addr.toNat = true) ∧ (inTable (addr.toNat + 4) = false) ∧ ((addr.toNat < 0x21100000 → addr.toNat % 0x100000 / 0x60000 ≠ v.get GW_MAP_STAT.ACTIVE)) ∧ ((0x21100000 ≤ addr.toNat → addr.toNat < 0x21200000 → v.cadInUse (addr.toNat % 0x100000 / 0x40000) = false)) ∧ ((0x21200000 ≤ addr.toNat → addr.toNat < 0x21300000 → termBank addr.toNat ≠ v.get TRIP_STAT.BANK)) :=
  ⟨(State.reset.put TRIP_STAT.BANK 1), 0, .boot, 0x21200000, 0xFFEEDDCCBBAA9988, _, rfl, by decide⟩
theorem witness_TableWindows_3 : ∃ (s : State) (t : Nat) (who : Initiator) (addr : BitVec 64) (size : Nat) (data : BitVec 64) (v : State), (v = s.at_ t) ∧ (v.acts who = true) ∧ (regionAt addr.toNat size = some .table) ∧ (tableShape addr.toNat size = true) ∧ (tableRight who addr.toNat = true) ∧ (inTable addr.toNat = false) :=
  ⟨State.reset, 0, .boot, 0x213FFFFC, 4, 0, _, rfl, by decide⟩
theorem witness_TableWindows_4 : ∃ (s : State) (t : Nat) (who : Initiator) (addr : BitVec 64) (size : Nat) (data : BitVec 64) (v : State), (v = s.at_ t) ∧ (v.acts who = true) ∧ (regionAt addr.toNat size = some .table) ∧ (tableShape addr.toNat size = false ∨ tableRight who addr.toNat = false) :=
  ⟨State.reset, 0, .tri, 0x2107FFFC, 4, 0, _, rfl, by decide⟩
theorem witness_TableWindows_5 : ∃ (s : State) (t : Nat) (who : Initiator) (addr : BitVec 64) (size : Nat) (data : BitVec 64) (v : State), (v = s.at_ t) ∧ (v.acts who = true) ∧ (regionAt addr.toNat size = none) :=
  ⟨State.reset, 0, .boot, 0x213FFFFC, 8, 0, _, rfl, by decide⟩
theorem witness_TableWindows_6 : ∃ (s : State) (t : Nat) (who : Initiator) (addr : BitVec 64) (size : Nat) (data : BitVec 64), (s.acts who = true) :=
  ⟨State.reset, 0, .boot, 0, 0, 0, by decide⟩
theorem witness_TableWindows_7 : ∃ (s : State) (t : Nat) (who : Initiator) (addr : BitVec 64) (size : Nat) (data : BitVec 64) (v : State), (v = s.at_ t) ∧ (v.acts who = true) ∧ (regionAt addr.toNat size = some .table) ∧ (tableShape addr.toNat size = true) ∧ (tableRight who addr.toNat = true) ∧ (inTable addr.toNat = true) ∧ (addr.toNat < 0x21100000) ∧ (addr.toNat % 0x100000 / 0x60000 = v.get GW_MAP_STAT.ACTIVE) :=
  ⟨up, 0, .s0, 0x2105FFFC, 4, 0, _, rfl, by decide⟩
theorem witness_TableWindows_8 : ∃ (s : State) (t : Nat) (who : Initiator) (addr : BitVec 64) (size : Nat) (data : BitVec 64) (v : State), (v = s.at_ t) ∧ (v.acts who = true) ∧ (regionAt addr.toNat size = some .table) ∧ (tableShape addr.toNat size = true) ∧ (tableRight who addr.toNat = true) ∧ (inTable addr.toNat = true) ∧ (0x21100000 ≤ addr.toNat) ∧ (addr.toNat < 0x21200000) ∧ (v.cadInUse (addr.toNat % 0x100000 / 0x40000) = true) :=
  ⟨up, 0, .s0, 0x21100000, 4, 0, _, rfl, by decide⟩
theorem witness_TableWindows_9 : ∃ (s : State) (t : Nat) (who : Initiator) (addr : BitVec 64) (size : Nat) (data : BitVec 64) (v : State), (v = s.at_ t) ∧ (v.acts who = true) ∧ (regionAt addr.toNat size = some .table) ∧ (tableShape addr.toNat size = true) ∧ (tableRight who addr.toNat = true) ∧ (inTable addr.toNat = true) ∧ (0x21200000 ≤ addr.toNat) ∧ (addr.toNat < 0x21300000) ∧ (termBank addr.toNat = v.get TRIP_STAT.BANK) :=
  ⟨State.reset, 0, .boot, 0x21200000, 4, 7, _, rfl, by decide⟩
theorem witness_RecorderCommands_1 : ∃ (s : State) (cut : Option Nat) (k : Nat) (q : QRec) (x : State), (s.flag REC_STAT.READY = true) ∧ (s.pwr.dormant = false) ∧ (s.nextQueued = some k) ∧ (s.recd.queue[k]? = some q) ∧ (x = { s with recd := { s.recd with queue := s.recd.queue.eraseIdx k } }) :=
  ⟨{ (State.reset.put REC_STAT.READY 1) with recd := { State.reset.recd with queue := [⟨0, List.replicate 56 0, none⟩] } }, none, 0, ⟨0, List.replicate 56 0, none⟩, { ({ (State.reset.put REC_STAT.READY 1) with recd := { State.reset.recd with queue := [⟨0, List.replicate 56 0, none⟩] } } : State) with recd := { ({ (State.reset.put REC_STAT.READY 1) with recd := { State.reset.recd with queue := [⟨0, List.replicate 56 0, none⟩] } } : State).recd with queue := ({ (State.reset.put REC_STAT.READY 1) with recd := { State.reset.recd with queue := [⟨0, List.replicate 56 0, none⟩] } } : State).recd.queue.eraseIdx 0 } }, by exact ⟨by decide, by decide, by decide, by decide, rfl⟩⟩
theorem witness_RecorderCommands_2 : ∃ (s : State) (cut : Option Nat), (s.flag REC_STAT.READY = false ∨ s.pwr.dormant = true ∨ s.nextQueued = none) :=
  ⟨State.reset, none, by decide⟩
theorem witness_RecorderCommands_3 : ∃ (s : State) (t : Nat) (typ : BitVec 4) (code : BitVec 8) (v : State), (v = s.at_ t) :=
  ⟨State.reset, 0, 15, 255, _, rfl⟩
theorem witness_RecorderCommands_4 : ∃ (s : State) (t : Nat) (who : Initiator) (typ : BitVec 4) (code : BitVec 8) (v : State), (v = s.at_ t) ∧ (v.acts who = true) ∧ (who ≠ .tri) :=
  ⟨up, 0, .s0, 0, 0, _, rfl, by decide⟩
theorem witness_RecorderCommands_5 : ∃ (s : State) (t : Nat) (who : Initiator) (addr : BitVec 32) (v : State), (v = s.at_ t) ∧ (v.acts who = true) ∧ (who.isService = false) :=
  ⟨State.reset, 0, .tri, 0x10000040, _, rfl, by decide⟩
theorem witness_RecorderCommands_6 : ∃ (s : State) (t : Nat) (who : Initiator) (addr : BitVec 32) (v : State), (v = s.at_ t) ∧ (v.acts who = false) :=
  ⟨State.reset, 0, .s0, 0x10000040, _, rfl, by decide⟩
theorem witness_RecorderCommands_7 : ∃ (s : State) (t : Nat) (who : Initiator) (addr : BitVec 32) (v : State), (v = s.at_ t) ∧ (v.acts who = true) ∧ (who.isService = true) ∧ (s.serviceUp = true) ∧ (0x50 ≤ sb (v.bytes (addr.toNat / 64 * 64) 64) 4) ∧ (sb (v.bytes (addr.toNat / 64 * 64) 64) 4 ≤ 0x5F) :=
  ⟨(({ up with pwr := { State.reset.pwr with inReset := false } }.put SYS_STAT.MODE 2).store 0x10000044 1 0x5F), 0, .s2, 0x1000007F, _, rfl, by decide⟩
theorem witness_RecorderCommands_8 : ∃ (s : State) (t : Nat) (who : Initiator) (addr : BitVec 32) (v : State), (v = s.at_ t) ∧ (v.acts who = true) ∧ (who.isService = true) ∧ (s.serviceUp = true) ∧ (sb (v.bytes (addr.toNat / 64 * 64) 64) 4 < 0x50 ∨ 0x5F < sb (v.bytes (addr.toNat / 64 * 64) 64) 4) :=
  ⟨(({ up with pwr := { State.reset.pwr with inReset := false } }.put SYS_STAT.MODE 2).store 0x10000044 1 0x60), 0, .s2, 0x10000040, _, rfl, by decide⟩
theorem witness_RecorderCommands_9 : ∃ (s : State) (t : Nat) (who : Initiator) (trg : BitVec 5) (v : State), (v = s.at_ t) ∧ (v.acts who = true) ∧ ((v.consume who 0x13).trigUsed trg.toNat 2 = true) :=
  ⟨(((up.put (REC_TRG.EN 31) 1).put (REC_TRG.KIND 31) 2).put (REC_TRG.COUNT 31) 1), 0, .s0, 31, _, rfl, by decide⟩
theorem witness_RecorderCommands_10 : ∃ (s : State) (t : Nat) (who : Initiator) (trg : BitVec 5) (v : State), (v = s.at_ t) ∧ (v.acts who = true) ∧ ((v.consume who 0x13).trigUsed trg.toNat 2 = false) :=
  ⟨up, 0, .s0, 31, _, rfl, by decide⟩
theorem witness_RecorderCommands_11 : ∃ (s : State) (t : Nat) (first span : Nat) (c : Capture) (l : List Nat) (v : State), (v = s.at_ t) ∧ (v.recd.running = some c) ∧ (l = v.snapList c.trig) :=
  ⟨{ (State.reset.put (REC_TRG.COUNT 0) 127) with recd := { State.reset.recd with running := some ⟨0, 1, 2, 2, 0⟩ } }, 0, 0, 0, ⟨0, 1, 2, 2, 0⟩, (({ (State.reset.put (REC_TRG.COUNT 0) 127) with recd := { State.reset.recd with running := some ⟨0, 1, 2, 2, 0⟩ } } : State).at_ 0).snapList 0, _, rfl, by exact ⟨by decide, rfl⟩⟩
theorem witness_RecorderCommands_12 : ∃ (s : State) (t : Nat) (first span : Nat) (v : State), (v = s.at_ t) ∧ (v.recd.running = none) :=
  ⟨State.reset, 0, 0, 0, _, rfl, by decide⟩
theorem witness_RecorderCommands_13 : ∃ (s : State) (t : Nat) (who : Initiator) (part : BitVec 3) (slot : BitVec 21) (v : State), (v = s.at_ t) ∧ (v.acts who = true) :=
  ⟨up, 0, .s0, 7, 0, _, rfl, by decide⟩
theorem witness_RecorderCommands_14 : ∃ (s : State) (t : Nat) (part : BitVec 2) (v : State), (v = s.at_ t) ∧ (v.unlocked .boot 0x13 = true) ∧ ((v.dropUnlock .boot).clearRefused part.toNat = false) :=
  ⟨{ State.reset with regg := { State.reset.regg with unlocks := [(5, ⟨0x13, 1⟩)] } }, 0, 2, _, rfl, by decide⟩
theorem witness_RecorderCommands_15 : ∃ (s : State) (t : Nat) (part : BitVec 2) (v : State), (v = s.at_ t) ∧ (v.unlocked .boot 0x13 = true) ∧ ((v.dropUnlock .boot).clearRefused part.toNat = true) :=
  ⟨{ State.reset with regg := { State.reset.regg with unlocks := [(5, ⟨0x13, 1⟩)] } }, 0, 3, _, rfl, by decide⟩
theorem witness_RecorderCommands_16 : ∃ (s : State) (t : Nat) (part : BitVec 2) (v : State), (v = s.at_ t) ∧ (v.unlocked .boot 0x13 = false) :=
  ⟨State.reset, 0, 0, _, rfl, by decide⟩
theorem witness_RecorderCommands_17 : ∃ (s : State) (t : Nat) (who : Initiator) (part : BitVec 2) (v : State), (v = s.at_ t) ∧ (v.acts who = true) ∧ (who ≠ .boot) :=
  ⟨State.reset, 0, .tri, 0, _, rfl, by decide⟩
theorem witness_RecorderCommands_18 : ∃ (s : State) (t : Nat) (p k : Nat) (data : List Byte) (x : State) (v : State), (v = s.at_ t) ∧ (v.recd.clear = some ⟨p, k, some data⟩) ∧ (x = ((v.usedSlots p).filter (fun i => v.get (REC_PART.COUNT p) ≤ (i + partCap p - v.get (REC_PART.OLDEST p)) % partCap p)).foldl (fun x i => x.zeroSlot p i) v) :=
  ⟨{ State.reset with recd := { State.reset.recd with clear := some ⟨2, 7, some [1]⟩ } }, 0, 2, 7, [1], ({ State.reset with recd := { State.reset.recd with clear := some ⟨2, 7, some [1]⟩ } } : State).at_ 0, _, rfl, by exact ⟨by decide, rfl⟩⟩
theorem witness_RecorderCommands_19 : ∃ (s : State) (t : Nat) (v : State), (v = s.at_ t) ∧ (∀ p k data, v.recd.clear ≠ some ⟨p, k, some data⟩) :=
  ⟨State.reset, 0, _, rfl, by intro p k d h; have e : (State.at_ State.reset 0).recd.clear = none := rfl; rw [e] at h; cases h⟩
theorem witness_RecorderCommands_20 : ∃ (s : State), (s.obs.buf = [] ∨ s.flag OBS_TRC_STAT.RUN = false) :=
  ⟨State.reset, by decide⟩
theorem witness_RecorderCommands_21 : ∃ (s : State) (h : List Byte) (l : List (List Byte)), (s.obs.buf = h :: l) ∧ (s.flag OBS_TRC_STAT.RUN = true) :=
  ⟨{ (State.reset.put OBS_TRC_STAT.RUN 1) with obs := { State.reset.obs with buf := [[1], [2, 3]] } }, [1], [[2, 3]], by decide⟩
theorem witness_RecordSlots_1 : ∃ (s : State) (p : Nat) (body : List Byte), (s.get (REC_PART.COUNT p) = 0) ∧ (p < 4) :=
  ⟨State.reset, 3, [], by decide⟩
theorem witness_RecordSlots_2 : ∃ (s : State) (part i j : Nat), (partCap part ≤ i) ∧ (j < 16) :=
  ⟨State.reset, 5, 0, 15, by decide⟩
theorem witness_RecordSlots_3 : ∃ (s : State) (part i j : Nat), (i < partCap part) ∧ (j < 16) :=
  ⟨State.reset, 4, 191, 15, by decide⟩
theorem witness_TickEdges_1 : ∃ (s : State) (i : EdgeIn), (s.pwr.inReset = true ∨ s.pwr.dormant = true) :=
  ⟨State.reset, ⟨[], 0, 0, 0, [], false, 0, [], 0⟩, by decide⟩
theorem witness_TickEdges_2 : ∃ (s : State) (i : EdgeIn) (x0 : State) (x y : State × List (Nat × List Byte)), (s.pwr.inReset = false) ∧ (s.pwr.dormant = false) ∧ (x0 = ({ s with time := { s.time with edge := s.nextEdge } } : State).at_ 0) ∧ (x = x0.edgeCounts.aside State.strobeEdge) ∧ (y = x.1.traceRun.traceTick.aside (State.edgeFirst i)) ∧ (y.1.pwr.inReset = true) :=
  ⟨(((({ { State.reset with pwr := { State.reset.pwr with inReset := false } } with boot := { State.reset.boot with deferSwap := true } }.put SYS_STAT.MODE 2).put REC_STAT.READY 1).put CYC_STILL.KIND 1).put CYC_STILL.POL 1), ⟨[], 0, 0, 0, [], true, 0, [], 0⟩, _, _, _, by decide, by decide, rfl, rfl, rfl, by decide⟩
theorem witness_TickEdges_3 : ∃ (s : State) (i : EdgeIn) (x0 : State) (x y : State × List (Nat × List Byte)) (z w q : State), (s.pwr.inReset = false) ∧ (s.pwr.dormant = false) ∧ (x0 = ({ s with time := { s.time with edge := s.nextEdge } } : State).at_ 0) ∧ (x = x0.edgeCounts.aside State.strobeEdge) ∧ (y = x.1.traceRun.traceTick.aside (State.edgeFirst i)) ∧ (y.1.pwr.inReset = false) ∧ (z = ((y.1.edgeCycle.requeue (x.2 ++ y.2)).startCopies ([0, 1, 2].filter (fun n => (x0.core n).st == .excluded))).heartbeatEdge) ∧ (w = (((z.mailboxEdge i.unitBad).mvbTick).pdPulls).gptpEdge) ∧ (q = (if w.time.laneEver then w else w.boundaryNow).showTime) ∧ (q.storeVerdict = none) :=
  ⟨{ State.reset with pwr := { State.reset.pwr with inReset := false } }, ⟨[], 0, 0, 0, [], true, 0, [], 0⟩, _, _, _, _, _, _, by decide, by decide, rfl, rfl, rfl, by decide, rfl, rfl, rfl, by decide⟩
theorem witness_TickEdges_4 : ∃ (s : State) (i : EdgeIn) (x0 : State) (x y : State × List (Nat × List Byte)) (z w q : State), (s.pwr.inReset = false) ∧ (s.pwr.dormant = false) ∧ (x0 = ({ s with time := { s.time with edge := s.nextEdge } } : State).at_ 0) ∧ (x = x0.edgeCounts.aside State.strobeEdge) ∧ (y = x.1.traceRun.traceTick.aside (State.edgeFirst i)) ∧ (y.1.pwr.inReset = false) ∧ (z = ((y.1.edgeCycle.requeue (x.2 ++ y.2)).startCopies ([0, 1, 2].filter (fun n => (x0.core n).st == .excluded))).heartbeatEdge) ∧ (w = (((z.mailboxEdge i.unitBad).mvbTick).pdPulls).gptpEdge) ∧ (q = (if w.time.laneEver then w else w.boundaryNow).showTime) :=
  ⟨{ State.reset with pwr := { State.reset.pwr with inReset := false } }, ⟨[], 0, 0, 0, [], true, 0, [], 0⟩, _, _, _, _, _, _, by decide, by decide, rfl, rfl, rfl, by decide, rfl, rfl, rfl⟩
theorem witness_TickEdges_5 : ∃ (s : State), (s.flag CLK_STAT.BYPASS = false) :=
  ⟨(State.reset.put CLK_STAT.BYPASS 0), by decide⟩
theorem witness_TickEdges_6 : ∃ (s : State), (s.flag CLK_STAT.BYPASS = true) ∧ (s.clk.phase < 40) :=
  ⟨(State.reset.put CLK_STAT.BYPASS 1), by decide⟩
theorem witness_TickEdges_7 : ∃ (s : State) (t : Nat), (s.pwr.inReset = true ∨ s.pwr.dormant = true) :=
  ⟨State.reset, 0, by decide⟩
theorem witness_TickEdges_8 : ∃ (s : State) (t : Nat) (v : State), (v = s.at_ t) ∧ (s.pwr.inReset = false) ∧ (s.pwr.dormant = false) ∧ (v.boundaryDue = false) :=
  ⟨{ awake with pwr := { State.reset.pwr with inReset := false } }, 1, _, rfl, by decide⟩
theorem witness_TickEdges_9 : ∃ (s : State) (t : Nat) (x y z w : State) (v : State), (v = s.at_ t) ∧ (s.pwr.inReset = false) ∧ (s.pwr.dormant = false) ∧ (v.boundaryDue = true) ∧ (x = v.carry.put LANE_OFS.OFS (v.carry.ofs % 62500)) ∧ (y = { x with lanes := { x.lanes with tick := v.laneTick, boundary := x.localNow } }) ∧ (z = ([0, 1].foldl State.laneBoundary y).boundaryCounts) ∧ (w = (if v.lanes.tick / 64 = v.laneTick / 64 then z else ([0, 1].foldl (fun q l => q.traceLane (v.lanes.tick / 64 % 2 ^ 32) l) ([0, 1].foldl State.laneMacro z)).modeBoundary (v.laneTick / 64 % 2 ^ 32))) :=
  ⟨{ { State.reset with pwr := { State.reset.pwr with inReset := false } } with lanes := { State.reset.lanes with boundary := 1 } }, 0, (State.carry (({ { State.reset with pwr := { State.reset.pwr with inReset := false } } with lanes := { State.reset.lanes with boundary := 1 } } : State).at_ 0)).put LANE_OFS.OFS ((State.carry (({ { State.reset with pwr := { State.reset.pwr with inReset := false } } with lanes := { State.reset.lanes with boundary := 1 } } : State).at_ 0)).ofs % 62500), ({ ((State.carry (({ { State.reset with pwr := { State.reset.pwr with inReset := false } } with lanes := { State.reset.lanes with boundary := 1 } } : State).at_ 0)).put LANE_OFS.OFS ((State.carry (({ { State.reset with pwr := { State.reset.pwr with inReset := false } } with lanes := { State.reset.lanes with boundary := 1 } } : State).at_ 0)).ofs % 62500) : State) with lanes := { ((State.carry (({ { State.reset with pwr := { State.reset.pwr with inReset := false } } with lanes := { State.reset.lanes with boundary := 1 } } : State).at_ 0)).put LANE_OFS.OFS ((State.carry (({ { State.reset with pwr := { State.reset.pwr with inReset := false } } with lanes := { State.reset.lanes with boundary := 1 } } : State).at_ 0)).ofs % 62500) : State).lanes with tick := State.laneTick (({ { State.reset with pwr := { State.reset.pwr with inReset := false } } with lanes := { State.reset.lanes with boundary := 1 } } : State).at_ 0), boundary := State.localNow ((State.carry (({ { State.reset with pwr := { State.reset.pwr with inReset := false } } with lanes := { State.reset.lanes with boundary := 1 } } : State).at_ 0)).put LANE_OFS.OFS ((State.carry (({ { State.reset with pwr := { State.reset.pwr with inReset := false } } with lanes := { State.reset.lanes with boundary := 1 } } : State).at_ 0)).ofs % 62500)) } } : State), State.boundaryCounts ([0, 1].foldl State.laneBoundary ({ ((State.carry (({ { State.reset with pwr := { State.reset.pwr with inReset := false } } with lanes := { State.reset.lanes with boundary := 1 } } : State).at_ 0)).put LANE_OFS.OFS ((State.carry (({ { State.reset with pwr := { State.reset.pwr with inReset := false } } with lanes := { State.reset.lanes with boundary := 1 } } : State).at_ 0)).ofs % 62500) : State) with lanes := { ((State.carry (({ { State.reset with pwr := { State.reset.pwr with inReset := false } } with lanes := { State.reset.lanes with boundary := 1 } } : State).at_ 0)).put LANE_OFS.OFS ((State.carry (({ { State.reset with pwr := { State.reset.pwr with inReset := false } } with lanes := { State.reset.lanes with boundary := 1 } } : State).at_ 0)).ofs % 62500) : State).lanes with tick := State.laneTick (({ { State.reset with pwr := { State.reset.pwr with inReset := false } } with lanes := { State.reset.lanes with boundary := 1 } } : State).at_ 0), boundary := State.localNow ((State.carry (({ { State.reset with pwr := { State.reset.pwr with inReset := false } } with lanes := { State.reset.lanes with boundary := 1 } } : State).at_ 0)).put LANE_OFS.OFS ((State.carry (({ { State.reset with pwr := { State.reset.pwr with inReset := false } } with lanes := { State.reset.lanes with boundary := 1 } } : State).at_ 0)).ofs % 62500)) } } : State)), State.boundaryCounts ([0, 1].foldl State.laneBoundary ({ ((State.carry (({ { State.reset with pwr := { State.reset.pwr with inReset := false } } with lanes := { State.reset.lanes with boundary := 1 } } : State).at_ 0)).put LANE_OFS.OFS ((State.carry (({ { State.reset with pwr := { State.reset.pwr with inReset := false } } with lanes := { State.reset.lanes with boundary := 1 } } : State).at_ 0)).ofs % 62500) : State) with lanes := { ((State.carry (({ { State.reset with pwr := { State.reset.pwr with inReset := false } } with lanes := { State.reset.lanes with boundary := 1 } } : State).at_ 0)).put LANE_OFS.OFS ((State.carry (({ { State.reset with pwr := { State.reset.pwr with inReset := false } } with lanes := { State.reset.lanes with boundary := 1 } } : State).at_ 0)).ofs % 62500) : State).lanes with tick := State.laneTick (({ { State.reset with pwr := { State.reset.pwr with inReset := false } } with lanes := { State.reset.lanes with boundary := 1 } } : State).at_ 0), boundary := State.localNow ((State.carry (({ { State.reset with pwr := { State.reset.pwr with inReset := false } } with lanes := { State.reset.lanes with boundary := 1 } } : State).at_ 0)).put LANE_OFS.OFS ((State.carry (({ { State.reset with pwr := { State.reset.pwr with inReset := false } } with lanes := { State.reset.lanes with boundary := 1 } } : State).at_ 0)).ofs % 62500)) } } : State)), _, rfl, by exact ⟨by decide, by decide, by decide, rfl, rfl, rfl, rfl⟩⟩
theorem witness_TickEdges_10 : ∃ (s : State), (s.time.laneEver = false) :=
  ⟨State.reset, by decide⟩
theorem witness_TickEdges_11 : ∃ (s : State), (s.time.laneEver = true) :=
  ⟨{ State.reset with time := { State.reset.time with laneEver := true } }, by decide⟩
theorem witness_StepRunsFront_1 : ∃ (c : Instr) (s : State) (rest : List Instr), (s.pending = c :: rest) :=
  ⟨.tracePacketSent, { State.reset with pending := [.tracePacketSent] }, [], by decide⟩
theorem witness_StepRunsFront_2 : ∃ (s : State), (s.pending = []) :=
  ⟨State.reset, by decide⟩
theorem witness_MemoriesCanonical_1 : ∃ (s u : State), (s.MemOk) ∧ (step s = .next u) :=
  ⟨State.reset, State.reset, by exact ⟨⟨by decide, by decide, by decide, by decide⟩, rfl⟩⟩
theorem witness_QueueKept_1 : ∃ (c : Instr) (s u : State), (exec c s = .next u) :=
  ⟨.tracePacketSent, State.reset, State.reset, by rfl⟩
theorem witness_ServiceHalted_1 : ∃ (s : State) (t : Nat) (who : Initiator) (addr : BitVec 64) (size : Nat) (data : BitVec 64) (v : State), (v = s.at_ t) ∧ (v.acts who = false) :=
  ⟨State.reset, 0, .s0, 0, 0, 0, _, rfl, by decide⟩
theorem witness_ServiceHalted_2 : ∃ (s : State) (t : Nat) (who : Initiator) (core : Nat) (win : BitVec 64) (v : State), (v = s.at_ t) ∧ (v.acts who = false) :=
  ⟨State.reset, 0, .s0, 0, 0, _, rfl, by decide⟩
theorem witness_ServiceHalted_3 : ∃ (s : State) (t : Nat) (who : Initiator) (core : Nat) (win : BitVec 64) (v : State), (v = s.at_ t) ∧ (v.acts who = false) :=
  ⟨State.reset, 0, .s0, 0, 0, _, rfl, by decide⟩
theorem witness_ServiceHalted_4 : ∃ (s : State) (t : Nat) (who : Initiator) (core : Nat) (win : BitVec 64) (v : State), (v = s.at_ t) ∧ (v.acts who = false) :=
  ⟨State.reset, 0, .s0, 0, 0, _, rfl, by decide⟩
theorem witness_ServiceHalted_5 : ∃ (s : State) (t : Nat) (who : Initiator) (core : Nat) (win : BitVec 64) (v : State), (v = s.at_ t) ∧ (v.acts who = false) :=
  ⟨State.reset, 0, .s0, 0, 0, _, rfl, by decide⟩
theorem witness_ServiceHalted_6 : ∃ (s : State) (who : Initiator) (key : BitVec 16) (block : BitVec 5), (s.acts who = false) :=
  ⟨State.reset, .s0, 0, 0, by decide⟩
theorem witness_ServiceHalted_7 : ∃ (s : State) (who : Initiator) (groups : BitVec 16), (s.acts who = false) :=
  ⟨State.reset, .s0, 0, by decide⟩
theorem witness_ServiceHalted_8 : ∃ (s : State) (t : Nat) (who : Initiator) (core : Nat) (acc : CsrAcc) (v : State), (v = s.at_ t) ∧ (v.acts who = false) :=
  ⟨State.reset, 0, .s0, 0, .read, _, rfl, by decide⟩
theorem witness_ServiceHalted_9 : ∃ (s : State) (t : Nat) (who : Initiator) (v : State), (v = s.at_ t) ∧ (v.acts who = false) :=
  ⟨State.reset, 0, .s0, _, rfl, by decide⟩
theorem witness_ServiceHalted_10 : ∃ (s : State) (t : Nat) (who : Initiator) (v : State), (v = s.at_ t) ∧ (v.acts who = false) :=
  ⟨State.reset, 0, .s0, _, rfl, by decide⟩
theorem witness_ServiceHalted_11 : ∃ (s : State) (t : Nat) (who : Initiator) (v : State), (v = s.at_ t) ∧ (v.acts who = false) :=
  ⟨State.reset, 0, .s0, _, rfl, by decide⟩
theorem witness_ServiceHalted_12 : ∃ (s : State) (t : Nat) (who : Initiator) (v : State), (v = s.at_ t) ∧ (v.acts who = false) :=
  ⟨State.reset, 0, .s0, _, rfl, by decide⟩
theorem witness_ServiceHalted_13 : ∃ (s : State) (t : Nat) (who : Initiator) (v : State), (v = s.at_ t) ∧ (v.acts who = false) :=
  ⟨State.reset, 0, .s0, _, rfl, by decide⟩
theorem witness_ServiceHalted_14 : ∃ (s : State) (t : Nat) (who : Initiator) (id : BitVec 64) (bindings : List Bind) (v : State), (v = s.at_ t) ∧ (v.acts who = false) :=
  ⟨State.reset, 0, .s0, 0, [], _, rfl, by decide⟩
theorem witness_ServiceHalted_15 : ∃ (s : State) (t : Nat) (who : Initiator) (v : State), (v = s.at_ t) ∧ (v.acts who = false) :=
  ⟨State.reset, 0, .s0, _, rfl, by decide⟩
theorem witness_ServiceHalted_16 : ∃ (s : State) (t : Nat) (who : Initiator) (entry : BitVec 8) (ctrl : BitVec 32) (v : State), (v = s.at_ t) ∧ (v.acts who = false) :=
  ⟨State.reset, 0, .s0, 0, 0, _, rfl, by decide⟩
theorem witness_ServiceHalted_17 : ∃ (s : State) (t : Nat) (who : Initiator) (entry : BitVec 8) (ctrl : BitVec 32) (v : State), (v = s.at_ t) ∧ (v.acts who = false) :=
  ⟨State.reset, 0, .s0, 0, 0, _, rfl, by decide⟩
theorem witness_ServiceHalted_18 : ∃ (s : State) (t : Nat) (who : Initiator) (entry : BitVec 8) (value : BitVec 64) (v : State), (v = s.at_ t) ∧ (v.acts who = false) :=
  ⟨State.reset, 0, .s0, 0, 0, _, rfl, by decide⟩
theorem witness_ServiceHalted_19 : ∃ (s : State) (t : Nat) (who : Initiator) (bank : Bool) (v : State), (v = s.at_ t) ∧ (v.acts who = false) :=
  ⟨State.reset, 0, .s0, false, _, rfl, by decide⟩
theorem witness_ServiceHalted_20 : ∃ (s : State) (t : Nat) (who : Initiator) (fn : BitVec 5) (v : State), (v = s.at_ t) ∧ (v.acts who = false) :=
  ⟨State.reset, 0, .s0, 0, _, rfl, by decide⟩
theorem witness_ServiceHalted_21 : ∃ (s : State) (t : Nat) (who : Initiator) (n : BitVec 7) (v : State), (v = s.at_ t) ∧ (v.acts who = false) :=
  ⟨State.reset, 0, .s0, 0, _, rfl, by decide⟩
theorem witness_ServiceHalted_22 : ∃ (s : State) (t : Nat) (who : Initiator) (n : BitVec 7) (v : State), (v = s.at_ t) ∧ (v.acts who = false) :=
  ⟨State.reset, 0, .s0, 0, _, rfl, by decide⟩
theorem witness_ServiceHalted_23 : ∃ (s : State) (who : Initiator) (e : BitVec 3) (data : BitVec 32), (s.acts who = false) :=
  ⟨State.reset, .s0, 0, 0, by decide⟩
theorem witness_ServiceHalted_24 : ∃ (s : State) (who : Initiator) (e : BitVec 3) (data : BitVec 64), (s.acts who = false) :=
  ⟨State.reset, .s0, 0, 0, by decide⟩
theorem witness_ServiceHalted_25 : ∃ (s : State) (who : Initiator) (e : BitVec 3), (s.acts who = false) :=
  ⟨State.reset, .s0, 0, by decide⟩
theorem witness_ServiceHalted_26 : ∃ (s : State) (who : Initiator) (e : BitVec 3) (k : BitVec 7), (s.acts who = false) :=
  ⟨State.reset, .s0, 0, 0, by decide⟩
theorem witness_ServiceHalted_27 : ∃ (s : State) (who : Initiator) (e : BitVec 3) (k : BitVec 7), (s.acts who = false) :=
  ⟨State.reset, .s0, 0, 0, by decide⟩
theorem witness_ServiceHalted_28 : ∃ (s : State) (who : Initiator) (e : BitVec 3), (s.acts who = false) :=
  ⟨State.reset, .s0, 0, by decide⟩
theorem witness_ServiceHalted_29 : ∃ (s : State) (who : Initiator) (e : BitVec 3) (val : BitVec 64), (s.acts who = false) :=
  ⟨State.reset, .s0, 0, 0, by decide⟩
theorem witness_ServiceHalted_30 : ∃ (s : State) (who : Initiator) (e : BitVec 3) (cfg : BitVec 32) (folded : Nat), (s.acts who = false) :=
  ⟨State.reset, .s0, 0, 0, 0, by decide⟩
theorem witness_ServiceHalted_31 : ∃ (s : State) (t : Nat) (who : Initiator) (cid : BitVec 16) (v : State), (v = s.at_ t) ∧ (v.acts who = false) :=
  ⟨State.reset, 0, .s0, 0, _, rfl, by decide⟩
theorem witness_ServiceHalted_32 : ∃ (s : State) (t : Nat) (who : Initiator) (cid : BitVec 16) (v : State), (v = s.at_ t) ∧ (v.acts who = false) :=
  ⟨State.reset, 0, .s0, 0, _, rfl, by decide⟩
theorem witness_ServiceHalted_33 : ∃ (s : State) (t : Nat) (who : Initiator) (v : State), (v = s.at_ t) ∧ (v.acts who = false) :=
  ⟨State.reset, 0, .s0, _, rfl, by decide⟩
theorem witness_ServiceHalted_34 : ∃ (s : State) (t : Nat) (who : Initiator) (ring : Nat) (tail : Nat) (v : State), (v = s.at_ t) ∧ (v.acts who = false) :=
  ⟨State.reset, 0, .s0, 0, 0, _, rfl, by decide⟩
theorem witness_ServiceHalted_35 : ∃ (s : State) (t : Nat) (who : Initiator) (bank : Bool) (v : State), (v = s.at_ t) ∧ (v.acts who = false) :=
  ⟨State.reset, 0, .s0, false, _, rfl, by decide⟩
theorem witness_ServiceHalted_36 : ∃ (s : State) (t : Nat) (who : Initiator) (mask : BitVec 4) (v : State), (v = s.at_ t) ∧ (v.acts who = false) :=
  ⟨State.reset, 0, .s0, 0, _, rfl, by decide⟩
theorem witness_ServiceHalted_37 : ∃ (s : State) (t : Nat) (who : Initiator) (c : Nat) (len : Nat) (v : State), (v = s.at_ t) ∧ (v.acts who = false) :=
  ⟨State.reset, 0, .s0, 0, 0, _, rfl, by decide⟩
theorem witness_ServiceHalted_38 : ∃ (s : State) (t : Nat) (who : Initiator) (v : State), (v = s.at_ t) ∧ (v.acts who = false) :=
  ⟨State.reset, 0, .s0, _, rfl, by decide⟩
theorem witness_ServiceHalted_39 : ∃ (s : State) (t : Nat) (who : Initiator) (v : State), (v = s.at_ t) ∧ (v.acts who = false) :=
  ⟨State.reset, 0, .s0, _, rfl, by decide⟩
theorem witness_ServiceHalted_40 : ∃ (s : State) (t : Nat) (who : Initiator) (a : Nat) (size : Nat) (v : State), (v = s.at_ t) ∧ (v.acts who = false) :=
  ⟨State.reset, 0, .s0, 0, 0, _, rfl, by decide⟩
theorem witness_ServiceHalted_41 : ∃ (s : State) (t : Nat) (who : Initiator) (a : Nat) (size : Nat) (d : Nat) (v : State), (v = s.at_ t) ∧ (v.acts who = false) :=
  ⟨State.reset, 0, .s0, 0, 0, 0, _, rfl, by decide⟩
theorem witness_ServiceHalted_42 : ∃ (s : State) (t : Nat) (who : Initiator) (addr : Nat) (size : Nat) (acc : LockAcc) (v : State), (v = s.at_ t) ∧ (v.acts who = false) :=
  ⟨State.reset, 0, .s0, 0, 0, .lr, _, rfl, by decide⟩
theorem witness_ServiceHalted_43 : ∃ (s : State) (t : Nat) (who : Initiator) (flush : Bool) (v : State), (v = s.at_ t) ∧ (v.acts who = false) :=
  ⟨State.reset, 0, .s0, false, _, rfl, by decide⟩
theorem witness_ServiceHalted_44 : ∃ (s : State) (t : Nat) (who : Initiator) (v : State), (v = s.at_ t) ∧ (v.acts who = false) :=
  ⟨State.reset, 0, .s0, _, rfl, by decide⟩
theorem witness_ServiceHalted_45 : ∃ (s : State) (t : Nat) (who : Initiator) (target : Nat) (v : State), (v = s.at_ t) ∧ (v.acts who = false) :=
  ⟨State.reset, 0, .s0, 0, _, rfl, by decide⟩
theorem witness_ServiceHalted_46 : ∃ (s : State) (t : Nat) (who : Initiator) (target : Nat) (v : State), (v = s.at_ t) ∧ (v.acts who = false) :=
  ⟨State.reset, 0, .s0, 0, _, rfl, by decide⟩
theorem witness_ServiceHalted_47 : ∃ (s : State) (t : Nat) (rco : Nat) (who : Initiator) (key : BitVec 16) (v : State), (v = s.at_ t) ∧ (v.acts who = false) :=
  ⟨State.reset, 0, 0, .s0, 0, _, rfl, by decide⟩
theorem witness_ServiceHalted_48 : ∃ (s : State) (t : Nat) (who : Initiator) (tmo : BitVec 8) (win : BitVec 8) (v : State), (v = s.at_ t) ∧ (v.acts who = false) :=
  ⟨State.reset, 0, .s0, 0, 0, _, rfl, by decide⟩
theorem witness_ServiceHalted_49 : ∃ (s : State) (t : Nat) (who : Initiator) (v : State), (v = s.at_ t) ∧ (v.acts who = false) :=
  ⟨State.reset, 0, .s0, _, rfl, by decide⟩
theorem witness_ServiceHalted_50 : ∃ (s : State) (t : Nat) (who : Initiator) (v : State), (v = s.at_ t) ∧ (v.acts who = false) :=
  ⟨State.reset, 0, .s0, _, rfl, by decide⟩
theorem witness_ServiceHalted_51 : ∃ (s : State) (t : Nat) (who : Initiator) (typ : BitVec 4) (code : BitVec 8) (v : State), (v = s.at_ t) ∧ (v.acts who = false) :=
  ⟨State.reset, 0, .s0, 0, 0, _, rfl, by decide⟩
theorem witness_ServiceHalted_52 : ∃ (s : State) (t : Nat) (who : Initiator) (trg : BitVec 5) (v : State), (v = s.at_ t) ∧ (v.acts who = false) :=
  ⟨State.reset, 0, .s0, 0, _, rfl, by decide⟩
theorem witness_ServiceHalted_53 : ∃ (s : State) (t : Nat) (who : Initiator) (part : BitVec 3) (slot : BitVec 21) (v : State), (v = s.at_ t) ∧ (v.acts who = false) :=
  ⟨State.reset, 0, .s0, 0, 0, _, rfl, by decide⟩
theorem witness_ServiceHalted_54 : ∃ (s : State) (t : Nat) (who : Initiator) (part : BitVec 2) (v : State), (v = s.at_ t) ∧ (v.acts who = false) :=
  ⟨State.reset, 0, .s0, 0, _, rfl, by decide⟩
theorem witness_ServiceHalted_55 : ∃ (s : State) (t : Nat) (who : Initiator) (addr : BitVec 64) (size : Nat) (data : BitVec 64) (v : State), (v = s.at_ t) ∧ (v.acts who = false) :=
  ⟨State.reset, 0, .s0, 0, 0, 0, _, rfl, by decide⟩
theorem witness_TimeShown_1 : ∃ (s : State) (t : Nat), (s.pwr.inReset = false) :=
  ⟨awake, 7, by decide⟩
theorem witness_TimeShown_2 : ∃ (s : State) (t : Nat), (s.pwr.inReset = true) :=
  ⟨State.reset, 0, by decide⟩
theorem witness_TimeShown_3 : ∃ (s : State) (t : Nat), ((s.timeAt t).stepChans = []) :=
  ⟨awake, 7, by decide⟩
theorem witness_TimeShown_4 : ∃ (s : State) (t : Nat), ((s.timeAt t).stepChans ≠ []) :=
  ⟨((((awake.put (DIO_GRP.UN 7) 3).put (MOT_PULSE.EN 7) 1).put (MOT_PULSE.STEP_CH 7) 63).put (DIO_CH_CFG.PERS 63) 2), 7, by decide⟩
theorem witness_TimeShown_5 : ∃ (s : State) (x : Nat), (s.flag CLK_STAT.BYPASS = false) :=
  ⟨(State.reset.put CLK_STAT.BYPASS 0), 7, by decide⟩
theorem witness_TimeShown_6 : ∃ (s : State) (x : Nat), (s.flag CLK_STAT.BYPASS = true) ∧ (s.clk.phase < 40) ∧ (40 ≤ x) :=
  ⟨(State.reset.put CLK_STAT.BYPASS 1), 47, by decide⟩
theorem witness_PendingDiscarded_1 : ∃ (s : State) (k : ResetKind) (reach p : Nat → Bool) (a i : Nat), (reach a = true) ∧ ((BitVec.ofNat 32 (keptMask k a)).getLsbD i = false) :=
  ⟨{ State.reset with pend := [(0x20150008, 1)] }, .por, fun _ => true, fun _ => true, 0x20150008, 31, by decide⟩
theorem witness_ServiceStrobe_1 : ∃ (s : State) (who : Initiator) (groups : BitVec 16), (s.acts who = true) ∧ (who.isService = true) :=
  ⟨up, .s0, 0xFFFF, by decide⟩
theorem witness_LastWriteWins_1 : ∃ (s : State) (t : Nat) (who : Initiator) (addr : BitVec 64) (data : BitVec 64) (r : RegRow) (v : State), (v = s.at_ t) ∧ (v.acts who = true) ∧ (inMmio addr.toNat = true) ∧ (regShape addr.toNat 4 = true) ∧ (addr.toNat ≠ REGG_UNLOCK.KEY.addr) ∧ (mayWrite who (blockOf addr.toNat) = true) ∧ (regRight who addr.toNat = true) ∧ (guarded addr.toNat = false ∨ v.unlocked who (blockOf addr.toNat) = true) ∧ (isAlias addr.toNat = false) ∧ (findRow addr.toNat = some r) ∧ (r.acc = .rw ∨ r.acc = .rwg) ∧ (v.reservedKept addr.toNat (data.toNat % 2 ^ 32) = true) ∧ (perCore addr.toNat = false) ∧ ((v.ownWrite t who addr.toNat 4 (data.toNat % 2 ^ 32)).isNone = true) :=
  ⟨up, 0, .s0, 0x20150008, 0, (findRow 0x20150008).getD ⟨0, 0, 0, 0, .ro, false, []⟩, _, rfl, by decide⟩
theorem witness_LastWriteWins_2 : ∃ (s : State) (p : Nat → Bool) (a : Nat) (x y : Word), (s.pend.Pairwise (fun x y => x.1 < y.1)) ∧ (p (blockOf a) = true) :=
  ⟨{ State.reset with pend := [(0x20150000, 1)] }, fun b => b == 0x15, 0x20150008, 1, 2, by decide⟩
theorem witness_TricyclePop_1 : ∃ (s : State) (t : Nat) (core : Nat) (win : BitVec 64) (v : State), (v = s.at_ t) ∧ (popWide win.toNat = true) ∧ (win.toNat % 8 = 0) ∧ (v.executes core = true) ∧ ((v.core core).queue = []) :=
  ⟨(State.reset.setCore 2 { State.reset.core 2 with st := .run }), 0, 2, 0x20080200, _, rfl, by decide⟩
theorem witness_TricyclePop_2 : ∃ (s : State) (t : Nat) (core : Nat) (win : BitVec 64) (v : State), (v = s.at_ t) ∧ (popWide win.toNat = true) ∧ (win.toNat % 8 = 0) :=
  ⟨State.reset, 0, 2, 0x20080200, _, rfl, by decide⟩
theorem witness_TricyclePop_3 : ∃ (s : State) (t : Nat) (core : Nat) (win : BitVec 64) (v : State), (v = s.at_ t) ∧ (popWide win.toNat = true) ∧ (win.toNat % 8 = 0) ∧ (v.executes core = true) ∧ ((v.core core).queue = []) :=
  ⟨(State.reset.setCore 2 { State.reset.core 2 with st := .run }), 0, 2, 0x20080200, _, rfl, by decide⟩
theorem witness_TricyclePop_4 : ∃ (s : State) (t : Nat) (core : Nat) (win : BitVec 64) (v : State), (v = s.at_ t) ∧ (popWide win.toNat = true) ∧ (win.toNat % 8 = 0) :=
  ⟨State.reset, 0, 2, 0x20080200, _, rfl, by decide⟩
theorem witness_TricyclePop_5 : ∃ (s : State) (t : Nat) (core : Nat) (win : BitVec 64) (v : State), (v = s.at_ t) ∧ (popWide win.toNat = true) ∧ (win.toNat % 8 = 0) ∧ (v.executes core = true) ∧ ((v.core core).queue = []) :=
  ⟨(State.reset.setCore 2 { State.reset.core 2 with st := .run }), 0, 2, 0x20080200, _, rfl, by decide⟩
theorem witness_TricyclePop_6 : ∃ (s : State) (t : Nat) (core : Nat) (win : BitVec 64) (v : State), (v = s.at_ t) ∧ (popWide win.toNat = true) ∧ (win.toNat % 8 = 0) :=
  ⟨State.reset, 0, 2, 0x20080200, _, rfl, by decide⟩
theorem witness_TricyclePop_7 : ∃ (s : State) (t : Nat) (core : Nat) (win : BitVec 64) (v : State), (v = s.at_ t) ∧ (0x200F0100 ≤ win.toNat) ∧ (win.toNat < 0x200F0180) ∧ (win.toNat % 32 = 0x18) ∧ (v.executes core = true) ∧ ((v.core core).queue = []) :=
  ⟨(State.reset.setCore 2 { State.reset.core 2 with st := .run }), 0, 2, 0x200F0118, _, rfl, by decide⟩
theorem witness_TricyclePop_8 : ∃ (s : State) (t : Nat) (core : Nat) (win : BitVec 64) (v : State), (v = s.at_ t) ∧ (0x200F0100 ≤ win.toNat) ∧ (win.toNat < 0x200F0180) ∧ (win.toNat % 32 = 0x18) :=
  ⟨State.reset, 0, 2, 0x200F0118, _, rfl, by decide⟩
end

section
/-! Pending register values: what a reset, a strobe and a write do to them (R39, R40, R45, R46). -/
namespace Sys2Proof.Machine

/-! ### Finite maps -/

theorem SMap.find_cons {α : Type} (p : Nat × α) (m : SMap α) (k : Nat) :
    SMap.find (p :: m) k = if k = p.1 then some p.2 else SMap.find m k := rfl

theorem SMap.find_append {α : Type} (m n : SMap α) (k : Nat) :
    SMap.find (m ++ n) k = (SMap.find m k).or (SMap.find n k) := by
  induction m with
  | nil => rfl
  | cons p m ih => simp only [List.cons_append, SMap.find_cons, ih]; split <;> rfl

theorem SMap.find_eq_none {α : Type} {m : SMap α} {k : Nat} (h : ∀ p ∈ m, p.1 ≠ k) : SMap.find m k = none := by
  induction m with
  | nil => rfl
  | cons p m ih =>
    rw [SMap.find_cons, if_neg (h p (by simp)).symm]
    exact ih fun q hq => h q (by simp [hq])

/-- In a map of rising keys, the first entry of a key is also its last. -/
theorem SMap.find_reverse {α : Type} {m : SMap α} (h : m.Pairwise (fun x y => x.1 < y.1)) (k : Nat) :
    SMap.find m.reverse k = SMap.find m k := by
  induction h with
  | nil => rfl
  | @cons p m hp _ ih =>
    rw [List.reverse_cons, SMap.find_append, ih, SMap.find_cons, SMap.find_cons]
    by_cases e : k = p.1
    · have hm : SMap.find m k = none := SMap.find_eq_none fun q hq => by have := hp q hq; omega
      simp only [hm, if_pos e, Option.none_or]
    · simp [e]

theorem SMap.mem_set {α : Type} {m : SMap α} {k : Nat} {v : α} {q : Nat × α} (h : q ∈ SMap.set m k v) :
    q = (k, v) ∨ q ∈ m := by
  induction m with
  | nil => simpa [SMap.set] using h
  | cons p m ih =>
    simp only [SMap.set] at h
    split_ifs at h <;> simp only [List.mem_cons] at h ⊢ <;> tauto

/-- Setting a key keeps the keys rising. -/
theorem SMap.pairwise_set {α : Type} {m : SMap α} (h : m.Pairwise (fun x y => x.1 < y.1)) (k : Nat) (v : α) :
    (SMap.set m k v).Pairwise (fun x y => x.1 < y.1) := by
  induction h with
  | nil => simp [SMap.set]
  | @cons p m hp hm ih =>
    simp only [SMap.set]
    split
    · rename_i e
      exact .cons (fun q hq => by simpa [e] using hp q hq) hm
    · split
      · rename_i lt
        refine .cons (fun q hq => ?_) (.cons hp hm)
        rcases List.mem_cons.1 hq with rfl | hq
        · exact lt
        · exact lt.trans (hp q hq)
      · refine .cons (fun q hq => ?_) ih
        rcases SMap.mem_set hq with rfl | hq
        · show p.1 < k
          omega
        · exact hp q hq

/-! ### Applying pending values (R40, R43) -/

theorem SMap.find_foldr_set (p : Nat → Bool) (l m : SMap Word) (a : Nat) :
    SMap.find (l.foldr (fun q m => if p (blockOf q.1) then SMap.set m q.1 q.2 else m) m) a
      = if p (blockOf a) then (SMap.find l a).or (SMap.find m a) else SMap.find m a := by
  induction l with
  | nil => simp
  | cons q l ih =>
    rw [List.foldr_cons, SMap.find_cons]
    by_cases e : a = q.1
    · subst e
      by_cases hp : p (blockOf q.1)
      · simp [hp]
      · simpa [hp] using ih
    · by_cases hq : p (blockOf q.1)
      · simpa [hq, SMap.find_set_ne _ _ e, e] using ih
      · simpa [hq, e] using ih

/-- In a selected block, the last pending value of a word becomes its applied value. -/
theorem State.find_regs_applyPend (s : State) (p : Nat → Bool) (a : Nat) :
    SMap.find (s.applyPend p).regs a
      = if p (blockOf a) then (SMap.find s.pend.reverse a).or (SMap.find s.regs a) else SMap.find s.regs a := by
  rw [State.applyPend, List.foldl_eq_foldr_reverse, SMap.find_foldr_set]

theorem State.find_pend_applyPend (s : State) {p : Nat → Bool} {a : Nat} (h : p (blockOf a) = true) :
    SMap.find (s.applyPend p).pend a = none := by
  refine SMap.find_eq_none fun q hq e => ?_
  have hq : q ∈ s.pend ∧ p (blockOf q.1) = false := by simpa [State.applyPend] using hq
  simp [e, h] at hq

@[simp] theorem State.pendWord_setPend_same (s : State) (a : Nat) (v : Word) : (s.setPend a v).pendWord a = v := by
  simp [State.pendWord, State.setPend]

/-- The strobe applies the pending value of a word in a selected block, and the word waits for no strobe any more. -/
theorem State.applyPend_word {s : State} (hs : s.pend.Pairwise (fun x y => x.1 < y.1)) {p : Nat → Bool} {a : Nat}
    (h : p (blockOf a) = true) : (s.applyPend p).word a = s.pendWord a ∧ (s.applyPend p).pendWord a = s.pendWord a := by
  have hw : (s.applyPend p).word a = s.pendWord a := by
    rw [State.word, State.find_regs_applyPend, if_pos h, SMap.find_reverse hs, State.pendWord]
    cases SMap.find s.pend a <;> rfl
  exact ⟨hw, by rw [State.pendWord, State.find_pend_applyPend s h, Option.getD_none, hw]⟩

/-! ### Resets of registers (R46) -/

theorem find_resetWords (k : ResetKind) (m : SMap Word) {reach : Nat → Bool} {a : Nat} (h : reach a = true) :
    SMap.find (resetWords k reach m) a = (SMap.find m a).map (afterReset k a) := by
  induction m with
  | nil => rfl
  | cons p m ih =>
    simp only [resetWords, List.map_cons, SMap.find_cons] at ih ⊢
    by_cases e : a = p.1
    · subst e; simp [h]
    · have e' : a ≠ (if reach p.1 then (p.1, afterReset k p.1 p.2) else p).1 := by split <;> exact e
      rw [if_neg e', if_neg e, ih]

theorem resetWords_reverse (k : ResetKind) (reach : Nat → Bool) (m : SMap Word) :
    (resetWords k reach m).reverse = resetWords k reach m.reverse := List.map_reverse.symm

/-- A bit that the reset does not keep takes its Reset column value. -/
theorem getLsbD_afterReset {k : ResetKind} {a i : Nat} (h : (BitVec.ofNat 32 (keptMask k a)).getLsbD i = false) (v : Word) :
    (afterReset k a v).getLsbD i = (resetWord a).getLsbD i := by
  by_cases hi : i < 32
  · simp only [afterReset, BitVec.getLsbD_or, BitVec.getLsbD_and, BitVec.getLsbD_not, h, hi]
    simp
  · simp [BitVec.getLsbD_of_ge _ _ (Nat.le_of_not_lt hi)]

theorem getLsbD_getD_afterReset {k : ResetKind} {a i : Nat} (h : (BitVec.ofNat 32 (keptMask k a)).getLsbD i = false)
    (o : Option Word) {d : Word} (hd : d.getLsbD i = (resetWord a).getLsbD i) :
    ((o.map (afterReset k a)).getD d).getLsbD i = (resetWord a).getLsbD i := by
  cases o with
  | none => exact hd
  | some v => exact getLsbD_afterReset h v

section
variable {k : ResetKind} {reach : Nat → Bool} {a i : Nat} (hr : reach a = true)
  (hk : (BitVec.ofNat 32 (keptMask k a)).getLsbD i = false)
include hr hk

theorem State.getLsbD_word_resetRegs (s : State) :
    ((s.resetRegs k reach).word a).getLsbD i = (resetWord a).getLsbD i := by
  rw [State.word, State.resetRegs, find_resetWords k _ hr]
  exact getLsbD_getD_afterReset hk _ rfl

theorem State.getLsbD_pendWord_resetRegs (s : State) :
    ((s.resetRegs k reach).pendWord a).getLsbD i = (resetWord a).getLsbD i := by
  have hw := s.getLsbD_word_resetRegs hr hk
  rw [State.pendWord]
  generalize (s.resetRegs k reach).word a = d at hw
  rw [State.resetRegs, find_resetWords k _ hr]
  exact getLsbD_getD_afterReset hk _ hw

theorem State.getLsbD_word_applyPend_resetRegs (s : State) (p : Nat → Bool) :
    (((s.resetRegs k reach).applyPend p).word a).getLsbD i = (resetWord a).getLsbD i := by
  rw [State.word]
  rw [State.find_regs_applyPend]
  split
  · rw [State.resetRegs, resetWords_reverse, find_resetWords k _ hr, find_resetWords k _ hr, ← Option.map_or]
    exact getLsbD_getD_afterReset hk _ rfl
  · exact s.getLsbD_word_resetRegs hr hk

end

/-- Settles O55: of a word in reach, the applied and the pending map both hold only values that the reset has passed over, so
whichever of them a strobe applies, the bit is that of the Reset column. -/
theorem pendingDiscarded : Obligations.PendingDiscarded := by
  unfold Obligations.PendingDiscarded
  intro s k reach p a i hr hk
  exact ⟨s.getLsbD_pendWord_resetRegs hr hk, s.getLsbD_word_applyPend_resetRegs hr hk p⟩

/-! ### The strobe of a service core (R45) -/

theorem vitalBlock_iff (b : Nat) : vitalBlock b = true ↔ b ∈ [4, 5, 0xB, 0xC, 0xD, 9, 0xE] := by
  simp only [vitalBlock, Bool.or_eq_true, beq_iff_eq, List.mem_cons, List.not_mem_nil, or_false]
  omega

theorem State.vitalGroup_eq (s : State) (g : Nat) :
    s.vitalGroup g = [4, 5, 0xB, 0xC, 0xD, 9, 0xE].any (fun b => s.groupOf b == g) := by
  rw [Bool.eq_iff_iff]
  simp only [State.vitalGroup, List.any_eq_true, Bool.and_eq_true, vitalBlock_iff, List.mem_range]
  constructor
  · rintro ⟨b, -, hb, hg⟩
    exact ⟨b, hb, hg⟩
  · rintro ⟨b, hb, hg⟩
    refine ⟨b, ?_, hb, hg⟩
    simp only [List.mem_cons, List.not_mem_nil, or_false] at hb
    omega

theorem testBit_setBit (v i j : Nat) (b : Bool) : (setBit v i b).testBit j = if j = i then b else v.testBit j := by
  rw [setBit, testBit_putBits]
  rcases Nat.lt_trichotomy j i with h | rfl | h
  · simp [h, h.ne]
  · cases b <;> simp
  · simp [show ¬ j < i by omega, show ¬ j < i + 1 by omega, h.ne']

/-- Clearing the bits of a list leaves the bits outside it. -/
theorem testBit_foldl_setBit_false (l : List Nat) (v j : Nat) :
    (l.foldl (fun v g => setBit v g false) v).testBit j = (v.testBit j && decide (j ∉ l)) := by
  induction l generalizing v with
  | nil => simp
  | cons g l ih =>
    rw [List.foldl_cons, ih, testBit_setBit]
    by_cases e : j = g <;> simp [e]

theorem State.word_consume_ne (s : State) (who : Initiator) (b : Nat) {a : Nat} (h : a ≠ Reg.REGG_STAT.UNLOCK_HELD.addr) :
    (s.consume who b).word a = s.word a := by
  unfold State.consume State.dropUnlock State.putBit
  split
  · exact State.word_put_ne _ _ _ _ h (.inl (by decide))
  · rfl

/-- An unlock used up leaves the strobe groups as they are. -/
theorem State.vitalGroup_consume (s : State) (who : Initiator) (b g : Nat) :
    (s.consume who b).vitalGroup g = s.vitalGroup g := by
  have h (c : Nat) : (s.consume who b).groupOf c = s.groupOf c := by
    rw [State.groupOf, State.word_consume_ne _ _ _ (by change 0x20030040 + 4 * (c / 8) ≠ 0x20030008; omega), State.groupOf]
  simp only [State.vitalGroup, h]

theorem State.get_consume_apart (s : State) (who : Initiator) (b : Nat) {f : Fld} (h : f.apart Reg.REGG_STAT.UNLOCK_HELD) :
    (s.consume who b).get f = s.get f := by
  unfold State.consume State.dropUnlock
  split
  · exact State.get_putBit_apart _ _ _ _ _ (by decide) h
  · rfl

/-- REGG_STROBE_PEND lies in the word after REGG_STAT. -/
theorem strobePend_apart {f : Fld} (ha : f.addr = Reg.REGG_STAT.STROBE_PEND.addr) (hw : f.lo + f.width ≤ 32) :
    Reg.REGG_STROBE_PEND.GROUPS.apart f := by
  refine .inr (.inl ?_)
  rw [Fld.span, if_pos hw, ha]

/-- The groups that wait after a strobe are those that waited and those written, without the vital ones that a service
core wrote. -/
theorem bit_strobePend_execReggStrobe (s : State) (who : Initiator) (groups : BitVec 16) (ha : s.acts who = true) :
    ∃ u, execReggStrobe who groups s = .next u ∧ ∀ g, g < 16 → u.bit Reg.REGG_STROBE_PEND.GROUPS g
      = (s.bit Reg.REGG_STROBE_PEND.GROUPS g || (groups.getLsbD g && !(who.isService && s.vitalGroup g))) := by
  simp only [execReggStrobe, ha, Bool.not_true, Bool.false_eq_true, if_false]
  refine ⟨_, rfl, fun g hg => ?_⟩
  have hc : (s.consume who 3).get Reg.REGG_STROBE_PEND.GROUPS = s.get Reg.REGG_STROBE_PEND.GROUPS :=
    State.get_consume_apart _ _ _ (strobePend_apart rfl (by decide))
  rw [State.bit, State.get_putFlag_apart _ _ _ _ (by decide) (strobePend_apart rfl (by decide)),
    State.get_put_same _ _ _ (by decide)]
  simp only [hc, bitOf, Nat.testBit_mod_two_pow, Nat.testBit_or, testBit_foldl_setBit_false, State.vitalGroup_consume,
    List.mem_filter, List.mem_range, hg, BitVec.testBit_toNat, State.bit]
  cases groups.getLsbD g <;> simp

/-- Settles O56: the bits that the strobe of a service core drops are those of the groups with a vital-only block. -/
theorem serviceStrobe : Obligations.ServiceStrobe := by
  unfold Obligations.ServiceStrobe
  intro s who groups ha hs
  obtain ⟨u, hu, hb⟩ := bit_strobePend_execReggStrobe s who groups ha
  refine ⟨u, hu, fun g hg => ?_⟩
  rw [hb g hg, hs, Bool.true_and, State.vitalGroup_eq]

/-! ### A write of a buffered register (R39, R40) -/

theorem regionOf_of_inMmio {a : Nat} (h : inMmio a = true) : regionOf a = some .mmio := by
  simp only [inMmio, Bool.and_eq_true, decide_eq_true_eq] at h
  obtain ⟨h1, h2⟩ := h
  simp [regionOf, h1, h2, show ¬ a < 0x10000 by omega, show ¬ a < 0x08080000 by omega, show ¬ a < 0x10400000 by omega]

theorem regionAt_word_of_inMmio {a : Nat} (h : inMmio a = true) (h4 : a % 4 = 0) : regionAt a 4 = some .mmio := by
  have h3 : inMmio (a + (4 - 1)) = true := by
    simp only [inMmio, Bool.and_eq_true, decide_eq_true_eq] at h ⊢
    omega
  simp [regionAt, regionOf_of_inMmio h, regionOf_of_inMmio h3]

theorem mod_four_of_regShape {a : Nat} (h : regShape a 4 = true) : a % 4 = 0 := by
  simpa [regShape] using h

/-- A write with the rights, and the unlock where one is asked for, passes the guard. -/
theorem State.gate_passes {s : State} {who : Initiator} {a : Nat} {guarded right : Bool} (ha : s.acts who = true)
    (hm : mayWrite who (blockOf a) = true) (hr : right = true) (hu : guarded = false ∨ s.unlocked who (blockOf a) = true) :
    s.gate who a guarded right = (s.consume who (blockOf a), true) := by
  rcases hu with hu | hu <;> simp [State.gate, ha, hm, hr, hu]

theorem State.classWord_buffered (s : State) {c : Acc} (h : c = .rw ∨ c = .rwg) (a v : Nat) :
    s.classWord c a v = s.setPend a (BitVec.ofNat 32 v) := by
  rcases h with rfl | rfl <;> rfl

/-- A performed write of a word of a buffered register sets its pending value. -/
theorem State.writeReg_buffered {s : State} {t : Nat} {who : Initiator} {a v : Nat} {r : RegRow}
    (hg : s.gate who a (guarded a) (regRight who a) = (s.consume who (blockOf a), true))
    (hs : regShape a 4 = true) (hk : a ≠ Reg.REGG_UNLOCK.KEY.addr) (hal : isAlias a = false) (hf : findRow a = some r)
    (hacc : r.acc = .rw ∨ r.acc = .rwg) (hres : s.reservedKept a v = true) (hp : perCore a = false)
    (ho : (s.ownWrite t who a 4 v).isNone = true) :
    s.writeReg t who a 4 v = .next ((s.consume who (blockOf a)).setPend a (BitVec.ofNat 32 v)) := by
  have hro : (r.acc == .ro) = false := by rcases hacc with h | h <;> rw [h] <;> rfl
  simp [State.writeReg, hs, hk, hg, hal, hf, hro, wordsOf, hres, hp, Option.isNone_iff_eq_none.1 ho,
    State.classWord_buffered _ hacc]

/-- Settles O57: a performed write replaces what was pending, and since the keys of the pending map rise, the strobe meets one
value of each word. -/
theorem lastWriteWins : Obligations.LastWriteWins := by
  unfold Obligations.LastWriteWins
  constructor
  · intro s t who addr data r v hv ha hi hs hk hm hr hu hal hf hacc hres hp ho
    subst hv
    have hreg := regionAt_word_of_inMmio hi (mod_four_of_regShape hs)
    calc exec (.registerWrite t who addr 4 data) s
        = (s.at_ t).writeAt t who addr.toNat 4 (data.toNat % 2 ^ 32) := rfl
      _ = (s.at_ t).writeReg t who addr.toNat 4 (data.toNat % 2 ^ 32) := by simp only [State.writeAt, ha, hreg]; rfl
      _ = _ := State.writeReg_buffered (State.gate_passes ha hm hr hu) hs hk hal hf hacc hres hp ho
  · intro s p a x y hs hp
    have hs' : ((s.setPend a x).setPend a y).pend.Pairwise (fun x y => x.1 < y.1) :=
      SMap.pairwise_set (SMap.pairwise_set hs a x) a y
    have hy : ((s.setPend a x).setPend a y).pendWord a = y := State.pendWord_setPend_same _ a y
    obtain ⟨hw, hpw⟩ := State.applyPend_word hs' hp
    exact ⟨hy, hw.trans hy, hpw.trans hy⟩

end Sys2Proof.Machine
end

section
/-! Loads of a Tricycle core from the pop windows: what such a load does, and what it leaves alone (R36, R61, R62, R74). -/
namespace Sys2Proof.Machine

/-! ### What a fault of a Tricycle core leaves alone (R36, R62) -/

/-- From `s` to `u`, nothing is popped, returned or held: every FIFO behind the pop windows, what the latest loads returned
and the held high halves are as they were (R31, R32). -/
def State.popsNothing (s u : State) : Prop :=
  u.time.caps = s.time.caps ∧ u.safe.eng = s.safe.eng ∧ u.brg.log = s.brg.log ∧ (∀ c, (u.loop c).fifo = (s.loop c).fifo) ∧
    u.popped = s.popped ∧ u.held = s.held

theorem State.popsNothing_refl (s : State) : s.popsNothing s := ⟨rfl, rfl, rfl, fun _ => rfl, rfl, rfl⟩

theorem State.popsNothing.trans {s u w : State} (h : s.popsNothing u) (h' : u.popsNothing w) : s.popsNothing w := by
  obtain ⟨hcap, heng, hlog, hloop, hpop, hheld⟩ := h
  obtain ⟨hcap', heng', hlog', hloop', hpop', hheld'⟩ := h'
  exact ⟨hcap'.trans hcap, heng'.trans heng, hlog'.trans hlog, fun c => (hloop' c).trans (hloop c), hpop'.trans hpop,
    hheld'.trans hheld⟩

@[simp] theorem State.setCore_traps (s : State) (n : Nat) (c : TriCore) : (s.setCore n c).traps = s.traps := by
  simp [State.setCore, State.showCores]

theorem State.popsNothing_setCore (s : State) (n : Nat) (c : TriCore) : s.popsNothing (s.setCore n c) := by
  simp [State.popsNothing, State.setCore, State.showCores, State.loop]

theorem State.lateFold_eq (s : State) (n : Nat) : ∃ c, s.lateFold n = s.setCore n c := by
  simp only [State.lateFold]
  split <;> exact ⟨_, rfl⟩

/-- A fault of a core leaves the state as it is or replaces that core (R62, R72). -/
theorem State.coreFault_eq (s : State) (n : Nat) : s.coreFault n = s ∨ ∃ c, s.coreFault n = s.setCore n c := by
  simp only [State.coreFault]
  split_ifs
  · exact .inl rfl
  · exact .inr ⟨_, rfl⟩
  · exact .inr (s.lateFold_eq n)

@[simp] theorem State.coreFault_traps (s : State) (n : Nat) : (s.coreFault n).traps = s.traps := by
  rcases s.coreFault_eq n with h | ⟨c, h⟩ <;> simp [h]

theorem State.popsNothing_coreFault (s : State) (n : Nat) : s.popsNothing (s.coreFault n) := by
  rcases s.coreFault_eq n with h | ⟨c, h⟩ <;> rw [h]
  · exact s.popsNothing_refl
  · exact s.popsNothing_setCore n c

theorem State.popsNothing_coreTrap (s : State) (n : Nat) (store : Bool) (a : Nat) : s.popsNothing (s.coreTrap n store a) :=
  have hn : s.popsNothing (s.noteTrap .tri store a) := s.popsNothing_refl
  hn.trans (State.popsNothing_coreFault _ n)

theorem State.find_traps_coreTrap (s : State) (n : Nat) (store : Bool) (a : Nat) :
    SMap.find (s.coreTrap n store a).traps 0 = some ⟨store, a⟩ := by
  simp [State.coreTrap, State.noteTrap, Initiator.idx]

/-! ### The addresses of the pop windows (R31) -/

theorem inMmio_of_isPop {a : Nat} (h : isPop a = true) : inMmio a = true := by
  simp only [isPop, inMmio, Bool.or_eq_true, Bool.and_eq_true, decide_eq_true_eq, beq_iff_eq] at h ⊢
  omega

theorem isPop_of_popWide {a : Nat} (h : popWide a = true) : isPop a = true := by
  rw [popWide, Bool.and_eq_true] at h
  exact h.1

/-- The high half of a 64-bit pop window is part of it. -/
theorem isPop_add_four_of_popWide {a : Nat} (h : popWide a = true) (h8 : a % 8 = 0) : isPop (a + 4) = true := by
  simp only [popWide, isPop, Bool.or_eq_true, Bool.and_eq_true, Bool.not_eq_true', Bool.and_eq_false_iff, decide_eq_true_eq,
    decide_eq_false_iff_not, beq_iff_eq] at h ⊢
  omega

/-- LOOP_HRXc (R335). -/
theorem isPop_of_hartFifo {a : Nat} (h1 : 0x200F0100 ≤ a) (h2 : a < 0x200F0180) (h3 : a % 32 = 0x18) : isPop a = true := by
  simp only [isPop, Bool.or_eq_true, Bool.and_eq_true, decide_eq_true_eq, beq_iff_eq]
  omega

theorem regionAt_double_of_inMmio {a : Nat} (h : inMmio a = true) (h8 : a % 8 = 0) : regionAt a 8 = some .mmio := by
  have h7 : inMmio (a + (8 - 1)) = true := by
    simp only [inMmio, Bool.and_eq_true, decide_eq_true_eq] at h ⊢
    omega
  simp [regionAt, regionOf_of_inMmio h, regionOf_of_inMmio h7]

/-! ### The load (R61) -/

theorem State.lt_three_of_executes {s : State} {n : Nat} (h : s.executes n = true) : n < 3 := by
  simp only [State.executes, Bool.and_eq_true, decide_eq_true_eq] at h
  omega

/-- A core's load in a pop window that reaches its address faults that core. -/
theorem State.loadAt_isPop {s : State} {core a size : Nat} (hr : regionAt a size = some .mmio) (hp : isPop a = true)
    (hc : core < 3) : s.loadAt .tri core a size = .next (s.coreTrap core false a) := by
  have ht : s.loadTrap .tri core a = s.coreTrap core false a := by simp [State.loadTrap, hc]
  simp [State.loadAt, State.mmioLoad, hr, hp, ht]

theorem State.issueLoad_isPop_executes {s : State} {core a size : Nat} (hr : regionAt a size = some .mmio)
    (hp : isPop a = true) (he : s.executes core = true) (hq : (s.core core).queue = []) :
    s.issueLoad .tri core a size = .next (s.coreTrap core false a) := by
  simp [State.issueLoad, he, hq, State.loadAt_isPop hr hp (State.lt_three_of_executes he)]

/-- A core's load in a pop window is not issued, waits for the core's own stores, or faults the core; each way nothing is
popped. -/
theorem State.issueLoad_isPop_popsNothing {s : State} {core a size : Nat} (hr : regionAt a size = some .mmio)
    (hp : isPop a = true) : ∃ u, s.issueLoad .tri core a size = .next u ∧ s.popsNothing u := by
  by_cases he : s.executes core = true
  · by_cases hq : (s.core core).queue = []
    · exact ⟨_, State.issueLoad_isPop_executes hr hp he hq, s.popsNothing_coreTrap core false a⟩
    · have hd : inDevice a = true := by simp [inDevice, inMmio_of_isPop hp]
      refine ⟨s.setCore core { s.core core with readStall := some (a, size) }, ?_, s.popsNothing_setCore _ _⟩
      simp [State.issueLoad, he, hd, hq]
  · exact ⟨s, by simp [State.issueLoad, he], s.popsNothing_refl⟩

/-- A core that executes and has no store unresolved takes a load access fault at the address of its load, and nothing is
popped. -/
theorem State.issueLoad_isPop_faults {s : State} {core a size : Nat} (hr : regionAt a size = some .mmio)
    (hp : isPop a = true) (he : s.executes core = true) (hq : (s.core core).queue = []) :
    ∃ u, s.issueLoad .tri core a size = .next u ∧ SMap.find u.traps 0 = some ⟨false, a⟩ ∧ s.popsNothing u :=
  ⟨_, State.issueLoad_isPop_executes hr hp he hq, s.find_traps_coreTrap core false a, s.popsNothing_coreTrap core false a⟩

/-- Settles O58: the words that each of the four reads takes are words of a pop window in one MMIO region, where a core's load
ends in its fault. -/
theorem tricyclePop : Obligations.TricyclePop := by
  unfold Obligations.TricyclePop
  have wide {win : BitVec 64} (hw : popWide win.toNat = true) (h8 : win.toNat % 8 = 0) :
      regionAt win.toNat 8 = some .mmio := regionAt_double_of_inMmio (inMmio_of_isPop (isPop_of_popWide hw)) h8
  have word {a : Nat} (hp : isPop a = true) (h4 : a % 4 = 0) : regionAt a 4 = some .mmio :=
    regionAt_word_of_inMmio (inMmio_of_isPop hp) h4
  refine ⟨?read64Faults, ?read64Pops, ?lowFaults, ?lowPops, ?highFaults, ?highPops, ?read32Faults, ?read32Pops⟩
  case read64Faults =>
    rintro s t core win v rfl hw h8 he hq
    exact State.issueLoad_isPop_faults (wide hw h8) (isPop_of_popWide hw) he hq
  case read64Pops =>
    rintro s t core win v rfl hw h8
    exact State.issueLoad_isPop_popsNothing (wide hw h8) (isPop_of_popWide hw)
  case lowFaults =>
    rintro s t core win v rfl hw h8 he hq
    have hp := isPop_of_popWide hw
    exact State.issueLoad_isPop_faults (word hp (by omega)) hp he hq
  case lowPops =>
    rintro s t core win v rfl hw h8
    have hp := isPop_of_popWide hw
    exact State.issueLoad_isPop_popsNothing (word hp (by omega)) hp
  case highFaults =>
    rintro s t core win v rfl hw h8 he hq
    have hp := isPop_add_four_of_popWide hw h8
    exact State.issueLoad_isPop_faults (word hp (by omega)) hp he hq
  case highPops =>
    rintro s t core win v rfl hw h8
    have hp := isPop_add_four_of_popWide hw h8
    exact State.issueLoad_isPop_popsNothing (word hp (by omega)) hp
  case read32Faults =>
    rintro s t core win v rfl h1 h2 h3 he hq
    have hp := isPop_of_hartFifo h1 h2 h3
    exact State.issueLoad_isPop_faults (word hp (by omega)) hp he hq
  case read32Pops =>
    rintro s t core win v rfl h1 h2 h3
    have hp := isPop_of_hartFifo h1 h2 h3
    exact State.issueLoad_isPop_popsNothing (word hp (by omega)) hp

end Sys2Proof.Machine
end
